-- ==== Sys2Proof/Word.lean ====
section
/-! DEFINITION. The word types of the block and its plainest arithmetic (00_scope.md R3, R5). -/

namespace Sys2Proof

/-- One byte. -/
abbrev Byte := BitVec 8
/-- One 32-bit register (R449). -/
abbrev Word := BitVec 32

/-- The largest value of an unsigned field of `w` bits. -/
def maxOf (w : Nat) : Nat := 2 ^ w - 1

/-- A saturating counter of `w` bits ("Counters saturate"): `x` raised by `n`. -/
def satAdd (w x n : Nat) : Nat := min (maxOf w) (x + n)

/-- ceil(a / b). -/
def ceilDiv (a b : Nat) : Nat := (a + b - 1) / b

/-- 1 for true, 0 for false. -/
def b2n (b : Bool) : Nat := if b then 1 else 0

theorem satAdd_le (w x n : Nat) : satAdd w x n ≤ maxOf w := Nat.min_le_left _ _

theorem le_satAdd {w x : Nat} (n : Nat) (h : x ≤ maxOf w) : x ≤ satAdd w x n :=
  Nat.le_min.mpr ⟨h, Nat.le_add_right x n⟩

end Sys2Proof
end

