-- ==== Sys2Proof/Config.lean ====
section
/-! DEFINITION. What every HZT-1648 fixes (sizes and limits of the spec's tables) and the FREE VALUES: opaque
constants with no body, one for each value that the spec leaves open after a step that runs. -/

namespace Sys2Proof.Config

/-- Bytes that the spec leaves undefined: a slice still failing after its last pulse (11 R492), a Belfry chunk after
its third failing write (15 R377), and the core-state section of a Knell record (18 R431). Applied to a counter. -/
opaque freeByte : Nat → Byte

/-- The factory trim of an MRAM die position: its write-pulse start level, in the trims record of the Belfry (15 Table
15.1). The spec gives neither its coding nor its value. -/
opaque startTrim : Nat → Byte

/-- The 512-bit XTS key that a KIT_CREATE draws from the noise source (08 R218). Applied to a counter. -/
opaque drawnKey : Nat → BitVec 512

/-- What a register whose value is settled only later, or that reports a measurement the model does not hold, reads
(17 R421 hold time, 15 R375 chunk times). Applied to a counter. -/
opaque freeWord : Nat → Word

/-- The core-state length of a Knell record (18 R431): the firmware's own choice; the section is this many 64-byte
units, at most 3,283. -/
opaque coreUnits : Nat → Nat

/-- Byte `i` of a 16-byte descriptor, or of a 128-byte count entry, of a Knell record's queues section (18 R431): the spec
names the fields that it holds and leaves their places open. Applied to the fields. -/
opaque descByte : List Nat → Nat → Byte

/-- The result of the noise source's health test at the n-th draw (08 R220): the spec gives no rule for it. -/
opaque noiseHealthy : Nat → Bool

def mainFrames : Nat := 245760          -- R18
def deepPages : Nat := 7340032          -- R19
def firstDeep : Nat := 245760           -- R18
def endDeep : Nat := 7585792            -- R18
def framesPerGiB : Nat := 16384         -- R236
def metaBase : Nat := 0xF000000         -- R352
def muffleBase : Nat := 0xF800000       -- log 9
def stageBase : Nat := 0xF7F8000        -- log 9
def shadowBase : Nat := 0xFFFFC00       -- R490
def knellBase : Nat := 0xFFFDC00        -- R490
def knellCopyChords : Nat := 4096       -- R490, R429
def chordCount : Nat := 2 ^ 28          -- R342
def kitShareLimit : Nat := 608          -- R76
def reserveLimit : Nat := 640           -- R76
def maintShare : Nat := 32              -- R76
def holdEntries : Nat := 320            -- R281
def kitEntries : Nat := 304             -- R281
def maintEntries : Nat := 16            -- R281
def mergeEntries : Nat := 64            -- R290
def readTokens : Nat := 96              -- R79
def intakeChords : Nat := 8192          -- R81
def replyEntries : Nat := 2048          -- R129
def unboundLimit : Nat := 64            -- R156
def redoEntries : Nat := 256            -- R300
def fixEntries : Nat := 64              -- R339
def promoEntries : Nat := 64            -- R262
def openFaultLimit : Nat := 256         -- R354
def repairQueueLimit : Nat := 16        -- R358
def mapPairs : Nat := 128               -- R355
def logQueueLimit : Nat := 64           -- R384
def tallyRing : Nat := 65536            -- R441
def nearPoolBlocks : Nat := 24320       -- R248
def carveOut : Nat := 256               -- R248
def deepFreeLow : Nat := 64             -- R267
def deepFreeHigh : Nat := 128           -- R267
def pushFifo : Nat := 512               -- Table 12.1
def storeUnits : Nat := 256             -- R306
def genId : Word := 0x48541648          -- R1
def idcode : Word := 0x1648A0B5         -- R15
def beatWrap : Nat := 2 ^ 48            -- R38
def warmBeats : Nat := 262144           -- R256
def fwLimit : Nat := 256                -- R54
def lostLimit : Nat := 2048             -- R49

/-- Beat length in picoseconds at a rate code (Table 2.1), rounded down; 0 for a code that names no rate. -/
def beatPs : Nat → Nat
  | 0 => 85333 | 1 => 64000 | 2 => 42666 | 3 => 32000 | 4 => 25600 | _ => 0

/-- floor(nominal Beat ns × 5) capped at 160 (R65, Table 1.7). -/
def ringBudget (rate : Nat) : Nat := min 160 (beatPs rate * 5 / 1000)

/-- floor(nominal Beat ns × 0.97 × 5) capped at 160 (R51): E of Table 3.3. -/
def extrapBudget (rate : Nat) : Nat := min 160 (beatPs rate * 97 * 5 / 100000)

/-- floor(actual Beat ns × 5) of a 28-slot Beat, capped at 160 (R104). -/
def shortBudget (rate : Nat) : Nat := min 160 (beatPs rate * 28 * 5 / 32000)

/-- Strokes per 32 ns of house time outside ring time (R396, R429). -/
def houseBudget : Nat := 144

/-- The scrub rate of R342, Table 13.7, in chords per Bar, 16.16, for a period of `h` hours. -/
def scrubRate (rate h : Nat) : Nat :=
  let gt := match rate with | 0 => 12 | 1 => 16 | 2 => 24 | 3 => 32 | _ => 40
  ceilDiv (2 ^ 44 * 1048576) (h * 3600000000000 * gt)

end Sys2Proof.Config
end

