-- ==== Sys2Proof/Syntax.lean ====
section
/-! DEFINITION. The commands of the HZT-1648 block: one constructor of Instr per row of
spec/opcode_table.json, with the operands each row takes. A physical outcome that the device itself
cannot choose (which slices fail a verify, what a sensor reads, whether a NAND read decodes) is an
operand of the event that reports it. -/

namespace Sys2Proof

/-- Kit number, 0 to 15 (R206). -/
abbrev Kit := Fin 16
/-- Rudiment engine, 0 to 7 (R305). -/
abbrev Engine := Fin 8
/-- Node ID (R126). -/
abbrev Node := BitVec 5
/-- Kit page number, kit address [38:16] (R232). -/
abbrev KPage := BitVec 23
/-- Device chord index (R342). -/
abbrev ChordIx := BitVec 28
/-- Slices of one chord, bit r for role r (Table 13.1); bit 10 for the unit in shadow or the spare being resilvered. -/
abbrev Slices := BitVec 11
/-- General register g0 to g7 of an engine (Table 12.1). -/
abbrev GReg := Fin 8

/-- The two Askyrek rings. -/
inductive Ring | a | b
deriving DecidableEq, Repr

/-- The interface on which a request came. -/
inductive Via | ring (r : Ring) | i3c
deriving DecidableEq, Repr

/-- A request as received: the header of Table 6.1 and the payload it carries. `src` is the SRC field of its flits. -/
structure Req where
  opc     : BitVec 8
  ktag    : BitVec 4
  reply   : Bool
  sync    : Bool
  nowait  : Bool
  early   : Bool
  snode   : Node
  ringBit : Bool
  prio    : BitVec 2
  dnode   : BitVec 8
  seq     : BitVec 16
  len     : BitVec 16
  param   : BitVec 64
  payload : List Byte
  via     : Via
  src     : Node
deriving DecidableEq, Repr

/-- One flit on a ring (Table 5.2). `blank` marks a blank slot (R89), which holds no flit. -/
structure Flit where
  blank   : Bool
  cls     : BitVec 2
  ronly   : Bool
  first   : Bool
  retry   : Bool
  lap     : Bool
  refused : Bool
  src     : Node
  stream  : BitVec 3
  content : List Byte
  crc     : BitVec 16
deriving DecidableEq, Repr

/-- A Beat marker as received in slot 0 (Table 2.2). `crcGood` is the CRC-16 check of its flit. -/
structure Marker where
  crcGood : Bool
  kind    : BitVec 8
  beat    : BitVec 10
  mbar    : BitVec 32
  rate    : BitVec 3
deriving DecidableEq, Repr

/-- What ends a Beat: 32 slots of Ring A, or the house oscillator (R37). -/
inductive BeatBase
  /-- slots; where the Beat ends a Bar, that Bar's length on the house oscillator, in thousandths of nominal (R34) -/
  | slots (permille : Nat)
  /-- the house oscillator, by which a Bar has its nominal length -/
  | oscillator
deriving DecidableEq, Repr

/-- Whether the slots of Ring A end the Beat. -/
def BeatBase.slotted : BeatBase → Bool
  | .slots _ => true
  | .oscillator => false

/-- The length of the Bar that ends, on the house oscillator, in thousandths of nominal (R34). -/
def BeatBase.permille : BeatBase → Nat
  | .slots p => p
  | .oscillator => 1000

/-- A Downbeat's marker, and the length on the house oscillator of the Bar that it ends, in thousandths of nominal (R34). -/
structure BarEnd where
  marker   : Marker
  permille : Nat
deriving DecidableEq, Repr

/-- The Downbeat that ends a rate change, and the lanes of each ring that its training found bad (R94, R95). -/
structure Retrained where
  down : BarEnd
  badA : BitVec 16
  badB : BitVec 16
deriving DecidableEq, Repr

/-- L_hop as a window measures it, none when no blink is sensed (R119): of the device's own Out side and of the hop
upstream of it. -/
structure Hops where
  out : Option (BitVec 4)
  up  : Option (BitVec 4)
deriving DecidableEq, Repr

/-- An I3C private write: the address on the bus and the bytes (R475). -/
structure I3cWrite where
  dest  : BitVec 7
  bytes : List Byte
deriving DecidableEq, Repr

/-- An I3C private read: the address on the bus, and after how many bytes the controller stops early, if it does (R475). -/
structure I3cRead where
  dest      : BitVec 7
  stopAfter : Option Nat
deriving DecidableEq, Repr

/-- SETDASA: the static address named and the dynamic address given (R15). -/
structure Dasa where
  static : BitVec 7
  addr   : BitVec 7
deriving DecidableEq, Repr

/-- The failing slices of each held write at the end of a completion, in acceptance order;
an entry past the end of the list passes (R298, R299). -/
abbrev CompOut := List Slices

/-- The outcome of reading one sector from NAND (R262, R264, R266). -/
inductive SectorRead
  /-- decoded, with this many bits corrected in the codeword -/
  | good (corrected : BitVec 8)
  /-- the hard decode failed; a retry step follows -/
  | retry
  /-- failed after seven retry steps and the soft decode -/
  | uncorrectable
deriving DecidableEq, Repr

/-- A unit of the MRAM stack that goes out or returns (R358, R359). -/
inductive OutUnit | die (d : Fin 11) | bank (d : Fin 11) (b : BitVec 5)
deriving DecidableEq, Repr

/-- The unit kinds of R372 that have one running transfer each (R364). -/
inductive UnitKind | die | bank | lane | row | column
deriving DecidableEq, Repr

/-- The critical records of the Belfry that the device rewrites (Table 15.1, R380). -/
inductive RecId
  | key (k : Kit) | rootWrap | repairPair (n : BitVec 7) | recant (k : Kit) | deviceState | scrub
  | knellSummary | factoryId | fillAll
deriving DecidableEq, Repr

/-- A failure that a Toll part finds, as its result record names it (Table 16.5). -/
structure TollFail where
  part   : BitVec 8
  kind   : BitVec 4
  unit   : BitVec 8
  bank   : BitVec 8
  row    : BitVec 16
  colgrp : BitVec 4
  lane   : BitVec 6
  bit    : Option (BitVec 7)
  value  : BitVec 8
deriving DecidableEq, Repr

/-- A TAP instruction (R477). -/
inductive TapInstr | bypass | idcode | samplePreload | extest | serial1838 | wrapper1500
deriving DecidableEq, Repr

/-- A cause of Table 18.1. -/
inductive KnellCause | toll | chkfail | metafail | sramded | logmain | watchdog | assert
deriving DecidableEq, Repr

/-- Target tier of FETCH and PIN (Table 12.2): 1 Near, 2 Main. -/
inductive Tgt | near | main
deriving DecidableEq, Repr

/-- Target of UNPIN and HINT_EVICT (Table 12.2): 1 Near, 2 Main, 3 both. -/
inductive Tgt3 | near | main | both
deriving DecidableEq, Repr

/-- The condition of BR (Table 12.2). -/
inductive BrCond | always | zero | nonzero
deriving DecidableEq, Repr

/-- The source of a register-or-immediate operand. -/
inductive RegOrImm (w : Nat) | imm (n : BitVec w) | reg (r : GReg)
deriving DecidableEq, Repr

/-- The three forms of DEADLINE (Table 12.2). -/
inductive DlMode | imm (n : BitVec 20) | reg (r : GReg) | clear
deriving DecidableEq, Repr

/-- The late-page policies (Table 12.4). -/
inductive Policy | stall | muffle | late
deriving DecidableEq, Repr

/-- A Rudiment instruction (Table 12.2). -/
inductive RudInstr
  | halt
  | nop
  | seti (rd : GReg) (hi : Bool) (imm : BitVec 16)
  | addi (rd rs : GReg) (imm : BitVec 16)
  | mov (rd rs : GReg)
  | loop (count : RegOrImm 12) (len : BitVec 10)
  | br (cond : BrCond) (rs : GReg) (target : BitVec 12)
  | brs (neg cls : Bool) (status : BitVec 8) (target : BitVec 12)
  | call (target : BitVec 12)
  | ret
  | waitb (n : RegOrImm 20)
  | waitu (mod : Bool) (u : BitVec 10)
  | waitbar (n : BitVec 16)
  | fetch (ra : GReg) (tgt : Tgt) (count1 : BitVec 4) (dl : Bool)
  | stream (ra rb : GReg) (node : Node) (ring : Ring) (count1 : BitVec 4) (dl : Bool)
  | pin (ra : GReg) (tgt : Tgt) (count1 : BitVec 4)
  | unpin (ra : GReg) (tgt : Tgt3) (count1 : BitVec 4)
  | hintEvict (ra : GReg) (tgt : Tgt3) (count1 : BitVec 4)
  | deadline (m : DlMode)
  | policy (full : Bool) (pol : Policy)
  | signal (node : Node) (ring : Ring) (rs : GReg) (code : BitVec 8)
deriving DecidableEq, Repr

/-- What FILL_DONE finds as it releases the control core: the patch image (R23), each Kit's key copies and the
root wrap material (R219), as good or bad. -/
structure FillFind where
  patchPresent : Bool
  patchGood    : Bool
  patchRelease : BitVec 16
  keyA         : BitVec 16
  keyB         : BitVec 16
  rootWrap     : Bool
deriving DecidableEq, Repr

/-- What the Morning Toll finds (R392, R394). -/
structure MorningFind where
  fails        : List TollFail
  fatal        : Bool
  coreUsable   : Bool
  durationUs   : BitVec 24
  dieIdFail    : BitVec 11
  nandIdFail   : BitVec 4
  laneFailA    : BitVec 19
  laneFailB    : BitVec 19
  contPassA    : BitVec 19
  contPassB    : BitVec 19
  contTestedA  : BitVec 19
  contTestedB  : BitVec 19
  eyeA         : List (BitVec 8 × BitVec 8)
  eyeB         : List (BitVec 8 × BitVec 8)
  tempExcluded : BitVec 16
  fieldExcl    : List (BitVec 4)
  repairMapBad : Bool
  nearRowFails : BitVec 8
deriving DecidableEq, Repr

/-- What the Evening Toll finds (R396 to R400). -/
structure EveningFind where
  fails      : List TollFail
  fatal      : Bool
  durationUs : BitVec 24
  sacPulses  : List (BitVec 16)
deriving DecidableEq, Repr

/-- The commands of the block: one constructor per row of the table. -/
inductive Instr
  -- requests of Table 7.1
  | ping (rq : Req) | statusQuery (rq : Req) | read (rq : Req) | write (rq : Req) | writeMasked (rq : Req)
  | fence (rq : Req) | place (rq : Req) | pin (rq : Req) | unpin (rq : Req) | migrateNow (rq : Req)
  | muffleDeclare (rq : Req) | rudLoadStage (rq : Req) | rudLoadLoad (rq : Req) | rudStart (rq : Req)
  | rudStop (rq : Req) | rudQuery (rq : Req) | kitCreate (rq : Req) | kitCreateRebind (rq : Req)
  | kitDestroy (rq : Req) | kitDestroyDrained (k : Kit) | windowSetSet (rq : Req) | windowSetClear (rq : Req)
  | windowClearDrained (k : Kit) (w : Fin 8) | strokeSet (rq : Req) | csrRead (rq : Req) | csrWrite (rq : Req)
  | barBeatnoLoRead (rq : Req) | genTempoStrictWrite (rq : Req) | genRestExitWrite (rq : Req)
  | barSrcRateWrite (rq : Req) | tierSplitRequest (rq : Req) | tierKprobeWrite (rq : Req)
  | eventsW1cClear (rq : Req) | belfryRead (rq : Req) | belfryWrite (rq : Req) | belfrySealPages (rq : Req)
  | belfrySealTest (rq : Req) | tollRun (rq : Req) | repairQuery (rq : Req) | repairApplySpareRow (rq : Req)
  | repairApplySpareColumn (rq : Req) | repairApplySpareDie (rq : Req) | repairApplySpareLane (rq : Req)
  | repairApplyShadowRejoin (rq : Req) | repairApplyLaneRejoin (rq : Req) | tallyCtlStop (rq : Req)
  | tallyCtlRecord (rq : Req) | tallyCtlStream (rq : Req) | tallyCtlFilter (rq : Req)
  | tallyCtlConsent (rq : Req) | tallyRead (rq : Req) | knellRead (rq : Req) | close (rq : Req)
  | restEnter (rq : Req) | gong (rq : Req) (comp : CompOut)
  -- Rudiment instructions of Table 12.2, issued by engine `e`
  | rudHalt (e : Engine) | rudNop (e : Engine) | seti (e : Engine) (rd : GReg) (hi : Bool) (imm : BitVec 16)
  | addi (e : Engine) (rd rs : GReg) (imm : BitVec 16) | mov (e : Engine) (rd rs : GReg)
  | loop (e : Engine) (count : RegOrImm 12) (len : BitVec 10)
  | br (e : Engine) (cond : BrCond) (rs : GReg) (target : BitVec 12)
  | brs (e : Engine) (neg cls : Bool) (status : BitVec 8) (target : BitVec 12)
  | call (e : Engine) (target : BitVec 12) | ret (e : Engine) | waitb (e : Engine) (n : RegOrImm 20)
  | waitu (e : Engine) (mod : Bool) (u : BitVec 10) | waitbar (e : Engine) (n : BitVec 16)
  | fetch (e : Engine) (ra : GReg) (tgt : Tgt) (count1 : BitVec 4) (dl : Bool)
  | stream (e : Engine) (ra rb : GReg) (node : Node) (ring : Ring) (count1 : BitVec 4) (dl : Bool)
  | rudPin (e : Engine) (ra : GReg) (tgt : Tgt) (count1 : BitVec 4)
  | rudUnpin (e : Engine) (ra : GReg) (tgt : Tgt3) (count1 : BitVec 4)
  | hintEvict (e : Engine) (ra : GReg) (tgt : Tgt3) (count1 : BitVec 4)
  | deadline (e : Engine) (m : DlMode) | policy (e : Engine) (full : Bool) (pol : Policy)
  | signal (e : Engine) (node : Node) (ring : Ring) (rs : GReg) (code : BitVec 8)
  | fetchPageComplete (e : Engine) (kp : KPage) | streamDeadline (e : Engine)
  | streamFullPageReady (e : Engine) (pos : BitVec 4) | pushInject (r : Ring) (slot : BitVec 5)
  | rudimentIssue
  -- flits, packets and replies
  -- hopRetryBlink: slot is the Out-slot in which the blink is sensed (R118)
  | flitReceive (r : Ring) (slot : BitVec 5) (f : Flit) | hopRetryBlink (r : Ring) (slot : BitVec 5)
  | headerAdmission (r : Ring) | streamTimeout (r : Ring) (src : Node) (stream : BitVec 3)
  | packetComplete (r : Ring) (src : Node) (stream : BitVec 3) | readReplyRelease (r : Ring) (slot : BitVec 5)
  | strictReplyRelease (r : Ring) (slot : BitVec 5) | earlyTrailer (r : Ring)
  | requestTimeout (rid : Nat) | wedgeReply (rid : Nat)
  | devicePacketRefused (r : Ring) (dest : Node) (seq : BitVec 16)
  -- ring time and the calendar
  -- barPermille: the length of the Bar that ends here on the house oscillator, in thousandths of nominal (R34)
  | beatBoundary (base : BeatBase) (m : Option Marker) | downbeat (m : Marker) (barPermille : Nat)
  | ringBDownbeat (m : Marker) (offset : BitVec 16) | ringBDownbeatLoss | freewheelEntry
  | freewheelExpiry (comp : CompOut)
  | sensorSample (temps : List (BitVec 12)) (fields : List (List (BitVec 12))) | scrubStep
  | belfryRefreshStep (weak stillWeak : BitVec 8) | deepScanStep | heatDecay | measureEnd
  -- writes
  | chordAccept (k : Kit) | preImageCapture (ent : Nat) | chordVerify (ent : Nat) (failing : Slices)
  | fenceComplete (k : Kit) | mergeEntryTimeout (ix : Fin 64) | rmwMerge (ent : Nat)
  -- Deep
  | promotionReadDone (k : Kit) (kp : KPage) (sectors : List (BitVec 4 × SectorRead))
  | nandProgramDone (die : Fin 4) (good : Bool) | nandEraseDone (die : Fin 4) (good : Bool)
  | packWaitExpiry (k : Kit) | dieStall (die : Fin 4) | mutedEntry | deepMapReady
  -- repair
  | dieOut (u : OutUnit) | shadowSwitchover (kind : UnitKind) | transferFail (kind : UnitKind)
  | resilverSwitchover | resilverSlow | laneRemapSwitch (r : Ring) (lane : BitVec 4) (passed : Bool)
  | laneRejoinSwitch (r : Ring) | laneRequest (r : Ring) (lane : BitVec 4) (spare start : Bool)
  | mailboxResend (r : Ring)
  -- ring control
  | trainingComplete (r : Ring) (rate : BitVec 3) (us : BitVec 16) (badLanes : BitVec 16)
  -- a window at its slot 16; step: the In side sees the phase step of a change next to it (R103)
  | joinwin (r : Ring) (w : BitVec 10) (mbar : BitVec 32) (hops : Hops) (step : Bool)
  | leavewin (r : Ring) (node : Node) (w : BitVec 10) (mbar : BitVec 32) (hops : Hops) (comp : CompOut)
  | leaveTimeout (r : Ring) (comp : CompOut)
  | enum (r : Ring) (fresh : Bool) (epoch : BitVec 8) (pos : BitVec 5) (order : List Node) (nextid : Node)
  | freshEnumRestart (r : Ring) (comp : CompOut) | roster (r : Ring) (epoch : BitVec 8) (order : List Node)
  | ratechg (code : BitVec 8) (mbar : BitVec 32)
  | rateChangeResume (x : Retrained)
  | slotmap (r : Ring) (owners : List Node)
  -- modes, power and reset
  | vstbyUp (sbAddr : BitVec 2) | heldExit (beatsrc : Bool) | resetNAssert (comp : CompOut)
  | pwrgoodFall (comp : CompOut) | vstbyLoss (railsHold : Bool) (comp : CompOut) | wakeNAssert
  | i3cReset (comp : CompOut) | i3cPrivateWrite (x : I3cWrite)
  | i3cPrivateRead (x : I3cRead) | setdasa (x : Dasa) | entdaa (addr : BitVec 7) | rstdaa | tapInstruction (t : TapInstr)
  | completionEnd | morningTollDone (find : MorningFind) | fillDone (find : FillFind) | heatSnapshotRestore (crcGood : Bool)
  | runEntry (x : BarEnd) | joinTimeout | restEntry | restWake
  | restExit (x : BarEnd) | restRejoin (m : Marker)
  | eveningToll (find : EveningFind) | eveningTollDone
  -- Knell, Belfry, Tally and the rest
  | knell (cause : KnellCause) (detail : Word) (comp : CompOut) | watchdogExpiry (pc : Word) (comp : CompOut)
  | knellRecordBound | belfryChunkWrite (tries : Fin 3) (good : Bool)
  | criticalRecordUpdate (r : RecId) (body : List Byte) (copyAGood : Bool) | criticalRecordRead (r : RecId)
  | eventLogWrite (good : Bool) | shadowLogWrite | tallyStreamSend | railOutOfLimits (rails : BitVec 6)
  | phaseStep (r : Ring) | tollRunDone (fails : List TollFail) (durationUs : BitVec 24)
  | scanReadDone (block : BitVec 15) (corrected : BitVec 8) (retries : BitVec 3) (uncorrectable : Bool)
deriving DecidableEq, Repr

end Sys2Proof
end

