-- ==== Sys2Proof/Machine/Operands.lean ====
section
/-! DEFINITION. Operand forms: little-endian fields of PARAM and payload (00 R3, 06 R138), the permitted lengths of
Table 7.1, and the header of a packet as bytes. -/

namespace Sys2Proof.Machine

/-- A list of bytes as a little-endian number (R3). -/
def leNat : List Byte → Nat
  | [] => 0
  | b :: bs => b.toNat + 256 * leNat bs

/-- The low `n` bytes of a number, little-endian (R3). -/
def leBytes : Nat → Nat → List Byte
  | 0, _ => []
  | n + 1, v => BitVec.ofNat 8 v :: leBytes n (v / 256)

theorem length_leBytes (n v : Nat) : (leBytes n v).length = n := by
  induction n generalizing v with
  | zero => rfl
  | succ n ih => simp [leBytes, ih]

/-- `n` zero bytes. -/
def zeros (n : Nat) : List Byte := List.replicate n 0

/-- Bits [hi:lo] of a number. -/
def bits (v hi lo : Nat) : Nat := v / 2 ^ lo % 2 ^ (hi - lo + 1)

/-- Bytes `i` to `i + n - 1` of a payload as a number; bytes past its end read 0. -/
def fieldAt (p : List Byte) (i n : Nat) : Nat := leNat ((p.drop i).take n)

/-- PARAM as a number. -/
def prm (rq : Req) : Nat := rq.param.toNat

/-- Header byte `k` of PARAM, 8 to 15 (Table 6.1). -/
def pb (rq : Req) (k : Nat) : Nat := prm rq / 256 ^ (k - 8) % 256

/-- ADDR, PARAM[38:0] (Table 6.1). -/
def addrOf (rq : Req) : Nat := prm rq % 2 ^ 39

/-- LEN (Table 6.1). -/
def lenOf (rq : Req) : Nat := rq.len.toNat

/-- The Kit-page range of Table 7.4. -/
def countOf (rq : Req) : Nat := bits (prm rq) 55 40
/-- ARG of Table 7.4. -/
def argOf (rq : Req) : Nat := bits (prm rq) 59 56

/-- Opcodes whose LEN states a requested length and that carry no payload (R166). -/
def readsLen (o : Nat) : Bool :=
  o == 0x10 || o == 0x40 || o == 0x48 || o == 0x51 || o == 0x59 || o == 0x5A

/-- Payload bytes that a request header announces: none for the opcodes of R166, else LEN; a LEN above 4,096 is refused
at the header flit and announces none (R152 step 1). -/
def payloadLen (o len : Nat) : Nat := if readsLen o || 4096 < len then 0 else len

/-- Flits of a packet with `n` payload bytes: ceil((n + 20) / 60) (R143). -/
def flitsFor (n : Nat) : Nat := ceilDiv (n + 20) 60

/-- One row of Table 7.1. -/
structure OpRow where
  /-- opcode -/
  code : Nat
  /-- house kit only -/
  house : Bool
  /-- served in Rest -/
  rest : Bool
  /-- served over I3C -/
  i3c : Bool
deriving DecidableEq, Repr

/-- Table 7.1 (R163): issuer, service in Rest and over I3C. -/
def opTable : List OpRow :=
  [⟨0x01, false, true, true⟩, ⟨0x02, false, true, true⟩, ⟨0x10, false, false, false⟩, ⟨0x11, false, false, false⟩,
   ⟨0x12, false, false, false⟩, ⟨0x13, false, false, false⟩, ⟨0x18, false, false, false⟩, ⟨0x19, false, false, false⟩,
   ⟨0x1A, false, false, false⟩, ⟨0x1B, false, false, false⟩, ⟨0x1C, false, false, false⟩, ⟨0x20, false, false, false⟩,
   ⟨0x21, false, false, false⟩, ⟨0x22, false, true, false⟩, ⟨0x23, false, true, false⟩, ⟨0x30, true, false, false⟩,
   ⟨0x31, true, false, false⟩, ⟨0x32, true, false, false⟩, ⟨0x33, true, true, false⟩, ⟨0x40, false, true, true⟩,
   ⟨0x41, false, true, true⟩, ⟨0x48, true, true, true⟩, ⟨0x49, true, true, false⟩, ⟨0x4A, true, true, false⟩,
   ⟨0x50, true, false, false⟩, ⟨0x51, true, true, false⟩, ⟨0x52, true, false, false⟩, ⟨0x58, false, true, false⟩,
   ⟨0x59, false, true, false⟩, ⟨0x5A, true, true, true⟩, ⟨0x60, true, true, false⟩, ⟨0x61, true, true, false⟩,
   ⟨0x7F, true, true, false⟩]

/-- The row of an opcode. -/
def opRow (o : Nat) : Option OpRow := opTable.find? (fun r => r.code == o)

/-- Whether LEN lies in an opcode's permitted lengths, for the selector given (R163), and the largest LEN allowed. -/
def lenRule (o sel : Nat) (i3c : Bool) (len : Nat) : Bool × Nat :=
  let big := if i3c then 256 else 4096
  let csr := if i3c then 256 else 1024
  match o with
  | 0x01 => (len ≤ big, big)
  | 0x10 | 0x11 | 0x48 | 0x49 | 0x5A => (len ≤ big, big)
  | 0x12 => (len % 72 == 0 && len ≤ 4032, 4032)
  | 0x1C => if sel ≤ 2 then (len == 0, 0) else if sel == 3 then (len == 8, 8) else (len == 0 || len == 8, 8)
  | 0x20 => if sel == 0 then (4 ≤ len && len ≤ 4096 && len % 4 == 0, 4096)
            else if sel == 1 then (len == 0, 0) else (len ≤ 4096 && len % 4 == 0, 4096)
  | 0x30 => (6 ≤ len && len ≤ 20 && len % 2 == 0, 20)
  | 0x32 => if sel == 0 then (len == 0, 0) else if sel == 1 then (len == 32, 32) else (len == 0 || len == 32, 32)
  | 0x33 => (len == 16, 16)
  | 0x40 | 0x41 => (len ≤ csr && len % 4 == 0, csr)
  | 0x51 | 0x59 => (len ≤ 4096 && len % 16 == 0, 4096)
  | _ => (len == 0, 0)

/-- The selector that R163 names for RUD_LOAD, WINDOW_SET and MUFFLE_DECLARE. -/
def selOf (rq : Req) : Nat :=
  match rq.opc.toNat with
  | 0x20 => pb rq 8
  | 0x32 => pb rq 10
  | 0x1C => argOf rq
  | _ => 0

/-- CSR offset of CSR_READ and CSR_WRITE, PARAM[14:0] (R192). -/
def csrOff (rq : Req) : Nat := prm rq % 2 ^ 15

/-- Offsets of the events registers (Table 19.8). -/
def eventOffsets : List Nat :=
  [0x000C, 0x0080, 0x040C, 0x0810, 0x0C18, 0x1010, 0x1410, 0x300C, 0x3808, 0x4008, 0x4804, 0x500C, 0x5814, 0x6008,
   0x6808, 0x7004, 0x781C, 0x7C14] ++ (List.range 16).map (fun k => 0x2010 + 0x100 * k)

/-- A header as the number of its 16 bytes (Table 6.1), from its fields. -/
def hdrNat (opc ktag : Nat) (reply sync nowait early : Bool) (snode : Nat) (ringB : Bool) (prio dnode seq len : Nat)
    (param : Nat) : BitVec 128 :=
  BitVec.ofNat 128 (opc % 256 + 2 ^ 8 * b2n early + 2 ^ 9 * b2n nowait + 2 ^ 10 * b2n sync + 2 ^ 11 * b2n reply
    + 2 ^ 12 * (ktag % 16) + 2 ^ 16 * (snode % 32) + 2 ^ 21 * b2n ringB + 2 ^ 22 * (prio % 4) + 2 ^ 24 * (dnode % 256)
    + 2 ^ 32 * (seq % 65536) + 2 ^ 48 * (len % 65536) + 2 ^ 64 * (param % 2 ^ 64))

/-- The header of a request (Table 6.1). -/
def hdrOf (rq : Req) : BitVec 128 :=
  hdrNat rq.opc.toNat rq.ktag.toNat rq.reply rq.sync rq.nowait rq.early rq.snode.toNat rq.ringBit rq.prio.toNat
    rq.dnode.toNat rq.seq.toNat rq.len.toNat (prm rq)

/-- The request that 16 header bytes spell (Table 6.1), before any payload. -/
def reqOfBytes (h : List Byte) (via : Via) (src : Node) : Req :=
  let v := leNat (h.take 16)
  { opc := BitVec.ofNat 8 v, early := v / 2 ^ 8 % 2 == 1, nowait := v / 2 ^ 9 % 2 == 1, sync := v / 2 ^ 10 % 2 == 1,
    reply := v / 2 ^ 11 % 2 == 1, ktag := BitVec.ofNat 4 (v / 2 ^ 12), snode := BitVec.ofNat 5 (v / 2 ^ 16),
    ringBit := v / 2 ^ 21 % 2 == 1, prio := BitVec.ofNat 2 (v / 2 ^ 22), dnode := BitVec.ofNat 8 (v / 2 ^ 24),
    seq := BitVec.ofNat 16 (v / 2 ^ 32), len := BitVec.ofNat 16 (v / 2 ^ 48), param := BitVec.ofNat 64 (v / 2 ^ 64),
    payload := [], via := via, src := src }

end Sys2Proof.Machine
end

