-- ==== Sys2Proof/WellFormed.lean ====
section
/-! DEFINITION. Which terms of Instr a sender can put before the block: a request row carries its own opcode (and its own
selector) and the payload that its header announces; lists have the lengths that the spec's tables give. -/

namespace Sys2Proof

open Sys2Proof.Machine

/-- A request of opcode `o` whose payload is the one its header announces (R143, R166). -/
def Req.is (rq : Req) (o : Nat) : Bool :=
  rq.opc.toNat == o && rq.payload.length == payloadLen o (lenOf rq)

/-- REBIND, KIT_CREATE payload byte 1 bit 0 (Table 7.8). -/
def Req.rebind (rq : Req) : Bool := fieldAt rq.payload 1 1 % 2 == 1

/-- A CSR_WRITE at an offset (R192) of at least one register. -/
def Req.writesAt (rq : Req) (off : Nat) : Bool := rq.is 0x41 && csrOff rq == off && 4 ≤ lenOf rq

/-- A Rudiment instruction that Table 12.2 allows (R307). -/
def RudInstr.wf : RudInstr → Bool
  | .loop _ len => len != 0
  | .br c rs _ => c != .always || rs == 0
  | .waitu m u => !(m && u == 0)
  | .waitbar n => n != 0
  | _ => true

/-- The well-formed commands. -/
def Instr.wf : Instr → Bool
  | .ping rq => rq.is 0x01
  | .statusQuery rq => rq.is 0x02
  | .read rq => rq.is 0x10
  | .write rq => rq.is 0x11
  | .writeMasked rq => rq.is 0x12
  | .fence rq => rq.is 0x13
  | .place rq => rq.is 0x18
  | .pin rq => rq.is 0x19
  | .unpin rq => rq.is 0x1A
  | .migrateNow rq => rq.is 0x1B
  | .muffleDeclare rq => rq.is 0x1C
  | .rudLoadStage rq => rq.is 0x20 && pb rq 8 != 1
  | .rudLoadLoad rq => rq.is 0x20 && pb rq 8 == 1
  | .rudStart rq => rq.is 0x21
  | .rudStop rq => rq.is 0x22
  | .rudQuery rq => rq.is 0x23
  | .kitCreate rq => rq.is 0x30 && !rq.rebind
  | .kitCreateRebind rq => rq.is 0x30 && rq.rebind
  | .kitDestroy rq => rq.is 0x31
  | .windowSetSet rq => rq.is 0x32 && pb rq 10 == 1
  | .windowSetClear rq => rq.is 0x32 && pb rq 10 != 1
  | .strokeSet rq => rq.is 0x33
  | .csrRead rq => rq.is 0x40
  | .csrWrite rq => rq.is 0x41
  | .barBeatnoLoRead rq => rq.is 0x40 && csrOff rq == 0x0400 && 4 ≤ lenOf rq
  | .genTempoStrictWrite rq => rq.writesAt 0x0080
  | .genRestExitWrite rq => rq.writesAt 0x001C
  | .barSrcRateWrite rq => rq.writesAt 0x0424
  | .tierSplitRequest rq => rq.writesAt 0x3004
  | .tierKprobeWrite rq =>
    rq.is 0x41 && 4 ≤ lenOf rq && 0x3100 ≤ csrOff rq && csrOff rq < 0x3500 && csrOff rq % 0x40 == 0x20
  | .eventsW1cClear rq => rq.is 0x41 && 4 ≤ lenOf rq && eventOffsets.contains (csrOff rq)
  | .belfryRead rq => rq.is 0x48
  | .belfryWrite rq => rq.is 0x49
  | .belfrySealPages rq => rq.is 0x4A && pb rq 8 != 1
  | .belfrySealTest rq => rq.is 0x4A && pb rq 8 == 1
  | .tollRun rq => rq.is 0x50
  | .repairQuery rq => rq.is 0x51
  | .repairApplySpareRow rq => rq.is 0x52 && !(2 ≤ pb rq 8 && pb rq 8 ≤ 5)
  | .repairApplySpareColumn rq => rq.is 0x52 && pb rq 8 == 2
  | .repairApplySpareDie rq => rq.is 0x52 && pb rq 8 == 3
  | .repairApplySpareLane rq => rq.is 0x52 && pb rq 8 == 4
  | .repairApplyShadowRejoin rq => rq.is 0x52 && pb rq 8 == 5 && pb rq 9 != 3
  | .repairApplyLaneRejoin rq => rq.is 0x52 && pb rq 8 == 5 && pb rq 9 == 3
  | .tallyCtlStop rq => rq.is 0x58 && pb rq 8 == 0
  | .tallyCtlRecord rq => rq.is 0x58 && pb rq 8 == 1
  | .tallyCtlStream rq => rq.is 0x58 && pb rq 8 == 2
  | .tallyCtlFilter rq => rq.is 0x58 && pb rq 8 == 3
  | .tallyCtlConsent rq => rq.is 0x58 && 4 ≤ pb rq 8
  | .tallyRead rq => rq.is 0x59
  | .knellRead rq => rq.is 0x5A
  | .close rq => rq.is 0x60
  | .restEnter rq => rq.is 0x61
  | .gong rq _ => rq.is 0x7F
  | .kitDestroyDrained _ => true
  | .windowClearDrained _ _ => true
  | .rudHalt _ => true
  | .rudNop _ => true
  | .seti _ _ _ _ => true
  | .addi _ _ _ _ => true
  | .mov _ _ _ => true
  | .loop _ c len => RudInstr.wf (.loop c len)
  | .br _ c rs t => RudInstr.wf (.br c rs t)
  | .brs _ _ _ _ _ => true
  | .call _ _ => true
  | .ret _ => true
  | .waitb _ _ => true
  | .waitu _ m u => RudInstr.wf (.waitu m u)
  | .waitbar _ n => RudInstr.wf (.waitbar n)
  | .fetch _ _ _ _ _ => true
  | .stream _ _ _ _ _ _ _ => true
  | .rudPin _ _ _ _ => true
  | .rudUnpin _ _ _ _ => true
  | .hintEvict _ _ _ _ => true
  | .deadline _ _ => true
  | .policy _ _ _ => true
  | .signal _ _ _ _ _ => true
  | .fetchPageComplete _ _ => true
  | .streamDeadline _ => true
  | .streamFullPageReady _ _ => true
  | .pushInject _ _ => true
  | .rudimentIssue => true
  | .flitReceive _ _ f => f.content.length == 60
  | .hopRetryBlink _ _ => true
  | .headerAdmission _ => true
  | .streamTimeout _ _ _ => true
  | .packetComplete _ _ _ => true
  | .readReplyRelease _ _ => true
  | .strictReplyRelease _ _ => true
  | .earlyTrailer _ => true
  | .requestTimeout _ => true
  | .wedgeReply _ => true
  | .devicePacketRefused _ _ _ => true
  | .beatBoundary _ _ => true
  | .downbeat _ _ => true
  | .ringBDownbeat _ _ => true
  | .ringBDownbeatLoss => true
  | .freewheelEntry => true
  | .freewheelExpiry _ => true
  | .sensorSample ts fs => ts.length == 16 && fs.length == 11 && fs.all (fun l => l.length == 4)
  | .scrubStep => true
  | .belfryRefreshStep w sw => sw &&& ~~~ w == 0
  | .deepScanStep => true
  | .heatDecay => true
  | .measureEnd => true
  | .chordAccept _ => true
  | .preImageCapture _ => true
  | .chordVerify _ _ => true
  | .fenceComplete _ => true
  | .mergeEntryTimeout _ => true
  | .rmwMerge _ => true
  | .promotionReadDone _ _ _ => true
  | .nandProgramDone _ _ => true
  | .nandEraseDone _ _ => true
  | .packWaitExpiry _ => true
  | .dieStall _ => true
  | .mutedEntry => true
  | .deepMapReady => true
  | .dieOut _ => true
  | .shadowSwitchover _ => true
  | .transferFail _ => true
  | .resilverSwitchover => true
  | .resilverSlow => true
  | .laneRemapSwitch _ _ _ => true
  | .laneRejoinSwitch _ => true
  | .laneRequest _ _ _ _ => true
  | .mailboxResend _ => true
  | .trainingComplete _ rate _ _ => rate.toNat ≤ 4
  | .joinwin _ _ _ _ _ => true
  | .leavewin _ _ _ _ _ _ => true
  | .leaveTimeout _ _ => true
  | .enum _ _ _ _ order _ => order.length ≤ 30
  | .freshEnumRestart _ _ => true
  | .roster _ _ order => order.length ≤ 30
  | .ratechg _ _ => true
  | .rateChangeResume _ => true
  | .slotmap _ owners => owners.length == 8
  | .vstbyUp _ => true
  | .heldExit _ => true
  | .resetNAssert _ => true
  | .pwrgoodFall _ => true
  | .vstbyLoss _ _ => true
  | .wakeNAssert => true
  | .i3cReset _ => true
  | .i3cPrivateWrite _ => true
  | .i3cPrivateRead _ => true
  | .setdasa _ => true
  | .entdaa _ => true
  | .rstdaa => true
  | .tapInstruction _ => true
  | .completionEnd => true
  | .morningTollDone f => f.eyeA.length == 19 && f.eyeB.length == 19 && f.fieldExcl.length == 11
  | .fillDone _ => true
  | .heatSnapshotRestore _ => true
  | .runEntry _ => true
  | .joinTimeout => true
  | .restEntry => true
  | .restWake => true
  | .restExit _ => true
  | .restRejoin _ => true
  | .eveningToll f => f.sacPulses.length == 11
  | .eveningTollDone => true
  | .knell _ _ _ => true
  | .watchdogExpiry _ _ => true
  | .knellRecordBound => true
  | .belfryChunkWrite _ _ => true
  | .criticalRecordUpdate _ _ _ => true
  | .criticalRecordRead _ => true
  | .eventLogWrite _ => true
  | .shadowLogWrite => true
  | .tallyStreamSend => true
  | .railOutOfLimits _ => true
  | .phaseStep _ => true
  | .tollRunDone _ _ => true
  | .scanReadDone _ _ r _ => r.toNat ≤ 7

end Sys2Proof
end

