-- ==== Sys2Proof/Decode.lean ====
section
/-! DEFINITION. Table words (no row of spec/opcode_table.json gives bits, so no word spells a command) and the words of
Rudiment instructions, decoded and encoded by Table 12.2 (12 R307, R312). -/

namespace Sys2Proof

/-- The command that a word spells by the table's bits: the table gives no row any bits. -/
def decodeTableWord (_nbits _w : Nat) : Option Instr := none

namespace Rud

/-- Bits [lo + n - 1 : lo] of an instruction word. -/
abbrev fld (w : Word) (lo n : Nat) : BitVec n := w.extractLsb' lo n

/-- A register field of three bits. -/
def reg (w : Word) (lo : Nat) : GReg := (fld w lo 3).toFin

/-- TGT of FETCH and PIN: 1 Near, 2 Main; 0 and 3 invalid. -/
def tgt (b : BitVec 2) : Option Tgt := if b = 1 then some .near else if b = 2 then some .main else none

/-- TGT of UNPIN and HINT_EVICT: 0 invalid. -/
def tgt3 (b : BitVec 2) : Option Tgt3 :=
  if b = 1 then some .near else if b = 2 then some .main else if b = 3 then some .both else none

/-- RING of STREAM and SIGNAL: 0 Ring A, 1 Ring B. -/
def ring (b : BitVec 1) : Ring := if b = 1 then .b else .a

/-- A one-bit flag. -/
def flag (b : BitVec 1) : Bool := b == 1

/-- `x` when every bit that Table 12.2 marks 0 is 0. -/
def need (c : Bool) (x : RudInstr) : Option RudInstr := if c then some x else none

/-- The instruction that a 32-bit word holds (R312), or none where R307 has it fail to decode. -/
def decode (w : Word) : Option RudInstr :=
  match (fld w 26 6).toNat with
  | 0x00 => need (fld w 0 26 == 0) .halt
  | 0x01 => need (fld w 0 26 == 0) .nop
  | 0x02 => need (fld w 16 6 == 0) (.seti (reg w 23) (flag (fld w 22 1)) (fld w 0 16))
  | 0x03 => need (fld w 16 4 == 0) (.addi (reg w 23) (reg w 20) (fld w 0 16))
  | 0x04 => need (fld w 0 20 == 0) (.mov (reg w 23) (reg w 20))
  | 0x08 =>
    if fld w 12 10 == 0 then none
    else if flag (fld w 25 1) then need (fld w 0 12 == 0) (.loop (.reg (reg w 22)) (fld w 12 10))
    else need (fld w 22 3 == 0) (.loop (.imm (fld w 0 12)) (fld w 12 10))
  | 0x09 =>
    if fld w 12 9 == 0 then
      match (fld w 24 2).toNat with
      | 0 => need (fld w 21 3 == 0) (.br .always 0 (fld w 0 12))
      | 1 => some (.br .zero (reg w 21) (fld w 0 12))
      | 2 => some (.br .nonzero (reg w 21) (fld w 0 12))
      | _ => none
    else none
  | 0x0A =>
    need (fld w 12 4 == 0) (.brs (flag (fld w 25 1)) (flag (fld w 24 1)) (fld w 16 8) (fld w 0 12))
  | 0x0B => need (fld w 12 14 == 0) (.call (fld w 0 12))
  | 0x0C => need (fld w 0 26 == 0) .ret
  | 0x10 =>
    if fld w 20 2 == 0 then
      if flag (fld w 25 1) then need (fld w 0 20 == 0) (.waitb (.reg (reg w 22)))
      else need (fld w 22 3 == 0) (.waitb (.imm (fld w 0 20)))
    else none
  | 0x11 =>
    need (fld w 10 15 == 0 && !(flag (fld w 25 1) && fld w 0 10 == 0)) (.waitu (flag (fld w 25 1)) (fld w 0 10))
  | 0x12 => need (fld w 16 10 == 0 && fld w 0 16 != 0) (.waitbar (fld w 0 16))
  | 0x18 =>
    match tgt (fld w 21 2) with
    | some t => need (fld w 0 16 == 0) (.fetch (reg w 23) t (fld w 17 4) (flag (fld w 16 1)))
    | none => none
  | 0x19 =>
    need (fld w 0 9 == 0)
      (.stream (reg w 23) (reg w 20) (fld w 15 5) (ring (fld w 14 1)) (fld w 10 4) (flag (fld w 9 1)))
  | 0x1A =>
    match tgt (fld w 21 2) with
    | some t => need (fld w 0 17 == 0) (.pin (reg w 23) t (fld w 17 4))
    | none => none
  | 0x1B =>
    match tgt3 (fld w 21 2) with
    | some t => need (fld w 0 17 == 0) (.unpin (reg w 23) t (fld w 17 4))
    | none => none
  | 0x1C =>
    match tgt3 (fld w 21 2) with
    | some t => need (fld w 0 17 == 0) (.hintEvict (reg w 23) t (fld w 17 4))
    | none => none
  | 0x20 =>
    if fld w 20 1 == 0 then
      match (fld w 24 2).toNat with
      | 0 => need (fld w 21 3 == 0) (.deadline (.imm (fld w 0 20)))
      | 1 => need (fld w 0 20 == 0) (.deadline (.reg (reg w 21)))
      | 2 => need (fld w 21 3 == 0 && fld w 0 20 == 0) (.deadline .clear)
      | _ => none
    else none
  | 0x21 =>
    if fld w 3 23 == 0 then
      match (fld w 0 2).toNat with
      | 0 => some (.policy (flag (fld w 2 1)) .stall)
      | 1 => some (.policy (flag (fld w 2 1)) .muffle)
      | 2 => some (.policy (flag (fld w 2 1)) .late)
      | _ => none
    else none
  | 0x28 =>
    need (fld w 8 9 == 0) (.signal (fld w 21 5) (ring (fld w 20 1)) (reg w 17) (fld w 0 8))
  | _ => none

/-- A register as a field. -/
def regBits (r : GReg) : Nat := r.val
/-- Ring as a field. -/
def ringBits : Ring → Nat | .a => 0 | .b => 1
/-- TGT as a field. -/
def tgtBits : Tgt → Nat | .near => 1 | .main => 2
/-- TGT as a field. -/
def tgt3Bits : Tgt3 → Nat | .near => 1 | .main => 2 | .both => 3

/-- The fields [25:0] and the opcode of an instruction (Table 12.2). -/
def fields : RudInstr → Nat × Nat
  | .halt => (0x00, 0)
  | .nop => (0x01, 0)
  | .seti rd hi imm => (0x02, regBits rd * 2 ^ 23 + b2n hi * 2 ^ 22 + imm.toNat)
  | .addi rd rs imm => (0x03, regBits rd * 2 ^ 23 + regBits rs * 2 ^ 20 + imm.toNat)
  | .mov rd rs => (0x04, regBits rd * 2 ^ 23 + regBits rs * 2 ^ 20)
  | .loop (.imm n) len => (0x08, len.toNat * 2 ^ 12 + n.toNat)
  | .loop (.reg r) len => (0x08, 2 ^ 25 + regBits r * 2 ^ 22 + len.toNat * 2 ^ 12)
  | .br .always rs t => (0x09, regBits rs * 2 ^ 21 + t.toNat)
  | .br .zero rs t => (0x09, 2 ^ 24 + regBits rs * 2 ^ 21 + t.toNat)
  | .br .nonzero rs t => (0x09, 2 * 2 ^ 24 + regBits rs * 2 ^ 21 + t.toNat)
  | .brs neg cls st t => (0x0A, b2n neg * 2 ^ 25 + b2n cls * 2 ^ 24 + st.toNat * 2 ^ 16 + t.toNat)
  | .call t => (0x0B, t.toNat)
  | .ret => (0x0C, 0)
  | .waitb (.imm n) => (0x10, n.toNat)
  | .waitb (.reg r) => (0x10, 2 ^ 25 + regBits r * 2 ^ 22)
  | .waitu m u => (0x11, b2n m * 2 ^ 25 + u.toNat)
  | .waitbar n => (0x12, n.toNat)
  | .fetch ra t c dl => (0x18, regBits ra * 2 ^ 23 + tgtBits t * 2 ^ 21 + c.toNat * 2 ^ 17 + b2n dl * 2 ^ 16)
  | .stream ra rb n r c dl =>
    (0x19, regBits ra * 2 ^ 23 + regBits rb * 2 ^ 20 + n.toNat * 2 ^ 15 + ringBits r * 2 ^ 14 + c.toNat * 2 ^ 10
      + b2n dl * 2 ^ 9)
  | .pin ra t c => (0x1A, regBits ra * 2 ^ 23 + tgtBits t * 2 ^ 21 + c.toNat * 2 ^ 17)
  | .unpin ra t c => (0x1B, regBits ra * 2 ^ 23 + tgt3Bits t * 2 ^ 21 + c.toNat * 2 ^ 17)
  | .hintEvict ra t c => (0x1C, regBits ra * 2 ^ 23 + tgt3Bits t * 2 ^ 21 + c.toNat * 2 ^ 17)
  | .deadline (.imm n) => (0x20, n.toNat)
  | .deadline (.reg r) => (0x20, 2 ^ 24 + regBits r * 2 ^ 21)
  | .deadline .clear => (0x20, 2 * 2 ^ 24)
  | .policy full .stall => (0x21, b2n full * 4)
  | .policy full .muffle => (0x21, b2n full * 4 + 1)
  | .policy full .late => (0x21, b2n full * 4 + 2)
  | .signal n r rs code =>
    (0x28, n.toNat * 2 ^ 21 + ringBits r * 2 ^ 20 + regBits rs * 2 ^ 17 + code.toNat)

/-- The word of an instruction (R312). -/
def encode (i : RudInstr) : Word :=
  BitVec.ofNat 32 ((fields i).1 * 2 ^ 26 + (fields i).2)

/-- The command that issues an instruction on engine `e`. -/
def toInstr (e : Engine) : RudInstr → Instr
  | .halt => .rudHalt e
  | .nop => .rudNop e
  | .seti rd hi imm => .seti e rd hi imm
  | .addi rd rs imm => .addi e rd rs imm
  | .mov rd rs => .mov e rd rs
  | .loop c len => .loop e c len
  | .br c rs t => .br e c rs t
  | .brs n c st t => .brs e n c st t
  | .call t => .call e t
  | .ret => .ret e
  | .waitb n => .waitb e n
  | .waitu m u => .waitu e m u
  | .waitbar n => .waitbar e n
  | .fetch ra t c dl => .fetch e ra t c dl
  | .stream ra rb n r c dl => .stream e ra rb n r c dl
  | .pin ra t c => .rudPin e ra t c
  | .unpin ra t c => .rudUnpin e ra t c
  | .hintEvict ra t c => .hintEvict e ra t c
  | .deadline m => .deadline e m
  | .policy f p => .policy e f p
  | .signal n r rs code => .signal e n r rs code

end Rud

end Sys2Proof
end

