-- ==== Sys2Proof/Machine/Code.lean ====
section
/-! DEFINITION. The check values of Table 0.4: CRC-16/T10-DIF over flits and records, CRC-32C over packets. -/

namespace Sys2Proof.Machine

/-- `n` steps of CRC-16/T10-DIF, polynomial 0x8BB7, most significant bit first (Table 0.4). -/
def crc16Bits : Nat → Nat → Nat
  | 0, c => c
  | n + 1, c => crc16Bits n (if c < 0x8000 then 2 * c else (2 * c - 0x10000) ^^^ 0x8BB7)

/-- CRC-16/T10-DIF from a start value. -/
def crc16From : Nat → List Byte → Nat
  | c, [] => c
  | c, b :: bs => crc16From (crc16Bits 8 (c ^^^ (b.toNat * 256))) bs

/-- CRC-16/T10-DIF, initial value 0 (Table 0.4). -/
def crc16 (bs : List Byte) : BitVec 16 := BitVec.ofNat 16 (crc16From 0 bs)

/-- `n` steps of CRC-32C, reflected polynomial 0x82F6_3B78 (Table 0.4). -/
def crc32Bits : Nat → Nat → Nat
  | 0, c => c
  | n + 1, c => crc32Bits n (if c % 2 == 0 then c / 2 else (c / 2) ^^^ 0x82F63B78)

/-- CRC-32C from a start value. -/
def crc32From : Nat → List Byte → Nat
  | c, [] => c
  | c, b :: bs => crc32From (crc32Bits 8 (c ^^^ b.toNat)) bs

/-- CRC-32C, initial value and final XOR all ones (Table 0.4). -/
def crc32c (bs : List Byte) : BitVec 32 := BitVec.ofNat 32 (crc32From 0xFFFFFFFF bs ^^^ 0xFFFFFFFF)

/-- The 62 bytes of a flit that its CRC covers (Table 5.2). -/
def flitBytes (f : Flit) : List Byte :=
  [BitVec.ofNat 8 (f.cls.toNat + 4 * b2n f.ronly + 8 * b2n f.first + 16 * b2n f.retry + 32 * b2n f.lap
     + 64 * b2n f.refused),
   BitVec.ofNat 8 (f.src.toNat + 32 * f.stream.toNat)] ++ f.content

/-- The flit with its CRC computed afresh (R114). -/
def withCrc (f : Flit) : Flit := { f with crc := crc16 (flitBytes f) }

/-- Whether a flit's CRC is good (R114). -/
def crcGood (f : Flit) : Bool := f.crc == crc16 (flitBytes f)

/-- An EMPTY flit in a slot whose RONLY is `ronly` (Table 5.2). -/
def emptyFlit (ronly : Bool) : Flit :=
  withCrc { blank := false, cls := 0, ronly := ronly, first := false, retry := false, lap := false, refused := false,
            src := 0, stream := 0, content := zeros 60, crc := 0 }

/-- The 64 bytes of a flit as they stand on lanes 0 to 15 (R88). -/
def flitWire (f : Flit) : List Byte := flitBytes f ++ leBytes 2 f.crc.toNat

/-- Bit of a flit that data lane `lane` carries in UI `u` (R88). -/
def flitBit (f : Flit) (lane u : Nat) : Bool := ((flitWire f).getD (2 * u + lane / 8) 0).getLsbD (lane % 8)

/-- One step of PRBS15, x^15 + x^14 + 1, on a 15-bit register (04 R89). -/
def prbsStep (x : Nat) : Nat := 2 * x % 2 ^ 15 + (x / 2 ^ 14 + x / 2 ^ 13) % 2

/-- `n` steps of PRBS15. -/
def prbsFrom : Nat → Nat → Nat
  | 0, x => x
  | n + 1, x => prbsFrom n (prbsStep x)

/-- PRBS15 on a lane in UI `u` of a slot: seeded with the lane number plus 1 at slot 0; the register's highest bit leaves first
(R89; DESIGN CHOICE, log 111). -/
def prbsBit (lane slot u : Nat) : Bool := prbsFrom (32 * slot + u) (lane + 1) / 2 ^ 14 == 1

/-- The 20-byte tail and head of a packet: header, payload, then CRC-32C in the last four content bytes (R143). -/
def packetBytes (hdr : BitVec 128) (payload : List Byte) : List Byte :=
  let body := leBytes 16 hdr.toNat ++ payload
  let n := flitsFor payload.length
  body ++ zeros (60 * n - 4 - body.length) ++ leBytes 4 (crc32c body).toNat

/-! ### The chord code RS(10,8) (13 R328 to R336) -/

/-- x·α in GF(2^8) with polynomial 0x11D (R328). -/
def gfDouble (x : Nat) : Nat := if x < 128 then 2 * x else (2 * x - 256) ^^^ 0x1D

/-- x·α^n. -/
def gfShift : Nat → Nat → Nat
  | 0, x => x
  | n + 1, x => gfShift n (gfDouble x)

/-- The product of a symbol and a constant, from the constant's low `n` bits. -/
def gfMulBits : Nat → Nat → Nat → Nat
  | 0, _, _ => 0
  | n + 1, a, b => (if b % 2 == 1 then a else 0) ^^^ gfMulBits n (gfDouble a) (b / 2)

/-- The product in GF(2^8). -/
def gfMul (a b : Nat) : Nat := gfMulBits 8 a b

/-- The check contributions r1 and r0 of data die k (Table 13.2). -/
def checkPairs : List (Nat × Nat) :=
  [(0xE2, 0xE3), (0xFF, 0xFE), (0x7F, 0x7E), (0x3F, 0x3E), (0x1F, 0x1E), (0x0F, 0x0E), (0x07, 0x06), (0x03, 0x02)]

/-- The check symbols of one codeword's eight data symbols (R330). -/
def checkSyms (m : List Nat) : Nat × Nat :=
  (m.zip checkPairs).foldl (fun acc p => (acc.1 ^^^ gfMul p.1 p.2.1, acc.2 ^^^ gfMul p.1 p.2.2)) (0, 0)

/-- Byte `i` of a list as a number, 0 past its end. -/
def byteAt (l : List Byte) (i : Nat) : Nat := (l.getD i 0).toNat

/-- Slice k of a chord's 64 data bytes: bytes 8k to 8k + 7 (Table 13.1). -/
def dataSlice (d : List Byte) (k : Nat) : List Byte := (d.drop (8 * k)).take 8

/-- The ten slices of a chord: eight data slices and the two check slices (R329, R330). -/
def encodeChord (d : List Byte) : List (List Byte) :=
  let checks := (List.range 8).map fun i => checkSyms ((List.range 8).map fun k => byteAt d (8 * k + i))
  ((List.range 8).map fun k => dataSlice d k)
    ++ [checks.map fun c => BitVec.ofNat 8 c.1, checks.map fun c => BitVec.ofNat 8 c.2]

/-- The slices of the poison marker (R336). -/
def markerSlices : List (List Byte) :=
  List.replicate 8 (zeros 8) ++ [List.replicate 8 0xA5, List.replicate 8 0x5A]

/-- A codeword's class (Table 13.3), in the ascending order of R332. -/
inductive CClass | clean | check | erased | data | uncorr
deriving DecidableEq, Repr

/-- Place of a class in the order of R332. -/
def CClass.rank : CClass → Nat
  | .clean => 0 | .check => 1 | .erased => 2 | .data => 3 | .uncorr => 4

/-- The worse of two classes. -/
def CClass.max (a b : CClass) : CClass := if a.rank < b.rank then b else a

/-- The outcome of one codeword: class, symbols after correction, the position corrected. -/
structure CwOut where
  /-- class -/
  cls : CClass
  /-- the eight data symbols -/
  syms : List Nat
  /-- corrected position -/
  pos : Option Nat
deriving DecidableEq, Repr

/-- Syndromes S0 and S1 over the ten symbols (R331), highest power first. -/
def syndromes (c : List Nat) : Nat × Nat :=
  (c.foldl (fun a x => a ^^^ x) 0, c.foldl (fun a x => gfDouble a ^^^ x) 0)

/-- Symbol `p` replaced by its XOR with `e`. -/
def fixSym (c : List Nat) (p e : Nat) : List Nat := c.set p (c.getD p 0 ^^^ e)

/-- Decode one codeword with the positions in `outs` read as 0 (Table 13.3). With two or more positions out the
codeword is detected-uncorrectable (R368). -/
def decodeCw (outs : List Nat) (c : List Nat) : CwOut :=
  let s := syndromes c
  match outs with
  | [] =>
    if s.1 == 0 && s.2 == 0 then ⟨.clean, c.take 8, none⟩
    else if s.1 == 0 then ⟨.uncorr, c.take 8, none⟩
    else match (List.range 10).find? fun l => gfShift (9 - l) s.1 == s.2 with
      | some l => if l < 8 then ⟨.data, (fixSym c l s.1).take 8, some l⟩ else ⟨.check, c.take 8, some l⟩
      | none => ⟨.uncorr, c.take 8, none⟩
  | [p] =>
    if gfShift (9 - p) s.1 == s.2 then
      if s.1 == 0 then ⟨.clean, c.take 8, none⟩ else ⟨.erased, (fixSym c p s.1).take 8, none⟩
    else ⟨.uncorr, c.take 8, none⟩
  | _ => ⟨.uncorr, c.take 8, none⟩

/-- A chord's decode: class, marker, the 64 data bytes, and the corrected symbols per position. -/
structure ChordOut where
  /-- class of R332; a marker is detected-uncorrectable -/
  cls : CClass
  /-- recognized as the poison marker -/
  marker : Bool
  /-- data -/
  data : List Byte
  /-- corrected position of each codeword that was corrected -/
  fixes : List Nat
deriving DecidableEq, Repr

/-- Decode a chord from its ten slices (R331, R332). -/
def decodeChord (outs : List Nat) (sl : List (List Byte)) : ChordOut :=
  let cws := (List.range 8).map fun i => decodeCw outs (sl.map fun x => byteAt x i)
  let cls := cws.foldl (fun a c => a.max c.cls) .clean
  let vis := (List.range 10).all fun p => outs.contains p || sl.getD p [] == markerSlices.getD p []
  { cls := cls, marker := cls == .uncorr && vis,
    data := ((List.range 8).map fun k => cws.map fun c => BitVec.ofNat 8 (c.syms.getD k 0)).flatten,
    fixes := cws.filterMap fun c => c.pos }

/-- Poisoned for every reader (R332). -/
def ChordOut.poisoned (c : ChordOut) : Bool := c.cls == .uncorr
/-- Counted as corrected for a reply (R332). -/
def ChordOut.corrected (c : ChordOut) : Bool := c.cls == .data
/-- The slices that were corrected, as a mask over positions. -/
def ChordOut.fixMask (c : ChordOut) : Slices :=
  c.fixes.foldl (fun m p => m ||| BitVec.ofNat 11 (2 ^ p)) 0

/-- The slices of a mask over positions 0 to 10. -/
def sliceList (m : Slices) : List Nat := (List.range 11).filter fun i => m.getLsbD i

/-- How many slices a mask holds. -/
def sliceCount (m : Slices) : Nat := (sliceList m).length

end Sys2Proof.Machine
end

