-- ==== Sys2Proof/Machine/State.lean ====
section
/-! DEFINITION. The state of the HZT-1648 block as plain data, its fault and refusal reasons, and the state after reset.
Each field's docstring reads: what it is | width | file and rule | reset value. A count that the spec makes a register
but that follows from other state (requests in flight, Strokes held, entries in use) is computed where it is read. -/

namespace Sys2Proof.Machine

/-- Why a command faults. -/
inductive Fault
  /-- Raised by every row whose operands fail WellFormed: a term that no sender can put on the wire and no event can
  report (another row's opcode, a payload that the header does not announce, a list of the wrong length). Safe: the
  model stops. -/
  | illFormed
deriving DecidableEq, Repr

/-- Why a command is refused. -/
inductive Refusal
  /-- No meaning in the model, by mnemonic. Raised by a refused arm of exec alone; none is left. Safe. -/
  | notModelled (mnemonic : String)
deriving DecidableEq, Repr

/-- The twelve modes (Table 1.5). -/
inductive Mode
  | off | hibernate | held | morningToll | fill | join | run | degraded | rest | freewheel | eveningToll | knelled
deriving DecidableEq, Repr

/-- GEN_MODE[3:0] (Table 1.5). -/
def Mode.code : Mode → Nat
  | .off => 0 | .hibernate => 1 | .held => 2 | .morningToll => 3 | .fill => 4 | .join => 5 | .run => 6
  | .degraded => 7 | .rest => 8 | .freewheel => 9 | .eveningToll => 10 | .knelled => 11

/-- An events register: its bits, those set in the current Beat (R453), whether an ALERT is owed, and whether one was
sent in this Bar (R160). -/
structure EvReg where
  /-- events bits | 8 | 19 R453 | 0 -/
  bits : BitVec 8
  /-- bits set in the current Beat | 8 | 19 R453 | 0 -/
  fresh : BitVec 8
  /-- an ALERT packet is owed | 1 | 06 R160 | false -/
  due : Bool
  /-- an ALERT was sent in this Bar | 1 | 06 R160 | false -/
  sent : Bool
deriving DecidableEq, Repr

/-- The events registers of Table 19.8. -/
inductive EvId
  | gen | tempo | bar | stk | sw | lnk (r : Ring) | tier | deep | prov | rud | ecc | rep | bel | toll | pwr | tal | knl
  | kit (k : Kit)
deriving DecidableEq, Repr

/-- Place of an events register among the 34. -/
def EvId.ix : EvId → Fin 34
  | .gen => 0 | .tempo => 1 | .bar => 2 | .stk => 3 | .sw => 4 | .lnk .a => 5 | .lnk .b => 6 | .tier => 7 | .deep => 8
  | .prov => 9 | .rud => 10 | .ecc => 11 | .rep => 12 | .bel => 13 | .toll => 14 | .pwr => 15 | .tal => 16 | .knl => 17
  | .kit k => ⟨18 + k.val, by omega⟩

/-- The pins and rails as the device sees them. -/
structure Pins where
  /-- VSTBY within limits | 1 | 17 R409 | true -/
  vstby : Bool
  /-- RESET_N level | 1 | 17 R411 | DESIGN CHOICE true (log 4) -/
  resetN : Bool
  /-- PWRGOOD level | 1 | 20 R469 | true -/
  pwrgood : Bool
  /-- rails within limits, VDD VMC VWR VPP VIO VSTBY | 6 | 20 R471 | DESIGN CHOICE 0x3F (log 4) -/
  rails : BitVec 6
  /-- SB_ADDR[1:0] as sampled | 2 | 20 R473 | DESIGN CHOICE 0 (log 4) -/
  sbAddr : BitVec 2
  /-- MRAM dies that give no answer to the array interface | 11 | 14 R359 | DESIGN CHOICE 0 (log 4) -/
  silent : BitVec 11
deriving DecidableEq, Repr

/-- GEN_ block (Tables 19.3, 17.4; R231). -/
structure Gen where
  /-- GEN_STATUS.LOGDEG | 1 | 19 R455, 15 R385 | 0 -/
  logdeg : Bool
  /-- GEN_STATUS.ROMONLY | 1 | 19 R455, 01 R23 | DESIGN CHOICE 0 until FILL_DONE (log 5) -/
  romOnly : Bool
  /-- GEN_REQ_TO | 10 | 19 R455 | 64 -/
  reqTo : Nat
  /-- GEN_ALERT_DEST.NODE_A | 5 | 19 R455 | 0x1F -/
  alertA : Node
  /-- GEN_ALERT_DEST.NODE_B | 5 | 19 R455 | 0x1F -/
  alertB : Node
  /-- GEN_E2E_FAIL | 32 | 19 R455 | 0 -/
  e2eFail : Nat
  /-- GEN_TXDROP | 32 | 19 R455 | 0 -/
  txDrop : Nat
  /-- GEN_FW[31:16], loaded patch release | 16 | 19 R455 | 0 until FILL_DONE -/
  fwPatch : BitVec 16
  /-- GEN_DEBUG TALLYALL, FIXPULSE, NOSCRUB | 3 | 19 R457 | 0 -/
  dbg : BitVec 3
  /-- GEN_UID | 64 | 19 R455 | DESIGN CHOICE 0 (log 5) -/
  uid : BitVec 64
  /-- GEN_TEMPO.STRICT | 1 | 08 R231 | 0 -/
  strict : Bool
  /-- GEN_TEMPO.ACTIVE | 1 | 08 R231 | 0 -/
  active : Bool
  /-- GEN_RESET[3:0] | 4 | 17 R426 | DESIGN CHOICE 0, VSTBY power-up (log 3) -/
  resetCause : BitVec 4
  /-- GEN_RESET[11:8] | 4 | 17 R426 | DESIGN CHOICE 0, Off (log 3) -/
  resetMode : Mode
  /-- GEN_HOLD_MS | 32 | 17 R421 | DESIGN CHOICE 0 (log 5) -/
  holdMs : Word
  /-- GEN_REST_BEATS | 32 | 17 R416 | 0 -/
  restBeats : Nat
  /-- BEATNO at entry to Rest | 48 | 17 R416 | 0 -/
  restFrom : Nat
  /-- a wake from Rest is in progress or done | 1 | 17 R416 | false -/
  waking : Bool
  /-- the wake has completed | 1 | 17 R416 | false -/
  awake : Bool
  /-- MRAM periphery and Deep power up | 1 | 17 R415 | true -/
  periph : Bool
deriving DecidableEq, Repr

/-- BAR_ block (Table 2.4) and the count behind it. -/
structure Bar where
  /-- BEATNO | 48 | 02 R38 | 0 -/
  beatno : Nat
  /-- BAR_BEATNO_HI, latched | 16 | 02 R61 | 0 -/
  hiLatch : BitVec 16
  /-- BAR_STATUS.RATE, joined rate code | 3 | 02 R61 | 0 -/
  rate : Nat
  /-- BAR_STATUS.BVALID | 1 | 02 R44 | 0 -/
  bvalid : Bool
  /-- BAR_STATUS.BEATSRC as sampled | 1 | 02 R60 | DESIGN CHOICE false (log 4) -/
  beatsrc : Bool
  /-- BAR_B_OFFSET, signed slots | 16 | 02 R44 | 0 -/
  bOffset : BitVec 16
  /-- BAR_CTL.FWCLOSE | 1 | 02 R54 | 0 -/
  fwclose : Bool
  /-- BAR_FW_BARS | 9 | 02 R50 | 0 -/
  fwBars : Nat
  /-- BAR_SLIP_BARS | 32 | 02 R40 | 0 -/
  slipBars : Nat
  /-- BAR_MISSED | 32 | 02 R37 | 0 -/
  missed : Nat
  /-- BAR_SRC_RATE | 3 | 02 R59 | 1 -/
  srcRate : Nat
  /-- BAR_EPOCH | 16 | 02 R39 | 0 -/
  epoch : Nat
  /-- BAR_MBAR_JOIN | 32 | 02 R61 | 0 -/
  mbarJoin : BitVec 32
  /-- MBAR of the previous valid Downbeat | 32 | 02 R40 | none -/
  lastMbar : Option (BitVec 32)
  /-- device Bar of the previous valid Downbeat | 38 | 02 R40 | 0 -/
  lastDbBar : Nat
  /-- Beats since the last valid Downbeat | 12 | 02 R49 | 0 -/
  lost : Nat
  /-- Beats counted on the house oscillator since the last valid Downbeat | 1 | 02 R51 | false -/
  onOsc : Bool
  /-- the training interval of a rate change runs | 1 | 04 R94 | false -/
  retrain : Bool
  /-- an announced rate change: new code and the MBAR of its Downbeat | 3+32 | 04 R94 | none -/
  rateNext : Option (Nat × BitVec 32)
  /-- rate requested through BAR_SRC_RATE as beat source | 3 | 02 R59 | none -/
  srcNext : Option Nat
  /-- this Beat is shortened to 28 slots | 1 | 04 R104 | false -/
  short : Bool
  /-- a window whose Beat W + 1 shortens the Beat | 48 | 04 R104 | none -/
  shortAt : Option Nat
  /-- Bars since the last valid Ring B Downbeat | 2 | 02 R45 | 0 -/
  bLost : Nat
  /-- Bar on which the current Bar began with a valid Downbeat | 1 | 18 R445 | true -/
  barMarked : Bool
  /-- BEATNO holds at Beat 1,023 (R54, R55) | 1 | 02 R55 | false -/
  hold : Bool
  /-- BEATNO has been set since the reset (R38) | 1 | 02 R38 | false -/
  counted : Bool
  /-- as beat source: index of the Beat whose markers the device emits (R58), while BEATNO does not count | 10 | 02 R35 | 0 -/
  srcBeat : Nat
  /-- highest Order of Table 2.3 that has run in this Beat | 4 | 02 R46 | 0 -/
  cal : Nat
deriving DecidableEq, Repr

/-- STK_ block, device-wide part (Table 3.4), and the Beat's ledger. -/
structure Stk where
  /-- STK_BUDGET.BUDGET | 8 | 03 R65 | 0 -/
  budget : Nat
  /-- STK_BUDGET.SLACK of the last Beat | 8 | 03 R87 | 0 -/
  slackLast : Nat
  /-- slack of this Beat | 8 | 03 R87 | 0 -/
  slackNow : Nat
  /-- STK_BUDGET.LAPSED of the last Beat | 8 | 03 R87 | 0 -/
  lapsedLast : Nat
  /-- Strokes of this Beat not issued | 8 | 03 R65 | 0 -/
  left : Nat
  /-- STK_MAINT as written | 7 | 03 R87 | 16 -/
  maint : Nat
  /-- STK_MAINT in force | 7 | 03 R71 | 16 -/
  maintNow : Nat
  /-- STK_RT_MAINT as written | 6 | 03 R87 | 8 -/
  rtMaint : Nat
  /-- STK_RT_MAINT in force | 6 | 03 R71 | 8 -/
  rtMaintNow : Nat
  /-- a change of STK_MAINT or STK_KRES waits for a Downbeat | 1 | 03 R71, R73 | false -/
  dirty : Bool
  /-- the last grant fell short of the configured values | 1 | 03 R72, R73 | false -/
  short : Bool
  /-- STK_WEAR_THR, 8.8 | 16 | 03 R87 | 0x0180 -/
  wearThr : Nat
  /-- STK_MSPENT | 32 | 03 R87 | 0 -/
  mspent : Nat
  /-- STK_MSLACK | 32 | 03 R87 | 0 -/
  mslack : Nat
  /-- STK_WEAR[d], 8.8 | 16 | 03 R85 | 0x0100 -/
  wear : Vector Nat 11
  /-- pulses of this Measure per die | - | 03 R85 | 0 -/
  pulses : Vector Nat 11
  /-- die-slice writes of this Measure per die | - | 03 R85 | 0 -/
  writes : Vector Nat 11
  /-- Measure whose pulses and writes are being counted | 26 | 03 R85 | 0 -/
  measure : Nat
  /-- first use without history: the WEAR event of this Measure is suppressed | 1 | 03 R86 | true -/
  firstUse : Bool
  /-- read tokens left to the maintenance part in this Beat | 7 | 03 R79 | 0 -/
  tokMaint : Nat
  /-- read tokens left to the round-robin in this Beat | 7 | 03 R79 | 0 -/
  tokFree : Nat
  /-- STK_KRES, STK_RTRES, STK_ICRED and STK_PSHARE of destroyed Kits, back in the pool at the next Downbeat | 8, 7, 13, 10 | 03 R74 | 0 -/
  gone : Nat × Nat × Nat × Nat
  /-- Kit Strokes and maintenance Strokes of the current Bar, Beats in which a Kit starved | 24+24+16 | 18 R438 BARLEDGER | 0 -/
  barKit : Nat
  /-- see barKit | 24 | 18 R438 | 0 -/
  barMaint : Nat
  /-- see barKit | 16 | 18 R438 | 0 -/
  barStarved : Nat
deriving DecidableEq, Repr

/-- A roster binding (R208), in force from Beat `from_`. -/
structure Binding where
  /-- node ID | 5 | 08 R208 | - -/
  node : Node
  /-- KTAG | 4 | 08 R208 | - -/
  ktag : BitVec 4
  /-- first Beat in force, none once it is past | 48 | 07 R186 | - -/
  from_ : Option Nat
deriving DecidableEq, Repr

/-- A window (Table 7.9; KIT_WIN words). -/
structure Window where
  /-- base kit page | 23 | 08 R230 | - -/
  base : Nat
  /-- size in pages | 24 | 08 R230 | - -/
  size : Nat
  /-- read right | 1 | 08 R213 | - -/
  rd : Bool
  /-- write right | 1 | 08 R213 | - -/
  wr : Bool
  /-- tier mode, true Automatic | 1 | 09 R239 | - -/
  auto : Bool
  /-- narrow-write mode, true RMW | 1 | 11 R290 | - -/
  rmw : Bool
  /-- early-read permission | 1 | 11 R300 | - -/
  early : Bool
  /-- source Kit, none for own pages | 8 | 08 R214 | - -/
  srcKit : Option Kit
  /-- source base page | 23 | 08 R214 | - -/
  srcBase : Nat
  /-- first Beat in force, none once it is past | 48 | 07 R189 | - -/
  from_ : Option Nat
  /-- a clear waits for the drain | 1 | 07 R190 | - -/
  clearing : Bool
deriving DecidableEq, Repr

/-- The wrapped key of a Kit (R218): the record is present, its two copies good, the drawn key, and whether it was
unwrapped at this Join. -/
structure KeyRec where
  /-- record present | 1 | 08 R218 | Kit 0: true -/
  present : Bool
  /-- copy A good | 1 | 08 R219 | Kit 0: true -/
  goodA : Bool
  /-- copy B good | 1 | 08 R219 | Kit 0: true -/
  goodB : Bool
  /-- which draw of Config.drawnKey it holds | - | 08 R218 | 0 -/
  draw : Nat
  /-- copy A holds the key: written, and not overwritten | 1 | 07 R186 | Kit 0: true -/
  storedA : Bool
  /-- copy B holds the key | 1 | 07 R186 | Kit 0: true -/
  storedB : Bool
deriving DecidableEq, Repr

/-- How far a KIT_DESTROY is with the Kit's key (07 R188 step 4, R221). -/
inductive Wipe
  /-- it has not begun -/
  | idle
  /-- both copies are being overwritten -/
  | under
  /-- both copies are overwritten -/
  | done
deriving DecidableEq, Repr

/-- A Kit (Tables 8.1, 8.7, 3.4, 9.3, 11.4). -/
structure KitSt where
  /-- KIT_STATE.LIVE | 1 | 08 R230 | Kit 0: 1 -/
  live : Bool
  /-- KIT_STATE.SUSPENDED | 1 | 08 R230 | 0 -/
  suspended : Bool
  /-- KIT_STATE.CONSENT | 1 | 08 R222 | 0 -/
  consent : Bool
  /-- KIT_STATE.KEYLOST | 1 | 08 R219 | 0 -/
  keylost : Bool
  /-- KIT_DESTROY drains | 1 | 07 R188 | false -/
  destroying : Bool
  /-- progress of the overwriting of its key | 2 | 07 R188 | idle -/
  wipe : Wipe
  /-- roster bindings, at most 8 | 8×10 | 08 R208 | none -/
  binds : List Binding
  /-- KIT_NOTIFY | 5 | 08 R230 | 0x1F -/
  notify : Node
  /-- KIT_MAXINF | 12 | 08 R230 | 256 -/
  maxinf : Nat
  /-- windows 0 to 7 | 8 | 08 R230 | none -/
  wins : Vector (Option Window) 8
  /-- the wrapped key | 640 | 08 R218 | as KeyRec -/
  key : KeyRec
  /-- KIT_ENGINES | 8 | 08 R230 | 0 -/
  engines : BitVec 8
  /-- KIT_REPLYPOS | 16 | 08 R230 | 0 -/
  replypos : BitVec 16
  /-- KIT_TEMPO.RD | 8 | 08 R230 | 6 -/
  tempoRd : Nat
  /-- KIT_TEMPO.WR | 8 | 08 R230 | 2 -/
  tempoWr : Nat
  /-- KIT_DENIED | 32 | 08 R230 | 0 -/
  denied : Nat
  /-- KIT_OOW | 32 | 08 R230 | 0 -/
  oow : Nat
  /-- STK_KRES[7:0] configured | 8 | 03 R87 | 0 -/
  kres : Nat
  /-- STK_KRES[15:8] granted | 8 | 03 R73 | 0 -/
  granted : Nat
  /-- STK_PSHARE | 10 | 03 R87 | 64; Kit 0: 128 -/
  pshare : Nat
  /-- STK_ICRED | 12 | 03 R87 | 512 -/
  icred : Nat
  /-- intake credits taken | 12 | 03 R81 | 0 -/
  taken : Nat
  /-- STK_RTRES as written | 7 | 03 R87 | 0 -/
  rtres : Nat
  /-- STK_RTRES in force | 7 | 03 R71 | 0 -/
  rtresNow : Nat
  /-- read tokens left of the reservation in this Beat | 7 | 03 R79 | 0 -/
  tok : Nat
  /-- STK_SPENT | 32 | 03 R87 | 0 -/
  spent : Nat
  /-- STK_STARVED | 32 | 03 R87 | 0 -/
  starved : Nat
  /-- STK_BACKOFF | 32 | 03 R87 | 0 -/
  backoff : Nat
  /-- held Strokes at the start of the current Bar | 10 | 06 R157 | 0 -/
  heldBar : Nat
  /-- TIER_KQ_HOME, _DEEP, _RES, _NEAR, _NPIN, _MPIN, _MUF in order | 18,23,18,15,11,18,20 | 09 R257 | Table 9.3 -/
  kq : Vector Nat 7
  /-- quotas in force for RES and NEAR (R250) | 18,15 | 09 R250 | 0 -/
  kqNow : Nat × Nat
  /-- TIER_KQ_ fields written while not live | 7 | 09 R257 | 0 -/
  kqWritten : BitVec 7
  /-- TIER_KPROBE | 23 | 09 R257 | 0 -/
  kprobe : Nat
  /-- TIER_KPROBE was written in this Beat | 1 | 09 R257 | false -/
  kprobeDue : Bool
  /-- TIER_KPROBE_R, _S and _H, as of the Beat after the last write of TIER_KPROBE | 32, 32, 16 | 09 R257 | 0 -/
  kprobed : Nat × Nat × Nat
  /-- PROV_KCTL.RCNTEN | 1 | 11 R304 | 0 -/
  rcnten : Bool
  /-- PROV_KRECANT | 32 | 11 R304 | 0 -/
  krecant : Nat
  /-- PROV_KUNREP | 16 | 11 R304 | kept; 0 -/
  kunrep : Nat
  /-- PROV_KFIRST | 39 | 11 R304 | kept; 0 -/
  kfirst : Nat
  /-- Beat of the recant that PROV_KFIRST names | 48 | 11 R295 | 0 -/
  kfirstBeat : Nat
  /-- PROV_KRECTOT | 32 | 11 R304 | 0 -/
  krectot : Nat
deriving DecidableEq, Repr

/-- How far an admitted request is (R155): late when its bound has passed and INTERNAL follows (R157). -/
inductive Stage
  | streaming | ready | serving | late | replied
deriving DecidableEq, Repr

/-- An admitted request (R129, R155). -/
structure InFlight where
  /-- admission order, the model's own name | - | 06 R155 | - -/
  rid : Nat
  /-- header and the payload bytes received so far | - | 06 R138 | - -/
  rq : Req
  /-- Kit bound at admission | 4 | 08 R209 | - -/
  kit : Option Kit
  /-- STREAM index | 3 | 05 R116 | - -/
  stream : BitVec 3
  /-- admission Beat | 48 | 06 R155 | - -/
  admBeat : Nat
  /-- admission slot within the Beat | 5 | 05 R136 | - -/
  slot : Nat
  /-- flits received | 7 | 06 R144 | - -/
  flits : Nat
  /-- content bytes received | - | 06 R143 | - -/
  bytes : List Byte
  /-- Beat of the last flit | 48 | 06 R144 | - -/
  lastFlit : Nat
  /-- intake credits taken | 7 | 03 R81 | - -/
  credits : Nat
  /-- progress | 3 | 06 R155 | - -/
  stage : Stage
  /-- a WEDGE record was queued for it, and where it went | 16+8 | 06 R157 | - -/
  wedge : Option (Nat × Nat)
  /-- Beats in which its bound was suspended | - | 20 R480 | - -/
  stood : Nat
deriving DecidableEq, Repr

/-- A reply that waits to leave (R147). -/
structure Reply where
  /-- the request answered | - | 06 R147 | - -/
  rid : Nat
  /-- its header | - | 06 R147 | - -/
  rq : Req
  /-- Kit, for the Strict Tempo positions | 4 | 08 R228 | - -/
  kit : Option Kit
  /-- STATUS | 8 | 06 R149 | - -/
  status : BitVec 8
  /-- COND | 8 | 06 R150 | - -/
  cond : BitVec 8
  /-- DETAIL | 48 | 06 R151 | - -/
  detail : BitVec 48
  /-- EARLY flag of the reply header | 1 | 11 R301 | - -/
  early : Bool
  /-- reply LEN | 16 | 06 R147 | - -/
  len : Nat
  /-- payload | - | 06 R147 | - -/
  payload : List Byte
  /-- earliest slot, Beat × 32 + slot | 53 | 05 R136 | - -/
  mark : Nat
  /-- release Beat in Strict Tempo | 48 | 08 R228 | - -/
  release : Option Nat
  /-- flits already sent | 7 | 08 R228 | - -/
  flitsOut : Nat
  /-- STREAM index of its flits, from the first to the last | 3 | 05 R116 | - -/
  strm : Option (BitVec 3)
  /-- trailer still to come | 1 | 11 R301 | - -/
  trailer : Bool
  /-- REDO units: payload offset, bytes, poisoned | - | 11 R302 | - -/
  redo : List (Nat × List Byte × Bool)
  /-- REDO entries reserved until the trailer has left, one for each chord read from the array | 9 | 11 R300 | - -/
  redoHeld : Nat
  /-- authoritative STATUS and DETAIL of an early form | 56 | 11 R301 | - -/
  final : BitVec 8 × BitVec 48
deriving DecidableEq, Repr

/-- A packet as it left the device: the header of Table 6.1 and its payload. -/
structure Packet where
  /-- ring or sideband | - | 06 R138 | - -/
  via : Via
  /-- the 16 header bytes as a number | 128 | 06 R138 | - -/
  hdr : BitVec 128
  /-- payload, for an early form with trailer and REDO units | - | 06 R143 | - -/
  payload : List Byte
  /-- CRC-32C | 32 | 06 R143 | - -/
  crc : BitVec 32
  /-- Beat in which it left | 48 | 02 R42 | - -/
  beat : Nat
deriving DecidableEq, Repr

/-- A device-originated packet that waits to leave or may come back REFUSED (Table 6.6, R161). -/
structure DevPkt where
  /-- opcode 0x70 to 0x73 | 8 | 06 R159 | - -/
  opc : BitVec 8
  /-- KTAG | 4 | 06 R159 | - -/
  ktag : BitVec 4
  /-- ring | 1 | 06 R159 | - -/
  ring : Ring
  /-- destination | 5 | 06 R159 | - -/
  dest : Node
  /-- SEQ, given when sent | 16 | 06 R159 | - -/
  seq : Nat
  /-- PARAM bytes 8–15 | 64 | 06 R159 | - -/
  param : BitVec 64
  /-- payload | - | 06 R159 | - -/
  payload : List Byte
  /-- times sent | 4 | 06 R161 | - -/
  tries : Nat
  /-- earliest Beat | 48 | 06 R161 | - -/
  notBefore : Nat
  /-- engine of a PUSH | 3 | 12 R320 | - -/
  engine : Option Engine
  /-- issue Beat of the STREAM of a PUSH | 48 | 12 R323 | - -/
  sid : Nat
  /-- waiting to be sent (false: sent, may return) | 1 | 06 R161 | - -/
  waiting : Bool
  /-- flits already sent | 7 | 05 R115 | - -/
  flitsOut : Nat
  /-- STREAM index of its flits, from the first to the last | 3 | 05 R116 | - -/
  strm : Option (BitVec 3)
  /-- the events register of an ALERT, whose value it carries when it leaves | 6 | 06 R159 | - -/
  alertOf : Option EvId
deriving DecidableEq, Repr

/-- A spare lane of one side (LNKx_RXMAP, LNKx_TXMAP). -/
structure Spare where
  /-- data lane it replaces or mirrors, none 0x1F | 5 | 04 R111 | none -/
  lane : Option (BitVec 4)
  /-- active | 1 | 04 R111 | false -/
  active : Bool
deriving DecidableEq, Repr

/-- A mailbox request of the device (Table 5.6). -/
inductive MailReq
  | lane (lane : BitVec 4) (spare start : Bool)
  | leave
deriving DecidableEq, Repr

/-- A failed copy of a flit: the slot in which it arrived and what arrived (R120). -/
structure BadCopy where
  /-- In-slot | 5 | 05 R118 | - -/
  slot : Nat
  /-- the flit as received | 512 | 05 R120 | - -/
  flit : Flit
deriving DecidableEq, Repr

/-- An entry of the through-queue (R120). -/
inductive HeldEnt
  /-- a flit that goes on -/
  | go (f : Flit)
  /-- a later flit of a stream that is not known while a copy is awaited: judged once the copies before it are settled -/
  | raw (f : Flit)
  /-- the place of a bad flit: its failed copies, the copies that did not come, the slot in which the next copy is due, and
  how many flits each open stream had when it arrived (request, flits) -/
  | gap (failed : List BadCopy) (lost : Nat) (due : Nat) (seen : List (Nat × Nat))
deriving DecidableEq, Repr

/-- A spare lane that is being compared with the data lane it is to replace (R96). -/
structure LaneRun where
  /-- data lane | 4 | 04 R96 | - -/
  lane : BitVec 4
  /-- spare, true S1 | 1 | 04 R96 | - -/
  spare : Bool
  /-- Beat of the request | 48 | 04 R96 | - -/
  since : Nat
  /-- spares that have failed the comparison for this lane | 2 | 04 R96 | - -/
  tried : BitVec 2
deriving DecidableEq, Repr

/-- One ring interface: LNKx_ block (Table 4.8), its share of SW_ (Table 5.11) and the flit machinery. -/
structure RingSt where
  /-- LNKx_STATUS.SWOPEN | 1 | 04 R111 | 0 -/
  swOpen : Bool
  /-- LNKx_STATUS.TRAINED | 1 | 04 R111 | 0 -/
  trained : Bool
  /-- LNKx_STATUS.JOINED | 1 | 04 R111 | 0 -/
  joined : Bool
  /-- LNKx_STATUS.NODEID | 5 | 04 R111 | 0 -/
  nodeId : Node
  /-- holds a node ID that a ROSTER has given out | 1 | 05 R126 | false -/
  hasId : Bool
  /-- the node ID taken at the last ENUM, used from its ROSTER on | 5 | 05 R126 | none -/
  newId : Option Node
  /-- LNKx_STATUS.RATE | 3 | 04 R111 | 0 -/
  rate : Nat
  /-- LNKx_CTL.TXEQ | 3 | 04 R93 | 2 -/
  txeq : BitVec 3
  /-- preset in force since the last opening | 3 | 04 R93 | 2 -/
  txeqNow : BitVec 3
  /-- LNKx_CTL.AUTOREMAP | 1 | 04 R96 | 1 -/
  autoremap : Bool
  /-- LNKx_CTL.LEAVE_TO | 8 | 04 R105 | 16 -/
  leaveTo : Nat
  /-- LNKx_RXMAP S0, S1 | 12 | 04 R111 | none -/
  rx : Vector Spare 2
  /-- LNKx_TXMAP S0, S1 | 12 | 04 R111 | none -/
  tx : Vector Spare 2
  /-- LNKx_SWOPS | 32 | 04 R111 | 0 -/
  swops : Nat
  /-- LNKx_RETRIES | 32 | 04 R111 | 0 -/
  retries : Nat
  /-- LNKx_TRAIN_US | 16 | 04 R111 | 0 -/
  trainUs : BitVec 16
  /-- LNKx_LERR[k] | 16 | 04 R95 | 0 -/
  lerr : Vector Nat 18
  /-- attributed errors of this Bar per data lane | 16 | 04 R95 | 0 -/
  lerrBar : Vector Nat 18
  /-- LNKx_EYE[k]: height, width, pass | 17 | 04 R99 | 0 -/
  eye : Vector (BitVec 8 × BitVec 8 × Bool) 19
  /-- LNKx_CONT pass bits | 19 | 04 R100 | 0 -/
  contPass : BitVec 19
  /-- LNKx_CONT_TESTED | 19 | 04 R100 | 0 -/
  contTested : BitVec 19
  /-- data lanes marked bad | 16 | 04 R95 | 0 -/
  bad : BitVec 16
  /-- data lanes that the Belfry repair map records as bad | 16 | 04 R98 | kept; 0 -/
  badKept : BitVec 16
  /-- data and spare lanes that failed their loopback | 18 | 04 R99 | 0 -/
  loopBad : BitVec 18
  /-- remaps in progress | - | 04 R96 | empty -/
  remaps : List LaneRun
  /-- data lanes for which no spare has passed | 16 | 04 R97 | 0 -/
  gaveUp : BitVec 16
  /-- a lane rejoin: lane and first Bar | - | 14 R370 | none -/
  rejoin : Option (BitVec 4 × Nat)
  /-- clock loopback failed: never opened | 1 | 16 R394 | false -/
  clockBad : Bool
  /-- SW_ENUM EPOCH | 8 | 05 R137 | 0 -/
  epoch : BitVec 8
  /-- SW_ENUM upstream neighbour | 5 | 05 R137 | 0x1F -/
  upstream : Node
  /-- an ENUM of the current EPOCH has been taken | 1 | 05 R124 | false -/
  enumSeen : Bool
  /-- a FRESH ENUM in Run or Degraded waits for its restart | 1 | 05 R128 | false -/
  freshDue : Bool
  /-- FRESHRUN comes with the next ROSTER | 1 | 05 R128 | false -/
  freshRun : Bool
  /-- Kit 0 is to be bound at the next ROSTER | 1 | 08 R210 | Ring A: true; Ring B: false -/
  rebindDue : Bool
  /-- SW_HOPLAT | 4 | 05 R119 | 0 -/
  hopLat : BitVec 4
  /-- L_hop of the hop upstream of the device | 4 | 05 R119 | none -/
  inHop : Option (BitVec 4)
  /-- the hop upstream of the device runs without hop retry | 1 | 05 R119 | false -/
  noRetry : Bool
  /-- the hop downstream of the device runs without hop retry | 1 | 05 R119 | false -/
  outNoRetry : Bool
  /-- SW_REFUSED half | 16 | 05 R137 | 0 -/
  refusedCt : Nat
  /-- SW_DROPPED half | 16 | 05 R137 | 0 -/
  dropped : Nat
  /-- the last ROSTER in ORDER order | 30×5 | 05 R127 | empty -/
  rosterIds : List Node
  /-- owners of the reply-only positions | 8×5 | 05 R124 | all 0x1F -/
  owners : List Node
  /-- owners from the next Downbeat | 8×5 | 05 R124 | none -/
  ownersNext : Option (List Node)
  /-- header flits received and not yet admitted: slot, Beat, flit | - | 05 R129 | empty -/
  heads : List (Nat × Nat × Flit)
  /-- streams refused at their header | 8 per source | 05 R129 | empty -/
  refusedStreams : List (Node × BitVec 3)
  /-- streams that pass through to another node: source, stream, flits still to come | - | 05 R116 | empty -/
  through : List (Node × BitVec 3 × Nat)
  /-- the 4-slot forwarding pipeline | 4 flits | 05 R123 | empty -/
  pipe : List Flit
  /-- head of the through-queue: flits that a copy has displaced | - | 05 R123 | empty -/
  front : List Flit
  /-- through-queue: flits held under R120, and the places of bad flits whose copies are awaited | 16 flits | 05 R120 | empty -/
  held : List HeldEnt
  /-- slots until a copy has been checked and held flits may leave | 2 | 05 R118 | 0 -/
  settling : Nat
  /-- slots in which the In side is to blink | 5 each | 05 R118 | empty -/
  blinkAt : List Nat
  /-- copies of the last 16 flits transmitted, newest first | 16 flits | 05 R120 | empty -/
  copies : List Flit
  /-- retry copies owed to the downstream node | - | 05 R118 | empty -/
  resend : List Flit
  /-- the In side blinked in this slot | 1 | 05 R118 | false -/
  blink : Bool
  /-- the flit last transmitted on the Out side | 512 | 05 R123 | none -/
  lastTx : Option Flit
  /-- the Out slot last transmitted, Beat × 32 + slot, and whether it carries a flit | 53 + 1 | 05 R113 | none -/
  usedAt : Option (Nat × Bool)
  /-- slot count of a window in progress, and whether the device opens in it | 6 + 1 | 04 R103 | none -/
  window : Option (Nat × Bool)
  /-- master Bar count of the Beat markers that the device emits as beat source | 32 | 02 R35 | 0 -/
  mbar : BitVec 32
  /-- master message that the device repeats as beat source, 24 bytes | 192 | 05 R124 | none -/
  msg : Option (List Byte)
  /-- mailbox content that the device as beat source puts into its next CTRL slot, 24 bytes | 192 | 05 R125 | empty -/
  mbox : List Byte
  /-- window that the device as beat source drives: W and the MBAR of its Bar | 42 | 04 R102 | none -/
  mwin : Option (BitVec 10 × BitVec 32)
  /-- mailbox requests outstanding with the Beat last sent | - | 05 R125 | empty -/
  mail : List (MailReq × Nat)
  /-- mailbox requests that wait for an empty mailbox | - | 05 R125 | empty -/
  mailOut : List MailReq
  /-- last JOINWIN acted on: W, MBAR | 42 | 05 R124 | none -/
  joinSeen : Option (BitVec 10 × BitVec 32)
  /-- last LEAVEWIN acted on: W, MBAR | 42 | 05 R124 | none -/
  leaveSeen : Option (BitVec 10 × BitVec 32)
  /-- Bar in which a leave was requested | 38 | 04 R105 | none -/
  leaveReq : Option Nat
  /-- a Downbeat or slots arrive | 1 | 19 R456 | false -/
  slots : Bool
deriving DecidableEq, Repr

/-- The pre-image of an entry (R282). -/
inductive PreImage
  /-- no shared window maps the page -/
  | notNeeded
  /-- the capture from the array waits for its read token -/
  | wants
  /-- the capture from the array completes in this Beat -/
  | due (beat : Nat)
  /-- captured: 64 bytes, or none when the chord was poisoned -/
  | have (v : Option (List Byte))
  /-- lost to a double-bit error, or never captured -/
  | absent
deriving DecidableEq, Repr

/-- Where a write-hold entry stands (R283). -/
inductive Phase
  /-- an RMW read is in progress; not yet accepted (R292) -/
  | merging
  /-- no pulse issued yet -/
  | waiting
  /-- pulsed in this Beat, verified two Beats later -/
  | pulsed (beat : Nat)
  /-- a retry group falls due in this Beat -/
  | retry (due : Nat)
deriving DecidableEq, Repr

/-- What a page-table chord write makes true when it is confirmed (R235). -/
inductive PtChange
  | backed | dirty (sector : BitVec 4) | resident | rehomed | demoted | released
deriving DecidableEq, Repr

/-- What a chord write is for. -/
inductive WKind
  | data                                          -- a Kit's write (R173)
  | pageTable (k : Kit) (kp : KPage) (c : PtChange)  -- R235
  | move (k : Kit) (kp : KPage)                   -- promotion or re-homing chord (R244, R262)
  | muffle (k : Kit) (kp : KPage)                 -- R180
  | stage (k : Kit) (slot : Fin 8)                -- RUD_LOAD STAGE (R181)
  | marker                                        -- poison marker (R335)
  | fix                                           -- rewrite of corrected slices (R339)
  | shadow (slots : List Nat)                     -- shadow-log chord (R385)
  | knell (copy : Bool) (ix : Nat)                -- Knell record chord (R429)
deriving DecidableEq, Repr

/-- A write-hold entry (R281). -/
structure WEntry where
  /-- acceptance order, the model's own name | - | 11 R281 | - -/
  ent : Nat
  /-- what it is for | - | 11 R281 | - -/
  kind : WKind
  /-- Kit charged, none for maintenance | 4 | 03 R62 | - -/
  payer : Option Kit
  /-- a write of the device itself, not a Kit's provisional one | 1 | 03 R76 | - -/
  maint : Bool
  /-- the writes it belongs to | - | 11 R281 | - -/
  rids : List Nat
  /-- kit address of the chord | 39 | 11 R281 | - -/
  kaddr : Nat
  /-- device chord index | 28 | 11 R281 | - -/
  chord : ChordIx
  /-- the 64 data bytes | 512 | 11 R281 | - -/
  data : List Byte
  /-- slices the next group drives | 11 | 11 R283 | - -/
  slices : Slices
  /-- the pre-image | 512 | 11 R282 | - -/
  pre : PreImage
  /-- Beat of acceptance | 48 | 11 R287 | - -/
  accepted : Nat
  /-- progress | - | 11 R283 | - -/
  phase : Phase
  /-- pulses issued | 3 | 11 R283 | - -/
  pulses : Nat
  /-- Beat of the first pulse | 48 | 11 R304 CONFMAX | - -/
  first : Nat
  /-- waits for the acceptance of its write's page-table chord | 1 | 09 R246 | - -/
  blocked : Bool
  /-- byte mask of an RMW merge | 64 | 11 R292 | - -/
  mask : BitVec 64
deriving DecidableEq, Repr

/-- A chord as it is served (11 R288). -/
inductive View
  /-- bytes at hand, with no token: a pending write, Near, or zeros -/
  | val (d : List Byte)
  /-- poisoned, with no token -/
  | poison
  /-- to be read from the array, with these bytes laid over it -/
  | array (c : Nat) (mask : BitVec 64) (ov : List Byte)
  /-- an RMW merge or a missing pre-image holds the reader -/
  | wait
  /-- Deep-homed and not resident -/
  | absent
deriving DecidableEq, Repr

/-- A merge-buffer entry (R290). -/
structure MEntry where
  /-- Kit | 4 | 11 R290 | - -/
  kit : Kit
  /-- kit address of the chord | 39 | 11 R290 | - -/
  kaddr : Nat
  /-- device chord index | 28 | 11 R290 | - -/
  chord : ChordIx
  /-- data bytes | 512 | 11 R290 | - -/
  data : List Byte
  /-- byte mask | 64 | 11 R290 | - -/
  mask : BitVec 64
  /-- Beat opened | 48 | 11 R290 | - -/
  opened : Nat
  /-- the writes merged into it | - | 11 R290 | - -/
  rids : List Nat
  /-- it is to close, and waits for a read token | 1 | 11 R290 | - -/
  closing : Bool
deriving DecidableEq, Repr

/-- One chord of a write that waits in intake (R81). -/
structure WUnit where
  /-- kit address of the chord | 39 | 03 R81 | - -/
  kaddr : Nat
  /-- the 64 bytes, those outside the mask 0 | 512 | 07 R174 | - -/
  data : List Byte
  /-- bytes written | 64 | 07 R174 | - -/
  mask : BitVec 64
deriving DecidableEq, Repr

/-- A WRITE or WRITE_MASKED from its checks to the outcome of its last chord (R82, R293). -/
structure WriteJob where
  /-- the request | - | 11 R281 | - -/
  rid : Nat
  /-- its header | - | 11 R281 | - -/
  rq : Req
  /-- Kit | 4 | 11 R281 | - -/
  kit : Kit
  /-- chords not yet accepted, in address order | - | 03 R82 | - -/
  todo : List WUnit
  /-- intake credits still held | 7 | 07 R175 | - -/
  credits : Nat
  /-- accepted chords whose outcome is pending | - | 11 R293 | - -/
  open_ : Nat
  /-- Beat of the last acceptance | 48 | 06 R151 | - -/
  lastAccept : Nat
  /-- Beat of the last outcome | 48 | 07 R176 | - -/
  lastOutcome : Nat
  /-- recanted chords | - | 11 R293 | - -/
  recanted : Nat
  /-- first recanted address | 39 | 11 R293 | - -/
  firstRecant : Option Nat
  /-- Beat of that recant | 48 | 11 R295 | - -/
  recantBeat : Nat
  /-- bytes in front of a page that cannot be backed, with OK_PARTIAL (R234) | - | 09 R234 | - -/
  cutAt : Option Nat
  /-- kit addresses of the zero sectors that it filled around its own chords | - | 09 R233 | - -/
  zeroed : List Nat
  /-- replied | 1 | 06 R148 | - -/
  replied : Bool
  /-- POISONED owing to KEYLOST (R219) | 1 | 08 R219 | - -/
  plain : Bool
  /-- the Kit's held Strokes have fallen in each Bar of its wait | 1 | 06 R157 | - -/
  falling : Bool
deriving DecidableEq, Repr

/-- An outstanding FENCE (R294). -/
structure FenceJob where
  /-- the request | - | 11 R294 | - -/
  rid : Nat
  /-- its header | - | 11 R294 | - -/
  rq : Req
  /-- Kit | 4 | 11 R294 | - -/
  kit : Kit
  /-- the writes it covers, by admission order | - | 11 R294 | - -/
  covers : List Nat
  /-- admission Beat | 48 | 07 R176 | - -/
  admBeat : Nat
  /-- Beat of the last covered outcome | 48 | 07 R176 | - -/
  last : Nat
deriving DecidableEq, Repr

/-- A READ in service (R80, R171). -/
structure ReadJob where
  /-- the request | - | 07 R171 | - -/
  rid : Nat
  /-- its header | - | 07 R171 | - -/
  rq : Req
  /-- Kit | 4 | 07 R171 | - -/
  kit : Kit
  /-- kit addresses of the chords still to read | - | 03 R80 | - -/
  todo : List Nat
  /-- chords read so far: kit address, value, none when poisoned | - | 07 R171 | - -/
  got : List (Nat × Option (List Byte))
  /-- chords read from the array: kit address, bytes before decode | - | 11 R301 | - -/
  raws : List (Nat × List Byte)
  /-- chords decoded as corrected data symbol | - | 07 R172 | - -/
  corr : List Nat
  /-- chords read from Main | - | 08 R228 | - -/
  fromMain : Nat
  /-- admission, Beat × 32 + slot | 53 | 05 R136 | - -/
  at_ : Nat
  /-- every chord so far was a Near hit | 1 | 05 R136 | - -/
  allNear : Bool
  /-- translation-cache misses delay the mark | 1 | 09 R235 | - -/
  xcmiss : Bool
  /-- Beat of the last token | 48 | 05 R136 | - -/
  lastTok : Nat
  /-- early form, with REDO entries reserved | 9 | 11 R300 | - -/
  early : Nat
deriving DecidableEq, Repr

/-- The home of a Kit page (TIER_KPROBE_R). -/
inductive Home | main (frame : Nat) | deep (page : Nat)
deriving DecidableEq, Repr

/-- A backed Kit page: its page-table entry (R232) with heat and pins. -/
structure Page where
  /-- owner | 4 | 08 R215 | - -/
  kit : Kit
  /-- kit page number | 23 | 09 R232 | - -/
  kp : KPage
  /-- home and device page index | 23 | 09 R232 | - -/
  home : Home
  /-- Residency slot | 18 | 09 R236 | - -/
  slot : Option Nat
  /-- dirty bits | 16 | 09 R246 | - -/
  dirty : BitVec 16
  /-- dirty bits whose page-table chord is pending | 16 | 09 R246 | - -/
  dirtyDue : BitVec 16
  /-- zero bits | 16 | 09 R233 | - -/
  zero : BitVec 16
  /-- heat | 16 | 09 R241 | - -/
  heat : Nat
  /-- accesses of this Beat, which count after its heat decay | 16 | 09 R241 | - -/
  hits : Nat
  /-- Near pin | 1 | 09 R240 | - -/
  nearPin : Bool
  /-- Main pin | 1 | 09 R240 | - -/
  mainPin : Bool
  /-- Residency pin that a Near pin implies | 1 | 09 R240 | - -/
  impliedPin : Bool
  /-- age stamp of the Residency slot | 48 | 09 R248 | - -/
  age : Nat
  /-- the page-table chord of its backing is confirmed | 1 | 09 R235 | - -/
  stable : Bool
  /-- sectors whose write-back is in progress and that a later write touched | 16 | 09 R247 | - -/
  redirty : BitVec 16
deriving DecidableEq, Repr

/-- A move under R252. -/
inductive MoveKind
  | promote | rehome | demote | writeBack (why : Bool) | nearFill (pin : Bool)
deriving DecidableEq, Repr

/-- A move in progress: what is still to read from Deep, to copy and to fill. -/
structure Move where
  /-- owner | 4 | 09 R252 | - -/
  kit : Kit
  /-- kit page | 23 | 09 R252 | - -/
  kp : KPage
  /-- kind | - | 09 R252 | - -/
  kind : MoveKind
  /-- target frame, slot or Deep page | 23 | 09 R252 | - -/
  dest : Nat
  /-- sectors still to read from NAND | 16 | 10 R262 | - -/
  reads : BitVec 16
  /-- retry steps of the read in progress | 3 | 10 R262 | - -/
  retries : Nat
  /-- sectors found uncorrectable | 16 | 10 R266 | - -/
  lost : BitVec 16
  /-- chords of the page still to copy, or to read for a NAND program | - | 09 R252 | - -/
  todo : List Nat
  /-- sectors still to program into Deep | 16 | 10 R261 | - -/
  progs : BitVec 16
  /-- its page-table chord has been accepted | 1 | 09 R252 | - -/
  table : Bool
  /-- counts against a migration pass, or an explicit request's pins wait on it | 1 | 09 R253 | - -/
  pass : Bool
  /-- the page is pinned in Near when the move ends | 1 | 09 R240 | - -/
  thenNear : Bool
  /-- engine of a FETCH, with its deadline | - | 10 R263 | - -/
  fetch : Option (Engine × Option Nat)
  /-- holds a promotion-buffer entry | 1 | 10 R262 | - -/
  entry : Bool
  /-- begun: false while it waits for another move of its page | 1 | 09 R253 | - -/
  going : Bool
deriving DecidableEq, Repr

/-- A page-range request that replies once its pages are done (MIGRATE_NOW, MUFFLE_DECLARE, CLOSE, …). -/
structure WaitJob where
  /-- the request | - | 07 R179 | - -/
  rid : Nat
  /-- its header | - | 07 R179 | - -/
  rq : Req
  /-- Kit | 4 | 07 R179 | - -/
  kit : Kit
  /-- pages or chords still awaited | - | 07 R179 | - -/
  pages : List KPage
  /-- the reply when they are done | 56 | 07 R179 | - -/
  status : BitVec 8
  /-- its DETAIL | 48 | 07 R179 | - -/
  detail : BitVec 48
deriving DecidableEq, Repr

/-- A Near block (R248). -/
structure NearBlk where
  /-- block number | 15 | 09 R248 | - -/
  blk : Nat
  /-- owner | 4 | 09 R248 | - -/
  kit : Kit
  /-- kit page | 23 | 09 R248 | - -/
  kp : KPage
  /-- sector within the page | 4 | 09 R248 | - -/
  sector : BitVec 4
  /-- valid lines: line, POISON bit, 64 bytes | 64×513 | 09 R248, 13 R337 | - -/
  lines : List (Nat × Bool × List Byte)
  /-- age stamp | 48 | 09 R248 | - -/
  age : Nat
deriving DecidableEq, Repr

/-- TIER_ block, device-wide part (Table 9.3). -/
structure Tier where
  /-- TIER_CTL.PART as written | 1 | 09 R250 | 0 -/
  part : Bool
  /-- PART in force | 1 | 09 R250 | 0 -/
  partNow : Bool
  /-- TIER_CTL.DECAY | 3 | 09 R242 | 1 -/
  decay : Nat
  /-- TIER_CTL.NOAUTO | 1 | 09 R256 | 0 -/
  noauto : Bool
  /-- TIER_CTL.NEWHOME | 1 | 09 R232 | 0 -/
  newhome : Bool
  /-- TIER_SPLIT requested | 8 | 09 R237 | kept; factory 4 -/
  splitReq : Nat
  /-- TIER_SPLIT in force | 8 | 09 R236 | kept; factory 4 -/
  split : Nat
  /-- split recorded at CLOSE for the next power-up or reset | 8 | 09 R237 | none -/
  splitNext : Option Nat
  /-- TIER_STATUS.WARM | 1 | 09 R256 | 1 -/
  warm : Bool
  /-- TIER_STATUS.SNAPREST | 1 | 09 R255 | 0 -/
  snaprest : Bool
  /-- TIER_PROMOTE_HEAT | 16 | 09 R243 | 256 -/
  promoteHeat : Nat
  /-- TIER_DEMOTE_HEAT | 16 | 09 R243 | 16 -/
  demoteHeat : Nat
  /-- TIER_MIG_MAX | 4 | 09 R243 | 4 -/
  migMax : Nat
  /-- TIER_CLEAN_THR | 7 | 09 R246 | 25 -/
  cleanThr : Nat
  /-- TIER_PROMOTIONS | 32 | 09 R257 | 0 -/
  promotions : Nat
  /-- TIER_WRITEBACKS | 32 | 09 R257 | 0 -/
  writebacks : Nat
  /-- TIER_MOVES | 32 | 09 R257 | 0 -/
  moves : Nat
  /-- TIER_XCMISS | 32 | 09 R257 | 0 -/
  xcmiss : Nat
  /-- pages in the translation cache, newest first | 32,768 entries | 09 R235 | empty -/
  xcache : List (Kit × KPage)
  /-- heat-decay events applied, of those that BEATNO has passed | 30 | 09 R242 | 0 -/
  lastDecay : Nat
  /-- heat snapshot: pages with their heat, BEATNO, valid Toll | - | 09 R254 | none -/
  snapshot : Option (List (Kit × KPage × Nat) × Nat)
  /-- the Evening Toll of that CLOSE passed | 1 | 09 R254 | false -/
  snapToll : Bool
  /-- the snapshot restore has been done in this Join | 1 | 09 R255 | false -/
  snapDone : Bool
deriving DecidableEq, Repr

/-- A Deep map entry (R259): where a sector lies. -/
structure DeepEnt where
  /-- Deep page index | 23 | 10 R259 | - -/
  page : Nat
  /-- sector | 4 | 10 R259 | - -/
  sector : BitVec 4
  /-- (block × 1,024 + NAND page) × 4 + codeword | 27 | 10 R258 | - -/
  loc : Nat
  /-- poison mask of the sector's chords | 64 | 13 R337 | - -/
  poison : BitVec 64
deriving DecidableEq, Repr

/-- A Deep block in use, queued or retired (R268 to R271). -/
structure DeepBlk where
  /-- die × 8,192 + block | 15 | 10 R258 | - -/
  blk : Nat
  /-- reads since the last erase | 24 | 10 R268 | - -/
  reads : Nat
  /-- erase count | 16 | 10 R270 | - -/
  erases : Nat
  /-- NAND pages programmed since the erase | 11 | 10 R258 | - -/
  fill : Nat
  /-- retired | 1 | 10 R271 | - -/
  retired : Bool
  /-- queued for refresh relocation, in this order | - | 10 R269 | - -/
  refresh : Option Nat
  /-- queued for retirement | 1 | 10 R271 | - -/
  retiring : Bool
  /-- Measure of the last program | 26 | 10 R271 | - -/
  lastProg : Nat
deriving DecidableEq, Repr

/-- A program or erase on a Deep die (R261). -/
inductive DeepOp
  /-- sectors written to one NAND page: owner, kit page, sector; and the location -/
  | program (payer : Option Kit) (sectors : List (Kit × KPage × BitVec 4)) (loc : Nat)
  /-- a relocation program: map sectors copied -/
  | relocate (sectors : List (Nat × BitVec 4)) (loc : Nat)
  | erase (blk : Nat)
deriving DecidableEq, Repr

/-- One Deep die (R263, R265). -/
structure DeepDie where
  /-- DEEP_DIE.FAILED | 1 | 10 R280 | kept; 0 -/
  failed : Bool
  /-- DEEP_DIE good blocks | 14 | 10 R280 | kept; DESIGN CHOICE 8,192 (log 6) -/
  good : Nat
  /-- consecutive stalls | 2 | 10 R265 | 0 -/
  stalls : Nat
  /-- operation in progress | - | 10 R263 | none -/
  busy : Option DeepOp
  /-- times the operation was suspended | 3 | 10 R263 | 0 -/
  suspends : Nat
  /-- the operation is suspended for waiting reads | 1 | 10 R263 | false -/
  suspended : Bool
  /-- online since Join | 1 | 10 R280 | false -/
  online : Bool
deriving DecidableEq, Repr

/-- DEEP_ block (Table 10.4) and the translation layer. -/
structure Deep where
  /-- DEEP_STATUS.MUTED | 1 | 10 R273 | kept; 0 -/
  muted : Bool
  /-- DEEP_STATUS.READY | 1 | 10 R279 | 0 -/
  ready : Bool
  /-- DEEP_STATUS.DRAIN | 1 | 10 R275 | 0 -/
  drain : Bool
  /-- DEEP_STATUS.NORELOC | 1 | 10 R275 | kept; 0 -/
  noreloc : Bool
  /-- DEEP_CTL.SUSPEND | 1 | 10 R280 | 1 -/
  suspend : Bool
  /-- DEEP_CTL.PACK_WAIT | 8 | 10 R280 | 16 -/
  packWait : Nat
  /-- DEEP_FLOOR | 12 | 10 R276 | kept; factory 1,024 -/
  floor : Nat
  /-- DEEP_RESERVE | 16 | 10 R280 | kept; DESIGN CHOICE 3,840 (log 6) -/
  reserve : Nat
  /-- DEEP_RETIRED | 16 | 10 R280 | kept; 0 -/
  retiredCt : Nat
  /-- DEEP_FACTORY_BAD | 16 | 10 R280 | kept; DESIGN CHOICE 0 (log 6) -/
  factoryBad : Nat
  /-- DEEP_RD_THR | 24 | 10 R280 | 100,000 -/
  rdThr : Nat
  /-- DEEP_SCAN_BLKS | 4 | 10 R280 | 4 -/
  scanBlks : Nat
  /-- DEEP_REFRESH_BER | 8 | 10 R280 | 64 -/
  refreshBer : Nat
  /-- DEEP_WL_SPREAD | 12 | 10 R280 | 200 -/
  wlSpread : Nat
  /-- DEEP_RETRY_THR, 8.8 | 16 | 10 R280 | 0x0080 -/
  retryThr : Nat
  /-- DEEP_WEAR retry steps per read, LDPC iterations per codeword | 16+16 | 10 R272 | 0 -/
  wear : Nat × Nat
  /-- this Measure: NAND reads, retry steps, codewords | - | 10 R272 | 0 -/
  measure : Nat × Nat × Nat
  /-- DEEP_READS | 32 | 10 R280 | 0 -/
  reads : Nat
  /-- DEEP_PROGRAMS | 32 | 10 R280 | 0 -/
  programs : Nat
  /-- DEEP_ERASES | 32 | 10 R280 | 0 -/
  erases : Nat
  /-- DEEP_RELOC | 32 | 10 R280 | 0 -/
  reloc : Nat
  /-- DEEP_UNCORR | 32 | 10 R280 | kept; 0 -/
  uncorr : Nat
  /-- DEEP_SCANS | 32 | 10 R280 | 0 -/
  scans : Nat
  /-- DEEP_SCAN_DROP | 32 | 10 R280 | 0 -/
  scanDrop : Nat
  /-- blocks of the retention rotation: next block | 15 | 10 R268 | 0 -/
  rotate : Nat
  /-- blocks waiting for their scan reads | - | 10 R268 | empty -/
  scanQ : List Nat
  /-- write-backs held for want of free blocks | 1 | 10 R267 | false -/
  wbHeld : Bool
  /-- blocks with a history | - | 10 R268 | empty -/
  blks : List DeepBlk
  /-- sectors that wait to be packed: Kit, kit page, sector, Beat | - | 10 R259 | empty -/
  pack : List (Kit × KPage × BitVec 4 × Nat)
  /-- programs and erases that wait for Strokes | - | 10 R263 | empty -/
  queue : List DeepOp
  /-- the die the next program goes to | 2 | 10 R259 | 0 -/
  nextDie : Nat
  /-- the dies | 4 | 10 R280 | as DeepDie -/
  dies : Vector DeepDie 4
  /-- the map, in order of page and sector | - | 10 R259 | empty -/
  map : List DeepEnt
  /-- NAND contents by loc × 4,096 + byte; an unlisted byte reads 0 | 512 GiB | 10 R258 | DESIGN CHOICE empty (log 7) -/
  nand : List Host.Cell
  /-- Bar of the last wear-level relocation | 38 | 10 R270 | none -/
  lastWl : Option Nat
  /-- block that wear levelling relocates, and the block it goes to | 15 + 15 | 10 R270 | none -/
  wlTo : Option (Nat × Nat)
  /-- highest refresh order given | - | 10 R269 | 0 -/
  refreshSeq : Nat
deriving DecidableEq, Repr

/-- A counted loop (R314). -/
structure LoopSt where
  /-- counter | 16 | 12 R314 | - -/
  ctr : Nat
  /-- first instruction | 12 | 12 R314 | - -/
  start : Nat
  /-- last instruction | 12 | 12 R314 | - -/
  last : Nat
deriving DecidableEq, Repr

/-- RUD_QUERY byte 0. -/
inductive EngState | idle | running | held | halted | stopped
deriving DecidableEq, Repr

/-- What a PUSH packet reads (R319, R326). -/
inductive PushSrc
  /-- kit address of its first chord -/
  | kit (addr : Nat)
  /-- first device chord of a generated Muffle's part -/
  | muffle (chord : Nat)
deriving DecidableEq, Repr

/-- A PUSH packet in an engine's FIFO (R319). -/
structure PushPkt where
  /-- page position | 4 | 12 R319 | - -/
  pos : Nat
  /-- part j of the page or Muffle | 5 | 12 R319 | - -/
  part : Nat
  /-- kit page whose data or Muffle it carries | 23 | 12 R319 | - -/
  kp : KPage
  /-- Muffle part | 1 | 12 R326 | - -/
  muffle : Bool
  /-- STATUS before poison | 8 | 12 R319 | - -/
  status : BitVec 8
  /-- destination | 5 | 12 R319 | - -/
  node : Node
  /-- ring | 1 | 12 R319 | - -/
  ring : Ring
  /-- target offset | 40 | 12 R319 | - -/
  offset : Nat
  /-- data bytes once read | - | 12 R319 | - -/
  data : List Byte
  /-- chords still to read, as token demand | 6 | 12 R319 | - -/
  need : Nat
  /-- Beat from which it is ready | 48 | 12 R319 | - -/
  ready : Option Nat
  /-- what it reads | 39 | 12 R319, R326 | - -/
  src : PushSrc
  /-- issue Beat of its STREAM | 48 | 12 R323 | - -/
  sid : Nat
deriving DecidableEq, Repr

/-- A FETCH of an engine (R316). -/
structure FetchSt where
  /-- pages not yet complete | 16×23 | 12 R316 | - -/
  pages : List KPage
  /-- target | 1 | 12 R316 | - -/
  near : Bool
  /-- deadline | 48 | 12 R322 | - -/
  dl : Option Nat
deriving DecidableEq, Repr

/-- A STREAM of an engine (R318, R322). -/
structure StreamSt where
  /-- first kit page | 23 | 12 R318 | - -/
  kp : Nat
  /-- pages | 5 | 12 R318 | - -/
  count : Nat
  /-- offset / 256 | 32 | 12 R318 | - -/
  rb : Nat
  /-- destination | 5 | 12 R318 | - -/
  node : Node
  /-- ring | 1 | 12 R318 | - -/
  ring : Ring
  /-- deadline | 48 | 12 R322 | - -/
  dl : Option Nat
  /-- policy and FULL at the deadline | 3 | 12 R322 | - -/
  pol : Policy × Bool
  /-- its in-place packets are queued | 1 | 12 R318 | - -/
  done : Bool
  /-- the deadline has been applied | 1 | 12 R322 | - -/
  judged : Bool
  /-- late positions | 16 | 12 R322 | - -/
  late : List Nat
  /-- positions whose follow-up waits | 16 | 12 R322 | - -/
  follow : List Nat
  /-- its issue Beat, which tells it from the engine's other STREAMs | 48 | 12 R323 | - -/
  sid : Nat
  /-- the counting of its Beats has ended | 1 | 12 R323 | - -/
  counted : Bool
deriving DecidableEq, Repr

/-- A rudiment engine (Table 12.1). -/
structure EngSt where
  /-- state | 3 | 12 R327 | idle -/
  state : EngState
  /-- owning Kit | 4 | 12 R327 | 0 -/
  kit : Kit
  /-- slot | 3 | 12 R327 | 0 -/
  slot : Fin 8
  /-- FAULT | 4 | 12 R327 | 0 -/
  fault : Nat
  /-- LS | 8 | 12 R305 | 0 -/
  ls : BitVec 8
  /-- g0 to g7 | 8×32 | 12 R305 | 0 -/
  g : Vector Word 8
  /-- PC | 12 | 12 R305 | 0 -/
  pc : Nat
  /-- the active loop | 40 | 12 R305 | none -/
  loop : Option LoopSt
  /-- call stack, newest first | 4 | 12 R305 | empty -/
  stack : List (Nat × Option LoopSt)
  /-- deadline register | 48 | 12 R305 | none -/
  dl : Option Nat
  /-- POLICY | 2 | 12 R305 | STALL -/
  pol : Policy
  /-- FULL | 1 | 12 R305 | 0 -/
  full : Bool
  /-- Beat before which nothing issues: first issue, wait target, one Beat per instruction | 48 | 12 R308, R313 | 0 -/
  next : Nat
  /-- a wait holds at its PC until `next` | 1 | 12 R310, R313 | false -/
  waiting : Bool
  /-- outstanding FETCHes | 8 | 12 R305 | empty -/
  fetches : List FetchSt
  /-- STREAMs that hold, wait for follow-ups or are still counted | - | 12 R318 | empty -/
  streams : List StreamSt
  /-- PUSH FIFO | 512 | 12 R305 | empty -/
  fifo : List PushPkt
  /-- RUD_STOP ends it at the next Beat | 1 | 07 R184 | false -/
  stopping : Bool
  /-- RUD_ENG_ISSUED | 32 | 12 R327 | 0 -/
  issued : Nat
  /-- RUD_ENG_PUSHES | 32 | 12 R327 | 0 -/
  pushes : Nat
  /-- RUD_ENG_LATE | 32 | 12 R327 | 0 -/
  late : Nat
  /-- RUD_ENG_MUFFLED | 32 | 12 R327 | 0 -/
  muffled : Nat
  /-- RUD_ENG_STALL[c] | 32 | 12 R327 | 0 -/
  stall : Vector Nat 4
deriving DecidableEq, Repr

/-- A loaded program in the rudiment store (R306). -/
structure RudCopy where
  /-- Kit | 4 | 12 R306 | - -/
  kit : Kit
  /-- slot | 3 | 12 R306 | - -/
  slot : Fin 8
  /-- first unit | 8 | 12 R306 | - -/
  unit : Nat
  /-- the instruction words | 4,096×32 | 12 R306 | - -/
  words : List Word
deriving DecidableEq, Repr

/-- A word of a base-die SRAM, by what it holds (13 R346, Table 13.8). -/
inductive SramWord
  /-- a Near line: block and line -/
  | near (blk line : Nat)
  /-- a Tally record, by its index -/
  | tally (index : Nat)
  /-- the tag of a Near block -/
  | nearTag (blk : Nat)
  /-- a chord of a write in intake -/
  | intake (rid kaddr : Nat)
  /-- data of a write-hold entry -/
  | holdData (ent : Nat)
  /-- pre-image of a write-hold entry -/
  | holdPre (ent : Nat)
  /-- a merge entry -/
  | merge (entry : Fin 64)
  /-- a sector of a promotion in the promotion buffer -/
  | promotion (kit : Kit) (kp : KPage) (sector : BitVec 4)
  /-- a REDO unit of an early-form reply -/
  | redo (rid unit : Nat)
  /-- a copy in the Rudiment store -/
  | store (kit : Kit) (slot : Fin 8)
  /-- patch SRAM, control-core data SRAM or a switch queue: structures 9 to 11 -/
  | core (structure_ word : Nat)
deriving DecidableEq, Repr

/-- A bit error that stands in an SRAM word until a read meets it (R346). -/
structure SramErr where
  /-- the word | - | 13 R346 | - -/
  word : SramWord
  /-- two wrong bits: not corrected | 1 | 13 R346 | - -/
  double : Bool
deriving DecidableEq, Repr

/-- A staged slot of the Rudiment program home (R181). -/
structure RudStage where
  /-- Kit | 4 | 07 R181 | - -/
  kit : Kit
  /-- slot | 3 | 07 R181 | - -/
  slot : Fin 8
  /-- chords of the array copy that hold staged words | 256 | 07 R181 | - -/
  chords : List Nat
deriving DecidableEq, Repr

/-- A request whose stage or Muffle chords are pending (07 R180, R181). -/
structure StageJob where
  /-- the request | - | 07 R181 | - -/
  rid : Nat
  /-- its header | - | 07 R181 | - -/
  rq : Req
  /-- Kit | 4 | 07 R181 | - -/
  kit : Kit
  /-- chords whose outcome is pending | - | 07 R181 | - -/
  left : Nat
  /-- recanted chords | - | 11 R293 | - -/
  recanted : Nat
  /-- the earliest recanted chord's address, and its Beat | 40, 48 | 11 R293 | - -/
  first : Option (Nat × Nat)
deriving DecidableEq, Repr

/-- A Muffle of a page (R180). -/
inductive MuffleForm
  /-- generated: format 1 MXFP8 or 2 MXFP4, and its first device chord -/
  | generated (fmt base : Nat)
  /-- declared: kit address of the body and length in chords -/
  | declared (addr chords : Nat)
deriving DecidableEq, Repr

/-- A declaration (R180). -/
structure Muffle where
  /-- Kit | 4 | 07 R180 | - -/
  kit : Kit
  /-- kit page | 23 | 07 R180 | - -/
  kp : KPage
  /-- form | - | 07 R180 | - -/
  form : MuffleForm
  /-- every chord stored and confirmed | 1 | 07 R180 | - -/
  stored : Bool
  /-- an uncorrectable chord makes it absent (Table 13.6) | 1 | 13 R341 | - -/
  bad : Bool
deriving DecidableEq, Repr

/-- A MUFFLE_DECLARE whose Muffles are generated (R180). -/
structure MufJob where
  /-- the request | - | 07 R180 | - -/
  rid : Nat
  /-- its header | - | 07 R180 | - -/
  rq : Req
  /-- Kit | 4 | 07 R180 | - -/
  kit : Kit
  /-- pages still to read | - | 07 R180 | - -/
  todo : List KPage
  /-- chords of the first of them read so far, none when poisoned | 1,024 | 07 R180 | - -/
  got : List (Option (List Byte))
  /-- pages done before the quota ended the range | - | 07 R179 | - -/
  stop : Option Nat
deriving DecidableEq, Repr

/-- ECC_ block (Table 13.10) with the fix queue. -/
structure Ecc where
  /-- ECC_CTL.PERIOD | 8 | 13 R342 | 24 -/
  period : Nat
  /-- a PERIOD write waits for the next Downbeat | 1 | 13 R342 | false -/
  periodDue : Bool
  /-- ECC_CTL.RDFIX | 1 | 13 R339 | 1 -/
  rdfix : Bool
  /-- ECC_SCRUB_RATE, 16.16 | 32 | 13 R342 | DESIGN CHOICE 0 until Join (log 5) -/
  rate : Nat
  /-- ECC_SCRUB_CUR | 28 | 13 R343 | kept; DESIGN CHOICE 0 (log 5) -/
  cur : Nat
  /-- scrub accumulator, 16.16 | 32 | 13 R343 | kept; DESIGN CHOICE 0 (log 5) -/
  acc : Nat
  /-- chords due | - | 13 R344 | 0 -/
  due : Nat
  /-- device Bars of the sweep in progress before `sweepFrom` | 32 | 13 R345 | kept; 0 -/
  sweepBars0 : Nat
  /-- Bar from which the sweep counts | 38 | 13 R345 | 0 -/
  sweepFrom : Nat
  /-- the last saved cursor, accumulator and sweep Bars | 28+32+32 | 13 R345 | kept; 0 -/
  saved : Nat × Nat × Nat
  /-- ECC_SWEEP_BARS | 32 | 13 R345 | kept; 0 -/
  sweepBars : Nat
  /-- ECC_SWEEPS | 32 | 13 R345 | kept; 0 -/
  sweeps : Nat
  /-- ECC_CORR_DATA | 32 | 13 R351 | 0 -/
  corrData : Nat
  /-- ECC_CORR_CHECK | 32 | 13 R351 | 0 -/
  corrCheck : Nat
  /-- ECC_ERASED | 32 | 13 R351 | 0 -/
  erased : Nat
  /-- ECC_UNCORR | 32 | 13 R351 | kept; 0 -/
  uncorr : Nat
  /-- ECC_POISON_SEEN | 32 | 13 R351 | 0 -/
  poisonSeen : Nat
  /-- ECC_SCRUB_FIXED | 32 | 13 R351 | 0 -/
  fixed : Nat
  /-- ECC_SCRUB_SKIP | 32 | 13 R351 | 0 -/
  skip : Nat
  /-- ECC_RDFIX_DROP | 32 | 13 R351 | 0 -/
  fixDrop : Nat
  /-- ECC_SRAM_SEC | 32 | 13 R351 | 0 -/
  sramSec : Nat
  /-- ECC_SRAM_DED | 32 | 13 R351 | 0 -/
  sramDed : Nat
  /-- ECC_DIE_CORR[d] | 32 | 13 R351 | kept; 0 -/
  dieCorr : Vector Nat 11
  /-- symbols corrected in the current Bar per die | 16 | 14 R358 | 0 -/
  dieCorrBar : Vector Nat 11
  /-- ECC_LAST_UNCORR: chord, found by | 32 | 13 R351 | kept; 0 -/
  lastUncorr : Nat × Nat
  /-- the fix queue: chord, slices, Beat of the read | 64 | 13 R339 | empty -/
  fixq : List (ChordIx × Slices × Nat)
  /-- poison markers that wait for a write-hold entry | - | 13 R335 | empty -/
  markq : List ChordIx
  /-- Bar until which the scrub boost continues | 38 | 20 R480 | none -/
  boostTo : Option Nat
deriving DecidableEq, Repr

/-- An open fault or Toll result, as a 16-byte record names it (Table 16.5). -/
structure FaultRec where
  /-- kind | 4 | 14 R354 | - -/
  kind : Nat
  /-- physical die | 8 | 14 R354 | - -/
  die : Nat
  /-- bank | 8 | 14 R352 | - -/
  bank : Nat
  /-- row | 16 | 14 R352 | - -/
  row : Nat
  /-- column group | 4 | 14 R352 | - -/
  colgrp : Nat
  /-- byte lane | 6 | 14 R352 | - -/
  lane : Nat
  /-- the 16 bytes of the Toll result record that it comes from | 128 | 16 R403 | - -/
  raw : Option (List Byte)
deriving DecidableEq, Repr

/-- A shadow transfer or resilvering (R360, R365). -/
structure Transfer where
  /-- unit kind | - | 14 R364 | - -/
  kind : UnitKind
  /-- physical die | 4 | 14 R360 | - -/
  die : Nat
  /-- bank | 5 | 14 R360 | - -/
  bank : Nat
  /-- row, or column group | 16 | 14 R360 | - -/
  row : Nat
  /-- byte lane of a column | 6 | 14 R360 | - -/
  lane : Nat
  /-- the role, for a die operation | 4 | 14 R365 | - -/
  role : Nat
  /-- resilvering (R365), not a plain shadow transfer | 1 | 14 R365 | - -/
  resilver : Bool
  /-- phase: 0 abandoned, to start again, 1 shadow, 2 rebuild, 3 verify, 4 waits for its Downbeat | 3 | 14 R364, R373 | - -/
  phase : Nat
  /-- chords of the unit done in this phase: the cursor | 28 | 14 R373 | - -/
  cursor : Nat
  /-- Beats since the last rebuild group of a resilvering, up to 2 | 2 | 14 R365 | - -/
  after : Nat
  /-- spares tried for this fault | 2 | 14 R363 | - -/
  tries : Nat
  /-- Beat of the start | 48 | 14 R373 | - -/
  start : Nat
  /-- Beats held by WRHOLD | - | 20 R480 | - -/
  heldBeats : Nat
  /-- chords passed over for a pending write-hold entry, to return to | - | 14 R362 | - -/
  late : List Nat
deriving DecidableEq, Repr

/-- REP_ block (Table 14.3). -/
structure Rep where
  /-- REP_CTL.AUTOROW | 1 | 14 R373 | 1 -/
  autorow : Bool
  /-- REP_CTL.AUTOCOL | 1 | 14 R373 | 1 -/
  autocol : Bool
  /-- REP_CTL.AUTODIE | 1 | 14 R373 | 1 -/
  autodie : Bool
  /-- REP_CTL.RB_MAX | 6 | 14 R373 | 8 -/
  rbMax : Nat
  /-- REP_CTL.LANEV | 8 | 14 R373 | 16 -/
  lanev : Nat
  /-- roles that are out with no stand-in | 10 | 14 R359 | kept; 0 -/
  rolesOut : BitVec 10
  /-- hot spare physical die, none 0xF | 4 | 14 R373 | kept; factory 0xA -/
  spare : Option (Fin 11)
  /-- spare die failed | 1 | 14 R373 | kept; 0 -/
  spareFailed : Bool
  /-- physical die of each role | 10×4 | 14 R353 | kept; factory identity -/
  role : Vector (Fin 11) 10
  /-- banks out per physical die | 11×32 | 14 R373 | kept; 0 -/
  banks : Vector (BitVec 32) 11
  /-- running transfers | 5 | 14 R364 | none -/
  runs : List Transfer
  /-- saved resilver: role, cursor | 4+28 | 14 R366 | kept; none -/
  savedRes : Option (Nat × Nat)
  /-- REP_DIE_CORR_THR | 16 | 14 R373 | 4,096 -/
  dieCorrThr : Nat
  /-- REP_WEAR_DIE, 8.8 | 16 | 14 R373 | 0x0200 -/
  wearDie : Nat
  /-- REP_MAP | 8 | 14 R373 | kept; 0 -/
  map : Nat
  /-- REP_USED rows, columns | 16+16 | 14 R373 | kept; 0 -/
  used : Nat × Nat
  /-- spare rows used per die and bank | - | 14 R373 SPARE_LOW | kept; DESIGN CHOICE none (log 6) -/
  rowsUsed : List (Nat × Nat × Nat)
  /-- spare column lanes used: die, bank, group | - | 14 R355 | kept; none -/
  colsUsed : List (Nat × Nat × Nat)
  /-- field repair records, one for each repair made | 16 bytes each | 14 R355, 07 R198 | kept; none -/
  recs : List FaultRec
  /-- factory repair records | 16 bytes each | 14 R357, 07 R198 | kept; none, DESIGN CHOICE, log 6 -/
  factory : List FaultRec
  /-- open faults, newest last | 256 | 14 R354 | empty -/
  faults : List FaultRec
  /-- REP_FAULT_DROP | 32 | 14 R373 | 0 -/
  faultDrop : Nat
  /-- REP_RESIL_BEATS | 32 | 14 R373 | kept; 0 -/
  resilBeats : Nat
  /-- Near spare rows left | 8 | 14 R373 | kept; 246 -/
  nearSpare : Nat
  /-- Near blocks withdrawn | 8 | 14 R373 | kept; 0 -/
  nearWithdrawn : Nat
  /-- automatic repairs queued, with the Beat of each trigger | 16 | 14 R358 | empty -/
  queue : List (Nat × FaultRec)
  /-- the record pair that holds resilver progress | 7 | 14 R355, R366 | kept; none -/
  progPair : Option Nat
  /-- Beats for which each physical die has given no answer | 11×7 | 14 R358 | 0 -/
  silentFor : Vector Nat 11
deriving DecidableEq, Repr

/-- What a chunk write leaves in the FeRAM (R377). -/
inductive BelPut
  /-- nothing: its read-back differs and it is written again, or it sets seal bits -/
  | again
  /-- these bytes at an address -/
  | data (a : Nat) (bs : List Byte)
  /-- undefined bytes at an address, after a third write that still differs -/
  | undefined (a n : Nat)
deriving DecidableEq, Repr

/-- What the last chunk write of an operation brings (R377, R379, R381, R384; 07 R195, R196). -/
inductive BelEnd
  /-- a BELFRY_WRITE ends -/
  | write (rid : Nat)
  /-- a chunk of a BELFRY_WRITE failed at an address -/
  | writeFails (rid a : Nat)
  /-- a BELFRY_SEAL sets its bits -/
  | seal_ (rid : Nat) (rq : Req)
  /-- both copies of a critical record are written -/
  | record (r : RecId)
  /-- copy A of a critical record is written -/
  | half (r : RecId)
  /-- copy A of a critical record failed at an address -/
  | recordFails (r : RecId) (a : Nat)
  /-- a log chunk: requests that wait for its records, with their SEQ, and the drops that its LOGLOST record names -/
  | log (tell : List (Nat × Nat)) (lost : Nat)
  /-- a log chunk that failed at an address, and the requests that wait for its records -/
  | logFails (tell : List Nat) (a : Nat)
  /-- a record copy is rewritten -/
  | fix
  /-- a chunk is rewritten by the margin refresh -/
  | weak
  /-- the last rewrite of a margin-refresh step: its page, and the chunks that still differ -/
  | refresh (page : Nat) (still : BitVec 8)
deriving DecidableEq, Repr

/-- One chunk write that waits at the port, a group of 1 Stroke (R377). -/
structure BelStep where
  /-- the house kit pays, else maintenance | 1 | 15 R377 | - -/
  house : Bool
  /-- part of a calendar step, the margin refresh | 1 | 15 R379 | - -/
  cal : Bool
  /-- what it leaves in the FeRAM | - | 15 R377 | - -/
  put : BelPut
  /-- what it ends | - | 15 R376 | - -/
  fin : Option BelEnd
deriving DecidableEq, Repr

/-- The operation that the port executes: the chunk writes left of it (R376). -/
structure BelRun where
  /-- the chunk writes left, in order | - | 15 R376 | - -/
  steps : List BelStep
  /-- number of the next write-hold entry when it began: its age among its source's groups | - | 03 R67 | - -/
  since : Nat
deriving DecidableEq, Repr

/-- An operation that holds or awaits the Belfry port (R376). -/
inductive BelOp
  /-- a BELFRY_WRITE, chunk by chunk -/
  | write (rid : Nat)
  /-- a BELFRY_READ -/
  | read (rid : Nat) (rq : Req)
  /-- a BELFRY_SEAL -/
  | seal_ (rid : Nat) (rq : Req)
  /-- chunk writes of the device -/
  | steps (l : List BelStep)
deriving DecidableEq, Repr

/-- The request of a port operation, none for the device's own. -/
def BelOp.rid : BelOp → Option Nat
  | .write rid => some rid
  | .read rid _ => some rid
  | .seal_ rid _ => some rid
  | .steps _ => none

/-- A BELFRY_WRITE in service (R195). -/
structure BelJob where
  /-- the request | - | 15 R377 | - -/
  rid : Nat
  /-- its header | - | 15 R377 | - -/
  rq : Req
  /-- Kit that asks | 4 | 15 R378 | - -/
  kit : Kit
  /-- bytes handed to the port, in chunks | - | 07 R195 | - -/
  done : Nat
  /-- a chunk failed: INTERNAL once its record is written or dropped | - | 15 R377 | - -/
  failed : Bool
deriving DecidableEq, Repr

/-- An event record that waits (R384). -/
structure LogRec where
  /-- CODE | 16 | 15 R382 | - -/
  code : Nat
  /-- TB and TIME | 49 | 15 R382 | - -/
  tb : Bool
  /-- TIME | 48 | 15 R382 | - -/
  time : Nat
  /-- ARG | 32 | 15 R382 | - -/
  arg : Nat
  /-- the request that waits for it (WEDGE, BELWRITE) | - | 06 R157 | - -/
  rid : Option Nat
deriving DecidableEq, Repr

/-- BEL_ block (Table 15.6) and the store. -/
structure Bel where
  /-- the 64 KiB FeRAM | 65,536×8 | 15 R374 | DESIGN CHOICE empty, an unlisted byte reads 0 (log 7) -/
  mem : List Host.Cell
  /-- page seal bits | 256 | 15 R375 | seal array; pages 0–15 -/
  seals : BitVec 256
  /-- the test seal | 1 | 15 R375 | seal array; DESIGN CHOICE false (log 6) -/
  testSeal : Bool
  /-- BEL_CTL.MARGIN | 4 | 15 R388 | 4 -/
  margin : Nat
  /-- BEL_CTL.WEAK_THR | 8 | 15 R388 | 16 -/
  weakThr : Nat
  /-- BEL_LOG_HEAD, next SEQ | 12 | 15 R383 | 0 -/
  seq : Nat
  /-- BEL_LOG_DROP | 32 | 15 R384 | 0 -/
  logDrop : Nat
  /-- records dropped since the last LOGLOST | 32 | 15 R384 | 0 -/
  lostNow : Nat
  /-- BEL_WEAK | 32 | 15 R388 | kept; 0 -/
  weak : Nat
  /-- chunks rewritten in this Measure | 16 | 15 R379 | 0 -/
  weakNow : Nat
  /-- BEL_WEAK_LAST | 16 | 15 R388 | 0 -/
  weakLast : Nat
  /-- BEL_RECFIX | 32 | 15 R388 | kept; 0 -/
  recfix : Nat
  /-- BEL_REFRESH_DROP | 32 | 15 R388 | 0 -/
  refreshDrop : Nat
  /-- BEL_WRITES | 32 | 15 R388 | kept; 0 -/
  writes : Nat
  /-- the turn (Bar ÷ 16) whose refresh step is due and has not begun | 34 | 02 R47 | none -/
  refreshDue : Option Nat
  /-- Beat of the last log chunk or shadow-log chord | 48 | 15 R384, R385 | none -/
  logBeat : Option Nat
  /-- BEL_SHADOW_HEAD | 12 | 15 R385 | kept; 0 -/
  shadowHead : Nat
  /-- BEL_SHADOW_HEAD wrapped | 1 | 15 R385 | kept; 0 -/
  shadowWrapped : Bool
  /-- the SRAM copy of a shadow-log chord: its number, its bytes | 10+512 | 15 R385 | none -/
  shadowCopy : Option (Nat × List Byte)
  /-- BEL_SHADOW_IDX | 12 | 15 R388 | 0 -/
  shadowIdx : Nat
  /-- the event-record queue | 64 | 15 R384 | empty -/
  logq : List LogRec
  /-- the operations that hold or await the port, in order | - | 15 R376 | empty -/
  port : List BelOp
  /-- the chunk writes in progress at the port | - | 15 R376, R377 | none -/
  run : Option BelRun
  /-- ps at the start of this Beat until the port can start a chunk write | 20 | 15 R376 | 0 -/
  busyPs : Nat
  /-- BELFRY_WRITEs in service | - | 15 R377 | empty -/
  jobs : List BelJob
  /-- critical-record updates that wait | - | 15 R381 | empty -/
  recq : List RecId
  /-- records found absent since the last full reset | - | 15 R381 | empty -/
  recAbsent : List RecId
  /-- copies to rewrite once Run or Degraded begins | - | 15 R381 | empty -/
  recLater : List RecId
deriving DecidableEq, Repr

/-- A Toll result record or summary written to the Toll ring. -/
structure Toll where
  /-- TOLL_STATUS PART code running | 8 | 16 R405 | 0 -/
  part : Nat
  /-- last Morning path fast | 1 | 16 R405 | as run; DESIGN CHOICE false (log 5) -/
  fast : Bool
  /-- last Morning passed | 1 | 16 R405 | as run; DESIGN CHOICE false (log 5) -/
  mpass : Bool
  /-- last Evening passed | 1 | 16 R405 | as found; false -/
  epass : Bool
  /-- TOLL_RUN: the request, its parts | - | 16 R405 | none -/
  run : Option (Nat × Req × BitVec 8)
  /-- sacrificial chords that TOLL_RUN has still to write | 10 | 16 R404 | 0 -/
  sacLeft : Nat
  /-- TOLL_CTL.FULLNEXT | 1 | 16 R405 | 0 -/
  fullnext : Bool
  /-- TOLL_COUNT | 32 | 16 R405 | kept; 0 -/
  count : Nat
  /-- TOLL_LAST_US | 24 | 16 R405 | as run; DESIGN CHOICE 0 (log 5) -/
  lastUs : Nat
  /-- TOLL_MSINCE boot value | 8 | 16 R391 | as run; 0 -/
  msince : Nat
  /-- TOLL_SUMMARY | 10 | 16 R405 | kept; factory 0x3FF -/
  summary : Nat
  /-- TOLL_SAC_PULSES[d] | 16 | 16 R397 | kept; DESIGN CHOICE 0 (log 5) -/
  sac : Vector Nat 11
  /-- orderly-shutdown record: VALID | 1 | 16 R400 | kept; false -/
  ordValid : Bool
  /-- orderly-shutdown record: Evening Toll passed | 1 | 16 R400 | kept; false -/
  ordPass : Bool
  /-- orderly-shutdown record: FULLNEXT | 1 | 16 R400 | kept; false -/
  ordFull : Bool
  /-- orderly-shutdown record: MSINCE | 8 | 16 R400 | kept; 0 -/
  ordMsince : Nat
  /-- orderly-shutdown record: write-pulse start level of each die | 8 | 16 R400 | kept; DESIGN CHOICE 0 (log 20) -/
  ordStart : Vector Byte 11
  /-- adapted write-pulse start level of each die | 8 | 03 R86, 16 R396 | the Morning Toll sets it; DESIGN CHOICE 0 (log 20) -/
  startLvl : Vector Byte 11
  /-- Bars left of the adaptation of the start levels | 5 | 02 R48, 03 R86 | the Morning Toll sets it; 0 -/
  startBars : Nat
  /-- MSINCE to store at this CLOSE | 8 | 16 R391 | 0 -/
  closeMsince : Nat
  /-- failure records held in flip-flops | 64 | 16 R402 | empty -/
  recs : List TollFail
  /-- failure records dropped for want of room in this Toll | 8 | 16 R402 | 0 -/
  recDrop : Nat
  /-- duration of the Toll in progress, µs | 24 | 16 R401 | 0 -/
  durUs : Nat
  /-- fatal Morning outcome awaits Fill | 1 | 16 R395 | none -/
  fatal : Option TollFail
  /-- the control core is usable after the march | 1 | 16 R395 | true -/
  coreOk : Bool
  /-- failure records of the last Toll, for the open-fault list | 64 | 16 R403 | kept; empty -/
  lastRecs : List FaultRec
deriving DecidableEq, Repr

/-- PWR_ block (Table 19.5). -/
structure Pwr where
  /-- PWR_STATUS.WRHOLD | 1 | 20 R479 | 0 -/
  wrhold : Bool
  /-- WRHOLD from the next Beat | 1 | 20 R479 | false -/
  wrholdNext : Bool
  /-- consecutive samples at or below 3.80 mT | 5 | 20 R479 | 0 -/
  calmW : Nat
  /-- PWR_STATUS.RDFIELD | 1 | 20 R481 | 0 -/
  rdfield : Bool
  /-- consecutive samples at or below 11.30 mT | 5 | 20 R481 | 0 -/
  calmR : Nat
  /-- PWR_STATUS.TEMPHI | 1 | 20 R482 | 0 -/
  temphi : Bool
  /-- PWR_STATUS.TEMPLO | 1 | 20 R482 | 0 -/
  templo : Bool
  /-- consecutive samples in range | 5 | 20 R482 | 0 -/
  calmT : Nat
  /-- PWR_CTL.SCRUB_BOOST | 4 | 19 R458 | 4 -/
  boost : Nat
  /-- PWR_TEMP[d] | 12 | 19 R458 | 0 -/
  temp : Vector (BitVec 12) 16
  /-- PWR_TEMP VALID | 16 | 19 R459 | 0 -/
  tempValid : BitVec 16
  /-- temperature sensors excluded | 16 | 16 R394 | 0 -/
  tempExcl : BitVec 16
  /-- PWR_FIELD[d] | 12 | 19 R458 | 0 -/
  field : Vector (BitVec 12) 11
  /-- PWR_FIELD VALID | 1 | 19 R459 | 0 -/
  fieldValid : Bool
  /-- field sensors excluded | 11×4 | 16 R394 | as run; 0 -/
  fieldExcl : Vector (BitVec 4) 11
  /-- PWR_FIELD_PEAK | 12+4 | 19 R458 | 0 -/
  peak : BitVec 12 × BitVec 4
  /-- PWR_WRHOLD_BEATS | 32 | 20 R479 | 0 -/
  wrholdBeats : Nat
  /-- PWR_PFAIL | 16 | 20 R471 | kept; 0 -/
  pfail : Nat
deriving DecidableEq, Repr

/-- A Tally record (Table 18.5). -/
structure TalRec where
  /-- BEATNO | 48 | 18 R437 | - -/
  beat : Nat
  /-- TYPE | 8 | 18 R437 | - -/
  typ : Nat
  /-- KIT, none for DEV | 5 | 18 R437 | - -/
  kit : Option Kit
  /-- DROP | 1 | 18 R437 | - -/
  drop : Bool
  /-- X | 1 | 18 R437 | - -/
  x : Bool
  /-- ARG bytes 8–15 | 64 | 18 R437 | - -/
  arg : BitVec 64
deriving DecidableEq, Repr

/-- TAL_ block (Table 18.7) and the carve-out. -/
structure Tal where
  /-- 0 off, 1 recording, 2 streaming | 2 | 18 R447 | 0 -/
  on : Nat
  /-- PAUSED | 1 | 18 R447 | 0 -/
  paused : Bool
  /-- stream node | 5 | 18 R447 | 0x1F -/
  node : Node
  /-- stream ring | 1 | 18 R447 | A -/
  ring : Ring
  /-- TAL_FILTER | 6 | 18 R439 | 0x3F -/
  filter : BitVec 6
  /-- TAL_INDEX | 32 | 18 R441 | 0 -/
  index : Nat
  /-- TAL_DROP | 32 | 18 R440 | 0 -/
  drop : Nat
  /-- records dropped since the last LOST | 32 | 18 R440 | 0 -/
  dropNow : Nat
  /-- records stored in this Beat | 4 | 18 R440 | 0 -/
  inBeat : Nat
  /-- TAL_STREAM_LOST | 32 | 18 R442 | 0 -/
  streamLost : Nat
  /-- TAL_STREAM_NEXT | 32 | 18 R442 | 0 -/
  streamNext : Nat
  /-- the newest records, newest first, at most 65,536 | 1 MiB | 18 R441 | empty -/
  recs : List TalRec
  /-- Bars added by the realignment that ended a Rest | 16 | 18 R444 | 0 -/
  restAdded : Nat
  /-- a RESUME record is owed | 1 | 18 R444 | false -/
  resumeDue : Bool
deriving DecidableEq, Repr

/-- A mode-history entry (Table 18.4). -/
structure ModeEnt where
  /-- new mode | 4 | 18 R433 | - -/
  new : Mode
  /-- previous mode | 4 | 18 R433 | - -/
  old : Mode
  /-- trigger | 7 | 18 R433 | - -/
  trig : Nat
  /-- TB and BEATNO | 49 | 18 R433 | - -/
  tb : Bool
  /-- BEATNO | 48 | 18 R433 | - -/
  beat : Nat
deriving DecidableEq, Repr

/-- A request header in the command history (Table 18.2). -/
structure HdrEnt where
  /-- the request | - | 18 R431 | - -/
  rid : Nat
  /-- header | 128 | 18 R431 | - -/
  rq : Req
  /-- admission BEATNO | 48 | 18 R431 | - -/
  beat : Nat
  /-- reply STATUS | 8 | 18 R431 | - -/
  status : Option (BitVec 8)
  /-- Kit | 8 | 18 R431 | - -/
  kit : Option Kit
deriving DecidableEq, Repr

/-- A Knell summary body (Table 18.3) as recorded. -/
structure Summary where
  /-- CAUSE, CAUSE2 | 16 | 18 R433 | - -/
  cause : Nat × Nat
  /-- KNELL_SEQ | 32 | 18 R433 | - -/
  seq : Nat
  /-- BEATNO at the trigger | 48 | 18 R433 | - -/
  beat : Nat
  /-- GEN_MODE at the trigger | 4 | 18 R433 | - -/
  mode : Mode
  /-- TB | 1 | 18 R433 | - -/
  tb : Bool
  /-- RECSTATE | 4 | 18 R433 | - -/
  recstate : Nat
  /-- DETAIL | 32 | 18 R433 | - -/
  detail : Word
  /-- L | 19 | 18 R433 | - -/
  len : Nat
  /-- record CRC-32C | 32 | 18 R433 | - -/
  crc : BitVec 32
  /-- the 512 summary bytes | 4,096 | 18 R433 | - -/
  bytes : List Byte
deriving DecidableEq, Repr

/-- KNL_ block (Table 18.7) and a Knell in progress. -/
structure Knl where
  /-- KNL_SEQ | 32 | 18 R448 | kept; 0 -/
  seq : Nat
  /-- KNL_LAST CAUSE | 8 | 18 R448 | kept; 0 -/
  cause : Nat
  /-- KNL_LAST CAUSE2 | 8 | 18 R448 | kept; 0 -/
  cause2 : Nat
  /-- KNL_LAST GEN_MODE | 4 | 18 R448 | kept; 0 -/
  mode : Nat
  /-- KNL_LAST RECSTATE | 4 | 18 R448 | kept; 0 -/
  recstate : Nat
  /-- KNL_BEATNO | 48 | 18 R448 | kept; 0 -/
  beat : Nat
  /-- KNL_LEN | 19 | 18 R448 | kept; 0 -/
  len : Nat
  /-- the summary in Belfry pages 198–201, copies A and B | 2×4,096 | 18 R433 | kept; none -/
  summary : Option Summary
  /-- a Knell is in progress | 1 | 18 R428 | false -/
  running : Bool
  /-- record chords not yet accepted: copy, index | - | 18 R429 | empty -/
  recLeft : List (Bool × Nat)
  /-- the record being written | - | 18 R431 | empty -/
  record : List Byte
  /-- fatal causes of Table 18.1 found by a step and not yet taken by KNELL: cause, DETAIL | - | 18 R427 | empty -/
  due : List (Nat × Nat)
  /-- record chords confirmed per copy | - | 18 R430 | 0 -/
  confirmed : Nat × Nat
  /-- trailer chord confirmed per copy | 2 | 18 R430 | false -/
  trailer : Bool × Bool
deriving DecidableEq, Repr

/-- The I3C target (R475, R476). -/
structure I3c where
  /-- dynamic address | 7 | 00 R15 | none -/
  dyn : Option (BitVec 7)
  /-- a command executes | - | 20 R475 | false -/
  busy : Bool
  /-- the reply that waits to be read | - | 20 R475 | none -/
  unread : Option Packet
deriving DecidableEq, Repr

/-- The TAP (R477). -/
structure Tap where
  /-- the instruction served, BYPASS when it is not | - | 20 R477 | DESIGN CHOICE bypass (log 4) -/
  ir : TapInstr
  /-- the captured data register: IDCODE, or one bypass bit | 32 | 20 R477 | DESIGN CHOICE 0 (log 4) -/
  dr : Word
deriving DecidableEq, Repr

/-- What waits for a completion to end (R424), by rank. -/
inductive Trigger | vstby | pwrgood | resetN | i3c | gong | knell
deriving DecidableEq, Repr

/-- A CLOSE in progress (R203). -/
structure CloseJob where
  /-- the request | - | 07 R203 | - -/
  rid : Nat
  /-- its header | - | 07 R203 | - -/
  rq : Req
  /-- SNAP | 1 | 07 R203 | - -/
  snap : Bool
  /-- HIB | 1 | 07 R203 | - -/
  hib : Bool
  /-- Strokes that the heat snapshot still takes, once its step has begun | - | 09 R254 | - -/
  snapLeft : Option Nat
  /-- the reply has been queued (step 5) | 1 | 07 R203 | - -/
  answered : Bool
  /-- the leave has been requested (step 6) | 1 | 07 R203 | - -/
  leaving : Bool
  /-- Beat of its admission | 48 | 07 R203 | - -/
  admBeat : Nat
deriving DecidableEq, Repr

/-- The state of the block. -/
structure State where
  /-- commands that wait, first in first out | - | the row's cut | empty -/
  pending : List Instr
  /-- GEN_MODE.MODE | 4 | 17 R426 | DESIGN CHOICE Held (log 3) -/
  mode : Mode
  /-- GEN_MODE mode before the last change | 4 | 17 R426 | DESIGN CHOICE Off (log 3) -/
  prev : Mode
  /-- GEN_MODE.COMPLETING | 1 | 17 R406 | 0 -/
  completing : Bool
  /-- triggers present in the completion | 8 | 17 R424 | empty -/
  triggers : List Trigger
  /-- mode-history, newest first, at most 64 | 64×64 | 18 R431 | empty -/
  history : List ModeEnt
  /-- command headers, newest first, at most 64 | 64×256 | 18 R431 | empty -/
  headers : List HdrEnt
  /-- the pins | - | 17 R406 | as Pins -/
  pins : Pins
  gen : Gen
  bar : Bar
  stk : Stk
  tier : Tier
  deep : Deep
  ecc : Ecc
  rep : Rep
  bel : Bel
  toll : Toll
  pwr : Pwr
  tal : Tal
  knl : Knl
  i3c : I3c
  tap : Tap
  /-- the events registers | 34×8 | 19 R461 | 0 -/
  evs : Vector EvReg 34
  /-- ring A | - | 04 R111 | as RingSt -/
  ringA : RingSt
  /-- ring B | - | 04 R111 | as RingSt -/
  ringB : RingSt
  /-- the Kits | 16 | 08 R206 | as KitSt -/
  kits : Vector KitSt 16
  /-- the engines | 8 | 12 R305 | as EngSt -/
  engs : Vector EngSt 8
  /-- MRAM by physical die × 2^31 + chord × 8 + byte; an unlisted byte reads 0 | 11×16 Gib | 01 R17, 13 R348 | empty (FILL_ALL) -/
  mram : List Host.Cell
  /-- requests in flight, oldest first | 2,048 | 06 R155 | empty -/
  inflight : List InFlight
  /-- next admission number | - | 06 R155 | 0 -/
  nextRid : Nat
  /-- replies that wait, oldest first | 2,048 | 05 R130 | empty -/
  replies : List Reply
  /-- device-originated packets | - | 06 R159 | empty -/
  devq : List DevPkt
  /-- per-destination SEQ counters of device packets | 16 each | 06 R159 | empty -/
  devSeq : List (Ring × Node × Nat)
  /-- packets that have left, newest first | - | 06 R148 | empty -/
  sent : List Packet
  /-- SW_INFLIGHT high-water mark | 12 | 05 R137 | 0 -/
  infHigh : Nat
  /-- SW_ORPHANED | 32 | 05 R137 | 0 -/
  orphaned : Nat
  /-- SW_FRAMEERR | 32 | 05 R137 | 0 -/
  frameErr : Nat
  /-- SW_QOCC[p] high-water mark of each input queue | 12×7 | 05 R137 | 0 -/
  qHigh : Vector Nat 12
  /-- copies taken of broadcast flits | 512 each | 05 R117 | empty -/
  bcast : List Flit
  /-- switch ports of the blocks that an INTERNAL reply has named | 12 | 06 R158 | 0 -/
  wedgedPorts : BitVec 12
  /-- FENCE barriers at the switch input ports: Kit and FENCE | - | 05 R135 | empty -/
  barriers : List (Kit × Nat)
  /-- READs in service | - | 03 R80 | empty -/
  reads : List ReadJob
  /-- writes in service, oldest first | - | 03 R82 | empty -/
  jobs : List WriteJob
  /-- FENCEs outstanding, oldest first | - | 11 R294 | empty -/
  fences : List FenceJob
  /-- page-range requests that wait | - | 07 R179 | empty -/
  waits : List WaitJob
  /-- KIT_DESTROY and WINDOW_SET clear requests that drain: request, Kit, window | - | 07 R188, R190 | empty -/
  drains : List (Nat × Req × Kit × Option (Fin 8))
  /-- write-hold buffer in acceptance order | 320 | 11 R281 | empty -/
  hold : List WEntry
  /-- entries that reached their outcome in this Beat, whose value before it still holds for reads of this Beat | - | 11 R287 | empty -/
  justOut : List WEntry
  /-- what the writing Kit saw, before this Beat's acceptances, of the chords that they touch: Kit, kit address, view | - | 11 R287 | empty -/
  priors : List (Kit × Nat × View)
  /-- next entry name | - | 11 R281 | 0 -/
  nextEnt : Nat
  /-- merge buffer | 64 | 11 R290 | empty -/
  merge : Vector (Option MEntry) 64
  /-- PROV_CONFIRMED | 32 | 11 R304 | 0 -/
  provConfirmed : Nat
  /-- PROV_RETRY | 32 | 11 R304 | 0 -/
  provRetry : Nat
  /-- PROV_WEAK | 32 | 11 R304 | 0 -/
  provWeak : Nat
  /-- PROV_RECANTED | 32 | 11 R304 | 0 -/
  provRecanted : Nat
  /-- PROV_MERGECLOSE full, read-merge | 16+16 | 11 R304 | 0 -/
  mergeClose : Nat × Nat
  /-- PROV_REDOSENT | 32 | 11 R304 | 0 -/
  redoSent : Nat
  /-- PROV_LASTCOMP completed, recanted | 10+10 | 11 R304 | kept; 0 -/
  lastComp : Nat × Nat
  /-- chords recanted at the last completion, to be marked at Join | 32×28 | 11 R299 | kept; empty -/
  compRecants : List ChordIx
  /-- chords recanted at the last completion beyond those listed: PFOVER is due at Join | 1 | 11 R299, 15 R386 | kept; false -/
  compOver : Bool
  /-- PROV_CONFMAX of the last Bar, and of this Bar | 5 | 11 R304 | 0 -/
  confMax : Nat × Nat
  /-- backed pages | - | 09 R232 | empty -/
  pages : List Page
  /-- moves in progress | - | 09 R252 | empty -/
  moves : List Move
  /-- Near blocks in use | 24,320 | 09 R248 | empty -/
  near : List NearBlk
  /-- loaded programs | 64 KiB | 12 R306 | empty -/
  copies : List RudCopy
  /-- staged programs | - | 12 R306 | kept; empty -/
  stages : List RudStage
  /-- Muffles | - | 07 R180 | kept; empty -/
  muffles : List Muffle
  /-- RUD_LOAD STAGEs and MUFFLE_DECLAREs whose chords are pending | - | 07 R181 | empty -/
  stageJobs : List StageJob
  /-- MUFFLE_DECLAREs that still read pages or wait for their chords | - | 07 R180 | empty -/
  mufJobs : List MufJob
  /-- chord writes of the device that a Kit pays for, queued until the next Beat: kind, payer, address, chord, data | - | 09 R235 | empty -/
  chordq : List (WKind × Option Kit × Nat × ChordIx × List Byte)
  /-- a CLOSE in progress | - | 07 R203 | none -/
  closing : Option CloseJob
  /-- a REST_ENTER waits for its Downbeat | 1 | 07 R204 | false -/
  restDue : Bool
  /-- an addressed GONG whose reply is to leave before its reset: the request, and what its completion finds | - | 17 R420 | none -/
  gongDue : Option (Nat × CompOut)
  /-- bit errors standing in base-die SRAM words | - | 13 R346 | empty -/
  soft : List SramErr
  /-- MODEL'S OWN: how many free values have been used | - | - | DESIGN CHOICE 0 (log 2) -/
  free : Nat
deriving DecidableEq, Repr

def EvReg.zero : EvReg := ⟨0, 0, false, false⟩

def Spare.none_ : Spare := ⟨none, false⟩

def RingSt.reset : RingSt :=
  { swOpen := false, trained := false, joined := false, nodeId := 0, hasId := false, rate := 0, txeq := 2, txeqNow := 2,
    autoremap := true, leaveTo := 16, newId := none, loopBad := 0, inHop := none, freshRun := false, blinkAt := [],
    usedAt := none, window := none, mbar := 0, msg := none, mbox := [], mwin := none, rx := Vector.replicate 2 Spare.none_, tx := Vector.replicate 2 Spare.none_,
    swops := 0, retries := 0, trainUs := 0, lerr := Vector.replicate 18 0, lerrBar := Vector.replicate 18 0,
    eye := Vector.replicate 19 (0, 0, false), contPass := 0, contTested := 0, bad := 0, badKept := 0, remaps := [],
    gaveUp := 0, rejoin := none, clockBad := false, epoch := 0, upstream := 0x1F, enumSeen := false,
    freshDue := false, rebindDue := true, hopLat := 0, noRetry := false, outNoRetry := false, refusedCt := 0, dropped := 0, rosterIds := [],
    owners := List.replicate 8 0x1F, ownersNext := none, heads := [], refusedStreams := [], through := [], pipe := [], front := [],
    held := [], settling := 0, copies := [], resend := [], blink := false, lastTx := none, mail := [], mailOut := [], joinSeen := none,
    leaveSeen := none, leaveReq := none, slots := false }

/-- Ring B at reset: Kit 0 waits for Ring A's ROSTER alone (R210). -/
def RingSt.resetB : RingSt := { RingSt.reset with rebindDue := false }

/-- TIER_KQ_ reset values (Table 9.3). -/
def kqReset : Vector Nat 7 := #v[180224, 7340032, 0, 0, 64, 1024, 65536]

/-- A Kit that is not live, at its reset values (R74, Tables 3.4, 8.7, 9.3, 11.4). -/
def KitSt.reset : KitSt :=
  { live := false, suspended := false, consent := false, keylost := false, destroying := false, wipe := .idle, binds := [],
    notify := 0x1F, maxinf := 256, wins := Vector.replicate 8 none, key := ⟨false, false, false, 0, false, false⟩, engines := 0,
    replypos := 0, tempoRd := 6, tempoWr := 2, denied := 0, oow := 0, kres := 0, granted := 0, pshare := 64,
    icred := 512, taken := 0, rtres := 0, rtresNow := 0, tok := 0, spent := 0, starved := 0, backoff := 0, heldBar := 0, kq := kqReset,
    kqNow := (0, 0), kqWritten := 0, kprobe := 0, kprobeDue := false, kprobed := (0, 0, 0), rcnten := false, krecant := 0, kunrep := 0,
    kfirst := 0, kfirstBeat := 0, krectot := 0 }

/-- The house kit at its reset values (R74, R206, R218). -/
def KitSt.resetHouse : KitSt := { KitSt.reset with live := true, pshare := 128, key := ⟨true, true, true, 0, true, true⟩ }

def EngSt.reset : EngSt :=
  { state := .idle, kit := 0, slot := 0, fault := 0, ls := 0, g := Vector.replicate 8 0, pc := 0, loop := none,
    stack := [], dl := none, pol := .stall, full := false, next := 0, waiting := false, fetches := [], streams := [], fifo := [], stopping := false,
    issued := 0, pushes := 0, late := 0, muffled := 0, stall := Vector.replicate 4 0 }

def Gen.reset : Gen :=
  { logdeg := false, romOnly := false, reqTo := 64, alertA := 0x1F, alertB := 0x1F, e2eFail := 0, txDrop := 0,
    fwPatch := 0, dbg := 0, uid := 0, strict := false, active := false, resetCause := 0, resetMode := .off,
    holdMs := 0, restBeats := 0, restFrom := 0, waking := false, awake := false, periph := true }

def Bar.reset : Bar :=
  { beatno := 0, hiLatch := 0, rate := 0, bvalid := false, beatsrc := false, bOffset := 0, fwclose := false,
    fwBars := 0, slipBars := 0, missed := 0, srcRate := 1, epoch := 0, mbarJoin := 0, lastMbar := none, lastDbBar := 0,
    lost := 0, onOsc := false, retrain := false, rateNext := none, srcNext := none, short := false, shortAt := none,
    bLost := 0, barMarked := true, hold := false, counted := false, srcBeat := 0, cal := 0 }

def Stk.reset : Stk :=
  { budget := 0, slackLast := 0, slackNow := 0, lapsedLast := 0, left := 0, maint := 16, maintNow := 16, rtMaint := 8,
    rtMaintNow := 8,    dirty := false, short := false, wearThr := 0x0180, mspent := 0, mslack := 0, wear := Vector.replicate 11 0x0100,
    pulses := Vector.replicate 11 0, writes := Vector.replicate 11 0, measure := 0, firstUse := true, tokMaint := 0, tokFree := 0,
    gone := (0, 0, 0, 0), barKit := 0, barMaint := 0, barStarved := 0 }

def Tier.reset : Tier :=
  { part := false, partNow := false, decay := 1, noauto := false, newhome := false, splitReq := 4, split := 4,
    splitNext := none, warm := true, snaprest := false, promoteHeat := 256, demoteHeat := 16, migMax := 4, cleanThr := 25,
    promotions := 0, writebacks := 0, moves := 0, xcmiss := 0, xcache := [], lastDecay := 0, snapshot := none,
    snapToll := false, snapDone := false }

def DeepDie.reset : DeepDie :=
  { failed := false, good := 8192, stalls := 0, busy := none, suspends := 0, suspended := false, online := false }

def Deep.reset : Deep :=
  { muted := false, ready := false, drain := false, noreloc := false, suspend := true, packWait := 16, floor := 1024,
    reserve := 3840, retiredCt := 0, factoryBad := 0, rdThr := 100000, scanBlks := 4, refreshBer := 64, wlSpread := 200,
    retryThr := 0x0080, wear := (0, 0), measure := (0, 0, 0), reads := 0, programs := 0, erases := 0, reloc := 0,
    uncorr := 0, scans := 0, scanDrop := 0, rotate := 0, scanQ := [], wbHeld := false,
    blks := [], pack := [], queue := [], nextDie := 0, dies := Vector.replicate 4 DeepDie.reset, map := [], nand := [],
    lastWl := none, wlTo := none, refreshSeq := 0 }

def Ecc.reset : Ecc :=
  { period := 24, periodDue := false, rdfix := true, rate := 0, cur := 0, acc := 0, due := 0, sweepBars0 := 0,
    sweepFrom := 0, saved := (0, 0, 0), sweepBars := 0, sweeps := 0, corrData := 0, corrCheck := 0, erased := 0,
    uncorr := 0, poisonSeen := 0, fixed := 0, skip := 0, fixDrop := 0, sramSec := 0, sramDed := 0,
    dieCorr := Vector.replicate 11 0, dieCorrBar := Vector.replicate 11 0, lastUncorr := (0, 0), fixq := [], markq := [],
    boostTo := none }

def Rep.reset : Rep :=
  { autorow := true, autocol := true, autodie := true, rbMax := 8, lanev := 16, rolesOut := 0, spare := some 10,
    spareFailed := false, role := #v[0, 1, 2, 3, 4, 5, 6, 7, 8, 9], banks := Vector.replicate 11 0, runs := [],
    savedRes := none, dieCorrThr := 4096, wearDie := 0x0200, map := 0, used := (0, 0), rowsUsed := [], colsUsed := [],
    recs := [], factory := [], faults := [], faultDrop := 0, resilBeats := 0, nearSpare := 246, nearWithdrawn := 0, queue := [],
    progPair := none, silentFor := Vector.replicate 11 0 }

def Bel.reset : Bel :=
  { mem := [], seals := 0xFFFF, testSeal := false, margin := 4, weakThr := 16, seq := 0, logDrop := 0, lostNow := 0,
    weak := 0, weakNow := 0, weakLast := 0, recfix := 0, refreshDrop := 0, writes := 0, refreshDue := none,
    logBeat := none, shadowHead := 0, shadowWrapped := false, shadowCopy := none, shadowIdx := 0, logq := [], port := [], jobs := [], run := none, busyPs := 0, recq := [], recAbsent := [],
    recLater := [] }

def Toll.reset : Toll :=
  { part := 0, fast := false, mpass := false, epass := false, run := none, sacLeft := 0, fullnext := false, count := 0, lastUs := 0,
    msince := 0, summary := 0x3FF, sac := Vector.replicate 11 0, ordValid := false, ordPass := false, ordFull := false,
    ordMsince := 0, ordStart := Vector.replicate 11 0, startLvl := Vector.replicate 11 0, startBars := 0,
    closeMsince := 0, recs := [], recDrop := 0, durUs := 0, fatal := none, coreOk := true, lastRecs := [] }

def Pwr.reset : Pwr :=
  { wrhold := false, wrholdNext := false, calmW := 0, rdfield := false, calmR := 0, temphi := false, templo := false,
    calmT := 0, boost := 4, temp := Vector.replicate 16 0, tempValid := 0, tempExcl := 0, field := Vector.replicate 11 0,
    fieldValid := false, fieldExcl := Vector.replicate 11 0, peak := (0, 0), wrholdBeats := 0, pfail := 0 }

def Tal.reset : Tal :=
  { on := 0, paused := false, node := 0x1F, ring := .a, filter := 0x3F, index := 0, drop := 0, dropNow := 0, inBeat := 0,
    streamLost := 0, streamNext := 0, recs := [], restAdded := 0, resumeDue := false }

def Knl.reset : Knl :=
  { seq := 0, cause := 0, cause2 := 0, mode := 0, recstate := 0, beat := 0, len := 0, summary := none, running := false,
    recLeft := [], record := [], due := [], confirmed := (0, 0), trailer := (false, false) }

/-- The block right after a VSTBY power-up of a part as shipped: in Held, every register at its reset value, every
"kept" field at its factory value (logs 3 to 7). -/
def State.reset : State :=
  { pending := [], mode := .held, prev := .off, completing := false, triggers := [], history := [], headers := [],
    pins := ⟨true, true, true, 0x3F, 0, 0⟩, gen := Gen.reset, bar := Bar.reset, stk := Stk.reset, tier := Tier.reset,
    deep := Deep.reset, ecc := Ecc.reset, rep := Rep.reset, bel := Bel.reset, toll := Toll.reset, pwr := Pwr.reset,
    tal := Tal.reset, knl := Knl.reset, i3c := ⟨none, false, none⟩, tap := ⟨.bypass, 0⟩,
    evs := Vector.replicate 34 EvReg.zero, ringA := RingSt.reset,
    ringB := RingSt.resetB,
    kits := (Vector.replicate 16 KitSt.reset).set 0 KitSt.resetHouse, engs := Vector.replicate 8 EngSt.reset, mram := [],
    inflight := [], nextRid := 0, replies := [], devq := [], devSeq := [], sent := [], infHigh := 0, orphaned := 0,
    frameErr := 0, qHigh := Vector.replicate 12 0, bcast := [], wedgedPorts := 0, barriers := [], reads := [], jobs := [], fences := [], waits := [],
    drains := [], hold := [], justOut := [], priors := [], nextEnt := 0, merge := Vector.replicate 64 none, provConfirmed := 0, provRetry := 0,
    provWeak := 0, provRecanted := 0, mergeClose := (0, 0), redoSent := 0, lastComp := (0, 0), compRecants := [], compOver := false,
    confMax := (0, 0), pages := [], moves := [], near := [], copies := [], stages := [], muffles := [], stageJobs := [], mufJobs := [],
    chordq := [], closing := none, restDue := false, gongDue := none, soft := [], free := 0 }

end Sys2Proof.Machine
end

