-- ==== Sys2Proof/Machine/Ops.lean ====
section
/-! DEFINITION. The operations that every family shares: byte stores in canonical form, ring and Kit access, events,
event-log and Tally records, mode changes, device packets and replies. -/

namespace Sys2Proof.Machine

/-! ### Byte stores: addresses rising, no entry equal to 0, which an unlisted address reads as (log 7) -/

/-- The byte at an address. -/
def cellGet : List Host.Cell → Nat → Byte
  | [], _ => 0
  | (k, v) :: rest, a => if k = a then v else if a < k then 0 else cellGet rest a

/-- Write one byte; writing 0 removes the entry, so that equal stores are equal lists. -/
def cellSet : List Host.Cell → Nat → Byte → List Host.Cell
  | [], a, b => if b = 0 then [] else [(a, b)]
  | (k, v) :: rest, a, b =>
    if a < k then (if b = 0 then (k, v) :: rest else (a, b) :: (k, v) :: rest)
    else if a = k then (if b = 0 then rest else (a, b) :: rest)
    else (k, v) :: cellSet rest a b

/-- `n` bytes from an address. -/
def cellsRead (m : List Host.Cell) (a : Nat) : Nat → List Byte
  | 0 => []
  | n + 1 => cellGet m a :: cellsRead m (a + 1) n

/-- Write bytes from an address upward. -/
def cellsWrite : List Host.Cell → Nat → List Byte → List Host.Cell
  | m, _, [] => m
  | m, a, b :: bs => cellsWrite (cellSet m a b) (a + 1) bs

/-- Addresses rise strictly from above `lo`, and no listed byte is 0. -/
def cellsWfFrom : Nat → List Host.Cell → Bool
  | _, [] => true
  | lo, (k, v) :: rest => lo ≤ k && v != 0 && cellsWfFrom (k + 1) rest

/-- The canonical form of a byte store. -/
def cellsWf (m : List Host.Cell) : Bool := cellsWfFrom 0 m

/-- The canonical form holds of the three byte stores: the main array, NAND and the Belfry. -/
def State.memWf (s : State) : Bool := cellsWf s.mram && cellsWf s.deep.nand && cellsWf s.bel.mem

/-- Store bytes in the Belfry from an address, as `n` chunk writes (15 R377, BEL_WRITES). -/
def State.belPut (s : State) (a : Nat) (bs : List Byte) (n : Nat) : State :=
  { s with bel := { s.bel with mem := cellsWrite s.bel.mem a bs, writes := satAdd 32 s.bel.writes n } }

/-! ### Lists and vectors -/

/-- Change the elements that satisfy `p`. -/
def updWhere {α : Type} (p : α → Bool) (f : α → α) (l : List α) : List α := l.map fun x => if p x then f x else x

/-- The first element that satisfies `p`, and the list without it. -/
def takeFirst {α : Type} (p : α → Bool) : List α → Option (α × List α)
  | [] => none
  | x :: xs =>
    if p x then some (x, xs)
    else match takeFirst p xs with
      | some (y, ys) => some (y, x :: ys)
      | none => none

/-- Apply an operation for each item in turn. -/
def forEach {α σ : Type} (f : α → σ → σ) : List α → σ → σ
  | [], s => s
  | x :: xs, s => forEach f xs (f x s)

/-- A 32-bit counter raised by `n` (R230: counters saturate). -/
def up32 (x n : Nat) : Nat := satAdd 32 x n
/-- A 16-bit counter raised by `n`. -/
def up16 (x n : Nat) : Nat := satAdd 16 x n

/-! ### Access -/

/-- A ring interface. -/
def State.ring (s : State) : Ring → RingSt
  | .a => s.ringA
  | .b => s.ringB

/-- Change a ring interface. -/
def State.setRing (s : State) (r : Ring) (x : RingSt) : State :=
  match r with
  | .a => { s with ringA := x }
  | .b => { s with ringB := x }

/-- A Kit. -/
def State.kit (s : State) (k : Kit) : KitSt := s.kits[k]

/-- Change a Kit. -/
def State.setKit (s : State) (k : Kit) (x : KitSt) : State := { s with kits := s.kits.set k x }

/-- A rudiment engine. -/
def State.eng (s : State) (e : Engine) : EngSt := s.engs[e]

/-- Change an engine. -/
def State.setEng (s : State) (e : Engine) (x : EngSt) : State := { s with engs := s.engs.set e x }

/-- Kit numbers in order. -/
def allKits : List Kit := List.finRange 16
/-- Engine numbers in order. -/
def allEngines : List Engine := List.finRange 8
/-- Both rings in order. -/
def bothRings : List Ring := [.a, .b]

/-- The live Kits in order (R206). -/
def State.liveKits (s : State) : List Kit := allKits.filter fun k => (s.kit k).live

/-- The sum of a value over the live Kits. -/
def State.sumLive (s : State) (f : KitSt → Nat) : Nat := (s.liveKits.map fun k => f (s.kit k)).sum

/-! ### Ring time -/

/-- The device Bar, BEATNO[47:10] (R38). -/
def State.barNo (s : State) : Nat := s.bar.beatno / 1024
/-- The Beat index, BEATNO[9:0] (R38). -/
def State.beatIx (s : State) : Nat := s.bar.beatno % 1024

/-- Whether a Beat value has been reached: compared by the difference modulo 2^48 (R41). -/
def reached (target now : Nat) : Bool :=
  let d := (target + Config.beatWrap - now % Config.beatWrap) % Config.beatWrap
  d == 0 || 2 ^ 47 ≤ d

/-- Whether what takes effect from a Beat on is in force in a Beat; none: from long before. -/
def inForce (from_ : Option Nat) (beat : Nat) : Bool := from_.all fun b => reached b beat

/-- Beats from `start` to `now` modulo 2^48 (R41). -/
def elapsed (start now : Nat) : Nat := (now + Config.beatWrap - start % Config.beatWrap) % Config.beatWrap

/-- Whether a mark, Beat × 32 + slot, has been reached: R41 on the count of slots. -/
def slotReached (target now : Nat) : Bool :=
  let d := (target + 2 ^ 53 - now % 2 ^ 53) % 2 ^ 53
  d == 0 || 2 ^ 52 ≤ d

/-- Whether a device Bar has been reached (R41). -/
def barReached (target now : Nat) : Bool :=
  let d := (target + 2 ^ 38 - now % 2 ^ 38) % 2 ^ 38
  d == 0 || 2 ^ 37 ≤ d

/-- Beats × 32 + slot of a slot of the current Beat (R136). -/
def State.slotNow (s : State) (slot : Nat) : Nat := s.bar.beatno * 32 + slot

/-- The modes that serve traffic and run the whole calendar (Table 2.3). -/
def Mode.traffic : Mode → Bool
  | .run | .degraded | .freewheel => true
  | _ => false

/-- The modes in which BEATNO advances: traffic modes and Rest (R55). -/
def Mode.timed : Mode → Bool
  | .run | .degraded | .freewheel | .rest => true
  | _ => false

/-- A calendar event of an Order in Table 2.3 runs once in a Beat, and none after one of a higher Order (02 R46). -/
def State.calOnce (s : State) (order : Nat) : Bool := s.bar.cal < order

/-- Timeouts, deadlines and Rudiment issues are several in one Beat, under one Order (02 R46). -/
def State.calMore (s : State) (order : Nat) : Bool := s.bar.cal ≤ order

/-- The Order reached in this Beat (02 R46). -/
def State.calRan (s : State) (order : Nat) : State := { s with bar := { s.bar with cal := order } }

/-- Beats counted on the house oscillator (R51). -/
def State.extrap (s : State) : Bool := s.mode == .freewheel || s.bar.onOsc || s.bar.retrain

/-- E of Table 3.3: the extrapolated budget at the joined rate, or at BAR_SRC_RATE before the first Join (R72). -/
def State.budgetE (s : State) : Nat :=
  Config.extrapBudget (if s.bar.counted || s.ringA.joined then s.bar.rate else s.bar.srcRate)

/-! ### Free values -/

/-- Take `n` fresh free values. -/
def State.spend (s : State) (n : Nat) : State := { s with free := s.free + n }

/-- `n` undefined bytes, numbered from `c` on (log 2). -/
def freeBytes : Nat → Nat → List Byte
  | _, 0 => []
  | c, n + 1 => Config.freeByte c :: freeBytes (c + 1) n

/-! ### Events (19 R453, R461) -/

/-- The events bits that raise ALERT (Table 19.8). -/
def EvId.alertMask : EvId → BitVec 8
  | .gen => 0x03       -- WEDGE, JOINTO
  | .tempo => 0x04     -- LAPSED
  | .bar => 0x5B       -- LOSTDB, FWEXP, BDRIFT, MRESTART, FASTBEAT
  | .stk => 0x03       -- WEAR, SHORT
  | .sw => 0x07        -- FRESHRUN, IDOVER, NORETRY
  | .lnk _ => 0x3C     -- NOSPARE, LEAVETO, CONTFAIL, EYEFAIL
  | .tier => 0x01      -- SNAPBAD
  | .deep => 0x3D      -- MUTED, UNCORR, RETRYHI, RESLOW, DIEFAIL
  | .prov => 0x07      -- RECANT, PFRECANT, PFOVER
  | .rud => 0x00
  | .ecc => 0x0F       -- UNCORR, CHKFAIL, SCRUBLATE, METAFAIL
  | .rep => 0xFF
  | .bel => 0x0F       -- LOGFAIL, RECBAD, WEAKHI, LOGLOST
  | .toll => 0x0F      -- MFAIL, EFAIL, RUNFAIL, RESDROP
  | .pwr => 0x1F
  | .tal => 0x00
  | .knl => 0x01       -- NEW
  | .kit _ => 0x04     -- KEYLOST

/-- The events registers in order of their offsets' blocks. -/
def allEvents : List EvId :=
  [.gen, .tempo, .bar, .stk, .sw, .lnk .a, .lnk .b, .tier, .deep, .prov, .rud, .ecc, .rep, .bel, .toll, .pwr, .tal,
   .knl] ++ allKits.map .kit

/-- CSR offset of an events register (Table 19.8). -/
def EvId.offset : EvId → Nat
  | .gen => 0x000C | .tempo => 0x0080 | .bar => 0x040C | .stk => 0x0810 | .sw => 0x0C18 | .lnk .a => 0x1010
  | .lnk .b => 0x1410 | .tier => 0x300C | .deep => 0x3808 | .prov => 0x4008 | .rud => 0x4804 | .ecc => 0x500C
  | .rep => 0x5814 | .bel => 0x6008 | .toll => 0x6808 | .pwr => 0x7004 | .tal => 0x781C | .knl => 0x7C14
  | .kit k => 0x2010 + 0x100 * k.val

/-- An events register. -/
def State.ev (s : State) (i : EvId) : EvReg := s.evs[i.ix]

/-- Events set their bits in one register: each that raises ALERT owes a packet, whether or not its bit was set before
(R160; 19 R453). -/
def EvReg.raise (e : EvReg) (alertMask mask : BitVec 8) : EvReg :=
  { e with bits := e.bits ||| mask, fresh := e.fresh ||| mask, due := e.due || (mask &&& alertMask) != 0 }

/-- Set events bits (R453). -/
def State.raise (s : State) (i : EvId) (mask : BitVec 8) : State :=
  { s with evs := s.evs.set i.ix ((s.evs[i.ix]).raise i.alertMask mask) }

/-- Whether an ALERT-raising bit of a register is set (R461). -/
def State.evAlert (s : State) (i : EvId) : Bool := ((s.ev i).bits &&& i.alertMask) != 0

/-- GEN_STATUS.ALERTS (R461). -/
def State.alerts (s : State) : Bool := allEvents.any s.evAlert

/-! ### Event-log records (15 R382, R384) -/

/-- Whether TIME of a record is BEATNO: in the ring-timed modes (Table 15.4). -/
def State.tb (s : State) : Bool := !s.mode.timed

/-- TIME: BEATNO, or the house-oscillator microseconds, which the model does not hold and leaves free (log 2). -/
def State.logTime (s : State) : Nat := if s.tb then (Config.freeWord s.free).toNat else s.bar.beatno

/-- Whether the 64-entry record queue has room (R384). -/
def Bel.room (b : Bel) : Bool := b.logq.length < Config.logQueueLimit

/-- Queue a record, or drop and count it when the queue is full (R384). -/
def Bel.log (b : Bel) (r : LogRec) : Bel :=
  if b.room then { b with logq := b.logq ++ [r] }
  else { b with logDrop := up32 b.logDrop 1, lostNow := b.lostNow + 1 }

/-- Write an event record with a code and ARG of Table 15.5. -/
def State.logRec (s : State) (code arg : Nat) (rid : Option Nat := none) : State :=
  { s with bel := s.bel.log ⟨code, s.tb, s.logTime, arg % 2 ^ 32, rid⟩, free := s.free + b2n s.tb }

/-! ### Tally (18 R437 to R446) -/

/-- The filter class of a record type (Table 18.6). -/
def talClass (typ : Nat) : Nat := typ / 16

/-- Store one record: past 8 in a Beat it is dropped; a LOST record comes first in the next Beat with room (R440). -/
def Tal.store (t : Tal) (beat : Nat) (r : TalRec) : Tal :=
  if 8 ≤ t.inBeat then { t with drop := up32 t.drop 1, dropNow := t.dropNow + 1 }
  else
    let lost : List TalRec :=
      if t.dropNow == 0 then [] else [⟨beat, 0x69, none, true, r.x, BitVec.ofNat 64 (t.dropNow % 2 ^ 32)⟩]
    { t with recs := (r :: lost ++ t.recs).take Config.tallyRing, index := (t.index + lost.length + 1) % 2 ^ 32,
             inBeat := t.inBeat + lost.length + 1, dropNow := 0 }

/-- Whether Tally stores records (R438, R444). -/
def State.tracing (s : State) : Bool := s.tal.on != 0 && !s.tal.paused && s.mode.traffic

/-- The LOST record of a Beat's dropped records goes first into the next Beat (R440). -/
def State.tallyLosses (s : State) : State :=
  if s.tracing && s.tal.dropNow != 0 && s.tal.inBeat == 0 then
    let t := { s.tal with dropNow := 0 }
    let r : TalRec := ⟨s.bar.beatno, 0x69, none, true, s.extrap, BitVec.ofNat 64 (s.tal.dropNow % 2 ^ 32)⟩
    { s with tal := t.store s.bar.beatno r }
  else s

/-- Record an event of a Beat, by its type, while tracing runs and the filter enables its class (R438, R439; 02 R42). -/
def State.tallyAt (s : State) (beat typ : Nat) (kit : Option Kit) (arg : Nat) : State :=
  if s.tracing
      && (talClass typ == 6 || s.tal.filter.getLsbD (talClass typ)) then
    if 8 ≤ s.tal.inBeat then
      { s with tal := s.tal.store s.bar.beatno ⟨beat, typ, kit, false, s.extrap, BitVec.ofNat 64 arg⟩,
               evs := s.evs.set EvId.tal.ix ((s.evs[EvId.tal.ix]).raise 0 1) }
    else
      { s with tal := s.tal.store s.bar.beatno ⟨beat, typ, kit, false, s.extrap, BitVec.ofNat 64 arg⟩ }
  else s

/-- Record an event of this Beat. -/
def State.tally (s : State) (typ : Nat) (kit : Option Kit) (arg : Nat) : State := s.tallyAt s.bar.beatno typ kit arg

/-! ### Modes (17 R406, 18 Table 18.4) -/

/-- A mode-history entry as its 8 bytes (Table 18.4). -/
def ModeEnt.nat (m : ModeEnt) : Nat :=
  m.new.code + 16 * m.old.code + 2 ^ 8 * (m.trig + 128 * b2n m.tb) + 2 ^ 16 * (m.beat % 2 ^ 48)

/-- Enter a mode, for a trigger of Table 18.4: the history takes an entry and Tally a MODE record. -/
def State.enter (s : State) (m : Mode) (trig : Nat) : State :=
  if s.mode = m then s
  else
    let e : ModeEnt := ⟨m, s.mode, trig, s.tb, s.logTime⟩
    ({ s with mode := m, prev := s.mode, history := (e :: s.history).take 64, free := s.free + b2n s.tb }).tally
      0x68 none e.nat

/-- A fatal cause is found; KNELL takes it (18 R427). -/
def State.fatal (s : State) (cause detail : Nat) : State :=
  { s with knl := { s.knl with due := s.knl.due ++ [(cause, detail)] } }

/-! ### Device conditions -/

/-- A role is out, a bank is out, or a resilvering runs (17 R407, Table 6.3 DEGRADED). -/
def Rep.degraded (r : Rep) : Bool :=
  r.rolesOut != 0 || r.banks.toList.any (fun b => b != 0)
    || r.runs.any (fun t => t.resilver && (t.kind == .die || t.kind == .bank))

/-- COND, Table 6.3 (R150). -/
def State.cond (s : State) : BitVec 8 :=
  BitVec.ofNat 8 (b2n s.gen.logdeg + 2 * b2n s.gen.romOnly + 4 * b2n s.rep.degraded + 8 * b2n s.deep.muted
    + 16 * b2n (s.mode == .freewheel) + 32 * b2n s.alerts)

/-! ### Device-originated packets (06 R159 to R161) -/

/-- Queue a device packet for a destination; none is sent to node 0x1F. -/
def State.sendDev (s : State) (p : DevPkt) : State :=
  if p.dest = 0x1F then s else { s with devq := s.devq ++ [p] }

/-- Whether a ring is joined and carries slots (R456). -/
def RingSt.carries (r : RingSt) : Bool := r.joined && r.swOpen && r.slots

/-- An EVENT packet with code and argument bytes 10–15 (Table 6.6). -/
def eventPkt (ktag : BitVec 4) (r : Ring) (dest : Node) (code arg : Nat) (payload : List Byte) (now : Nat) : DevPkt :=
  { opc := 0x71, ktag := ktag, ring := r, dest := dest, seq := 0,
    param := BitVec.ofNat 64 (code % 65536 + 65536 * (arg % 2 ^ 48)), payload := payload, tries := 0, notBefore := now,
    engine := none, sid := 0, waiting := true, flitsOut := 0, strm := none, alertOf := none }

/-- The ring on which a node of a Kit's own events is reached: the first joined ring whose last ROSTER names it
(DESIGN CHOICE, log 8: R212 names no ring). -/
def State.ringTo (s : State) (n : Node) : Ring :=
  if s.ringA.rosterIds.contains n || !s.ringB.rosterIds.contains n then .a else .b

/-- Send a Kit event of Table 8.2 or 12.3 to KIT_NOTIFY, unless it is 0x1F or the Kit is suspended (R212). -/
def State.notifyKit (s : State) (k : Kit) (code arg : Nat) : State :=
  if (s.kit k).suspended then s
  else s.sendDev (eventPkt (BitVec.ofNat 4 k.val) (s.ringTo (s.kit k).notify) (s.kit k).notify code arg []
    s.bar.beatno)

/-- PARAM of an ALERT packet for an events register (Table 6.6): its value when sent; block numbers are CSR base / 0x400
(R449). -/
def State.alertParam (s : State) (i : EvId) : BitVec 64 :=
  let block := match i with
    | .kit _ => 8
    | _ => i.offset / 0x400
  BitVec.ofNat 64 (block + 256 * s.cond.toNat + 65536 * i.offset + 2 ^ 32 * (s.ev i).bits.toNat)

/-- An ALERT packet for an events register (Table 6.6). -/
def alertPkt (s : State) (i : EvId) (r : Ring) (dest : Node) : DevPkt :=
  { opc := 0x73, ktag := 0, ring := r, dest := dest, seq := 0, param := s.alertParam i,
    payload := [], tries := 0, notBefore := s.bar.beatno, engine := none, sid := 0, waiting := true, flitsOut := 0, strm := none,
    alertOf := some i }

/-- Where an ALERT goes (R456): Ring A when it is joined, carries slots and NODE_A is set; otherwise Ring B alike. -/
def State.alertDest (s : State) : Option (Ring × Node) :=
  if s.ringA.carries && s.gen.alertA != 0x1F then some (.a, s.gen.alertA)
  else if s.ringB.carries && s.gen.alertB != 0x1F then some (.b, s.gen.alertB)
  else none

/-- Send the ALERT that a register owes, at most one per register and Bar (R160). -/
def State.alertOne (i : EvId) (s : State) : State :=
  let e := s.ev i
  if e.due && !e.sent then
    match s.alertDest with
    | some (r, n) =>
      if s.evAlert i then
        { s with devq := s.devq ++ [alertPkt s i r n], evs := s.evs.set i.ix { e with due := false, sent := true } }
      else { s with evs := s.evs.set i.ix { e with due := false } }
    | none =>
      if s.ringA.joined || s.ringB.joined then { s with evs := s.evs.set i.ix { e with due := false } } else s
  else s

/-- ALERT_SEND (R160). -/
def State.alertSend (s : State) : State := forEach State.alertOne allEvents s

/-- The end of a Bar's ALERT bound (R160). -/
def State.alertBar (s : State) : State :=
  { s with
    evs := forEach (fun (i : EvId) (v : Vector EvReg 34) => v.set i.ix { v[i.ix] with sent := false }) allEvents s.evs }

/-- The bits set in the Beat that ended no longer outlive a W1C clear (R453). -/
def State.freshClear (s : State) : State :=
  { s with
    evs := forEach (fun (i : EvId) (v : Vector EvReg 34) => v.set i.ix { v[i.ix] with fresh := 0 }) allEvents s.evs }

/-! ### Requests in flight (06 R155) -/

/-- The in-flight request of a number. -/
def State.findReq (s : State) (rid : Nat) : Option InFlight := s.inflight.find? fun f => f.rid == rid

/-- Requests in flight of a Kit, or of no Kit (R155, R156). -/
def State.inflightOf (s : State) (k : Option Kit) : Nat := (s.inflight.filter fun f => f.kit == k).length

/-- Change an in-flight request. -/
def State.updReq (s : State) (rid : Nat) (f : InFlight → InFlight) : State :=
  { s with inflight := updWhere (fun x => x.rid == rid) f s.inflight }

/-- Remove a request from flight. -/
def State.dropReq (s : State) (rid : Nat) : State :=
  { s with inflight := s.inflight.filter fun x => x.rid != rid }

/-- Transfers in an input queue (R133, SW_QOCC): complete requests that their output has not taken wait at the ring ports, a
command over I3C at the sideband port. What other blocks send is delivered as it is made (DESIGN CHOICE, log 116). -/
def State.queued (s : State) (port : Nat) : Nat :=
  let at_ := fun (v : Via) => (s.inflight.filter fun f => f.stage == .ready && f.rq.via == v).length
  match port with
  | 0 => min 64 (at_ (.ring .a))
  | 1 => min 64 (at_ (.ring .b))
  | 10 => b2n s.i3c.busy
  | _ => 0

/-! ### Replies (06 R147 to R151) -/

/-- What a reply says. -/
structure Answer where
  /-- STATUS -/
  status : Nat
  /-- DETAIL -/
  detail : Nat
  /-- payload -/
  payload : List Byte
  /-- earliest slot, Beat × 32 + slot; 0 none -/
  mark : Nat
  /-- release Beat in Strict Tempo -/
  release : Option Nat
deriving DecidableEq, Repr

/-- A reply without payload, free to leave at once. -/
def ans (status detail : Nat) : Answer := ⟨status, detail, [], 0, none⟩
/-- OK with a payload. -/
def ansData (payload : List Byte) (detail : Nat := 0) : Answer := ⟨0x00, detail, payload, 0, none⟩

/-- The flags that have meaning for an opcode and are returned in its reply (R141). -/
def keptFlags (rq : Req) (early : Bool) : Bool × Bool × Bool :=
  let w := rq.opc == 0x11 || rq.opc == 0x12
  (rq.sync && w, rq.nowait && w, early)

/-- PARAM of a reply: STATUS, COND and DETAIL (Table 6.1). -/
def replyParam (status cond detail : Nat) : Nat := status % 256 + 256 * (cond % 256) + 65536 * (detail % 2 ^ 48)

/-- The header of a reply (R147). -/
def replyHdr (rq : Req) (node : Node) (ringB : Bool) (early : Bool) (status cond detail len : Nat) : BitVec 128 :=
  let fl := keptFlags rq early
  hdrNat rq.opc.toNat rq.ktag.toNat true fl.1 fl.2.1 fl.2.2 node.toNat ringB rq.prio.toNat rq.src.toNat rq.seq.toNat
    len (replyParam status cond detail)

/-- Count a DENIED or OUT_OF_WINDOW reply of a Kit (Table 8.7). -/
def KitSt.countReply (x : KitSt) (status : Nat) : KitSt :=
  { x with denied := up32 x.denied (b2n (status == 0x20)), oow := up32 x.oow (b2n (status == 0x22)) }

/-- The release Beat of a reply that names none, such as one that a check fails (R228): from admission, for a write from
the Beat of the reply. -/
def State.releaseOf (s : State) (rid : Nat) (rq : Req) (kit : Option Kit) : Option Nat :=
  match kit, s.findReq rid with
  | some k, some f =>
    match rq.opc.toNat with
    | 0x01 | 0x02 | 0x10 => some ((f.admBeat + (s.kit k).tempoRd) % Config.beatWrap)
    | 0x11 | 0x12 => some ((s.bar.beatno + (s.kit k).tempoWr) % Config.beatWrap)
    | 0x13 => some ((f.admBeat + (s.kit k).tempoWr) % Config.beatWrap)
    | _ => none
  | _, _ => none

/-- A reply that is queued after its release Beat misses its tempo (R228, Table 8.2). -/
def State.tempoMiss (s : State) (kit : Option Kit) (a : Answer) : State :=
  match kit, a.release with
  | some k, some b =>
    if s.gen.active && elapsed b s.bar.beatno != 0 && elapsed b s.bar.beatno < 2 ^ 47 then
      (s.raise (.kit k) 0x08).notifyKit k 0x0103 s.bar.beatno
    else s
  | _, _ => s

/-- Whether a request over a ring still awaits its reply: it is in flight, has none, and no INTERNAL follows (R148, R157). -/
def State.awaits (s : State) (rid : Nat) : Bool :=
  s.inflight.any fun f => f.rid == rid && !(f.stage == .replied || f.stage == .late)

/-- Queue a reply. Over I3C it waits in the target (20 R475), and its SNODE, RING and DNODE are 0, 0 and the SNODE of the
request (DESIGN CHOICE, log 108: no rule gives them). -/
def State.queueReply (s : State) (rid : Nat) (rq : Req) (kit : Option Kit) (a : Answer) : State :=
  let s := match kit with
    | some k => s.setKit k ((s.kit k).countReply a.status)
    | none => s
  let heads := updWhere (fun (h : HdrEnt) => h.rid == rid) (fun h => { h with status := some (BitVec.ofNat 8 a.status) })
    s.headers
  match rq.via with
  | .i3c =>
    let hdr := replyHdr rq 0 false false a.status s.cond.toNat a.detail a.payload.length
    let p : Packet := ⟨.i3c, hdr, a.payload, crc32c (leBytes 16 hdr.toNat ++ a.payload), s.bar.beatno⟩
    { s with i3c := { s.i3c with busy := false, unread := some p }, headers := heads }
  | .ring _ =>
    let a := { a with release := a.release.or (s.releaseOf rid rq kit) }
    let s := s.tempoMiss kit a
    { s with headers := heads,
             inflight := updWhere (fun x => x.rid == rid) (fun x => { x with stage := .replied }) s.inflight,
             replies := s.replies ++
               [{ rid := rid, rq := rq, kit := kit, status := BitVec.ofNat 8 a.status, cond := s.cond,
                  detail := BitVec.ofNat 48 a.detail, early := false, len := a.payload.length, payload := a.payload,
                  mark := a.mark, release := if s.gen.active then a.release else none, flitsOut := 0, strm := none,
                  trailer := false, redo := [], redoHeld := 0, final := (BitVec.ofNat 8 a.status, BitVec.ofNat 48 a.detail) }] }

/-- The one reply of a request (R148). -/
def State.answer (s : State) (rid : Nat) (rq : Req) (kit : Option Kit) (a : Answer) : State :=
  match rq.via with
  | .i3c => s.queueReply rid rq kit a
  | .ring _ => if s.awaits rid then s.queueReply rid rq kit a else s

/-! ### DETAIL of Table 6.4 -/

/-- A chord address and a count saturating at 255. -/
def detAddr (addr count : Nat) : Nat := addr % 2 ^ 39 + 2 ^ 40 * min count 255
/-- A page or byte count with the reason of an OK_PARTIAL. -/
def detPartial (count reason : Nat) : Nat := count % 65536 + 65536 * reason
/-- BAD_PARAM naming a header byte. -/
def detHdr (byte : Nat) : Nat := byte
/-- BAD_PARAM naming a payload offset. -/
def detPay (off : Nat) : Nat := 0xFF + 256 * (off % 65536)
/-- BAD_LENGTH: LEN received and the largest LEN allowed. -/
def detLen (len max : Nat) : Nat := len % 65536 + 65536 * max
/-- INTERNAL: switch port, where the record went and its number. -/
def detInternal (port where_ num : Nat) : Nat := port + 65536 * (num % 65536) + 2 ^ 32 * where_

end Sys2Proof.Machine
end

