-- ==== Sys2Proof/Machine/Xts.lean ====
section
/-! DEFINITION. AES-256 in XTS mode over one 4 KiB sector (Table 0.4; IEEE 1619-2018, whose cipher is AES of FIPS-197): a
chord is four blocks of its sector, the tweak is the kit-relative sector index, and no ciphertext is stolen. -/

namespace Sys2Proof.Machine

/-! ### Bytes -/

/-- The S-box of AES, byte `i` at bits 8i to 8i + 7. -/
def aesSbox : Nat :=
  0xc072a49cafa2d4adf04759fa7dc982ca76abd7fe2b670130c56f6bf27b777c63 +
  0x75b227ebe28012079a059618c323c7041531d871f1e5a534ccf73f362693fdb7 * 2 ^ 256 +
  0xcf584c4a39becb6a5bb1fc20ed00d153842fe329b3d63b52a05a6e1b1a2c8309 * 2 ^ 512 +
  0xd2f3ff1021dab6bcf5389d928f40a351a89f3c507f02f94585334d43fbaaefd0 * 2 ^ 768 +
  0xdb0b5ede14b8ee4688902a22dc4f816073195d643d7ea7c41744975fec130ccd * 2 ^ 1024 +
  0x8ae7a65eaf4566ca94ed58d6d37c8e779e4959162acd3c25c2406490a3a32e0 * 2 ^ 1280 +
  0x9e1dc186b95735610ef6034866b53e708a8bbd4b1f74dde8c6b4a61c2e2578ba * 2 ^ 1536 +
  0x16bb54b00f2d99416842e6bf0d89a18cdf2855cee9871e9b948ed9691198f8e1 * 2 ^ 1792

/-- The inverse S-box. -/
def aesInvSbox : Nat :=
  0xcbe9dec444438e3487ff2f9b8239e37cfbd7f3819ea340bf38a53630d56a0952 +
  0x25d18b6d49a25b76b224d92866a12e084ec3fa420b954cee3d23c2a632947b54 * 2 ^ 256 +
  0x849d8da75746155edab9edfd5048706c92b6655dcc5ca4d41698688664f6f872 * 2 ^ 512 +
  0x6b8a130103bdafc1020f3fca8f1e2cd00645b3b80558e4f70ad3bc8c00abd890 * 2 ^ 768 +
  0x6edf751ce837f9e28535ade72274ac9673e6b4f0cecff297eadc674f4111913a * 2 ^ 1024 +
  0xf45acd78fec0db9a2079d2c64b3e56fc1bbe18aa0e62b76f89c5291d711af147 * 2 ^ 1280 +
  0xef9cc9939f7ae52d0d4ab519a97f51605fec8027591012b131c7078833a8dd1f * 2 ^ 1536 +
  0x7d0c2155631469e126d677ba7e042b17619953833cbbebc8b0f52aae4d3be0a0 * 2 ^ 1792

/-- A byte through a table. -/
def aesSub (table : Nat) (b : Byte) : Byte := BitVec.ofNat 8 (table >>> (8 * b.toNat))

/-- Multiplication by 2 in the field of AES. -/
def aesDouble (b : Byte) : Byte := (b <<< 1) ^^^ (if b.msb then 0x1B else 0)

/-- Multiplication by a number below 16 in the field of AES. -/
def aesMul (n : Nat) (b : Byte) : Byte :=
  let b2 := aesDouble b
  let b4 := aesDouble b2
  let b8 := aesDouble b4
  (if n.testBit 0 then b else 0) ^^^ (if n.testBit 1 then b2 else 0) ^^^ (if n.testBit 2 then b4 else 0)
    ^^^ (if n.testBit 3 then b8 else 0)

/-! ### Blocks of 16 bytes, column after column -/

/-- The exclusive or of two blocks. -/
def xorBlock (a b : List Byte) : List Byte := (List.range 16).map fun i => a.getD i 0 ^^^ b.getD i 0

/-- ShiftRows moves byte 5i to byte i; the inverse, byte 13i. -/
def aesPermute (step : Nat) (b : List Byte) : List Byte := (List.range 16).map fun i => b.getD (step * i % 16) 0

/-- A column times the circulant matrix of four bytes. -/
def aesColumn (k0 k1 k2 k3 : Nat) (a b c d : Byte) : List Byte :=
  [aesMul k0 a ^^^ aesMul k1 b ^^^ aesMul k2 c ^^^ aesMul k3 d, aesMul k3 a ^^^ aesMul k0 b ^^^ aesMul k1 c ^^^ aesMul k2 d,
   aesMul k2 a ^^^ aesMul k3 b ^^^ aesMul k0 c ^^^ aesMul k1 d, aesMul k1 a ^^^ aesMul k2 b ^^^ aesMul k3 c ^^^ aesMul k0 d]

/-- Every column of a block times a circulant matrix. -/
def aesColumns (f : Byte → Byte → Byte → Byte → List Byte) : List Byte → List Byte
  | a :: b :: c :: d :: rest => f a b c d ++ aesColumns f rest
  | l => l

/-- MixColumns. -/
def aesMix : List Byte → List Byte := aesColumns (aesColumn 2 3 1 1)
/-- The inverse of MixColumns. -/
def aesUnmix : List Byte → List Byte := aesColumns (aesColumn 14 11 13 9)

/-- SubBytes and ShiftRows. -/
def aesScramble (b : List Byte) : List Byte := aesPermute 5 (b.map (aesSub aesSbox))
/-- Their inverse. -/
def aesUnscramble (b : List Byte) : List Byte := (aesPermute 13 b).map (aesSub aesInvSbox)

/-! ### Keys -/

/-- The exclusive or of two words of the key schedule. -/
def xorWord (a b : List Byte) : List Byte := List.zipWith (fun x y => x ^^^ y) a b

/-- The next eight words of the key schedule of a 256-bit key. -/
def aesNextWords (rcon : Byte) : List (List Byte) → List (List Byte)
  | [w0, w1, w2, w3, w4, w5, w6, w7] =>
    let turned := (w7.drop 1 ++ w7.take 1).map (aesSub aesSbox)
    let n0 := xorWord (xorWord w0 turned) [rcon, 0, 0, 0]
    let n1 := xorWord w1 n0
    let n2 := xorWord w2 n1
    let n3 := xorWord w3 n2
    let n4 := xorWord w4 (n3.map (aesSub aesSbox))
    let n5 := xorWord w5 n4
    let n6 := xorWord w6 n5
    [n0, n1, n2, n3, n4, n5, n6, xorWord w7 n6]
  | ws => ws

/-- The words of the key schedule, `n` times eight more. -/
def aesSchedule : Nat → Byte → List (List Byte) → List (List Byte)
  | 0, _, ws => ws
  | n + 1, rcon, ws => ws ++ aesSchedule n (aesDouble rcon) (aesNextWords rcon ws)

/-- The fifteen round keys of a 32-byte key. -/
def aesRoundKeys (key : List Byte) : List (List Byte) :=
  let ws := aesSchedule 7 1 ((List.range 8).map fun i => (key.drop (4 * i)).take 4)
  (List.range 15).map fun i => ((ws.drop (4 * i)).take 4).flatten

/-! ### AES -/

/-- The rounds after the first key: the last one mixes no columns. -/
def aesRounds : List (List Byte) → List Byte → List Byte
  | [], b => b
  | [k], b => xorBlock (aesScramble b) k
  | k :: k' :: ks, b => aesRounds (k' :: ks) (xorBlock (aesMix (aesScramble b)) k)

/-- The inverse of the rounds. -/
def aesUnrounds : List (List Byte) → List Byte → List Byte
  | [], b => b
  | [k], b => aesUnscramble (xorBlock b k)
  | k :: k' :: ks, b => aesUnscramble (aesUnmix (xorBlock (aesUnrounds (k' :: ks) b) k))

/-- AES encryption of a block under round keys. -/
def aesSeal (rks : List (List Byte)) (b : List Byte) : List Byte :=
  aesRounds (rks.drop 1) (xorBlock b (rks.getD 0 []))

/-- AES decryption of a block under round keys. -/
def aesOpen (rks : List (List Byte)) (b : List Byte) : List Byte :=
  xorBlock (aesUnrounds (rks.drop 1) b) (rks.getD 0 [])

/-! ### XTS -/

/-- Multiplication of a tweak by the primitive element. -/
def xtsDouble (t : Nat) : Nat := if t < 2 ^ 127 then 2 * t else (2 * t - 2 ^ 128) ^^^ 0x87

/-- `n` multiplications. -/
def xtsPower : Nat → Nat → Nat
  | 0, t => t
  | n + 1, t => xtsPower n (xtsDouble t)

/-- The tweaks of the four blocks of chord `line` of a sector. -/
def xtsTweaks (key : BitVec 512) (sector line : Nat) : List (List Byte) :=
  let t := leNat (aesSeal (aesRoundKeys ((leBytes 64 key.toNat).drop 32)) (leBytes 16 sector))
  let t0 := xtsPower (4 * line) t
  (List.range 4).map fun i => leBytes 16 (xtsPower i t0)

/-- The four blocks of a chord, each between two additions of its tweak. -/
def xtsBlocks (f : List Byte → List Byte) (tweaks : List (List Byte)) (d : List Byte) : List Byte :=
  ((List.range 4).map fun i =>
    let t := tweaks.getD i []
    xorBlock (f (xorBlock ((d.drop (16 * i)).take 16) t)) t).flatten

/-- The round keys of the data half of a key, which is its first. -/
def xtsDataKeys (key : BitVec 512) : List (List Byte) := aesRoundKeys ((leBytes 64 key.toNat).take 32)

/-- A chord is encrypted: chord `line` of a sector, under a Kit's 512-bit key (Table 0.4). -/
def xtsSeal (key : BitVec 512) (sector line : Nat) (d : List Byte) : List Byte :=
  xtsBlocks (aesSeal (xtsDataKeys key)) (xtsTweaks key sector line) d

/-- A chord is decrypted. -/
def xtsOpen (key : BitVec 512) (sector line : Nat) (d : List Byte) : List Byte :=
  xtsBlocks (aesOpen (xtsDataKeys key)) (xtsTweaks key sector line) d

end Sys2Proof.Machine
end

