-- ==== Sys2Proof/Machine/Array.lean ====
section
/-! DEFINITION. The main array: chord geometry (14 R352, R353), slices, decoding with its counters (13 R331 to R345),
open faults (14 R354) and the fix and marker queues. -/

namespace Sys2Proof.Machine

/-! ### Geometry (R352) -/

/-- Bank of a chord, c[27:23]. -/
def bankOf (c : Nat) : Nat := bits c 27 23
/-- Row of a chord, c[22:7]. -/
def rowOf (c : Nat) : Nat := bits c 22 7
/-- Column group of a chord, c[6:3]. -/
def colOf (c : Nat) : Nat := bits c 6 3
/-- First byte lane of a chord's slice, 8 × c[2:0]. -/
def laneOf (c : Nat) : Nat := 8 * bits c 2 0

/-- First chord of a page frame (R342). -/
def frameChord (frame : Nat) : Nat := frame * 1024

/-- Address of a slice in the byte store: physical die, then chord, then slice byte. -/
def sliceAddr (die c : Nat) : Nat := die * 2 ^ 31 + c * 8

/-- The running resilvering, if any (R365). -/
def Rep.resilver (r : Rep) : Option Transfer := r.runs.find? fun t => t.resilver

/-- The physical die that carries a role (R353). -/
def Rep.phys (r : Rep) (role : Nat) : Nat := (r.role.toList.getD role 0).val

/-- Whether a chord lies below the rebuild cursor of a role being resilvered, so that the spare serves it (R365). -/
def Rep.rebuilt (r : Rep) (role c : Nat) : Bool :=
  match r.resilver with
  | some t => t.role == role && c < (if t.phase ≤ 2 then t.cursor else 2 ^ 28) && !t.late.contains c
  | none => false

/-- The physical die that carries a role at a chord (R353, R365). -/
def Rep.physAt (r : Rep) (role c : Nat) : Nat :=
  match r.resilver with
  | some t => if r.rebuilt role c then t.die else r.phys role
  | none => r.phys role

/-- Whether a physical die's bank is out. -/
def Rep.bankOut (r : Rep) (die bank : Nat) : Bool := (r.banks.toList.getD die 0).getLsbD bank

/-- Whether a role's slice of a chord is read as an erasure: role out, bank out, or a die that gives no answer (R359). -/
def State.roleOut (s : State) (c role : Nat) : Bool :=
  (s.rep.rolesOut.getLsbD role && !s.rep.rebuilt role c) || s.rep.bankOut (s.rep.physAt role c) (bankOf c)
    || s.pins.silent.getLsbD (s.rep.physAt role c)

/-- Whether a die of the chord is out of service (R284); a die that merely gives no answer is not (R359). -/
def State.dieOutAt (s : State) (c : Nat) : Bool :=
  (List.range 10).any fun r =>
    (s.rep.rolesOut.getLsbD r && !s.rep.rebuilt r c) || s.rep.bankOut (s.rep.physAt r c) (bankOf c)

/-- The roles of a chord that read as erasures. -/
def State.outsAt (s : State) (c : Nat) : List Nat := (List.range 10).filter fun r => s.roleOut c r

/-- The ten slices of a chord as the array gives them, an erased position as 0 (R331). -/
def State.rawChord (s : State) (c : Nat) : List (List Byte) :=
  (List.range 10).map fun r =>
    if s.roleOut c r then zeros 8 else cellsRead s.mram (sliceAddr (s.rep.physAt r c) c) 8

/-- Whether the poison marker of a chord is still on its way to the array (R335). -/
def State.markerOwed (s : State) (c : Nat) : Bool :=
  s.ecc.markq.contains (BitVec.ofNat 28 c) || s.hold.any fun e => e.kind == .marker && e.chord.toNat == c

/-- The ten slices of a chord as a read takes them: a chord that became poisoned reads as the marker of R336 from then on
(R335, 11 R285), so that it is no new fault (R332). -/
def State.seenChord (s : State) (c : Nat) : List (List Byte) :=
  if s.markerOwed c then
    (List.range 10).map fun r => if s.roleOut c r then zeros 8 else markerSlices.getD r []
  else s.rawChord c

/-- A chord as decoded from the array (R333). -/
def State.decodeAt (s : State) (c : Nat) : ChordOut := decodeChord (s.outsAt c) (s.seenChord c)

/-- The data bytes of a chord before decode (R301). -/
def State.rawData (s : State) (c : Nat) : List Byte := ((s.seenChord c).take 8).flatten

/-! ### Encryption (Table 0.4; 08 R215) -/

/-- The key of a Kit (08 R218). -/
def State.keyOf (s : State) (o : Kit) : BitVec 512 := Config.drawnKey (s.kit o).key.draw

/-- A chord of an owner's page as Main and Deep hold it: under the owner's key, with its kit-relative sector index [38:12] as
the tweak (08 R215). -/
def State.sealed (s : State) (o : Kit) (a : Nat) (d : List Byte) : List Byte := xtsSeal (s.keyOf o) (a / 4096) (a / 64 % 64) d

/-- A chord of an owner's page in the clear. -/
def State.opened (s : State) (o : Kit) (a : Nat) (d : List Byte) : List Byte := xtsOpen (s.keyOf o) (a / 4096) (a / 64 % 64) d

/-- A chord of an owner's page as decoded from the array, in the clear; a poisoned one is not decrypted (13 Table 13.6). -/
def State.decodeOf (s : State) (o : Kit) (a c : Nat) : ChordOut :=
  let x := s.decodeAt c
  if x.poisoned then x else { x with data := s.opened o a x.data }

/-- Store the slices of a mask of roles; a role that is out is not pulsed (R359). Bit 10 stores role `p`'s slice in the
spare die while that die is being resilvered (R365). -/
def storeSlices (rep : Rep) (skip : Nat → Bool) (c : Nat) (sl : List (List Byte)) : List Nat → List Host.Cell →
    List Host.Cell
  | [], m => m
  | r :: rs, m =>
    if r == 10 then
      match rep.resilver with
      | some t =>
        storeSlices rep skip c sl rs (cellsWrite m (sliceAddr t.die c) ((sl.getD t.role []).take 8))
      | none => storeSlices rep skip c sl rs m
    else if skip r then storeSlices rep skip c sl rs m
    else storeSlices rep skip c sl rs (cellsWrite m (sliceAddr (rep.physAt r c) c) ((sl.getD r []).take 8))

/-- Store slices in the array. -/
def State.store (s : State) (c : Nat) (sl : List (List Byte)) (mask : Slices) : State :=
  { s with mram := storeSlices s.rep (fun r => s.roleOut c r) c sl (sliceList mask) s.mram }

/-- Whether a running transfer covers a chord, so that a full write also pulses the new unit, from the Beat after the
start on (R360, R365). -/
def Transfer.touches (t : Transfer) (rep : Rep) (c : Nat) : Bool :=
  2 ≤ t.phase &&
  match t.kind with
  | .die => t.resilver || (List.range 10).any (fun r => rep.phys r == t.die) || t.role < 10
  | .bank => bankOf c == t.bank
  | .row => bankOf c == t.bank && rowOf c == t.row
  | .column => bankOf c == t.bank && colOf c == t.row && bits c 2 0 == t.lane / 8
  | .lane => false

/-- The die of the new unit that a full write of a chord also pulses (R360, R365). -/
def Rep.newUnitDie (r : Rep) (c : Nat) : Nat :=
  match r.runs.find? fun t => t.touches r c with
  | some t => t.die
  | none => 10

/-- The cost of a full chord: 10, or 11 while a unit of the chord is in shadow or resilvering (R62). -/
def State.chordCost (s : State) (c : Nat) : Nat := if s.rep.runs.any (fun t => t.touches s.rep c) then 11 else 10

/-- The slices a full chord write drives. -/
def State.fullMask (s : State) (c : Nat) : Slices := if s.chordCost c == 11 then 0x7FF else 0x3FF

/-- The device Bars of the sweep in progress, Bars of a forward jump among them (13 R345). -/
def State.sweepNow (s : State) : Nat := s.ecc.sweepBars0 + (s.barNo + 2 ^ 38 - s.ecc.sweepFrom) % 2 ^ 38

/-! ### Open faults (R354) -/

/-- The record of one failing slice of a chord: KIND 4, a row (Table 16.5). -/
def faultOf (rep : Rep) (c role : Nat) : FaultRec :=
  ⟨4, rep.phys role, bankOf c, rowOf c, colOf c, laneOf c, none⟩

/-- The record of a chord found detected-uncorrectable, whose failing die is not known: unit 0xFF (Table 16.5). -/
def faultNoDie (c : Nat) : FaultRec := ⟨4, 0xFF, bankOf c, rowOf c, colOf c, laneOf c, none⟩

/-- Whether a physical die serves a role. -/
def Rep.serves (r : Rep) (die : Nat) : Bool := r.role.toList.any fun d => d.val == die

/-- Rows of a bank on which a byte lane fails, among open faults and field repair records (Table 14.2). -/
def Rep.laneRows (r : Rep) (f : FaultRec) : List Nat :=
  (((r.faults ++ r.recs).filter fun x => x.kind == 4 && x.die == f.die && x.bank == f.bank && x.colgrp == f.colgrp
    && x.lane == f.lane).map fun x => x.row).eraseDups

/-- The repair that a new open fault calls for: a spare column at 4 rows, else a spare row (Table 14.2). -/
def Rep.repairFor (r : Rep) (f : FaultRec) : Option FaultRec :=
  if !r.serves f.die then none
  else if f.kind == 5 then (if r.autocol then some { f with raw := none } else none)
  else if f.kind != 4 then none
  else if r.autocol && 4 ≤ (r.laneRows f).length then some { f with kind := 5, raw := none }
  else if r.autorow then some { f with raw := none } else none

/-- Place of a trigger among those of its Beat: physical die, then bank, then row (R358). -/
def FaultRec.order (f : FaultRec) : Nat := (f.die * 256 + f.bank) * 65536 + f.row

/-- Queue an automatic repair of a Beat, in trigger order; a trigger that finds the queue of 16 full is dropped and counted
(R358, Table 14.3). -/
def Rep.enqueue (r : Rep) (now : Nat) (f : FaultRec) : Rep :=
  if r.queue.any fun x => x.2 == f then r
  else if r.queue.length < Config.repairQueueLimit then
    let before := fun (x : Nat × FaultRec) => x.1 != now || x.2.order ≤ f.order
    { r with queue := r.queue.filter before ++ (now, f) :: r.queue.filter fun x => !before x }
  else { r with faultDrop := up32 r.faultDrop 1 }

/-- Add an open fault, dropping and counting the oldest when the list is full (R354), and queue its repair (R358). -/
def Rep.addFault (r : Rep) (now : Nat) (f : FaultRec) : Rep :=
  let r1 := if r.faults.length < Config.openFaultLimit then { r with faults := r.faults ++ [f] }
    else { r with faults := r.faults.drop 1 ++ [f], faultDrop := up32 r.faultDrop 1 }
  match r1.repairFor f with
  | some g => r1.enqueue now g
  | none => r1

/-- Add a fault for each slice of a mask, in ascending physical die (R358). -/
def Rep.addFaults (r : Rep) (now c : Nat) (mask : Slices) : Rep :=
  (List.range 11).foldl (fun r d =>
    (sliceList mask).foldl (fun r p => if r.phys p == d then r.addFault now (faultOf r c p) else r) r) r

/-! ### Records and outages (R355, R359, R368) -/

/-- Queue the update of a critical record (15 R381). -/
def State.queueRec (s : State) (r : RecId) : State :=
  if s.bel.recq.contains r then s else { s with bel := { s.bel with recq := s.bel.recq ++ [r] } }

/-- A record pair of the field repair map is written (R355); the last of the 128 sets MAPFULL. -/
def State.repairPair (s : State) : State :=
  if s.rep.map < Config.mapPairs then
    let n := s.rep.map
    let s1 := ({ s with rep := { s.rep with map := n + 1 } }).queueRec (.repairPair (BitVec.ofNat 7 n))
    if n + 1 == Config.mapPairs then s1.raise .rep 0x20 else s1
  else s

/-- The roles that a physical die carries. -/
def Rep.rolesOf (r : Rep) (die : Nat) : BitVec 10 :=
  BitVec.ofNat 10 (((List.range 10).filter fun p => r.phys p == die).map fun p => 2 ^ p).sum

/-- A die goes out (R359, R368). The hot spare that goes out is a failed spare, and a resilvering onto it ends. -/
def State.dieGoesOut (s : State) (die : Fin 11) : State :=
  let r := s.rep
  let roles := r.rolesOf die.val
  if roles == 0 then
    if r.spare == some die then
      { s with rep := { r with spare := none, spareFailed := true, runs := r.runs.filter fun t => !t.resilver } }
    else s
  else if r.rolesOut &&& roles != 0 then s
  else
    let second := r.rolesOut != 0 || r.resilver.isSome
    let s1 := ({ s with rep := { r with rolesOut := r.rolesOut ||| roles } }).repairPair.raise .rep 0x01
    if second then s1.raise .rep 0x10 else s1

/-- How many banks a mask holds. -/
def bankCount (b : BitVec 32) : Nat := ((List.range 32).filter fun i => b.getLsbD i).length

/-- A bank goes out (R359); the fourth of a die takes the die out (Table 14.2). -/
def State.bankGoesOut (s : State) (die : Fin 11) (bank : Nat) : State :=
  if s.rep.bankOut die.val bank then s
  else
    let b := s.rep.banks[die] ||| BitVec.ofNat 32 (2 ^ bank)
    let s1 := ({ s with rep := { s.rep with banks := s.rep.banks.set die b } }).repairPair.raise .rep 0x02
    if 4 ≤ bankCount b then s1.dieGoesOut die else s1

/-- A die that has given no answer to the array interface for 64 Beats goes out (Table 14.2). -/
def State.silentDies (s : State) : State :=
  let n := Vector.ofFn fun (d : Fin 11) => if s.pins.silent.getLsbD d.val then min 127 (s.rep.silentFor[d] + 1) else 0
  forEach (fun (d : Fin 11) (t : State) => if n[d] == 64 then t.dieGoesOut d else t) (List.finRange 11)
    { s with rep := { s.rep with silentFor := n } }

/-- The record pair that holds resilver progress is written: one taken from the map at the first save (R355, R366). -/
def State.saveProgress (s : State) (role cursor : Nat) : State :=
  let s1 := { s with rep := { s.rep with savedRes := some (role, cursor) } }
  match s.rep.progPair with
  | some n => s1.queueRec (.repairPair (BitVec.ofNat 7 n))
  | none =>
    if s.rep.map < Config.mapPairs then ({ s1 with rep := { s1.rep with progPair := some s.rep.map } }).repairPair else s1

/-- A die whose corrected symbols of this Bar pass REP_DIE_CORR_THR goes out (Table 14.2). -/
def State.corrTriggers (s : State) : State :=
  forEach (fun (d : Fin 11) (t : State) =>
    if t.rep.dieCorrThr < t.ecc.dieCorrBar[d] then t.dieGoesOut d else t) (List.finRange 11) s

/-! ### Reading chords from the array -/

/-- Count one corrected symbol on the die of a position. -/
def bumpDie (rep : Rep) (v : Vector Nat 11) (pos : Nat) : Vector Nat 11 :=
  let d := rep.role.toList.getD pos 0
  v.set d (up32 v[d] 1)

/-- Whether a chord has a pending write-hold entry, the maintenance engine's own among them, or a merge entry (R335, R340,
R343, 11 R281; 14 R362). -/
def State.entryAt (s : State) (c : Nat) : Bool :=
  s.hold.any (fun e => e.chord.toNat == c)
    || s.merge.toList.any (fun m => match m with | some e => e.chord.toNat == c | none => false)

/-- Whether a write of a Kit to a chord is pending: a write-hold or merge entry (11 R288). -/
def State.pendingAt (s : State) (c : Nat) : Bool :=
  s.hold.any (fun e => e.chord.toNat == c && e.kind == .data)
    || s.merge.toList.any (fun m => match m with | some e => e.chord.toNat == c | none => false)

/-- The ECC counters after one array read found by `src`: 1 read, 2 scrub, 3 move (R351). -/
def Ecc.count (e : Ecc) (rep : Rep) (src c : Nat) (o : ChordOut) : Ecc :=
  { e with
    corrData := up32 e.corrData (b2n (o.cls == .data)), corrCheck := up32 e.corrCheck (b2n (o.cls == .check)),
    erased := up32 e.erased (b2n (o.cls == .erased)), poisonSeen := up32 e.poisonSeen (b2n o.marker),
    uncorr := up32 e.uncorr (b2n (o.poisoned && !o.marker)),
    lastUncorr := if o.poisoned && !o.marker then (c, src) else e.lastUncorr,
    dieCorr := if o.poisoned then e.dieCorr else o.fixes.foldl (bumpDie rep) e.dieCorr,
    dieCorrBar := if o.poisoned then e.dieCorrBar else o.fixes.foldl (bumpDie rep) e.dieCorrBar }

/-- Queue a rewrite of corrected slices, 64 at most (R339). -/
def Ecc.fix (e : Ecc) (c : Nat) (mask : Slices) (beat : Nat) : Ecc :=
  if e.fixq.length < Config.fixEntries then { e with fixq := e.fixq ++ [(BitVec.ofNat 28 c, mask, beat)] }
  else { e with fixDrop := up32 e.fixDrop 1 }

/-- The model's place of a page-table chord: the spec leaves it internal (R490, log 9). -/
def ptChord (index : Nat) : Nat := Config.metaBase + index

/-- Chords of a generated Muffle: 528 or 272 (R180). -/
def muffleChords (fmt : Nat) : Nat := if fmt == 1 then 528 else 272

/-- The model's place of a stage chord (log 9). -/
def stageChord (k : Kit) (slot : Fin 8) (i : Nat) : Nat := Config.stageBase + (k.val * 8 + slot.val) * 256 + i

/-- The regions of Main metadata: the spec places the last two (R490), the model the others (log 9). -/
inductive MetaRegion | main | table | muffle | stage | other | knell | shadow
deriving DecidableEq, Repr

/-- The region of a device chord. -/
def metaRegion (c : Nat) : MetaRegion :=
  if c < Config.metaBase then .main
  else if c < Config.metaBase + Config.endDeep then .table
  else if Config.shadowBase ≤ c then .shadow
  else if Config.knellBase ≤ c then .knell
  else if Config.muffleBase ≤ c then .muffle
  else if Config.stageBase ≤ c && c < Config.stageBase + 2 ^ 15 then .stage
  else .other

/-- First chord and number of chords that a Muffle takes of the Muffle area. -/
def Muffle.extent (m : Muffle) : Nat × Nat :=
  match m.form with
  | .generated fmt base => (base, muffleChords fmt)
  | .declared _ _ => (0, 0)

/-- Whether a chord belongs to a Muffle. -/
def Muffle.holds (m : Muffle) (c : Nat) : Bool := m.extent.1 ≤ c && c < m.extent.1 + m.extent.2

/-- The model's place of a new Muffle of `n` chords, the lowest that others leave free: the spec leaves it internal (log 9). -/
def State.mufflePlace (s : State) (n : Nat) : Nat :=
  let starts := Config.muffleBase :: s.muffles.map fun m => m.extent.1 + m.extent.2
  let free := fun (b : Nat) => Config.muffleBase ≤ b && s.muffles.all fun m =>
    b + n ≤ m.extent.1 || m.extent.1 + m.extent.2 ≤ b
  ((starts.filter free).min?).getD Config.muffleBase

/-- What a metadata chord found detected-uncorrectable brings about, beside its poison (R341, Table 13.6). -/
def State.metaFails (s : State) (c : Nat) : State :=
  match metaRegion c with
  | .main => s
  | .table => s.fatal 0x03 c
  | .muffle =>
    { s with muffles := updWhere (fun m => m.holds c) (fun m => { m with bad := true }) s.muffles }.raise .ecc 0x08
  | .stage =>
    { s with stages := s.stages.filter fun x => !(stageChord x.kit x.slot 0 ≤ c && c < stageChord x.kit x.slot 256) }.raise
      .ecc 0x08
  | .shadow => if s.gen.logdeg then s.fatal 0x05 (4 * (c - Config.shadowBase)) else s.raise .ecc 0x08
  | .knell => s.raise .ecc 0x08
  | .other => s.raise .ecc 0x08

/-- Read a chord from the array, with every effect of its decode: counters, fix queue, poison marker, events (R331,
R335, R339, R341, R343). -/
def State.readArray (s : State) (src c : Nat) : State :=
  let o := s.decodeAt c
  let ecc := s.ecc.count s.rep src c o
  let ecc := if (o.cls == .data || o.cls == .check) && (src == 2 || ecc.rdfix) then ecc.fix c o.fixMask s.bar.beatno
             else ecc
  let fresh := o.poisoned && !o.marker
  let ecc := if fresh && !s.pendingAt c && !ecc.markq.contains (BitVec.ofNat 28 c)
             then { ecc with markq := ecc.markq ++ [BitVec.ofNat 28 c] } else ecc
  let s := { s with ecc := ecc,
                    rep := if fresh && src == 2 then s.rep.addFault s.bar.beatno (faultNoDie c) else s.rep }
  if fresh then
    ((s.raise .ecc 0x01).tally 0x51 none (c + 2 ^ 32 * src)).metaFails c
  else if o.marker && s.gen.logdeg && metaRegion c == .shadow then s.metaFails c  -- 15 R386
  else s

end Sys2Proof.Machine
end

