-- ==== Sys2Proof/Machine/Tiers.lean ====
section
/-! DEFINITION. One range, three tiers (09): windows, page records, Home frames, Residency slots and their shares, Near
lines, and the value of a chord as each Kit sees it (11 R287 to R289). -/

namespace Sys2Proof.Machine

/-! ### Addresses -/

/-- Kit page of a kit address (R232). -/
def kpOf (a : Nat) : KPage := BitVec.ofNat 23 (a / 65536)
/-- Sector of a kit address within its page. -/
def secOf (a : Nat) : BitVec 4 := BitVec.ofNat 4 (a / 4096)
/-- Line of a kit address within its sector. -/
def lineIx (a : Nat) : Nat := a / 64 % 64
/-- Chord of a kit address within its page. -/
def chordIn (a : Nat) : Nat := a / 64 % 1024
/-- Start of the chord that holds a byte. -/
def chordBase (a : Nat) : Nat := a / 64 * 64
/-- The chord addresses that `n` bytes from `a` touch, in order. -/
def chordsOf (a n : Nat) : List Nat :=
  if n == 0 then [] else (List.range ((a + n - 1) / 64 - a / 64 + 1)).map fun i => chordBase a + 64 * i

/-! ### Windows (08 R213) -/

/-- Whether a window is in force in a Beat and maps a byte. -/
def Window.maps (w : Window) (now a : Nat) : Bool :=
  inForce w.from_ now && w.base * 65536 ≤ a && a < (w.base + w.size) * 65536

/-- The window of a Kit that maps a byte for a request of a Beat, at most one (R213, 07 R167). -/
def State.windowIn (s : State) (beat : Nat) (k : Kit) (a : Nat) : Option Window :=
  ((s.kit k).wins.toList.filterMap id).find? fun w => w.maps beat a

/-- The window of a Kit that maps a byte now. -/
def State.windowAt (s : State) (k : Kit) (a : Nat) : Option Window := s.windowIn s.bar.beatno k a

/-- The owner's Kit and address of a byte seen through a window (R215). -/
def Window.owner (w : Window) (k : Kit) (a : Nat) : Kit × Nat :=
  match w.srcKit with
  | none => (k, a)
  | some o => (o, w.srcBase * 65536 + (a - w.base * 65536))

/-- The kit-page starts that a byte range touches, plus its first byte: enough to judge windows, which are whole pages. -/
def pageStarts (a n : Nat) : List Nat :=
  if n == 0 then [a] else a :: (List.range ((a + n - 1) / 65536 - a / 65536)).map fun i => (a / 65536 + 1 + i) * 65536

/-- The first address of a range outside every window of the Kit in a Beat (R152 step 10). -/
def State.firstOutside (s : State) (beat : Nat) (k : Kit) (a n : Nat) : Option Nat :=
  (pageStarts a n).find? fun x => (s.windowIn beat k x).isNone

/-- Whether a predicate on windows holds on every byte of a range that lies in some window in a Beat. -/
def State.everyWindow (s : State) (beat : Nat) (k : Kit) (a n : Nat) (p : Window → Bool) : Bool :=
  (pageStarts a n).all fun x => match s.windowIn beat k x with | some w => p w | none => true

/-- Whether a shared window maps a page of an owner (R282). -/
def State.sharedAt (s : State) (o : Kit) (kp : KPage) : Bool :=
  s.liveKits.any fun k => ((s.kit k).wins.toList.filterMap id).any fun w =>
    w.srcKit == some o && w.srcBase ≤ kp.toNat && kp.toNat < w.srcBase + w.size

/-! ### Page records (R232) -/

/-- The page record of a Kit page. -/
def State.findPage (s : State) (k : Kit) (kp : KPage) : Option Page := s.pages.find? fun p => p.kit == k && p.kp == kp

/-- Change a page record. -/
def State.updPage (s : State) (k : Kit) (kp : KPage) (f : Page → Page) : State :=
  { s with pages := updWhere (fun p => p.kit == k && p.kp == kp) f s.pages }

/-- H of R236: the Home frames for a Residency size of r GiB. -/
def homeFrames (r : Nat) : Nat := (15 - r) * Config.framesPerGiB
/-- Residency slots in force. -/
def State.resSlots (s : State) : Nat := s.tier.split * Config.framesPerGiB

/-- TIER_STATUS.SPLITPEND (R237). -/
def State.splitPend (s : State) : Bool := s.tier.splitReq != s.tier.split

/-- Home frames open to allocation: none at or above the new H while a request is pending (R237). -/
def State.homeLimit (s : State) : Nat := min (homeFrames s.tier.split) (homeFrames s.tier.splitReq)

/-- Home frame of a page homed in Main. -/
def Page.frame (p : Page) : Option Nat := match p.home with | .main f => some f | .deep _ => none
/-- Deep page of a page homed in Deep. -/
def Page.deepPage (p : Page) : Option Nat := match p.home with | .deep d => some d | .main _ => none
/-- Device page index (R18, R19). -/
def Page.index (p : Page) : Nat := match p.home with | .main f => f | .deep d => d

/-- The lowest number from `lo` that a list does not hold; `fuel` bounds the search by the list's length. -/
def lowestFree (used : List Nat) : Nat → Nat → Nat
  | 0, lo => lo
  | fuel + 1, lo => if used.contains lo then lowestFree used fuel (lo + 1) else lo

/-- Home frames in use: pages and the destinations of re-homings in progress. -/
def State.usedFrames (s : State) : List Nat :=
  s.pages.filterMap Page.frame ++ s.moves.filterMap fun m => if m.kind == .rehome then some m.dest else none
/-- Deep pages in use. -/
def State.usedDeep (s : State) : List Nat :=
  s.pages.filterMap Page.deepPage ++ s.moves.filterMap fun m => if m.kind == .demote then some m.dest else none
/-- Residency slots in use: pages and the destinations of promotions in progress. -/
def State.usedSlots (s : State) : List Nat :=
  (s.pages.filterMap (fun p => p.slot) ++ s.moves.filterMap fun m => if m.kind == .promote then some m.dest else none).eraseDups

/-- The lowest free Home frame (R232). -/
def State.freeFrame (s : State) : Option Nat :=
  let f := lowestFree s.usedFrames s.usedFrames.length 0
  if f < s.homeLimit then some f else none
/-- The lowest free Deep page index (R232). -/
def State.freeDeepPage (s : State) : Option Nat :=
  let d := lowestFree s.usedDeep s.usedDeep.length Config.firstDeep
  if d < Config.endDeep then some d else none

/-- Home frames that a Kit holds or is being given (TIER_KUSED, R257). -/
def State.homeUsed (s : State) (k : Kit) : Nat :=
  (s.pages.filter fun p => p.kit == k && p.frame.isSome).length
    + (s.moves.filter fun m => m.kit == k && m.kind == .rehome).length
/-- Deep pages that a Kit holds or is being given. -/
def State.deepUsed (s : State) (k : Kit) : Nat :=
  (s.pages.filter fun p => p.kit == k && p.deepPage.isSome).length
    + (s.moves.filter fun m => m.kit == k && m.kind == .demote).length

/-- A TIER_KQ_ field: 0 HOME, 1 DEEP, 2 RES, 3 NEAR, 4 NPIN, 5 MPIN, 6 MUF (Table 9.3). -/
def KitSt.quota (x : KitSt) (i : Nat) : Nat := x.kq.toList.getD i 0

/-- Whether a page is being moved (R253). -/
def State.moving (s : State) (k : Kit) (kp : KPage) : Bool := s.moves.any fun m => m.kit == k && m.kp == kp

/-- Device chord of a page's chord in a frame. -/
def frameAt (frame a : Nat) : Nat := frameChord frame + chordIn a

/-- Frame number of a Residency slot (R236). -/
def State.slotFrame (s : State) (slot : Nat) : Nat := homeFrames s.tier.split + slot

/-- Where a chord of an owner's page is. -/
inductive Loc
  /-- the page is not backed: reads as zeros (R234) -/
  | unbacked
  /-- its sector's zero bit is set (R233) -/
  | zero
  /-- in Main at a device chord -/
  | main (c : Nat)
  /-- Deep-homed and not resident (R171) -/
  | absent
deriving DecidableEq, Repr

/-- Where a chord is. -/
def State.locate (s : State) (k : Kit) (a : Nat) : Loc :=
  match s.findPage k (kpOf a) with
  | none => .unbacked
  | some p =>
    if p.zero.getLsbD (secOf a).toNat then .zero
    else match p.home, p.slot with
      | .main f, _ => .main (frameAt f a)
      | .deep _, some sl => .main (frameAt (s.slotFrame sl) a)
      | .deep _, none => .absent

/-! ### Near (R245, R248) -/

/-- The Near line of a chord: POISON bit and bytes. -/
def State.nearLine (s : State) (k : Kit) (a : Nat) : Option (Bool × List Byte) :=
  match s.near.find? fun b => b.kit == k && b.kp == kpOf a && b.sector == secOf a with
  | some b => (b.lines.find? fun l => l.1 == lineIx a).map fun l => l.2
  | none => none

/-- Blocks of the Near pool: 24,320 less those withdrawn (R248, 14 R371). -/
def State.nearPool (s : State) : Nat := Config.nearPoolBlocks - s.rep.nearWithdrawn

/-- Private quota in force of a Kit in one pool, 0 when it shares (R250). -/
def State.priv (s : State) (near : Bool) (k : Kit) : Nat :=
  if s.tier.partNow then (if near then (s.kit k).kqNow.2 else (s.kit k).kqNow.1) else 0

/-- The blocks or slots that the pool leaves to the Kits without a private quota (R250). -/
def State.sharedPool (s : State) (near : Bool) : Nat :=
  (if near then s.nearPool else s.resSlots) - (s.liveKits.map fun k => s.priv near k).sum

/-- Whether Kit `k` may evict what Kit `o` holds: its own, and in the shared part what other sharing Kits hold. -/
def State.mayEvict (s : State) (near : Bool) (k o : Kit) : Bool :=
  o == k || (s.priv near k == 0 && s.priv near o == 0)

/-- Whether a Kit's share has room for one more, given what each Kit holds. -/
def State.shareRoom (s : State) (near : Bool) (k : Kit) (held : Kit → Nat) (total : Nat) : Bool :=
  total < (if near then s.nearPool else s.resSlots) &&
  (if s.priv near k != 0 then held k < s.priv near k
   else ((s.liveKits.filter fun o => s.priv near o == 0).map held).sum < s.sharedPool near)

/-- Near blocks of a Kit. -/
def State.nearHeld (s : State) (k : Kit) : Nat := (s.near.filter fun b => b.kit == k).length
/-- Residency slots of a Kit; a slot that a promotion waits for still counts with the page that holds it. -/
def State.slotHeld (s : State) (k : Kit) : Nat :=
  (s.pages.filter fun p => p.kit == k && p.slot.isSome).length
    + (s.moves.filter fun m => m.kit == k && m.kind == .promote && !(s.pages.any fun p => p.slot == some m.dest)).length

/-- Whether a page is pinned in Near. -/
def State.nearPinned (s : State) (k : Kit) (kp : KPage) : Bool :=
  match s.findPage k kp with | some p => p.nearPin | none => false

/-- The older of two candidates by age stamp under R41, the lower index on equal age (R248). -/
def older (now : Nat) (a b : Nat × Nat) : Nat × Nat :=
  let ea := elapsed a.1 now
  let eb := elapsed b.1 now
  if eb < ea || (ea == eb && a.2 ≤ b.2) then a else b

/-- The victim of a pool among candidates (age stamp, index). -/
def victim (now : Nat) : List (Nat × Nat) → Option (Nat × Nat)
  | [] => none
  | x :: xs => some (xs.foldl (older now) x)

/-- A free Near block for a Kit: a free block of its share, or the victim's (R248, R250). -/
def State.nearSlot (s : State) (k : Kit) : Option Nat :=
  if s.shareRoom true k s.nearHeld s.near.length then
    some (lowestFree (s.near.map fun b => b.blk) s.near.length Config.carveOut)
  else
    let cand := s.near.filter fun b => s.mayEvict true k b.kit && !s.nearPinned b.kit b.kp
    (victim s.bar.beatno (cand.map fun b => (b.age, b.blk))).map fun v => v.2

/-- Put one line into a block's lines. -/
def setLine (ls : List (Nat × Bool × List Byte)) (i : Nat) (p : Bool) (d : List Byte) : List (Nat × Bool × List Byte) :=
  (i, p, d) :: ls.filter fun l => l.1 != i

/-- Fill a line of the owner's chord into Near, with its POISON bit (R245, 13 R337). -/
def State.nearFill (s : State) (k : Kit) (a : Nat) (poison : Bool) (d : List Byte) : State :=
  if s.near.any fun b => b.kit == k && b.kp == kpOf a && b.sector == secOf a then
    let f := fun (b : NearBlk) => { b with lines := setLine b.lines (lineIx a) poison d, age := s.bar.beatno }
    { s with near := updWhere (fun b => b.kit == k && b.kp == kpOf a && b.sector == secOf a) f s.near }
  else
    match s.nearSlot k with
    | none => s
    | some blk =>
      { s with near := (s.near.filter fun b => b.blk != blk) ++
          [⟨blk, k, kpOf a, secOf a, [(lineIx a, poison, d)], s.bar.beatno⟩] }

/-- A write updates the existing line of its Kit and never fills one (R245). -/
def State.nearWrite (s : State) (k : Kit) (a : Nat) (d : List Byte) : State :=
  let f := fun (b : NearBlk) =>
    { b with lines := b.lines.map fun l => if l.1 == lineIx a then (l.1, false, d) else l }
  { s with near := updWhere (fun b => b.kit == k && b.kp == kpOf a && b.sector == secOf a) f s.near }

/-- Invalidate the line of a chord (R285). -/
def State.nearDrop (s : State) (k : Kit) (a : Nat) : State :=
  let f := fun (b : NearBlk) => { b with lines := b.lines.filter fun l => l.1 != lineIx a }
  { s with near := updWhere (fun b => b.kit == k && b.kp == kpOf a && b.sector == secOf a) f s.near }

/-- Release the Near blocks of a page. -/
def State.nearRelease (s : State) (k : Kit) (kp : KPage) : State :=
  { s with near := s.near.filter fun b => !(b.kit == k && b.kp == kp) }

/-- An access renews the age stamps of the page's block and slot (R248). -/
def State.touch (s : State) (k : Kit) (a : Nat) : State :=
  let f := fun (b : NearBlk) => { b with age := s.bar.beatno }
  { s with near := updWhere (fun b => b.kit == k && b.kp == kpOf a && b.sector == secOf a) f s.near,
           pages := updWhere (fun p => p.kit == k && p.kp == kpOf a) (fun p => { p with age := s.bar.beatno }) s.pages }

/-- One access of the owner through an own-page window adds 1 to the page's heat, after the Beat's heat decay (R241). -/
def State.heat (s : State) (k : Kit) (a n : Nat) : State :=
  s.updPage k (kpOf a) fun p => { p with hits := satAdd 16 p.hits n }

/-- The accesses of a Beat count at its end (R241). -/
def Page.heated (p : Page) : Page := { p with heat := satAdd 16 p.heat p.hits, hits := 0 }

/-- Who pays for a move's chords: the Kit that owns the page, for a FETCH the Kit that owns the engine (Table 3.1). -/
def State.movePayer (s : State) (m : Move) : Kit :=
  match m.fetch with
  | some (e, _) => (s.eng e).kit
  | none => m.kit

/-! ### What a Kit sees of a chord (R287 to R289) -/

/-- Bytes of `ov` where the mask is set, else of `base`. -/
def overlay (mask : BitVec 64) (ov base : List Byte) : List Byte :=
  (List.range 64).map fun i => if mask.getLsbD i then ov.getD i 0 else base.getD i 0

/-- A fill, move or marker chord for a device chord that is not yet in the array; a chord marked poisoned reads so from the
Beat of its recant (11 R285). -/
def State.onTheWay (s : State) (c : Nat) : Option View :=
  if s.ecc.markq.contains (BitVec.ofNat 28 c) then some .poison
  else match s.chordq.reverse.find? fun q => q.2.2.2.1.toNat == c with
  | some (.move _ _, _, _, _, d) => some (.val d)
  | some (.marker, _, _, _, _) => some .poison
  | _ =>
    match (s.hold.filter fun e => e.chord.toNat == c && (match e.kind with
      | .move _ _ => true | .marker => true | _ => false)).getLast? with
    | some e => some (if e.kind == .marker then .poison else .val e.data)
    | none => none

/-- The frame chord of a page that is being promoted, once its sector has been read from Deep (10 R262). -/
def State.promoted (s : State) (o : Kit) (a : Nat) : Option Nat :=
  match s.moves.find? fun m => m.kit == o && m.kp == kpOf a && m.kind == .promote with
  | some m => if m.reads.getLsbD (secOf a).toNat then none else some (frameAt (s.slotFrame m.dest) a)
  | none => none

/-- Whether a chord of a zero sector is left to the write that fills the sector, which has not yet brought it (R233). -/
def State.zeroOwed (s : State) (o : Kit) (a : Nat) : Bool :=
  s.jobs.any fun j => j.kit == o && j.zeroed.contains (a / 4096) && j.todo.any fun u => u.kaddr == a

/-- The stored value of an owner's chord: Near, then Main (R288). -/
def State.stored (s : State) (o : Kit) (a : Nat) : View :=
  if s.zeroOwed o a then .val (zeros 64)
  else match s.nearLine o a with
  | some (true, _) => .poison
  | some (false, d) => .val d
  | none =>
    match s.locate o a with
    | .unbacked => .val (zeros 64)
    | .zero => .val (zeros 64)
    | .absent => match s.promoted o a with
      | some c => (s.onTheWay c).getD (.array c 0 [])
      | none => .absent
    | .main c => (s.onTheWay c).getD (.array c 0 [])

/-- The entries of an owner's chord whose writes other readers may still see the value before: pending, or with their
outcome in this Beat (R287). -/
def State.entriesOf (s : State) (o : Kit) (a : Nat) : List WEntry :=
  (s.justOut ++ s.hold).filter fun e => e.kind == .data && e.payer == some o && e.kaddr == a

/-- The open merge entry of a chord. -/
def State.mergeOf (s : State) (o : Kit) (a : Nat) : Option MEntry :=
  (s.merge.toList.filterMap id).find? fun m => m.kit == o && m.kaddr == a

/-- Lay merge-buffer bytes over a view (R288). -/
def View.under (v : View) (m : Option MEntry) : View :=
  match m with
  | none => v
  | some m =>
    match v with
    | .val d => .val (overlay m.mask m.data d)
    | .array c bm ov => .array c (m.mask ||| bm) (overlay m.mask m.data ov)
    | x => x

/-- The newest data of the writing Kit: the newest entry, merge bytes over it, Near, the array (R288). -/
def State.newest (s : State) (o : Kit) (a : Nat) : View :=
  let es := s.entriesOf o a
  if es.any fun e => e.phase == .merging then .wait
  else
    match es.getLast? with
    | some e => (View.val e.data).under (s.mergeOf o a)
    | none => (s.stored o a).under (s.mergeOf o a)

/-- The writing Kit's view: in the Beat of an acceptance, what it was before (R287); else the newest data (R288). -/
def State.viewOwn (s : State) (o : Kit) (a : Nat) : View :=
  match s.priors.find? fun p => p.1 == o && p.2.1 == a with
  | some p => p.2.2
  | none => s.newest o a

/-- The view of a chord that a write of this Beat is about to change (R287). -/
def State.notePrior (s : State) (o : Kit) (a : Nat) : State :=
  { s with priors := s.priors ++ [(o, a, s.viewOwn o a)] }

/-- Every other Kit's view: the pre-image of the oldest entry that still holds it (R287, R288). -/
def State.viewOther (s : State) (o : Kit) (a : Nat) : View :=
  match (s.entriesOf o a).filter fun e => e.phase != .merging with
  | [] => s.stored o a
  | e :: _ =>
    match e.pre with
    | .have (some d) => .val d
    | .have none => .poison
    | .notNeeded => .wait
    | .due _ => .wait
    | .wants => .wait
    | .absent => .wait

/-- The value that STREAM, fills, moves, Muffles and captures take: the last confirmed one, without waiting (R289). -/
def State.viewConfirmed (s : State) (o : Kit) (a : Nat) : View :=
  match (s.entriesOf o a).filter fun e => e.phase != .merging with
  | [] => s.stored o a
  | e :: _ =>
    match e.pre with
    | .have (some d) => .val d
    | .have none => .poison
    | _ =>
      match s.locate o a with
      | .main c => .array c 0 []
      | .absent => .absent
      | _ => .val (zeros 64)

/-- Bytes of a chord found by decode, `none` when poisoned. -/
def ChordOut.value (o : ChordOut) : Option (List Byte) := if o.poisoned then none else some o.data

end Sys2Proof.Machine
end

