-- ==== Sys2Proof/Machine/Ledger.lean ====
section
/-! DEFINITION. The stroke ledger (03): held Strokes, demands, the allocation of one Beat (Table 3.2), read tokens. -/

namespace Sys2Proof.Machine

/-! ### The provisional reserve (R75 to R78) -/

/-- Strokes that an entry holds: its first-pulse cost until the first pulse issues, 2 from then on (R75). -/
def WEntry.held (e : WEntry) : Nat := if e.pulses == 0 then sliceCount e.slices else 2

/-- Strokes that a merge entry holds (R290). -/
def State.mergeHeld (s : State) (m : MEntry) : Nat := s.chordCost m.chord.toNat

/-- The merge entries in use, oldest index first. -/
def State.merges (s : State) : List MEntry := s.merge.toList.filterMap id

/-- Strokes held by a Kit: STK_PHELD (R76). -/
def State.kitHeld (s : State) (k : Kit) : Nat :=
  ((s.hold.filter fun e => e.payer == some k && !e.maint).map WEntry.held).sum
    + ((s.merges.filter fun m => m.kit == k).map s.mergeHeld).sum

/-- Strokes held by all Kits. -/
def State.kitsHeld (s : State) : Nat :=
  ((s.hold.filter fun e => !e.maint).map WEntry.held).sum + (s.merges.map s.mergeHeld).sum

/-- A chord of a promotion, a re-homing or a zero fill: the worked cases of 09 and 10 issue more of them in a Beat than the
maintenance parts hold, so it waits outside the 320 entries and takes neither part of the reserve (09 R233; DEDUCED, log
101). -/
def WEntry.system (e : WEntry) : Bool := e.maint && match e.kind with | .move _ _ => true | _ => false

/-- The entries that maintenance chord writes take (13 R335). -/
def State.maintHolds (s : State) : List WEntry := s.hold.filter fun e => e.maint && !e.system

/-- Strokes held in the maintenance part. -/
def State.maintHeld (s : State) : Nat := (s.maintHolds.map WEntry.held).sum

/-- Write-hold entries in use: PROV_STATUS.HOLD. -/
def State.entriesUsed (s : State) : Nat := (s.hold.filter fun e => !e.system).length

/-- Strokes held device-wide: STK_PROV_TOTAL. -/
def State.allHeld (s : State) : Nat := s.kitsHeld + s.maintHeld

/-- Write-hold entries that Kits hold (R281). -/
def State.kitEntriesUsed (s : State) : Nat := (s.hold.filter fun e => !e.maint).length

/-- R76 for `cost` more Strokes of a Kit. -/
def State.shareFits (s : State) (k : Kit) (cost : Nat) : Bool :=
  s.kitHeld k + cost ≤ (s.kit k).pshare && s.kitsHeld + cost ≤ Config.kitShareLimit
    && s.allHeld + cost ≤ Config.reserveLimit

/-- Whether `n` write-hold entries are free for a Kit (R281). -/
def State.entriesFree (s : State) (n : Nat) : Bool := s.kitEntriesUsed + n ≤ Config.kitEntries

/-- Whether the maintenance part takes one more entry of a cost (R76, R281). -/
def State.maintFits (s : State) (cost : Nat) : Bool :=
  s.maintHeld + cost ≤ Config.maintShare && s.maintHolds.length < Config.maintEntries
    && s.allHeld + cost ≤ Config.reserveLimit

/-- Chords accepted with their outcome pending: PROV_KPEND. -/
def State.kitPending (s : State) (k : Kit) : Nat :=
  (s.hold.filter fun e => e.payer == some k && e.kind == .data && e.phase != .merging).length
    + (s.merges.filter fun m => m.kit == k).length

/-! ### Groups (R63, R67) -/

/-- What a group of Strokes issues. -/
inductive Work
  /-- the first pulse or a retry group of an entry -/
  | entry (ent : Nat)
  /-- a Deep program or erase, by its place in the queue -/
  | deep (ix : Nat)
  /-- one rebuilt chord of a transfer -/
  | rebuild
  /-- one chunk write at the Belfry port -/
  | belfry
  /-- one chord of a heat snapshot -/
  | snap
  /-- one sacrificial chord of TOLL_RUN -/
  | sac
deriving DecidableEq, Repr

/-- A group: its Strokes, what it issues, whether it is a retry. -/
structure Grp where
  /-- Strokes -/
  cost : Nat
  /-- what it issues -/
  work : Work
  /-- order within its source -/
  rank : Nat
deriving DecidableEq, Repr

/-- Whether an earlier pending entry of the same chord bars an entry's first pulse (R286). -/
def State.barred (s : State) (e : WEntry) : Bool :=
  s.hold.any fun x => x.ent < e.ent && x.chord == e.chord

/-- Whether an entry's next group may issue in this Beat (R286, R282): the first pulse not before the Beat after
acceptance, or before the Beat in which a capture completes (R283, Table 11.5). -/
def State.pulseDue (s : State) (e : WEntry) : Bool :=
  match e.phase with
  | .merging => false
  | .pulsed _ => false
  | .retry due => reached due s.bar.beatno
  | .waiting =>
    e.accepted != s.bar.beatno && !e.blocked && !s.barred e &&
      (match e.pre with | .due b => reached b s.bar.beatno | .wants => false | _ => true)

/-- Order of the maintenance writes that no calendar step names (R489). -/
def WKind.maintRank : WKind → Nat
  | .marker => 1
  | .fix => 2
  | .shadow _ => 4
  | _ => 3

/-- A group of an entry. -/
def entryGrp (e : WEntry) : Grp := ⟨sliceCount e.slices, .entry e.ent, 0⟩

/-- The groups of entries that a source pays for: its retry groups, then its first-pulse groups, each oldest acceptance first
(R67; the age of a retry group is its chord's: DESIGN CHOICE, log 117). Groups with an age of their own stand among the first
pulses. -/
def State.entryGroups (s : State) (p : WEntry → Bool) (since : Nat) (own : List Grp) : List Grp :=
  let due := s.hold.filter fun e => p e && s.pulseDue e
  let new := due.filter fun e => e.pulses == 0
  (due.filter fun e => e.pulses != 0).map entryGrp ++ (new.filter fun e => e.ent < since).map entryGrp ++ own
    ++ (new.filter fun e => !(e.ent < since)).map entryGrp

/-- A Deep operation's cost (Table 3.1). -/
def DeepOp.cost : DeepOp → Nat
  | .program _ _ _ => 24
  | .relocate _ _ => 24
  | .erase _ => 32

/-- Who pays for a Deep operation: the Kit of a program, else maintenance. -/
def DeepOp.payer : DeepOp → Option Kit
  | .program k _ _ => k
  | _ => none

/-- The die of a Deep operation (10 R258). -/
def DeepOp.die : DeepOp → Nat
  | .program _ _ loc => loc / 2 ^ 25
  | .relocate _ loc => loc / 2 ^ 25
  | .erase b => b / 8192

/-- Whether an operation is held for want of free blocks: every program of Kit sectors (10 R267). -/
def Deep.holds (d : Deep) (op : DeepOp) : Bool :=
  d.wbHeld && match op with | .program _ _ _ => true | _ => false

/-- The map entry of a sector of a Deep page. -/
def Deep.find (d : Deep) (page : Nat) (x : BitVec 4) : Option DeepEnt :=
  d.map.find? fun e => e.page == page && e.sector == x

/-- Whether a promotion or request read waits at a die (10 R263, R265). -/
def State.readsOn (s : State) (die : Nat) : Bool :=
  s.moves.any fun m => m.reads != 0 && m.entry && (match s.findPage m.kit m.kp with
    | some p => (List.range 16).any fun i => m.reads.getLsbD i && (match s.deep.find p.index (BitVec.ofNat 4 i) with
      | some e => e.loc / 2 ^ 25 == die
      | none => false)
    | none => false)

/-- Whether reads precede programs and erases at a die: promotion and request reads, then scan reads (10 R263). -/
def State.readsFirst (s : State) (die : Nat) : Bool :=
  s.readsOn die || s.deep.scanQ.any fun b => b / 8192 == die

/-- The operation of the queue that goes to a die next: programs before erases, each oldest first, but for those held (10
R263, R267). -/
def Deep.nextOn (d : Deep) (die : Nat) : Option Nat :=
  let here := ((List.range d.queue.length).zip d.queue).filter fun x => x.2.die == die && !d.holds x.2
  let prog := here.find? fun x => match x.2 with | .erase _ => false | _ => true
  (prog.or here.head?).map fun x => x.1

/-- Whether an operation of the queue may go to its die: the die is idle, no read waits there, and it comes next (10 R263). -/
def State.mayGo (s : State) (ix : Nat) (op : DeepOp) : Bool :=
  ((s.deep.dies.toList.getD op.die DeepDie.reset).busy).isNone && !s.readsFirst op.die && s.deep.nextOn op.die == some ix

/-- The Deep groups of a payer, oldest first; write-backs wait while they are held for want of free blocks (R267). -/
def State.deepGroups (s : State) (k : Option Kit) : List Grp :=
  ((List.range s.deep.queue.length).zip s.deep.queue).filterMap fun x =>
    if x.2.payer == k && s.mayGo x.1 x.2 then some ⟨x.2.cost, .deep x.1, 0⟩ else none

/-! #### Scrub (13 R343) -/

/-- The factor of a scrub step: SCRUB_BOOST while WRHOLD is set and for 1,024 Bars after (20 R480). -/
def State.scrubFactor (s : State) : Nat :=
  let on := match s.ecc.boostTo with | some b => !barReached b s.barNo | none => false
  if s.pwr.wrhold || on then s.pwr.boost else 1

/-- Chords that a scrub step of this Beat adds to those due (R343). -/
def State.scrubNext (s : State) : Nat :=
  if s.beatIx == 16 && !s.gen.dbg.getLsbD 2 then (s.ecc.acc + s.ecc.rate * s.scrubFactor) / 2 ^ 16 else 0

/-! #### Rebuild (14 R361, R362) -/

/-- Chords of a unit (14 R360). -/
def Transfer.size (t : Transfer) : Nat :=
  match t.kind with
  | .row => 128
  | .column => 65536
  | .bank => 2 ^ 23
  | _ => 2 ^ 28

/-- The `i`-th chord of a unit, in ascending device chord index (14 R352, R360). -/
def Transfer.chord (t : Transfer) (i : Nat) : Nat :=
  match t.kind with
  | .row => t.bank * 2 ^ 23 + t.row * 128 + i
  | .column => t.bank * 2 ^ 23 + i * 128 + t.row * 8 + t.lane / 8
  | .bank => t.bank * 2 ^ 23 + i
  | _ => i

/-- Pass over chords with a pending write-hold or merge entry, to return to them (14 R362). -/
def State.passPending (s : State) : Nat → Transfer → Transfer
  | 0, t => t
  | n + 1, t =>
    if t.cursor < t.size && s.entryAt (t.chord t.cursor) then
      s.passPending n { t with cursor := t.cursor + 1, late := t.late ++ [t.chord t.cursor] }
    else t

/-- The next chord of a rebuild, and the transfer once it is done: at the cursor, else one passed over before. -/
def State.nextRebuild (s : State) (t : Transfer) : Option (Nat × Transfer) :=
  let t1 := s.passPending (s.hold.length + 64) t
  if t1.cursor < t1.size then some (t1.chord t1.cursor, { t1 with cursor := t1.cursor + 1 })
  else match t1.late.find? fun c => !s.entryAt c with
    | some c => some (c, { t1 with late := t1.late.filter fun x => x != c })
    | none => none

/-- The first transfer in rebuild with a chord to do: the transfer, the chord, the transfer once it is done. -/
def State.rebuildPick (s : State) (ts : List Transfer) : Option (Transfer × Nat × Transfer) :=
  ts.findSome? fun t => if t.phase == 2 then (s.nextRebuild t).map fun x => (t, x) else none

/-- Chords, up to `n`, that the transfers can rebuild as things stand. -/
def State.rebuildPlan (s : State) : Nat → List Transfer → Nat
  | 0, _ => 0
  | n + 1, ts => match s.rebuildPick ts with
    | some x => 1 + s.rebuildPlan n (updWhere (fun t => t.kind == x.1.kind) (fun _ => x.2.2) ts)
    | none => 0

/-- Rebuild groups: one for each chord that this Beat rebuilds, at most RB_MAX and one for each read token that the calendar
steps leave (14 R361). -/
def State.rebuildGroups (s : State) : List Grp :=
  let toks := s.stk.tokMaint + s.stk.tokFree - s.scrubNext
  if s.mode.traffic then List.replicate (s.rebuildPlan (min s.rep.rbMax toks) s.rep.runs) ⟨1, .rebuild, 0⟩ else []

/-! #### The Belfry port (15 R376, R377) -/

/-- Chunk writes that the port's timing lets start in this Beat, at 80 ns each, one after the other (15 R376, R377). -/
def State.belStarts (s : State) : Nat :=
  ceilDiv (Config.beatPs s.bar.rate - s.bel.busyPs) 80000

/-- The chunk writes in progress that may start in this Beat: those next in order that one source pays. -/
def State.belSteps (s : State) : List BelStep :=
  match s.bel.run with
  | none => []
  | some r =>
    match r.steps.take s.belStarts with
    | [] => []
    | x :: xs => x :: xs.takeWhile fun y => y.house == x.house && y.cal == x.cal

/-- The Belfry groups of a source: the house kit's, those of a calendar step, the other ones of maintenance. -/
def State.belGroups (s : State) (house cal : Bool) : List Grp :=
  (s.belSteps.filter fun x => x.house == house && x.cal == cal).map fun _ => ⟨1, .belfry, 0⟩

/-- The age of the port's operation among its source's groups. -/
def Bel.since (b : Bel) : Nat := match b.run with | some r => r.since | none => 0

/-! #### Maintenance writes of one kind each -/

/-- Cost of a chord of a snapshot (09 R254). -/
def State.snapChord (s : State) : Nat := s.chordCost Config.metaBase

/-- The chords of a heat snapshot that a Beat could issue (09 R254). -/
def State.snapGroups (s : State) : List Grp :=
  match s.closing with
  | some c => List.replicate (min 16 ((c.snapLeft.getD 0) / s.snapChord)) ⟨s.snapChord, .snap, 0⟩
  | none => []

/-- Cost of a chord that no map of a unit covers, as a sacrificial one: 11 while a unit is in shadow rejoin (16 R397). -/
def State.shadowCost (s : State) : Nat := if s.rep.runs.any fun t => 2 ≤ t.phase then 11 else 10

/-- The sacrificial chords of TOLL_RUN that a Beat could issue (16 R404). -/
def State.sacGroups (s : State) : List Grp := List.replicate (min 16 s.toll.sacLeft) ⟨s.shadowCost, .sac, 0⟩

/-- The maintenance groups in the order of Table 3.2 step 1 and R489, ahead of Deep relocation. Snapshot and sacrificial
chords, which R489 does not name, follow its four kinds (DESIGN CHOICE, log 118). -/
def State.arrayMaint (s : State) : List Grp :=
  let at_ := fun n => s.entryGroups (fun e => e.payer.isNone && e.kind.maintRank == n) 0 []
  s.belGroups false true ++ at_ 1 ++ at_ 2 ++ s.belGroups false false ++ at_ 3 ++ at_ 4 ++ s.snapGroups ++ s.sacGroups
    ++ s.rebuildGroups

/-- The Belfry groups of a Kit: the house kit alone writes there (07 R195). -/
def State.kitBelfry (s : State) (k : Kit) : List Grp := if k == 0 then s.belGroups true false else []

/-- The Main groups of a Kit. -/
def State.mainGroups (s : State) (k : Kit) : List Grp :=
  s.entryGroups (fun e => e.payer == some k) s.bel.since (s.kitBelfry k)

/-! ### Allocation (Table 3.2, R67 to R70) -/

/-- Serve groups in order until the first that does not fit: served, left over, Strokes left. -/
def serve : Nat → List Grp → List Grp × List Grp × Nat
  | b, [] => ([], [], b)
  | b, g :: gs =>
    if g.cost ≤ b then
      let r := serve (b - g.cost) gs
      (g :: r.1, r.2.1, r.2.2)
    else ([], g :: gs, b)

/-- One Kit's queues in a pass. -/
structure Turn where
  /-- the Kit -/
  kit : Kit
  /-- its groups left -/
  grps : List Grp
deriving DecidableEq, Repr

/-- The round-robin of R68: each visit takes one group; the pass ends when the next Kit's group does not fit. -/
def roundRobin : Nat → Nat → List Turn → List (Kit × Grp) × Nat
  | 0, b, _ => ([], b)
  | _ + 1, b, [] => ([], b)
  | fuel + 1, b, t :: ts =>
    match t.grps with
    | [] => roundRobin fuel b ts
    | g :: gs =>
      if g.cost ≤ b then
        let r := roundRobin fuel (b - g.cost) (ts ++ [⟨t.kit, gs⟩])
        ((t.kit, g) :: r.1, r.2)
      else ([], b)

/-- Fuel that lets a pass empty every queue. -/
def passFuel (ts : List Turn) : Nat := (ts.map fun t => t.grps.length + 1).sum + 1

/-- What one Beat issues. -/
structure Alloc where
  /-- maintenance groups from the reserve -/
  maint : List Grp
  /-- maintenance groups from slack -/
  slackM : List Grp
  /-- Kit groups -/
  kits : List (Kit × Grp)
  /-- slack before step 3 -/
  slack : Nat
  /-- Strokes not issued -/
  left : Nat
deriving DecidableEq, Repr

/-- A Kit's demand in a Beat. -/
structure KDem where
  /-- the Kit -/
  kit : Kit
  /-- reservation in force -/
  grant : Nat
  /-- Main groups -/
  main : List Grp
  /-- Deep groups -/
  deep : List Grp
deriving DecidableEq, Repr

/-- Kits in order from Kit (BEATNO mod 16) on (R68). -/
def rotate {α : Type} (n : Nat) (l : List α) : List α := l.drop n ++ l.take n

/-- Step 2 for one Kit: its groups served, its Main and Deep groups left, what it lends. -/
def reserveStep (d : KDem) : List (Kit × Grp) × List Grp × List Grp × Nat :=
  let m := serve d.grant d.main
  match m.2.1 with
  | [] =>
    let p := serve m.2.2 d.deep
    (((m.1 ++ p.1).map fun g => (d.kit, g)), [], p.2.1, p.2.2)
  | rest => ((m.1.map fun g => (d.kit, g)), rest, d.deep, m.2.2)

/-- Reservations cut, in Kit order, to what a Beat shorter than the grant assumed still holds (R66, 04 R104). -/
def capGrants : Nat → List KDem → List KDem
  | _, [] => []
  | b, d :: ds => { d with grant := min d.grant b } :: capGrants (b - min d.grant b) ds

/-- One Beat's allocation (Table 3.2): the maintenance reserve, the reservations, then slack, which is 0 in a Beat too short
for the reserve and the grants (04 R104; also for what a payer leaves unused, log 10). -/
def allocate (strict : Bool) (budget reserve start : Nat) (ds0 : List KDem) (mg : List Grp) : Alloc :=
  let m := serve (min reserve budget) mg
  let ds := capGrants (budget - min reserve budget) ds0
  let rs := ds.map reserveStep
  let grants := (ds.map fun d => d.grant).sum
  let free := budget - min reserve budget - grants
  if strict then
    let x := serve free m.2.1
    { maint := m.1, slackM := x.1, kits := (rs.map fun r => r.1).flatten, slack := free,
      left := x.2.2 + m.2.2 + (rs.map fun r => r.2.2.2).sum }
  else
    let pool := free + m.2.2 + (rs.map fun r => r.2.2.2).sum
    let slack := if budget < min reserve budget + (ds0.map fun d => d.grant).sum then 0 else pool
    let turns := fun (f : KDem × (List (Kit × Grp) × List Grp × List Grp × Nat) → List Grp) =>
      rotate start ((ds.zip rs).map fun x => Turn.mk x.1.kit (f x))
    let tm := turns fun x => x.2.2.1
    let p3 := roundRobin (passFuel tm) slack tm
    let td := turns fun x => x.2.2.2.1
    let p4 := roundRobin (passFuel td) p3.2 td
    let x := serve p4.2 m.2.1
    { maint := m.1, slackM := x.1, kits := (rs.map fun r => r.1).flatten ++ p3.1 ++ p4.1, slack := slack,
      left := x.2.2 + (pool - slack) }

/-- Strokes of a list of groups. -/
def costOf (gs : List Grp) : Nat := (gs.map fun g => g.cost).sum

/-- Strokes that an allocation issues. -/
def Alloc.issued (a : Alloc) : Nat := costOf a.maint + costOf a.slackM + costOf (a.kits.map fun x => x.2)

/-- Strict Tempo is in force (R69). -/
def State.strictNow (s : State) : Bool := s.gen.active

/-- The demands of the sixteen Kits, in order. -/
def State.kitDemands (s : State) : List KDem :=
  allKits.map fun k => ⟨k, (s.kit k).granted, s.mainGroups k, s.deepGroups (some k)⟩

/-- The allocation that this Beat's state calls for; write hold issues no array pulse and funds Deep and the Belfry alone
(20 R480); Rest serves maintenance alone, Deep operations excepted, and the house kit's Belfry chunks (Table 17.2, 10 Table
10.3). -/
def State.beatAlloc (s : State) (budget : Nat) : Alloc :=
  let start := s.bar.beatno % 16
  let off := s.pwr.wrhold
  let rest := s.mode == .rest
  let ds := s.kitDemands.map fun d =>
    let d1 := if off || rest then { d with main := s.kitBelfry d.kit } else d
    if rest then { d1 with deep := [] } else d1
  let dg := if rest then [] else s.deepGroups none
  let mg := if off then s.belGroups false true ++ s.belGroups false false ++ dg else s.arrayMaint ++ dg
  allocate s.strictNow budget s.stk.maintNow start ds mg

/-! ### Reservations in force (R71, R73) -/

/-- The grant of R73 in ascending Kit order: what fits, the first that does not cut to what remains, later Kits 0. -/
def grantKits : Nat → List Nat → List Nat
  | _, [] => []
  | room, k :: ks =>
    if k ≤ room then k :: grantKits (room - k) ks
    else (if room < 11 then 0 else room) :: ks.map fun _ => 0

/-- Whether the configured values fit E (R73). -/
def State.grantFits (s : State) : Bool :=
  8 ≤ s.stk.maint && s.stk.maint ≤ 64 && s.stk.maint + (allKits.map fun k => (s.kit k).kres).sum ≤ s.budgetE

/-- LEDGER_GRANT (R73): reservations, the maintenance reserve and the token reservations come into force. -/
def State.ledgerGrant (s : State) : State :=
  let gs := grantKits (s.budgetE - min s.stk.maint s.budgetE) (allKits.map fun k => (s.kit k).kres)
  let kits := forEach (fun (x : Kit × Nat) (v : Vector KitSt 16) =>
      v.set x.1 { v[x.1] with granted := x.2, rtresNow := v[x.1].rtres }) (allKits.zip gs) s.kits
  let s1 := { s with kits := kits,
                     stk := { s.stk with maintNow := s.stk.maint, rtMaintNow := s.stk.rtMaint, dirty := false,
                                         short := !s.grantFits } }
  if s.grantFits then s1 else s1.raise .stk 0x02

/-! ### Read tokens (R79, R80) -/

/-- A Kit takes one read token: from its reservation, else, outside Strict Tempo, from the round-robin's; none when no
token is left. -/
def State.kitToken (s : State) (k : Kit) : Option State :=
  let x := s.kit k
  if 0 < x.tok then some (s.setKit k { x with tok := x.tok - 1 })
  else if s.strictNow then none
  else if 0 < s.stk.tokFree then some { s with stk := { s.stk with tokFree := s.stk.tokFree - 1 } }
  else none

/-- Maintenance takes one read token: from its part, else from those left over (R343). -/
def State.maintToken (s : State) : Option State :=
  if 0 < s.stk.tokMaint then some { s with stk := { s.stk with tokMaint := s.stk.tokMaint - 1 } }
  else if 0 < s.stk.tokFree then some { s with stk := { s.stk with tokFree := s.stk.tokFree - 1 } }
  else none

/-- The refill of 96 tokens at a Beat boundary (R79): the maintenance part, each STK_RTRES, the rest. -/
def State.refillTokens (s : State) : State :=
  let res := (allKits.map fun k => (s.kit k).rtresNow).sum
  let kits := forEach (fun (k : Kit) (v : Vector KitSt 16) => v.set k { v[k] with tok := v[k].rtresNow }) allKits s.kits
  { s with kits := kits,
           stk := { s.stk with tokMaint := s.stk.rtMaintNow, tokFree := Config.readTokens - s.stk.rtMaintNow - res } }

/-- The tokens of each Kit, from its reservation and its demand, and those left: outside Strict Tempo a reservation serves as
much as its Kit wants, and what it leaves passes to the round-robin, one chord per visit from Kit (BEATNO mod 16) on; in
Strict Tempo each Kit has its own (R79, R80; 08 Table 8.5). -/
def shareTokens (strict : Bool) (start free : Nat) (ks : List (Kit × Nat × Nat)) : List (Kit × Nat) × Nat :=
  if strict then (ks.map fun x => (x.1, x.2.1), free)
  else
    let pool := free + (ks.map fun x => x.2.1 - min x.2.1 x.2.2).sum
    let turns := rotate start (ks.map fun x => Turn.mk x.1 (List.replicate (x.2.2 - x.2.1) ⟨1, .rebuild, 0⟩))
    let r := roundRobin (passFuel turns) pool turns
    (ks.map fun x => (x.1, min x.2.1 x.2.2 + (r.1.filter fun g => g.1 == x.1).length), r.2)

/-- READ_TOKEN_ALLOCATION (R79): what Kits want is met at the Beat boundary, once for the Beat; `keep` tokens of the
maintenance part stay with it, the rest of it passes on outside Strict Tempo (R80). -/
def State.shareOut (s : State) (want : Kit → Nat) (keep : Nat) : State :=
  let spare := if s.strictNow then 0 else s.stk.tokMaint - keep
  let r := shareTokens s.strictNow (s.bar.beatno % 16) (s.stk.tokFree + spare)
    (allKits.map fun k => (k, (s.kit k).tok, want k))
  let kits := forEach (fun (x : Kit × Nat) (v : Vector KitSt 16) => v.set x.1 { v[x.1] with tok := x.2 }) r.1 s.kits
  { s with kits := kits, stk := { s.stk with tokFree := r.2, tokMaint := s.stk.tokMaint - spare } }

end Sys2Proof.Machine
end

