-- ==== Sys2Proof/Machine/Writes.lean ====
section
/-! DEFINITION. Provisional writes (11): acceptance, capture, merge buffer, pulses, verify, outcomes, SYNC replies and
recant notices. -/

namespace Sys2Proof.Machine

/-! ### Backing (09 R232 to R235) -/

/-- A page-table chord write waits for a maintenance entry, charged to a Kit (R235). -/
def State.queueChord (s : State) (kind : WKind) (payer : Option Kit) (a c : Nat) (d : List Byte) : State :=
  { s with chordq := s.chordq ++ [(kind, payer, a, BitVec.ofNat 28 c, d)] }

/-- A fresh page record. -/
def newPage (k : Kit) (kp : KPage) (h : Home) (now : Nat) : Page :=
  { kit := k, kp := kp, home := h, slot := none, dirty := 0, dirtyDue := 0, zero := 0xFFFF, heat := 0, hits := 0, nearPin := false,
    mainPin := false, impliedPin := false, age := now, stable := false, redirty := 0 }

/-- Back a page at a home: its record, and the page-table chord that makes it effective (R232, R235). -/
def State.backAt (s : State) (k : Kit) (kp : KPage) (h : Home) : State :=
  let p := newPage k kp h s.bar.beatno
  ({ s with pages := s.pages ++ [p] }).queueChord (.pageTable k kp .backed) (some k) (kp.toNat * 65536)
    (ptChord p.index) (zeros 64)

/-- A Home frame for a Kit, within its quota (R232, R234). -/
def State.homeChoice (s : State) (k : Kit) : Option Home :=
  if s.homeUsed k < (s.kit k).quota 0 then (s.freeFrame).map .main else none
/-- A Deep page for a Kit, within its quota; none while Muted (R234, R274). -/
def State.deepChoice (s : State) (k : Kit) : Option Home :=
  if s.deepUsed k < (s.kit k).quota 1 && !s.deep.muted then (s.freeDeepPage).map .deep else none

/-- The home that backing gives a page by its window (R232): Deep in a Directed window; in an Automatic one Main when
NEWHOME, quota and a frame allow, else Deep. -/
def State.backChoice (s : State) (k : Kit) (auto : Bool) : Option Home :=
  if auto && s.tier.newhome then (s.homeChoice k).orElse fun _ => s.deepChoice k else s.deepChoice k

/-- Whether the own-page window of a page is Automatic. -/
def State.autoAt (s : State) (k : Kit) (kp : KPage) : Bool :=
  match s.windowAt k (kp.toNat * 65536) with
  | some w => w.auto && w.srcKit.isNone
  | none => false

/-! ### Zero sectors (R233) -/

/-- A sector's zero bit clears with its first write (R233); a re-homing in progress takes the new sector as well (R252). -/
def State.zeroSector (s : State) (o : Kit) (a : Nat) : State :=
  let s1 := s.updPage o (kpOf a) fun p => { p with zero := p.zero &&& ~~~ BitVec.ofNat 16 (2 ^ (secOf a).toNat) }
  let more := (List.range 64).map fun i => 64 * (secOf a).toNat + i
  let takes := fun (m : Move) => m.kit == o && m.kp == kpOf a && m.kind == MoveKind.rehome && m.going
  { s1 with moves := updWhere takes (fun m => { m with todo := m.todo ++ more }) s1.moves }

/-! ### Entries -/

/-- The pre-image that an accepted chord captures: from the Kit's earlier pending entry, from Near, or from the array for one
of its read tokens, complete two Beats on; without a token it waits for one (R282). -/
def State.capture (s : State) (o : Kit) (a : Nat) : PreImage × State :=
  if !s.sharedAt o (kpOf a) then (.notNeeded, s)
  else
    match (s.hold.filter fun e => e.kind == .data && e.payer == some o && e.kaddr == a && e.phase != .merging).getLast? with
    | some e => (if e.pre == .notNeeded then .absent else e.pre, s)
    | none =>
      match s.stored o a with
      | .val d => (.have (some d), s)
      | .poison => (.have none, s)
      | _ => match s.kitToken o with
        | some t => (.due ((s.bar.beatno + 2) % Config.beatWrap), t)
        | none => (.wants, s)

/-- A capture that waits for its read token takes one (R282; 03 R79). -/
def State.captureToken (x : WEntry) (s : State) : State :=
  match s.hold.find? fun e => e.ent == x.ent && e.pre == .wants, x.payer with
  | some e, some k =>
    match s.kitToken k with
    | some t =>
      let mine := fun (y : WEntry) => y.kind == .data && y.payer == e.payer && y.kaddr == e.kaddr && y.pre == .wants
      let f := fun (y : WEntry) => { y with pre := .due ((s.bar.beatno + 2) % Config.beatWrap) }
      { t with hold := updWhere mine f t.hold }
    | none => s
  | _, _ => s

/-- The captures that wait take the tokens of a Beat, oldest acceptance first. -/
def State.capturesGoOn (s : State) : State := forEach State.captureToken (s.hold.filter fun e => e.pre == .wants) s

/-- The chords that still wait for an entry once an entry is taken: a Kit's write supersedes a move's queued copy of its
chord. -/
def State.chordsLeft (s : State) (e : WEntry) : List (WKind × Option Kit × Nat × ChordIx × List Byte) :=
  if e.kind == .data then
    s.chordq.filter fun q => !(q.2.2.2.1 == e.chord && match q.1 with | .move _ _ => true | _ => false)
  else s.chordq

/-- Take a write-hold entry for a chord. -/
def State.pushEntry (s : State) (e : WEntry) : State :=
  { s with hold := s.hold ++ [{ e with ent := s.nextEnt }], nextEnt := s.nextEnt + 1, chordq := s.chordsLeft e }

/-- An entry for a chord of a kind. -/
def mkEntry (kind : WKind) (payer : Option Kit) (maint : Bool) (a c : Nat) (d : List Byte) (slices : Slices)
    (now : Nat) : WEntry :=
  { ent := 0, kind := kind, payer := payer, maint := maint, rids := [], kaddr := a, chord := BitVec.ofNat 28 c,
    data := d, slices := slices, pre := .notNeeded, accepted := now, phase := .waiting, pulses := 0, first := 0,
    blocked := false, mask := 0 }

/-- A chord of an owner is filled with zeros, as a promotion chord of the owner's (R233). -/
def State.zeroChord (o : Kit) (x : Nat) (s : State) : State :=
  match s.locate o x with
  | .main c => s.pushEntry (mkEntry (.move o (kpOf x)) (some o) true x c (zeros 64) (s.fullMask c) s.bar.beatno)
  | _ => s

/-- The fill of a zero sector's chords that the write does not touch, as the owner's promotion chords, accepted with the
write's chords and ahead of them (R233: the sector is filled first). -/
def State.zeroFill (s : State) (o : Kit) (a : Nat) (touched : List Nat) : State :=
  let base := a / 4096 * 4096
  let s1 := s.zeroSector o a
  forEach (State.zeroChord o) (((List.range 64).map fun i => base + 64 * i).filter fun x => !touched.contains x) s1

/-! ### Write jobs -/

/-- The write job of a request. -/
def State.findJob (s : State) (rid : Nat) : Option WriteJob := s.jobs.find? fun j => j.rid == rid
/-- Change a write job. -/
def State.updJob (s : State) (rid : Nat) (f : WriteJob → WriteJob) : State :=
  { s with jobs := updWhere (fun j => j.rid == rid) f s.jobs }

/-- Slot marks: a Beat boundary `n` Beats on. -/
def State.markIn (s : State) (n : Nat) : Nat := (s.bar.beatno + n) * 32

/-- The reply of a write once its last chord is accepted or has its outcome (R82, R173, R234, R293). -/
def State.writeReply (s : State) (j : WriteJob) : State :=
  let wr := (s.kit j.kit).tempoWr
  let cut := match j.cutAt with
    | some n => some (ans 0x04 (detPartial n 3))
    | none => none
  if j.rq.sync then
    let rel := some (j.lastOutcome + wr)
    if j.recanted != 0 then
      let s1 := s.setKit j.kit { s.kit j.kit with krecant := j.recanted }
      s1.answer j.rid j.rq (some j.kit)
        { ans 0x42 (detAddr (j.firstRecant.getD 0) j.recanted) with release := rel }
    else s.answer j.rid j.rq (some j.kit) { (cut.getD (ans 0x00 0)) with release := rel }
  else
    s.answer j.rid j.rq (some j.kit)
      { (cut.getD (ans 0x01 j.lastAccept)) with release := some (j.lastAccept + wr) }

/-- Return a job's remaining credits (R175). -/
def State.returnCredits (s : State) (j : WriteJob) : State :=
  s.setKit j.kit { s.kit j.kit with taken := (s.kit j.kit).taken - j.credits }

/-- Reply to a job whose chords are all accepted, without SYNC, or all resolved, with SYNC; drop it once both hold
(R82, R293, R296). -/
def State.settleJob (rid : Nat) (s : State) : State :=
  match s.findJob rid with
  | none => s
  | some j =>
    let accepted := j.todo.isEmpty && !(s.hold.any fun e => e.phase == .merging && e.rids.contains rid)
    let resolved := accepted && j.open_ == 0
    let s1 := if accepted && j.credits != 0 then
        (s.returnCredits j).updJob rid fun j => { j with credits := 0 } else s
    let due := if j.rq.sync then resolved else accepted
    let s2 := if due && !j.replied then
        (s1.writeReply j).updJob rid fun j => { j with replied := true } else s1
    if resolved then
      let s3 := if j.recanted != 0 && !j.rq.sync && (s.kit j.kit).rcnten && !(s.kit j.kit).suspended then
          match j.rq.via with
          | .ring r =>
            s2.sendDev { opc := 0x70, ktag := BitVec.ofNat 4 j.kit.val, ring := r, dest := j.rq.src, seq := 0,
                         param := BitVec.ofNat 64 (j.firstRecant.getD 0 % 2 ^ 40 + 2 ^ 40 * min 255 j.recanted
                           + 2 ^ 48 * j.rq.seq.toNat),
                         payload := [], tries := 0, notBefore := s.bar.beatno, engine := none, sid := 0, waiting := true, flitsOut := 0, strm := none, alertOf := none }
          | .i3c => s2
        else s2
      { s3 with jobs := s3.jobs.filter fun x => x.rid != rid }
    else s2

/-! ### Outcomes -/

/-- The earliest recanted chord after one more, the lower address first among those of one Beat (R295): address and Beat. -/
def earliest (old : Option (Nat × Nat)) (now a : Nat) : Nat × Nat :=
  match old with
  | none => (a, now)
  | some (b, t) => (if t == now then min a b else b, t)

/-- One chord of a write reached its outcome. -/
def WriteJob.resolve (j : WriteJob) (now a : Nat) (recant : Bool) : WriteJob :=
  let e := earliest (j.firstRecant.map fun b => (b, j.recantBeat)) now a
  { j with open_ := j.open_ - 1, lastOutcome := now, recanted := j.recanted + b2n recant,
           firstRecant := if recant then some e.1 else j.firstRecant,
           recantBeat := if recant then e.2 else j.recantBeat }

/-- Tell the writes of an entry its outcome, then settle them. -/
def State.resolveJobs (s : State) (rids : List Nat) (a : Nat) (recant : Bool) : State :=
  let s := { s with fences := updWhere (fun f => rids.any fun r => f.covers.contains r)
                      (fun f => { f with last := s.bar.beatno }) s.fences }
  forEach (fun (rid : Nat) (t : State) =>
    (t.updJob rid fun j => j.resolve s.bar.beatno a recant).settleJob rid) rids s

/-- Later entries of the chord take the value that this outcome leaves as their pre-image (R287). -/
def carryPre (s : State) (o : Option Kit) (a : Nat) (v : Option (List Byte)) : List WEntry :=
  updWhere (fun e => e.kind == .data && e.payer == o && e.kaddr == a && e.pre != .notNeeded)
    (fun e => { e with pre := .have v }) s.hold

/-- Queue a poison marker for a chord, once (R335). -/
def State.queueMarker (s : State) (c : Nat) : State :=
  if s.ecc.markq.contains (BitVec.ofNat 28 c) then s
  else { s with ecc := { s.ecc with markq := s.ecc.markq ++ [BitVec.ofNat 28 c] } }

/-- A Kit's unreported-recant state after one more recanted chord; a SYNC write's chord is not left to a FENCE (R285,
R293, log 11). -/
def KitSt.recant (x : KitSt) (a now : Nat) (sync : Bool) : KitSt :=
  let e := earliest (if x.kunrep == 0 then none else some (x.kfirst, x.kfirstBeat)) now a
  { x with krectot := up32 x.krectot 1,
           kunrep := if sync then x.kunrep else up16 x.kunrep 1,
           kfirst := if sync then x.kfirst else e.1,
           kfirstBeat := if sync then x.kfirstBeat else e.2 }

/-- Whether every write of an entry is a SYNC write. -/
def State.allSync (s : State) (rids : List Nat) : Bool :=
  !rids.isEmpty && rids.all fun r => match s.findJob r with | some j => j.rq.sync | none => false

/-- The Kit-side effects of a recant (R285): counters, record, events, Near, marker. -/
def State.recantKit (s : State) (k : Kit) (a c : Nat) (sync : Bool) : State :=
  let s1 := s.setKit k ((s.kit k).recant a s.bar.beatno sync)
  let s2 := { s1 with provRecanted := up32 s1.provRecanted 1, ecc := { s1.ecc with lastUncorr := (c, 4) } }
  (((s2.raise .prov 0x01).nearDrop k a).queueMarker c).queueRec (.recant k)

/-- A page record after its page-table chord is confirmed (R235). -/
def Page.commit (p : Page) (ch : PtChange) (dest : Nat) : Page :=
  match ch with
  | .backed => { p with stable := true }
  | .dirty sec => { p with dirty := p.dirty ||| BitVec.ofNat 16 (2 ^ sec.toNat),
                           dirtyDue := p.dirtyDue &&& ~~~ BitVec.ofNat 16 (2 ^ sec.toNat) }
  | .resident => { p with slot := some dest }
  | .rehomed => { p with home := .main dest, slot := none, dirty := 0, dirtyDue := 0,
                         mainPin := false, impliedPin := false }
  | .demoted => { p with home := .deep dest, mainPin := false }
  | .released => if p.dirty == 0 && p.dirtyDue == 0 then { p with slot := none } else p

/-- Remove the map entries of a Deep page, which end with its release (R260). -/
def Deep.dropPage (d : Deep) (page : Nat) : Deep := { d with map := d.map.filter fun e => e.page != page }

/-- The kind of move that a page-table change ends. -/
def PtChange.ends : PtChange → Option MoveKind
  | .resident => some .promote
  | .rehomed => some .rehome
  | .demoted => some .demote
  | .released => some (.writeBack true)
  | _ => none

/-- Tally kind of a move (Table 18.6 MOVE). -/
def MoveKind.code : MoveKind → Nat
  | .promote => 1
  | .rehome => 2
  | .demote => 3
  | .writeBack _ => 4
  | .nearFill _ => 1

/-- Strokes of a move: the first pulses of its chords, its programs and its page-table chord; retries are not counted. -/
def State.moveStrokes (s : State) (p : Page) (ch : PtChange) : Nat :=
  let n := ((List.range 16).filter fun i => !p.zero.getLsbD i).length
  let one := s.chordCost (ptChord p.index)
  match ch with
  | .demoted => 24 * ceilDiv n 4 + one
  | _ => one * (64 * n + 1)

/-- The MOVE record of a move that took effect (18 Table 18.6); a write-back has one for each sector instead. -/
def State.moveRecord (s : State) (m : Move) (p : Page) (ch : PtChange) : State :=
  let page := match ch with | .resident => p.index | _ => m.dest
  if ch == .released then s
  else s.tally 0x30 (some m.kit) (page % 2 ^ 24 + 2 ^ 24 * m.kind.code + 2 ^ 32 * s.moveStrokes p ch)

/-- Fills into Near that follow a promotion for a Near target (R240). -/
def nearMove (m : Move) : Move :=
  { m with kind := .nearFill m.thenNear, reads := 0, retries := 0, lost := 0, todo := [], progs := 0, table := false,
           entry := false, going := false }

/-- Whether a write since its copy keeps a move from taking effect: every chord of the page must be at its destination
first (R252). -/
def State.unquiet (s : State) (m : Move) : Bool :=
  (m.kind == .rehome || m.kind == .demote) &&
    ((s.hold.any fun e => e.kind == .data && e.payer == some m.kit && kpOf e.kaddr == m.kp)
      || (s.hold.any fun e => e.kind == .move m.kit m.kp) || (s.chordq.any fun q => q.1 == .move m.kit m.kp)
      || s.merge.toList.any (fun x => match x with | some e => e.kit == m.kit && kpOf e.kaddr == m.kp | none => false)
      || (m.kind == .demote && (match s.findPage m.kit m.kp with | some p => p.redirty != 0 | none => false)))

/-- PAGE_TABLE_COMMIT (R235): the change takes effect, the move that it ends is over. -/
def State.commitPt (s : State) (k : Kit) (kp : KPage) (ch : PtChange) : State :=
  match ch.ends with
  | none => s.updPage k kp fun p => p.commit ch 0
  | some mkd =>
    match s.moves.find? fun m => m.kit == k && m.kp == kp && m.kind == mkd && m.table with
    | none => s
    | some m =>
      let f := fun (x : Move) => { x with table := false }
      if s.unquiet m then { s with moves := updWhere (fun x => x.kit == k && x.kp == kp && x.kind == mkd) f s.moves }
      else
      let old := s.findPage k kp
      let s1 := s.updPage k kp fun p => p.commit ch m.dest
      let s2 := match ch, old with
        | .rehomed, some p => match p.home with
          | .deep d => { s1 with deep := s1.deep.dropPage d }
          | .main _ => s1
        | _, _ => s1
      let rest := s2.moves.filter fun x => !(x.kit == k && x.kp == kp && x.kind == mkd)
      let tier := { s2.tier with promotions := up32 s2.tier.promotions (b2n (mkd == MoveKind.promote)),
                                 moves := up32 s2.tier.moves (b2n m.pass) }
      let s3 := { s2 with tier := tier,
                          moves := if mkd == MoveKind.promote && m.thenNear then rest ++ [nearMove m] else rest }
      match old with
      | some p => s3.moveRecord m p ch
      | none => s3

/-- The outcome of a data chord of a page being re-homed is applied to the destination as well, once copied (R252). -/
def State.mirrorMove (s : State) (o : Kit) (a : Nat) (v : Option (List Byte)) : State :=
  match s.moves.find? fun m => m.kit == o && m.kp == kpOf a && m.kind == .rehome && m.going with
  | some m =>
    if m.todo.contains (chordIn a) then s
    else match v with
      | some d => s.queueChord (.move o (kpOf a)) (some o) a (frameAt m.dest a) d
      | none => s.queueChord .marker (some o) a (frameAt m.dest a) (zeros 64)
  | none => s

/-- The slices of an entry: the marker's for a marker; a Kit's data, a move's and a zero fill's encrypted (08 R215); metadata
and rewritten slices as they are (log 22). -/
def State.entrySlices (s : State) (e : WEntry) : List (List Byte) :=
  match e.kind, e.payer with
  | .marker, _ => markerSlices
  | .data, some k => encodeChord (s.sealed k e.kaddr e.data)
  | .move o _, _ => encodeChord (s.sealed o e.kaddr e.data)
  | _, _ => encodeChord e.data

/-- The slices stored at an outcome: a failing slice holds undefined bytes (R492, free values of log 2). -/
def outcomeSlices (sl : List (List Byte)) (failing : Slices) (free : Nat) : List (List Byte) :=
  ((List.range 10).zip sl).map fun x => if failing.getLsbD x.1 then freeBytes (free + 8 * x.1) 8 else x.2

/-- Store an entry's slices in the array. -/
def State.storeEntry (s : State) (e : WEntry) (failing : Slices) : State :=
  (s.store e.chord.toNat (outcomeSlices (s.entrySlices e) failing s.free) (s.fullMask e.chord.toNat)).spend
    (if failing == 0 then 0 else 80)

/-- The entry leaves the buffer; a data entry still decides what reads of this Beat see (R281, R287). -/
def State.freeEntry (s : State) (e : WEntry) : State :=
  { s with hold := s.hold.filter (fun x => x.ent != e.ent),
           justOut := if e.kind == .data then s.justOut ++ [e] else s.justOut,
           confMax := (s.confMax.1, max s.confMax.2 (min 31 (elapsed e.first s.bar.beatno))) }

/-- The RECANTED count and first address of a request's stage or Muffle chords after one more outcome: a metadata chord has no
kit address, so the address is 64 × its device chord index (DESIGN CHOICE, log 119). -/
def StageJob.resolve (j : StageJob) (now c : Nat) (bad : Bool) : StageJob :=
  let e := earliest (j.first) now (64 * c)
  { j with left := j.left - 1, recanted := j.recanted + b2n bad, first := if bad then some e else j.first }

/-- A Rudiment stage or Muffle chord of a request reached its outcome (07 R180, R181). -/
def State.stageDone (s : State) (rids : List Nat) (c : Nat) (bad : Bool) : State :=
  { s with stageJobs := updWhere (fun j => rids.contains j.rid) (fun j => j.resolve s.bar.beatno c bad) s.stageJobs }

/-- A chord of a slot's array copy is in the array (07 R181). -/
def State.staged (s : State) (k : Kit) (slot : Fin 8) (i : Nat) : State :=
  let old := (s.stages.find? fun x => x.kit == k && x.slot == slot).getD ⟨k, slot, []⟩
  { s with stages := (s.stages.filter fun x => !(x.kit == k && x.slot == slot))
      ++ [{ old with chords := i :: old.chords.filter fun x => x != i }] }

/-- What the outcome of an entry brings, by what it was for: confirmed, confirmed weak, or recanted (R284, R285). -/
def State.concluded (s : State) (e : WEntry) (good weak : Bool) (failing : Slices) : State :=
  let c := e.chord.toNat
  let ok := good && !weak
  match e.kind with
  | .data =>
    match e.payer with
    | none => s
    | some k =>
      if good then
        let s := { s with hold := carryPre s e.payer e.kaddr (some e.data) }
        let s := s.mirrorMove k e.kaddr (some e.data)
        let s := if weak then s.tally 0x10 (some k) (e.kaddr % 2 ^ 40 + 2 ^ 40 * e.pulses) else s
        s.resolveJobs e.rids e.kaddr false
      else
        let s := ({ s with hold := carryPre s e.payer e.kaddr none }).mirrorMove k e.kaddr none
        let s := (s.recantKit k e.kaddr c (s.allSync e.rids)).tally 0x11 (some k)
          (e.kaddr % 2 ^ 40 + 2 ^ 40 * e.pulses)
        s.resolveJobs e.rids e.kaddr true
  | .pageTable k kp ch => if good then s.commitPt k kp ch else s.fatal 0x03 c
  | .move _ _ => if good then s else { (s.queueMarker c) with provRecanted := up32 s.provRecanted 1 }
  | .muffle k kp =>
    let s := if good then s
      else { s.queueMarker c with muffles := updWhere (fun m => m.kit == k && m.kp == kp) (fun m => { m with bad := true }) s.muffles }
    s.stageDone e.rids c (!good)
  | .stage k slot =>
    (if good then s.staged k slot (c - stageChord k slot 0) else s.queueMarker c).stageDone e.rids c (!good)
  | .marker =>
    if ok then s
    else
      (sliceList failing).foldl (fun (t : State) p => t.bankGoesOut (t.rep.role.toList.getD p 0) (bankOf c)) s
  | .fix =>
    if ok then
      ({ s with ecc := { s.ecc with fixed := up32 s.ecc.fixed (sliceCount e.slices) } }).tally 0x50 none
        (c + 2 ^ 32 * sliceCount e.slices)
    else s
  | .shadow slots => if !good && s.gen.logdeg then s.fatal 0x05 (slots.head?.getD s.bel.shadowHead) else s
  | .knell copy ix =>
    if !good then s
    else
      let last := ix + 1 == ceilDiv s.knl.record.length 64
      { s with knl := { s.knl with
          confirmed := if copy then (s.knl.confirmed.1, s.knl.confirmed.2 + 1)
                       else (s.knl.confirmed.1 + 1, s.knl.confirmed.2),
          trailer := if copy then (s.knl.trailer.1, s.knl.trailer.2 || last)
                     else (s.knl.trailer.1 || last, s.knl.trailer.2) } }

/-- A chord reached its outcome: confirmed, confirmed weak, or recanted (R283 to R285, R335). `failing` holds the slices
that still fail. -/
def State.outcome (s : State) (e : WEntry) (failing : Slices) : State :=
  let c := e.chord.toNat
  let ok := failing == 0
  -- neither a marker (R335) nor a rewrite of corrected slices (R354) stands with a failing slice
  let weak := !ok && e.kind != .marker && e.kind != .fix && sliceCount failing == 1 && !s.dieOutAt c
  let good := ok || weak
  let s := (s.storeEntry e failing).freeEntry e
  -- a confirmed write replaces the poison that an earlier recant left (R286)
  let marks := if good && e.kind != WKind.fix then s.ecc.markq.filter fun x => x != e.chord else s.ecc.markq
  let s1 := { s with
    provConfirmed := up32 s.provConfirmed (b2n good), provWeak := up32 s.provWeak (b2n weak),
    rep := if ok || e.kind == WKind.marker then s.rep else s.rep.addFaults s.bar.beatno c failing, ecc := { s.ecc with markq := marks } }
  s1.concluded e good weak failing

/-- The slices of a role mask that give no answer fail their verify (14 R359). -/
def State.silentMask (s : State) (c : Nat) : Slices :=
  BitVec.ofNat 11 (((List.range 10).filter fun r => s.pins.silent.getLsbD (s.rep.physAt r c)).map fun r => 2 ^ r).sum

/-- The slices that the array pulses: those of roles in service (R359). -/
def State.pulsable (s : State) (c : Nat) : Slices :=
  BitVec.ofNat 11 (((List.range 10).filter fun r =>
    !((s.rep.rolesOut.getLsbD r && !s.rep.rebuilt r c) || s.rep.bankOut (s.rep.physAt r c) (bankOf c))).map
      fun r => 2 ^ r).sum ||| 0x400

/-- The verify of an entry's last pulse (R283): confirmed, a retry group three Beats after the pulse, or the outcome
after the seventh pulse. -/
def State.verifyEntry (s : State) (e : WEntry) (failing : Slices) : State :=
  let c := e.chord.toNat
  let bad := (failing ||| s.silentMask c) &&& e.slices &&& s.pulsable c
  if bad == 0 || 7 ≤ e.pulses then s.outcome e bad
  else
    let p := match e.phase with | .pulsed b => b | _ => s.bar.beatno
    let f := fun (x : WEntry) => { x with slices := bad, phase := .retry ((p + 3) % Config.beatWrap) }
    { s with hold := updWhere (fun x => x.ent == e.ent) f s.hold }

/-- `n` more pulses, `first` of them the first of a die-slice write, on each live slice of a mask of a chord (R85). -/
def State.wearSlices (s : State) (c : Nat) (m : Slices) (n first : Nat) : State :=
  let die := fun r => (List.finRange 11).getD (if r == 10 then s.rep.newUnitDie c else s.rep.physAt r c) 0
  let add := fun (k : Nat) (v : Vector Nat 11) =>
    (sliceList (m &&& s.pulsable c)).foldl (fun (v : Vector Nat 11) r => v.set (die r) (v[die r] + k)) v
  { s with stk := { s.stk with pulses := add n s.stk.pulses, writes := add first s.stk.writes } }

/-- A funded group issues: a first pulse or a retry group (R283). Wear counts each slice pulse and write (R85). -/
def State.pulse (s : State) (ent : Nat) : State :=
  match s.hold.find? fun e => e.ent == ent with
  | none => s
  | some e =>
    let n := sliceCount e.slices
    let t := s.wearSlices e.chord.toNat e.slices 1 (b2n (e.pulses == 0))
    let f := fun (x : WEntry) => { x with phase := .pulsed s.bar.beatno, pulses := x.pulses + 1,
                                          first := if x.pulses == 0 then s.bar.beatno else x.first }
    { t with
      hold := updWhere (fun x => x.ent == ent) f s.hold,
      provRetry := if e.pulses == 0 then s.provRetry else up32 s.provRetry n }

/-! ### Merge buffer (R290, R291) -/

/-- The index of an open merge entry. -/
def State.mergeIx (s : State) (k : Kit) (a : Nat) : Option (Fin 64) :=
  (List.finRange 64).find? fun i => match s.merge[i] with | some m => m.kit == k && m.kaddr == a | none => false

/-- Set a merge entry. -/
def State.setMerge (s : State) (i : Fin 64) (m : Option MEntry) : State := { s with merge := s.merge.set i m }

/-- The window in which a page's writes of a Kit are mapped reads shared: the entry of a whole chord of data. -/
def State.pushData (s : State) (k : Kit) (rids : List Nat) (a c : Nat) (d : List Byte) : State :=
  let p := s.capture k a
  p.2.pushEntry { mkEntry .data (some k) false a c d (s.fullMask c) s.bar.beatno with rids := rids, pre := p.1 }

/-- A narrow chord whose base is poisoned: accepted and recanted in this Beat, with no pulse (13 R338). -/
def State.recantNarrow (s : State) (k : Kit) (rids : List Nat) (a c : Nat) : State :=
  ((s.recantKit k a c (s.allSync rids)).tally 0x11 (some k) (a % 2 ^ 40)).resolveJobs rids a true

/-- Close a merge entry: a full mask needs no read; otherwise the Kit's view is read, with a token if it comes from the
array, and the masked bytes laid over it (R290). Without the token it is only marked, to close as soon as it can. -/
def State.closeMerge (i : Fin 64) (s : State) : State :=
  match s.merge[i] with
  | none => s
  | some m =>
    let c := m.chord.toNat
    let full := m.mask == BitVec.allOnes 64
    let later := s.setMerge i (some { m with closing := true })
    let s0 := { (s.setMerge i none) with
      mergeClose := if full then (up16 s.mergeClose.1 1, s.mergeClose.2) else (s.mergeClose.1, up16 s.mergeClose.2 1) }
    let push := fun (t : State) (d : List Byte) => (t.pushData m.kit m.rids m.kaddr c d).nearWrite m.kit m.kaddr d
    if full then push s0 m.data
    else
      let es := s0.entriesOf m.kit m.kaddr
      let base := match (es.filter fun e => e.phase != .merging).getLast? with
        | some e => View.val e.data
        | none => s0.stored m.kit m.kaddr
      match base with
      | .val d => push s0 (overlay m.mask m.data d)
      | .poison => s0.recantNarrow m.kit m.rids m.kaddr c
      | .array c' _ _ =>
        match s0.kitToken m.kit with
        | none => later
        | some t =>
          match (t.decodeOf m.kit m.kaddr c').value with
          | some d => push (t.readArray 1 c') (overlay m.mask m.data d)
          | none => (t.readArray 1 c').recantNarrow m.kit m.rids m.kaddr c
      | _ => later

/-- Close every open merge entry of a Kit that satisfies `p`. -/
def State.closeMerges (s : State) (p : MEntry → Bool) : State :=
  forEach (fun (i : Fin 64) (t : State) =>
    match t.merge[i] with | some m => if p m then t.closeMerge i else t | none => t) (List.finRange 64) s

/-- The merge entries that wait for a token to close take the tokens of a Beat. -/
def State.mergesGoOn (s : State) : State := s.closeMerges fun m => m.closing

/-- Merge entries that a Kit may hold in Strict Tempo (R291). -/
def State.mergeShare (s : State) : Nat := 64 / max 1 s.liveKits.length

/-- The oldest open entry that satisfies `p`, the lower index on equal age (R291). -/
def State.oldestMerge (s : State) (p : MEntry → Bool) : Option (Fin 64) :=
  let cand := (List.finRange 64).filterMap fun i => match s.merge[i] with
    | some m => if p m then some (m.opened, i.val) else none
    | none => none
  (victim s.bar.beatno cand).bind fun v => (List.finRange 64).find? fun i => i.val == v.2

/-- MERGE_ENTRY_EVICT (R291): room for one more merge entry of a Kit. -/
def State.mergeRoom (s : State) (k : Kit) : State :=
  let own := (s.merges.filter fun m => m.kit == k).length
  if s.strictNow && s.mergeShare ≤ own then
    match s.oldestMerge (fun m => m.kit == k) with | some i => s.closeMerge i | none => s
  else if s.merges.length < Config.mergeEntries then s
  else match s.oldestMerge (fun _ => true) with | some i => s.closeMerge i | none => s

/-- A free merge entry. -/
def State.freeMerge (s : State) : Option (Fin 64) := (List.finRange 64).find? fun i => (s.merge[i]).isNone

/-! ### Acceptance (R76, R82, R281, R290 to R292) -/

/-- A chord of a job is accepted: one of the credits that the job still holds returns to its Kit (R81, R175). -/
def State.creditBack (s : State) (rid : Nat) (k : Kit) : State :=
  let had := match s.findJob rid with | some j => min 1 j.credits | none => 0
  (s.updJob rid fun j => { j with credits := j.credits - 1 }).setKit k { s.kit k with taken := (s.kit k).taken - had }

/-- A chord of a job is accepted: credit back, counts, heat, Near (R81, R241, R245). -/
def State.acceptedUnit (s : State) (rid : Nat) (k : Kit) (u : WUnit) (whole : Bool) : State :=
  let s1 := (s.creditBack rid k).updJob rid fun j => { j with todo := j.todo.drop 1, open_ := j.open_ + 1,
                                                              lastAccept := s.bar.beatno }
  let s3 := (s1.heat k u.kaddr 1).touch k u.kaddr
  if whole then s3.nearWrite k u.kaddr u.data else s3

/-- Chords that a write will not bring after all, in the zero sectors that it filled, are filled too (R217, R233; log 126). -/
def State.zeroRest (s : State) (p : WriteJob → Bool) : State :=
  forEach (fun (j : WriteJob) (t : State) =>
    forEach (State.zeroChord j.kit) ((j.todo.map fun u => u.kaddr).filter fun a => j.zeroed.contains (a / 4096)) t)
    (s.jobs.filter p) s

/-- Chords of a job's write that touch a sector. -/
def WriteJob.touched (j : WriteJob) (a : Nat) : List Nat :=
  (j.todo.filter fun u => u.mask != 0 && u.kaddr / 4096 == a / 4096).map fun u => u.kaddr

/-- The page of a chord, ready to be written: backed, its zero sector filled. `none` waits or cannot be backed. -/
inductive PageReady
  | ready (s : State) (c : Nat)
  | wait (s : State)
  | full
deriving DecidableEq

/-- The sectors of a mask. -/
def sectors (m : BitVec 16) : List (BitVec 4) := ((List.range 16).filter fun i => m.getLsbD i).map (BitVec.ofNat 4)

/-- Sectors of a page with a pending entry: a write-back leaves them dirty (R247, R252). -/
def State.pendingSectors (s : State) (k : Kit) (kp : KPage) : BitVec 16 :=
  (s.hold.filter fun e => e.kind == .data && e.payer == some k && kpOf e.kaddr == kp).foldl
    (fun m e => m ||| BitVec.ofNat 16 (2 ^ (secOf e.kaddr).toNat)) 0

/-- The chords of the sectors of a mask, within their page. -/
def chordsIn (m : BitVec 16) : List Nat :=
  ((sectors m).map fun x => (List.range 64).map fun i => 64 * x.toNat + i).flatten

/-- A move of a page, begun, with nothing to do. -/
def mkMove (k : Kit) (kp : KPage) (kind : MoveKind) (dest : Nat) : Move :=
  { kit := k, kp := kp, kind := kind, dest := dest, reads := 0, retries := 0, lost := 0, todo := [], progs := 0,
    table := false, pass := false, thenNear := false, fetch := none, entry := false, going := true }

/-- Add a move. -/
def State.addMove (s : State) (m : Move) : State := { s with moves := s.moves ++ [m] }

/-- A write-back of a page's dirty sectors starts, and releases the slot at its end where `release` says so (R246,
R247): merge entries of the page close, its sectors are read and wait to be packed (10 R259). -/
def State.startWriteBack (s : State) (k : Kit) (kp : KPage) (release : Bool) : State :=
  if s.moving k kp then s
  else
    let s := s.closeMerges fun m => m.kit == k && kpOf m.kaddr == kp
    match s.findPage k kp with
    | none => s
    | some p =>
      if p.slot.isNone || p.dirty == 0 then s
      else
        (s.updPage k kp fun q => { q with redirty := s.pendingSectors k kp }).addMove
          { mkMove k kp (.writeBack release) p.index with todo := chordsIn p.dirty, progs := p.dirty }

/-- Whether a request in service still reads or writes a page of an owner, so that its slot is busy (R248). -/
def State.busyPage (s : State) (o : Kit) (kp : KPage) : Bool :=
  (s.reads.any fun j => j.todo.any fun a =>
    match s.windowAt j.kit a with
    | some w => (w.owner j.kit a).1 == o && kpOf (w.owner j.kit a).2 == kp
    | none => false)
  || s.jobs.any fun j => j.kit == o && j.todo.any fun u => kpOf u.kaddr == kp

/-- The pages whose Residency slot a Kit may evict: unpinned and unbusy (R248). -/
def State.slotVictims (s : State) (k : Kit) : List Page :=
  s.pages.filter fun q => q.slot.isSome && !q.mainPin && !q.impliedPin && s.mayEvict false k q.kit
    && !s.moving q.kit q.kp && !s.busyPage q.kit q.kp
    && !(s.moves.any fun m => m.kind == .promote && some m.dest == q.slot)

/-- The victim page of a Kit's share of the Residency pool (R248). -/
def State.slotVictim (s : State) (k : Kit) : Option Page :=
  let cand := s.slotVictims k
  (victim s.bar.beatno (cand.map fun q => (q.age, q.slot.getD 0))).bind fun v => cand.find? fun q => q.slot == some v.2

/-- A slot for a promotion: a free one of the Kit's share, or a victim's, with the victim; none where it has neither (R248). -/
def State.pickSlot (s : State) (k : Kit) : Option (Nat × Option Page) :=
  if s.shareRoom false k s.slotHeld s.usedSlots.length then
    some (lowestFree s.usedSlots s.usedSlots.length 0, none)
  else (s.slotVictim k).map fun q => (q.slot.getD 0, some q)

/-- A victim gives its slot up: a dirty one is written back first, and its slot is released by its page-table chord (R235,
R247, R248). -/
def State.evict (s : State) (q : Page) : State :=
  if s.moving q.kit q.kp then s
  else if q.dirty == 0 && q.dirtyDue == 0 then s.addMove (mkMove q.kit q.kp (.writeBack true) q.index)
  else s.startWriteBack q.kit q.kp true

/-- Whether a promotion-buffer entry is free (10 R262). -/
def State.entryLeft (s : State) : Bool := (s.moves.filter fun m => m.entry).length < Config.promoEntries

/-- A promotion of a Deep-homed page into Residency starts, unless one runs; it waits for a victim's slot (R173, R248; 10
R262). -/
def State.startPromote (s : State) (k : Kit) (kp : KPage) (near : Bool) (fetch : Option (Engine × Option Nat)) : State :=
  if s.moving k kp then s
  else
    match s.findPage k kp with
    | none => s
    | some p =>
      match s.pickSlot k with
      | none => s.raise .tier 0x02
      | some (n, none) =>
        s.addMove { mkMove k kp .promote n with
          reads := ~~~ p.zero, thenNear := near, fetch := fetch, entry := s.entryLeft }
      | some (n, some q) =>
        let s1 := if q.dirty == 0 && q.dirtyDue == 0 then s else s.raise .tier 0x02
        (s1.evict q).addMove { mkMove k kp .promote n with going := false, thenNear := near, fetch := fetch }

/-- Make a chord's page ready for a write (R232 to R235, R173). -/
def State.readyPage (s : State) (j : WriteJob) (a : Nat) : PageReady :=
  let k := j.kit
  let s1? := match s.findPage k (kpOf a) with
    | some _ => some s
    | none => (s.backChoice k (s.autoAt k (kpOf a))).map fun h => s.backAt k (kpOf a) h
  match s1? with
  | none => .full
  | some s1 =>
    match s1.findPage k (kpOf a) with
    | none => .full
    | some p =>
      if p.deepPage.isSome && p.slot.isNone && p.zero != 0xFFFF then .wait (s1.startPromote k (kpOf a) false none)
      else
        -- a Deep-homed page without data becomes resident at once: there is nothing to promote
        let s2 := if p.deepPage.isSome && p.slot.isNone then s1.startPromote k (kpOf a) false none else s1
        match s2.findPage k (kpOf a) with
        | none => .full
        | some p2 =>
          if p2.deepPage.isSome && p2.slot.isNone then .wait s2
          else
            let s3 := if p2.zero.getLsbD (secOf a).toNat then 
                (s2.zeroFill k a (j.touched a)).updJob j.rid fun x => { x with zeroed := x.zeroed ++ [a / 4096] }
              else s2
            match s3.locate k a with
            | .main c => .ready s3 c
            | _ => .wait s3

/-- Whether a chord's sector passes from clean to dirty with this write, which needs one more chord (R246). -/
def State.dirties (s : State) (k : Kit) (a : Nat) : Bool :=
  match s.findPage k (kpOf a) with
  | some p => p.deepPage.isSome && !(p.dirty ||| p.dirtyDue).getLsbD (secOf a).toNat
  | none => false

/-- First-pulse cost of the page-table chord of a page, from its index (R235, R62). -/
def State.dirtyCost (s : State) (k : Kit) (a : Nat) : Nat :=
  match s.findPage k (kpOf a) with
  | some p => s.chordCost (ptChord p.index)
  | none => 0

/-- The page-table chord that sets a dirty bit, accepted with the write's chord and held in its share (R246). -/
def State.pushDirty (s : State) (k : Kit) (a : Nat) : State :=
  match s.findPage k (kpOf a) with
  | none => s
  | some p =>
    let c := ptChord p.index
    let bit := BitVec.ofNat 16 (2 ^ (secOf a).toNat)
    (s.updPage k (kpOf a) fun q => { q with dirtyDue := q.dirtyDue ||| bit }).pushEntry
      (mkEntry (.pageTable k (kpOf a) (.dirty (secOf a))) (some k) false a c (zeros 64) (s.fullMask c) s.bar.beatno)

/-- A write accepted into a sector whose write-back is in progress leaves it dirty afterwards (R247). -/
def State.redirty (s : State) (k : Kit) (a : Nat) : State :=
  s.updPage k (kpOf a) fun p => { p with redirty := p.redirty ||| BitVec.ofNat 16 (2 ^ (secOf a).toNat) }

/-- The narrow-write mode of a chord's window: RMW or Merge (R213). -/
def State.rmwAt (s : State) (k : Kit) (a : Nat) : Bool :=
  match s.windowAt k a with | some w => w.rmw | none => false

/-- What the acceptance of a unit costs beyond its own chord: the page-table chord of a sector that turns dirty (R246). -/
def State.tableCost (s : State) (k : Kit) (a : Nat) : Nat := if s.dirties k a then s.dirtyCost k a else 0

/-- Whether share and an entry allow a unit that takes an entry of its own (R76, R281). -/
def State.wholeFits (s : State) (j : WriteJob) (u : WUnit) (c : Nat) : Bool :=
  s.shareFits j.kit (s.chordCost c + s.tableCost j.kit u.kaddr) && s.entriesFree (1 + b2n (s.dirties j.kit u.kaddr))

/-- The merge entries that a unit which fits needs closed ahead of it: that of its chord for a full or RMW write, else one to
make room (R290, R291). -/
def State.closeFor (s : State) (j : WriteJob) (u : WUnit) (c : Nat) : State :=
  if u.mask == BitVec.allOnes 64 || s.rmwAt j.kit u.kaddr then
    if s.wholeFits j u c then s.closeMerges fun m => m.kit == j.kit && m.kaddr == u.kaddr else s
  else if (s.mergeIx j.kit u.kaddr).isSome || !s.shareFits j.kit (s.chordCost c + s.tableCost j.kit u.kaddr) then s
  else s.mergeRoom j.kit

/-- Accept a narrow chord into the merge buffer: into the chord's open entry, or into a free one (R290). -/
def State.acceptMerge (s : State) (j : WriteJob) (u : WUnit) (c : Nat) : Option State :=
  match s.mergeIx j.kit u.kaddr with
  | some i =>
    match s.merge[i] with
    | some m =>
      if m.closing then none
      else
      let m' : MEntry := { m with data := overlay u.mask u.data m.data, mask := m.mask ||| u.mask, rids := m.rids ++ [j.rid] }
      let s1 := (s.setMerge i (some m')).acceptedUnit j.rid j.kit u false
      some (if m'.mask == BitVec.allOnes 64 || j.rq.sync then s1.closeMerge i else s1)
    | none => none
  | none =>
    if !s.shareFits j.kit (s.chordCost c) then none
    else
      let s1 := s.mergeRoom j.kit
      if s1.strictNow && s1.mergeShare ≤ (s1.merges.filter fun m => m.kit == j.kit).length then none
      else match s1.freeMerge with
      | none => none
      | some i =>
        let m : MEntry := ⟨j.kit, u.kaddr, BitVec.ofNat 28 c, u.data, u.mask, s.bar.beatno, [j.rid], false⟩
        let s2 := (s1.setMerge i (some m)).acceptedUnit j.rid j.kit u false
        some (if j.rq.sync then s2.closeMerge i else s2)

/-- Accept the next chord of a job, if share and an entry allow (CHORD_ACCEPT, R76, R281). `none`: it waits. -/
def State.acceptUnit (s : State) (j : WriteJob) (u : WUnit) : Option State :=
    match (s.notePrior j.kit u.kaddr).readyPage j u.kaddr with
    | .full =>
      let done := j.cutAt.getD (u.kaddr - addrOf j.rq)
      some (s.updJob j.rid fun j => { j with todo := [], cutAt := some done })
    | .wait _ => none
    | .ready s1 c =>
      let full := u.mask == BitVec.allOnes 64
      let table := s1.dirties j.kit u.kaddr
      let extra := s1.tableCost j.kit u.kaddr
      if !full && !s1.rmwAt j.kit u.kaddr then
        let more := if (s1.mergeIx j.kit u.kaddr).isSome then extra else s1.chordCost c + extra
        if (more != 0 && !s1.shareFits j.kit more) || !s1.entriesFree (b2n table) then none
        else
        let s2 := if table then s1.pushDirty j.kit u.kaddr else s1
        (s2.redirty j.kit u.kaddr).acceptMerge j u c
      else if !s1.wholeFits j u c then none
      else
        let s2 := s1.closeFor j u c
        if (s2.mergeIx j.kit u.kaddr).isSome then none
        else
        let s3 := (if table then s2.pushDirty j.kit u.kaddr else s2).redirty j.kit u.kaddr
        if full then
          some ((s3.pushData j.kit [j.rid] u.kaddr c u.data).acceptedUnit j.rid j.kit u true)
        else
          let e := { mkEntry .data (some j.kit) false u.kaddr c u.data (s3.fullMask c) s.bar.beatno with
                     rids := [j.rid], phase := .merging, mask := u.mask }
          some ((s3.pushEntry e).updJob j.rid fun j => { j with todo := j.todo.drop 1, open_ := j.open_ + 1 })

/-- Accept chords of one job in address order while they fit. -/
def State.acceptJob (rid : Nat) : Nat → State → State
  | 0, s => s.settleJob rid
  | fuel + 1, s =>
    match s.findJob rid with
    | none => s
    | some j =>
      match j.todo with
      | [] => s.settleJob rid
      | u :: _ =>
        match s.acceptUnit j u with
        | some s' => s'.acceptJob rid fuel
        | none =>
          match s.readyPage j u.kaddr with
          | .wait s' => s'
          | .ready _ c => s.closeFor j u c
          | .full => s

/-- Accept a Kit's waiting chords in admission order (R281): a job is not passed by a later one of the same Kit. -/
def State.acceptKit (k : Kit) (s : State) : State :=
  forEach (fun (rid : Nat) (t : State) =>
    let first := (t.jobs.filter fun j => j.kit == k && !j.todo.isEmpty).head?
    match first with
    | some j => if j.rid == rid then t.acceptJob rid (j.todo.length + 1) else t
    | none => t) ((s.jobs.filter fun j => j.kit == k).map fun j => j.rid) s

/-! ### Maintenance chord writes (13 R335, R339, R340; Table 3.2 R489) -/

/-- Take the oldest poison marker into an entry, unless the chord has a pending write (R335). -/
def State.takeMarker (s : State) : Option State :=
  match takeFirst (fun c => !s.entryAt c.toNat) s.ecc.markq with
  | none => none
  | some (c, rest) =>
    if s.maintFits (s.chordCost c.toNat) then
      some (({ s with ecc := { s.ecc with markq := rest } }).pushEntry
        (mkEntry .marker none true 0 c.toNat (zeros 64) (s.fullMask c.toNat) s.bar.beatno))
    else none

/-- Whether a write of a chord was accepted since a fix's read: a read sees only writes accepted before its Beat (R287,
R340). -/
def State.writtenSince (s : State) (c : ChordIx) (beat : Nat) : Bool :=
  s.hold.any (fun e => e.chord == c && elapsed beat e.accepted < 2 ^ 47)
    || s.merge.toList.any fun m => match m with | some e => e.chord == c | none => false

/-- Fixes that a newer write supersedes are dropped and counted, in the Beats in which that write is pending (R340). -/
def State.dropFixes (s : State) : State :=
  let old := s.ecc.fixq.filter fun x => s.writtenSince x.1 x.2.2
  let ecc := { s.ecc with fixq := s.ecc.fixq.filter fun x => !s.writtenSince x.1 x.2.2, skip := up32 s.ecc.skip old.length }
  { s with ecc := ecc }

/-- FIX_QUEUE_REWRITE: take the oldest fix into an entry, or drop it when its chord has a pending write (R339, R340). -/
def State.takeFix (s : State) : Option State :=
  match s.ecc.fixq with
  | [] => none
  | (c, mask, _) :: rest =>
    if s.entryAt c.toNat || s.markerOwed c.toNat then
      some { s with ecc := { s.ecc with fixq := rest, skip := up32 s.ecc.skip 1 } }
    else if s.maintFits (sliceCount mask) then
      let o := s.decodeAt c.toNat
      some (({ s with ecc := { s.ecc with fixq := rest } }).pushEntry
        (mkEntry .fix none true 0 c.toNat o.data mask s.bar.beatno))
    else none

/-- The Beat in which a queued chord write counts as accepted: a page-table chord in the Beat in which it is taken, any
other in the Beat before, in which its data was there, so that its pulse may issue at once (10 and 12, worked cases). -/
def State.takenAt (s : State) (kind : WKind) : Nat :=
  match kind with
  | .pageTable _ _ _ => s.bar.beatno
  | _ => (s.bar.beatno + Config.beatWrap - 1) % Config.beatWrap

/-- Take a queued chord write of the device into an entry. -/
def State.takeChord (q : WKind × Option Kit × Nat × ChordIx × List Byte) (s : State) : State :=
  let c := q.2.2.2.1.toNat
  -- a Muffle or stage chord carries its request's number in place of a kit address
  let rids := match q.1 with
    | .muffle _ _ => [q.2.2.1]
    | .stage _ _ => [q.2.2.1]
    | _ => []
  s.pushEntry { mkEntry q.1 q.2.1 true q.2.2.1 c q.2.2.2.2 (s.fullMask c) (s.takenAt q.1) with rids := rids }

/-- Take the queued chord writes in order: those of moves at once (log 101), the others while the maintenance parts have room
(13 R335). -/
def State.takeChords (s : State) : State :=
  let one := fun (q : WKind × Option Kit × Nat × ChordIx × List Byte) (t : State) =>
    let free := match q.1 with | .move _ _ => true | _ => false
    if free || (t.chordq.isEmpty && t.maintFits (t.chordCost q.2.2.2.1.toNat)) then t.takeChord q else { t with chordq := t.chordq ++ [q] }
  forEach one s.chordq { s with chordq := [] }

/-- Fill the maintenance entries: markers, then fixes (R489). -/
def fillEntries (f : State → Option State) : Nat → State → State
  | 0, s => s
  | n + 1, s => match f s with | some s' => fillEntries f n s' | none => s

/-- The writes of the device take their entries. -/
def State.maintFill (s : State) : State :=
  State.takeChords (fillEntries State.takeFix 64 (fillEntries State.takeMarker 16 s).dropFixes)

end Sys2Proof.Machine
end

