-- ==== Sys2Proof/Machine/Csr.lean ====
section
/-! DEFINITION. The CSR space (19 and the register table of every chapter): what each offset reads, which Kits may read
and write it, which values a field takes, and what a write stores. -/

namespace Sys2Proof.Machine

/-! ### Counts that registers show -/

/-- Good blocks of the Deep dies in service, less the map and journal blocks: the blocks for sectors (10 R258). -/
def Deep.goodBlocks (d : Deep) : Nat := (d.dies.toList.map fun x => if x.failed then 0 else x.good).sum

/-- Blocks that hold sectors. -/
def Deep.usedBlocks (d : Deep) : Nat := (d.blks.filter fun b => b.fill != 0 && !b.retired).length

/-- Erased free blocks: DEEP_FREE_BLK. The first 64 blocks of each die hold the map and journal. -/
def Deep.freeBlk (d : Deep) : Nat := d.goodBlocks - 256 - d.usedBlocks

/-- Erase counts of the good blocks: sum, highest, lowest. A block without history counts 0. -/
def Deep.erases_ (d : Deep) : Nat × Nat × Nat :=
  let es := (d.blks.filter fun b => !b.retired).map fun b => b.erases
  (es.sum, es.foldl max 0, if es.length < d.goodBlocks then 0 else es.foldl min 65535)

/-- REDO entries in use (11 R300). -/
def State.redoUsed (s : State) : Nat :=
  (s.reads.map fun r => r.early).sum + (s.replies.map fun r => if r.trailer then r.redoHeld else 0).sum

/-- Dirty Residency slots: TIER_DIRTY. -/
def State.dirtySlots (s : State) : Nat := (s.pages.filter fun p => p.slot.isSome && p.dirty != 0).length

/-- TIER_HOME_FREE: free Home frames. -/
def State.homeFree (s : State) : Nat := homeFrames s.tier.split - s.usedFrames.length

/-- TIER_RES_FREE: free or clean unpinned Residency slots. -/
def State.resFree (s : State) : Nat :=
  s.resSlots - (s.pages.filter fun p => p.slot.isSome && (p.dirty != 0 || p.mainPin || p.impliedPin)).length

/-- Free intake credits of a Kit (R81). -/
def KitSt.freeCredits (x : KitSt) : Nat := x.icred - x.taken

/-- GEN_ALERT_SUM: bit n for block n (R449, R461). -/
def State.alertSum (s : State) : Nat :=
  let blk := fun (i : EvId) => match i with
    | .kit _ => 8
    | _ => i.offset / 0x400
  ((allEvents.filter s.evAlert).map blk).eraseDups.map (fun n => 2 ^ n) |>.sum

/-- Units of the rudiment store in use, unit by unit (12 R306). -/
def State.storeUsed (s : State) : List Nat :=
  (s.copies.map fun c => (List.range (ceilDiv c.words.length 64)).map fun i => c.unit + i).flatten

/-- The largest free run of the rudiment store and the free units. -/
def State.storeFree (s : State) : Nat × Nat :=
  let used := s.storeUsed
  let r := (List.range Config.storeUnits).foldl (fun (x : Nat × Nat × Nat) u =>
    if used.contains u then (x.1, x.2.1, 0) else (x.1 + 1, max x.2.1 (x.2.2 + 1), x.2.2 + 1)) (0, 0, 0)
  (r.1, r.2.1)

/-- REP_SPARE_LOW: spare rows left, die and bank, for the lowest count (14 R373). -/
def Rep.spareLow (r : Rep) : Nat × Nat × Nat :=
  r.rowsUsed.foldl (fun b x =>
    let left := 64 - x.2.2
    if left < b.1 || (left == b.1 && (x.1 < b.2.1 || (x.1 == b.2.1 && x.2.1 < b.2.2))) then (left, x.1, x.2.1) else b)
    (64, 0, 0)

/-- The lowest role that is out, or 0xF (R359). -/
def Rep.roleOutNo (r : Rep) : Nat := ((List.range 10).find? fun i => r.rolesOut.getLsbD i).getD 15

/-- REP_STATUS[3:0], the out role with no stand-in, or 0xF: a role being resilvered has the hot spare as its stand-in
(Table 14.3; DEDUCED, log 100). -/
def Rep.noStandIn (r : Rep) : Nat :=
  ((List.range 10).find? fun i => r.rolesOut.getLsbD i && (r.resilver.map fun t => t.role) != some i).getD 15

/-- The number of a unit kind in REP_STATUS[20:16]. -/
def kindBit : UnitKind → Nat
  | .die => 0
  | .bank => 1
  | .row => 2
  | .column => 3
  | .lane => 4

/-- The running die or bank operation. -/
def Rep.bigRun (r : Rep) : Option Transfer := r.runs.find? fun t => t.kind == .die || t.kind == .bank

/-- What a Kit's probe registers show of a page: home, index, page (R257). -/
def State.probe (s : State) (k : Kit) : Option Page :=
  let a := (s.kit k).kprobe * 65536
  match s.windowAt k a with
  | some w => if w.srcKit.isNone then (s.findPage k (kpOf a)).filter fun p => p.stable else none
  | none => none

/-- The probe results, TIER_KPROBE_R, _S and _H, as the page stands now (R257). -/
def State.probeNow (s : State) (k : Kit) : Nat × Nat × Nat :=
  match s.probe k with
  | some p => ((if p.frame.isSome then 1 else 2) + 4 * b2n p.slot.isSome + 8 * b2n p.nearPin + 16 * b2n p.mainPin
                 + 32 * b2n (s.moving k p.kp) + 256 * p.index, p.dirty.toNat + 65536 * p.zero.toNat, p.heat)
  | none => (0, 0, 0)

/-- 16 bytes of a shadow-log slot (15 R385): four slots to a chord of the shadow log. -/
def State.shadowSlot (s : State) (slot : Nat) : List Byte :=
  ((s.decodeAt (Config.shadowBase + slot / 4)).data.drop (16 * (slot % 4))).take 16

/-- A saved lane of LNKx_RXMAP or _TXMAP. -/
def Spare.nat (x : Spare) : Nat := (match x.lane with | some l => l.toNat | none => 31) + 32 * b2n x.active

/-- LNKx_RXMAP or LNKx_TXMAP. -/
def mapNat (v : Vector Spare 2) : Nat := (v[0]).nat + 256 * (v[1]).nat

/-- Saved spares of the In side in use. -/
def RingSt.sparesUsed (x : RingSt) : Nat := b2n (x.rx[0]).active + b2n (x.rx[1]).active

/-! ### What each block reads -/

/-- GEN_ (Tables 19.3, 17.4, R231). -/
def State.readGen (s : State) (off : Nat) : Nat :=
  match off with
  | 0x0000 => Config.genId.toNat
  | 0x0004 => s.mode.code + 16 * s.prev.code + 256 * b2n s.completing
  | 0x0008 => b2n s.gen.logdeg + 2 * b2n s.gen.romOnly + 4 * b2n s.alerts + 8 * b2n s.gen.active
  | 0x000C => (s.ev .gen).bits.toNat
  | 0x0010 => s.gen.resetCause.toNat + 256 * s.gen.resetMode.code
  | 0x0014 => s.gen.holdMs.toNat
  | 0x0018 => s.gen.reqTo
  | 0x0020 => s.gen.restBeats
  | 0x0024 => s.gen.alertA.toNat + 256 * s.gen.alertB.toNat
  | 0x0028 => s.gen.e2eFail
  | 0x002C => s.gen.txDrop
  | 0x0030 => 1 + 65536 * s.gen.fwPatch.toNat
  | 0x0034 => s.alertSum
  | 0x0040 => s.gen.dbg.toNat
  | 0x0044 => s.gen.uid.toNat % 2 ^ 32
  | 0x0048 => s.gen.uid.toNat / 2 ^ 32
  | 0x0080 => b2n s.gen.strict + 2 * b2n s.gen.active + ((s.ev .tempo).bits &&& 0x04).toNat
  | _ => 0

/-- BAR_STATUS.SRC. -/
def State.barSrc (s : State) : Nat :=
  if s.mode == .freewheel then 2
  else if !s.mode.timed then 0
  else if s.bar.beatsrc then 3 else 1

/-- BAR_ (Table 2.4). -/
def State.readBar (s : State) (off : Nat) : Nat :=
  match off with
  | 0x0400 => s.bar.beatno % 2 ^ 32
  | 0x0404 => s.bar.hiLatch.toNat
  | 0x0408 => s.barSrc + 4 * s.bar.rate + 32 * b2n s.bar.bvalid + 64 * b2n s.bar.beatsrc
  | 0x040C => (s.ev .bar).bits.toNat
  | 0x0410 => s.bar.bOffset.toNat
  | 0x0414 => b2n s.bar.fwclose
  | 0x0418 => s.bar.fwBars
  | 0x041C => s.bar.slipBars
  | 0x0420 => s.bar.missed
  | 0x0424 => s.bar.srcRate
  | 0x0428 => s.bar.epoch
  | 0x042C => s.bar.mbarJoin.toNat
  | _ => 0

/-- STK_, device-wide part (Table 3.4). -/
def State.readStk (s : State) (off : Nat) : Nat :=
  match off with
  | 0x0800 => s.stk.budget + 256 * (if s.bar.counted then s.budgetE else 0) + 65536 * s.stk.slackLast
              + 2 ^ 24 * s.stk.lapsedLast
  | 0x0804 => s.stk.maint
  | 0x0808 => s.stk.rtMaint
  | 0x080C => s.allHeld + 65536 * s.kitsHeld
  | 0x0810 => (s.ev .stk).bits.toNat
  | 0x0814 => s.stk.wearThr
  | 0x0818 => s.stk.mspent
  | 0x081C => s.stk.mslack
  | _ => if 0x0820 ≤ off && off ≤ 0x0848 then s.stk.wear.toList.getD ((off - 0x0820) / 4) 0 else 0

/-- The Kit whose registers a per-Kit offset shows: a Kit that is not live reads its reset values (R460). -/
def State.shownKit (s : State) (k : Kit) : KitSt :=
  if (s.kit k).live then s.kit k else if k == 0 then KitSt.resetHouse else KitSt.reset

/-- STK_, per-Kit part. -/
def State.readStkKit (s : State) (k : Kit) (r : Nat) : Nat :=
  let x := s.shownKit k
  match r with
  | 0x00 => x.kres + 256 * x.granted
  | 0x04 => x.pshare
  | 0x08 => x.icred + 65536 * x.freeCredits
  | 0x0C => x.rtres
  | 0x10 => s.kitHeld k
  | 0x14 => x.spent
  | 0x18 => x.starved
  | 0x1C => x.backoff
  | _ => 0

/-- SW_ (Table 5.11). -/
def State.readSw (s : State) (off : Nat) : Nat :=
  match off with
  | 0x0C00 => s.inflight.length + 65536 * s.infHigh
  | 0x0C04 => s.ringA.epoch.toNat + 256 * s.ringA.upstream.toNat + 65536 * s.ringB.epoch.toNat
              + 2 ^ 24 * s.ringB.upstream.toNat
  | 0x0C08 => s.ringA.refusedCt + 65536 * s.ringB.refusedCt
  | 0x0C0C => s.ringA.dropped + 65536 * s.ringB.dropped
  | 0x0C10 => s.orphaned
  | 0x0C14 => s.frameErr
  | 0x0C18 => (s.ev .sw).bits.toNat
  | 0x0C1C => s.ringA.hopLat.toNat + 16 * s.ringB.hopLat.toNat
  | _ =>
    if 0x0C20 ≤ off && off ≤ 0x0C4C then
      let p := (off - 0x0C20) / 4
      s.queued p + 65536 * s.qHigh.toList.getD p 0
    else 0

/-- LNKx_ (Table 4.8), by offset within the block. -/
def State.readLnk (s : State) (r : Ring) (o : Nat) : Nat :=
  let x := s.ring r
  match o with
  | 0x000 => b2n x.swOpen + 2 * b2n x.trained + 4 * b2n x.joined + 8 * x.nodeId.toNat + 256 * x.rate
             + 2048 * x.sparesUsed
  | 0x004 => x.txeq.toNat + 8 * b2n x.autoremap + 256 * x.leaveTo
  | 0x008 => mapNat x.rx
  | 0x00C => mapNat x.tx
  | 0x010 => (s.ev (.lnk r)).bits.toNat
  | 0x014 => x.swops
  | 0x018 => x.retries
  | 0x01C => x.trainUs.toNat
  | 0x110 => x.contPass.toNat + 2 ^ 31 * b2n (x.contTested == BitVec.allOnes 19)
  | 0x114 => x.contTested.toNat
  | _ =>
    if 0x040 ≤ o && o ≤ 0x084 then x.lerr.toList.getD ((o - 0x040) / 4) 0
    else if 0x0C0 ≤ o && o ≤ 0x108 then
      let e := x.eye.toList.getD ((o - 0x0C0) / 4) (0, 0, false)
      e.1.toNat + 256 * e.2.1.toNat + 65536 * b2n e.2.2
    else 0

/-- One KIT_WIN word (Table 8.7). -/
def winWord (w : Option Window) (i : Nat) : Nat :=
  match w with
  | none => 0
  | some w =>
    match i with
    | 0 => w.base
    | 1 => w.size
    | 2 => b2n w.rd + 2 * b2n w.wr + 4 * b2n w.auto + 8 * b2n w.rmw + 16 * b2n w.early
           + 256 * (match w.srcKit with | some k => k.val | none => 255) + 2 ^ 31
    | _ => if w.srcKit.isSome then w.srcBase else 0

/-- KIT_ (Table 8.7). -/
def State.readKit (s : State) (k : Kit) (r : Nat) : Nat :=
  let x := s.shownKit k
  match r with
  | 0x00 => b2n x.live + 2 * b2n x.suspended + 4 * b2n x.consent + 8 * b2n x.keylost + 16 * (x.binds.length % 16)
            + 256 * ((List.range 8).map fun i => if (x.wins.toList.getD i none).isSome then 2 ^ i else 0).sum
  | 0x04 => x.notify.toNat
  | 0x08 => x.maxinf
  | 0x0C => if x.live then s.inflightOf (some k) else 0
  | 0x10 => if x.live then (s.ev (.kit k)).bits.toNat else 0
  | 0x14 => x.engines.toNat
  | 0x18 => x.replypos.toNat
  | 0x1C => x.tempoRd + 256 * x.tempoWr
  | 0x20 => x.denied
  | 0x24 => x.oow
  | _ =>
    if 0x40 ≤ r && r < 0x60 then
      match x.binds[(r - 0x40) / 4]? with
      | some b => b.node.toNat + 256 * b.ktag.toNat + 2 ^ 15
      | none => 0
    else if 0x80 ≤ r then winWord (x.wins.toList.getD ((r - 0x80) / 16) none) (r / 4 % 4)
    else 0

/-- TIER_, device-wide part (Table 9.3). -/
def State.readTier (s : State) (off : Nat) : Nat :=
  match off with
  | 0x3000 => b2n s.tier.part + 2 * s.tier.decay + 16 * b2n s.tier.noauto + 32 * b2n s.tier.newhome
  | 0x3004 => s.tier.splitReq + 256 * s.tier.split
  | 0x3008 => b2n s.tier.warm + 2 * b2n s.tier.snaprest + 4 * b2n s.splitPend
  | 0x300C => (s.ev .tier).bits.toNat
  | 0x3010 => s.tier.promoteHeat
  | 0x3014 => s.tier.demoteHeat
  | 0x3018 => s.tier.migMax
  | 0x301C => s.tier.cleanThr
  | 0x3020 => s.homeFree
  | 0x3024 => s.resFree
  | 0x3028 => s.nearPool - s.near.length
  | 0x302C => s.dirtySlots
  | 0x3030 => s.tier.promotions
  | 0x3034 => s.tier.writebacks
  | 0x3038 => s.tier.moves
  | 0x303C => s.tier.xcmiss
  | _ => 0

/-- TIER_, per-Kit part. A quota of a Kit that is not live reads as the house kit wrote it, 0 once KIT_DESTROY has returned
it, else as reset (R257; DEDUCED over R460, log 102). -/
def State.readTierKit (s : State) (k : Kit) (r : Nat) : Nat :=
  let x := s.kit k
  if r < 0x1C then x.quota (r / 4)
  else if r == 0x1C then s.homeUsed k
  else if !x.live then 0
  else
    match r with
    | 0x20 => x.kprobe
    | 0x24 => x.kprobed.1
    | 0x28 => x.kprobed.2.1
    | 0x2C => x.kprobed.2.2
    | _ => 0

/-- DEEP_ (Table 10.4). -/
def State.readDeep (s : State) (off : Nat) : Nat :=
  let d := s.deep
  let es := d.erases_
  match off with
  | 0x3800 => b2n d.muted + 2 * b2n d.ready + 4 * b2n d.drain + 8 * b2n d.noreloc
              + 16 * ((List.range 4).map fun i => if ((d.dies.toList.getD i DeepDie.reset).online) then 2 ^ i else 0).sum
  | 0x3804 => b2n d.suspend + 256 * d.packWait
  | 0x3808 => (s.ev .deep).bits.toNat
  | 0x380C => d.floor
  | 0x3810 => d.reserve
  | 0x3814 => d.retiredCt
  | 0x3818 => d.factoryBad
  | 0x381C => d.rdThr
  | 0x3820 => d.scanBlks
  | 0x3824 => d.refreshBer
  | 0x3828 => d.wlSpread
  | 0x382C => d.retryThr
  | 0x3830 => es.1 / max 1 d.goodBlocks + 65536 * es.2.1
  | 0x3834 => es.2.2
  | 0x3838 => d.wear.1 + 65536 * d.wear.2
  | 0x383C => d.reads
  | 0x3840 => d.programs
  | 0x3844 => d.erases
  | 0x3848 => d.reloc
  | 0x384C => d.uncorr
  | 0x3850 => d.scans
  | 0x3854 => d.scanDrop
  | 0x3858 => d.freeBlk
  | 0x385C => min 64 (s.moves.filter fun m => m.entry).length
              + 65536 * ((s.moves.filter fun m => m.kind == .promote && (m.reads != 0 || !m.going) && !m.entry).length)
  | _ =>
    if 0x3860 ≤ off && off ≤ 0x386C then
      let x := d.dies.toList.getD ((off - 0x3860) / 4) DeepDie.reset
      x.good + 2 ^ 31 * b2n x.failed
    else 0

/-- PROV_, device-wide part (Table 11.4). -/
def State.readProv (s : State) (off : Nat) : Nat :=
  match off with
  | 0x4000 => s.entriesUsed + 65536 * s.merges.length
  | 0x4004 => s.redoUsed
  | 0x4008 => (s.ev .prov).bits.toNat
  | 0x400C => s.provConfirmed
  | 0x4010 => s.provRetry
  | 0x4014 => s.provWeak
  | 0x4018 => s.provRecanted
  | 0x401C => s.mergeClose.1 + 65536 * s.mergeClose.2
  | 0x4020 => s.redoSent
  | 0x4024 => s.lastComp.1 + 65536 * s.lastComp.2
  | 0x4028 => s.confMax.1
  | _ => 0

/-- PROV_, per-Kit part. -/
def State.readProvKit (s : State) (k : Kit) (r : Nat) : Nat :=
  let x := s.shownKit k
  match r with
  | 0x00 => b2n x.rcnten
  | 0x04 => s.kitPending k
  | 0x08 => x.krecant
  | 0x0C => x.kunrep
  | 0x10 => x.kfirst % 2 ^ 32
  | 0x14 => x.kfirst / 2 ^ 32
  | 0x18 => x.krectot
  | _ => 0

/-- RUD_ENG_STATE[2:0]. -/
def EngState.code : EngState → Nat
  | .idle => 0 | .running => 1 | .held => 2 | .halted => 3 | .stopped => 4

/-- RUD_, engine registers (Table 12.6). -/
def State.readEng (s : State) (e : Engine) (r : Nat) : Nat :=
  let x := s.eng e
  match r with
  | 0x00 => x.state.code + 16 * x.kit.val + 256 * x.slot.val + 4096 * x.fault + 65536 * x.ls.toNat
  | 0x04 => x.pc + 65536 * (match x.loop with | some l => l.ctr | none => 0)
  | 0x08 => (x.dl.getD 0) % 2 ^ 32
  | 0x0C => (x.dl.getD 0) / 2 ^ 32 + 2 ^ 31 * b2n x.dl.isSome
  | 0x10 => x.fetches.length + 65536 * x.fifo.length
  | 0x14 => x.issued
  | 0x18 => x.pushes
  | 0x1C => x.late
  | 0x20 => x.muffled
  | _ => if 0x24 ≤ r && r ≤ 0x30 then x.stall.toList.getD ((r - 0x24) / 4) 0 else 0

/-- RUD_, device-wide part. -/
def State.readRud (s : State) (off : Nat) : Nat :=
  match off with
  | 0x4800 => s.storeFree.1 + 65536 * s.storeFree.2
  | 0x4804 => (s.ev .rud).bits.toNat
  | _ => 0

/-- ECC_ (Table 13.10). -/
def State.readEcc (s : State) (off : Nat) : Nat :=
  let e := s.ecc
  match off with
  | 0x5000 => e.period + 256 * b2n e.rdfix
  | 0x5004 => e.rate
  | 0x5008 => e.cur
  | 0x500C => (s.ev .ecc).bits.toNat
  | 0x5010 => e.sweepBars
  | 0x5014 => e.sweeps
  | 0x5018 => e.corrData
  | 0x501C => e.corrCheck
  | 0x5020 => e.erased
  | 0x5024 => e.uncorr
  | 0x5028 => e.poisonSeen
  | 0x502C => e.fixed
  | 0x5030 => e.skip
  | 0x5034 => e.fixDrop
  | 0x5038 => e.sramSec
  | 0x503C => e.sramDed
  | 0x5070 => e.lastUncorr.1 + 2 ^ 28 * e.lastUncorr.2
  | _ => if 0x5040 ≤ off && off ≤ 0x5068 then e.dieCorr.toList.getD ((off - 0x5040) / 4) 0 else 0

/-- REP_ (Table 14.3). -/
def State.readRep (s : State) (off : Nat) : Nat :=
  let r := s.rep
  match off with
  | 0x5800 => b2n r.autorow + 2 * b2n r.autocol + 4 * b2n r.autodie + 256 * r.rbMax + 65536 * r.lanev
  | 0x5804 => r.noStandIn + 16 * (match r.spare with | some d => d.val | none => 15)
              + 256 * (match r.resilver with | some t => t.role | none => 15) + 4096 * b2n r.spareFailed
              + 65536 * (((r.runs.filter fun t => t.phase != 0).map fun t => kindBit t.kind).eraseDups.map fun i => 2 ^ i).sum
              + 2 ^ 20 * b2n (!s.ringA.remaps.isEmpty || s.ringA.rejoin.isSome || !s.ringB.remaps.isEmpty || s.ringB.rejoin.isSome)
  | 0x5808 => ((List.range 8).map fun i => r.phys i * 16 ^ i).sum
  | 0x580C => r.phys 8 + 16 * r.phys 9
  | 0x5810 => match r.bigRun, r.savedRes with
    | some t, _ => t.cursor % 2 ^ 28 + 2 ^ 28 * min 3 t.phase
    | none, some x => x.2 % 2 ^ 28 + 2 ^ 28 * 2
    | none, none => 0
  | 0x5814 => (s.ev .rep).bits.toNat
  | 0x5818 => r.dieCorrThr
  | 0x581C => r.wearDie
  | 0x5820 => r.map
  | 0x5824 => r.used.1 + 65536 * r.used.2
  | 0x5828 => r.spareLow.1 + 256 * r.spareLow.2.1 + 65536 * r.spareLow.2.2
  | 0x582C => r.faults.length
  | 0x5830 => r.faultDrop
  | 0x5834 => r.resilBeats
  | 0x5838 => r.nearSpare + 65536 * r.nearWithdrawn
  | _ => if 0x5840 ≤ off && off ≤ 0x5868 then (r.banks.toList.getD ((off - 0x5840) / 4) 0).toNat else 0

/-- BEL_ (Table 15.6). -/
def State.readBel (s : State) (off : Nat) : Nat :=
  let b := s.bel
  match off with
  | 0x6000 => b2n b.testSeal + 2 * b2n s.gen.logdeg
  | 0x6004 => b.margin + 256 * b.weakThr
  | 0x6008 => (s.ev .bel).bits.toNat
  | 0x600C => b.seq
  | 0x6010 => b.logDrop
  | 0x6014 => s.barNo / 16 % 256
  | 0x6018 => b.weak
  | 0x601C => b.weakLast
  | 0x6020 => b.recfix
  | 0x6024 => b.refreshDrop
  | 0x6028 => b.writes
  | 0x6050 => b.shadowHead + 65536 * b2n b.shadowWrapped
  | 0x6054 => b.shadowIdx
  | _ =>
    if 0x6030 ≤ off && off ≤ 0x604C then b.seals.toNat / 2 ^ (8 * (off - 0x6030)) % 2 ^ 32
    else if 0x6058 ≤ off && off ≤ 0x6064 then fieldAt (s.shadowSlot b.shadowIdx) (off - 0x6058) 4
    else 0

/-- TOLL_ (Table 16.6). -/
def State.readToll (s : State) (off : Nat) : Nat :=
  let t := s.toll
  match off with
  | 0x6800 => t.part + 256 * b2n t.fast + 512 * b2n t.mpass + 1024 * b2n t.epass + 2048 * b2n t.run.isSome
  | 0x6804 => b2n t.fullnext
  | 0x6808 => (s.ev .toll).bits.toNat
  | 0x680C => t.count
  | 0x6810 => t.lastUs
  | 0x6814 => t.msince
  | 0x6818 => t.summary
  | _ => if 0x6840 ≤ off && off ≤ 0x6868 then (t.sac.toList.getD ((off - 0x6840) / 4) 0) else 0

/-- PWR_ (Table 19.5). -/
def State.readPwr (s : State) (off : Nat) : Nat :=
  let p := s.pwr
  match off with
  | 0x7000 => b2n p.wrhold + 2 * b2n p.rdfield + 4 * b2n p.temphi + 8 * b2n p.templo + 16 * b2n s.pins.pwrgood
              + 256 * s.pins.rails.toNat
  | 0x7004 => (s.ev .pwr).bits.toNat
  | 0x7008 => p.boost
  | 0x7080 => p.peak.1.toNat + 65536 * p.peak.2.toNat
  | 0x7084 => p.wrholdBeats
  | 0x7088 => p.pfail
  | _ =>
    if 0x7010 ≤ off && off ≤ 0x704C then
      let d := (off - 0x7010) / 4
      (p.temp.toList.getD d 0).toNat + 2 ^ 31 * b2n (p.tempValid.getLsbD d)
    else if 0x7050 ≤ off && off ≤ 0x7078 then
      let d := (off - 0x7050) / 4
      (p.field.toList.getD d 0).toNat + 65536 * (p.fieldExcl.toList.getD d 0).toNat + 2 ^ 31 * b2n p.fieldValid
    else 0

/-- TAL_ and KNL_ (Table 18.7). -/
def State.readTail (s : State) (off : Nat) : Nat :=
  let t := s.tal
  let k := s.knl
  match off with
  | 0x7800 => t.on + 4 * b2n t.paused + 256 * t.node.toNat + 65536 * b2n (t.ring == .b)
  | 0x7804 => t.filter.toNat
  | 0x7808 => t.index
  | 0x780C => t.index - t.recs.length
  | 0x7810 => t.drop
  | 0x7814 => t.streamLost
  | 0x7818 => t.streamNext
  | 0x781C => (s.ev .tal).bits.toNat
  | 0x7C00 => k.seq
  | 0x7C04 => k.cause + 256 * k.cause2 + 65536 * k.mode + 2 ^ 20 * k.recstate
  | 0x7C08 => k.beat % 2 ^ 32
  | 0x7C0C => k.beat / 2 ^ 32
  | 0x7C10 => k.len
  | 0x7C14 => (s.ev .knl).bits.toNat
  | _ => 0

/-! ### The map (Table 19.1, Table 19.7) -/

/-- Where an offset lies. -/
inductive CsrAt
  | gen | bar | stk | stkKit (k : Kit) (r : Nat) | sw | lnk (r : Ring) (o : Nat) | kit (k : Kit) (r : Nat) | tier
  | tierKit (k : Kit) (r : Nat) | deep | prov | provKit (k : Kit) (r : Nat) | rud | eng (e : Engine) (r : Nat)
  | ecc | rep | bel | toll | pwr | tail | none_
deriving DecidableEq, Repr

/-- A Kit number from an index below 16. -/
def kitIx (n : Nat) : Kit := ⟨n % 16, Nat.mod_lt _ (by decide)⟩
/-- An engine number from an index below 8. -/
def engIx (n : Nat) : Engine := ⟨n % 8, Nat.mod_lt _ (by decide)⟩

/-- The block of an offset. -/
def csrAt (off : Nat) : CsrAt :=
  if off < 0x0400 then .gen
  else if off < 0x0800 then .bar
  else if off < 0x0900 then .stk
  else if off < 0x0B00 then .stkKit (kitIx ((off - 0x0900) / 0x20)) (off % 0x20)
  else if off < 0x0C00 then .none_
  else if off < 0x1000 then .sw
  else if off < 0x1400 then .lnk .a (off - 0x1000)
  else if off < 0x1800 then .lnk .b (off - 0x1400)
  else if off < 0x2000 then .none_
  else if off < 0x3000 then .kit (kitIx ((off - 0x2000) / 0x100)) (off % 0x100)
  else if off < 0x3100 then .tier
  else if off < 0x3500 then .tierKit (kitIx ((off - 0x3100) / 0x40)) (off % 0x40)
  else if off < 0x3800 then .none_
  else if off < 0x4000 then .deep
  else if off < 0x4100 then .prov
  else if off < 0x4300 then .provKit (kitIx ((off - 0x4100) / 0x20)) (off % 0x20)
  else if off < 0x4800 then .none_
  else if off < 0x4900 then .rud
  else if off < 0x4B00 then .eng (engIx ((off - 0x4900) / 0x40)) (off % 0x40)
  else if off < 0x5000 then .none_
  else if off < 0x5800 then .ecc
  else if off < 0x6000 then .rep
  else if off < 0x6800 then .bel
  else if off < 0x7000 then .toll
  else if off < 0x7800 then .pwr
  else .tail

/-- What a register reads (R449 to R460); an offset with no register reads 0 (R10). -/
def State.readCsr (s : State) (off : Nat) : Nat :=
  match csrAt off with
  | .gen => s.readGen off
  | .bar => s.readBar off
  | .stk => s.readStk off
  | .stkKit k r => s.readStkKit k r
  | .sw => s.readSw off
  | .lnk r o => s.readLnk r o
  | .kit k r => s.readKit k r
  | .tier => s.readTier off
  | .tierKit k r => s.readTierKit k r
  | .deep => s.readDeep off
  | .prov => s.readProv off
  | .provKit k r => s.readProvKit k r
  | .rud => s.readRud off
  | .eng e r => s.readEng e r
  | .ecc => s.readEcc off
  | .rep => s.readRep off
  | .bel => s.readBel off
  | .toll => s.readToll off
  | .pwr => s.readPwr off
  | .tail => s.readTail off
  | .none_ => 0

/-! ### Access rights (R450, R460) -/

/-- The events register at an offset. -/
def evAt (off : Nat) : Option EvId := allEvents.find? fun i => i.offset == off

/-- Offsets that hold an RW, W1C, WO or RWS field, outside the per-Kit parts. -/
def writableOffsets : List Nat :=
  [0x0018, 0x001C, 0x0024, 0x0040, 0x0080, 0x0414, 0x0424, 0x0804, 0x0808, 0x0814, 0x1004, 0x1404, 0x3000, 0x3004,
   0x3010, 0x3014, 0x3018, 0x301C, 0x3804, 0x380C, 0x381C, 0x3820, 0x3824, 0x3828, 0x382C, 0x5000, 0x5800, 0x5818,
   0x581C, 0x6004, 0x6054, 0x6804, 0x7008]

/-- Whether a register holds a field that some Kit may write. -/
def csrWritable (off : Nat) : Bool :=
  (evAt off).isSome ||
  (match csrAt off with
   | .stkKit _ r => r ≤ 0x0C && r % 4 == 0
   | .kit _ r => r == 0x08 || r == 0x14 || r == 0x18 || r == 0x1C
   | .tierKit _ r => (r < 0x1C && r % 4 == 0) || r == 0x20
   | .provKit _ r => r == 0x00
   | _ => writableOffsets.contains off)

/-- Whether an offset of the BEL_, KNL_ or RUD_ block or of a per-Kit part holds a register (R10 applies elsewhere). -/
def csrExists (off : Nat) : Bool :=
  match csrAt off with
  | .none_ => false
  | .stkKit _ _ => true
  | .kit _ r => r ≤ 0x24 || (0x40 ≤ r && r < 0x60) || 0x80 ≤ r
  | .tierKit _ r => r ≤ 0x2C
  | .provKit _ r => r ≤ 0x18
  | .eng _ r => r ≤ 0x30
  | .rud => off == 0x4800 || off == 0x4804
  | .bel => off ≤ 0x6028 || (0x6030 ≤ off && off ≤ 0x6064)
  | .ecc => off ≤ 0x503C || (0x5040 ≤ off && off ≤ 0x5070)
  | .tail => off ≤ 0x781C || (0x7C00 ≤ off && off ≤ 0x7C14)
  | _ => true

/-- Whether a Kit may read a register (Table 19.1). -/
def State.mayRead (s : State) (k : Kit) (off : Nat) : Bool :=
  k == 0 || !csrExists off ||
  (match csrAt off with
   | .stkKit j _ => j == k
   | .kit j _ => j == k
   | .tierKit j _ => j == k
   | .provKit j _ => j == k
   | .rud => off == 0x4800
   | .eng e _ => (s.eng e).kit == k
   | .ecc => off != 0x5070
   | .bel => off == 0x6000
   | .tail => off < 0x7C00
   | _ => true)

/-- Whether a CSR_WRITE of a Kit may cover a register: it may read it, and may write what it holds (R450, R460). -/
def State.mayWrite (s : State) (k : Kit) (off : Nat) : Bool :=
  k == 0 ||
  (s.mayRead k off && (!csrWritable off ||
    (match csrAt off with
     | .kit j r => j == k && r == 0x10
     | .tierKit j r => j == k && r == 0x20
     | .provKit j r => j == k && r == 0x00
     | _ => false)))

/-- The offsets of `len` bytes of registers. -/
def csrSpan (off len : Nat) : List Nat := (List.range (len / 4)).map fun i => off + 4 * i

/-- The offsets that a request of `len` bytes is checked on: one at least (R153). -/
def csrChecked (off len : Nat) : List Nat := if len == 0 then [off] else csrSpan off len

/-- The blocks served over I3C in a mode (Table 19.9). -/
def i3cServes (m : Mode) (write : Bool) (off : Nat) : Bool :=
  match m with
  | .run | .degraded | .freewheel | .rest => true
  | .eveningToll => !write
  | .held | .morningToll | .fill | .join => !write && (off < 0x0400 || (0x6800 ≤ off && off < 0x7000))
  | _ => false

/-! ### Configuration conditions -/

/-- Rows 1 to 5 of Table 3.3, where a destroyed Kit's values count until the next Downbeat (R74): the maintenance reserve and the reservations, given what they were before (R72). -/
def State.kresOk (s : State) (old : State) : Bool :=
  let live := s.liveKits.map s.kit
  let e := s.budgetE
  let sum := (live.map fun x => x.kres).sum + s.stk.gone.1
  let raises := old.stk.maint < s.stk.maint || allKits.any fun k => (old.kit k).kres < (s.kit k).kres
  let skip := old.stk.short && !raises
  8 ≤ s.stk.maint && s.stk.maint ≤ 64 &&
  live.all (fun x => x.kres == 0 || (11 ≤ x.kres && x.kres ≤ 149)) &&
  (skip || s.stk.maint + sum ≤ e) &&
  (skip || s.gen.strict || !(live.any fun x => x.kres == 0) || s.stk.maint + sum + 11 ≤ e) &&
  (!s.gen.strict || live.all fun x => 11 ≤ x.kres)

/-- Rows 6 and 7 of Table 3.3: the provisional shares. -/
def State.shareOk (s : State) : Bool :=
  let live := s.liveKits.map s.kit
  live.all (fun x => x.pshare ≤ 608) && (!s.gen.strict || (live.map fun x => x.pshare).sum + s.stk.gone.2.2.2 ≤ 608)

/-- Row 8 of Table 3.3: the intake credits. -/
def State.creditOk (s : State) : Bool :=
  let live := s.liveKits.map s.kit
  live.all (fun x => 64 ≤ x.icred && x.icred ≤ 2048) && (live.map fun x => x.icred).sum + s.stk.gone.2.2.1 ≤ Config.intakeChords

/-- Row 9 of Table 3.3, the range of R79 and the third row of Table 8.5: the read tokens. -/
def State.tokenOk (s : State) : Bool :=
  let live := s.liveKits.map s.kit
  s.stk.rtMaint ≤ 32 && s.stk.rtMaint + (live.map fun x => x.rtres).sum + s.stk.gone.2.1 ≤ Config.readTokens
    && (!s.gen.strict || live.all fun x => 1 ≤ x.rtres)

/-- The in-flight caps: R155, and the fourth row of Table 8.5. -/
def State.maxinfOk (s : State) : Bool :=
  let live := s.liveKits.map s.kit
  live.all (fun x => 16 ≤ x.maxinf && x.maxinf ≤ 2048) && (!s.gen.strict || (live.map fun x => x.maxinf).sum ≤ 1984)

/-- Every row of Table 3.3 (R72). -/
def State.ledgerOk (s : State) (old : State) : Bool := s.kresOk old && s.shareOk && s.creditOk && s.tokenOk

/-- Whether no bit is set in two of the masks. -/
def disjoint : List Nat → Bool
  | [] => true
  | x :: xs => xs.all (fun y => Nat.land x y == 0) && disjoint xs

/-- The reply-only positions that the last SLOTMAP gives the device. -/
def RingSt.owned (x : RingSt) : Nat :=
  ((List.range 8).map fun i => if x.owners.getD i 0x1F == x.nodeId && x.hasId then 2 ^ i else 0).sum

/-- Whether the KIT_REPLYPOS halves of the live Kits are disjoint and owned, and present where needed (Table 8.5). -/
def posOk (need : Bool) (owned : Nat) (ms : List Nat) : Bool :=
  disjoint ms && ms.all (fun m => Nat.land m owned == m) && (!need || ms.all fun m => m != 0)

/-- The conditions of Table 8.5, on the granted reservations, or, for what a command would leave, on the configured ones, which
are granted at a Downbeat (R225, R226). -/
def State.strictOk (s : State) (granted : Bool) : Bool :=
  let live := s.liveKits.map s.kit
  live.all (fun x => 11 ≤ (if granted then x.granted else x.kres)) &&
  (live.map fun x => x.pshare).sum ≤ 608 &&
  live.all (fun x => 1 ≤ x.rtres) &&
  (live.map fun x => x.maxinf).sum ≤ 1984 &&
  s.tier.part && live.all (fun x => x.quota 2 != 0 && x.quota 3 != 0) &&
  disjoint (live.map fun x => x.engines.toNat) &&
  posOk true s.ringA.owned (live.map fun x => x.replypos.toNat % 256) &&
  posOk s.ringB.joined s.ringB.owned (live.map fun x => x.replypos.toNat / 256)

/-- Pins of a Kit in Residency and in Near. -/
def State.pinsOf (s : State) (k : Kit) : Nat × Nat :=
  ((s.pages.filter fun p => p.kit == k && p.deepPage.isSome && (p.mainPin || p.impliedPin)).length,
   (s.pages.filter fun p => p.kit == k && p.nearPin).length)

/-- The conditions of R250 on private quotas while PART is 1. -/
def State.partOk (s : State) : Bool :=
  !s.tier.part ||
  (let live := s.liveKits
   (live.map fun k => (s.kit k).quota 2).sum ≤ s.resSlots && (live.map fun k => (s.kit k).quota 3).sum ≤ 24320 &&
   live.all fun k =>
     let q := s.kit k
     (q.quota 2 == 0 || (s.pinsOf k).1 + 1 ≤ q.quota 2) && (q.quota 3 == 0 || (s.pinsOf k).2 + 1 ≤ q.quota 3 / 16))

/-! ### Writing (R192, R193, R452, R453) -/

/-- Whether a written value lies in the field ranges of its register (R193). -/
def State.csrRange (s : State) (off v : Nat) : Bool :=
  let node := fun (n : Nat) => n ≤ 29 || n == 31
  let within := fun (lo hi x : Nat) => lo ≤ x && x ≤ hi
  match csrAt off with
  | .gen => match off with
    | 0x0018 => within 16 1023 (bits v 9 0)
    | 0x0024 => node (bits v 4 0) && node (bits v 12 8)
    | _ => true
  | .bar => if off == 0x0424 then bits v 2 0 ≤ 4 else true
  | .lnk _ o => if o == 0x004 then bits v 15 8 != 0 else true
  | .kit _ r => match r with
    | 0x08 => within 16 2048 (bits v 11 0)
    | 0x1C => within 6 255 (bits v 7 0) && 1 ≤ bits v 15 8
    | _ => true
  | .tier => match off with
    | 0x3000 => 1 ≤ bits v 3 1
    | 0x3004 => within 1 14 (bits v 7 0) && s.usedFrames.all (fun f => f < homeFrames (bits v 7 0))
    | 0x3010 => 1 ≤ bits v 15 0
    | 0x301C => within 5 90 (bits v 6 0)
    | _ => true
  | .tierKit _ r => if r == 0x10 then bits v 10 0 ≤ 1024 else true
  | .deep => match off with
    | 0x3804 => 1 ≤ bits v 15 8
    | 0x380C => within 1024 2048 (bits v 11 0) && bits v 11 0 ≤ s.deep.reserve
    | 0x381C => within 10000 1000000 (bits v 23 0)
    | 0x3820 => within 1 8 (bits v 3 0)
    | 0x3824 => within 16 200 (bits v 7 0)
    | 0x3828 => within 50 1000 (bits v 11 0)
    | _ => true
  | .ecc => if off == 0x5000 then within 1 168 (bits v 7 0) else true
  | .rep => match off with
    | 0x5800 => within 8 32 (bits v 13 8) && 1 ≤ bits v 23 16
    | 0x5818 => within 256 65535 (bits v 15 0)
    | 0x581C => within 0x0180 0x0700 (bits v 15 0)
    | _ => true
  | .bel => if off == 0x6004 then 1 ≤ bits v 3 0 && 1 ≤ bits v 15 8 else true
  | .pwr => if off == 0x7008 then within 1 8 (bits v 3 0) else true
  | _ => true

/-- Set one quota of a Kit; a Kit that is not live keeps it as written for its KIT_CREATE (R257). -/
def KitSt.setQuota (x : KitSt) (i v : Nat) : KitSt :=
  { x with kq := x.kq.set! i v,
           kqWritten := if x.live then x.kqWritten else x.kqWritten ||| BitVec.ofNat 7 (2 ^ i) }

/-- Widths of TIER_KQ_ fields (Table 9.3). -/
def kqWidth (i : Nat) : Nat := [18, 23, 18, 15, 11, 18, 20].getD i 0

/-- A wake from Rest begins (17 R416): by GEN_REST.EXIT, a W request or WAKE_N. -/
def State.wake (s : State) : State :=
  if s.mode == .rest then { s with gen := { s.gen with waking := true } } else s

/-- Clear events bits; a bit set in this Beat stays set (R453). -/
def State.clearEv (s : State) (i : EvId) (v : Nat) : State :=
  let f := fun (e : EvReg) => { e with bits := e.bits &&& ~~~ (BitVec.ofNat 8 v &&& ~~~ e.fresh) }
  { s with evs := s.evs.set i.ix (f (s.evs[i.ix])) }

/-- GEN_ writes. -/
def State.writeGen (s : State) (off v : Nat) : State :=
  match off with
  | 0x0018 => { s with gen := { s.gen with reqTo := bits v 9 0 } }
  | 0x001C => if bits v 0 0 == 1 then s.wake else s
  | 0x0024 => { s with gen := { s.gen with alertA := BitVec.ofNat 5 v, alertB := BitVec.ofNat 5 (v / 256) } }
  | 0x0040 => if s.bel.testSeal then s else { s with gen := { s.gen with dbg := BitVec.ofNat 3 v } }
  | 0x0080 => ({ s with gen := { s.gen with strict := bits v 0 0 == 1 } }).clearEv .tempo (v % 8 / 4 * 4)
  | _ => s

/-- STK_ writes, per-Kit part. -/
def State.writeStkKit (s : State) (k : Kit) (r v : Nat) : State :=
  let x := s.kit k
  if !x.live then s
  else match r with
    | 0x00 => { (s.setKit k { x with kres := bits v 7 0 }) with
        stk := { s.stk with dirty := s.stk.dirty || x.kres != bits v 7 0 } }
    | 0x04 => s.setKit k { x with pshare := bits v 9 0 }
    | 0x08 => s.setKit k { x with icred := bits v 11 0 }
    | 0x0C => s.setKit k { x with rtres := bits v 6 0 }
    | _ => s

/-- KIT_ writes; KIT_EVENTS is handled as an events register. -/
def State.writeKit (s : State) (k : Kit) (r v : Nat) : State :=
  let x := s.kit k
  if !x.live then s
  else match r with
    | 0x08 => s.setKit k { x with maxinf := bits v 11 0 }
    | 0x14 => s.setKit k { x with engines := BitVec.ofNat 8 v }
    | 0x18 => s.setKit k { x with replypos := BitVec.ofNat 16 v }
    | 0x1C => s.setKit k { x with tempoRd := bits v 7 0, tempoWr := bits v 15 8 }
    | _ => s

/-- TIER_ writes, device-wide part. -/
def State.writeTier (s : State) (off v : Nat) : State :=
  let t := s.tier
  match off with
  | 0x3000 => { s with tier := { t with part := bits v 0 0 == 1, decay := bits v 3 1, noauto := bits v 4 4 == 1,
                                        newhome := bits v 5 5 == 1 } }
  | 0x3004 => { s with tier := { t with splitReq := bits v 7 0 } }
  | 0x3010 => { s with tier := { t with promoteHeat := bits v 15 0 } }
  | 0x3014 => { s with tier := { t with demoteHeat := bits v 15 0 } }
  | 0x3018 => { s with tier := { t with migMax := bits v 3 0 } }
  | 0x301C => { s with tier := { t with cleanThr := bits v 6 0 } }
  | _ => s

/-- TIER_ writes, per-Kit part; TIER_KPROBE shows its page from the next Beat (R257). -/
def State.writeTierKit (s : State) (k : Kit) (r v : Nat) : State :=
  let x := s.kit k
  if r < 0x1C then s.setKit k (x.setQuota (r / 4) (v % 2 ^ kqWidth (r / 4)))
  else if r == 0x20 && x.live then s.setKit k { x with kprobe := bits v 22 0, kprobeDue := true }
  else s

/-- DEEP_ writes. -/
def State.writeDeep (s : State) (off v : Nat) : State :=
  let d := s.deep
  match off with
  | 0x3804 => { s with deep := { d with suspend := bits v 0 0 == 1, packWait := bits v 15 8 } }
  | 0x380C => { s with deep := { d with floor := bits v 11 0 } }
  | 0x381C => { s with deep := { d with rdThr := bits v 23 0 } }
  | 0x3820 => { s with deep := { d with scanBlks := bits v 3 0 } }
  | 0x3824 => { s with deep := { d with refreshBer := bits v 7 0 } }
  | 0x3828 => { s with deep := { d with wlSpread := bits v 11 0 } }
  | 0x382C => { s with deep := { d with retryThr := bits v 15 0 } }
  | _ => s

/-- REP_ writes. -/
def State.writeRep (s : State) (off v : Nat) : State :=
  let r := s.rep
  match off with
  | 0x5800 => { s with rep := { r with autorow := bits v 0 0 == 1, autocol := bits v 1 1 == 1, autodie := bits v 2 2 == 1,
                                       rbMax := bits v 13 8, lanev := bits v 23 16 } }
  | 0x5818 => { s with rep := { r with dieCorrThr := bits v 15 0 } }
  | 0x581C => { s with rep := { r with wearDie := bits v 15 0 } }
  | _ => s

/-- A register takes a written value (Table 0.2). -/
def State.writeCsr (s : State) (off v : Nat) : State :=
  match evAt off with
  | some .tempo => s.writeGen off v
  | some (.kit k) => if (s.kit k).live then s.clearEv (.kit k) v else s
  | some i => s.clearEv i v
  | none =>
    match csrAt off with
    | .gen => s.writeGen off v
    | .bar =>
      if off == 0x0414 then { s with bar := { s.bar with fwclose := bits v 0 0 == 1 } }
      else if off == 0x0424 then
        { s with bar := { s.bar with srcRate := bits v 2 0,
                                     srcNext := if s.bar.beatsrc && (s.ringA.swOpen || s.ringB.swOpen) && bits v 2 0 != s.bar.rate
                                                then some (bits v 2 0) else none } }
      else s
    | .stk => match off with
      | 0x0804 => { s with stk := { s.stk with maint := bits v 6 0, dirty := s.stk.dirty || s.stk.maint != bits v 6 0 } }
      | 0x0808 => { s with stk := { s.stk with rtMaint := bits v 5 0 } }
      | 0x0814 => { s with stk := { s.stk with wearThr := bits v 15 0 } }
      | _ => s
    | .stkKit k r => s.writeStkKit k r v
    | .lnk r o =>
      if o == 0x004 then
        s.setRing r { s.ring r with txeq := BitVec.ofNat 3 v, autoremap := bits v 3 3 == 1, leaveTo := bits v 15 8 }
      else s
    | .kit k r => s.writeKit k r v
    | .tier => s.writeTier off v
    | .tierKit k r => s.writeTierKit k r v
    | .deep => s.writeDeep off v
    | .provKit k r =>
      if r == 0x00 && (s.kit k).live then s.setKit k { s.kit k with rcnten := bits v 0 0 == 1 } else s
    | .ecc =>
      if off == 0x5000 then
        { s with ecc := { s.ecc with period := bits v 7 0, rdfix := bits v 8 8 == 1,
                                     periodDue := s.ecc.periodDue || bits v 7 0 != s.ecc.period } }
      else s
    | .rep => s.writeRep off v
    | .bel =>
      if off == 0x6004 then { s with bel := { s.bel with margin := bits v 3 0, weakThr := bits v 15 8 } }
      else if off == 0x6054 then { s with bel := { s.bel with shadowIdx := bits v 11 0 } }
      else s
    | .toll => if off == 0x6804 then { s with toll := { s.toll with fullnext := bits v 0 0 == 1 } } else s
    | .pwr => if off == 0x7008 then { s with pwr := { s.pwr with boost := bits v 3 0 } } else s
    | _ => s

/-- The condition groups a register belongs to. -/
def csrGroup (off : Nat) : Nat :=
  match csrAt off with
  | .stkKit _ r => if r ≤ 0x0C then 1 else 0
  | .kit _ r => if r == 0x08 || r == 0x14 || r == 0x18 then 2 else 0
  | .tierKit _ r => if r == 0x08 || r == 0x0C then 3 else 0
  | _ => if off == 0x0804 || off == 0x0808 then 1 else if off == 0x3000 then 3 else if off == 0x0080 then 4 else 0

/-- Whether a configuration condition holds of the state that the whole write would leave (R72, R225, R226, R250). -/
def State.csrCondition (s fin : State) (off : Nat) : Bool :=
  match csrGroup off with
  | 0 => true
  | 1 => fin.ledgerOk s && (!fin.gen.strict || fin.strictOk false)
  | 2 => !fin.gen.strict || fin.strictOk false
  | 3 => fin.partOk && (!fin.gen.strict || fin.strictOk false)
  | _ => !fin.gen.strict || fin.strictOk true

/-- Whether a register takes part in no check: a per-Kit register of a Kit that is not live, quotas apart (R460). -/
def State.csrIgnored (s : State) (off : Nat) : Bool :=
  match csrAt off with
  | .stkKit k _ => !(s.kit k).live
  | .kit k _ => !(s.kit k).live
  | .provKit k _ => !(s.kit k).live
  | .tierKit k r => !(s.kit k).live && 0x1C ≤ r
  | _ => false

/-- The registers and values of a CSR_WRITE. -/
def csrPairs (off : Nat) (p : List Byte) : List (Nat × Nat) :=
  (List.range (p.length / 4)).map fun i => (off + 4 * i, fieldAt p (4 * i) 4)

/-- Every register of a CSR_WRITE takes its value, in ascending order (R193). -/
def State.writeAll (s : State) (ps : List (Nat × Nat)) : State := forEach (fun x t => State.writeCsr t x.1 x.2) ps s

/-- The offset of the first register of a CSR_WRITE whose value fails (R193). -/
def State.csrBad (s : State) (ps : List (Nat × Nat)) : Option Nat :=
  let fin := s.writeAll ps
  (ps.find? fun x => !s.csrIgnored x.1 && (!s.csrRange x.1 x.2 || !s.csrCondition fin x.1)).map fun x => x.1

/-- The bytes of a CSR_READ (R193). -/
def State.csrBytes (s : State) (off len : Nat) : List Byte := ((csrSpan off len).map fun o => leBytes 4 (s.readCsr o)).flatten

/-- A read of BAR_BEATNO_LO latches BAR_BEATNO_HI (R61). -/
def State.csrLatch (s : State) (off len : Nat) : State :=
  if (csrSpan off len).contains 0x0400 then
    { s with bar := { s.bar with hiLatch := BitVec.ofNat 16 (s.bar.beatno / 2 ^ 32) } }
  else s

end Sys2Proof.Machine
end

