-- ==== Sys2Proof/Machine/Moves.lean ====
section
/-! DEFINITION. Moves under traffic (09 R244, R246, R252, R253; 10 R259): how promotions, re-homings, demotions,
write-backs and Near fills go on from Beat to Beat, how sectors are packed for NAND, and the page-range requests that
wait for them. -/

namespace Sys2Proof.Machine

/-! ### Deep locations (10 R258, R259) -/

/-- Deep block of a location. -/
def blkOf (loc : Nat) : Nat := loc / 4096

/-- The next NAND page for programs on a die: the open block, else the lowest free one past the map's (R258, R259). -/
def Deep.nextLoc (d : Deep) (die : Nat) : Option Nat :=
  if (d.dies.toList.getD die DeepDie.reset).failed then none
  else
    match d.blks.find? fun b => b.blk / 8192 == die && b.fill != 0 && b.fill < 1024 && !b.retired && !b.retiring
        && b.refresh.isNone with
    | some b => some ((b.blk * 1024 + b.fill) * 4)
    | none =>
      let used := ((d.blks.filter fun b => b.fill != 0 || b.retired || b.retiring).map fun b => b.blk)
      let f := lowestFree used used.length (die * 8192 + 64)
      if f < (die + 1) * 8192 then some (f * 1024 * 4) else none

/-- The die of the next program, in turn, past those that take none (R259). -/
def Deep.nextPlace (d : Deep) : Option (Nat × Nat) :=
  ((List.range 4).map fun i => (d.nextDie + i) % 4).findSome? fun i => (d.nextLoc i).map fun loc => (i, loc)

/-- A block record, empty when it has none. -/
def Deep.blk (d : Deep) (b : Nat) : DeepBlk :=
  (d.blks.find? fun x => x.blk == b).getD ⟨b, 0, 0, 0, false, none, false, 0⟩

/-- Set a block record. -/
def Deep.setBlk (d : Deep) (x : DeepBlk) : Deep :=
  { d with blks := (d.blks.filter fun y => y.blk < x.blk) ++ x :: d.blks.filter fun y => x.blk < y.blk }

/-- The Measure of a BEATNO (02 R33). -/
def measureOf (beat : Nat) : Nat := beat / (1024 * 4096)

/-- Queue an operation at a location: its NAND page is taken (R259). -/
def Deep.queueAt (d : Deep) (now die loc : Nat) (op : DeepOp) : Deep :=
  let b := d.blk (blkOf loc)
  let d1 := d.setBlk { b with fill := loc / 4 % 1024 + 1, lastProg := measureOf now }
  { d1 with queue := d1.queue ++ [op], nextDie := (die + 1) % 4 }

/-- Program a Kit's waiting sectors, at most four (R259); the write-backs of a CLOSE with a pending split are maintenance's
(09 R237). -/
def State.packOne (s : State) (k : Kit) : State :=
  let mine := s.deep.pack.filter fun x => x.1 == k
  match mine.take 4, s.deep.nextPlace with
  | [], _ => s
  | _, none => s
  | four, some (die, loc) =>
    let left := s.deep.pack.filter fun x => !four.contains x
    let payer := if s.closing.isSome && s.splitPend then none else some k
    let op := DeepOp.program payer (four.map fun x => (x.1, x.2.1, x.2.2.1)) loc
    { s with deep := ({ s.deep with pack := left }).queueAt s.bar.beatno die loc op }

/-- Every full group of four sectors of a Kit is programmed (R259). -/
def State.packFull (k : Kit) : Nat → State → State
  | 0, s => s
  | n + 1, s =>
    if 4 ≤ (s.deep.pack.filter fun x => x.1 == k).length then (s.packOne k).packFull k n else s

/-! ### One move -/

/-- The move of a page and kind. -/
def State.updMove (s : State) (m : Move) (f : Move → Move) : State :=
  { s with moves := updWhere (fun x => x.kit == m.kit && x.kp == m.kp && x.kind == m.kind) f s.moves }

/-- The same move as it now stands. -/
def State.sameMove (s : State) (m : Move) : Option Move :=
  s.moves.find? fun x => x.kit == m.kit && x.kp == m.kp && x.kind == m.kind

/-- Remove a move. -/
def State.endMove (s : State) (m : Move) : State :=
  { s with moves := s.moves.filter fun x => !(x.kit == m.kit && x.kp == m.kp && x.kind == m.kind) }

/-- The frame that a move fills. -/
def State.moveFrame (s : State) (m : Move) : Option Nat :=
  match m.kind with
  | .promote => some (s.slotFrame m.dest)
  | .rehome => some m.dest
  | _ => none

/-- Kit address of a chord of a move's page. -/
def Move.addr (m : Move) (i : Nat) : Nat := m.kp.toNat * 65536 + 64 * i

/-- A copied chord goes to the move's frame, with its poison (R253, R252). -/
def State.putChord (s : State) (m : Move) (i : Nat) (v : Option (List Byte)) : State :=
  match s.moveFrame m with
  | none => s
  | some f =>
    match v with
    | some d => s.queueChord (.move m.kit m.kp) (some (s.movePayer m)) (m.addr i) (f * 1024 + i) d
    | none => s.queueChord .marker (some (s.movePayer m)) (m.addr i) (f * 1024 + i) (zeros 64)

/-- Whether a chord has a provisional write outstanding, and is copied after it (R252). -/
def State.chordBusy (s : State) (k : Kit) (a : Nat) : Bool :=
  (s.hold.any fun e => e.kind == .data && e.payer == some k && e.kaddr == a) || (s.mergeOf k a).isSome

/-- Whether Near holds a line of a chord. -/
def State.hasLine (s : State) (k : Kit) (a : Nat) : Bool := (s.nearLine k a).isSome

/-- Fill a line; none when the Kit's share gives no block. -/
def State.tryFill (s : State) (k : Kit) (a : Nat) (poison : Bool) (d : List Byte) : Option State :=
  let t := s.nearFill k a poison d
  if t.hasLine k a then some t else none

/-- Copy one chord of a move; none when it must wait (R252, 03 R79). -/
def State.copyChord (s : State) (m : Move) (i : Nat) : Option State :=
  let a := m.addr i
  if s.chordBusy m.kit a then none
  else match m.kind with
    | .nearFill _ =>
      if s.hasLine m.kit a then some s
      else match s.viewConfirmed m.kit a with
        | .val d => s.tryFill m.kit a false d
        | .poison => s.tryFill m.kit a true (zeros 64)
        | .array c _ _ =>
          (s.kitToken m.kit).bind fun t =>
            let o := t.decodeOf m.kit a c
            (t.readArray 3 c).tryFill m.kit a o.poisoned (o.value.getD (zeros 64))
        | _ => none
    | _ =>
      match s.locate m.kit a with
      | .main c =>
        match (if s.zeroOwed m.kit a then some (.val (zeros 64)) else s.onTheWay c) with
        | some (.val d) => some (s.putChord m i (some d))
        | some _ => some (s.putChord m i none)
        | none => (s.kitToken m.kit).map fun t => (t.readArray 3 c).putChord m i (t.decodeOf m.kit a c).value
      | _ => some s

/-- Copy the chords of a move that are at hand, in order: the state and the chords left. -/
def State.copyChords (m : Move) : List Nat → State → State × List Nat
  | [], s => (s, [])
  | i :: rest, s =>
    match s.copyChord m i with
    | some t => t.copyChords m rest
    | none => let r := s.copyChords m rest; (r.1, i :: r.2)

/-- The sectors of a move whose chords have all been read since `before`, ready to be packed. -/
def packReady (before after : List Nat) (progs : BitVec 16) : List (BitVec 4) :=
  (sectors progs).filter fun x =>
    let mine := fun (l : List Nat) => l.any fun i => i / 64 == x.toNat
    mine before && !mine after

/-- Whether the copied chords of a page have all been written and confirmed. -/
def State.copied (s : State) (m : Move) : Bool :=
  match s.moveFrame m with
  | none => true
  | some f =>
    let mine := fun (kind : WKind) (c : ChordIx) =>
      (kind == .move m.kit m.kp || kind == .marker) && c.toNat / 1024 == f
    !(s.chordq.any fun q => mine q.1 q.2.2.2.1) && !(s.hold.any fun e => mine e.kind e.chord)

/-- The page-table change that ends a move (R252). -/
def MoveKind.change : MoveKind → Option PtChange
  | .promote => some .resident
  | .rehome => some .rehomed
  | .demote => some .demoted
  | .writeBack true => some .released
  | _ => none

/-- Who pays for the page-table chord of a move: its payer; for the release of a slot, the payer of the promotion that takes
it (R235). -/
def State.tablePayer (s : State) (m : Move) : Kit :=
  let slot := (s.findPage m.kit m.kp).bind fun p => p.slot
  match s.moves.find? fun x => x.kind == .promote && some x.dest == slot && m.kind == .writeBack true with
  | some x => s.movePayer x
  | none => s.movePayer m

/-- Write the page-table chord of a move whose work is done (R235, R252). -/
def State.tableMove (s : State) (m : Move) : State :=
  match m.kind.change with
  | none => s.endMove m
  | some ch =>
    let index := match m.kind, s.findPage m.kit m.kp with
      | .rehome, _ => m.dest
      | .demote, _ => m.dest
      | _, some p => p.index
      | _, none => 0
    (s.updMove m fun x => { x with table := true }).queueChord (.pageTable m.kit m.kp ch) (some (s.tablePayer m))
      (m.kp.toNat * 65536) (ptChord index) (zeros 64)

/-- A move begins: what it has to read and copy (R244, R252). -/
def State.beginMove (s : State) (m : Move) : State :=
  match s.findPage m.kit m.kp with
  | none => s.endMove m
  | some p =>
    let data := ~~~ p.zero
    match m.kind with
    | .rehome =>
      if p.slot.isSome then s.updMove m fun x => { x with going := true, todo := chordsIn data }
      else
        let e := s.entryLeft && data != 0
        s.updMove m fun x => { x with going := true, reads := data, entry := e }
    | .demote =>
      let s1 := s.closeMerges fun e => e.kit == m.kit && kpOf e.kaddr == m.kp
      (s1.updPage m.kit m.kp fun q => { q with redirty := s1.pendingSectors m.kit m.kp }).updMove m
        fun x => { x with going := true, todo := chordsIn data, progs := data }
    | .nearFill _ => s.updMove m fun x => { x with going := true, todo := List.range 1024 }
    | .promote =>
      -- it waits for its victim's slot (R248); a victim pinned meanwhile is one no more
      match s.pages.find? fun q => q.slot == some m.dest with
      | none =>
        let e := s.entryLeft && data != 0
        s.updMove m fun x => { x with going := true, reads := data, entry := e }
      | some q => if q.mainPin || q.impliedPin then s.endMove m else s.evict q
    | _ => s.updMove m fun x => { x with going := true }

/-- A demotion takes up again the sectors written since their copy (R252). -/
def State.redoDemote (s : State) (m : Move) : State :=
  match s.findPage m.kit m.kp with
  | none => s
  | some p =>
    let busy := m.todo.foldl (fun (b : BitVec 16) i => b ||| BitVec.ofNat 16 (2 ^ (i / 64))) 0
    let again := p.redirty &&& ~~~ s.pendingSectors m.kit m.kp &&& ~~~ busy
    if m.kind != .demote || again == 0 then s
    else
      (s.updPage m.kit m.kp fun q => { q with redirty := q.redirty &&& ~~~ again }).updMove m
        fun x => { x with todo := x.todo ++ chordsIn again, progs := x.progs ||| again }

/-- Whether a move waits: for another one of its page (R253), or, as a pass's re-homing, for the Kit's demotions that the
pass granted before it (R243). -/
def State.waitsFor (s : State) (m : Move) : Bool :=
  let earlier := s.moves.takeWhile fun x => !(x.kit == m.kit && x.kp == m.kp && x.kind == m.kind)
  (match s.moves.find? fun x => x.kit == m.kit && x.kp == m.kp with
   | some x => x.kind != m.kind
   | none => false)
  || (m.pass && m.kind == .rehome && !m.going && earlier.any fun x => x.pass && x.kit == m.kit && x.kind == .demote)

/-- One Beat of one move. -/
def State.moveBeat (m0 : Move) (s0 : State) : State :=
  if s0.waitsFor m0 then s0
  else
    let s1 := match s0.sameMove m0 with
      | some m => if m.going then s0.redoDemote m else s0.beginMove m
      | none => s0
    match s1.sameMove m0 with
    | none => s1
    | some m =>
      let e := !m.entry && m.reads != 0 && s1.entryLeft
      let r := s1.copyChords m m.todo
      let s2 := r.1.updMove m fun x => { x with todo := r.2, entry := x.entry || e }
      let new := (packReady m.todo r.2 m.progs).map fun x => (m.kit, m.kp, x, s0.bar.beatno)
      let s3 := { s2 with deep := { s2.deep with pack := s2.deep.pack ++ new } }
      match s3.sameMove m with
      | none => s3
      | some n =>
        let s4 := if n.entry && n.reads == 0 && !(s3.chordq.any fun q => q.1 == .move n.kit n.kp) then
            s3.updMove n fun x => { x with entry := false } else s3
        if n.going && !n.table && n.reads == 0 && n.todo.isEmpty && n.progs == 0 && s4.copied n && !s4.unquiet n then
          s4.tableMove n
        else s4

/-- The pins that call for a page to be resident start its promotion as soon as a slot is there (R240). -/
def State.bringPinned (s : State) : State :=
  forEach (fun (p : Page) (t : State) => t.startPromote p.kit p.kp p.nearPin none)
    (s.pages.filter fun p => (p.mainPin || p.impliedPin) && p.deepPage.isSome && p.slot.isNone
      && !s.moving p.kit p.kp) s

/-! ### Explicit requests that wait (07 R177 to R179) -/

/-- Whether all sixteen sectors of a page are in Near. -/
def State.wholeNear (s : State) (k : Kit) (kp : KPage) : Bool :=
  (List.range 16).all fun i =>
    match s.near.find? fun b => b.kit == k && b.kp == kp && b.sector.toNat == i with
    | some b => 64 ≤ b.lines.length
    | none => false

/-- Whether a page has any Near block. -/
def State.anyNear (s : State) (k : Kit) (kp : KPage) : Bool := s.near.any fun b => b.kit == k && b.kp == kp

/-- Bring a page whole into Near, unpinned, promoting it first (Table 9.2 MIGRATE_NOW 0). -/
def State.bringNear (s : State) (k : Kit) (kp : KPage) (fetch : Option (Engine × Option Nat)) : State :=
  match s.findPage k kp with
  | none => s
  | some p =>
    if p.deepPage.isSome && p.slot.isNone then s.startPromote k kp true fetch
    else if s.moves.any fun m => m.kit == k && m.kp == kp && (match m.kind with | .nearFill _ => true | _ => false) then s
    else s.addMove { mkMove k kp (.nearFill false) 0 with going := false, fetch := fetch }

/-- Whether MIGRATE_NOW has no more to do for a page: at its target, pinned at another tier, or
unbacked (R179, R240). -/
def State.migrated (s : State) (k : Kit) (arg : Nat) (kp : KPage) : Bool :=
  match s.findPage k kp with
  | none => true
  | some p =>
    let pinned := p.nearPin || p.mainPin || p.impliedPin
    match arg with
    | 0 => (!p.nearPin && pinned) || s.wholeNear k kp
    | 1 => p.nearPin || p.frame.isSome || p.slot.isSome
    | _ => pinned || (p.slot.isNone && !s.anyNear k kp && !(s.moving k kp && p.deepPage.isSome))

/-- MIGRATE_NOW goes on with a page (Table 9.2). -/
def State.migrate (k : Kit) (arg : Nat) (kp : KPage) (s : State) : State :=
  if s.migrated k arg kp then s
  else match s.findPage k kp with
    | none => s
    | some p =>
      match arg with
      | 0 => s.bringNear k kp none
      | 1 => s.startPromote k kp false none
      | _ =>
        if p.frame.isSome then s.nearRelease k kp
        else if p.slot.isNone then (if s.moving k kp then s else s.nearRelease k kp)
        else if p.dirty != 0 then s.startWriteBack k kp true
        else if s.moving k kp then s
        else s.addMove (mkMove k kp (.writeBack true) p.index)

/-- The pages that a request still waits for. -/
def State.stillWaits (s : State) (w : WaitJob) : List KPage :=
  match w.rq.opc.toNat with
  | 0x1B => w.pages.filter fun kp => !s.migrated w.kit (argOf w.rq) kp
  | _ => w.pages.filter fun kp => match s.findPage w.kit kp with | some p => !p.stable | none => false

/-- A request whose pages are all done replies (Table 7.5, R235). -/
def State.waitOver (w : WaitJob) (s : State) : State :=
  let s1 := match w.rq.opc.toNat with
    | 0x1B => forEach (State.migrate w.kit (argOf w.rq)) w.pages s
    | _ => s
  let left := s1.stillWaits w
  if left.isEmpty then
    ({ s1 with waits := s1.waits.filter fun x => x.rid != w.rid }).answer w.rid w.rq (some w.kit)
      (ans w.status.toNat w.detail.toNat)
  else { s1 with waits := updWhere (fun x => x.rid == w.rid) (fun x => { x with pages := left }) s1.waits }

/-- Every waiting request is looked at. -/
def State.waitsOver (s : State) : State := forEach State.waitOver s.waits s

/-- One Beat of all moves: pins, moves in order, packing, waiting requests. -/
def State.movesGoOn (s : State) : State :=
  let s1 := s.bringPinned
  let s2 := forEach State.moveBeat s1.moves s1
  (forEach (fun (k : Kit) (t : State) => t.packFull k (t.deep.pack.length + 1)) allKits s2).waitsOver

end Sys2Proof.Machine
end

