-- ==== Sys2Proof/Machine/Deep.lean ====
section
/-! DEFINITION. The Deep tier (10): NAND reads for moves, programs and erases, the translation map, scans, refresh and
wear-level relocation, retirement, reserve and Muted, die failure. -/

namespace Sys2Proof.Machine

/-! ### The map and the medium (R258, R259) -/

/-- Order of map entries. -/
def DeepEnt.key (e : DeepEnt) : Nat := e.page * 16 + e.sector.toNat

/-- Set a map entry, in order of page and sector. -/
def Deep.setEnt (d : Deep) (e : DeepEnt) : Deep :=
  { d with map := (d.map.filter fun y => y.key < e.key) ++ e :: d.map.filter fun y => e.key < y.key }

/-- The valid sectors of a block, those that still hold readable data (R267, R271). -/
def Deep.valid (d : Deep) (b : Nat) : List DeepEnt :=
  d.map.filter fun e => blkOf e.loc == b && e.poison != BitVec.allOnes 64

/-- The 64 chords of a sector as NAND holds them, encrypted, none where the map entry marks poison (13 R337). -/
def Deep.sectorChords (d : Deep) (e : DeepEnt) : List (Option (List Byte)) :=
  (List.range 64).map fun i =>
    if e.poison.getLsbD i then none else some (cellsRead d.nand (e.loc * 4096 + 64 * i) 64)

/-- The 64 chords of a sector of a Kit's page in the clear. -/
def State.openSector (s : State) (k : Kit) (kp : KPage) (e : DeepEnt) : List (Option (List Byte)) :=
  ((List.range 64).zip (s.deep.sectorChords e)).map fun c =>
    c.2.map (s.opened k (kp.toNat * 65536 + 4096 * e.sector.toNat + 64 * c.1))

/-! ### Blocks: refresh and retirement (R268 to R271) -/

/-- Change a block record. -/
def Deep.updBlk (d : Deep) (b : Nat) (f : DeepBlk → DeepBlk) : Deep := d.setBlk (f (d.blk b))

/-- Queue a block for refresh relocation, once; for retirement too when it comes within 4,096 Measures of its last
program (R269, R271). -/
def Deep.queueRefresh (d : Deep) (now b : Nat) : Deep :=
  let x := d.blk b
  if x.refresh.isSome || x.retired then d
  else
    { d.updBlk b (fun x => { x with refresh := some d.refreshSeq,
                                    retiring := x.retiring || measureOf now - x.lastProg < 4096 }) with
      refreshSeq := d.refreshSeq + 1 }

/-- Queue a block for retirement (R271). -/
def Deep.queueRetire (d : Deep) (b : Nat) : Deep :=
  let x := d.blk b
  if x.retired || x.retiring then d
  else { d.updBlk b (fun x => { x with retiring := true, refresh := x.refresh.or (some d.refreshSeq) }) with
         refreshSeq := d.refreshSeq + 1 }

/-- The reserve falls by `n` blocks: RESLOW, and NORELOC while Muted (R273, R275). -/
def State.reserveFalls (s : State) (n : Nat) : State :=
  let old := s.deep.reserve
  let new := old - n
  let d := { s.deep with reserve := new, retiredCt := up16 s.deep.retiredCt n,
                         noreloc := s.deep.noreloc || (s.deep.muted && new < 128) }
  let s1 := { s with deep := d }
  if s.deep.floor + 512 ≤ old && new < s.deep.floor + 512 then s1.raise .deep 0x10 else s1

/-- The bit of a block in the retired-block bitmap of Belfry pages 48 to 63 is set (14 R356, log 61). -/
def State.retireBit (s : State) (b : Nat) : State :=
  let a := 48 * 256 + b / 8
  s.belPut a [cellGet s.bel.mem a ||| BitVec.ofNat 8 (2 ^ (b % 8))] 1

/-- BLOCK_RETIRE (R271): a block whose valid sectors are gone is never used again. -/
def State.retireBlock (s : State) (b : Nat) : State :=
  let x := s.deep.blk b
  if x.retired then s
  else
    let die := b / 8192
    let dd := s.deep.dies.toList.getD die DeepDie.reset
    let d := s.deep.updBlk b fun x => { x with retired := true, retiring := false, refresh := none }
    let d1 := { d with dies := d.dies.set! die { dd with good := dd.good - 1 } }
    ((({ s with deep := d1 }).reserveFalls 1).retireBit b).raise .deep 0x02

/-! ### NAND reads (R262, R264, R266, R269, R272) -/

/-- Count one read of a NAND page of a block. -/
def Deep.countRead (d : Deep) (b retries codewords : Nat) : Deep :=
  let m := d.measure
  { d.updBlk b (fun x => { x with reads := satAdd 24 x.reads 1 }) with
    reads := up32 d.reads 1, measure := (m.1 + 1, m.2.1 + retries, m.2.2 + codewords) }

/-- A sector is found uncorrectable: counted, marked, its block queued for retirement (R266). -/
def State.sectorLost (s : State) (e : DeepEnt) : State :=
  let d := (s.deep.setEnt { e with poison := BitVec.allOnes 64 }).queueRetire (blkOf e.loc)
  ({ s with deep := { d with uncorr := up32 d.uncorr 1 } }).raise .deep 0x04

/-- The chords of a sector go to the move's frame (R262, R266). -/
def State.putSector (s : State) (m : Move) (x : BitVec 4) (cs : List (Option (List Byte))) : State :=
  forEach (fun (c : Nat × Option (List Byte)) (t : State) => t.putChord m (64 * x.toNat + c.1) c.2)
    ((List.range 64).zip cs) s

/-- A sector of a move is at hand: it fills the buffer and goes on to the frame. -/
def State.sectorIn (s : State) (m : Move) (x : BitVec 4) (cs : List (Option (List Byte))) (lost : Bool) : State :=
  let bit := BitVec.ofNat 16 (2 ^ x.toNat)
  (s.putSector m x cs).updMove m fun n =>
    { n with reads := n.reads &&& ~~~ bit, lost := if lost then n.lost ||| bit else n.lost }

/-- One sector of a promotion read ends (R262, R264, R266). -/
def State.sectorRead (m : Move) (index : Nat) (r : BitVec 4 × SectorRead) (s : State) : State :=
  if !m.reads.getLsbD r.1.toNat then s
  else match s.deep.find index r.1 with
    | none => s.sectorIn m r.1 (List.replicate 64 (some (zeros 64))) false
    | some e =>
      let b := blkOf e.loc
      match r.2 with
      | .good n =>
        let d := if s.deep.refreshBer ≤ n.toNat then s.deep.queueRefresh s.bar.beatno b else s.deep
        ({ s with deep := d }).sectorIn m r.1 (s.openSector m.kit m.kp e) false
      | .retry =>
        { s with deep := s.deep.queueRefresh s.bar.beatno b }
      | .uncorrectable => (s.sectorLost e).sectorIn m r.1 (List.replicate 64 none) true

/-- DEEPRETRY of a read that ended after retry steps (18 Table 18.6). -/
def State.retryRecord (s : State) (b steps : Nat) : State :=
  s.tally 0x31 none (b / 8192 + 2 ^ 8 * steps + 2 ^ 16 * b)

/-- Each NAND page that the sectors awaited by a move lie in is read once, by one attempt (R262, R264, R272). -/
def State.countPages (s : State) (m : Move) (index : Nat) (rs : List (BitVec 4 × SectorRead)) : State :=
  let hits := rs.filterMap fun r =>
    if m.reads.getLsbD r.1.toNat then (s.deep.find index r.1).map fun e => (e.loc / 4, r.2) else none
  let pages := (hits.map fun x => x.1).eraseDups
  let one := fun (d : Deep) (p : Nat) =>
    let mine := hits.filter fun x => x.1 == p
    d.countRead (p / 1024) (b2n (mine.any fun x => x.2 == .retry)) mine.length
  let ended := pages.filter fun p => m.retries != 0 && !(hits.any fun x => x.1 == p && x.2 == .retry)
  forEach (fun (p : Nat) (t : State) => t.retryRecord (p / 1024) m.retries) ended { s with deep := pages.foldl one s.deep }

/-- A completed read ends a die's stalls (R265). -/
def Deep.dieAlive (d : Deep) (die : Nat) : Deep :=
  let x := d.dies.toList.getD die DeepDie.reset
  if x.failed then d else { d with dies := d.dies.set! die { x with stalls := 0 } }

/-- The move of a page that reads from Deep and holds a buffer entry. -/
def State.reading (s : State) (k : Kit) (kp : KPage) : Option Move :=
  s.moves.find? fun m => m.kit == k && m.kp == kp && m.reads != 0 && m.entry

/-- PROMOTION_READ_DONE (R262). -/
def State.promotionRead (s : State) (k : Kit) (kp : KPage) (rs : List (BitVec 4 × SectorRead)) : State :=
  match s.reading k kp, s.findPage k kp with
  | some m, some p =>
    let s1 := forEach (fun (r : BitVec 4 × SectorRead) (t : State) =>
      match t.sameMove m with
      | some n => t.sectorRead n p.index r
      | none => t) rs (s.countPages m p.index rs)
    let dies := rs.filterMap fun r => (s.deep.find p.index r.1).map fun e => e.loc / 2 ^ 25
    let retried := rs.any fun r => r.2 == .retry && m.reads.getLsbD r.1.toNat && (s.deep.find p.index r.1).isSome
    let s2 := { s1 with deep := dies.foldl Deep.dieAlive s1.deep }
    s2.updMove m fun n => { n with retries := if retried then min 7 (n.retries + 1) else 0 }
  | _, _ => s

/-- Sectors on a failed die count as uncorrectable without a read (R277). -/
def State.deadReads (s : State) : State :=
  forEach (fun (m : Move) (t : State) =>
    if m.reads == 0 || !m.entry then t
    else match t.findPage m.kit m.kp with
      | none => t
      | some p =>
        forEach (fun (x : BitVec 4) (u : State) =>
          match u.deep.find p.index x, u.sameMove m with
          | some e, some n =>
            if (u.deep.dies.toList.getD (e.loc / 2 ^ 25) DeepDie.reset).failed then
              u.sectorIn n x (List.replicate 64 none) true else u
          | _, _ => u) (sectors m.reads) t) s.moves s

/-! ### Programs and erases (R259, R261, R263) -/

/-- A funded operation goes to its die. -/
def State.startDeep (s : State) (op : DeepOp) : State :=
  let i := op.die
  let x := s.deep.dies.toList.getD i DeepDie.reset
  let q := match takeFirst (fun o => o == op) s.deep.queue with
    | some (_, rest) => rest
    | none => s.deep.queue
  { s with deep := { s.deep with queue := q, dies := s.deep.dies.set! i { x with busy := some op, suspends := 0, suspended := false } } }

/-- The chords of a sector as a write-back or demotion takes them: the confirmed values in Main (R252, R247). -/
def State.mainSector (s : State) (k : Kit) (kp : KPage) (x : BitVec 4) : List (Option (List Byte)) :=
  (List.range 64).map fun i =>
    let a := kp.toNat * 65536 + 4096 * x.toNat + 64 * i
    match s.viewConfirmed k a with
    | .val d => some d
    | .array c _ _ => (s.decodeOf k a c).value
    | _ => none

/-- The same chords as NAND takes them, encrypted (08 R215). -/
def State.sealedSector (s : State) (k : Kit) (kp : KPage) (x : BitVec 4) : List (Option (List Byte)) :=
  ((List.range 64).zip (s.mainSector k kp x)).map fun c =>
    c.2.map (s.sealed k (kp.toNat * 65536 + 4096 * x.toNat + 64 * c.1))

/-- The poison mask of 64 chords. -/
def poisonMask (cs : List (Option (List Byte))) : BitVec 64 :=
  BitVec.ofNat 64 (((List.range 64).zip cs).map fun c => if c.2.isNone then 2 ^ c.1 else 0).sum

/-- Write a sector's bytes to NAND and commit its new place to the map (R259, R261). -/
def Deep.commit (d : Deep) (page : Nat) (x : BitVec 4) (loc : Nat) (cs : List (Option (List Byte))) : Deep :=
  let bytes := (cs.map fun c => c.getD (zeros 64)).flatten
  ({ d with nand := cellsWrite d.nand (loc * 4096) bytes }).setEnt ⟨page, x, loc, poisonMask cs⟩

/-- The move that a program of a page's sector serves. -/
def State.progMove (s : State) (k : Kit) (kp : KPage) (x : BitVec 4) : Option Move :=
  s.moves.find? fun m => m.kit == k && m.kp == kp && m.progs.getLsbD x.toNat

/-- One programmed sector of `n` in its NAND page is committed: the map, the dirty bit, the move (R246, R247, R261). Its MOVE
record names its share of the program's 24 Strokes (18 Table 18.6). -/
def State.sectorOut (s : State) (y : Kit × KPage × BitVec 4) (loc n : Nat) : State :=
  match s.progMove y.1 y.2.1 y.2.2 with
  | none => s
  | some m =>
    let bit := BitVec.ofNat 16 (2 ^ y.2.2.toNat)
    let s1 := { s with deep := s.deep.commit m.dest y.2.2 loc (s.sealedSector y.1 y.2.1 y.2.2) }
    let s2 := s1.updMove m fun n => { n with progs := n.progs &&& ~~~ bit }
    match m.kind with
    | .writeBack _ =>
      let s3 := s2.updPage y.1 y.2.1 fun p => { p with dirty := p.dirty &&& ~~~ (bit &&& ~~~ p.redirty) }
      ({ s3 with tier := { s3.tier with writebacks := up32 s3.tier.writebacks 1 } }).tally 0x30 (some y.1)
        (m.dest % 2 ^ 24 + 2 ^ 24 * m.kind.code + 2 ^ 32 * (24 / n))
    | _ => s2

/-- A relocated sector is committed at its new place (R261). -/
def State.relocated (s : State) (y : Nat × BitVec 4) (loc : Nat) : State :=
  match s.deep.find y.1 y.2 with
  | none => s
  | some e => { s with deep := s.deep.commit y.1 y.2 loc (s.deep.sectorChords e) }

/-- A failed program: its block is queued for retirement, its sectors are programmed elsewhere (R271). -/
def State.programAgain (s : State) (op : DeepOp) (b : Nat) : State :=
  let s1 := { s with deep := s.deep.queueRetire b }
  match s1.deep.nextPlace with
  | none => s1
  | some (die, loc) =>
    let again := match op with
      | .program k ss _ => DeepOp.program k ss loc
      | .relocate ss _ => DeepOp.relocate ss loc
      | .erase x => .erase x
    { s1 with deep := s1.deep.queueAt s.bar.beatno die loc again }

/-- The die of a position is idle again. -/
def State.dieIdle (s : State) (die : Fin 4) : State :=
  let x := s.deep.dies[die]
  { s with deep := { s.deep with dies := s.deep.dies.set die { x with busy := none, stalls := 0, suspends := 0, suspended := false } } }

/-- NAND_PROGRAM_DONE (R261, R271). -/
def State.programDone (s : State) (die : Fin 4) (good : Bool) : State :=
  match (s.deep.dies[die]).busy with
  | some (.program k ss loc) =>
    let s1 := s.dieIdle die
    if good then
      let s2 := forEach (fun (y : Nat × (Kit × KPage × BitVec 4)) (t : State) => t.sectorOut y.2 (loc + y.1) ss.length)
        ((List.range ss.length).zip ss) s1
      { s2 with deep := { s2.deep with programs := up32 s2.deep.programs 1 } }
    else s1.programAgain (.program k ss loc) (blkOf loc)
  | some (.relocate ss loc) =>
    let s1 := s.dieIdle die
    if good then
      let s2 := forEach (fun (y : Nat × (Nat × BitVec 4)) (t : State) => t.relocated y.2 (loc + y.1))
        ((List.range ss.length).zip ss) s1
      { s2 with deep := { s2.deep with programs := up32 s2.deep.programs 1, reloc := up32 s2.deep.reloc 1 } }
    else s1.programAgain (.relocate ss loc) (blkOf loc)
  | _ => s

/-- NAND_ERASE_DONE (R269, R271). -/
def State.eraseDone (s : State) (die : Fin 4) (good : Bool) : State :=
  match (s.deep.dies[die]).busy with
  | some (.erase b) =>
    let s1 := s.dieIdle die
    if good then
      let d := s1.deep.updBlk b fun x =>
        { x with reads := 0, erases := satAdd 16 x.erases 1, fill := 0, refresh := none }
      { s1 with deep := { d with erases := up32 d.erases 1 } }
    else s1.retireBlock b
  | _ => s

/-- PACK_WAIT_EXPIRY (R259): a Kit's oldest waiting sector has waited PACK_WAIT × 16 Beats. -/
def State.packExpired (s : State) (k : Kit) : State :=
  if s.deep.pack.any fun x => x.1 == k && s.deep.packWait * 16 ≤ elapsed x.2.2.2 s.bar.beatno then s.packOne k else s

/-! ### Relocation (R267, R269, R270) -/

/-- The block that relocation works on: the oldest queued, or, while write-backs are held, the used block with the fewest
valid sectors (R267, R269). -/
def Deep.source (d : Deep) : Option Nat :=
  let queued := (d.blks.filter fun b => b.refresh.isSome && !b.retired).map fun b => (b.refresh.getD 0, b.blk)
  let few := if d.wbHeld then
      (d.blks.filter fun b => b.fill == 1024 && !b.retired).map fun b => ((d.valid b.blk).length, b.blk) else []
  let best := fun (l : List (Nat × Nat)) => match l with
    | [] => none
    | x :: xs => some (xs.foldl (fun (a y : Nat × Nat) => if y.1 < a.1 || (y.1 == a.1 && y.2 < a.2) then y else a) x)
  ((best queued).or (best few)).map fun (x : Nat × Nat) => x.2

/-- The sectors that a waiting or running relocation carries. -/
def Deep.carried (d : Deep) : List (Nat × BitVec 4) :=
  let of := fun (o : DeepOp) => match o with | .relocate ss _ => ss | _ => []
  (d.queue.map of).flatten ++ (d.dies.toList.map fun x => match x.busy with | some o => of o | none => []).flatten

/-- The next NAND page of the block to which wear levelling moves a block's sectors (R270). -/
def Deep.wlPlace (d : Deep) (b : Nat) : Option (Nat × Nat) :=
  match d.wlTo with
  | some (src, dst) =>
    let x := d.blk dst
    if src == b && x.fill < 1024 && !x.retired && !x.retiring then some (dst / 8192, (dst * 1024 + x.fill) * 4) else none
  | none => none

/-- A relocation read of a block ends: up to four of its sectors go to a relocation program (R269). -/
def State.relocateFrom (s : State) (b : Nat) : State :=
  let busy := s.deep.carried
  let left := ((s.deep.valid b).map fun e => (e.page, e.sector)).filter fun x => !busy.contains x
  match left.take 4, (s.deep.wlPlace b).or s.deep.nextPlace with
  | [], _ => s
  | _, none => s
  | four, some (die, loc) => { s with deep := s.deep.queueAt s.bar.beatno die loc (.relocate four loc) }

/-- Whether an operation is one on a block. -/
def DeepOp.onBlock (o : DeepOp) (b : Nat) : Bool :=
  match o with
  | .program _ _ l => blkOf l == b
  | .relocate _ l => blkOf l == b
  | .erase x => x == b

/-- A relocated block without valid sectors is erased, or retired where it is queued for that (R261, R267, R269, R271). -/
def State.emptyBlocks (s : State) : State :=
  forEach (fun (x : DeepBlk) (t : State) =>
    if x.retired || (x.refresh.isNone && !x.retiring && !(t.deep.wbHeld && x.fill == 1024)) then t
    else if !(t.deep.valid x.blk).isEmpty then t
    else if t.deep.queue.any (fun o => o.onBlock x.blk) then t
    else if x.retiring then t.retireBlock x.blk
    else if t.deep.dies.toList.any (fun d => d.busy.any fun o => o.onBlock x.blk) then t
    else { t with deep := { t.deep with queue := t.deep.queue ++ [.erase x.blk] } }) s.deep.blks s

/-- Held and released write-backs (R267). -/
def State.holdBacks (s : State) : State :=
  let n := s.deep.freeBlk
  { s with deep := { s.deep with
      wbHeld := if n < Config.deepFreeLow then true else if Config.deepFreeHigh ≤ n then false else s.deep.wbHeld } }

/-- The cleaner: past TIER_CLEAN_THR, and for every dirty slot in the drain of Muted, the oldest dirty slot is written
back (09 R246, 10 R275). -/
def State.clean (s : State) : State :=
  let dirty := s.pages.filter fun p => p.slot.isSome && p.dirty != 0
  let idle := dirty.filter fun p => !s.moving p.kit p.kp
  let late := s.resSlots * s.tier.cleanThr < 100 * idle.length
  if (late || s.deep.drain) && !s.deep.wbHeld then
    match victim s.bar.beatno (idle.map fun p => (p.age, p.slot.getD 0)) with
    | none => s
    | some v => match idle.find? fun p => p.slot == some v.2 with
      | some p => s.startWriteBack p.kit p.kp false
      | none => s
  else s

/-- The drain of Muted ends once no dirty sector is left (R275). -/
def State.drainOver (s : State) : State :=
  if s.deep.drain && !(s.pages.any fun p => p.slot.isSome && (p.dirty != 0 || p.dirtyDue != 0)) then
    { s with deep := { s.deep with drain := false } } else s

/-- A die is suspended for the promotion and request reads that wait at it, at most 4 times in an operation, and resumes after
them (R263). -/
def DeepDie.readsWait (x : DeepDie) (may waits : Bool) : DeepDie :=
  if x.busy.isNone then x
  else if x.suspended then { x with suspended := waits }
  else if may && waits && x.suspends < 4 then { x with suspended := true, suspends := x.suspends + 1 }
  else x

/-- Programs and erases give way to reads (R263). That a suspended operation ends is known from its event alone. -/
def State.suspends (s : State) : State :=
  let one := fun (i : Fin 4) => s.deep.dies[i].readsWait s.deep.suspend (s.readsOn i.val)
  { s with deep := { s.deep with dies := Vector.ofFn one } }

/-- Deep's own work in a Beat (Table 10.3): held write-backs, the cleaner, blocks that relocation emptied. -/
def State.deepGoesOn (s : State) : State :=
  if s.mode.traffic then (((((s.deadReads).suspends).holdBacks).clean).drainOver).emptyBlocks else s

/-- The free block with the highest erase count, the lower index on equal counts (R270); blocks without a record have none. -/
def Deep.wornFree (d : Deep) : Option Nat :=
  let free := d.blks.filter fun b => b.fill == 0 && b.erases != 0 && !b.retired && !b.retiring && b.refresh.isNone
    && 64 ≤ b.blk % 8192 && !(d.dies.toList.getD (b.blk / 8192) DeepDie.reset).failed
  match free with
  | [] => (List.range 4).findSome? fun i => if (d.dies.toList.getD i DeepDie.reset).failed then none
      else
        let used := (d.blks.filter fun b => b.fill != 0 || b.retired || b.retiring).map fun b => b.blk
        let f := lowestFree used used.length (i * 8192 + 64)
        if f < (i + 1) * 8192 then some f else none
  | x :: xs => some (xs.foldl (fun a b => if a.erases < b.erases || (a.erases == b.erases && b.blk < a.blk) then b else a) x).blk

/-- Wear levelling of a block begins: it is queued for relocation, to the block chosen (R270). -/
def Deep.wlBegin (d : Deep) (b bar : Nat) : Deep :=
  { d.updBlk b (fun x => { x with refresh := some d.refreshSeq }) with
    refreshSeq := d.refreshSeq + 1, lastWl := some bar, wlTo := d.wornFree.map fun f => (b, f) }

/-- WEAR_LEVEL (R270): at most once per Bar the sectors of the block with the lowest erase count go to the free block with
the highest. -/
def State.wearLevel (s : State) : State :=
  let used := s.deep.blks.filter fun b => b.fill != 0 && !b.retired
  let hi := used.foldl (fun a b => max a b.erases) 0
  match used with
  | [] => s
  | x :: xs =>
    let low := xs.foldl (fun a b => if b.erases < a.erases || (b.erases == a.erases && b.blk < a.blk) then b else a) x
    if s.deep.wlSpread < hi - low.erases && s.deep.lastWl != some s.barNo && !s.deep.noreloc && low.refresh.isNone then
      { s with deep := s.deep.wlBegin low.blk s.barNo }
    else s

/-! ### Scans (R268, R269) -/

/-- The blocks of a scan step: the most read, then the next of the retention rotation (R268). -/
def Deep.scanBlocks (d : Deep) : List Nat × Nat :=
  let used := d.blks.filter fun b => b.fill != 0 && !b.retired
  let hot := (used.filter fun b => d.rdThr ≤ b.reads).mergeSort fun (a b : DeepBlk) =>
    b.reads < a.reads || (a.reads == b.reads && a.blk ≤ b.blk)
  let next := match used.find? fun b => d.rotate ≤ b.blk with
    | some b => some b.blk
    | none => used.head?.map fun b => b.blk
  match next with
  | some b => ((hot.take d.scanBlks).map (fun (x : DeepBlk) => x.blk) ++ [b], b + 1)
  | none => ((hot.take d.scanBlks).map (fun (x : DeepBlk) => x.blk), d.rotate)

/-- DEEP_SCAN_STEP (R268): in Run and Degraded, at Bar mod 64 = 0, Beat 64; a step that has not begun by then is
dropped (02 R47). -/
def State.scanStep (s : State) : State :=
  if !((s.mode == .run || s.mode == .degraded) && s.barNo % 64 == 0 && s.beatIx == 64) then s
  else
    let d := s.deep
    let unbegun := d.scanQ.length != 0 && d.scanQ.all fun b => (d.scanQ.filter fun x => x == b).length == 3
    let r := d.scanBlocks
    let new := (r.1.eraseDups.map fun b => [b, b, b]).flatten
    { s with deep := { d with scanQ := if unbegun then new else d.scanQ ++ new, rotate := r.2,
                              scanDrop := up32 d.scanDrop (b2n unbegun) } }

/-- The NAND pages that a scan reads, in order (R268). -/
def scanPage (left : Nat) : Nat := if left % 3 == 0 then 0 else if left % 3 == 2 then 511 else 1023

/-- The codewords of a NAND page that hold sectors. -/
def Deep.onPage (d : Deep) (b page : Nat) : List DeepEnt := d.map.filter fun e => e.loc / 4 == b * 1024 + page

/-- An uncorrectable codeword of a NAND page: which of its sectors it is, is a free value (log 2). -/
def State.lostOnPage (s : State) (es : List DeepEnt) : State :=
  match es with
  | [] => s
  | _ =>
    let i := (Config.freeWord s.free).toNat % es.length
    match es[i]? with
    | some e => (s.spend 1).sectorLost e
    | none => s

/-- SCAN_READ_DONE (R268, R269): a scan read, or a relocation read, of a block ends. -/
def State.scanRead (s0 : State) (b corrected retries : Nat) (bad : Bool) : State :=
  let s := if retries == 0 || !(s0.deep.scanQ.contains b || (s0.deep.source == some b && !s0.deep.noreloc)) then s0
    else s0.retryRecord b retries
  let left := (s.deep.scanQ.filter fun x => x == b).length
  let d := s.deep.countRead b retries 4
  let weak := s.deep.refreshBer ≤ corrected || retries != 0
  if left != 0 then
    let q := match takeFirst (fun x => x == b) d.scanQ with | some (_, r) => r | none => d.scanQ
    let d1 := { d with scanQ := q, scans := up32 d.scans (b2n (left % 3 == 1)) }
    let d2 := if weak then d1.queueRefresh s.bar.beatno b else d1
    let s1 := { s with deep := d2.dieAlive (b / 8192) }
    if bad then s1.lostOnPage (s1.deep.onPage b (scanPage left)) else s1
  else if s.deep.source == some b && !s.deep.noreloc then
    let s1 := { s with deep := d.dieAlive (b / 8192) }
    if bad then s1.lostOnPage (s1.deep.valid b) else s1.relocateFrom b
  else s

/-! ### Stalls, die failure, Muted (R265, R273 to R277) -/

/-- DEEP_DIE_FAIL (R277). -/
def State.deepDieFails (s : State) (die : Fin 4) : State :=
  let x := s.deep.dies[die]
  if x.failed then s
  else
    let lost := s.deep.map.filter fun e => e.loc / 2 ^ 25 == die.val && e.poison != BitVec.allOnes 64
    let map := s.deep.map.map fun (e : DeepEnt) =>
      if e.loc / 2 ^ 25 == die.val then { e with poison := BitVec.allOnes 64 } else e
    let d := { s.deep with
      map := map, uncorr := up32 s.deep.uncorr lost.length,
      dies := s.deep.dies.set die { x with failed := true, good := 0, online := false, busy := none, suspended := false },
      scanQ := s.deep.scanQ.filter (fun b => b / 8192 != die.val) }
    let mine := (match x.busy with | some o => [o] | none => []) ++ s.deep.queue.filter fun o => o.die == die.val
    let s1 := { s with deep := { d with queue := d.queue.filter (fun o => o.die != die.val) } }
    let gone := 8192 - (s1.deep.blks.filter fun b => b.retired && b.blk / 8192 == die.val).length
    let s2 := ((s1.reserveFalls gone).raise .deep 0x20).belPut (48 * 256 + 1024 * die.val) (List.replicate 1024 0xFF) 32
    let s3 := if lost.isEmpty then s2 else s2.raise .deep 0x04
    forEach (fun (o : DeepOp) (t : State) => match o with
      | .erase _ => t
      | .program _ _ l => t.programAgain o (blkOf l)
      | .relocate _ l => t.programAgain o (blkOf l)) mine s3

/-- Whether anything waits on a die. -/
def State.waitsOn (s : State) (die : Fin 4) : Bool :=
  ((s.deep.dies[die]).busy).isSome || s.deep.queue.any (fun o => o.die == die.val)
    || s.deep.scanQ.any (fun b => b / 8192 == die.val)
    || s.readsOn die.val

/-- DIE_STALL (R265): 12 ms without a completed operation; the third in a row fails the die. -/
def State.dieStalls (s : State) (die : Fin 4) : State :=
  let x := s.deep.dies[die]
  if x.failed || !s.waitsOn die then s
  else if 2 ≤ x.stalls then s.deepDieFails die
  else { s with deep := { s.deep with dies := s.deep.dies.set die { x with stalls := x.stalls + 1 } } }

/-- MUTED_ENTRY (R273, R275). -/
def State.mute (s : State) : State :=
  if s.deep.muted || s.deep.floor ≤ s.deep.reserve then s
  else
    let dirty := s.pages.any fun p => p.slot.isSome && (p.dirty != 0 || p.dirtyDue != 0)
    let d := { s.deep with muted := true, drain := dirty, noreloc := s.deep.noreloc || s.deep.reserve < 128 }
    ((({ s with deep := d }).raise .deep 0x01).logRec 0x0402 s.deep.reserve).queueRec .deviceState

/-- DEEP_MAP_READY (R279): in Join the map is recovered, and the dies that identified are online. -/
def State.mapReady (s : State) : State :=
  if s.mode != .join then s
  else
    { s with deep := { s.deep with ready := true, dies := s.deep.dies.map fun x => { x with online := !x.failed } } }

/-! ### The rows -/

/-- PROMOTION_READ_DONE (R262). -/
def execPromotionReadDone (k : Kit) (kp : KPage) (rs : List (BitVec 4 × SectorRead)) (s : State) :
    Host.Outcome State Fault Refusal := .next (s.promotionRead k kp rs)
/-- NAND_PROGRAM_DONE (R261). -/
def execNandProgramDone (die : Fin 4) (good : Bool) (s : State) : Host.Outcome State Fault Refusal :=
  .next (s.programDone die good)
/-- NAND_ERASE_DONE (R271). -/
def execNandEraseDone (die : Fin 4) (good : Bool) (s : State) : Host.Outcome State Fault Refusal :=
  .next (s.eraseDone die good)
/-- PACK_WAIT_EXPIRY (R259). -/
def execPackWaitExpiry (k : Kit) (s : State) : Host.Outcome State Fault Refusal := .next (s.packExpired k)
/-- DIE_STALL (R265). -/
def execDieStall (die : Fin 4) (s : State) : Host.Outcome State Fault Refusal := .next (s.dieStalls die)
/-- MUTED_ENTRY (R273). -/
def execMutedEntry (s : State) : Host.Outcome State Fault Refusal := .next s.mute
/-- DEEP_MAP_READY (R279). -/
def execDeepMapReady (s : State) : Host.Outcome State Fault Refusal := .next s.mapReady
/-- DEEP_SCAN_STEP (R268). -/
def execDeepScanStep (s : State) : Host.Outcome State Fault Refusal := .next s.scanStep
/-- SCAN_READ_DONE (R269). -/
def execScanReadDone (block : BitVec 15) (corrected : BitVec 8) (retries : BitVec 3) (uncorrectable : Bool) (s : State) :
    Host.Outcome State Fault Refusal :=
  .next (s.scanRead block.toNat corrected.toNat retries.toNat uncorrectable)

end Sys2Proof.Machine
end

