-- ==== Sys2Proof/Machine/Checks.lean ====
section
/-! DEFINITION. The checks of a request in the order of Table 6.5 (06 R152), opcode by opcode (07): steps 3 to 10. -/

namespace Sys2Proof.Machine

/-! ### Steps 3 to 6 -/

/-- A header's Kit: the live, unsuspended Kit that holds (SNODE, KTAG) in force (R209). -/
def State.bindingOf (s : State) (node : Node) (ktag : BitVec 4) : Option Kit :=
  s.liveKits.find? fun k => !(s.kit k).suspended &&
    (s.kit k).binds.any fun b => b.node == node && b.ktag == ktag && inForce b.from_ s.bar.beatno

/-- The Kit of a request: over I3C the house kit (R162). -/
def State.kitOf (s : State) (rq : Req) : Option Kit :=
  match rq.via with
  | .i3c => some 0
  | .ring _ => s.bindingOf rq.snode rq.ktag

/-- The ring bit that a request must carry (R139). -/
def ringIsB : Ring → Bool
  | .a => false
  | .b => true

/-- Step 4: REPLY, then SNODE and RING (R139, R141); the header byte that fails. -/
def sourceBad (rq : Req) : Option Nat :=
  if rq.reply then some 1
  else match rq.via with
    | .i3c => none
    | .ring r => if rq.snode == rq.src && rq.ringBit == ringIsB r then none else some 2

/-- Step 6: whether a mode serves an opcode on an interface (Table 7.2, R165). -/
def modeServes (m : Mode) (via : Via) (o : Nat) : Bool :=
  match via with
  | .ring _ =>
    match m with
    | .run | .degraded | .freewheel | .rest => true
    | _ => false
  | .i3c =>
    match m with
    | .run | .degraded | .freewheel | .rest => (match opRow o with | some r => r.i3c | none => false)
    | .held | .morningToll | .fill | .join | .eveningToll => o == 0x01 || o == 0x02 || o == 0x40
    | .knelled => o == 0x5A
    | .off | .hibernate => false

/-- Step 6 with the register blocks of Table 19.9. -/
def State.modeOk (s : State) (rq : Req) : Bool :=
  let o := rq.opc.toNat
  modeServes s.mode rq.via o &&
    (rq.via != .i3c || !(o == 0x40 || o == 0x41) ||
      (csrChecked (csrOff rq) (lenOf rq)).all (fun x => i3cServes s.mode (o == 0x41) x))

/-! ### Step 7: rights -/

/-- The kit addresses that windows are checked on: first byte and byte count (R152 step 10, R153, R174, R177). -/
def spanOf (rq : Req) : Option (Nat × Nat) :=
  match rq.opc.toNat with
  | 0x10 | 0x11 => some (addrOf rq, max 1 (lenOf rq))
  | 0x12 => some (addrOf rq, max 1 (64 * (lenOf rq / 72)))
  | 0x18 | 0x19 | 0x1A | 0x1B | 0x1C => some (addrOf rq, countOf rq * 65536)
  | _ => none

/-- What a memory opcode asks of every window that it touches (R164, R178, R240). -/
def windowRight (o : Nat) (w : Window) : Bool :=
  match o with
  | 0x10 | 0x1C => w.rd
  | 0x11 | 0x12 => w.wr
  | 0x18 => w.wr && !w.auto && w.srcKit.isNone
  | _ => w.rd && w.srcKit.isNone

/-- Belfry pages 16 to 31 are hidden (R194, R218). -/
def hiddenPage (p : Nat) : Bool := 16 ≤ p && p ≤ 31

/-- Whether a page of the Belfry is sealed (R375). -/
def Bel.sealed (b : Bel) (p : Nat) : Bool := b.seals.getLsbD p

/-- Whether an engine's state names another Kit as its owner (R184, R185, R327). -/
def State.foreignEngine (s : State) (k : Kit) (rq : Req) : Bool :=
  k != 0 && pb rq 9 < 8 && (s.eng (engIx (pb rq 9))).kit != k

/-- The kit addresses that a write stores to: those of WRITE_MASKED units with any mask bit set (R174). -/
def writtenPages (rq : Req) : List Nat :=
  if rq.opc == 0x12 then
    ((List.range (lenOf rq / 72)).filter fun i => fieldAt rq.payload (72 * i) 8 != 0).map fun i => addrOf rq + 64 * i
  else pageStarts (addrOf rq) (max 1 (lenOf rq))

/-- While Deep is Muted: a write to a Deep-homed page, or one that would back a page in Deep, and PLACE into Deep of a page
that is not there (10 R274, log 12). -/
def State.mutedBad (s : State) (k : Kit) (rq : Req) : Bool :=
  s.deep.muted &&
  (match rq.opc.toNat with
   | 0x11 | 0x12 => (writtenPages rq).any fun a =>
       match s.findPage k (kpOf a) with
       | some p => p.deepPage.isSome
       | none => !(s.autoAt k (kpOf a) && s.tier.newhome && (s.homeChoice k).isSome)
   | 0x18 => argOf rq == 2 && (pageStarts (addrOf rq) (countOf rq * 65536)).any fun a =>
       match s.findPage k (kpOf a) with
       | some p => p.frame.isSome
       | none => true
   | _ => false)

/-- Step 7: the reason of a DENIED, if any (R164, R184, R185, R194, R195, R200, R450). -/
def State.rightBad (s : State) (beat : Nat) (k : Kit) (rq : Req) : Option Nat :=
  let o := rq.opc.toNat
  let house := match opRow o with | some r => r.house | none => false
  if house && k != 0 then some 1
  else match o with
    | 0x22 => if s.foreignEngine k rq && (s.eng (engIx (pb rq 9))).state != .idle then some 1 else none
    | 0x23 => if s.foreignEngine k rq then some 1 else none
    | 0x40 => if (csrChecked (csrOff rq) (lenOf rq)).all (s.mayRead k) then none else some 1
    | 0x41 => if (csrChecked (csrOff rq) (lenOf rq)).all (s.mayWrite k) then none else some 1
    | 0x48 =>
      let a := prm rq % 65536
      if a < 8192 && 4096 < a + max 1 (lenOf rq) then some 4 else none
    | 0x49 =>
      let p := prm rq % 65536 / 256
      if hiddenPage p then some 4 else if p < 128 || 191 < p || s.bel.sealed p then some 3 else none
    | 0x58 => if pb rq 8 ≤ 3 && k != 0 then some 1 else none
    | _ =>
      match spanOf rq with
      | some (a, n) =>
        if n == 0 || s.everyWindow beat k a n (windowRight o) then (if s.mutedBad k rq then some 6 else none) else some 2
      | none => none

/-! ### Step 9: PARAM and payload -/

/-- The header byte of the first field that fails, in ascending order (R151). -/
def firstBad (l : List (Nat × Bool)) : Option Nat := (l.find? fun x => !x.2).map fun x => detHdr x.1
/-- The payload offset of the first field that fails. -/
def firstBadPay (l : List (Nat × Bool)) : Option Nat := (l.find? fun x => !x.2).map fun x => detPay x.1
/-- The first failure of two. -/
def orBad (a b : Option Nat) : Option Nat := match a with | some x => some x | none => b

/-- Bytes `i` to `j` of PARAM are 0. -/
def pz (rq : Req) (i j : Nat) : Bool := prm rq / 256 ^ (i - 8) % 256 ^ (j - i + 1) == 0

/-- The page limit of a page-range opcode for its ARG (Table 7.5). -/
def countLimit (o arg : Nat) : Nat :=
  match o with
  | 0x1B => 16
  | 0x1C => if arg == 1 || arg == 2 then 16 else if arg == 3 then 1 else 65535
  | _ => 65535

/-- The ARG values of a page-range opcode (Table 7.5). -/
def argOk (o arg : Nat) : Bool :=
  match o with
  | 0x18 | 0x19 => arg == 1 || arg == 2
  | 0x1A => 1 ≤ arg && arg ≤ 3
  | 0x1B => arg ≤ 2
  | _ => arg ≤ 3

/-- Table 7.4. -/
def pageRangeBad (rq : Req) : Option Nat :=
  let o := rq.opc.toNat
  firstBad [(8, prm rq % 65536 == 0), (12, bits (prm rq) 39 39 == 0),
    (13, 1 ≤ countOf rq && countOf rq ≤ countLimit o (argOf rq)), (15, argOk o (argOf rq) && bits (prm rq) 63 60 == 0)]

/-- The payload of MUFFLE_DECLARE with ARG 3 (R180). -/
def muffleBad (rq : Req) : Option Nat :=
  if argOf rq == 3 then
    firstBadPay [(0, fieldAt rq.payload 0 5 % 64 == 0 && fieldAt rq.payload 0 5 < 2 ^ 39),
      (5, 1 ≤ fieldAt rq.payload 5 2 && fieldAt rq.payload 5 2 ≤ 1024), (7, fieldAt rq.payload 7 1 == 0)]
  else none

/-- A node ID of a binding or notice (R186): 0 to 29. -/
def nodeOk (n : Nat) : Bool := n ≤ 29

/-- The bindings in a KIT_CREATE payload (Table 7.8). -/
def bindPairs (rq : Req) : List (Nat × Nat) :=
  (List.range (fieldAt rq.payload 0 1)).map fun j => (fieldAt rq.payload (4 + 2 * j) 1, fieldAt rq.payload (5 + 2 * j) 1)

/-- The offset of the first binding that fails: a bad field, a repeat, or one that another Kit holds (R186, R187). -/
def State.bindBad (s : State) (self : Option Kit) (ps : List (Nat × Nat)) : Option Nat :=
  ((List.range ps.length).zip ps).findSome? fun x =>
    let off := 4 + 2 * x.1
    let held := s.liveKits.any fun k => some k != self &&
      (s.kit k).binds.any fun b => b.node.toNat == x.2.1 && b.ktag.toNat == x.2.2
    if !nodeOk x.2.1 then some (detPay off)
    else if 16 ≤ x.2.2 then some (detPay (off + 1))
    else if (ps.take x.1).contains x.2 || held then some (detPay off)
    else none

/-- The lowest Kit that is free (KIT_CREATE with 0xFF). -/
def State.freeKit (s : State) : Option Kit := allKits.find? fun k => k != 0 && !(s.kit k).live && !(s.kit k).destroying

/-- KIT_CREATE (R186, R187). -/
def State.kitCreateBad (s : State) (rq : Req) : Option Nat :=
  let n := pb rq 8
  let re := fieldAt rq.payload 1 1 % 2 == 1
  let named := if n < 16 then some (kitIx n) else none
  let okKit := if re then (match named with | some k => (s.kit k).live | none => false)
               else (1 ≤ n && n ≤ 15) || n == 255
  let cnt := fieldAt rq.payload 0 1
  orBad (firstBad [(8, okKit), (9, pz rq 9 15)])
    (orBad (firstBadPay [(0, 1 ≤ cnt && cnt ≤ 8 && lenOf rq == 4 + 2 * cnt), (1, fieldAt rq.payload 1 1 ≤ 1),
      (2, nodeOk (fieldAt rq.payload 2 1) || fieldAt rq.payload 2 1 == 0x1F), (3, fieldAt rq.payload 3 1 == 0)])
      (s.bindBad (if re then named else none) (bindPairs rq)))

/-- The windows in use of a Kit. -/
def State.winList (s : State) (k : Kit) : List Window := (s.kit k).wins.toList.filterMap id

/-- Whether pages from `cur` to `stop` are covered by windows, one window after another. -/
def covered (ws : List Window) : Nat → Nat → Nat → Bool
  | 0, cur, stop => stop ≤ cur
  | fuel + 1, cur, stop =>
    if stop ≤ cur then true
    else match ws.find? fun w => w.base ≤ cur && cur < w.base + w.size with
      | some w => covered ws fuel (w.base + w.size) stop
      | none => false

/-- The window descriptor of a payload (Table 7.9), in force from a Beat. -/
def winOf (p : List Byte) (now : Nat) : Window :=
  { base := fieldAt p 0 5 / 65536, size := fieldAt p 8 4, rd := fieldAt p 12 1 % 2 == 1, wr := bits (fieldAt p 12 1) 1 1 == 1,
    auto := fieldAt p 13 1 % 2 == 1, rmw := bits (fieldAt p 13 1) 1 1 == 1, early := bits (fieldAt p 13 1) 2 2 == 1,
    srcKit := if fieldAt p 14 1 < 16 then some (kitIx (fieldAt p 14 1)) else none,
    srcBase := fieldAt p 16 5 / 65536, from_ := some ((now + 1) % Config.beatWrap), clearing := false }

/-- The descriptor of a WINDOW_SET (Table 7.9, R189, R214). -/
def State.descBad (s : State) (k : Kit) (p : List Byte) : Option Nat :=
  let w := winOf p 0
  let src := fieldAt p 14 1
  let overlap := (s.winList k).any fun x => x.base < w.base + w.size && w.base < x.base + x.size
  let srcOk := match w.srcKit with
    | none => src == 255
    | some o => o != k && (s.kit o).live && !(s.kit o).suspended
  let rangeOk := match w.srcKit with
    | none => true
    | some o =>
      let own := (s.winList o).filter fun x => x.srcKit.isNone
      fieldAt p 16 5 % 65536 == 0 && covered own 9 w.srcBase (w.srcBase + w.size)
  firstBadPay [(0, fieldAt p 0 5 % 65536 == 0 && fieldAt p 0 5 < 2 ^ 39 && w.base + w.size ≤ 2 ^ 23 && !overlap),
    (5, fieldAt p 5 3 == 0), (8, 1 ≤ w.size && w.size ≤ 8388608),
    (12, fieldAt p 12 1 < 4 && (w.srcKit.isNone || !w.wr)), (13, fieldAt p 13 1 < 8), (14, srcOk),
    (15, fieldAt p 15 1 == 0), (16, rangeOk), (21, fieldAt p 21 11 == 0)]

/-- WINDOW_SET (R189, R190). -/
def State.windowBad (s : State) (rq : Req) : Option Nat :=
  let k := pb rq 8
  let live := k < 16 && (s.kit (kitIx k)).live
  let op := pb rq 10
  let free := !live || !(pb rq 9 < 8) || op != 1 || ((s.kit (kitIx k)).wins.toList.getD (pb rq 9) none).isNone
  orBad (firstBad [(8, live), (9, pb rq 9 < 8 && free), (10, op ≤ 1), (11, pz rq 11 15)])
    (if op == 1 then s.descBad (kitIx k) rq.payload else none)

/-- The masked fields of a STROKE_SET take their values (Table 7.10). -/
def KitSt.stroke (x : KitSt) (p : List Byte) : KitSt :=
  let m := fieldAt p 8 1
  let on := fun i => Nat.testBit m i
  { x with kres := if on 0 then fieldAt p 0 1 else x.kres, rtres := if on 1 then fieldAt p 1 1 else x.rtres,
           pshare := if on 2 then fieldAt p 2 2 else x.pshare, icred := if on 3 then fieldAt p 4 2 else x.icred,
           maxinf := if on 4 then fieldAt p 6 2 else x.maxinf }

/-- STROKE_SET applied to a Kit. -/
def State.strokeApply (s : State) (k : Kit) (p : List Byte) : State := s.setKit k ((s.kit k).stroke p)

/-- STROKE_SET (R191, R226). -/
def State.strokeBad (s : State) (rq : Req) : Option Nat :=
  let n := pb rq 8
  let live := n < 16 && (s.kit (kitIx n)).live
  let p := rq.payload
  let m := fieldAt p 8 1
  let fin := s.strokeApply (kitIx n) p
  let on := fun i => Nat.testBit m i
  orBad (firstBad [(8, live), (9, pz rq 9 15)])
    (firstBadPay [(0, !on 0 || fin.kresOk s), (1, !on 1 || fin.tokenOk), (2, !on 2 || fin.shareOk),
      (4, !on 3 || fin.creditOk), (6, !on 4 || fin.maxinfOk), (8, 1 ≤ m && m < 32), (9, fieldAt p 9 7 == 0)])

/-- RUD_LOAD (Table 7.6, R181). What LOAD finds in the staged program is checked where it is executed (R182). -/
def rudLoadBad (rq : Req) : Option Nat :=
  let off := pb rq 10 + 256 * pb rq 11
  let len := pb rq 12 + 256 * pb rq 13
  match pb rq 8 with
  | 0 => firstBad [(9, pb rq 9 < 8), (10, off + lenOf rq / 4 ≤ 4096), (14, pz rq 14 15)]
  | 1 => firstBad [(9, pb rq 9 < 8), (12, 1 ≤ len && len ≤ 4096), (14, pz rq 14 15)]
  | _ => some (detHdr 8)

/-- The offset of CSR_READ and CSR_WRITE (R192). -/
def csrParamBad (rq : Req) : Option Nat :=
  firstBad [(8, csrOff rq % 4 == 0 && csrOff rq + lenOf rq ≤ 0x8000), (9, prm rq / 2 ^ 15 == 0)]

/-- The address of BELFRY_READ and BELFRY_WRITE (R194). -/
def belParamBad (rq : Req) : Option Nat :=
  firstBad [(8, prm rq % 65536 + lenOf rq ≤ 65536), (10, prm rq / 65536 == 0)]

/-- BELFRY_SEAL (R196, R457). -/
def State.sealBad (s : State) (rq : Req) : Option Nat :=
  match pb rq 8 with
  | 0 => firstBad [(9, 128 ≤ pb rq 9 && pb rq 9 ≤ 191),
                   (10, 1 ≤ pb rq 10 && pb rq 10 ≤ 64 && pb rq 9 + pb rq 10 ≤ 192)]
  | 1 => firstBad [(8, s.gen.dbg == 0 || s.bel.testSeal), (12, prm rq / 2 ^ 32 == 0x5345414C)]
  | _ => some (detHdr 8)

/-- The target of REPAIR_APPLY (Table 7.11). -/
def repairParamBad (rq : Req) : Option Nat :=
  let die := pb rq 9
  let row := pb rq 11 + 256 * pb rq 12 + 65536 * pb rq 13
  match pb rq 8 with
  | 1 => firstBad [(8, die ≤ 10 && pb rq 10 < 32 && row < 65536)]
  | 2 => firstBad [(8, die ≤ 10 && pb rq 10 < 32 && pb rq 11 < 16)]
  | 3 => firstBad [(8, die ≤ 9)]
  | 4 => firstBad [(8, die ≤ 1 && pb rq 10 < 16)]
  | 5 => firstBad [(8, match die with
      | 1 => pb rq 10 ≤ 10
      | 2 => pb rq 10 ≤ 10 && pb rq 11 < 32
      | 3 => pb rq 10 ≤ 1 && pb rq 11 < 16
      | _ => false)]
  | _ => some (detHdr 8)

/-- TALLY_CTL (R200). -/
def State.tallyCtlBad (s : State) (rq : Req) : Option Nat :=
  match pb rq 8 with
  | 0 | 1 | 3 => none
  | 2 =>
    let r : Ring := if pb rq 10 == 1 then .b else .a
    firstBad [(9, pb rq 9 ≤ 29 && (s.ring r).rosterIds.contains (BitVec.ofNat 5 (pb rq 9))), (10, pb rq 10 ≤ 1)]
  | 4 => firstBad [(9, pb rq 9 ≤ 1)]
  | _ => some (detHdr 8)

/-- KNELL_READ (R202). -/
def knellReadBad (rq : Req) : Option Nat :=
  let off := prm rq % 2 ^ 32
  let src := pb rq 13
  let lim := if src == 1 then 512 else 262144
  firstBad [(8, off < lim && off + lenOf rq ≤ lim), (12, src == 1 || pb rq 12 ≤ 1), (13, src ≤ 1)]

/-- CLOSE (before R203). -/
def closeBad (rq : Req) : Option Nat := firstBad [(8, pb rq 8 < 4), (9, pz rq 9 15)]

/-- Step 9: DETAIL of the first PARAM or payload field out of range. -/
def State.paramBad (s : State) (rq : Req) : Option Nat :=
  match rq.opc.toNat with
  | 0x02 | 0x13 | 0x61 => firstBad [(8, prm rq == 0)]
  | 0x10 | 0x11 => firstBad [(12, prm rq / 2 ^ 39 == 0)]
  | 0x12 => firstBad [(8, addrOf rq % 64 == 0), (12, prm rq / 2 ^ 39 == 0)]
  | 0x18 | 0x19 | 0x1A | 0x1B => pageRangeBad rq
  | 0x1C => orBad (pageRangeBad rq) (muffleBad rq)
  | 0x20 => rudLoadBad rq
  | 0x21 => firstBad [(8, pb rq 8 < 8), (9, pb rq 9 < 8 || pb rq 9 == 0x0F)]
  | 0x22 | 0x23 => firstBad [(8, pb rq 8 == 0), (9, pb rq 9 < 8), (10, pz rq 10 11), (12, pz rq 12 15)]
  | 0x30 => s.kitCreateBad rq
  | 0x31 => firstBad [(8, 1 ≤ pb rq 8 && pb rq 8 ≤ 15 && (s.kit (kitIx (pb rq 8))).live && !(s.kit (kitIx (pb rq 8))).destroying), (9, pz rq 9 15)]
  | 0x32 => s.windowBad rq
  | 0x33 => s.strokeBad rq
  | 0x40 => csrParamBad rq
  | 0x41 => orBad (csrParamBad rq)
      ((s.csrBad (csrPairs (csrOff rq) rq.payload)).map fun o => detPay (o - csrOff rq))
  | 0x48 | 0x49 => belParamBad rq
  | 0x4A => s.sealBad rq
  | 0x50 => firstBad [(8, 1 ≤ pb rq 8 && pb rq 8 < 32)]
  | 0x51 => firstBad [(8, pb rq 8 ≤ 2)]
  | 0x52 => repairParamBad rq
  | 0x58 => s.tallyCtlBad rq
  | 0x5A => knellReadBad rq
  | 0x60 => closeBad rq
  | 0x7F => firstBad [(8, prm rq % 2 ^ 32 == 0x474F4E47), (12, pz rq 12 15)]
  | _ => none

/-! ### All steps (Table 6.5) -/

/-- Step 3: the reply to an opcode not defined for requests. -/
def opcodeBad (rq : Req) : Bool := (opRow rq.opc.toNat).isNone

/-- Steps 1 and 3 to 10 of Table 6.5, in order: the reply of the first that fails. Step 2 is judged on the packet. Windows are
those in force in the Beat of admission (07 R167). -/
def State.check (s : State) (beat : Nat) (kit : Option Kit) (rq : Req) : Option Answer :=
  let len := lenOf rq
  let lr := lenRule rq.opc.toNat (selOf rq) (rq.via == .i3c) len
  if 4096 < len then some (ans 0x32 (detLen len 4096))
  else if opcodeBad rq then some (ans 0x30 0)
  else match sourceBad rq, kit with
    | some b, _ => some (ans 0x31 (detHdr b))
    | none, none => some (ans 0x21 (rq.snode.toNat + 256 * rq.ktag.toNat))
    | none, some k =>
      if !s.modeOk rq then some (ans 0x50 s.mode.code)
      else match s.rightBad beat k rq with
        | some r => some (ans 0x20 r)
        | none =>
          if !lr.1 then some (ans 0x32 (detLen len lr.2))
          else match s.paramBad rq with
            | some d => some (ans 0x31 d)
            | none =>
              match spanOf rq with
              | some (a, n) =>
                match s.firstOutside beat k a n with
                | some x => some (ans 0x22 (x % 2 ^ 39))
                | none => none
              | none => none

/-- Whether a request must first wake the device from Rest (R165). -/
def State.mustWake (s : State) (rq : Req) : Bool :=
  s.mode == .rest && !(match opRow rq.opc.toNat with | some r => r.rest | none => true)

end Sys2Proof.Machine
end

