-- ==== Sys2Proof/Machine/Requests.lean ====
section
/-! DEFINITION. A request from its header to its execution: admission with the reply reservation (05 R129, 06 R155,
R156), the end-to-end check (06 R145), and the one frame that every request row runs in. -/

namespace Sys2Proof.Machine

/-! ### Admission (R129) -/

/-- Intake credits that a header takes (R81). -/
def creditsFor (rq : Req) : Nat :=
  if rq.opc == 0x11 || rq.opc == 0x12 then (if 4096 < lenOf rq then 0 else ceilDiv (lenOf rq) 64) else 0

/-- ARG of an ADMIT record (Table 18.6). -/
def admitArg (rq : Req) : Nat :=
  rq.opc.toNat + 2 ^ 8 * (rq.snode.toNat + 32 * b2n rq.ringBit + 64 * rq.prio.toNat) + 2 ^ 16 * lenOf rq
    + 2 ^ 32 * (if (spanOf rq).isSome then addrOf rq / 128 else prm rq % 2 ^ 32)

/-- Modes in which a header reaches the device over a ring (Table 7.2). -/
def Mode.onRing : Mode → Bool
  | .join | .run | .degraded | .freewheel | .rest => true
  | _ => false

/-- Whether a ring brings headers to the device: in a mode on the ring, joined, with the node ID of the last ROSTER
(R126). -/
def State.hears (s : State) (r : Ring) : Bool := s.mode.onRing && (s.ring r).joined && (s.ring r).hasId

/-- Whether a packet given whole on a ring is addressed to the device (R117). -/
def State.addressed (s : State) (r : Ring) (rq : Req) : Bool :=
  s.hears r && rq.dnode.toNat == (s.ring r).nodeId.toNat

/-- A CLOSE admitted in an earlier Beat ends admission (07 R203): it executes or is to be executed. -/
def State.closedTo (s : State) (beat : Nat) : Bool :=
  match s.closing with
  | some c => c.admBeat != beat
  | none => s.inflight.any fun f =>
      (f.stage == .ready || f.stage == .serving) && f.rq.opc == 0x60 && f.kit == some 0 && f.admBeat != beat

/-- Why a header of a Beat is not admitted, as a REFUSE record names it: 2 in flight, 3 reply entry, 4 credits (R129, R155,
R156). No header is admitted from the Beat after a CLOSE (R203), during a completion (11 R298), or during a rate change (04
R94): recorded as 2 (DEDUCED, log 18). The device accepts 8 streams of every source (R116), so a stream entry is always
free. -/
def State.refusal (s : State) (kit : Option Kit) (rq : Req) (beat : Nat) : Option Nat :=
  if s.closedTo beat || s.completing || s.bar.retrain || s.bar.rateNext.isSome then some 2
  else if Config.replyEntries ≤ s.inflight.length then some 3
  else match kit with
    | none => if Config.unboundLimit ≤ s.inflightOf none then some 2 else none
    | some k =>
      if (s.kit k).maxinf ≤ s.inflightOf (some k) then some 2
      else if (s.kit k).freeCredits < creditsFor rq then some 4
      else none

/-- A header is refused: counted and recorded (R129). -/
def State.refuseHeader (s : State) (r : Ring) (rq : Req) (why : Nat) : State :=
  (s.setRing r { s.ring r with refusedCt := up16 (s.ring r).refusedCt 1 }).tally 0x03 none
    (rq.opc.toNat + 2 ^ 8 * (rq.snode.toNat + 32 * b2n rq.ringBit + 64 * rq.prio.toNat) + 2 ^ 16 * why)

/-- An admitted request takes its in-flight entry, which is its reply entry, and its credits (R129, R130, R155). Its header
flit arrived in slot `slot` of Beat `beat`, and is admitted `delay` slots later (R136); the ADMIT record carries the Beat of
the arrival (02 R42). -/
def State.admitReq (s : State) (rq : Req) (kit : Option Kit) (stream : BitVec 3) (beat slot delay : Nat) (stage : Stage)
    (bytes : List Byte) : State :=
  let cr := creditsFor rq
  let adm := (beat + (slot + delay) / 32) % Config.beatWrap
  let f : InFlight := { rid := s.nextRid, rq := rq, kit := kit, stream := stream, admBeat := adm,
                        slot := (slot + delay) % 32, flits := 1, bytes := bytes, lastFlit := beat, credits := cr,
                        stage := stage, wedge := none, stood := 0 }
  let s1 := match kit with
    | some k => s.setKit k { s.kit k with taken := (s.kit k).taken + cr }
    | none => s
  let h : HdrEnt := ⟨s.nextRid, rq, adm, none, kit⟩
  ({ s1 with inflight := s1.inflight ++ [f], nextRid := s1.nextRid + 1,
             infHigh := max s1.infHigh (s1.inflight.length + 1),
             headers := (h :: s1.headers).take 64 }).tallyAt beat 0x01 kit (admitArg rq)

/-- A request's credits go back to its Kit (R83, R145). -/
def State.giveBack (s : State) (rid : Nat) : State :=
  match s.findReq rid with
  | none => s
  | some f =>
    let s1 := match f.kit with
      | some k => s.setKit k { s.kit k with taken := (s.kit k).taken - f.credits }
      | none => s
    s1.updReq rid fun x => { x with credits := 0 }

/-- Reply at once to a request that executes nothing: its credits return. -/
def State.turnDown (s : State) (rid : Nat) (rq : Req) (kit : Option Kit) (a : Answer) : State :=
  (s.giveBack rid).answer rid rq kit a

/-- CRC_FAIL for an admitted packet (R145): cause and flits received (Table 6.4). -/
def State.crcFail (s : State) (f : InFlight) (cause : Nat) : State :=
  ({ s with gen := { s.gen with e2eFail := up32 s.gen.e2eFail 1 } }).turnDown f.rid f.rq f.kit
    (ans 0x33 (cause + 256 * f.flits))

/-! ### The frame of a request row -/

/-- A request at its execution. -/
structure Job where
  /-- its number -/
  rid : Nat
  /-- its header and payload -/
  rq : Req
  /-- its Kit -/
  kit : Kit
  /-- admission Beat -/
  admBeat : Nat
  /-- admission slot -/
  slot : Nat
deriving DecidableEq, Repr

/-- The slot mark of a job's admission: Beat × 32 + slot (R136). -/
def Job.at_ (j : Job) : Nat := j.admBeat * 32 + j.slot

/-- A request taken up: its number, Kit, admission Beat and slot, and the state with it in service. -/
structure Claim where
  /-- its number -/
  rid : Nat
  /-- its Kit -/
  kit : Option Kit
  /-- admission Beat -/
  admBeat : Nat
  /-- admission slot -/
  slot : Nat
  /-- the state -/
  st : State

/-! ### The base-die switch (R133 to R135) -/

/-- The switch port of the block that serves an opcode (Table 5.8). -/
def portOf (o : Nat) : Nat :=
  if 0x10 ≤ o && o ≤ 0x1C then 4
  else if 0x20 ≤ o && o ≤ 0x23 then 3
  else if 0x48 ≤ o && o ≤ 0x4A then 11
  else if 0x50 ≤ o && o ≤ 0x52 then 8
  else if o == 0x58 || o == 0x59 then 9
  else 2

/-- The switch port of a request's block. -/
def InFlight.port (f : InFlight) : Nat := portOf f.rq.opc.toNat

/-- The configuration and Rudiment control opcodes, which the control core executes one at a time (07 R167). -/
def coreOpcodes : List Nat :=
  [0x20, 0x21, 0x22, 0x30, 0x31, 0x32, 0x33, 0x41, 0x49, 0x4A, 0x52, 0x58, 0x60, 0x61]

/-- Whether the control core executes a request in admission order (07 R167). -/
def InFlight.core (f : InFlight) : Bool := coreOpcodes.contains f.rq.opc.toNat

/-- Ring A before Ring B, then by slot, of headers admitted in one Beat (07 R167). -/
def InFlight.place (f : InFlight) : Nat := (if f.rq.via == .ring .b then 32 else 0) + f.slot

/-- Whether a request comes before another: by Beat of admission, within it by ring and slot (07 R167). -/
def InFlight.before (f g : InFlight) : Bool :=
  if f.admBeat == g.admBeat && f.place != g.place then f.place < g.place else f.rid < g.rid

/-- The pages, first and last, that a memory request takes its transfers from or to. -/
def transferPages (rq : Req) : Option (Nat × Nat) :=
  if rq.opc.toNat ∈ [0x10, 0x11, 0x12] && lenOf rq == 0 then none
  else (spanOf rq).map fun x => (x.1 / 65536, (x.1 + x.2 - 1) / 65536)

/-- Whether the switch keeps the transfers of two requests in order: the same ring and Kit, and a page in common (01 R21,
R134). -/
def ordered (k l : Option Kit) (a b : Req) : Bool :=
  a.via == b.via && k == l &&
  match transferPages a, transferPages b with
  | some x, some y => x.1 ≤ y.2 && y.1 ≤ x.2
  | _, _ => false

/-- A request that its output has not taken: its packet is still arriving, or it waits at its input port. -/
def InFlight.waits (f : InFlight) : Bool := f.stage == .streaming || f.stage == .ready

/-- Whether a request `g` is served before `f`: at one output the oldest that waits goes first (R134); transfers of one Kit
and page from one ring keep their order (R134); the control core executes in admission order (07 R167). A block that an
INTERNAL reply has named holds back only its own requests (06 R158). -/
def State.goesFirst (s : State) (g f : InFlight) : Bool :=
  g.before f && !s.wedgedPorts.getLsbD g.port &&
    ((g.stage == .ready && g.port == f.port) || (g.waits && ((g.core && f.core) || ordered g.kit f.kit g.rq f.rq)))

/-- Whether a FENCE barrier holds a request back: an earlier request of the FENCE's Kit waits at the same input port (R135). -/
def State.fenced (s : State) (f : InFlight) : Bool :=
  s.barriers.any fun b => f.kit == some b.1 && b.2 < f.rid &&
    s.inflight.any fun g => g.kit == f.kit && g.rq.via == f.rq.via && g.rid < b.2 && g.stage == .ready

/-- Whether the switch delivers a request now (R134, R135, 06 R158). -/
def State.delivers (s : State) (f : InFlight) : Bool :=
  !s.wedgedPorts.getLsbD f.port && !s.fenced f && !(s.inflight.any fun g => g.rid != f.rid && s.goesFirst g f)

/-- The switch port of an interface (Table 5.8). -/
def viaPort : Via → Fin 12
  | .ring .a => 0
  | .ring .b => 1
  | .i3c => 10

/-- The high-water mark of an input queue follows its occupancy (R137). -/
def State.noteQueue (s : State) (v : Via) : State :=
  let p := viaPort v
  { s with qHigh := s.qHigh.set p (max s.qHigh[p] (s.queued p.val)) }

/-- An admitted request whose packet is complete waits at its input port. -/
def State.ready (s : State) (rid : Nat) (rq : Req) : State :=
  (s.updReq rid fun x => { x with rq := rq, stage := .ready }).noteQueue rq.via

/-! ### Requests taken up -/

/-- The request that PACKET_COMPLETE left ready. -/
def State.readyReq (s : State) (rq : Req) : Option InFlight := s.inflight.find? fun f => f.stage == .ready && f.rq == rq

/-- A packet given whole is admitted (R129), its header taken for one of slot 0 of the Beat (DESIGN CHOICE, log 95). -/
def State.admitWhole (s : State) (rq : Req) : State :=
  (s.admitReq rq (s.kitOf rq) 0 s.bar.beatno 0 0 .ready []).noteQueue rq.via

/-- Whether a packet given whole can be admitted. -/
def State.admits (s : State) (r : Ring) (rq : Req) : Bool :=
  s.addressed r rq && (s.refusal (s.kitOf rq) rq s.bar.beatno).isNone && s.queued (viaPort rq.via).val < 64

/-- Take up a ready request that the switch delivers. -/
def State.deliver (s : State) (f : InFlight) : Option Claim :=
  if s.delivers f then some ⟨f.rid, f.kit, f.admBeat, f.slot, s.updReq f.rid fun x => { x with stage := .serving }⟩
  else none

/-- Take up a request: the one that PACKET_COMPLETE left ready, or, for a packet given whole, its admission (R129). Over
I3C no admission applies (R162). -/
def State.claim (s : State) (rq : Req) : Option Claim :=
  match rq.via with
  | .i3c =>
    if s.mode == .off || s.mode == .hibernate || s.completing || s.wedgedPorts.getLsbD (portOf rq.opc.toNat) then none
    else some ⟨s.nextRid, s.kitOf rq, s.bar.beatno, 0, { s with nextRid := s.nextRid + 1 }⟩
  | .ring r =>
    match s.readyReq rq with
    | some f => s.deliver f
    | none =>
      if s.admits r rq then
        let t := s.admitWhole rq
        match t.findReq s.nextRid with
        | some f => t.deliver f
        | none => none
      else none

/-- A request that is not taken up: it waits at its input port, its packet is still arriving, it is refused on its ring, or
it is not addressed to the device. -/
def State.unclaimed (s : State) (rq : Req) : State :=
  match rq.via with
  | .i3c => s
  | .ring r =>
    if (s.readyReq rq).isSome || !s.addressed r rq then s
    else if s.admits r rq then s.admitWhole rq
    else match s.refusal (s.kitOf rq) rq s.bar.beatno with
      | some why => s.refuseHeader r rq why
      | none => s

/-- A request runs: taken up, checked by Table 6.5, woken from Rest where it must be (R165), then its own operation. -/
def State.serve (s : State) (rq : Req) (body : Job → State → State) : State :=
  match s.claim rq with
  | none => s.unclaimed rq
  | some c =>
    match c.st.check c.admBeat c.kit rq with
    | some a => c.st.turnDown c.rid rq c.kit a
    | none =>
      match c.kit with
      | none => c.st
      | some k =>
        if c.st.mustWake rq then (c.st.updReq c.rid fun x => { x with stage := .ready }).wake
        else body ⟨c.rid, rq, k, c.admBeat, c.slot⟩ c.st

/-- The answer of a request row: a fault on a term that no sender can form. -/
def runReq (ok : Bool) (rq : Req) (s : State) (body : Job → State → State) :
    Host.Outcome State Fault Refusal :=
  if ok then .next (s.serve rq body) else .fault .illFormed

/-- Reply to a job without payload. -/
def Job.reply (j : Job) (s : State) (status detail : Nat) : State := s.answer j.rid j.rq (some j.kit) (ans status detail)

/-- Reply to a job. -/
def Job.answer (j : Job) (s : State) (a : Answer) : State := s.answer j.rid j.rq (some j.kit) a

end Sys2Proof.Machine
end

