-- ==== Sys2Proof/Machine/Memory.lean ====
section
/-! DEFINITION. The memory commands (07 R171 to R176) and the steps of provisional writes (11): READ with its tokens and
early form, WRITE, WRITE_MASKED, FENCE, acceptance, capture, verify, merge closing and RMW merges. -/

namespace Sys2Proof.Machine

/-! ### READ (07 R171, R172; 05 R136; 11 R287, R288, R300 to R302) -/

/-- A look-up in the translation cache: whether it missed, and the cache after it (R235, log 13). -/
def State.lookup (s : State) (o : Kit) (kp : KPage) : Bool × State :=
  let hit := s.tier.xcache.contains (o, kp)
  let rest := s.tier.xcache.filter fun x => x != (o, kp)
  (!hit, { s with tier := { s.tier with xcache := ((o, kp) :: rest).take 32768,
                                        xcmiss := if hit then s.tier.xcmiss else up32 s.tier.xcmiss 1 } })

/-- A chord through a Kit's windows: its owner's Kit and address, and its view (R213, R215, R219, R288). -/
def State.look (s : State) (k : Kit) (a : Nat) : (Kit × Nat) × View :=
  match s.windowAt k a with
  | none => ((k, a), .val (zeros 64))
  | some w =>
    let o := w.owner k a
    (o, if (s.kit o.1).keylost then .poison
        else if o.1 == k then s.viewOwn o.1 o.2 else s.viewOther o.1 o.2)

/-- Whether a chord without a pending entry reads as zeros from an unbacked page or a zero sector, whose mark is that of
a Main read (R233). -/
def State.readsZero (s : State) (o : Kit) (a : Nat) : Bool :=
  (s.entriesOf o a).isEmpty && (s.nearLine o a).isNone &&
  (match s.locate o a with | .unbacked => true | .zero => true | _ => false)

/-- One access of a Kit to a chord: heat through its own window, age stamps (R241, R248). -/
def State.accessed (s : State) (k o : Kit) (a : Nat) : State :=
  (if o == k then s.heat o a 1 else s).touch o a

/-- The READ of a request. -/
def State.findRead (s : State) (rid : Nat) : Option ReadJob := s.reads.find? fun j => j.rid == rid
/-- Change a READ. -/
def State.updRead (s : State) (rid : Nat) (f : ReadJob → ReadJob) : State :=
  { s with reads := updWhere (fun j => j.rid == rid) f s.reads }

/-- A chord of a READ that needs no token has its value. -/
def State.readVal (s : State) (j : ReadJob) (o : Kit × Nat) (a : Nat) (v : Option (List Byte)) : State :=
  let near := !s.readsZero o.1 o.2
  let f := fun (x : ReadJob) =>
    { x with got := x.got ++ [(a, v)], todo := x.todo.filter fun y => y != a, allNear := x.allNear && near }
  (s.accessed j.kit o.1 o.2).updRead j.rid f

/-- Every chord of a READ that is served without a token is taken (R79, R287). A page that is not resident is promoted
(R171). -/
def State.readFree (s : State) (rid : Nat) : State :=
  match s.findRead rid with
  | none => s
  | some j =>
    forEach (fun (a : Nat) (t : State) =>
      let l := t.look j.kit a
      match l.2 with
      | .val d => t.readVal j l.1 a (some d)
      | .poison => t.readVal j l.1 a none
      | .absent => t.startPromote l.1.1 (kpOf l.1.2) false none
      | _ => t) j.todo s

/-- Whether a read fills a Near line of an owner's chord: its page lies in an Automatic window, and no entry of the chord
is pending (R239, R288). -/
def State.mayFill (s : State) (o : Kit) (a c : Nat) : Bool := s.autoAt o (kpOf a) && !s.pendingAt c

/-- Whether the window of a chord permits early reads (R213, R300). -/
def State.earlyAt (s : State) (k : Kit) (a : Nat) : Bool := match s.windowAt k a with | some w => w.early | none => false

/-- The first chord of a READ that must come from the array takes a token and is read (R79, R80). -/
def State.readToken (s : State) (rid : Nat) : Option State :=
  match s.findRead rid with
  | none => none
  | some j =>
    j.todo.findSome? fun a =>
      let l := s.look j.kit a
      match l.2 with
      | .array c m ov =>
        (s.kitToken j.kit).map fun t =>
          let o := t.decodeOf l.1.1 l.1.2 c
          let t1 := (t.readArray 1 c).accessed j.kit l.1.1 l.1.2
          let v := o.value.map fun d => overlay m ov d
          let t2 := if t1.mayFill l.1.1 l.1.2 c then t1.nearFill l.1.1 l.1.2 o.poisoned (v.getD (zeros 64)) else t1
          let f := fun (x : ReadJob) =>
            { x with got := x.got ++ [(a, v)], todo := x.todo.filter fun y => y != a, allNear := false,
                     raws := if s.earlyAt j.kit a then x.raws ++ [(a, overlay m ov (t.opened l.1.1 l.1.2 (t.rawData c)))] else x.raws,
                     corr := if o.corrected then x.corr ++ [a] else x.corr,
                     fromMain := x.fromMain + 1, lastTok := s.bar.beatno }
          t2.updRead rid f
      | _ => none

/-- The value that a READ has for a chord: none when poisoned. -/
def ReadJob.value (j : ReadJob) (a : Nat) : Option (List Byte) :=
  match j.got.find? fun g => g.1 == a with
  | some g => g.2
  | none => some (zeros 64)

/-- The chords of a READ, in address order. -/
def ReadJob.chords (j : ReadJob) : List Nat := chordsOf (addrOf j.rq) (lenOf j.rq)

/-- The bytes of a READ's range from a value for each chord. -/
def ReadJob.bytes (j : ReadJob) (f : Nat → List Byte) : List Byte :=
  (((j.chords.map f).flatten).drop (addrOf j.rq % 64)).take (lenOf j.rq)

/-- STATUS and DETAIL of a READ (R172). -/
def ReadJob.result (j : ReadJob) : Nat × Nat :=
  let pois := j.chords.filter fun a => (j.value a).isNone
  let corr := j.chords.filter fun a => j.corr.contains a
  match pois, corr with
  | a :: _, _ => (0x40, detAddr a pois.length)
  | [], a :: _ => (0x03, detAddr a corr.length)
  | [], [] => (0x00, 0)

/-- The mark of a READ: 40 slots after admission for Near hits, 3 Beats for Main reads, 2 more for a translation-cache
miss, later by the Beats that tokens took (R136, R235). -/
def ReadJob.mark (j : ReadJob) : Nat :=
  let wait := 32 * elapsed (j.at_ / 32) j.lastTok
  (if j.allNear then j.at_ + 40 else j.at_ + 96 + wait) + (if j.xcmiss then 64 else 0)

/-- The release Beat of a READ, PING or STATUS_QUERY in Strict Tempo (R228). -/
def State.readRelease (s : State) (k : Kit) (admBeat fromMain : Nat) : Nat :=
  (admBeat + (s.kit k).tempoRd + ceilDiv (max 1 fromMain) (max 1 (s.kit k).rtresNow) - 1) % Config.beatWrap

/-- The REDO units of an early-form READ: one for each chord whose decode changed a byte it carries, and for each
poisoned chord (R302). -/
def ReadJob.redo (j : ReadJob) : List (Nat × List Byte × Bool) :=
  j.chords.filterMap fun a =>
    let lo := max a (addrOf j.rq)
    let hi := min (a + 64) (addrOf j.rq + lenOf j.rq)
    let cut := fun (d : List Byte) => (d.drop (lo - a)).take (hi - lo)
    match j.value a with
    | none => some (lo - addrOf j.rq, zeros (hi - lo), true)
    | some d =>
      match j.raws.find? fun x => x.1 == a with
      | some x => if cut x.2 == cut d then none else some (lo - addrOf j.rq, cut d, false)
      | none => none

/-- Queue an early-form reply (R301). -/
def State.answerEarly (s : State) (j : ReadJob) : State :=
  let r := j.result
  let raw := j.bytes fun a => match j.raws.find? fun x => x.1 == a with
    | some x => x.2
    | none => (j.value a).getD (zeros 64)
  let heads := updWhere (fun (h : HdrEnt) => h.rid == j.rid) (fun h => { h with status := some (BitVec.ofNat 8 r.1) })
    s.headers
  let rep : Reply :=
    { rid := j.rid, rq := j.rq, kit := some j.kit, status := 0, cond := s.cond, detail := 0, early := true,
      len := lenOf j.rq, payload := raw, mark := j.mark, release := none, flitsOut := 0, strm := none, trailer := true, redo := j.redo, redoHeld := j.early,
      final := (BitVec.ofNat 8 r.1, BitVec.ofNat 48 r.2) }
  { s with headers := heads, replies := s.replies ++ [rep],
           inflight := updWhere (fun x => x.rid == j.rid) (fun x => { x with stage := .replied }) s.inflight }

/-- A READ whose chords all have their values replies (R171, R172). -/
def State.finishRead (s : State) (rid : Nat) : State :=
  match s.findRead rid with
  | none => s
  | some j =>
    if !j.todo.isEmpty then s
    else
      let s1 := { s with reads := s.reads.filter fun x => x.rid != rid }
      if j.early != 0 then s1.answerEarly j
      else
        let r := j.result
        s1.answer rid j.rq (some j.kit)
          { status := r.1, detail := r.2, payload := j.bytes fun a => (j.value a).getD (zeros 64), mark := j.mark,
            release := some (s.readRelease j.kit (j.at_ / 32) j.fromMain) }

/-- A READ goes on for as long as tokens allow in this Beat (R80). -/
def State.readOn (rid : Nat) : Nat → State → State
  | 0, s => s.finishRead rid
  | fuel + 1, s =>
    let s1 := s.readFree rid
    match s1.readToken rid with
    | some s2 => s2.readOn rid fuel
    | none => s1.finishRead rid

/-- Chords of a READ that come from the array as things stand. -/
def State.arrayChords (s : State) (k : Kit) (as : List Nat) : Nat :=
  (as.filter fun a => match (s.look k a).2 with | .array _ _ _ => true | _ => false).length

/-- READ begins (R171, R300). Each window speaks for its own chords (R213): the early form is used where one that permits it
holds a chord read from the array; the chords of the others are sent decoded (log 125). -/
def State.startRead (s : State) (j : Job) : State :=
  if lenOf j.rq == 0 then
    j.answer s { ans 0x00 0 with mark := j.at_ + 40, release := some (s.readRelease j.kit j.admBeat 0) }
  else
    let as := chordsOf (addrOf j.rq) (lenOf j.rq)
    let pages := ((as.map fun a => (s.look j.kit a).1).map fun o => (o.1, kpOf o.2)).eraseDups
    let n := s.arrayChords j.kit as
    let early := j.rq.early && !s.strictNow && s.arrayChords j.kit (as.filter (s.earlyAt j.kit)) != 0
    if early && Config.redoEntries < s.redoUsed + n then j.reply s 0x11 3
    else
      let x := pages.foldl (fun (x : Bool × State) p => let y := x.2.lookup p.1 p.2; (x.1 || y.1, y.2)) (false, s)
      let job : ReadJob :=
        { rid := j.rid, rq := j.rq, kit := j.kit, todo := as, got := [], raws := [], corr := [], fromMain := 0,
          at_ := j.at_, allNear := true, xcmiss := x.1, lastTok := j.admBeat, early := if early then n else 0 }
      ({ x.2 with reads := x.2.reads ++ [job] }).readOn j.rid (as.length + 1)

/-! #### READs in the following Beats (R79, R80) -/

/-- The pages of which a READ still waits for chords. -/
def ReadJob.pages (j : ReadJob) : List Nat := (j.todo.map fun a => a / 65536).eraseDups

/-- Whether the switch keeps a READ behind an earlier one: from the same port, with chords of the same page (05 R134). -/
def ReadJob.behind (j i : ReadJob) : Bool := i.rq.via == j.rq.via && j.pages.any fun p => i.pages.contains p

/-- The READs of a Kit, oldest first, that are behind none of the earlier ones `seen`. -/
def inTurn : List ReadJob → List ReadJob → List ReadJob
  | _, [] => []
  | seen, j :: js => if seen.any j.behind then inTurn (j :: seen) js else j :: inTurn (j :: seen) js

/-- The order of a Kit's waiting READs: PRIO outside Strict Tempo, then age; PRIO does not reorder those that the switch keeps
in order (06 R140). -/
def State.readOrder (s : State) (k : Kit) : List Nat :=
  let mine := s.reads.filter fun j => j.kit == k
  if s.strictNow then mine.map fun j => j.rid
  else
    let now := inTurn [] mine
    ([3, 2, 1, 0].map fun p => (now.filter fun j => j.rq.prio.toNat == p).map fun j => j.rid).flatten

/-- The oldest READ of a Kit that can take a token takes one; the READs that need none go on. -/
def State.readVisit (s : State) (k : Kit) : Option State :=
  (s.readOrder k).findSome? fun rid => ((s.readFree rid).readToken rid).map fun t => t.finishRead rid

/-- A Kit's READs take up to `n` tokens. -/
def State.readSome (k : Kit) : Nat → State → State
  | 0, s => s
  | n + 1, s => match s.readVisit k with | some t => t.readSome k n | none => s

/-- The round-robin of R79: one chord per visit from Kit (BEATNO mod 16) on, until no token or no demand is left. -/
def State.readRound : Nat → State → State
  | 0, s => s
  | n + 1, s =>
    if s.stk.tokFree == 0 then s
    else (forEach (fun (k : Kit) (t : State) => t.readSome k 1) (rotate (s.bar.beatno % 16) allKits) s).readRound n

/-- The READs that wait take the tokens that the Beat's allocation gave their Kits (R79, R80). -/
def State.readsGoOn (s : State) : State :=
  let s1 := forEach (fun (j : ReadJob) (t : State) => (t.readFree j.rid).finishRead j.rid) s.reads s
  let s2 := forEach (fun (k : Kit) (t : State) => t.readSome k (t.kit k).tok) allKits s1
  s2.readRound Config.readTokens

/-! ### WRITE and WRITE_MASKED (07 R173 to R175; 03 R82, R83) -/

/-- The chord units of a WRITE: each chord with the bytes that the payload covers. -/
def writeUnits (rq : Req) : List WUnit :=
  let a0 := addrOf rq
  (chordsOf a0 (lenOf rq)).map fun a =>
    let bytes := (List.range 64).map fun i => if a0 ≤ a + i && a + i < a0 + lenOf rq then rq.payload.getD (a + i - a0) 0 else 0
    let mask := ((List.range 64).map fun i => if a0 ≤ a + i && a + i < a0 + lenOf rq then 2 ^ i else 0).sum
    ⟨a, bytes, BitVec.ofNat 64 mask⟩

/-- The units of a WRITE_MASKED (R174). -/
def maskedUnits (rq : Req) : List WUnit :=
  (List.range (lenOf rq / 72)).map fun i =>
    let m := BitVec.ofNat 64 (fieldAt rq.payload (72 * i) 8)
    let d := (rq.payload.drop (72 * i + 8)).take 64
    ⟨addrOf rq + 64 * i, overlay m d (zeros 64), m⟩

/-- The slot frame that a promotion of a Kit would fill now. -/
def State.slotChord (s : State) (k : Kit) (a : Nat) : Option Nat :=
  (s.pickSlot k).map fun x => frameAt (s.slotFrame x.1) a

/-- The device chord to which a write of an own page would go, where that is known (R232, R173). -/
def State.writesTo (s : State) (k : Kit) (a : Nat) : Option Nat :=
  match s.findPage k (kpOf a) with
  | some p => match p.home, p.slot with
    | .main f, _ => some (frameAt f a)
    | .deep _, some sl => some (frameAt (s.slotFrame sl) a)
    | .deep _, none => s.slotChord k a
  | none => match s.backChoice k (s.autoAt k (kpOf a)) with
    | some (.main f) => some (frameAt f a)
    | some (.deep _) => s.slotChord k a
    | none => none

/-- First-pulse cost of a chord: it waits in the merge buffer at no further hold when its entry is open (R290). -/
def State.unitCost (s : State) (k : Kit) (u : WUnit) : Nat :=
  if u.mask == 0 then 0
  else if u.mask != BitVec.allOnes 64 && !s.rmwAt k u.kaddr && (s.mergeIx k u.kaddr).isSome then 0
  else match s.writesTo k u.kaddr with
    | some c => s.chordCost c
    | none => s.shadowCost

/-- Cost of the page-table chord for a sector that a write turns from clean to dirty (R246): of a resident Deep-homed page,
or of a page that it will back in Deep; 0 where it turns none. -/
def State.newDirty (s : State) (k : Kit) (a : Nat) : Nat :=
  match s.findPage k (kpOf a) with
  | some _ => if s.dirties k a then s.dirtyCost k a else 0
  | none => match s.backChoice k (s.autoAt k (kpOf a)) with
    | some (.deep d) => s.chordCost (ptChord d)
    | _ => 0

/-- The whole first-pulse cost of a write (R83). -/
def State.writeCost (s : State) (k : Kit) (us : List WUnit) : Nat :=
  let secs := ((us.filter fun u => u.mask != 0).map fun u => u.kaddr / 4096).eraseDups
  (us.map (s.unitCost k)).sum + (secs.map fun x => s.newDirty k (x * 4096)).sum

/-- The credits that a write's admission took pass to its job. -/
def State.takeCredits (s : State) (rid : Nat) : Nat × State :=
  match s.findReq rid with
  | some f => (f.credits, s.updReq rid fun x => { x with credits := 0 })
  | none => (0, s)

/-- WRITE and WRITE_MASKED begin (R173, R175, R219, R83). -/
def State.startWrite (s : State) (j : Job) (us : List WUnit) : State :=
  if lenOf j.rq == 0 then j.reply s 0x00 0
  else if (s.kit j.kit).keylost then
    s.turnDown j.rid j.rq (some j.kit)
      (ans 0x40 (detAddr (chordBase (addrOf j.rq)) us.length))
  else if j.rq.nowait && !s.shareFits j.kit (s.writeCost j.kit us) then
    let why := s.kitHeld j.kit + 65536 * (s.kit j.kit).pshare
    ((s.setKit j.kit { s.kit j.kit with backoff := up32 (s.kit j.kit).backoff 1 }).tally 0x12 (some j.kit)
      (why + 2 ^ 32 * j.rq.seq.toNat)).turnDown j.rid j.rq (some j.kit) (ans 0x10 why)
  else
    -- a unit without bytes is accepted at admission, and its credit is back (R174, R175)
    let todo := us.filter fun u => u.mask != 0
    let c := s.takeCredits j.rid
    let back := min c.1 (us.length - todo.length)
    let pages := ((us.filter fun u => u.mask != 0).map fun u => kpOf u.kaddr).eraseDups
    let s0 := c.2.setKit j.kit { c.2.kit j.kit with taken := (c.2.kit j.kit).taken - back }
    let s1 := pages.foldl (fun (t : State) p => (t.lookup j.kit p).2) s0
    let job : WriteJob :=
      { rid := j.rid, rq := j.rq, kit := j.kit, todo := todo, credits := c.1 - back, open_ := 0, lastAccept := s.bar.beatno,
        lastOutcome := s.bar.beatno, recanted := 0, firstRecant := none, recantBeat := 0, cutAt := none, zeroed := [],
        replied := false, plain := false, falling := true }
    let s2 := { s1 with jobs := s1.jobs ++ [job] }
    if j.rq.nowait then s2.acceptJob j.rid (us.length + 1) else s2.acceptKit j.kit

/-! ### FENCE (07 R176; 11 R294, R295) -/

/-- The writes of a Kit admitted before a request and not yet at their outcome. -/
def State.openWrites (s : State) (k : Kit) (rid : Nat) : List Nat :=
  let wait := s.inflight.filter fun f =>
    f.kit == some k && (f.rq.opc == 0x11 || f.rq.opc == 0x12) && f.rid < rid && f.stage != .replied
  ((wait.map fun f => f.rid) ++ (s.jobs.filter fun j => j.kit == k && j.rid < rid).map fun j => j.rid).eraseDups

/-- Whether a covered write has every chord accepted and at its outcome. -/
def State.writeOver (s : State) (rid : Nat) : Bool :=
  !(s.jobs.any fun j => j.rid == rid) && !(s.inflight.any fun f => f.rid == rid && f.stage != .replied)

/-- A FENCE completes: OK, or RECANTED with every unreported recanted chord of the Kit (R295). -/
def State.fenceDone (s : State) (f : FenceJob) : State :=
  let x := s.kit f.kit
  let s1 := { s with fences := s.fences.filter fun g => g.rid != f.rid }
  let a := fun (st det : Nat) =>
    { ans st det with mark := s.markIn 1, release := some ((f.last + x.tempoWr) % Config.beatWrap) }
  if x.kunrep == 0 then s1.answer f.rid f.rq (some f.kit) (a 0x00 f.last)
  else
    (s1.setKit f.kit { x with krecant := x.kunrep, kunrep := 0 }).answer f.rid f.rq (some f.kit)
      (a 0x42 (detAddr x.kfirst x.kunrep))

/-- FENCE_COMPLETE: each FENCE of a Kit whose covered writes are over completes, in admission order (R294, R295). -/
def State.fencesOver (s : State) (k : Kit) : State :=
  forEach (fun (f : FenceJob) (t : State) =>
    if f.covers.all t.writeOver then
      match t.fences.find? fun g => g.rid == f.rid with
      | some g => t.fenceDone g
      | none => t
    else t) (s.fences.filter fun f => f.kit == k) s

/-- FENCE begins: it covers the Kit's earlier writes, places its barrier at the switch (05 R135) and closes the Kit's
merge entries (R294). -/
def State.startFence (s : State) (j : Job) : State :=
  let f : FenceJob := ⟨j.rid, j.rq, j.kit, s.openWrites j.kit j.rid, j.admBeat, j.admBeat⟩
  let s1 := { s with fences := s.fences ++ [f], barriers := s.barriers ++ [(j.kit, j.rid)] }
  (s1.closeMerges fun m => m.kit == j.kit && m.rids.any fun r => r < j.rid).fencesOver j.kit

/-! ### Capture, RMW merge, merge closing, verify -/

/-- PRE_IMAGE_CAPTURE (R282): two Beats after its token the array gives the pre-image; later entries of the chord take it
too. -/
def State.captureEntry (s : State) (ent : Nat) : State :=
  match s.hold.find? fun e => e.ent == ent with
  | none => s
  | some e =>
    match e.pre, e.payer with
    | .due b, some k =>
      if !reached b s.bar.beatno then s
      else
        let fill := fun (t : State) (v : Option (List Byte)) =>
          { t with hold := updWhere (fun x => x.kind == .data && x.payer == e.payer && x.kaddr == e.kaddr &&
              (match x.pre with | .due _ => true | _ => false)) (fun x => { x with pre := .have v }) t.hold }
        match s.stored k e.kaddr with
        | .val d => fill s (some d)
        | .poison => fill s none
        | .array c _ _ =>
          fill (s.readArray 1 c) (s.decodeOf k e.kaddr c).value
        | _ => s
    | _, _ => s

/-- The writing Kit's view for an RMW merge: the newest entry before it, else the stored chord, with open merge bytes
over it (R292, R288). -/
def State.rmwView (s : State) (e : WEntry) (k : Kit) : View :=
  match ((s.entriesOf k e.kaddr).filter fun x => x.ent < e.ent && x.phase != .merging).getLast? with
  | some x => (View.val x.data).under (s.mergeOf k e.kaddr)
  | none => (s.stored k e.kaddr).under (s.mergeOf k e.kaddr)

/-- The merged chord is accepted, and its pre-image captured (R292, R282). -/
def State.rmwAccept (s0 : State) (e : WEntry) (k : Kit) (d : List Byte) : State :=
  let s := s0.notePrior k e.kaddr
  let data := overlay e.mask e.data d
  let p := s.capture k e.kaddr
  let f := fun (x : WEntry) => { x with data := data, phase := .waiting, accepted := s.bar.beatno, pre := p.1 }
  let s1 := { p.2 with hold := updWhere (fun x => x.ent == e.ent) f s.hold }
  let s2 := forEach (fun (rid : Nat) (t : State) =>
    (t.creditBack rid k).updJob rid fun j => { j with lastAccept := s.bar.beatno }) e.rids s1
  let s3 := ((s2.heat k e.kaddr 1).touch k e.kaddr).nearWrite k e.kaddr data
  forEach (fun (rid : Nat) (t : State) => t.settleJob rid) e.rids s3

/-- The chord under an RMW merge is poisoned: accepted and recanted at once, with no pulse (13 R338). -/
def State.rmwPoison (s : State) (e : WEntry) (k : Kit) : State :=
  let s1 := { s with hold := s.hold.filter fun x => x.ent != e.ent }
  s1.recantNarrow k e.rids e.kaddr e.chord.toNat

/-- RMW_MERGE (R292): in admission order, with a token when the chord comes from the array. -/
def State.mergeEntry (s : State) (ent : Nat) : State :=
  match s.hold.find? fun e => e.ent == ent && e.phase == .merging with
  | none => s
  | some e =>
    match e.payer with
    | none => s
    | some k =>
      if s.hold.any fun x => x.ent < e.ent && x.chord == e.chord && x.phase == .merging then s
      else match s.rmwView e k with
        | .val d => s.rmwAccept e k d
        | .poison => s.rmwPoison e k
        | .array c m ov =>
          match s.kitToken k with
          | none => s
          | some t =>
            match (t.decodeOf k e.kaddr c).value with
            | some d => (t.readArray 1 c).rmwAccept e k (overlay m ov d)
            | none => (t.readArray 1 c).rmwPoison e k
        | _ => s

/-- MERGE_ENTRY_TIMEOUT (R290): an entry open for 8 Beats closes. -/
def State.mergeLate (s : State) (i : Fin 64) : State :=
  match s.merge[i] with
  | some m => if reached ((m.opened + 8) % Config.beatWrap) s.bar.beatno then s.closeMerge i else s
  | none => s

/-- CHORD_VERIFY (R283): the verify of a pulse, two Beats after it. -/
def State.verifyAt (s : State) (ent : Nat) (failing : Slices) : State :=
  match s.hold.find? fun e => e.ent == ent with
  | none => s
  | some e =>
    match e.phase with
    | .pulsed p =>
      -- periods of house time, in which a Knell record may be written, are not BEATNO's (18 R429)
      let house := s.knl.running && (!s.mode.timed || s.bar.hold)
      if house || reached ((p + 2) % Config.beatWrap) s.bar.beatno then s.verifyEntry e failing else s
    | _ => s

/-! ### The rows -/

/-- READ (R171). -/
def execRead (rq : Req) (s : State) : Host.Outcome State Fault Refusal :=
  runReq (Instr.read rq).wf rq s fun j t => t.startRead j

/-- WRITE (R173). -/
def execWrite (rq : Req) (s : State) : Host.Outcome State Fault Refusal :=
  runReq (Instr.write rq).wf rq s fun j t => t.startWrite j (writeUnits rq)

/-- WRITE_MASKED (R174, R175). -/
def execWriteMasked (rq : Req) (s : State) : Host.Outcome State Fault Refusal :=
  runReq (Instr.writeMasked rq).wf rq s fun j t => t.startWrite j (maskedUnits rq)

/-- FENCE (R176). -/
def execFence (rq : Req) (s : State) : Host.Outcome State Fault Refusal :=
  runReq (Instr.fence rq).wf rq s fun j t => t.startFence j

/-- CHORD_ACCEPT (R76, R281): the chords of a Kit that wait, for as long as share and entries allow. -/
def execChordAccept (k : Kit) (s : State) : Host.Outcome State Fault Refusal := .next (s.acceptKit k)

/-- PRE_IMAGE_CAPTURE (R282). -/
def execPreImageCapture (ent : Nat) (s : State) : Host.Outcome State Fault Refusal := .next (s.captureEntry ent)

/-- CHORD_VERIFY (R283 to R285). -/
def execChordVerify (ent : Nat) (failing : Slices) (s : State) : Host.Outcome State Fault Refusal :=
  .next (s.verifyAt ent failing).waitsOver

/-- FENCE_COMPLETE (R295). -/
def execFenceComplete (k : Kit) (s : State) : Host.Outcome State Fault Refusal := .next (s.fencesOver k)

/-- MERGE_ENTRY_TIMEOUT (R290). -/
def execMergeEntryTimeout (ix : Fin 64) (s : State) : Host.Outcome State Fault Refusal := .next (s.mergeLate ix)

/-- RMW_MERGE (R292). -/
def execRmwMerge (ent : Nat) (s : State) : Host.Outcome State Fault Refusal := .next (s.mergeEntry ent)

end Sys2Proof.Machine
end

