-- ==== Sys2Proof/Machine/Muffles.lean ====
section
/-! DEFINITION. Generated Muffles (12 R325, Table 0.4): BF16 values to MXFP8 (E4M3) and MXFP4 (E2M1), blocks of 32 with a
shared E8M0 scale, round to nearest even, saturation. -/

namespace Sys2Proof.Machine

/-- A finite magnitude M × 2^(exp − 134) of a BF16 value, from its exponent and mantissa fields. -/
structure Mag where
  /-- M -/
  m : Nat
  /-- the exponent field, at least 1 -/
  e : Nat
deriving DecidableEq, Repr

/-- A BF16 value: sign, and its magnitude, infinity or NaN. -/
inductive Bf | fin (neg : Bool) (x : Mag) | inf (neg : Bool) | nan (neg : Bool)
deriving DecidableEq, Repr

/-- The BF16 value of a 16-bit number. -/
def bf16 (v : Nat) : Bf :=
  let neg := v / 32768 % 2 == 1
  let e := v / 128 % 256
  let m := v % 128
  if e == 255 then (if m == 0 then .inf neg else .nan neg)
  else if e == 0 then .fin neg ⟨m, 1⟩ else .fin neg ⟨128 + m, e⟩

/-- floor(log2) of a non-zero number. -/
def ilog2 (n : Nat) : Nat := Nat.log2 n

/-- floor(log2 X) of a non-zero magnitude. -/
def Mag.log (x : Mag) : Int := (ilog2 x.m : Int) + (x.e : Int) - 134

/-- The larger of two magnitudes, both as mantissas at the exponent of the smaller. -/
def Mag.max (a b : Mag) : Mag := if a.m * 2 ^ a.e < b.m * 2 ^ b.e then b else a

/-- M × 2^t rounded to the nearest integer, ties to even. -/
def roundShift (m : Nat) (t : Int) : Nat :=
  if 0 ≤ t then m * 2 ^ t.toNat
  else
    let d := 2 ^ (-t).toNat
    let q := m / d
    let r := m % d
    if d < 2 * r || (2 * r == d && q % 2 == 1) then q + 1 else q

/-- An element format: mantissa bits, least normal exponent, code of the largest finite magnitude, code of NaN. -/
structure Mx where
  /-- mantissa bits -/
  k : Nat
  /-- least exponent of a normal number -/
  emin : Int
  /-- emax of the block scale -/
  emax : Int
  /-- largest finite code -/
  top : Nat
  /-- code of NaN: the maximum magnitude where the format has none -/
  nan : Nat
  /-- place of the sign bit -/
  sign : Nat
deriving DecidableEq, Repr

/-- E4M3 (MXFP8). -/
def mxfp8 : Mx := ⟨3, -6, 8, 0x7E, 0x7F, 7⟩
/-- E2M1 (MXFP4). -/
def mxfp4 : Mx := ⟨1, 0, 2, 7, 7, 3⟩

/-- The code of a magnitude × 2^−e, rounded and saturated (Table 0.4). -/
def Mx.code (f : Mx) (x : Mag) (e : Int) : Nat :=
  if x.m == 0 then 0
  else
    let fl := x.log - e
    let base := if fl < f.emin then f.emin else fl
    let q := base - f.k
    let r := roundShift x.m ((x.e : Int) - 134 - e - q)
    let c := if fl < f.emin then r else ((fl - f.emin).toNat + 1) * 2 ^ f.k + r - 2 ^ f.k
    min c f.top

/-- An element with its sign. -/
def Mx.elem (f : Mx) (v : Bf) (e : Int) : Nat :=
  match v with
  | .fin n x => f.code x e + (if n then 2 ^ f.sign else 0)
  | .inf n => f.top + (if n then 2 ^ f.sign else 0)
  | .nan n => f.nan + (if n then 2 ^ f.sign else 0)

/-- The scale exponent of a block, none when its scale byte is 0x00 (R325). -/
def Mx.scale (f : Mx) (vs : List Bf) : Option Int :=
  let x := vs.foldl (fun a v => match v with | .fin _ m => a.max m | _ => a) (⟨0, 1⟩ : Mag)
  if x.m == 0 then none
  else
    let e := x.log - f.emax
    some (if e < -127 then -127 else if 127 < e then 127 else e)

/-- The scale byte and the element codes of one block; without a scale the elements divide by 2^−127 (R325). -/
def Mx.block (f : Mx) (vs : List Bf) : Nat × List Nat :=
  match f.scale vs with
  | some e => ((e + 127).toNat, vs.map fun v => f.elem v e)
  | none => (0, vs.map fun v => f.elem v (-127))

/-- Pack E2M1 codes two to a byte, the first in [3:0] (Table 12.5). -/
def nibbles : List Nat → List Byte
  | a :: b :: rest => BitVec.ofNat 8 (a + 16 * b) :: nibbles rest
  | [a] => [BitVec.ofNat 8 a]
  | [] => []

/-- The BF16 values of a chord; those of a poisoned chord are NaN (R325). -/
def chordValues : Option (List Byte) → List Bf
  | some d => (List.range 32).map fun i => bf16 (fieldAt d (2 * i) 2)
  | none => List.replicate 32 (.nan false)

/-- The Muffle of a page from its 1,024 chords: format 1 MXFP8, else MXFP4 (Table 12.5). -/
def muffleBytes (fmt : Nat) (chords : List (Option (List Byte))) : List Byte :=
  let f := if fmt == 1 then mxfp8 else mxfp4
  let bs := chords.map fun c => f.block (chordValues c)
  let codes := (bs.map fun b => b.2).flatten
  (bs.map fun b => BitVec.ofNat 8 b.1)
    ++ (if fmt == 1 then codes.map (BitVec.ofNat 8) else nibbles codes)

end Sys2Proof.Machine
end

