-- ==== Sys2Proof/Machine/Placement.lean ====
section
/-! DEFINITION. The page-range commands (07 R177 to R180; 09 R232, R238, R240, R249, R250): PLACE, PIN, UNPIN, MIGRATE_NOW
and MUFFLE_DECLARE. -/

namespace Sys2Proof.Machine

/-- The kit pages of a page-range request, in order (Table 7.4). -/
def pagesOf (rq : Req) : List KPage := (List.range (countOf rq)).map fun i => BitVec.ofNat 23 (addrOf rq / 65536 + i)

/-- Back an unbacked page at the home that its window gives, or find the quota exhausted (R232, R234). -/
def State.backPage (s : State) (k : Kit) (kp : KPage) : Option State :=
  match s.findPage k kp with
  | some _ => some s
  | none => (s.backChoice k (s.autoAt k kp)).map fun h => s.backAt k kp h

/-- Process pages in order until one finds its quota exhausted: pages done, whether all are, and the state (R179). -/
def State.eachPage (f : KPage → State → Option State) : List KPage → Nat → State → Nat × Bool × State
  | [], n, s => (n, true, s)
  | kp :: rest, n, s =>
    match f kp s with
    | some t => t.eachPage f rest (n + 1)
    | none => (n, false, s)

/-! ### PLACE (Table 9.2) -/

/-- Whether a move of a kind is under way or waits for a page. -/
def State.headed (s : State) (k : Kit) (kp : KPage) (kind : MoveKind) : Bool :=
  s.moves.any fun m => m.kit == k && m.kp == kp && m.kind == kind

/-- PLACE of one page at a home: 1 Main, 2 Deep; none when the quota or the device has no room (R240, R234, R253). -/
def State.placeOne (k : Kit) (arg : Nat) (kp : KPage) (s : State) : Option State :=
  let kind := if arg == 1 then MoveKind.rehome else MoveKind.demote
  let other := if arg == 1 then MoveKind.demote else MoveKind.rehome
  match s.findPage k kp with
  | none => (if arg == 1 then s.homeChoice k else s.deepChoice k).map fun h => s.backAt k kp h
  | some p =>
    let there := if arg == 1 then p.frame.isSome else p.deepPage.isSome
    if s.headed k kp kind || (there && !s.headed k kp other) then some s
    else
      let home := if arg == 1 then s.homeChoice k else s.deepChoice k
      home.map fun h =>
        let dest := match h with | .main f => f | .deep d => d
        s.addMove { mkMove k kp kind dest with going := false }

/-! ### Pins -/

/-- Residency pins of the whole device (R238). -/
def State.resPins (s : State) : Nat :=
  (s.pages.filter fun p => p.deepPage.isSome && (p.mainPin || p.impliedPin)).length

/-- Main pins of a Kit: pages pinned in Residency or barred from demotion (Table 9.2). -/
def State.mainPins (s : State) (k : Kit) : Nat :=
  (s.pages.filter fun p => p.kit == k && (p.mainPin || p.impliedPin)).length

/-- Whether a Kit may pin one more page in Main; `deep` when it takes a Residency slot (R238, R250). -/
def State.mayPinMain (s : State) (k : Kit) (deep : Bool) : Bool :=
  let priv := s.priv false k
  s.mainPins k < (s.kit k).quota 5 &&
    (!deep || (s.resPins < s.resSlots - 4096 && (priv == 0 || (s.pinsOf k).1 < priv - 1)))

/-- Whether a Kit may pin one more page in Near (R249, R250). -/
def State.mayPinNear (s : State) (k : Kit) : Bool :=
  let priv := s.priv true k
  (s.pinsOf k).2 < (s.kit k).quota 4 && (s.pages.filter fun p => p.nearPin).length < 1024
    && (priv == 0 || (s.pinsOf k).2 < priv / 16 - 1)

/-- PIN of one page: 1 Near, 2 Main (Table 9.2). -/
def State.pinOne (k : Kit) (arg : Nat) (kp : KPage) (s0 : State) : Option State :=
  (s0.backPage k kp).bind fun s =>
    match s.findPage k kp with
    | none => none
    | some p =>
      let deep := p.deepPage.isSome
      if arg == 1 then
        if p.nearPin then some s
        else if s.mayPinNear k && (!deep || p.mainPin || p.impliedPin || s.mayPinMain k true) then
          let s1 := s.updPage k kp fun q => { q with nearPin := true, impliedPin := q.impliedPin || deep }
          some (if deep && p.slot.isNone then s1.startPromote k kp true none else s1.bringNear k kp none)
        else none
      else if p.mainPin then some s
      else if p.impliedPin || s.mayPinMain k deep then
        let s1 := s.updPage k kp fun q => { q with mainPin := true }
        some (if deep && p.slot.isNone then s1.startPromote k kp p.nearPin none else s1)
      else none

/-- UNPIN of one page: 1 Near, 2 Main, 3 both (Table 9.2). -/
def State.unpinOne (k : Kit) (arg : Nat) (kp : KPage) (s : State) : State :=
  s.updPage k kp fun p =>
    { p with nearPin := p.nearPin && arg == 2, impliedPin := p.impliedPin && arg == 2, mainPin := p.mainPin && arg == 1 }

/-- Queue the wait of a request for its pages, which may be over at once (Table 7.5, R235). -/
def State.waitFor (s : State) (j : Job) (pages : List KPage) (status detail : Nat) : State :=
  let w : WaitJob := ⟨j.rid, j.rq, j.kit, pages, BitVec.ofNat 8 status, BitVec.ofNat 48 detail⟩
  { s with waits := s.waits ++ [w] }.waitsOver

/-- A page-range request done with `n` pages: OK, or OK_PARTIAL with reason 3 (R179). -/
def rangeStatus (n : Nat) (all : Bool) : Nat × Nat := if all then (0x00, 0) else (0x04, detPartial n 3)

/-- PLACE and PIN (R179): pages in order, and the reply once what was backed is recorded. -/
def State.rangeRequest (s : State) (j : Job) (f : KPage → State → Option State) : State :=
  let ps := pagesOf j.rq
  let r := s.eachPage f ps 0
  let st := rangeStatus r.1 r.2.1
  r.2.2.waitFor j ((ps.take r.1).filter fun kp => match r.2.2.findPage j.kit kp with
    | some p => !p.stable
    | none => false) st.1 st.2

/-! ### MUFFLE_DECLARE (R180; 12 R325, R326) -/

/-- The Muffle of a page. -/
def State.muffleOf (s : State) (k : Kit) (kp : KPage) : Option Muffle :=
  s.muffles.find? fun m => m.kit == k && m.kp == kp

/-- Muffle chords that a Kit holds, apart from those of a page (TIER_KQ_MUF). -/
def State.muffleUsed (s : State) (k : Kit) (kp : KPage) : Nat :=
  ((s.muffles.filter fun m => m.kit == k && m.kp != kp).map fun m => m.extent.2).sum

/-- A declaration replaces an earlier one of its page (R180). -/
def State.setMuffle (s : State) (m : Muffle) : State :=
  { s with muffles := (s.muffles.filter fun x => !(x.kit == m.kit && x.kp == m.kp)) ++ [m] }

/-- Consecutive chords of a byte list, the last one filled with zeros. -/
def toChords (bs : List Byte) : List (List Byte) :=
  (List.range (ceilDiv bs.length 64)).map fun i =>
    let c := (bs.drop (64 * i)).take 64
    c ++ zeros (64 - c.length)

/-- A page's Muffle is generated from its chords, and its chords are queued (R180). -/
def State.storeMuffle (s : State) (j : MufJob) (kp : KPage) (chords : List (Option (List Byte))) : State :=
  let fmt := argOf j.rq
  let cs := toChords (muffleBytes fmt chords)
  let base := s.mufflePlace (muffleChords fmt)
  let s1 := s.setMuffle ⟨j.kit, kp, .generated fmt base, false, false⟩
  let s2 := forEach (fun (x : Nat × List Byte) (t : State) =>
    t.queueChord (.muffle j.kit kp) (some j.kit) j.rid (base + x.1) x.2)
    ((List.range cs.length).zip cs) s1
  { s2 with stageJobs := s2.stageJobs ++ [⟨j.rid, j.rq, j.kit, cs.length, 0, none⟩] }

/-- Read the next chords of the page that a Muffle is made of: confirmed contents, a token for each from Main (R180,
R289); stops where it must wait. -/
def State.readPageFor (k : Kit) (kp : KPage) : Nat → List (Option (List Byte)) → State → List (Option (List Byte)) × State
  | 0, got, s => (got, s)
  | n + 1, got, s =>
    let a := kp.toNat * 65536 + 64 * got.length
    match s.windowAt k a with
    | none => s.readPageFor k kp n (got ++ [some (zeros 64)])
    | some w =>
      let o := w.owner k a
      match s.viewConfirmed o.1 o.2 with
      | .val d => s.readPageFor k kp n (got ++ [some d])
      | .poison => s.readPageFor k kp n (got ++ [none])
      | .array c _ _ =>
        match s.kitToken k with
        | some t => (t.readArray 1 c).readPageFor k kp n (got ++ [(t.decodeOf o.1 o.2 c).value])
        | none => (got, s)
      | .absent => (got, s.startPromote o.1 (kpOf o.2) false none)
      | .wait => (got, s)

/-- Replace a Muffle job. -/
def State.updMuf (s : State) (j : MufJob) : State :=
  { s with mufJobs := updWhere (fun x => x.rid == j.rid) (fun _ => j) s.mufJobs }

/-- Pages of a request done before those it still has to read. -/
def MufJob.done (j : MufJob) : Nat := countOf j.rq - j.todo.length

/-- The address of the earliest of some recants, the lower on equal Beats (11 R295). -/
def firstOf (xs : List (Nat × Nat)) : Nat :=
  match xs with
  | [] => 0
  | x :: rest => (rest.foldl (fun a b => if b.2 < a.2 || (b.2 == a.2 && b.1 < a.1) then b else a) x).1

/-- A Muffle request is over: OK, OK_PARTIAL, or RECANTED when a chord failed (R179, R180, R293). -/
def State.muffleOver (s : State) (j : MufJob) : State :=
  let mine := s.stageJobs.filter fun x => x.rid == j.rid
  if !(mine.all fun x => x.left == 0) then s
  else
    let bad := (mine.map fun x => x.recanted).sum
    let first := firstOf (mine.filterMap fun x => x.first)
    let f := fun (m : Muffle) => { m with stored := true }
    let pages := (pagesOf j.rq).take (j.stop.getD (countOf j.rq))
    let s1 := { s with mufJobs := s.mufJobs.filter fun x => x.rid != j.rid,
                       stageJobs := s.stageJobs.filter fun x => x.rid != j.rid,
                       muffles := updWhere (fun m => m.kit == j.kit && pages.contains m.kp) f s.muffles }
    let a := match j.stop with | some n => ans 0x04 (detPartial n 3) | none => ans 0x00 0
    s1.answer j.rid j.rq (some j.kit) (if bad == 0 then a else ans 0x42 (detAddr first bad))

/-- One Beat of a Muffle job. -/
def State.muffleStep (rid : Nat) : Nat → State → State
  | 0, s => s
  | n + 1, s =>
    match s.mufJobs.find? fun j => j.rid == rid with
    | none => s
    | some j =>
      match j.todo with
      | [] => s.muffleOver j
      | kp :: rest =>
        if j.got.isEmpty && (s.kit j.kit).quota 6 < s.muffleUsed j.kit kp + muffleChords (argOf j.rq) then
          (s.updMuf { j with todo := [], stop := some j.done }).muffleStep rid n
        else
          let r := s.readPageFor j.kit kp (1024 - j.got.length) j.got
          if r.1.length < 1024 then r.2.updMuf { j with got := r.1 }
          else ((r.2.storeMuffle j kp r.1).updMuf { j with todo := rest, got := [] }).muffleStep rid n

/-- Muffle jobs go on for this Beat. -/
def State.mufflesGoOn (s : State) : State :=
  forEach (fun (j : MufJob) (t : State) => t.muffleStep j.rid (j.todo.length + 2)) s.mufJobs s

/-- MUFFLE_DECLARE (R180). -/
def State.declare (s : State) (j : Job) : State :=
  let ps := pagesOf j.rq
  match argOf j.rq with
  | 0 => j.reply { s with muffles := s.muffles.filter fun m => !(m.kit == j.kit && ps.contains m.kp) } 0x00 0
  | 3 =>
    let addr := fieldAt j.rq.payload 0 5
    let n := fieldAt j.rq.payload 5 2
    j.reply (forEach (fun (kp : KPage) (t : State) => t.setMuffle ⟨j.kit, kp, .declared addr n, true, false⟩) ps s) 0x00 0
  | _ =>
    let mj : MufJob := ⟨j.rid, j.rq, j.kit, ps, [], none⟩
    ({ s with mufJobs := s.mufJobs ++ [mj] }).muffleStep j.rid (ps.length + 2)

/-! ### The rows -/

/-- PLACE (R178, R240). -/
def execPlace (rq : Req) (s : State) : Host.Outcome State Fault Refusal :=
  runReq (Instr.place rq).wf rq s fun j t => t.rangeRequest j (State.placeOne j.kit (argOf rq))

/-- PIN (R240). -/
def execPin (rq : Req) (s : State) : Host.Outcome State Fault Refusal :=
  runReq (Instr.pin rq).wf rq s fun j t => t.rangeRequest j (State.pinOne j.kit (argOf rq))

/-- UNPIN (R240). -/
def execUnpin (rq : Req) (s : State) : Host.Outcome State Fault Refusal :=
  runReq (Instr.unpin rq).wf rq s fun j t => j.reply (forEach (State.unpinOne j.kit (argOf rq)) (pagesOf rq) t) 0x00 0

/-- MIGRATE_NOW (R240). -/
def execMigrateNow (rq : Req) (s : State) : Host.Outcome State Fault Refusal :=
  runReq (Instr.migrateNow rq).wf rq s fun j t => t.waitFor j (pagesOf rq) 0x00 0

/-- MUFFLE_DECLARE (R180). -/
def execMuffleDeclare (rq : Req) (s : State) : Host.Outcome State Fault Refusal :=
  runReq (Instr.muffleDeclare rq).wf rq s fun j t => t.declare j

end Sys2Proof.Machine
end

