-- ==== Sys2Proof/Machine/Rudiments.lean ====
section
/-! DEFINITION. Rudiments (12; 07 R181 to R185): loading, starting and stopping programs, the instructions of Table 12.2,
FETCH, STREAM and its PUSH packets, deadlines and policies. -/

namespace Sys2Proof.Machine

/-! ### Pages as an engine's Kit sees them -/

/-- The owner's page behind a kit page of a Kit. -/
def State.ownerPage (s : State) (k : Kit) (kp : KPage) : Kit × KPage :=
  match s.windowAt k (kp.toNat * 65536) with
  | some w => let o := w.owner k (kp.toNat * 65536); (o.1, kpOf o.2)
  | none => (k, kp)

/-- The move that brings a page's data into Main. -/
def State.inbound (s : State) (k : Kit) (kp : KPage) : Option Move :=
  s.moves.find? fun m => m.kit == k && m.kp == kp && (m.kind == .promote || m.kind == .rehome)

/-- Whether every data chord of an inbound page has had its first pulse, `before` this Beat where asked (R317). -/
def State.pulsedIn (s : State) (k : Kit) (kp : KPage) (before : Bool) : Bool :=
  match s.inbound k kp with
  | some m => m.reads == 0 && m.todo.isEmpty && !(s.chordq.any fun q => q.1 == .move k kp) &&
      (s.hold.filter fun e => e.kind == .move k kp).all fun e => e.pulses != 0 && !(before && e.first == s.bar.beatno)
  | none => false

/-- Whether every non-zero sector of a page is in Main or Near (R317). -/
def State.inPlace (s : State) (k : Kit) (kp : KPage) : Bool :=
  match s.findPage k kp with
  | none => true
  | some p => p.frame.isSome || p.slot.isSome || (sectors (~~~ p.zero)).all fun x =>
      match s.near.find? fun b => b.kit == k && b.kp == kp && b.sector == x with
      | some b => 64 ≤ b.lines.length
      | none => false

/-- Whether a page is homed in Main or resident (R317). -/
def State.inMain (s : State) (k : Kit) (kp : KPage) : Bool :=
  match s.findPage k kp with
  | none => true
  | some p => p.frame.isSome || p.slot.isSome

/-- Whether a FETCH page is complete (R317). -/
def State.fetchDone (s : State) (k : Kit) (near : Bool) (kp : KPage) : Bool :=
  let o := s.ownerPage k kp
  if near then (s.findPage o.1 o.2).isNone || s.wholeNear o.1 o.2
  else s.inMain o.1 o.2 || s.pulsedIn o.1 o.2 false

/-- Whether a page is ready for a STREAM: the Beat after its completion, or in place already (R317). -/
def State.pageReady (s : State) (k : Kit) (kp : KPage) : Bool :=
  let o := s.ownerPage k kp
  s.inPlace o.1 o.2 || s.pulsedIn o.1 o.2 true

/-- Whether a page is Deep-homed, not resident and not being fetched into Main (R318). -/
def State.mustFetch (s : State) (k : Kit) (kp : KPage) : Bool :=
  let o := s.ownerPage k kp
  match s.findPage o.1 o.2 with
  | none => false
  | some p => p.deepPage.isSome && p.slot.isNone && (s.inbound o.1 o.2).isNone

/-! ### Programs (R181 to R183, R306, R307) -/

/-- The loaded copy of a slot. -/
def State.copyOf (s : State) (k : Kit) (slot : Fin 8) : Option RudCopy :=
  s.copies.find? fun c => c.kit == k && c.slot == slot

/-- The record of a staged slot. -/
def State.stageOf (s : State) (k : Kit) (slot : Fin 8) : Option RudStage :=
  s.stages.find? fun c => c.kit == k && c.slot == slot

/-- The bytes of a stage chord that is on its way to the array: the Kit's latest STAGE of it (11 R288). -/
def State.stageComing (s : State) (c : Nat) : Option (List Byte) :=
  let stage := fun (w : WKind) => match w with | .stage _ _ => true | _ => false
  match (s.chordq.filter fun q => stage q.1 && q.2.2.2.1.toNat == c).getLast? with
  | some q => some q.2.2.2.2
  | none => ((s.hold.filter fun e => stage e.kind && e.chord.toNat == c).getLast?).map fun e => e.data

/-- Whether a slot has been staged since its Kit was created (R182). -/
def State.isStaged (s : State) (k : Kit) (slot : Fin 8) : Bool :=
  (s.stageOf k slot).isSome || (List.range 256).any fun i => (s.stageComing (stageChord k slot i)).isSome

/-- Whether a chord of a slot's array copy holds staged words; others read 0 (log 14). -/
def State.stageHas (s : State) (k : Kit) (slot : Fin 8) (i : Nat) : Bool :=
  match s.stageOf k slot with | some x => x.chords.contains i | none => false

/-- A chord of a slot's array copy, none when it is poisoned, and the state after its read (R24, R182, 13 Table 13.6). -/
def State.stageRead (s : State) (k : Kit) (slot : Fin 8) (i : Nat) : Option (List Byte) × State :=
  let c := stageChord k slot i
  match s.stageComing c with
  | some d => (some d, s)
  | none => if s.stageHas k slot i then ((s.decodeAt c).value, s.readArray 1 c) else (some (zeros 64), s)

/-- The first `n` chords of a slot's array copy; none when one is poisoned. -/
def State.stageReads (k : Kit) (slot : Fin 8) : Nat → State → Option (List Byte) × State
  | 0, s => (some [], s)
  | n + 1, s =>
    let r := s.stageReads k slot n
    let x := r.2.stageRead k slot n
    (match r.1, x.1 with | some a, some d => some (a ++ d) | _, _ => none, x.2)

/-- A chord of a slot with the words of a STAGE from an instruction offset on laid over it (R181). -/
def stageOver (base : List Byte) (i off n : Nat) (payload : List Byte) : List Byte :=
  ((List.range 16).map fun j =>
    let w := 16 * i + j
    if off ≤ w && w < off + n then (payload.drop (4 * (w - off))).take 4 else (base.drop (4 * j)).take 4).flatten

/-- RUD_LOAD with OP = STAGE (R181). -/
def State.rudStage (s : State) (j : Job) : State :=
  let slot : Fin 8 := engIx (pb j.rq 9)
  let off := pb j.rq 10 + 256 * pb j.rq 11
  let n := lenOf j.rq / 4
  let chords := (List.range ((off + n - 1) / 16 - off / 16 + 1)).map fun i => off / 16 + i
  let s1 := { s with stageJobs := s.stageJobs ++ [⟨j.rid, j.rq, j.kit, chords.length, 0, none⟩] }
  forEach (fun (i : Nat) (t : State) =>
    let r := t.stageRead j.kit slot i
    r.2.queueChord (.stage j.kit slot) (some j.kit) j.rid (stageChord j.kit slot i)
      (stageOver (r.1.getD (zeros 64)) i off n j.rq.payload)) chords s1

/-- RUD_LOAD STAGEs whose chords are all confirmed reply OK, or RECANTED when one failed (R181, R293). -/
def State.stagesOver (s : State) : State :=
  let isOver := fun (x : StageJob) => x.rq.opc == 0x20 && x.left == 0
  let s1 := { s with stageJobs := s.stageJobs.filter fun x => !isOver x }
  forEach (fun (x : StageJob) (t : State) =>
    t.answer x.rid x.rq (some x.kit) (match x.first with
      | some f => ans 0x42 (detAddr f.1 x.recanted)
      | none => ans 0x00 0)) (s.stageJobs.filter isOver) s1

/-- The jump target of an instruction. -/
def targetOf : RudInstr → Option Nat
  | .br _ _ t => some t.toNat
  | .brs _ _ _ t => some t.toNat
  | .call t => some t.toNat
  | _ => none

/-- Whether an instruction may not end a loop's body (R307). -/
def endsBadly : RudInstr → Bool
  | .br _ _ _ => true
  | .brs _ _ _ _ => true
  | .call _ => true
  | .ret => true
  | .halt => true
  | .loop _ _ => true
  | _ => false

/-- Whether the instruction at an index of a program is good (R182, R307). -/
def goodAt (prog : List (Option RudInstr)) (i : Nat) : Bool :=
  match prog.getD i none with
  | none => false
  | some x =>
    (match targetOf x with | some t => t < prog.length | none => true) &&
    (match x with
     | .loop _ len =>
       let body := (prog.drop (i + 1)).take len.toNat
       body.length == len.toNat && !(body.any fun y => match y with | some (.loop _ _) => true | _ => false)
         && !(match body.getLast? with | some (some y) => endsBadly y | _ => false)
     | _ => true)

/-- The lowest run of free units of the store, past those of other copies (R306). -/
def State.storeRun (s : State) (n : Nat) : Option Nat :=
  let used := s.storeUsed
  (List.range (Config.storeUnits + 1 - n)).find? fun u => (List.range n).all fun i => !used.contains (u + i)

/-- Whether an engine runs, held engines included. -/
def EngSt.busy (g : EngSt) : Bool := g.state == .running || g.state == .held

/-- The words of a program's bytes. -/
def wordsOf (n : Nat) (bs : List Byte) : List Word := (List.range n).map fun i => BitVec.ofNat 32 (fieldAt bs (4 * i) 4)

/-- LOAD puts a good program into the store (R182). -/
def State.rudStore (s : State) (j : Job) (slot : Fin 8) (words : List Word) : State :=
  let others := { s with copies := s.copies.filter fun c => !(c.kit == j.kit && c.slot == slot) }
  let runs := s.engs.toList.any fun g => g.busy && g.kit == j.kit && g.slot == slot
  match (if runs then none else others.storeRun (ceilDiv (4 * words.length) 256)) with
  | none => j.reply s 0x11 1
  | some u => j.reply { others with copies := others.copies ++ [⟨j.kit, slot, u, words⟩] } 0x00 0

/-- RUD_LOAD with OP = LOAD (R182): a slot with a chord that cannot be read counts as not staged (13 Table 13.6). -/
def State.rudLoad (s : State) (j : Job) : State :=
  let slot : Fin 8 := engIx (pb j.rq 9)
  let len := pb j.rq 12 + 256 * pb j.rq 13
  if !s.isStaged j.kit slot then j.reply s 0x31 (detHdr 9)
  else
    let r := s.stageReads j.kit slot (ceilDiv len 16)
    match r.1 with
    | none => j.reply { r.2 with stages := r.2.stages.filter fun c => !(c.kit == j.kit && c.slot == slot) } 0x31 (detHdr 9)
    | some bs =>
      let words := wordsOf len bs
      let prog := words.map Rud.decode
      match (List.range len).find? fun i => !goodAt prog i with
      | some i => j.reply r.2 0x31 (detPay (4 * i))
      | none => r.2.rudStore j slot words

/-- Whether a Kit may use an engine: in Strict Tempo its own, and the unassigned ones for the house kit (R183; 08 R225). -/
def State.engUsable (s : State) (k : Kit) (e : Engine) : Bool :=
  !s.strictNow || (s.kit k).engines.getLsbD e.val
    || (k == 0 && !(s.liveKits.any fun o => (s.kit o).engines.getLsbD e.val))

/-- RUD_START (R183, Table 12.1). -/
def State.rudStart (s : State) (j : Job) : State :=
  let slot : Fin 8 := engIx (pb j.rq 8)
  let want := pb j.rq 9
  let ok := fun (e : Engine) => !(s.eng e).busy && s.engUsable j.kit e
  match s.copyOf j.kit slot with
  | none => j.reply s 0x31 (detHdr 8)
  | some _ =>
    match allEngines.find? fun e => (want == 15 || want == e.val) && ok e with
    | none => j.reply s 0x11 1
    | some e =>
      let first := (j.admBeat + 1 + (pb j.rq 10 + 256 * pb j.rq 11)) % Config.beatWrap
      let g : EngSt := { EngSt.reset with
        state := .running, kit := j.kit, slot := slot, next := first,
        g := EngSt.reset.g.set 0 (BitVec.ofNat 32 (prm j.rq / 2 ^ 32)) }
      j.reply (s.setEng e g) 0x00 (e.val + 256 * (first % 2 ^ 40))

/-- RUD_STOP (R184): the engine stops at the next Beat; nothing more of its STREAMs is queued or sent. -/
def State.rudStop (s : State) (j : Job) : State :=
  let e := engIx (pb j.rq 9)
  let g := s.eng e
  let g1 := if g.busy then { g with stopping := true, fifo := [], streams := [] } else g
  j.reply (s.setEng e g1) 0x00 (e.val + 256 * (g.pc % 65536) + 2 ^ 24 * g.state.code)

/-- Engines that were told to stop have stopped, and no further PUSH of their STREAMs is sent (R184). -/
def State.stopDue (s : State) : State :=
  { s with engs := s.engs.map fun g =>
      if g.stopping then { g with state := .stopped, stopping := false, fifo := [], streams := [] } else g }

/-- POLICY as encoded (Table 12.2). -/
def polCode : Policy → Nat
  | .stall => 0
  | .muffle => 1
  | .late => 2

/-- Table 7.7. -/
def EngSt.block (g : EngSt) : List Byte :=
  leBytes 1 g.state.code ++ leBytes 1 g.kit.val ++ leBytes 1 g.slot.val ++ leBytes 1 g.stack.length ++ leBytes 2 g.pc
    ++ leBytes 2 (match g.loop with | some l => l.ctr | none => 0)
    ++ (g.g.toList.map fun w => leBytes 4 w.toNat).flatten ++ leBytes 6 (g.dl.getD 0)
    ++ leBytes 1 (polCode g.pol) ++ zeros 1
    ++ (g.stall.toList.map fun n => leBytes 4 n).flatten

/-- RUD_QUERY (R185). -/
def State.rudQuery (s : State) (j : Job) : State := j.answer s (ansData (s.eng (engIx (pb j.rq 9))).block)

/-! ### Issue (R308 to R311, R313, R314) -/

/-- The program of an engine. -/
def State.program (s : State) (e : Engine) : Option (List Word) :=
  (s.copyOf (s.eng e).kit (s.eng e).slot).map fun c => c.words

/-- Whether an engine holds at a wait: in Free-wheel, and while its Kit is suspended (R52, R211). -/
def State.waitsHeld (s : State) (e : Engine) : Bool :=
  s.mode == .freewheel || (s.kit (s.eng e).kit).suspended

/-- Whether an engine may issue in this Beat (R308, R313; Table 2.3): one that is held under R52 or R211 issues nothing
(R324). In Free-wheel an engine issues up to its next wait, as R52 has it (DEDUCED, log 129). -/
def State.mayIssue (s : State) (e : Engine) : Bool :=
  s.mode.traffic && s.calMore 9 && (s.eng e).busy && reached (s.eng e).next s.bar.beatno
    && !((s.eng e).state == .held && s.waitsHeld e)

/-- The engine halts; a fault is reported (R311). -/
def State.halt (s : State) (e : Engine) (g : EngSt) (fault : Nat) : State :=
  let s1 := s.setEng e { g with state := .halted, fault := fault }
  if fault == 0 then s1 else (s1.raise .rud 0x01).notifyKit g.kit 0x0302 (e.val + 256 * fault + 65536 * g.pc)

/-- The engine at a PC that it has come to: halted where that runs off the program (R311). -/
def State.standsAt (s : State) (e : Engine) (g : EngSt) : State :=
  match s.program e with
  | some p => if p.length ≤ g.pc then s.halt e g 3 else s.setEng e g
  | none => s.setEng e g

/-- The engine as an instruction leaves it: counted, ready in the next Beat, halted where its PC runs off (R308, R311). -/
def State.retire (s : State) (e : Engine) (g : EngSt) : State :=
  s.standsAt e { g with issued := up32 g.issued 1, state := EngState.running }

/-- PC and loop after an instruction that does not jump (R314). -/
def EngSt.onward (g : EngSt) : EngSt :=
  match g.loop with
  | some l =>
    if g.pc == l.last then
      if 1 < l.ctr then { g with pc := l.start, loop := some { l with ctr := l.ctr - 1 } }
      else { g with pc := g.pc + 1, loop := none }
    else { g with pc := g.pc + 1 }
  | none => { g with pc := g.pc + 1 }

/-- A jump: out of the body it closes the loop (R314). -/
def EngSt.jump (g : EngSt) (t : Nat) : EngSt :=
  match g.loop with
  | some l => { g with pc := t, loop := if l.start ≤ t && t ≤ l.last then some l else none }
  | none => { g with pc := t }

/-- A wait whose target has come ends: the engine, which has not advanced while it held, goes on (R310, R313). -/
def State.waitDone (s : State) (e : Engine) : State :=
  if s.mayIssue e && (s.eng e).waiting then s.standsAt e { (s.eng e).onward with waiting := false } else s

/-- An engine issues an instruction: nothing happens while it may not, and a wait holds in Free-wheel (R52, R310). -/
def State.issueBy (s0 : State) (e : Engine) (wait : Bool) (f : EngSt → State → State) : State :=
  let s := s0.waitDone e
  if !s.mayIssue e then s
  else if wait && s.waitsHeld e then s.setEng e { s.eng e with state := .held }
  else f { s.eng e with next := (s.bar.beatno + 1) % Config.beatWrap } (s.calRan 9)

/-- An instruction that only changes its engine and goes on. -/
def State.plain (s : State) (e : Engine) (f : EngSt → EngSt) : State :=
  s.issueBy e false fun g t => t.retire e (f g).onward

/-- A general register. -/
def EngSt.r (g : EngSt) (i : GReg) : Word := g.g[i]
/-- Set a general register. -/
def EngSt.setR (g : EngSt) (i : GReg) (w : Word) : EngSt := { g with g := g.g.set i w }

/-- HALT (R311). -/
def State.iHalt (s : State) (e : Engine) : State :=
  s.issueBy e false fun g t => t.halt e { g with issued := up32 g.issued 1 } 0
/-- NOP. -/
def State.iNop (s : State) (e : Engine) : State := s.plain e id
/-- SETI. -/
def State.iSeti (s : State) (e : Engine) (rd : GReg) (hi : Bool) (imm : BitVec 16) : State :=
  s.plain e fun g => g.setR rd (if hi then imm ++ (g.r rd).extractLsb' 0 16 else imm.setWidth 32)
/-- ADDI. -/
def State.iAddi (s : State) (e : Engine) (rd rs : GReg) (imm : BitVec 16) : State :=
  s.plain e fun g => g.setR rd (g.r rs + imm.signExtend 32)
/-- MOV. -/
def State.iMov (s : State) (e : Engine) (rd rs : GReg) : State := s.plain e fun g => g.setR rd (g.r rs)

/-- A register-or-immediate operand. -/
def EngSt.val (g : EngSt) {w : Nat} : RegOrImm w → Nat
  | .imm n => n.toNat
  | .reg r => (g.r r).toNat

/-- LOOP (R314): the count comes from COUNT or from rs[15:0]. -/
def State.iLoop (s : State) (e : Engine) (count : RegOrImm 12) (len : BitVec 10) : State :=
  s.issueBy e false fun g t =>
    let c := g.val count % 65536
    t.retire e (if c == 0 then { g with pc := g.pc + 1 + len.toNat }
      else { g with pc := g.pc + 1, loop := some ⟨c, g.pc + 1, g.pc + len.toNat⟩ })

/-- BR. -/
def State.iBr (s : State) (e : Engine) (cond : BrCond) (rs : GReg) (target : BitVec 12) : State :=
  s.issueBy e false fun g t =>
    let taken := match cond with
      | .always => true
      | .zero => g.r rs == 0
      | .nonzero => g.r rs != 0
    t.retire e (if taken then g.jump target.toNat else g.onward)

/-- BRS: the test of LS. -/
def State.iBrs (s : State) (e : Engine) (neg cls : Bool) (status : BitVec 8) (target : BitVec 12) : State :=
  s.issueBy e false fun g t =>
    let same := if cls then g.ls.toNat / 16 == status.toNat / 16 else g.ls == status
    t.retire e (if same != neg then g.jump target.toNat else g.onward)

/-- CALL. -/
def State.iCall (s : State) (e : Engine) (target : BitVec 12) : State :=
  s.issueBy e false fun g t =>
    if 4 ≤ g.stack.length then t.halt e { g with issued := up32 g.issued 1 } 1
    else t.retire e { g with stack := (g.pc + 1, g.loop) :: g.stack, loop := none, pc := target.toNat }

/-- RET. -/
def State.iRet (s : State) (e : Engine) : State :=
  s.issueBy e false fun g t =>
    match g.stack with
    | [] => t.halt e { g with issued := up32 g.issued 1 } 2
    | (pc, l) :: rest => t.retire e { g with stack := rest, loop := l, pc := pc }

/-- A wait with its target (R313): it has issued, and the engine does not advance until the target comes (R310; DEDUCED, log
129). -/
def State.waitTo (s : State) (e : Engine) (target : EngSt → Nat → Nat) : State :=
  s.issueBy e true fun g t =>
    t.setEng e { g with issued := up32 g.issued 1, state := .running, waiting := true,
                        next := target g t.bar.beatno % Config.beatWrap }

/-- WAITB; with N = 0 it acts as NOP (R313). -/
def State.iWaitb (s : State) (e : Engine) (n : RegOrImm 20) : State :=
  if (s.eng e).val n == 0 then s.iNop e else s.waitTo e fun g b => b + 1 + g.val n

/-- The first Beat after b with BEATNO[9:0] = U, or with BEATNO[9:0] mod U = 0 (Table 12.2). -/
def nextU (mod : Bool) (u b : Nat) : Nat :=
  let ix := (b + 1) % 1024
  if mod then
    let m := ceilDiv ix u * u
    if m < 1024 then b + 1 + (m - ix) else b + 1 + (1024 - ix)
  else b + 1 + (u + 1024 - ix) % 1024

/-- WAITU. -/
def State.iWaitu (s : State) (e : Engine) (mod : Bool) (u : BitVec 10) : State :=
  s.waitTo e fun _ b => nextU mod u.toNat b
/-- WAITBAR. -/
def State.iWaitbar (s : State) (e : Engine) (n : BitVec 16) : State :=
  s.waitTo e fun _ b => (b / 1024 + n.toNat) * 1024
/-- DEADLINE. -/
def State.iDeadline (s : State) (e : Engine) (m : DlMode) : State :=
  s.plain e fun g =>
    { g with dl := match m with
      | .imm n => some ((s.bar.beatno + n.toNat) % Config.beatWrap)
      | .reg r => some ((s.bar.beatno + (g.r r).toNat) % Config.beatWrap)
      | .clear => none }
/-- POLICY. -/
def State.iPolicy (s : State) (e : Engine) (full : Bool) (pol : Policy) : State :=
  s.plain e fun g => { g with full := full, pol := pol }

/-! ### FETCH, PIN, UNPIN, HINT_EVICT (R315 to R317) -/

/-- LS after an instruction, which then goes on. -/
def State.setLs (s : State) (e : Engine) (g : EngSt) (ls : Nat) : State :=
  s.retire e { g.onward with ls := BitVec.ofNat 8 ls }

/-- The checks of R316 on a page range: LS when one fails. -/
def State.rangeBad (s : State) (k : Kit) (ra : Word) (count : Nat) (shared : Bool) : Option Nat :=
  let base := ra.toNat
  if 2 ^ 23 ≤ base || 2 ^ 23 < base + count then some 0x31
  else
    let as := (List.range count).map fun i => (base + i) * 65536
    if as.any fun a => (s.windowAt k a).isNone then some 0x22
    else if as.any (fun a => match s.windowAt k a with
        | some w => !w.rd || (!shared && w.srcKit.isSome)
        | none => false) then some 0x20
    else none

/-- The pages of an engine's range. -/
def rangePages (ra : Word) (count : Nat) : List KPage := (List.range count).map fun i => BitVec.ofNat 23 (ra.toNat + i)

/-- Whether a FETCH would back a page in Deep while Deep is Muted (10 R274). -/
def State.fetchMuted (s : State) (k : Kit) (ps : List KPage) : Bool :=
  s.deep.muted && ps.any fun kp => (s.findPage k kp).isNone &&
    !(s.autoAt k kp && s.tier.newhome && (s.homeChoice k).isSome)

/-- Start or go on with the fetch of one page: promotion into Residency, or fill into Near (R316). -/
def State.fetchGo (s : State) (k : Kit) (near : Bool) (tag : Engine × Option Nat) (kp : KPage) : State :=
  let o := s.ownerPage k kp
  if near then s.bringNear o.1 o.2 (some tag)
  else match s.findPage o.1 o.2 with
    | some p => if p.deepPage.isSome && p.slot.isNone then s.startPromote o.1 o.2 false (some tag) else s
    | none => s

/-- Fetch of one page: backed, then brought in (R316, R232). -/
def State.fetchOne (k : Kit) (near : Bool) (tag : Engine × Option Nat) (kp : KPage) (s : State) : Option State :=
  (s.backPage k kp).map fun t => t.fetchGo k near tag kp

/-- The deadline of an instruction with its DL bit (R322). -/
def EngSt.deadlineFor (g : EngSt) (dl : Bool) : Option Nat := if dl then g.dl else none

/-- FETCH (R316). It holds while eight are outstanding (R310). -/
def State.iFetch (s : State) (e : Engine) (ra : GReg) (tgt : Tgt) (count1 : BitVec 4) (dl : Bool) : State :=
  s.issueBy e false fun g t =>
    let n := count1.toNat + 1
    if 8 ≤ g.fetches.length then t
    else match t.rangeBad g.kit (g.r ra) n false with
      | some ls => t.setLs e g ls
      | none =>
        let ps := rangePages (g.r ra) n
        if t.fetchMuted g.kit ps then t.setLs e g 0x20
        else
          let near := tgt == .near
          let d := g.deadlineFor dl
          let r := t.eachPage (State.fetchOne g.kit near (e, d)) ps 0
          let left := (ps.take r.1).filter fun kp => !r.2.2.fetchDone g.kit near kp
          let f : FetchSt := ⟨left, near, d⟩
          r.2.2.setLs e { g with fetches := if left.isEmpty then g.fetches else g.fetches ++ [f] }
            (if r.2.1 then 0x00 else 0x04)

/-- TGT of PIN as the ARG of the opcode. -/
def tgtArg : Tgt → Nat | .near => 1 | .main => 2
/-- TGT of UNPIN and HINT_EVICT as an ARG. -/
def tgt3Arg : Tgt3 → Nat | .near => 1 | .main => 2 | .both => 3

/-- Rudiment PIN (R316). -/
def State.iPin (s : State) (e : Engine) (ra : GReg) (tgt : Tgt) (count1 : BitVec 4) : State :=
  s.issueBy e false fun g t =>
    let n := count1.toNat + 1
    match t.rangeBad g.kit (g.r ra) n false with
    | some ls => t.setLs e g ls
    | none =>
      let r := t.eachPage (State.pinOne g.kit (tgtArg tgt)) (rangePages (g.r ra) n) 0
      r.2.2.setLs e g (if r.2.1 then 0x00 else 0x04)

/-- Rudiment UNPIN (R316). -/
def State.iUnpin (s : State) (e : Engine) (ra : GReg) (tgt : Tgt3) (count1 : BitVec 4) : State :=
  s.issueBy e false fun g t =>
    let n := count1.toNat + 1
    match t.rangeBad g.kit (g.r ra) n false with
    | some ls => t.setLs e g ls
    | none => (forEach (State.unpinOne g.kit (tgt3Arg tgt)) (rangePages (g.r ra) n) t).setLs e g 0x00

/-- An age stamp older than every other: half the count behind now, as R41 compares (R316). -/
def State.oldest (s : State) : Nat := (s.bar.beatno + 2 ^ 47 + 1) % Config.beatWrap

/-- A page's unpinned, unbusy block stamps and slot stamp become the oldest (R316). -/
def State.hintOne (k : Kit) (arg : Nat) (kp : KPage) (s : State) : State :=
  let near := arg != 2 && !s.nearPinned k kp && !s.moving k kp
  let s1 := if near then
      { s with near := updWhere (fun b => b.kit == k && b.kp == kp) (fun b => { b with age := s.oldest }) s.near } else s
  if arg == 1 || s.moving k kp || s.busyPage k kp then s1
  else s1.updPage k kp fun p => if p.mainPin || p.impliedPin then p else { p with age := s.oldest }

/-- HINT_EVICT (R316). -/
def State.iHint (s : State) (e : Engine) (ra : GReg) (tgt : Tgt3) (count1 : BitVec 4) : State :=
  s.issueBy e false fun g t =>
    let n := count1.toNat + 1
    match t.rangeBad g.kit (g.r ra) n false with
    | some ls => t.setLs e g ls
    | none => (forEach (State.hintOne g.kit (tgt3Arg tgt)) (rangePages (g.r ra) n) t).setLs e g 0x00

/-- SIGNAL (R321). -/
def State.iSignal (s : State) (e : Engine) (node : Node) (ring : Ring) (rs : GReg) (code : BitVec 8) : State :=
  s.issueBy e false fun g t =>
    let notify := (t.kit g.kit).notify
    let arg := e.val + 65536 * (g.r rs).toNat
    if node == 0x1F then
      if notify == 0x1F || !(t.ring ring).rosterIds.contains notify then t.setLs e g 0x31
      else if (t.kit g.kit).suspended then t.setLs e g 0x00
      else
        (t.setLs e g 0x00).sendDev
          (eventPkt (BitVec.ofNat 4 g.kit.val) ring notify (0x0200 + code.toNat) arg [] t.bar.beatno)
    else if !(t.ring ring).rosterIds.contains node then t.setLs e g 0x31
    else
      (t.setLs e g 0x00).sendDev
        (eventPkt (BitVec.ofNat 4 g.kit.val) ring node (0x0200 + code.toNat) arg [] t.bar.beatno)

/-- FETCH_PAGE_COMPLETE (R317): a page of the engine's FETCHes that is complete leaves them. -/
def State.fetchComplete (s : State) (e : Engine) (kp : KPage) : State :=
  let g := s.eng e
  let fs := g.fetches.map fun f =>
    if f.pages.contains kp && s.fetchDone g.kit f.near kp then { f with pages := f.pages.filter fun x => x != kp } else f
  s.setEng e { g with fetches := fs.filter fun f => !f.pages.isEmpty }

/-- FETCHes that could not begin go on (R310, R316). -/
def State.fetchesGoOn (s : State) : State :=
  forEach (fun (e : Engine) (t : State) =>
    forEach (fun (f : FetchSt) (t : State) =>
      forEach (fun (kp : KPage) (t : State) =>
        if t.fetchDone (t.eng e).kit f.near kp then t else t.fetchGo (t.eng e).kit f.near (e, f.dl) kp) f.pages t)
      (t.eng e).fetches t) allEngines s

/-! ### STREAM (R318, R319, R322, R326) -/

/-- The kit page of a position. -/
def StreamSt.page (st : StreamSt) (p : Nat) : KPage := BitVec.ofNat 23 (st.kp + p)

/-- The positions of a STREAM. -/
def StreamSt.positions (st : StreamSt) : List Nat := List.range st.count

/-- The Muffle that may be pushed for a page: stored, not bad, and, where declared, readable by the Kit (R322, R326). -/
def State.usableMuffle (s : State) (k : Kit) (kp : KPage) : Option Muffle :=
  match s.muffleOf k kp with
  | none => none
  | some m =>
    if !m.stored || m.bad then none
    else match m.form with
      | .generated _ _ => some m
      | .declared a n =>
        if (s.firstOutside s.bar.beatno k a (64 * n)).isNone && s.everyWindow s.bar.beatno k a (64 * n) (fun w => w.rd) then some m else none

/-- One PUSH packet of a STREAM: `j` within its page, `n` chords of a source (R319). -/
def StreamSt.packet (st : StreamSt) (p j n : Nat) (muffle : Bool) (status : Nat) (src : PushSrc)
    (now : Nat) : PushPkt :=
  { pos := p, part := 16 * p + j, kp := st.page p, muffle := muffle, status := BitVec.ofNat 8 status, node := st.node,
    ring := st.ring, offset := st.rb * 256 + 65536 * p + 4096 * j, data := [], need := n,
    ready := some ((now + 1) % Config.beatWrap), src := src, sid := st.sid }

/-- The sixteen packets of a full page (R319). -/
def StreamSt.fullPage (st : StreamSt) (p status now : Nat) : List PushPkt :=
  (List.range 16).map fun j =>
    st.packet p j 64 false status (.kit ((st.page p).toNat * 65536 + 4096 * j)) now

/-- The packets of a Muffle (R326). -/
def StreamSt.mufflePage (st : StreamSt) (p : Nat) (m : Muffle) (now : Nat) : List PushPkt :=
  match m.form with
  | .generated fmt base =>
    let n := muffleChords fmt
    (List.range (ceilDiv n 64)).map fun j => st.packet p j (min 64 (n - 64 * j)) true 0x02 (.muffle (base + 64 * j)) now
  | .declared a n =>
    (List.range (ceilDiv n 64)).map fun j => st.packet p j (min 64 (n - 64 * j)) true 0x02 (.kit (a + 4096 * j)) now

/-- Whether a chord that a Kit would push is poisoned. -/
def State.pushPoison (s : State) (k : Kit) (a : Nat) : Bool :=
  match s.windowAt k a with
  | none => false
  | some w =>
    let o := w.owner k a
    match s.viewConfirmed o.1 o.2 with
    | .poison => true
    | .array c _ _ => (s.decodeAt c).poisoned
    | _ => false

/-- Whether a packet carries a poisoned chord. -/
def State.pktPoison (s : State) (k : Kit) (p : PushPkt) : Bool :=
  match p.src with
  | .kit a => (List.range p.need).any fun i => s.pushPoison k (a + 64 * i)
  | .muffle c => (List.range p.need).any fun i => (s.decodeAt (c + i)).poisoned

/-- The pages of a STREAM that are not ready (R322). -/
def State.notReady (s : State) (k : Kit) (st : StreamSt) : List Nat :=
  st.positions.filter fun p => !s.pageReady k (st.page p)

/-- The packets that a judged or ready STREAM queues in place (R322, Table 12.4). -/
def State.inPlacePkts (s : State) (k : Kit) (st : StreamSt) : List PushPkt :=
  (st.positions.map fun p =>
    if !st.late.contains p then st.fullPage p 0x00 s.bar.beatno
    else match st.pol.1 with
      | .stall => st.fullPage p 0x41 s.bar.beatno
      | .muffle => match s.usableMuffle k (st.page p) with
        | some m => st.mufflePage p m s.bar.beatno
        | none => []
      | .late => []).flatten

/-- LS of a STREAM that takes effect (Table 12.4). -/
def State.streamLs (s : State) (k : Kit) (st : StreamSt) (pkts : List PushPkt) : Nat :=
  if pkts.any (s.pktPoison k) then 0x40
  else if st.late.isEmpty then 0x00
  else if st.pol.1 == .muffle && st.late.all (fun p => (s.usableMuffle k (st.page p)).isSome) then 0x02
  else 0x41

/-- LATEPAGE records of pages found late (18 Table 18.6). -/
def State.tellLate (s : State) (e : Engine) (st : StreamSt) (late : List Nat) : State :=
  let past := match st.dl with | some d => elapsed d s.bar.beatno % 2 ^ 32 | none => 0
  forEach (fun (p : Nat) (t : State) => t.tally 0x41 (some (s.eng e).kit)
    (e.val + 2 ^ 8 * polCode st.pol.1 + 2 ^ 16 * p + 2 ^ 32 * past)) late s

/-- The late pages of a STREAM are judged: counted, and a RUD_LATE for each that has no stand-in (R322, R323). -/
def State.judge (s : State) (e : Engine) (st : StreamSt) : State × StreamSt :=
  let g := s.eng e
  let late := s.notReady g.kit st
  let s1 := (s.tellLate e st late).setEng e { g with late := up32 g.late late.length }
  let told := late.filter fun p => st.pol.1 == .late ||
    (st.pol.1 == .muffle && (s.usableMuffle g.kit (st.page p)).isNone)
  let s2 := forEach (fun (p : Nat) (t : State) =>
    t.sendDev (eventPkt (BitVec.ofNat 4 g.kit.val) st.ring st.node 0x0301
      (e.val + 256 * p + 65536 * (st.dl.getD 0 % 2 ^ 32)) [] t.bar.beatno)) told s1
  (s2, { st with judged := true, late := late })

/-- Replace the STREAM that an engine is issuing. -/
def EngSt.setStream (g : EngSt) (st : StreamSt) : EngSt :=
  { g with streams := (g.streams.filter fun x => x.done) ++ [st] }

/-- The STREAM that an engine is issuing. -/
def EngSt.issuing (g : EngSt) : Option StreamSt := g.streams.find? fun x => !x.done

/-- Whether a STREAM can take effect: every page ready where its policy asks for it, and FIFO room (R318, Table 12.4). -/
def State.streamGoes (s : State) (e : Engine) (st : StreamSt) (pkts : List PushPkt) : Bool :=
  (st.judged && st.pol.1 != .stall || (s.notReady (s.eng e).kit st).isEmpty)
    && (s.eng e).fifo.length + pkts.length ≤ Config.pushFifo

/-- A STREAM takes effect if it can: its packets are queued, LS is set, the engine goes on (R318). -/
def State.tryStream (s : State) (e : Engine) (st : StreamSt) : State :=
  let g := s.eng e
  let pkts := s.inPlacePkts g.kit st
  if !s.streamGoes e st pkts then s.setEng e (g.setStream st)
  else
    let muffled := (pkts.filter fun p => p.muffle && p.part % 16 == 0).length
    let st1 := { st with done := true, follow := if st.pol.2 && st.pol.1 != .stall then st.late else [] }
    let keep := st.dl.isSome || !st1.follow.isEmpty
    let g1 := { g with fifo := g.fifo ++ pkts, muffled := up32 g.muffled muffled,
                       streams := (g.streams.filter fun x => x.done) ++ (if keep then [st1] else []),
                       next := (s.bar.beatno + 1) % Config.beatWrap }
    let ls := s.streamLs g.kit st pkts
    (s.tally 0x40 (some g.kit) (e.val + 2 ^ 8 * ls + 2 ^ 16 * g.pc + 2 ^ 32 * (st.dl.getD 0 % 2 ^ 32))).setLs e g1 ls

/-- The FETCHes that a STREAM starts for its pages, while there is room for them (R318). -/
def State.streamFetches (s : State) (e : Engine) (st : StreamSt) : State :=
  forEach (fun (p : Nat) (t : State) =>
    let g := t.eng e
    if g.fetches.length < 8 && t.mustFetch g.kit (st.page p)
        && !(g.fetches.any fun f => f.pages.contains (st.page p)) then
      let f : FetchSt := ⟨[st.page p], false, st.dl⟩
      (t.setEng e { g with fetches := g.fetches ++ [f] }).fetchGo g.kit false (e, st.dl) (st.page p)
    else t) st.positions s

/-- The checks of a STREAM (R318): LS when one fails. -/
def State.streamBad (s : State) (k : Kit) (ra rb : Word) (node : Node) (ring : Ring) (count : Nat) : Option Nat :=
  match s.rangeBad k ra count true with
  | some ls => some ls
  | none =>
    if 29 < node.toNat || !(s.ring ring).joined || !(s.ring ring).rosterIds.contains node
        || 2 ^ 40 < rb.toNat * 256 + count * 65536 then some 0x31 else none

/-- STREAM (R318, R322): begun at its first issue Beat, then tried until it takes effect. -/
def State.iStream (s : State) (e : Engine) (ra rb : GReg) (node : Node) (ring : Ring) (count1 : BitVec 4) (dl : Bool) :
    State :=
  s.issueBy e false fun g t =>
    match g.issuing with
    | some st => (t.streamFetches e st).tryStream e st
    | none =>
      let n := count1.toNat + 1
      match t.streamBad g.kit (g.r ra) (g.r rb) node ring n with
      | some ls => t.setLs e g ls
      | none =>
        let st : StreamSt :=
          { kp := (g.r ra).toNat, count := n, rb := (g.r rb).toNat, node := node, ring := ring, dl := g.deadlineFor dl,
            pol := (g.pol, g.full), done := false, judged := false, late := [], follow := [],
            sid := t.bar.beatno, counted := false }
        let t1 := t.streamFetches e st
        let passed := match st.dl with | some d => reached d t.bar.beatno | none => false
        let r := if passed then t1.judge e st else (t1, st)
        r.1.tryStream e r.2

/-- STREAM_DEADLINE (R322): at its deadline a STREAM that has not taken effect is judged, and takes effect where its
policy lets it. -/
def State.streamDeadline (s : State) (e : Engine) : State :=
  match (s.eng e).issuing with
  | none => s
  | some st =>
    match st.dl with
    | none => s
    | some d =>
      if !s.mode.traffic || !s.calMore 4 || st.judged || !reached d s.bar.beatno then s
      else
        let r := (s.calRan 4).judge e st
        if r.2.pol.1 == .stall then r.1.setEng e ((r.1.eng e).setStream r.2) else r.1.tryStream e r.2

/-- STREAM_FULL_PAGE_READY (R322): the follow-up of a late page that is now ready joins the FIFO; a held STREAM is tried. -/
def State.fullPageReady (s : State) (e : Engine) (pos : Nat) : State :=
  let g := s.eng e
  match g.streams.find? fun st => st.done && st.follow.contains pos && s.pageReady g.kit (st.page pos)
      && g.fifo.length + 16 ≤ Config.pushFifo with
  | some st =>
    let f := fun (x : StreamSt) => { x with follow := x.follow.filter fun p => p != pos }
    s.setEng e { g with fifo := g.fifo ++ st.fullPage pos 0x41 s.bar.beatno, streams := updWhere (fun x => x == st) f g.streams }
  | none =>
    match g.issuing with
    | some st => if st.late.contains pos || !st.judged then (if s.mayIssue e then s.tryStream e st else s) else s
    | none => s

/-! ### PUSH data (R319) and stall counts (R323, R278) -/

/-- A PUSH packet reads its next chords for as long as tokens allow. -/
def State.readPush (k : Kit) : Nat → PushPkt → State → PushPkt × State
  | 0, p, s => (p, s)
  | n + 1, p, s =>
    if p.need == 0 then (p, s)
    else
      let later := some ((s.bar.beatno + 3) % Config.beatWrap)
      let put := fun (v : Option (List Byte)) =>
        { p with data := p.data ++ v.getD (zeros 64), need := p.need - 1,
                 status := if v.isNone then 0x40 else p.status }
      match p.src with
      | .muffle c0 =>
        let c := c0 + p.data.length / 64
        match s.kitToken k with
        | some t => (t.readArray 1 c).readPush k n { put (t.decodeAt c).value with ready := later }
        | none => (p, s)
      | .kit a0 =>
        let a := a0 + p.data.length
        match s.windowAt k a with
        | none => s.readPush k n (put (some (zeros 64)))
        | some w =>
          let o := w.owner k a
          match s.viewConfirmed o.1 o.2 with
          | .val d => s.readPush k n (put (some d))
          | .poison => s.readPush k n (put none)
          | .array c _ _ =>
            match s.kitToken k with
            | some t => (t.readArray 1 c).readPush k n { put (t.decodeOf o.1 o.2 c).value with ready := later }
            | none => (p, s)
          | .absent => (p, s.startPromote o.1 (kpOf o.2) false none)
          | .wait => (p, s)

/-- The packets of a FIFO read on, in order. -/
def State.readFifo (k : Kit) : List PushPkt → State → List PushPkt × State
  | [], s => ([], s)
  | p :: ps, s =>
    let r := s.readPush k 64 p
    let q := r.2.readFifo k ps
    (r.1 :: q.1, q.2)

/-- PUSH packets of every engine read on for this Beat (R319, R309). -/
def State.pushesGoOn (s : State) : State :=
  forEach (fun (e : Engine) (t : State) =>
    let r := t.readFifo (t.eng e).kit (t.eng e).fifo
    r.2.setEng e { r.2.eng e with fifo := r.1 }) allEngines s

/-- The cause of R278 that a late page's Beat is counted in: 0 Deep busy, 1 Deep retry, 2 ledger. -/
def State.delayCause (s : State) (k : Kit) (kp : KPage) : Nat :=
  let o := s.ownerPage k kp
  match s.inbound o.1 o.2 with
  | some m => if m.reads == 0 then 2 else if m.retries != 0 then 1 else 0
  | none => 0

/-- The cause of this Beat for a deadline-bound STREAM past its deadline, none when its counting ends (R323). -/
def State.streamCause (s : State) (e : Engine) (st : StreamSt) : Option Nat :=
  let g := s.eng e
  match st.late.find? fun p => !s.pageReady g.kit (st.page p) with
  | some p => some (s.delayCause g.kit (st.page p))
  | none =>
    if !st.done || s.devq.any (fun q => q.engine == some e && q.sid == st.sid && q.waiting && q.tries != 0) then some 3
    else none

/-- Whether a STREAM's Beat is counted, from its deadline on until its counting has ended (R323). -/
def StreamSt.due (st : StreamSt) (now : Nat) : Bool :=
  (st.judged || st.done) && !st.counted && match st.dl with | some d => reached d now | none => false

/-- An engine's Beat is counted once, in the first cause that applies to its STREAMs; counting ends at the first Beat with
none, and STREAMs that are over are dropped (R323). -/
def State.countStalls (s : State) : State :=
  forEach (fun (e : Engine) (t : State) =>
    let g := t.eng e
    let now := t.bar.beatno
    let causes := (g.streams.filter fun st => st.due now).filterMap (t.streamCause e)
    let g1 := match (causes.find? fun c => c != 3).or causes.head? with
      | some c => { g with stall := g.stall.set! c (up32 (g.stall.toList.getD c 0) 1) }
      | none => g
    let ends := fun (st : StreamSt) => { st with counted := st.counted || st.due now && (t.streamCause e st).isNone }
    let keep := fun (st : StreamSt) => !st.done || !st.follow.isEmpty || (st.dl.isSome && !st.counted)
    t.setEng e { g1 with streams := (g1.streams.map ends).filter keep }) allEngines s

/-! ### RUDIMENT_ISSUE (R308) -/

/-- One instruction of an engine, by its form. -/
def State.issue (s : State) (e : Engine) : RudInstr → State
  | .halt => s.iHalt e
  | .nop => s.iNop e
  | .seti rd hi imm => s.iSeti e rd hi imm
  | .addi rd rs imm => s.iAddi e rd rs imm
  | .mov rd rs => s.iMov e rd rs
  | .loop c len => s.iLoop e c len
  | .br c rs t => s.iBr e c rs t
  | .brs n c st t => s.iBrs e n c st t
  | .call t => s.iCall e t
  | .ret => s.iRet e
  | .waitb n => s.iWaitb e n
  | .waitu m u => s.iWaitu e m u
  | .waitbar n => s.iWaitbar e n
  | .fetch ra t c dl => s.iFetch e ra t c dl
  | .stream ra rb n r c dl => s.iStream e ra rb n r c dl
  | .pin ra t c => s.iPin e ra t c
  | .unpin ra t c => s.iUnpin e ra t c
  | .hintEvict ra t c => s.iHint e ra t c
  | .deadline m => s.iDeadline e m
  | .policy f p => s.iPolicy e f p
  | .signal n r rs c => s.iSignal e n r rs c

/-- The instruction at an engine's PC issues (R308); at the end of the program the engine halts (R311). -/
def State.issueAt (e : Engine) (s0 : State) : State :=
  let s := s0.waitDone e
  if !s.mayIssue e then s
  else match s.program e with
    | none => s
    | some p =>
      match p[(s.eng e).pc]? with
      | none => s.halt e (s.eng e) 3
      | some w =>
        match Rud.decode w with
        | some i => s.issue e i
        | none => s

/-- RUDIMENT_ISSUE: the engines in ascending order (R308). -/
def State.issueAll (s : State) : State := forEach State.issueAt allEngines s

/-! ### The rows -/

/-- RUD_LOAD with OP = STAGE (R181). -/
def execRudLoadStage (rq : Req) (s : State) : Host.Outcome State Fault Refusal :=
  runReq (Instr.rudLoadStage rq).wf rq s fun j t => t.rudStage j

/-- RUD_LOAD with OP = LOAD (R182). -/
def execRudLoadLoad (rq : Req) (s : State) : Host.Outcome State Fault Refusal :=
  runReq (Instr.rudLoadLoad rq).wf rq s fun j t => t.rudLoad j

/-- RUD_START (R183). -/
def execRudStart (rq : Req) (s : State) : Host.Outcome State Fault Refusal :=
  runReq (Instr.rudStart rq).wf rq s fun j t => t.rudStart j

/-- RUD_STOP (R184). -/
def execRudStop (rq : Req) (s : State) : Host.Outcome State Fault Refusal :=
  runReq (Instr.rudStop rq).wf rq s fun j t => t.rudStop j

/-- RUD_QUERY (R185). -/
def execRudQuery (rq : Req) (s : State) : Host.Outcome State Fault Refusal :=
  runReq (Instr.rudQuery rq).wf rq s fun j t => t.rudQuery j

/-- HALT (R311). -/
def execRudHalt (e : Engine) (s : State) : Host.Outcome State Fault Refusal := .next (s.iHalt e)
/-- NOP (R312). -/
def execRudNop (e : Engine) (s : State) : Host.Outcome State Fault Refusal := .next (s.iNop e)
/-- SETI (R312). -/
def execSeti (e : Engine) (rd : GReg) (hi : Bool) (imm : BitVec 16) (s : State) : Host.Outcome State Fault Refusal :=
  .next (s.iSeti e rd hi imm)
/-- ADDI (R312). -/
def execAddi (e : Engine) (rd rs : GReg) (imm : BitVec 16) (s : State) : Host.Outcome State Fault Refusal :=
  .next (s.iAddi e rd rs imm)
/-- MOV (R312). -/
def execMov (e : Engine) (rd rs : GReg) (s : State) : Host.Outcome State Fault Refusal := .next (s.iMov e rd rs)
/-- LOOP (R312, R314). -/
def execLoop (e : Engine) (count : RegOrImm 12) (len : BitVec 10) (s : State) : Host.Outcome State Fault Refusal :=
  if (Instr.loop e count len).wf then .next (s.iLoop e count len) else .fault .illFormed
/-- BR (R312). -/
def execBr (e : Engine) (cond : BrCond) (rs : GReg) (target : BitVec 12) (s : State) :
    Host.Outcome State Fault Refusal :=
  if (Instr.br e cond rs target).wf then .next (s.iBr e cond rs target) else .fault .illFormed
/-- BRS (R312). -/
def execBrs (e : Engine) (neg cls : Bool) (status : BitVec 8) (target : BitVec 12) (s : State) :
    Host.Outcome State Fault Refusal := .next (s.iBrs e neg cls status target)
/-- CALL (R312). -/
def execCall (e : Engine) (target : BitVec 12) (s : State) : Host.Outcome State Fault Refusal := .next (s.iCall e target)
/-- RET (R312). -/
def execRet (e : Engine) (s : State) : Host.Outcome State Fault Refusal := .next (s.iRet e)
/-- WAITB (R313). -/
def execWaitb (e : Engine) (n : RegOrImm 20) (s : State) : Host.Outcome State Fault Refusal := .next (s.iWaitb e n)
/-- WAITU (R313). -/
def execWaitu (e : Engine) (mod : Bool) (u : BitVec 10) (s : State) : Host.Outcome State Fault Refusal :=
  if (Instr.waitu e mod u).wf then .next (s.iWaitu e mod u) else .fault .illFormed
/-- WAITBAR (R313). -/
def execWaitbar (e : Engine) (n : BitVec 16) (s : State) : Host.Outcome State Fault Refusal :=
  if (Instr.waitbar e n).wf then .next (s.iWaitbar e n) else .fault .illFormed
/-- FETCH (R316). -/
def execFetch (e : Engine) (ra : GReg) (tgt : Tgt) (count1 : BitVec 4) (dl : Bool) (s : State) :
    Host.Outcome State Fault Refusal := .next (s.iFetch e ra tgt count1 dl)
/-- STREAM (R318). -/
def execStream (e : Engine) (ra rb : GReg) (node : Node) (ring : Ring) (count1 : BitVec 4) (dl : Bool) (s : State) :
    Host.Outcome State Fault Refusal := .next (s.iStream e ra rb node ring count1 dl)
/-- PIN of a Rudiment (R316). -/
def execRudPin (e : Engine) (ra : GReg) (tgt : Tgt) (count1 : BitVec 4) (s : State) : Host.Outcome State Fault Refusal :=
  .next (s.iPin e ra tgt count1)
/-- UNPIN of a Rudiment (R316). -/
def execRudUnpin (e : Engine) (ra : GReg) (tgt : Tgt3) (count1 : BitVec 4) (s : State) :
    Host.Outcome State Fault Refusal := .next (s.iUnpin e ra tgt count1)
/-- HINT_EVICT (R316). -/
def execHintEvict (e : Engine) (ra : GReg) (tgt : Tgt3) (count1 : BitVec 4) (s : State) :
    Host.Outcome State Fault Refusal := .next (s.iHint e ra tgt count1)
/-- DEADLINE (R312). -/
def execDeadline (e : Engine) (m : DlMode) (s : State) : Host.Outcome State Fault Refusal := .next (s.iDeadline e m)
/-- POLICY (R312). -/
def execPolicy (e : Engine) (full : Bool) (pol : Policy) (s : State) : Host.Outcome State Fault Refusal :=
  .next (s.iPolicy e full pol)
/-- SIGNAL (R321). -/
def execSignal (e : Engine) (node : Node) (ring : Ring) (rs : GReg) (code : BitVec 8) (s : State) :
    Host.Outcome State Fault Refusal := .next (s.iSignal e node ring rs code)

/-- FETCH_PAGE_COMPLETE (R317). -/
def execFetchPageComplete (e : Engine) (kp : KPage) (s : State) : Host.Outcome State Fault Refusal :=
  .next (s.fetchComplete e kp)
/-- STREAM_DEADLINE (R322). -/
def execStreamDeadline (e : Engine) (s : State) : Host.Outcome State Fault Refusal := .next (s.streamDeadline e)
/-- STREAM_FULL_PAGE_READY (R322). -/
def execStreamFullPageReady (e : Engine) (pos : BitVec 4) (s : State) : Host.Outcome State Fault Refusal :=
  .next (s.fullPageReady e pos.toNat)
/-- RUDIMENT_ISSUE (R308). -/
def execRudimentIssue (s : State) : Host.Outcome State Fault Refusal := .next s.issueAll

end Sys2Proof.Machine
end

