-- ==== Sys2Proof/Machine/Lanes.lean ====
section
/-! DEFINITION. The lanes of a ring interface: the slot pattern (05 R112), what stands on the Out lanes (04 R88, R89), the
attribution of errors (R95), spare lanes (R96 to R98). -/

namespace Sys2Proof.Machine

/-! ### The slot pattern (Table 5.1) -/

/-- Whether a slot is reply-only (Table 5.1). -/
def replyOnly (slot : Nat) : Bool := slot % 8 == 2 || slot % 8 == 4

/-- The reply-only position of a slot (Table 5.5, SLOTMAP). -/
def posOf (slot : Nat) : Option Nat :=
  if slot % 8 == 2 then some (2 * (slot / 8)) else if slot % 8 == 4 then some (2 * (slot / 8) + 1) else none

/-- A blank slot (R89). -/
def blankSlot : Flit :=
  { blank := true, cls := 0, ronly := false, first := false, retry := false, lap := false, refused := false, src := 0,
    stream := 0, content := zeros 60, crc := 0 }

/-! ### The Out lanes (R88, R89) -/

/-- What an Out lane, 16 and 17 the spares, carries in UI `u` of a slot that holds a flit, or is blank: a spare that mirrors
no data lane carries PRBS15. -/
def RingSt.laneBit (x : RingSt) (f : Flit) (slot lane u : Nat) : Bool :=
  if f.blank then prbsBit lane slot u
  else if lane < 16 then flitBit f lane u
  else
    let sp := if lane == 16 then x.tx[0] else x.tx[1]
    match sp.lane with
    | some l => if sp.active then flitBit f l.toNat u else prbsBit lane slot u
    | none => prbsBit lane slot u

/-- The 32 UI of an Out lane in the slot last transmitted; nothing is driven while the switch is closed (R91). -/
def RingSt.outLane (x : RingSt) (slot lane : Nat) : Option (List Bool) :=
  if x.swOpen then x.lastTx.map fun f => (List.range 32).map fun u => x.laneBit f slot lane u else none

/-! ### Spare lanes of the In side (R96, R97) -/

/-- A data lane as a mask. -/
def laneMask (l : BitVec 4) : BitVec 16 := BitVec.ofNat 16 (2 ^ l.toNat)

/-- Data lanes of a mask. -/
def laneList (m : BitVec 16) : List (BitVec 4) := ((List.range 16).filter fun i => m.getLsbD i).map (BitVec.ofNat 4)

/-- A spare of a side. -/
def spareOf (v : Vector Spare 2) (second : Bool) : Spare := if second then v[1] else v[0]

/-- Set a spare of a side. -/
def setSpare (v : Vector Spare 2) (second : Bool) (x : Spare) : Vector Spare 2 := if second then v.set 1 x else v.set 0 x

/-- The spare in use for a data lane of the In side. -/
def RingSt.spareFor (x : RingSt) (lane : BitVec 4) : Option Bool :=
  [false, true].find? fun sp => (spareOf x.rx sp).active && (spareOf x.rx sp).lane == some lane

/-- Whether a data lane of the In side has a spare in use. -/
def RingSt.mapped (x : RingSt) (lane : BitVec 4) : Bool := (x.spareFor lane).isSome

/-- The lowest free spare for a lane: not in use, not being compared, not failed for this lane, and its loopback passed
(R96, R99). -/
def RingSt.freeSpare (x : RingSt) (tried : BitVec 2) : Option Bool :=
  [false, true].find? fun sp =>
    !(spareOf x.rx sp).active && !(x.remaps.any fun m => m.spare == sp) && !tried.getLsbD (b2n sp)
      && !x.loopBad.getLsbD (16 + b2n sp)

/-- Ask the upstream node to mirror a lane onto the lowest free spare (R96). With none left the lane waits while another
comparison runs, else NOSPARE reports it (R97). -/
def State.startRemap (s : State) (r : Ring) (lane : BitVec 4) (tried : BitVec 2) : State :=
  let x := s.ring r
  match x.freeSpare tried with
  | some sp =>
    let m : MailReq := .lane lane sp true
    s.setRing r { x with remaps := x.remaps ++ [⟨lane, sp, s.bar.beatno, tried⟩],
                         mail := x.mail ++ [(m, s.bar.beatno)], mailOut := x.mailOut ++ [m] }
  | none =>
    if tried == 0 && !x.remaps.isEmpty then s
    else (s.setRing r { x with gaveUp := x.gaveUp ||| laneMask lane }).raise (.lnk r) 0x04

/-- Lanes for which a spare is wanted: bad ones where AUTOREMAP asks (R96), and those that the repair map records as bad
(R98). -/
def RingSt.wanted (x : RingSt) : List (BitVec 4) :=
  (laneList (((if x.autoremap then x.bad else 0) ||| x.badKept) &&& ~~~ x.gaveUp)).filter fun l =>
    !x.mapped l && !(x.remaps.any fun m => m.lane == l)

/-- Mirrors are asked for on a joined ring, one for each lane that wants a spare. -/
def State.askMirrors (s : State) (r : Ring) : State :=
  if (s.ring r).joined then forEach (fun (l : BitVec 4) (t : State) => t.startRemap r l 0) (s.ring r).wanted s else s

/-- A data lane is bad (R95): the third of a side sets NOSPARE (R97). -/
def State.laneBad (s : State) (r : Ring) (lane : BitVec 4) : State :=
  let x := s.ring r
  if x.bad.getLsbD lane.toNat then s
  else
    let s1 := s.setRing r { x with bad := x.bad ||| laneMask lane }
    (if 2 ≤ (laneList x.bad).length then s1.raise (.lnk r) 0x04 else s1).askMirrors r

/-- Every lane of a mask is bad. -/
def State.lanesBad (s : State) (r : Ring) (m : BitVec 16) : State :=
  forEach (fun (l : BitVec 4) (t : State) => t.laneBad r l) (laneList m) s

/-! ### Attribution (R95) -/

/-- What a failed copy would have been: the flit as its good copy gives it, RETRY clear in the original and set in a copy,
RONLY as its slot, CRC fresh (Table 5.2). -/
def BadCopy.meant (c : BadCopy) (original : Bool) (good : Flit) : Flit :=
  withCrc { good with retry := !original, ronly := replyOnly c.slot }

/-- Bits of a lane, over the 32 UI of a slot, in which two flits differ (R88). -/
def laneErrors (a b : Flit) (lane : Nat) : Nat :=
  ((List.range 32).filter fun u => flitBit a lane u != flitBit b lane u).length

/-- Errors attributed to a data lane count at the lane that carried it, a spare in its place included (DEDUCED, log 114); 8 in
a Bar make a data lane bad (R95). -/
def State.laneCount (s : State) (r : Ring) (lane : BitVec 4) (n : Nat) : State :=
  let x := s.ring r
  let k : Fin 18 := match x.spareFor lane with
    | some sp => if sp then 17 else 16
    | none => ⟨lane.toNat, Nat.lt_trans lane.isLt (by decide)⟩
  let bar := x.lerrBar[k] + n
  let s1 := s.setRing r { x with lerr := x.lerr.set k (up16 x.lerr[k] n), lerrBar := x.lerrBar.set k bar }
  if 8 ≤ bar && k.val < 16 then s1.laneBad r lane else s1

/-- The differing bits of one failed copy and its good copy are attributed to their lanes. -/
def State.attributeOne (s : State) (r : Ring) (meant got : Flit) : State :=
  forEach (fun (l : Fin 16) (t : State) =>
    let n := laneErrors meant got l.val
    if n == 0 then t else t.laneCount r (BitVec.ofNat 4 l.val) n) (List.finRange 16) s

/-- Every failed copy of a flit is compared with its good copy (R95). -/
def State.attribute (s : State) (r : Ring) (failed : List BadCopy) (good : Flit) : State :=
  forEach (fun (i : Nat × BadCopy) (t : State) => t.attributeOne r (i.2.meant (i.1 == 0) good) i.2.flit)
    ((List.range failed.length).zip failed) s

end Sys2Proof.Machine
end

