-- ==== Sys2Proof/Machine/Slots.lean ====
section
/-! DEFINITION. The Out side of a ring interface (05 R112, R113, R120, R123), what the device writes into passing CTRL slots
(R124 to R126), and the slots of the ring master, which the device is as beat source (02 R35, R58).

Slots are numbered as the worked case of R136 numbers them: In-slot and Out-slot n of a ring are the same 32nd of the Beat,
and a through-flit that arrives in slot n leaves in slot n + 4. The kind and the position of an Out slot follow its number;
its RONLY bit is the one that it arrived with (DEDUCED, log 112). -/

namespace Sys2Proof.Machine

/-! ### Slots of the Out side -/

/-- What a flit leaves in its slot when it is taken, removed or held: EMPTY, RONLY kept (R113, R117, R120). -/
def vacate (f : Flit) : Flit := emptyFlit f.ronly

/-- The Out side transmits a slot; the retry buffer keeps a copy (R120). `at_` is the time, Beat × 32 + slot. -/
def RingSt.transmit (x : RingSt) (at_ : Nat) (f : Flit) : RingSt :=
  let g := if f.blank then f else withCrc f
  { x with lastTx := some g, copies := (g :: x.copies).take 16, usedAt := some (at_, f.blank || f.cls != 0) }

/-- RONLY of the Out slot: that of the EMPTY flit that stands in it, else the pattern's. -/
def RingSt.ronlyAt (x : RingSt) (at_ slot : Nat) : Bool :=
  match x.usedAt, x.lastTx with
  | some (t, _), some e => if t == at_ then e.ronly else replyOnly slot
  | _, _ => replyOnly slot

/-- Whether the Out slot is EMPTY (R113). -/
def RingSt.emptyAt (x : RingSt) (at_ : Nat) : Bool :=
  match x.usedAt with
  | some (t, used) => t != at_ || !used
  | none => true

/-- A flit of the device's own takes an EMPTY Out slot, whose RONLY stays (R113). -/
def RingSt.place (x : RingSt) (at_ slot : Nat) (f : Flit) : RingSt :=
  let rest := match x.usedAt with
    | some (t, _) => if t == at_ then x.copies.drop 1 else x.copies
    | none => x.copies
  ({ x with copies := rest }).transmit at_ { f with ronly := x.ronlyAt at_ slot }

/-- The device may inject into an Out slot: joined, the through-queue empty, no copy owed, the slot EMPTY and not slot 0
(R113, R123). -/
def RingSt.mayPlace (x : RingSt) (at_ slot : Nat) : Bool :=
  x.joined && x.swOpen && x.front.isEmpty && x.held.isEmpty && x.resend.isEmpty && x.emptyAt at_ && slot != 0

/-- Whether the class of a slot admits a REQ flit (R113). -/
def RingSt.reqSlot (x : RingSt) (at_ slot : Nat) : Bool := !replyOnly slot && !x.ronlyAt at_ slot

/-- Whether the device may put a REPLY into a slot: not slot 0, and no position that another node owns (R113, R131). -/
def RingSt.replySlot (x : RingSt) (slot : Nat) : Bool :=
  slot != 0 &&
  (match posOf slot with
   | none => true
   | some k => x.owners.getD k 0x1F == 0x1F || (x.hasId && x.owners.getD k 0x1F == x.nodeId))

/-- The header flit of a request to the device that has not been refused: it leaves the ring here (R117). -/
def RingSt.mine (x : RingSt) (f : Flit) : Bool :=
  f.cls == 1 && f.first && !f.refused && x.hasId && (reqOfBytes f.content (.ring .a) f.src).dnode.toNat == x.nodeId.toNat

/-- Whether a flit of the through-queue may leave in a slot that reaches the Out side as `e` (R113, R123, R131). -/
def RingSt.admits (x : RingSt) (slot : Nat) (e f : Flit) : Bool :=
  if f.cls == 1 then !e.ronly && !replyOnly slot else x.replySlot slot

/-- The head of the through-queue leaves in an EMPTY slot, if the slot's class admits it (R123). -/
def RingSt.sendQueue (x : RingSt) (at_ slot : Nat) (settled : Bool) (e : Flit) : RingSt :=
  match x.front, x.held with
  | f :: rest, _ =>
    if x.admits slot e f then ({ x with front := rest }).transmit at_ { f with ronly := e.ronly } else x.transmit at_ e
  | [], .go f :: rest =>
    if settled && x.admits slot e f then ({ x with held := rest }).transmit at_ { f with ronly := e.ronly }
    else x.transmit at_ e
  | [], _ => x.transmit at_ e

/-- One Out slot (R123): a copy that the downstream node has asked for, else the through-queue. A flit that a copy displaces,
and flits that reach the Out side behind one or find the slot taken, wait at the queue's head; CTRL and blank slots pass. The
slots of a ring master follow its own pattern (R112). -/
def RingSt.send (x : RingSt) (master : Bool) (at_ slot : Nat) (settled : Bool) (out : Flit) : RingSt :=
  let late := if out.blank || out.cls == 0 || out.cls == 3 then [] else [out]
  let ronly := if master then replyOnly slot else out.ronly
  if !x.emptyAt at_ then { x with front := x.front ++ late }
  else if out.blank || out.cls == 3 then x.transmit at_ out
  else
    match x.resend with
    | c :: cs => ({ x with resend := cs, front := x.front ++ late }).transmit at_ { c with retry := true, ronly := ronly }
    | [] =>
      if !master && x.front.isEmpty && out.cls != 0 then x.transmit at_ out
      else ({ x with front := x.front ++ late }).sendQueue at_ slot settled (emptyFlit ronly)

/-- Whether the device drives blank slots after opening in a Join Window (04 R103). -/
def RingSt.driving (x : RingSt) : Bool :=
  match x.window with
  | some (k, opening) => opening && 17 ≤ k && k ≤ 39
  | none => false

/-- One slot of the ring passes: `into` enters the 4-slot forwarding pipeline, and the Out side sends (R123). -/
def RingSt.shift (x : RingSt) (master blank : Bool) (at_ slot : Nat) (into : Flit) : RingSt :=
  let p := x.pipe ++ [into]
  let full := 4 < p.length
  let head := if full then p.headD into else emptyFlit (replyOnly slot)
  let out := if x.mine head then vacate head else head
  let y := { x with pipe := if full then p.drop 1 else p, settling := x.settling - 1 }
  if blank || x.driving then y.transmit at_ blankSlot else y.send master at_ slot (x.settling == 0) out

/-- A refused header goes on with REFUSED set (R129): where it stands in the pipeline, else at the end of the
through-queue. -/
def RingSt.sendOn (x : RingSt) (f : Flit) : RingSt :=
  let g := { f with refused := true }
  if x.held.isEmpty && x.pipe.contains f then { x with pipe := updWhere (fun y => y == f) (fun _ => g) x.pipe }
  else { x with pipe := updWhere (fun y => y == f) vacate x.pipe, held := x.held ++ [.go g] }

/-! ### CTRL slots (R124 to R126, Tables 5.4 to 5.6): content byte `i` is flit byte `i` + 2 -/

/-- Five bits of a number replaced. -/
def put5 (n place v : Nat) : Nat := n - (n / 2 ^ (5 * place) % 32) * 2 ^ (5 * place) + v % 32 * 2 ^ (5 * place)

/-- The node ID that the device writes into a passing ENUM, and whether it takes it from NEXTID (R126). A repeat of an ENUM
already acted on gets the same entry. -/
def RingSt.enumId (x : RingSt) (refresh : Bool) (epoch : BitVec 8) (next : Nat) : Option (Nat × Bool) :=
  if x.enumSeen && x.epoch == epoch then x.newId.map fun n => (n.toNat, n.toNat == next)
  else if x.hasId && refresh then some (x.nodeId.toNat, false)
  else if next < 30 then some (next, true)
  else none

/-- ENUM as it leaves the device: ORDER[POS], POS and NEXTID (R126). -/
def RingSt.enumOut (x : RingSt) (c : List Byte) : List Byte :=
  let pos := fieldAt c 11 1
  match x.enumId (fieldAt c 9 1 == 1) (BitVec.ofNat 8 (fieldAt c 10 1)) (fieldAt c 31 1) with
  | some (id, took) =>
    if 30 ≤ pos then c
    else c.take 11 ++ leBytes 1 (pos + 1) ++ leBytes 19 (put5 (fieldAt c 12 19) pos id)
      ++ leBytes 1 (fieldAt c 31 1 + b2n took) ++ c.drop 32
  | none => c

/-- A mailbox request as 24 bytes (Table 5.6). -/
def MailReq.bytes (m : MailReq) (self up : Node) : List Byte :=
  match m with
  | .lane l sp start => leBytes 1 1 ++ leBytes 1 self.toNat ++ leBytes 1 up.toNat ++ leBytes 1 l.toNat
      ++ leBytes 1 (b2n sp) ++ leBytes 1 (b2n start) ++ zeros 18
  | .leave => leBytes 1 2 ++ leBytes 1 self.toNat ++ leBytes 1 30 ++ zeros 21

/-- The mailbox of a CTRL slot's content. -/
def mailboxOf (c : List Byte) : List Byte := (c.drop 32).take 24

/-- A CTRL slot's content with another mailbox. -/
def withMailbox (c b : List Byte) : List Byte := c.take 32 ++ b ++ c.drop 56

/-- Whether a mailbox request is taken out here: the device's own that came round, or one addressed to it, as master to 30
(R125). -/
def RingSt.takesMail (x : RingSt) (master : Bool) (c : List Byte) : Bool :=
  x.hasId && (fieldAt c 33 1 == x.nodeId.toNat || fieldAt c 34 1 == x.nodeId.toNat || (master && fieldAt c 34 1 == 30))

/-- A request that waits goes into an empty mailbox (R125). -/
def RingSt.putMail (x : RingSt) (c : List Byte) : List Byte × RingSt :=
  match x.mailOut with
  | m :: rest =>
    if x.hasId then (withMailbox c (m.bytes x.nodeId x.upstream), { x with mailOut := rest }) else (c, x)
  | [] => (c, x)

/-- The mailbox as it leaves the device (R125). -/
def RingSt.mailbox (x : RingSt) (c : List Byte) : List Byte × RingSt :=
  if fieldAt c 32 1 == 0 then x.putMail c
  else if x.takesMail false c then (withMailbox c (zeros 24), x)
  else (c, x)

/-- A CTRL slot goes on with what the device writes into it. -/
def RingSt.ctrl (x : RingSt) (f : Flit) : Flit × RingSt :=
  let m := x.mailbox f.content
  let c := if fieldAt f.content 8 1 == 0x10 then x.enumOut m.1 else m.1
  ({ f with content := c }, m.2)

/-! ### The ring master (02 R35, R58; R112, R124, R126) -/

/-- ORDER, 30 entries of 5 bits in 19 bytes (Table 5.5). -/
def orderBytes (ids : List Node) : List Byte :=
  leBytes 19 (((List.range 30).zip ids).map fun x => x.2.toNat * 2 ^ (5 * x.1)).sum

/-- Master messages as their 24 bytes (Table 5.5). -/
def enumMsg (fresh : Bool) (epoch pos next : Nat) (order : List Node) : List Byte :=
  leBytes 1 0x10 ++ leBytes 1 (b2n (!fresh)) ++ leBytes 1 epoch ++ leBytes 1 pos ++ orderBytes order ++ leBytes 1 next
/-- ROSTER from the fields of an ENUM that has come back: EPOCH, entries, ORDER. -/
def rosterMsg (epoch count : Nat) (order : List Byte) : List Byte :=
  leBytes 1 0x11 ++ zeros 1 ++ leBytes 1 epoch ++ leBytes 1 count ++ order ++ zeros 1
/-- JOINWIN and LEAVEWIN; node 0x1F for a Join Window. -/
def windowMsg (join : Bool) (node : Node) (w : BitVec 10) (mbar : BitVec 32) : List Byte :=
  leBytes 1 (if join then 0x20 else 0x21) ++ leBytes 1 node.toNat ++ leBytes 2 w.toNat ++ leBytes 4 mbar.toNat ++ zeros 16
/-- RATECHG. -/
def rateMsg (code : Nat) (mbar : BitVec 32) : List Byte :=
  leBytes 1 0x30 ++ zeros 1 ++ leBytes 1 code ++ zeros 1 ++ leBytes 4 mbar.toNat ++ zeros 16
/-- SLOTMAP. -/
def slotMsg (owners : List Node) : List Byte :=
  leBytes 1 0x40 ++ zeros 1 ++ ((owners.map fun n => leBytes 1 n.toNat).flatten ++ zeros 8).take 8 ++ zeros 14

/-- The Beat marker, Table 2.2 (02 R35). -/
def markerBytes (ix : Nat) (mbar : BitVec 32) (rate : Nat) : List Byte :=
  leBytes 1 (if ix == 0 then 2 else 1) ++ leBytes 2 ix ++ leBytes 4 mbar.toNat ++ leBytes 1 rate

/-- A CTRL flit (Table 5.2). -/
def ctrlFlit (c : List Byte) : Flit := withCrc { emptyFlit false with cls := 3, content := c }

/-- A CTRL slot comes back to the master (R124 to R126): a returned ENUM becomes ROSTER, a returned ROSTER or SLOTMAP has
been round, and the mailbox goes on into the next CTRL slot unless its request is taken here. -/
def RingSt.ctrlBack (x : RingSt) (c : List Byte) : RingSt :=
  let back := (c.drop 8).take 24
  let msg := match x.msg with
    | some m =>
      if fieldAt m 0 1 == 0x10 && fieldAt back 0 1 == 0x10 && fieldAt m 2 1 == fieldAt back 2 1 then
        some (rosterMsg (fieldAt back 2 1) (fieldAt back 3 1) ((back.drop 4).take 19))
      else if back == m && (fieldAt m 0 1 == 0x11 || fieldAt m 0 1 == 0x40) then none
      else some m
    | none => none
  { x with msg := msg, mbox := if fieldAt c 32 1 == 0 || x.takesMail true c then [] else mailboxOf c }

/-- Whether a Beat lies in a window that the device drives as master (04 R102). -/
def RingSt.windowBeat (x : RingSt) (ix : Nat) : Bool :=
  match x.mwin with
  | some (w, b) => b == x.mbar && (ix == w.toNat || ix == w.toNat + 1)
  | none => false

/-- Whether the device as beat source drives blank slots in this Beat (R112). -/
def State.drivesBlank (s : State) (r : Ring) : Bool :=
  s.bar.beatsrc && (s.bar.retrain || (s.ring r).windowBeat (if s.mode.timed then s.beatIx else s.bar.srcBeat))

/-- One slot passes on a ring. -/
def State.passSlot (s : State) (r : Ring) (slot : Nat) (into : Flit) : State :=
  s.setRing r ((s.ring r).shift s.bar.beatsrc (s.drivesBlank r) (s.slotNow slot) slot into)

/-- The announcement of a window ends where the window begins; past its two Beats nothing is left of it (04 R102). -/
def RingSt.windowStep (x : RingSt) (ix : Nat) : RingSt :=
  match x.mwin with
  | some (w, b) =>
    if b == x.mbar && ix == w.toNat then { x with msg := none }
    else if b == x.mbar && w.toNat + 1 < ix then { x with mwin := none }
    else x
  | none => x

/-- Slot 0 of a Beat that the master emits (02 R35, R112): the marker, its message and the mailbox; blank in a window and in
the training interval of a rate change. MBAR rises at every Downbeat. -/
def RingSt.masterBeat (x : RingSt) (at_ ix rate : Nat) (training : Bool) : RingSt :=
  if !x.swOpen then x
  else if training then x.transmit at_ blankSlot
  else
    let y := ({ x with mbar := if ix == 0 then x.mbar + 1 else x.mbar }).windowStep ix
    if y.windowBeat ix then y.transmit at_ blankSlot
    else
      let c := markerBytes ix y.mbar rate ++ y.msg.getD (zeros 24) ++ (y.mbox ++ zeros 24).take 24 ++ zeros 4
      let m := if y.mbox.isEmpty then y.putMail c else (c, y)
      ({ m.2 with mbox := [] }).transmit at_ (ctrlFlit m.1)

/-- The master announces the rate that BAR_SRC_RATE asks for throughout one full Bar (02 R59, 04 R94): in the Bar whose
Downbeat this is, for training to start at the next, once no other message is on its way. -/
def State.announceRate (s : State) : State :=
  match s.bar.srcNext with
  | some c =>
    if s.bar.rateNext.isNone && s.ringA.msg.isNone && s.ringB.msg.isNone then
      let tell := fun (x : RingSt) => if x.swOpen then { x with msg := some (rateMsg c (x.mbar + 2)) } else x
      { s with bar := { s.bar with rateNext := some (c, s.ringA.mbar + 2) }, ringA := tell s.ringA, ringB := tell s.ringB }
    else s
  | none => s

/-- The training interval starts with the Downbeat that the announcement names (04 R94). -/
def State.masterTrains (s : State) : State :=
  match s.bar.rateNext with
  | some (_, b) =>
    if b == s.ringA.mbar then
      { s with bar := { s.bar with retrain := true }, ringA := { s.ringA with msg := none, slots := false },
               ringB := { s.ringB with msg := none, slots := false } }
    else s
  | none => s

/-- The index of the Beat that the device emits as beat source. -/
def State.sourceIx (s : State) : Nat := if s.mode.timed then s.beatIx else s.bar.srcBeat

/-- As beat source the device emits slot 0 of every Beat on both rings (02 R58), Ring B with Ring A. -/
def State.masterBeats (s : State) : State :=
  if !s.bar.beatsrc then s
  else
    let ix := s.sourceIx
    let down := ix == 0 && !s.bar.retrain
    let s1 := if down then s.announceRate else s
    let one := fun (x : RingSt) =>
      x.masterBeat (s.slotNow 0) ix s1.bar.rate s1.bar.retrain
    let s2 := { s1 with ringA := one s1.ringA, ringB := one s1.ringB }
    if down then s2.masterTrains else s2

end Sys2Proof.Machine
end

