-- ==== Sys2Proof/Machine/Flits.lean ====
section
/-! DEFINITION. Flits that arrive (05 R114 to R122): hop retry, streams, admission of headers (R129), and packets complete
(06 R143 to R146). -/

namespace Sys2Proof.Machine

/-- Count malformed slots and flits. -/
def State.frameError (s : State) : State := { s with frameErr := up32 s.frameErr 1 }

/-! ### Streams (R116) -/

/-- Flits that a request's header implies (R115, R166). -/
def flitsOf (rq : Req) : Nat := flitsFor (payloadLen rq.opc.toNat (lenOf rq))

/-- An admitted stream of a source on a ring: the one that still takes flits, or with `full` the complete one. -/
def State.streamAt (s : State) (r : Ring) (src : Node) (stream : BitVec 3) (full : Bool) : Option InFlight :=
  s.inflight.find? fun f => f.stage == .streaming && f.rq.via == .ring r && f.rq.src == src && f.stream == stream
    && (flitsOf f.rq ≤ f.flits) == full

/-- The open stream of a source on a ring. -/
def State.openStream (s : State) (r : Ring) (src : Node) (stream : BitVec 3) : Option InFlight :=
  s.streamAt r src stream false

/-- A stream that is cut short by a FIRST flit of the same (SRC, STREAM) is incomplete, cause 2 (06 R144, R145). -/
def State.cutStream (s : State) (r : Ring) (src : Node) (stream : BitVec 3) : State :=
  match s.openStream r src stream with
  | some o => s.crcFail o 2
  | none => s

/-! ### Admission of headers (R129) -/

/-- Slots from the arrival of a header flit to its admission (R136, worked case). -/
def admitDelay : Nat := 2

/-- A header flit of slot `slot` of Beat `beat` is judged: it cuts an open stream short (R144), and is admitted or refused
(R129). A LEN above 4,096 is admitted for its BAD_LENGTH alone. -/
def State.admitHeader (s : State) (r : Ring) (slot beat : Nat) (f : Flit) : State :=
  let s0 := s.cutStream r f.src f.stream
  let x := s0.ring r
  let s1 := s0.setRing r { x with refusedStreams := x.refusedStreams.filter fun p => p != (f.src, f.stream) }
  let rq := reqOfBytes f.content (.ring r) f.src
  let kit := s1.kitOf rq
  match s1.refusal kit rq beat with
  | some why =>
    let x1 := s1.ring r
    (s1.setRing r { x1.sendOn f with refusedStreams := x1.refusedStreams ++ [(f.src, f.stream)] }).refuseHeader r rq why
  | none =>
    let s2 := s1.admitReq rq kit f.stream beat slot admitDelay .streaming f.content
    if 4096 < lenOf rq then s2.turnDown s1.nextRid rq kit (ans 0x32 (detLen (lenOf rq) 4096)) else s2

/-- HEADER_ADMISSION: the oldest header that waits, with the Beat and slot of its arrival (02 R42). -/
def State.admitNext (s : State) (r : Ring) : State :=
  match (s.ring r).heads with
  | [] => s
  | (slot, beat, f) :: rest => (s.setRing r { s.ring r with heads := rest }).admitHeader r slot beat f

/-- Admit the header of a stream that still waits, before another flit of the stream is taken. -/
def State.admitFor (s : State) (r : Ring) (f : Flit) : State :=
  if (s.ring r).heads.any fun h => h.2.2.src == f.src && h.2.2.stream == f.stream then
    forEach (fun (_ : Nat) (t : State) => t.admitNext r) (List.range (s.ring r).heads.length) s
  else s

/-! ### What becomes of a good flit (R117) -/

/-- Flits of the packet that a first flit opens (R115); the REDO units of an early form are not counted in its header (11
R301), so its stream stays open until the next first flit. -/
def flitsFrom (f : Flit) (rq : Req) : Nat :=
  if f.cls == 1 then flitsOf rq else if rq.early then 65536 else flitsFor (lenOf rq)

/-- A flit that passes through closes its stream with its last flit. -/
def throughStep (th : List (Node × BitVec 3 × Nat)) (f : Flit) : List (Node × BitVec 3 × Nat) :=
  th.filterMap fun p =>
    if p.1 == f.src && p.2.1 == f.stream then (if p.2.2 ≤ 1 then none else some (p.1, p.2.1, p.2.2 - 1)) else some p

/-- The content of a flit put in its place among those of its stream: at flit `i`, counted from 0. -/
def insertFlit (bytes : List Byte) (i : Nat) (c : List Byte) : List Byte := bytes.take (60 * i) ++ c ++ bytes.drop (60 * i)

/-- Whether the destination of a later flit is known here. -/
def State.knowsStream (s : State) (r : Ring) (f : Flit) : Bool :=
  let x := s.ring r
  f.refused || (s.openStream r f.src f.stream).isSome || x.refusedStreams.contains (f.src, f.stream)
    || x.through.any (fun p => p.1 == f.src && p.2.1 == f.stream)
    || x.heads.any fun h => h.2.2.src == f.src && h.2.2.stream == f.stream

/-- A later flit of a stream: taken, at flit `place` of an open stream where a copy fills a gap, or forwarded, or of no known
stream. A flit of a refused stream goes on with REFUSED set (R129) and is counted (06 R146; DEDUCED, log 34). -/
def State.judgeLater (s0 : State) (r : Ring) (f : Flit) (place : Nat → Option Nat) : Option Flit × State :=
  let s := s0.admitFor r f
  let x := s.ring r
  if f.refused then (some f, s)
  else match s.openStream r f.src f.stream with
    | some o =>
      let at_ := (place o.rid).getD o.flits
      (none, s.updReq o.rid fun q => { q with flits := q.flits + 1, bytes := insertFlit q.bytes at_ f.content,
                                              lastFlit := s.bar.beatno })
    | none =>
      if x.refusedStreams.contains (f.src, f.stream) then (some { f with refused := true }, s.frameError)
      else if x.through.any fun p => p.1 == f.src && p.2.1 == f.stream then
        (some f, s.setRing r { x with through := throughStep x.through f })
      else (none, s.frameError)

/-- A first flit: of a broadcast packet a copy is taken (R115, R117), a header to the device waits for its admission, another
packet passes through. A FIRST flit ends an open short stream of its source (06 R144). -/
def State.judgeFirst (s0 : State) (r : Ring) (slot : Nat) (f : Flit) : Option Flit × State :=
  let s := s0.admitFor r f
  let x := s.ring r
  let rq := reqOfBytes f.content (.ring r) f.src
  let n := flitsFrom f rq
  if f.refused then (some f, s)
  else if rq.dnode == 31 then
    let t := s.cutStream r f.src f.stream
    (some f, if 1 < n then t.frameError else { t with bcast := t.bcast ++ [f] })
  else if x.hasId && rq.dnode.toNat == x.nodeId.toNat then
    if f.cls == 1 then (some f, s.setRing r { x with heads := x.heads ++ [(slot, s.bar.beatno, f)] })
    else (none, s.frameError)
  else
    let t := s.cutStream r f.src f.stream
    let y := t.ring r
    let th := y.through.filter fun p => !(p.1 == f.src && p.2.1 == f.stream)
    (some f, t.setRing r { y with through := if 1 < n then th ++ [(f.src, f.stream, n - 1)] else th })

/-- A good REQ or REPLY flit: what goes on, if anything, and what the device takes. A flit of its own that comes back is
removed; as beat source the device does the master's part, LAP (R117). -/
def State.judgeFlit (s : State) (r : Ring) (slot : Nat) (f : Flit) (place : Nat → Option Nat) : Option Flit × State :=
  let x := s.ring r
  if x.hasId && f.src == x.nodeId then (none, s)
  else if s.bar.beatsrc && f.lap then (none, s.setRing r { x with dropped := up16 x.dropped 1 })
  else
    let g := if s.bar.beatsrc then { f with lap := true } else f
    if g.first then s.judgeFirst r slot g else s.judgeLater r g place

/-! ### The through-queue under hop retry (R118 to R121) -/

/-- Whether an entry is the place of a bad flit. -/
def HeldEnt.isGap : HeldEnt → Bool
  | .gap _ _ _ _ => true
  | _ => false

/-- The gap whose copy is due in a slot. -/
def dueGap (slot : Nat) (h : List HeldEnt) : Option Nat :=
  h.findIdx? fun e => match e with | .gap _ _ due _ => due == slot | _ => false

/-- The oldest gap. -/
def firstGap (h : List HeldEnt) : Option Nat := h.findIdx? HeldEnt.isGap

/-- A flit waits in the through-queue, which holds 16; one more is lost (R120; DESIGN CHOICE, log 113). -/
def RingSt.hold (x : RingSt) (e : HeldEnt) : RingSt :=
  if 16 ≤ x.held.length then { x with dropped := up16 x.dropped 1 } else { x with held := x.held ++ [e] }

/-- The slot in which the copy of a flit that failed in `slot` is due: L_hop + 1 later, past the CTRL slot (Table 5.3). -/
def RingSt.copySlot (x : RingSt) (slot : Nat) : Nat :=
  let n := (slot + (x.inHop.getD 0).toNat + 1) % 32
  if n == 0 then 1 else n

/-- The In side asks for a copy of the flit of a slot: it blinks 3 slots later (R118). -/
def RingSt.askCopy (x : RingSt) (slot : Nat) : RingSt :=
  { x with blinkAt := x.blinkAt ++ [(slot + 3) % 32], retries := up32 x.retries 1 }

/-- The flits held behind no gap are judged once the copy before them is settled. -/
def State.settleHeld (s : State) (r : Ring) : State :=
  let x := s.ring r
  let pre := x.held.takeWhile fun e => !e.isGap
  let one := fun (e : HeldEnt) (t : List HeldEnt × State) =>
    match e with
    | .raw f => match t.2.judgeLater r f fun _ => none with
      | (some g, u) => (t.1 ++ [.go g], u)
      | (none, u) => (t.1, u)
    | _ => (t.1 ++ [e], t.2)
  let q := forEach one pre ([], s)
  q.2.setRing r { q.2.ring r with held := q.1 ++ x.held.dropWhile (fun e => !e.isGap), settling := 2 }

/-- A gap that gets no further copy: its flit is dropped and the held flits are released (R121). -/
def State.dropGap (s : State) (r : Ring) (i : Nat) : State :=
  let x := s.ring r
  (s.setRing r { x with held := x.held.eraseIdx i, dropped := up16 x.dropped 1 }).settleHeld r

/-- A copy of a gap's flit has failed, or did not come: another is asked for, at most 3 in all (R121). -/
def State.copyFails (s : State) (r : Ring) (i slot : Nat) (got : Option Flit) : State :=
  let x := s.ring r
  match x.held[i]? with
  | some (.gap failed lost _ seen) =>
    if 3 ≤ failed.length + lost then s.dropGap r i
    else
      let e := match got with
        | some f => HeldEnt.gap (failed ++ [⟨slot, f⟩]) lost (x.copySlot slot) seen
        | none => HeldEnt.gap failed (lost + 1) (x.copySlot slot) seen
      s.setRing r ({ x with held := x.held.set i e }.askCopy slot)
  | _ => s

/-- Flits of an open stream that later gaps have seen, one more once a copy has filled an earlier gap. -/
def seenUp (rid : Nat) (e : HeldEnt) : HeldEnt :=
  match e with
  | .gap a b c seen => .gap a b c (updWhere (fun (x : Nat × Nat) => x.1 == rid) (fun x => (x.1, x.2 + 1)) seen)
  | _ => e

/-- A good copy fills its gap: errors are attributed (R95), and the copy is treated as the original, in its place (R120). -/
def State.copyGood (s : State) (r : Ring) (i slot : Nat) (f : Flit) : State :=
  match (s.ring r).held[i]? with
  | some (.gap failed _ _ seen) =>
    let g := { f with retry := false }
    let s1 := s.attribute r failed g
    let place := fun (rid : Nat) => (seen.find? fun x => x.1 == rid).map fun x => x.2
    let own := if g.first then none else s1.openStream r g.src g.stream
    let j := if g.cls == 0 then (none, s1) else if g.cls == 3 then (none, s1.frameError) else s1.judgeFlit r slot g place
    let x := j.2.ring r
    let later := match own with
      | some o => (x.held.drop (i + 1)).map (seenUp o.rid)
      | none => x.held.drop (i + 1)
    let here := match j.1 with
      | some h => if x.mine h then [] else [HeldEnt.go h]
      | none => []
    (j.2.setRing r { x with held := x.held.take i ++ here ++ later }).settleHeld r
  | _ => s

/-- How many flits each open stream of a ring has. -/
def State.streamsSeen (s : State) (r : Ring) : List (Nat × Nat) :=
  (s.inflight.filter fun f => f.stage == .streaming && f.rq.via == .ring r).map fun f => (f.rid, f.flits)

/-! ### A flit arrives (R114) -/

/-- A bad flit (R118 to R122): slot 0 is not retried, a hop without retry drops it, in the slot of an awaited copy the copy has
failed; otherwise the receiver asks for a copy and keeps the flit's place. -/
def State.badFlit (s : State) (r : Ring) (slot : Nat) (f : Flit) : State :=
  let x := s.ring r
  let empty := emptyFlit (replyOnly slot)
  if slot == 0 then
    if s.bar.beatsrc then s.passSlot r slot empty
    else s.passSlot r slot (withCrc { emptyFlit false with cls := 3 })
  else if x.noRetry then (s.setRing r { x with dropped := up16 x.dropped 1 }).passSlot r slot empty
  else match dueGap slot x.held with
    | some i => (s.copyFails r i slot (some f)).passSlot r slot empty
    | none =>
      if 16 ≤ x.held.length then (s.setRing r { x with dropped := up16 x.dropped 1 }).passSlot r slot empty
      else
        let e := HeldEnt.gap [⟨slot, f⟩] 0 (x.copySlot slot) (s.streamsSeen r)
        (s.setRing r ({ x with held := x.held ++ [e] }.askCopy slot)).passSlot r slot empty

/-- A good flit that is no copy (R117, R120): behind held flits it waits its turn; a later flit of a stream whose FIRST may be
among the awaited copies waits to be judged. -/
def State.goodFlit (s : State) (r : Ring) (slot : Nat) (f : Flit) : State :=
  let x := s.ring r
  if f.cls == 0 then s.passSlot r slot (vacate f)
  else if f.cls == 3 then
    if slot == 0 then
      if s.bar.beatsrc then (s.setRing r (x.ctrlBack f.content)).passSlot r slot (emptyFlit false)
      else (s.setRing r (x.ctrl f).2).passSlot r slot (x.ctrl f).1
    else s.frameError.passSlot r slot (vacate f)
  else if !f.first && (firstGap x.held).isSome && !s.knowsStream r f then
    (s.setRing r (x.hold (.raw f))).passSlot r slot (vacate f)
  else
    let j := s.judgeFlit r slot f fun _ => none
    match j.1 with
    | none => j.2.passSlot r slot (vacate f)
    | some g =>
      let y := j.2.ring r
      if y.held.isEmpty || y.mine g then j.2.passSlot r slot g
      else (j.2.setRing r (y.hold (.go g))).passSlot r slot (vacate f)

/-- A slot begins: the In side blinks where a copy is asked for and at window slot 51 (R118, R119), and a window goes on. -/
def RingSt.slotBegins (x : RingSt) (slot : Nat) : RingSt :=
  let w := x.window.map fun p => (p.1 + 1, p.2)
  let mark := match w with | some (k, _) => k == 51 | none => false
  { x with
    blink := x.blinkAt.contains slot || mark, blinkAt := x.blinkAt.filter fun b => b != slot,
    window := match w with | some (k, o) => (if k ≤ 63 then some (k, o) else none) | none => none }

/-- A copy that was due in a slot and is not what arrives has not come (R121; DESIGN CHOICE, log 113). -/
def State.copyMissed (s : State) (r : Ring) (slot : Nat) : State :=
  match dueGap slot (s.ring r).held with
  | some i => s.copyFails r i slot none
  | none => s

/-- The gap that a good copy fills: the one due in its slot, else the oldest. -/
def RingSt.gapOf (x : RingSt) (slot : Nat) : Option Nat := (dueGap slot x.held).or (firstGap x.held)

/-- FLIT_RECEIVE (R114): an In side with its switch open takes one slot. -/
def State.flitIn (s0 : State) (r : Ring) (slot : Nat) (f : Flit) : State :=
  if !(s0.ring r).swOpen then s0
  else
    let x := (s0.ring r).slotBegins slot
    let s := s0.setRing r (if s0.mode.timed || s0.bar.beatsrc then x else { x with usedAt := none })
    if f.blank then (s.copyMissed r slot).passSlot r slot f
    else if !crcGood f then s.badFlit r slot f
    else if f.retry then
      match (s.ring r).gapOf slot with
      | some i => (s.copyGood r i slot f).passSlot r slot (vacate f)
      | none => s.goodFlit r slot { f with retry := false }
    else (s.copyMissed r slot).goodFlit r slot f

/-- The flit that a blink asks for (R118): the one that left L_hop Out-slots before `slot`, in which the blink is sensed. The
newest copy left in `usedAt`, which `slot` may pass by up to 16. -/
def RingSt.askedFlit (x : RingSt) (slot : Nat) : Option Flit :=
  let last := (x.usedAt.map fun u => u.1 % 32).getD slot
  let n := x.hopLat.toNat + (last + 48 - slot) % 32
  if n < 16 then none else x.copies[n - 16]?

/-- HOP_RETRY_BLINK (R118, R120): the Out-slot in which the blink is sensed lies L_hop after that of the bad flit, whose copy
is owed to the downstream node. -/
def State.blinkSensed (s : State) (r : Ring) (slot : Nat) : State :=
  let x := s.ring r
  if !x.swOpen || x.outNoRetry then s
  else match x.askedFlit slot with
    | some f => if f.blank || f.cls == 3 then s else s.setRing r { x with resend := x.resend ++ [f] }
    | none => s

/-! ### Packets complete (R143 to R145) -/

/-- The request that a complete stream carries. -/
def InFlight.whole (f : InFlight) : Req :=
  { f.rq with payload := (f.bytes.drop 16).take (payloadLen f.rq.opc.toNat (lenOf f.rq)) }

/-- Whether the CRC-32C in the last 4 content bytes matches header and payload (R143). -/
def InFlight.crcOk (f : InFlight) : Bool :=
  let n := payloadLen f.rq.opc.toNat (lenOf f.rq)
  leNat ((f.bytes.drop (60 * f.flits - 4)).take 4) == (crc32c (f.bytes.take (16 + n))).toNat

/-- PACKET_COMPLETE (R145, R152): the end-to-end check and Table 6.5; a request that passes waits at its input port, once that
has room (R133). -/
def State.packetDone (s : State) (r : Ring) (src : Node) (stream : BitVec 3) : State :=
  match s.streamAt r src stream true with
  | none => s
  | some f =>
    if !f.crcOk then s.crcFail f 1
    else
      let rq := f.whole
      match s.check f.admBeat f.kit rq with
      | some a => s.turnDown f.rid rq f.kit a
      | none => if s.queued (viaPort f.rq.via).val < 64 then s.ready f.rid rq else s

/-- STREAM_TIMEOUT (R144): 4 Beats without a further flit; a timeout of Order 4 (02 R46). -/
def State.streamLate (s : State) (r : Ring) (src : Node) (stream : BitVec 3) : State :=
  match s.openStream r src stream with
  | none => s
  | some f =>
    if s.mode.traffic && s.calMore 4 && 4 ≤ elapsed f.lastFlit s.bar.beatno then (s.calRan 4).crcFail f 3 else s

/-! ### The rows -/

/-- FLIT_RECEIVE (R114). -/
def execFlitReceive (r : Ring) (slot : BitVec 5) (f : Flit) (s : State) : Host.Outcome State Fault Refusal :=
  if (Instr.flitReceive r slot f).wf then .next (s.flitIn r slot.toNat f) else .fault .illFormed

/-- HOP_RETRY_BLINK (R118). -/
def execHopRetryBlink (r : Ring) (slot : BitVec 5) (s : State) : Host.Outcome State Fault Refusal :=
  .next (s.blinkSensed r slot.toNat)

/-- HEADER_ADMISSION (R129). -/
def execHeaderAdmission (r : Ring) (s : State) : Host.Outcome State Fault Refusal := .next (s.admitNext r)

/-- STREAM_TIMEOUT (R144). -/
def execStreamTimeout (r : Ring) (src : Node) (stream : BitVec 3) (s : State) : Host.Outcome State Fault Refusal :=
  .next (s.streamLate r src stream)

/-- PACKET_COMPLETE (R145, R152). -/
def execPacketComplete (r : Ring) (src : Node) (stream : BitVec 3) (s : State) : Host.Outcome State Fault Refusal :=
  .next (s.packetDone r src stream)

end Sys2Proof.Machine
end

