-- ==== Sys2Proof/Machine/Replies.lean ====
section
/-! DEFINITION. What the device sends (05 R123): replies (R130, R136, 08 R228, 11 R301), its own packets and their return (06
R159 to R161), and the request bound (R157). -/

namespace Sys2Proof.Machine

/-! ### Replies leave (R130, R136, R228, R301) -/

/-- The ring of a reply. -/
def Reply.on (p : Reply) (r : Ring) : Bool := p.rq.via == .ring r

/-- A REDO unit (Table 11.3). -/
def redoBytes (u : Nat × List Byte × Bool) : List Byte :=
  leBytes 2 u.1 ++ [BitVec.ofNat 8 u.2.1.length, if u.2.2 then 2 else 1] ++ zeros 4 ++ u.2.1 ++ zeros (64 - u.2.1.length)

/-- The trailer of an early form and its REDO units (Table 11.3). -/
def Reply.tail (p : Reply) (cond : BitVec 8) : List Byte :=
  [p.final.1, cond] ++ leBytes 6 p.final.2.toNat ++ leBytes 2 p.redo.length ++ zeros 6 ++ (p.redo.map redoBytes).flatten

/-- The header that a reply leaves with (R147, R301). -/
def State.hdrFor (s : State) (p : Reply) : BitVec 128 :=
  let r : Ring := match p.rq.via with | .ring r => r | .i3c => .a
  replyHdr p.rq (s.ring r).nodeId (ringIsB r) p.early p.status.toNat p.cond.toNat p.detail.toNat p.len

/-- Everything after the header: an early form's trailer joins its payload once it may leave. -/
def State.bodyFor (s : State) (p : Reply) : List Byte := if p.trailer then p.payload ++ p.tail s.cond else p.payload

/-- Flits of a reply (R115, R301). -/
def Reply.flits (p : Reply) : Nat :=
  if p.early then ceilDiv (p.len + 36 + 72 * p.redo.length) 60 else flitsFor p.len

/-- Flits that may leave before the trailer (R301). -/
def Reply.before (p : Reply) : Nat := if p.trailer then (16 + p.len) / 60 else p.flits

/-- Flit `i` of a packet of the device's own, in one of its streams. -/
def RingSt.ownFlit (x : RingSt) (cls : BitVec 2) (strm : BitVec 3) (i : Nat) (bytes : List Byte) : Flit :=
  { blank := false, cls := cls, ronly := false, first := i == 0, retry := false, lap := false, refused := false,
    src := x.nodeId, stream := strm, content := (bytes.drop (60 * i)).take 60, crc := 0 }

/-- STREAM indices that the device has open on a ring (R116). -/
def State.ownStreams (s : State) (r : Ring) : List (BitVec 3) :=
  (s.replies.filter fun p => p.on r).filterMap (fun p => p.strm) ++ (s.devq.filter fun p => p.ring == r).filterMap fun p => p.strm

/-- The lowest STREAM index that the device has not open on a ring (R116; DESIGN CHOICE, log 36: the choice is free). -/
def State.freeStream (s : State) (r : Ring) : Option (BitVec 3) :=
  ((List.range 8).map (BitVec.ofNat 3)).find? fun n => !(s.ownStreams r).contains n

/-- ARG of a REPLY record (Table 18.6). -/
def State.replyArg (s : State) (p : Reply) : Nat :=
  let beats := match s.findReq p.rid with | some f => elapsed f.admBeat s.bar.beatno | none => 0
  p.rq.opc.toNat + 256 * p.status.toNat + 65536 * p.rq.seq.toNat + 2 ^ 32 * (beats % 2 ^ 32)

/-- The last flit of a reply has left: its entry is free (R130, R155). -/
def State.replyGone (s : State) (r : Ring) (p : Reply) : State :=
  let h := s.hdrFor p
  let b := s.bodyFor p
  let pkt : Packet := ⟨.ring r, h, b, crc32c (leBytes 16 h.toNat ++ b), s.bar.beatno⟩
  { s.dropReq p.rid with
    replies := s.replies.filter fun x => x.rid != p.rid, sent := pkt :: s.sent,
    redoSent := if p.early then up32 s.redoSent p.redo.length else s.redoSent }

/-- The next flit of a reply leaves in a slot, in its stream, which its last flit closes (R116). -/
def State.sendReply (s : State) (r : Ring) (slot : Nat) (p : Reply) (strm : BitVec 3) : State :=
  let s1 := if p.flitsOut == 0 then s.tally 0x02 p.kit (s.replyArg p) else s
  let f := (s1.ring r).ownFlit 2 strm p.flitsOut (packetBytes (s1.hdrFor p) (s1.bodyFor p))
  let s2 := s1.setRing r ((s1.ring r).place (s.slotNow slot) slot f)
  if p.flits ≤ p.flitsOut + 1 then s2.replyGone r p
  else
    let more := fun (x : Reply) => { x with flitsOut := x.flitsOut + 1, strm := some strm }
    { s2 with replies := updWhere (fun x => x.rid == p.rid) more s2.replies }

/-- A reply to a request that made transfers: not one that was turned away with nothing done (06 R149). -/
def Reply.ran (p : Reply) : Bool := p.early || p.status.toNat < 0x10 || p.status.toNat == 0x40 || p.status.toNat == 0x42

/-- Whether an admitted request has its reply, up to the trailer of an early form, still to leave. -/
def State.toLeave (s : State) (f : InFlight) : Bool :=
  match s.replies.find? fun p => p.rid == f.rid with
  | some p => p.ran && p.flitsOut < p.before
  | none => true

/-- Whether a reply that has not begun to leave waits for that of a request admitted before it (06 R142, log 104). -/
def State.heldBack (s : State) (p : Reply) : Bool :=
  p.flitsOut == 0 && p.ran &&
    s.inflight.any fun f => f.rid < p.rid && ordered f.kit p.kit f.rq p.rq && s.toLeave f

/-- The stream of a reply that may send a flit: its own, or a free one to begin in. -/
def State.streamOf (s : State) (r : Ring) (open_ : Option (BitVec 3)) : Option (BitVec 3) := open_.or (s.freeStream r)

/-- The reply whose next flit may leave in a slot (R136): the oldest whose mark has come, in admission order where the switch
keeps the requests in order (06 R142). In Strict Tempo (R228) replies with a release Beat wait for it and for their Kit's own
positions. -/
def State.nextReply (s : State) (r : Ring) (slot : Nat) (strict : Bool) : Option Reply :=
  let owns := fun (p : Reply) => match p.kit, posOf slot with
    | some k, some n => (s.kit k).replypos.getLsbD (n + (if ringIsB r then 8 else 0))
    | _, _ => false
  s.replies.find? fun p =>
    p.on r && p.flitsOut < p.before && !s.heldBack p &&
      (if strict then owns p && (match p.release with | some b => reached b s.bar.beatno | none => false)
       else (p.release.isNone || !s.gen.active) && (p.mark == 0 || slotReached p.mark (s.slotNow slot)))

/-- Whether a slot can take a REPLY flit of the device (R113, R123, R131). -/
def State.replyRoom (s : State) (r : Ring) (slot : Nat) : Bool :=
  let x := s.ring r
  x.mayPlace (s.slotNow slot) slot && x.replySlot slot && !s.drivesBlank r

/-- A reply's next flit leaves in a slot, if one may. -/
def State.release (s : State) (r : Ring) (slot : Nat) (strict : Bool) : State :=
  if !s.replyRoom r slot then s
  else match s.nextReply r slot strict with
    | some p => match s.streamOf r p.strm with
      | some n => s.sendReply r slot p n
      | none => s
    | none => s

/-- READ_REPLY_RELEASE (R136). -/
def State.releaseReply (s : State) (r : Ring) (slot : Nat) : State := s.release r slot false

/-- STRICT_REPLY_RELEASE (R228): a reply leaves in its Kit's own positions, from its release Beat on. -/
def State.releaseStrict (s : State) (r : Ring) (slot : Nat) : State := s.release r slot true

/-- EARLY_TRAILER (R301): once what precedes them has left, trailer and REDO units may leave, in slots as any flits of the
reply. -/
def State.sendTrailer (s : State) (r : Ring) : State :=
  match s.replies.find? fun p => p.on r && p.trailer && p.before ≤ p.flitsOut with
  | some p =>
    let join := fun (x : Reply) => { x with payload := s.bodyFor x, trailer := false }
    { s with replies := updWhere (fun x => x.rid == p.rid) join s.replies }
  | none => s

/-! ### Device packets leave and come back (R123, R159, R161) -/

/-- The next SEQ of a destination (R159): one node on each ring is a destination of its own (DEDUCED, log 36). -/
def State.takeSeq (s : State) (r : Ring) (n : Node) : Nat × State :=
  match s.devSeq.find? fun x => x.1 == r && x.2.1 == n with
  | some (_, _, q) =>
    (q, { s with devSeq := updWhere (fun (x : Ring × Node × Nat) => x.1 == r && x.2.1 == n)
                   (fun x => (x.1, x.2.1, (x.2.2 + 1) % 65536)) s.devSeq })
  | none => (0, { s with devSeq := s.devSeq ++ [(r, n, 1)] })

/-- The header of a device packet (R159). -/
def State.devHdr (s : State) (p : DevPkt) : BitVec 128 :=
  hdrNat p.opc.toNat p.ktag.toNat false false false false (s.ring p.ring).nodeId.toNat (ringIsB p.ring) 0 p.dest.toNat p.seq
    p.payload.length p.param.toNat

/-- A packet begins: its SEQ when it is sent for the first time, and an ALERT's register value (R159). -/
def State.begin_ (s : State) (p : DevPkt) : DevPkt × State :=
  let p1 := match p.alertOf with
    | some i => { p with param := s.alertParam i }
    | none => p
  if p.tries == 0 then
    let q := s.takeSeq p.ring p.dest
    ({ p1 with seq := q.1 }, q.2)
  else (p1, s)

/-- The next flit of a device packet, taken out of the queue, leaves in a slot. With its last flit the packet has left; it may
still come back REFUSED (R161). -/
def State.emit (s : State) (slot : Nat) (p : DevPkt) (rest : List DevPkt) (strm : BitVec 3) : State :=
  let b := if p.flitsOut == 0 then s.begin_ p else (p, s)
  let q := b.1
  let s1 := b.2
  let h := s1.devHdr q
  let f := (s1.ring q.ring).ownFlit 1 strm q.flitsOut (packetBytes h q.payload)
  let s2 := s1.setRing q.ring ((s1.ring q.ring).place (s.slotNow slot) slot f)
  if flitsFor q.payload.length ≤ q.flitsOut + 1 then
    { s2 with
      sent := ⟨.ring q.ring, h, q.payload, crc32c (leBytes 16 h.toNat ++ q.payload), s.bar.beatno⟩ :: s2.sent,
      devq := rest ++ [{ q with waiting := false, tries := q.tries + 1, flitsOut := 0, strm := none }] }
  else { s2 with devq := { q with flitsOut := q.flitsOut + 1, strm := some strm } :: rest }

/-- PARAM of a PUSH as its FIFO entry gives it. -/
def PushPkt.param (p : PushPkt) (e : Engine) : BitVec 64 :=
  BitVec.ofNat 64 (p.offset % 2 ^ 40 + 2 ^ 40 * p.status.toNat + 2 ^ 48 * e.val + 2 ^ 56 * p.part)

/-- The PUSH that the lowest engine has ready for a ring. -/
def State.readyPush (s : State) (r : Ring) : Option (Engine × PushPkt) :=
  allEngines.findSome? fun e =>
    match (s.eng e).fifo with
    | p :: _ =>
      match p.ready with
      | some b => if p.ring == r && p.need == 0 && reached b s.bar.beatno then some (e, p) else none
      | none => none
    | [] => none

/-- The waiting device packet of a ring that goes next (12 R320): an ALERT, RECANT or EVENT, one that has begun first; else the
PUSH that has begun, or one to be sent again. -/
def State.nextDev (s : State) (r : Ring) : Option (DevPkt × List DevPkt) :=
  let mine := fun (p : DevPkt) => p.waiting && p.ring == r && reached p.notBefore s.bar.beatno
  let push := fun (p : DevPkt) => p.opc == 0x72
  ((takeFirst (fun p => mine p && !push p && p.flitsOut != 0) s.devq).or
    (takeFirst (fun p => mine p && !push p) s.devq)).or
    ((takeFirst (fun p => mine p && push p && p.flitsOut != 0) s.devq).or
      (takeFirst (fun p => mine p && push p) s.devq))

/-- Whether a slot can take a REQ flit of the device (R113, R123). -/
def State.reqRoom (s : State) (r : Ring) (slot : Nat) : Bool :=
  let x := s.ring r
  x.mayPlace (s.slotNow slot) slot && x.reqSlot (s.slotNow slot) slot && !s.drivesBlank r

/-- A PUSH leaves its engine's FIFO. -/
def State.takePush (s : State) (r : Ring) (e : Engine) (p : PushPkt) : DevPkt × State :=
  let g := s.eng e
  ({ opc := 0x72, ktag := BitVec.ofNat 4 g.kit.val, ring := r, dest := p.node, seq := 0, param := p.param e,
     payload := p.data, tries := 0, notBefore := s.bar.beatno, engine := some e, sid := p.sid, waiting := true, flitsOut := 0,
     strm := none, alertOf := none },
   s.setEng e { g with fifo := g.fifo.drop 1, pushes := up32 g.pushes 1 })

/-- PUSH_INJECT (R123 rule 4): into an EMPTY general slot that no reply can use goes the next flit of a device packet, else the
first of a ready PUSH of the lowest engine. -/
def State.injectReq (s : State) (r : Ring) (slot : Nat) : State :=
  let replies := (s.nextReply r slot false).isSome || (s.nextReply r slot true).isSome
  if !s.reqRoom r slot || replies then s
  else
    match s.nextDev r with
    | some (p, rest) => match s.streamOf r p.strm with
      | some n => s.emit slot p rest n
      | none => s
    | none =>
      match s.readyPush r with
      | none => s
      | some (e, p) => match s.freeStream r with
        | some n =>
          let q := s.takePush r e p
          q.2.emit slot q.1 q.2.devq n
        | none => s

/-- A PUSH is discarded: RUD_EVENTS.PUSHDROP and EVENT 0x0303 with the engine and the part number (12 R320, Table 12.3). -/
def State.pushDropped (s : State) (p : DevPkt) : State :=
  (s.raise .rud 0x02).notifyKit ⟨p.ktag.toNat, p.ktag.isLt⟩ 0x0303
    ((match p.engine with | some e => e.val | none => 0) + 256 * (p.param.toNat / 2 ^ 56))

/-- DEVICE_PACKET_REFUSED (R161): the header has come back; the packet is sent again from the second Beat on, a whole Beat
later in any slot (05 R129), and discarded after the eighth refusal. -/
def State.devRefused (s : State) (r : Ring) (dest : Node) (seq : Nat) : State :=
  let sent := fun (p : DevPkt) => (!p.waiting || p.flitsOut != 0) && p.ring == r && p.dest == dest && p.seq == seq
  match takeFirst sent s.devq with
  | none => s
  | some (p, rest) =>
    let tries := if p.flitsOut == 0 then p.tries else p.tries + 1
    if tries < 8 then
      { s with devq := { p with waiting := true, tries := tries, flitsOut := 0, strm := none,
                                notBefore := (s.bar.beatno + 2) % Config.beatWrap } :: rest }
    else
      let s1 := { s with devq := rest, gen := { s.gen with txDrop := up32 s.gen.txDrop 1 } }
      if p.opc == 0x72 then s1.pushDropped p
      else if p.opc == 0x71 && p.param.toNat % 65536 == 0x0500 then
        { s1 with tal := { s1.tal with streamLost := up32 s1.tal.streamLost (p.payload.length / 16) } }
      else s1

/-! ### The request bound (R157) -/

/-- The service of a request that is dropped unreplied ends (R127, R128); what it already wrote completes. -/
def State.abandon (s0 : State) (rid : Nat) : State :=
  let s := s0.zeroRest fun j => j.rid == rid
  { s with reads := s.reads.filter fun x => x.rid != rid, fences := s.fences.filter fun x => x.rid != rid,
           waits := s.waits.filter fun x => x.rid != rid,
           bel := { s.bel with port := s.bel.port.filter (fun x => x.rid != rid),
                               jobs := s.bel.jobs.filter (fun x => x.rid != rid) },
           jobs := updWhere (fun x => x.rid == rid) (fun x => { x with todo := [], replied := true }) s.jobs }

/-- A WRITE without NOWAIT that waits on share while its Kit's held Strokes fall in each Bar is within its bound (R157). -/
def State.inBound (s : State) (rid : Nat) : Bool :=
  s.jobs.any fun j => j.rid == rid && !j.todo.isEmpty && !j.rq.nowait && j.falling

/-- REQUEST_TIMEOUT (R157): the bound has passed; a WEDGE record is queued. The block that did not answer stays as it is
(R158). -/
def State.requestLate (s : State) (rid : Nat) : State :=
  match s.findReq rid with
  | none => s
  | some f =>
    if !s.mode.traffic || !s.calMore 4 || f.stage == .replied || f.stage == .late || s.inBound rid
        || elapsed f.admBeat s.bar.beatno < s.gen.reqTo * 1024 + f.stood then s
    else
      let s1 := ((s.calRan 4).updReq rid fun x => { x with stage := .late }).raise .gen 0x01
      let s2 := s1.logRec 0x0701 f.port (some rid)
      if s1.bel.room then s2 else s2.updReq rid fun x => { x with wedge := some (0, 2) }

/-- WEDGE_REPLY (R157): INTERNAL, once the record is written or dropped; it names the block, which is served no more until a
full reset (R158). -/
def State.wedged (s : State) (rid : Nat) : State :=
  match s.findReq rid with
  | none => s
  | some f =>
    match f.wedge with
    | some (num, where_) =>
      if f.stage == .replied then s
      else
        let s1 := { s with wedgedPorts := s.wedgedPorts ||| BitVec.ofNat 12 (2 ^ f.port) }
        (s1.giveBack rid).queueReply rid f.rq f.kit (ans 0x60 (detInternal f.port where_ num))
    | none => s

/-! ### The rows -/

/-- READ_REPLY_RELEASE (R136). -/
def execReadReplyRelease (r : Ring) (slot : BitVec 5) (s : State) : Host.Outcome State Fault Refusal :=
  .next (s.releaseReply r slot.toNat)

/-- STRICT_REPLY_RELEASE (R228). -/
def execStrictReplyRelease (r : Ring) (slot : BitVec 5) (s : State) : Host.Outcome State Fault Refusal :=
  .next (s.releaseStrict r slot.toNat)

/-- EARLY_TRAILER (R301). -/
def execEarlyTrailer (r : Ring) (s : State) : Host.Outcome State Fault Refusal := .next (s.sendTrailer r)

/-- REQUEST_TIMEOUT (R157). -/
def execRequestTimeout (rid : Nat) (s : State) : Host.Outcome State Fault Refusal := .next (s.requestLate rid)

/-- WEDGE_REPLY (R157). -/
def execWedgeReply (rid : Nat) (s : State) : Host.Outcome State Fault Refusal := .next (s.wedged rid)

/-- DEVICE_PACKET_REFUSED (R161). -/
def execDevicePacketRefused (r : Ring) (dest : Node) (seq : BitVec 16) (s : State) : Host.Outcome State Fault Refusal :=
  .next (s.devRefused r dest seq.toNat)

/-- PUSH_INJECT (R123, R159). -/
def execPushInject (r : Ring) (slot : BitVec 5) (s : State) : Host.Outcome State Fault Refusal :=
  .next (s.injectReq r slot.toNat)

end Sys2Proof.Machine
end

