-- ==== Sys2Proof/Machine/Belfry.lean ====
section
/-! DEFINITION. The Belfry store (15; 07 R194 to R196): the port and its order, chunk writes, seals, the margin refresh,
critical records in two copies, the event log and the shadow log. -/

namespace Sys2Proof.Machine

/-! ### Strokes and the port (R376, R377) -/

/-- Strokes of a Kit are spent (R87). -/
def State.chargeKit (s : State) (k : Kit) (n : Nat) : State :=
  { (s.setKit k { s.kit k with spent := up32 (s.kit k).spent n }) with stk := { s.stk with barKit := s.stk.barKit + n } }

/-- Strokes of maintenance are spent (R87). -/
def State.chargeMaint (s : State) (n : Nat) : State :=
  { s with stk := { s.stk with mspent := up32 s.stk.mspent n, barMaint := s.stk.barMaint + n } }

/-- Chunk writes are paced by the ledger in ring time; outside it, and while BEATNO holds, they are done at once (R377, log
64). -/
def State.belPaced (s : State) : Bool := s.mode.timed && !s.bar.hold

/-- The port works outside Off, Hibernate and Knelled, and while no completion runs (R377). -/
def State.belActive (s : State) : Bool :=
  s.mode != .off && s.mode != .hibernate && s.mode != .knelled && !s.completing

/-- The port is free for the device's own operations: nothing is in progress or waits at it (R376). -/
def State.belFree (s : State) : Bool := s.belActive && s.bel.port.isEmpty && s.bel.run.isNone

/-- Aligned 32-byte chunks that `n` bytes from `a` touch (R376). -/
def chunksOf (a n : Nat) : Nat := if n == 0 then 0 else (a + n - 1) / 32 - a / 32 + 1

/-- Bytes at an address, cut at 32-byte boundaries: one piece for each chunk write (R376). -/
def chunkPieces (a : Nat) (bs : List Byte) : List (Nat × List Byte) :=
  (List.range (chunksOf a bs.length)).map fun i =>
    let lo := max a (32 * (a / 32 + i))
    let hi := min (a + bs.length) (32 * (a / 32 + i + 1))
    (lo, (bs.drop (lo - a)).take (hi - lo))

/-- Chunk writes of maintenance for some bytes, with what the last of them ends. -/
def maintSteps (cal : Bool) (a : Nat) (bs : List Byte) (fin : Option BelEnd) : List BelStep :=
  let ps := chunkPieces a bs
  ((List.range ps.length).zip ps).map fun x =>
    ⟨false, cal, .data x.2.1 x.2.2, if x.1 + 1 == ps.length then fin else none⟩

/-- Reply to a Belfry request that still awaits its reply. -/
def State.belAnswer (s : State) (rid : Nat) (rq : Req) (k : Kit) (a : Answer) : State :=
  match rq.via with
  | .i3c => s.answer rid rq (some k) a
  | .ring _ =>
    match s.findReq rid with
    | some f => if f.stage == .replied then s else s.answer rid rq (some k) a
    | none => s

/-- The Belfry address of a request (R194). -/
def belAddr (rq : Req) : Nat := prm rq % 65536

/-- BELFRY_READ at the port (R194): 20 ns for each aligned chunk that it touches (R376). -/
def State.belRead (s : State) (rid : Nat) (rq : Req) : State :=
  let busy := s.bel.busyPs + 20000 * chunksOf (belAddr rq) (lenOf rq)
  ({ s with bel := { s.bel with busyPs := busy } }).belAnswer rid rq 0 (ansData (cellsRead s.bel.mem (belAddr rq) (lenOf rq)))

/-- The pages that a BELFRY_SEAL of TYPE 0 names (R196). -/
def sealMask (rq : Req) : BitVec 256 :=
  BitVec.ofNat 256 ((2 ^ (pb rq 10) - 1) * 2 ^ (pb rq 9))

/-- BELFRY_SEAL's bits are set, and it replies (R196). -/
def State.belSeal (s : State) (rid : Nat) (rq : Req) : State :=
  let b := if pb rq 8 == 1 then { s.bel with testSeal := true } else { s.bel with seals := s.bel.seals ||| sealMask rq }
  ({ s with bel := b }).belAnswer rid rq 0 (ans 0x00 0)

/-- Whether a page may be written: in the customer area and not sealed (R195). -/
def Bel.writable (b : Bel) (page : Nat) : Bool := 128 ≤ page && page ≤ 191 && !b.sealed page

/-- The reply of a write that has stored its last byte or met a page that it may not write (R195). -/
def State.belWriteEnds (s : State) (j : BelJob) : State :=
  let page := (belAddr j.rq + j.done) / 256
  let a := if j.done == lenOf j.rq then ans 0x00 (j.done % 65536)
    else if j.done == 0 then ans 0x20 3
    else ans 0x04 (detPartial j.done (if 191 < page then 2 else 1))
  let s1 := { s with bel := { s.bel with jobs := s.bel.jobs.filter (fun x => x.rid != j.rid), port := s.bel.port.drop 1 } }
  s1.belAnswer j.rid j.rq j.kit a

/-- A record that a request waits for has been written, or dropped: where_ 0 Belfry log, 1 shadow log, 2 dropped (06
R157, R377). -/
def State.recordGone (s : State) (rid num where_ : Nat) : State :=
  match s.bel.jobs.find? fun j => j.rid == rid && j.failed with
  | some j =>
    ({ s with bel := { s.bel with jobs := s.bel.jobs.filter fun x => x.rid != rid } }).belAnswer rid j.rq j.kit
      (ans 0x60 (detInternal 11 where_ num))
  | none => s.updReq rid fun f => { f with wedge := some (num, where_) }

/-- A chunk still differs after its third write: the write stops and leaves the port, a BELWRITE record is queued, and
INTERNAL follows that record (R377). -/
def State.belWriteFails (s : State) (rid a : Nat) : State :=
  let s2 := if s.bel.jobs.any fun j => j.rid == rid then { s with bel := { s.bel with port := s.bel.port.drop 1 } } else s
  let room := s2.bel.room
  let s3 := s2.logRec 0x0604 (a / 256 + 256 * (a % 256 / 32)) (some rid)
  if room then s3 else s3.recordGone rid 0 2

/-! ### The choice between two copies of a record (R380, R381) -/

/-- Address of copy A, of copy B, and length of a record. The spec keeps the lengths and inner places of most records
internal (R491); the model takes those of Table 15.1 where it gives them, and one page or two where it does not (log 65). -/
def recPlace : RecId → Nat × Nat × Nat
  | .key k => (16 * 256 + 80 * k.val, 21 * 256 + 80 * k.val, 80)
  | .rootWrap => (26 * 256, 27 * 256, 256)
  | .repairPair n => (32 * 256 + 16 * n.toNat, 40 * 256 + 16 * n.toNat, 16)
  | .recant k => (192 * 256 + 16 * k.val, 193 * 256 + 16 * k.val, 16)
  | .deviceState => (194 * 256, 195 * 256, 256)
  | .scrub => (196 * 256, 197 * 256, 256)
  | .knellSummary => (198 * 256, 200 * 256, 512)
  | .factoryId => (0, 8 * 256, 256)
  | .fillAll => (7 * 256, 15 * 256, 256)

/-- A record frame (Table 15.2) of `n` bytes from TYPE and body, with its generation and CRC-16. -/
def frameRec (n gen : Nat) (body : List Byte) : List Byte :=
  let b := (body.take (n - 3)) ++ zeros (n - 3 - body.length)
  let f := b.take 1 ++ leBytes 1 gen ++ b.drop 1
  f ++ leBytes 2 (crc16 f).toNat

/-- A copy is good by its CRC alone (R381). -/
def recGood (bs : List Byte) : Bool := leBytes 2 (crc16 (bs.take (bs.length - 2))).toNat == bs.drop (bs.length - 2)

/-- The bytes of a record's copy. -/
def Bel.copyOf (b : Bel) (r : RecId) (second : Bool) : List Byte :=
  let p := recPlace r
  cellsRead b.mem (if second then p.2.1 else p.1) p.2.2

/-- GEN of the copy that is used (R381). -/
def Bel.genOf (b : Bel) (r : RecId) : Nat :=
  let a := b.copyOf r false
  let c := b.copyOf r true
  let ga := byteAt a 1
  let gc := byteAt c 1
  if !recGood a && recGood c then gc
  else if recGood a && recGood c && (gc + 256 - ga) % 256 != 0 && (gc + 256 - ga) % 256 < 128 then gc
  else ga

/-- A Kit's key is lost (08 R219): KEYLOST, its event and its notice (08 R212). -/
def State.keyLost (s : State) (k : Kit) : State :=
  let x := s.kit k
  if x.keylost || !x.key.present then s
  else ((s.setKit k { x with keylost := true }).raise (.kit k) 0x04).notifyKit k 0x0102 0

/-- What an absent record means (Table 15.3). -/
def State.absentRec (s : State) (r : RecId) : State :=
  match r with
  | .key k => s.keyLost k
  | .rootWrap => forEach (fun (k : Kit) (t : State) => t.keyLost k) allKits s
  | .repairPair _ => s.raise .rep 0x40
  | .recant k => s.setKit k { s.kit k with kunrep := 0, kfirst := 0 }
  | .deviceState =>
    -- the split in force changes only while Main serves nobody (log 66)
    let tier := { s.tier with snapshot := none, splitReq := 4, splitNext := none,
                              split := if s.mode.timed then s.tier.split else 4 }
    { s with tier := tier, deep := { s.deep with floor := 1024 },
             toll := { s.toll with ordValid := false } }
  | .scrub => { s with ecc := { s.ecc with cur := 0, acc := 0, uncorr := 0, dieCorr := Vector.replicate 11 0,
                                           lastUncorr := (0, 0), sweepBars := 0, sweeps := 0 } }
  | .knellSummary => { s with knl := { s.knl with summary := none } }
  | .factoryId => s
  | .fillAll => s

/-- Both copies bad: RECBAD, its record and its ALERT once until the record is written, and the outcome of Table 15.3. The
TYPE that the record names is internal (R491, log 65). -/
def State.recBad (s : State) (r : RecId) : State :=
  if s.bel.recAbsent.contains r then s
  else
    let arg := (recPlace r).1 / 256 + 256 * (Config.freeByte s.free).toNat
    let s1 := ((s.spend 1).raise .bel 0x02).logRec 0x0602 arg
    ({ s1 with bel := { s1.bel with recAbsent := s1.bel.recAbsent ++ [r] } }).absentRec r

/-- A bad or older copy is rewritten from the other, as an operation of the port, ahead of other maintenance where a refresh
step found it; in modes timed by the house oscillator it waits for Run (R381). -/
def State.fixSteps (s : State) (cal : Bool) (r : RecId) (second : Bool) : List BelStep :=
  maintSteps cal (if second then (recPlace r).2.1 else (recPlace r).1) (s.bel.copyOf r (!second)) (some .fix)

/-- See `fixSteps`. -/
def State.fixCopy (s : State) (cal : Bool) (r : RecId) (second : Bool) : State :=
  if s.belPaced then { s with bel := { s.bel with port := s.bel.port ++ [.steps (s.fixSteps cal r second)] } }
  else if s.bel.recLater.contains r then s
  else { s with bel := { s.bel with recLater := s.bel.recLater ++ [r] } }

/-- CRITICAL_RECORD_READ (R381): the choice between two copies. -/
def State.readRec (s : State) (cal : Bool) (r : RecId) : State :=
  let a := s.bel.copyOf r false
  let b := s.bel.copyOf r true
  let d := (byteAt a 1 + 256 - byteAt b 1) % 256
  if recGood a && recGood b then
    if a == b then s
    else if d ≤ 128 then s.fixCopy cal r true
    else s.fixCopy cal r false
  else if recGood a then s.fixCopy cal r true
  else if recGood b then s.fixCopy cal r false
  else s.recBad r

/-- The records that lie wholly or partly in a page (R379), by Table 15.1. -/
def recsIn (page : Nat) : List RecId :=
  let all : List RecId := allKits.map RecId.key ++ [.rootWrap]
    ++ ((List.range 128).map fun n => RecId.repairPair (BitVec.ofNat 7 n)) ++ allKits.map RecId.recant
    ++ [.deviceState, .scrub, .knellSummary, .factoryId, .fillAll]
  all.filter fun r =>
    let p := recPlace r
    let hit := fun a => a / 256 ≤ page && page ≤ (a + p.2.2 - 1) / 256
    hit p.1 || hit p.2.1

/-! ### What a chunk write ends -/

/-- The chunks of a mask. -/
def chunkList (m : BitVec 8) : List Nat := (List.range 8).filter fun i => m.getLsbD i

/-- The log store fails (R385): LOGDEG, LOGFAIL, and a LOGFAIL record ahead of every later one. -/
def State.logFails (s : State) (page : Nat) : State :=
  if s.gen.logdeg then s
  else
    let r : LogRec := ⟨0x0603, s.tb, s.logTime, page, none⟩
    ({ s with gen := { s.gen with logdeg := true }, bel := { s.bel with logq := r :: s.bel.logq } }).raise .bel 0x01

/-- A margin-refresh step ends (R379): chunks that still differ, and the choice of every record in the page. -/
def State.refreshEnds (s : State) (page : Nat) (still : BitVec 8) : State :=
  let s1 := if still == 0 then s
    else if 64 ≤ page && page ≤ 127 then s.logFails page
    else forEach (fun (c : Nat) (t : State) => t.logRec 0x0604 (page + 256 * c)) (chunkList still) s
  forEach (fun (r : RecId) (t : State) => t.readRec true r) (recsIn page) s1

/-- A copy of a record is written whole: a key record holds the key, or, under KIT_DESTROY, no longer does (07 R186, R188). -/
def State.keyCopy (s : State) (r : RecId) (second : Bool) : State :=
  match r with
  | .key k =>
    let x := s.kit k
    let now := x.wipe == .idle
    let y := if second then { x.key with storedB := now } else { x.key with storedA := now }
    s.setKit k { x with key := y, wipe := if second && !now then .done else x.wipe }
  | _ => s

/-- An update that is lost: of a key under KIT_DESTROY it begins anew, for no page is released before both copies are
overwritten (08 R221; log 127). -/
def State.updateLost (s : State) (r : RecId) : State :=
  match r with
  | .key k => if (s.kit k).wipe == .under then s.queueRec r else s
  | _ => s

/-- A chunk write is the last of its operation. -/
def State.belEnds (s : State) (e : BelEnd) : State :=
  match e with
  | .write rid => match s.bel.jobs.find? fun j => j.rid == rid with
    | some j => s.belWriteEnds j
    | none => s
  | .writeFails rid a => s.belWriteFails rid a
  | .seal_ rid rq => s.belSeal rid rq
  | .half r => s.keyCopy r false
  | .record r => { s.keyCopy r true with bel := { s.bel with recAbsent := s.bel.recAbsent.filter fun x => x != r } }
  | .recordFails r a => (s.logRec 0x0604 (a / 256 + 256 * (a % 256 / 32))).updateLost r
  | .log tell lost =>
    let s1 := forEach (fun (x : Nat × Nat) (t : State) => t.recordGone x.1 x.2 0) tell s
    let s2 := { s1 with bel := { s1.bel with lostNow := s1.bel.lostNow - lost } }
    if lost == 0 then s2 else s2.raise .bel 0x08
  | .logFails tell a =>
    (forEach (fun (rid : Nat) (t : State) => t.recordGone rid 0 2) tell s).logFails (a / 256)
  | .fix => { s with bel := { s.bel with recfix := up32 s.bel.recfix 1 } }
  | .weak => { s with bel := { s.bel with weak := up32 s.bel.weak 1, weakNow := up16 s.bel.weakNow 1 } }
  | .refresh page still =>
    ({ s with bel := { s.bel with weak := up32 s.bel.weak 1, weakNow := up16 s.bel.weakNow 1 } }).refreshEnds page still

/-- What a chunk write leaves; BEL_WRITES counts it (R388). -/
def State.belPuts (s : State) (p : BelPut) : State :=
  match p with
  | .again => { s with bel := { s.bel with writes := up32 s.bel.writes 1 } }
  | .data a bs => s.belPut a bs 1
  | .undefined a n => (s.belPut a (freeBytes s.free n) 1).spend n

/-- One chunk write is done. -/
def State.belWritten (s : State) (x : BelStep) : State :=
  let s1 := match x.fin with
    | some (.seal_ _ _) => s
    | _ => s.belPuts x.put
  match x.fin with
  | some e => s1.belEnds e
  | none => s1

/-- A chunk write that no Beat paces, charged as any other (R62). -/
def State.belNow (x : BelStep) (s : State) : State :=
  (if x.house then s.chargeKit 0 1 else s.chargeMaint 1).belWritten x

/-- Chunk writes start at the free port, or follow those in progress. -/
def State.belStart (s : State) (l : List BelStep) : State :=
  if l.isEmpty then s
  else if s.belPaced then
    let r : BelRun := match s.bel.run with
      | some r => { r with steps := r.steps ++ l }
      | none => ⟨l, s.nextEnt⟩
    { s with bel := { s.bel with run := some r } }
  else forEach State.belNow l s

/-- Chunk writes left in progress when the ledger's pace ends are done. -/
def State.belSettle (s : State) : State :=
  if s.belPaced || !s.belActive then s
  else match s.bel.run with
    | some r => forEach State.belNow r.steps { s with bel := { s.bel with run := none } }
    | none => s

/-! ### The port (R376) -/

/-- The operations at the head of a port that is not busy, up to the next BELFRY_WRITE (R376). -/
def State.portOn : Nat → State → State
  | 0, s => s
  | n + 1, s =>
    if s.bel.run.isSome then s
    else
      let s1 := { s with bel := { s.bel with port := s.bel.port.drop 1 } }
      match s.bel.port with
      | .read rid rq :: _ => State.portOn n (s1.belRead rid rq)
      | .seal_ rid rq :: _ => State.portOn n (s1.belStart [⟨true, false, .again, some (.seal_ rid rq)⟩])
      | .steps l :: _ => State.portOn n (s1.belStart l)
      | _ => s

/-- The port goes on with what waits at it. -/
def State.portGoes (s : State) : State :=
  if s.belActive then (s.belSettle).portOn s.bel.port.length else s

/-- An operation arrives at the port (R376). -/
def State.atPort (s : State) (op : BelOp) : State :=
  ({ s with bel := { s.bel with port := s.bel.port ++ [op] } }).portGoes

/-- The next chunk write in progress is done, funded by its group (R377). -/
def State.belNext (s : State) : State :=
  match s.bel.run with
  | none => s
  | some r =>
    match r.steps with
    | [] => { s with bel := { s.bel with run := none } }
    | x :: rest =>
      let run := if rest.isEmpty then none else some { r with steps := rest }
      (({ s with bel := { s.bel with run := run, busyPs := s.bel.busyPs + 80000 } }).belWritten x).portGoes

/-- A Beat passes at the port (R376). -/
def State.portBeat (s : State) : State :=
  ({ s with bel := { s.bel with busyPs := s.bel.busyPs - Config.beatPs s.bar.rate } }).portGoes

/-! ### BELFRY_WRITE (07 R195, R377) -/

/-- BELFRY_WRITE: LEN 0 moves nothing (06 R153); otherwise its chunks wait for the port. -/
def State.belWrite (s : State) (j : Job) : State :=
  if lenOf j.rq == 0 then j.reply s 0x00 0
  else
    let job : BelJob := ⟨j.rid, j.rq, j.kit, 0, false⟩
    ({ s with bel := { s.bel with jobs := s.bel.jobs ++ [job] } }).atPort (.write j.rid)

/-- Bytes of the next chunk at an address: up to 32, of what is left, ending before a page that may not be written. -/
def Bel.chunkLen (b : Bel) (a left : Nat) : Nat :=
  let n := min 32 left
  let edge := (a / 256 + 1) * 256
  if edge < a + n && !b.writable (a / 256 + 1) then edge - a else n

/-- The chunk writes of one chunk of a BELFRY_WRITE: the first at the Kit's charge, retries at maintenance's (R377). -/
def chunkSteps (tries : Nat) (put : BelPut) (fin : Option BelEnd) : List BelStep :=
  (List.range (tries + 1)).map fun i =>
    ⟨i == 0, false, if i == tries then put else .again, if i == tries then fin else none⟩

/-- BELFRY_CHUNK_WRITE (R377): the next chunk of the BELFRY_WRITE at the port goes to it, with `tries` retries. -/
def State.chunkWrite (s : State) (tries : Nat) (good : Bool) : State :=
  match s.bel.port with
  | .write rid :: _ =>
    match s.bel.jobs.find? fun j => j.rid == rid with
    | none => ({ s with bel := { s.bel with port := s.bel.port.drop 1 } }).portGoes
    | some j =>
      let a := belAddr j.rq + j.done
      if !s.belActive || j.failed then s
      else if j.done == lenOf j.rq || !s.bel.writable (a / 256) then
        if s.bel.run.isSome then s else (s.belWriteEnds j).portGoes
      else
        let n := s.bel.chunkLen a (lenOf j.rq - j.done)
        let j' := { j with done := if good then j.done + n else j.done, failed := !good }
        let s1 := { s with bel := { s.bel with jobs := updWhere (fun x => x.rid == rid) (fun _ => j') s.bel.jobs } }
        let ends := j'.done == lenOf j.rq || !s.bel.writable ((a + n) / 256)
        let l := if good then
            chunkSteps tries (.data a ((j.rq.payload.drop j.done).take n)) (if ends then some (.write rid) else none)
          else chunkSteps 2 (.undefined a n) (some (.writeFails rid a))
        let s2 := s1.belStart l
        if s.belPaced then s2 else s2.portGoes
  | _ => s

/-! ### Critical records (R380, R381) -/

/-- Both copies of a record take a new generation (R381). -/
def State.putRec (s : State) (r : RecId) (body : List Byte) : State :=
  let p := recPlace r
  let f := frameRec p.2.2 ((s.bel.genOf r + 1) % 256) body
  let s1 := (s.belPut p.1 f (chunksOf p.1 p.2.2)).belPut p.2.1 f (chunksOf p.2.1 p.2.2)
  { s1 with bel := { s1.bel with recAbsent := s1.bel.recAbsent.filter fun x => x != r } }

/-- A record whose body is internal to the device is written: TYPE and body are free values (R491, log 65). -/
def State.putRecFree (s : State) (r : RecId) : State :=
  let n := (recPlace r).2.2 - 3
  (s.putRec r (freeBytes s.free n)).spend n

/-- CRITICAL_RECORD_UPDATE (R381): copy A chunk by chunk, and then copy B, unless copy A fails at its third write, whose two
retries maintenance pays (R377). The house kit pays for a wrapped key (07 R186, R188), maintenance for the rest. -/
def State.updateRec (s : State) (r : RecId) (body : List Byte) (copyAGood : Bool) : State :=
  if !s.belFree || s.bel.recq.head? != some r then s
  else
    let p := recPlace r
    let house := match r with | .key _ => true | _ => false
    let f := frameRec p.2.2 ((s.bel.genOf r + 1) % 256) body
    let mine := fun (l : List BelStep) => l.map fun x => { x with house := house }
    let s1 := { s with bel := { s.bel with recq := s.bel.recq.drop 1 } }
    if copyAGood then
      s1.belStart (mine (maintSteps false p.1 f (some (.half r))) ++ mine (maintSteps false p.2.1 f (some (.record r))))
    else
      -- which chunk of copy A failed is not told: all of its aligned chunks are undefined, neighbours in them included
      let n := chunksOf p.1 p.2.2
      let a := p.1 / 32 * 32
      s1.belStart (mine (List.replicate n ⟨false, false, .again, none⟩) ++
        [⟨false, false, .again, none⟩, ⟨false, false, .undefined a (32 * n), some (.recordFails r a)⟩])

/-! ### The event log (R382 to R386) -/

/-- A record of 16 bytes (Table 15.4). -/
def LogRec.bytes (r : LogRec) (seq : Nat) : List Byte :=
  let body := leBytes 2 r.code ++ leBytes 2 (seq % 4096 + 4096 * b2n r.tb) ++ leBytes 6 r.time ++ leBytes 4 r.arg
  body ++ leBytes 2 (crc16 body).toNat

/-- The records of the next chunk: LOGLOST first after drops, then the queue's oldest (R384). -/
def State.nextRecs (s : State) (n : Nat) : List LogRec × Nat :=
  let lost : List LogRec := if s.bel.lostNow == 0 then [] else [⟨0x0601, s.tb, s.logTime, s.bel.lostNow % 2 ^ 32, none⟩]
  let q := s.bel.logq.take (n - lost.length)
  (lost ++ q, q.length)

/-- A PAD record (R382). -/
def State.padRec (s : State) : LogRec := ⟨0x0000, s.tb, s.logTime, 0xFFFFFFFF, none⟩

/-- Whether this Beat has had its log chunk or shadow-log chord (R384, R385). -/
def State.logDone (s : State) : Bool := s.mode.timed && s.bel.logBeat == some s.bar.beatno

/-- Take the first records off the queue. -/
def State.takeRecs (s : State) (n : Nat) : State :=
  { s with bel := { s.bel with logq := s.bel.logq.drop n, logBeat := some s.bar.beatno } }

/-- The LOGLOST record of the drops so far was written (R384). -/
def State.lostTold (s : State) : State :=
  if s.bel.lostNow == 0 then s else ({ s with bel := { s.bel with lostNow := 0 } }).raise .bel 0x08

/-- The requests that wait for the records of a list, by place. -/
def waiters (rs : List LogRec) : List (Nat × Nat) :=
  ((List.range rs.length).zip rs).filterMap fun x => x.2.rid.map fun r => (r, x.1)

/-- EVENT_LOG_WRITE (R382, R384, R385): one chunk of two slots, whose write begins. The records of a chunk that fails are lost
(log 67). -/
def State.logWrite (s : State) (good : Bool) : State :=
  if !s.belFree || s.gen.logdeg || s.bel.logq.isEmpty || s.logDone then s
  else
    let rs := s.nextRecs 2
    let pad := if rs.1.length < 2 then [s.padRec] else []
    let seq := s.bel.seq
    let a := 0x4000 + 16 * (seq % 1024)
    let bytes := (((List.range 2).zip (rs.1 ++ pad)).map fun x => x.2.bytes (seq + x.1)).flatten
    let s1 := (s.takeRecs rs.2).spend (b2n s.tb)
    let s2 := { s1 with bel := { s1.bel with seq := (seq + 2) % 4096 } }
    let w := waiters rs.1
    if good then
      (s2.belStart [⟨false, false, .data a bytes, some (.log (w.map fun x => (x.1, (seq + x.2) % 4096)) s.bel.lostNow)⟩]).portGoes
    else
      (s2.belStart [⟨false, false, .again, none⟩, ⟨false, false, .again, none⟩,
        ⟨false, false, .undefined a 32, some (.logFails (w.map fun x => x.1) a)⟩]).portGoes

/-- The bytes that a shadow-log chord holds: its SRAM copy, else the chord as Main holds it, at one read token of
maintenance; a chord that cannot be read is fatal (R385, R386). -/
def State.shadowBase (s : State) (ch : Nat) : Option (Option (List Byte) × State) :=
  match s.bel.shadowCopy with
  | some (c, d) => if c == ch then some (some d, s) else s.maintToken.map fun t =>
      ((t.decodeAt (Config.shadowBase + ch)).value, t.readArray 3 (Config.shadowBase + ch))
  | none => s.maintToken.map fun t =>
      ((t.decodeAt (Config.shadowBase + ch)).value, t.readArray 3 (Config.shadowBase + ch))

/-- SHADOW_LOG_WRITE (R385): one full chord with every queued record that falls into it. -/
def State.shadowWrite (s : State) : State :=
  let h := s.bel.shadowHead
  let ch := h / 4
  let c := Config.shadowBase + ch
  if !s.gen.logdeg || s.bel.logq.isEmpty || s.logDone || !s.mode.traffic || s.completing || !s.maintFits (s.chordCost c)
  then s
  else match s.shadowBase ch with
    | none => s
    | some (none, s1) => if s1.knl.due.isEmpty then s1.fatal 0x05 h else s1
    | some (some base, s1) =>
      let rs := s1.nextRecs (4 - h % 4)
      let seq := s1.bel.seq
      let n := rs.1.length
      let new := (((List.range n).zip rs.1).map fun x => x.2.bytes (seq + x.1)).flatten
      let at_ := 16 * (h % 4)
      let data := base.take at_ ++ new ++ base.drop (at_ + 16 * n)
      let s2 := (s1.takeRecs rs.2).lostTold
      let b := { s2.bel with
        seq := (seq + n) % 4096, shadowHead := (h + n) % 4096, shadowWrapped := s2.bel.shadowWrapped || 4096 ≤ h + n,
        shadowCopy := some (ch, data) }
      let e := mkEntry (.shadow ((List.range n).map fun i => (h + i) % 4096)) none true 0 c data (s2.fullMask c)
        s2.bar.beatno
      (forEach (fun (x : Nat × Nat) (t : State) => t.recordGone x.1 ((h + x.2) % 4096) 1) (waiters rs.1)
        (({ s2 with bel := b }).pushEntry e)).queueRec .deviceState

/-! ### Margin-read refresh (R379) -/

/-- The refresh turn: Bar ÷ 16. -/
def State.turn (s : State) : Nat := s.barNo / 16

/-- A refresh step falls due at Beat 32 of every sixteenth Bar; one that has not begun by then is dropped and counted (02 Table
2.3, R47). -/
def State.refreshFalls (s : State) : State :=
  if s.beatIx == 32 && s.barNo % 16 == 0 then
    let b := s.bel
    let drop := if b.refreshDue.isSome then up32 b.refreshDrop 1 else b.refreshDrop
    { s with bel := { b with refreshDue := some s.turn, refreshDrop := drop } }
  else s

/-- BELFRY_REFRESH_STEP (R379): the step that is due begins at the free port. `weak` are the page's chunks whose two reads
differ, each rewritten with its own bytes, `stillWeak` those that still differ after their rewrite. The 16 reads come first,
20 ns each (R376). -/
def State.refreshStep (s : State) (weak stillWeak : BitVec 8) : State :=
  match s.bel.refreshDue with
  | none => s
  | some t =>
    if !s.belPaced || !s.belFree then s
    else
      let page := t % 256
      let cs := chunkList weak
      let s1 := { s with bel := { s.bel with refreshDue := none, busyPs := s.bel.busyPs + 320000 } }
      if cs.isEmpty then (s1.refreshEnds page stillWeak).portGoes
      else
        s1.belStart (((List.range cs.length).zip cs).map fun x =>
          ⟨false, true, .again, some (if x.1 + 1 == cs.length then .refresh page stillWeak else .weak)⟩)

/-- Whether an update of a record is in progress at the port. -/
def State.updating (s : State) (r : RecId) : Bool :=
  match s.bel.run with
  | some x => x.steps.any fun b => b.fin == some (.record r)
  | none => false

/-- The copies whose rewrite waited for Run or Degraded (R381). -/
def State.recsLater (s : State) : State :=
  let rs := s.bel.recLater
  (forEach (fun (r : RecId) (t : State) => t.readRec false r) rs { s with bel := { s.bel with recLater := [] } }).portGoes

/-! ### The rows -/

/-- BELFRY_READ (07 R194). -/
def execBelfryRead (rq : Req) (s : State) : Host.Outcome State Fault Refusal :=
  runReq (Instr.belfryRead rq).wf rq s fun j t => t.atPort (.read j.rid j.rq)
/-- BELFRY_WRITE (07 R195). -/
def execBelfryWrite (rq : Req) (s : State) : Host.Outcome State Fault Refusal :=
  runReq (Instr.belfryWrite rq).wf rq s fun j t => t.belWrite j
/-- BELFRY_SEAL_PAGES (07 R196). -/
def execBelfrySealPages (rq : Req) (s : State) : Host.Outcome State Fault Refusal :=
  runReq (Instr.belfrySealPages rq).wf rq s fun j t => t.atPort (.seal_ j.rid j.rq)
/-- BELFRY_SEAL_TEST (07 R196). -/
def execBelfrySealTest (rq : Req) (s : State) : Host.Outcome State Fault Refusal :=
  runReq (Instr.belfrySealTest rq).wf rq s fun j t => t.atPort (.seal_ j.rid j.rq)
/-- BELFRY_CHUNK_WRITE (R377). -/
def execBelfryChunkWrite (tries : Fin 3) (good : Bool) (s : State) : Host.Outcome State Fault Refusal :=
  .next (s.belSettle.chunkWrite tries.val good)
/-- CRITICAL_RECORD_UPDATE (R381). -/
def execCriticalRecordUpdate (r : RecId) (body : List Byte) (copyAGood : Bool) (s : State) :
    Host.Outcome State Fault Refusal := .next (s.belSettle.updateRec r body copyAGood).portGoes
/-- CRITICAL_RECORD_READ (R381). -/
def execCriticalRecordRead (r : RecId) (s : State) : Host.Outcome State Fault Refusal :=
  
  let t := s.belSettle
  .next (if t.belFree then (t.readRec false r).portGoes else t)
/-- EVENT_LOG_WRITE (R384). -/
def execEventLogWrite (good : Bool) (s : State) : Host.Outcome State Fault Refusal := .next (s.belSettle.logWrite good)
/-- SHADOW_LOG_WRITE (R385). -/
def execShadowLogWrite (s : State) : Host.Outcome State Fault Refusal := .next s.shadowWrite
/-- BELFRY_REFRESH_STEP (R379). -/
def execBelfryRefreshStep (weak stillWeak : BitVec 8) (s : State) : Host.Outcome State Fault Refusal :=
  if (Instr.belfryRefreshStep weak stillWeak).wf then .next (s.refreshStep weak stillWeak) else .fault .illFormed

end Sys2Proof.Machine
end

