-- ==== Sys2Proof/Machine/Repair.lean ====
section
/-! DEFINITION. Repair, spares and rejoining units (14; 07 R198, R199): transfers and their phases, the automatic triggers'
queue, resilvering, spare lanes and lane rejoin. -/

namespace Sys2Proof.Machine

/-! ### Units (R352, R360, R372) -/

/-- Unit codes of R372. -/
def unitCode : UnitKind → Nat
  | .die => 1
  | .bank => 2
  | .lane => 3
  | .row => 4
  | .column => 5

/-- Spare rows per bank (Table 14.1). -/
def spareRows : Nat := 64

/-- A transfer just started (R360). -/
def mkRun (kind : UnitKind) (die bank row lane role : Nat) (resilver : Bool) (now : Nat) : Transfer :=
  { kind := kind, die := die, bank := bank, row := row, lane := lane, role := role, resilver := resilver, phase := 1,
    cursor := 0, after := 0, tries := 0, start := now, heldBeats := 0, late := [] }

/-- The record of a unit (R355, R372). -/
def Transfer.rec_ (t : Transfer) : FaultRec :=
  match t.kind with
  | .column => ⟨5, t.die, t.bank, 0, t.row, t.lane, none⟩
  | .row => ⟨4, t.die, t.bank, t.row, 0, 0, none⟩
  | k => ⟨unitCode k, t.die, t.bank, 0, 0, 0, none⟩

/-- Bytes 10 to 15 of REPDONE and REPFAIL (R372). -/
def FaultRec.arg (f : FaultRec) : Nat :=
  f.kind + 2 ^ 8 * f.die + 2 ^ 16 * (if f.kind == 3 then f.lane else f.bank)
    + 2 ^ 24 * (if f.kind == 5 then f.colgrp + 256 * f.lane else if f.kind == 4 then f.row else 0)

/-- Whether a transfer of a kind runs or waits to start again (R364). -/
def State.running (s : State) (k : UnitKind) : Bool := s.rep.runs.any fun t => t.kind == k

/-- The transfer of a kind. -/
def State.runOf (s : State) (k : UnitKind) : Option Transfer := s.rep.runs.find? fun t => t.kind == k

/-- Change the transfer of a kind. -/
def State.updRun (s : State) (k : UnitKind) (f : Transfer → Transfer) : State :=
  { s with rep := { s.rep with runs := updWhere (fun t => t.kind == k) f s.rep.runs } }

/-- Remove the transfer of a kind. -/
def State.endRun (s : State) (k : UnitKind) : State :=
  { s with rep := { s.rep with runs := s.rep.runs.filter fun t => t.kind != k } }

/-- Add a transfer. -/
def State.addRun (s : State) (t : Transfer) : State := { s with rep := { s.rep with runs := s.rep.runs ++ [t] } }

/-- Spare rows of a bank used so far. -/
def Rep.usedRows (r : Rep) (die bank : Nat) : Nat :=
  match r.rowsUsed.find? fun x => x.1 == die && x.2.1 == bank with
  | some x => x.2.2
  | none => 0

/-- Whether the spare lane of a column group is used. -/
def Rep.colUsed (r : Rep) (die bank grp : Nat) : Bool := r.colsUsed.contains (die, bank, grp)

/-- Count the spare that a row or column repair takes (REP_USED, REP_SPARE_LOW). -/
def Rep.useSpare (r : Rep) (f : FaultRec) : Rep :=
  if f.kind == 4 then
    { r with rowsUsed := (f.die, f.bank, r.usedRows f.die f.bank + 1) ::
               r.rowsUsed.filter (fun x => !(x.1 == f.die && x.2.1 == f.bank)),
             used := (up16 r.used.1 1, r.used.2) }
  else if f.kind == 5 then
    { r with colsUsed := (f.die, f.bank, f.colgrp) :: r.colsUsed, used := (r.used.1, up16 r.used.2 1) }
  else r

/-- Whether a repair covers an open fault, which then closes (R372). -/
def FaultRec.covers (f x : FaultRec) : Bool :=
  match f.kind with
  | 4 => x.die == f.die && x.bank == f.bank && x.row == f.row && x.kind == 4
  | 5 => x.die == f.die && x.bank == f.bank && x.colgrp == f.colgrp && x.lane == f.lane
  | _ => false

/-- A repair ends: its event, its EVENT packet and its Tally record (R372, 18 Table 18.6). -/
def State.repairEvent (s : State) (done : Bool) (f : FaultRec) : State :=
  ((s.raise .rep (if done then 0x04 else 0x08)).notifyKit 0 (if done then 0x0400 else 0x0401) f.arg).tally 0x52 none
    (f.arg + 2 ^ 48 * b2n (!done))

/-- A repair is complete: its spare is used, its record pair written, the faults it covers closed (R355, R372). -/
def State.repairDone (s : State) (f : FaultRec) : State :=
  let r := { s.rep.useSpare f with recs := s.rep.recs ++ [f], faults := s.rep.faults.filter fun x => !f.covers x }
  (({ s with rep := r }).repairPair).repairEvent true f

/-- Whether the field repair map takes one more row or column repair, or one more of the other kinds (R355). -/
def Rep.mapRoom (r : Rep) (rowcol : Bool) : Bool := r.map < (if rowcol then 120 else Config.mapPairs)

/-- Whether a unit of a die holds no live symbols: the die serves no role, its role is out, or its bank is out (R364). -/
def Rep.noLive (r : Rep) (die bank : Nat) : Bool :=
  !r.serves die || r.rolesOut &&& r.rolesOf die != 0 || r.bankOut die bank

/-- The repair of a row or column starts: at once where the unit holds no live symbols (R364). -/
def State.startUnit (s : State) (f : FaultRec) : State :=
  if s.rep.noLive f.die f.bank then s.repairDone f
  else if f.kind == 4 then s.addRun (mkRun .row f.die f.bank f.row 0 15 false s.bar.beatno)
  else s.addRun (mkRun .column f.die f.bank f.colgrp f.lane 15 false s.bar.beatno)

/-- Resilvering of a role onto the hot spare starts (R365); a saved cursor of that role is taken up (R366). -/
def State.startResilver (s : State) (role : Nat) : State :=
  match s.rep.spare with
  | none => s
  | some d =>
    let from_ := match s.rep.savedRes with
      | some x => if x.1 == role then x.2 else 0
      | none => 0
    s.addRun { mkRun .die d.val 0 0 0 role true s.bar.beatno with cursor := from_ }

/-! ### Triggers (R358) -/

/-- The kind of transfer that a queued repair needs. -/
def FaultRec.unit (f : FaultRec) : UnitKind := if f.kind == 5 then .column else .row

/-- One queued repair (R358): started if its kind is free, dropped if it is in place or cannot be made; a row repair in a
bank without a spare row takes the bank out (Table 14.2). -/
def State.tryQueued (f : FaultRec) (s : State) : State :=
  let drop := fun (t : State) => { t with rep := { t.rep with queue := t.rep.queue.filter fun g => g.2 != f } }
  let die : Fin 11 := ⟨f.die % 11, Nat.mod_lt _ (by decide)⟩
  if s.rep.recs.contains f || !s.rep.mapRoom true then drop s
  else if f.kind == 4 && spareRows ≤ s.rep.usedRows f.die f.bank then (drop s).bankGoesOut die f.bank
  else if f.kind == 5 && s.rep.colUsed f.die f.bank f.colgrp then drop s
  else if s.running f.unit then s
  else (drop s).startUnit f

/-- The automatic repairs that may start (Table 14.2): the queue in order, then resilvering. -/
def State.autoRepairs (s : State) : State :=
  let s1 := forEach (fun (f : Nat × FaultRec) (t : State) => t.tryQueued f.2) s.rep.queue s
  if s1.rep.autodie && s1.rep.rolesOut != 0 && s1.rep.spare.isSome && !s1.running .die && s1.rep.mapRoom false then
    s1.startResilver s1.rep.roleOutNo
  else s1

/-- At a Beat boundary a transfer started before it, or abandoned, enters its shadow and rebuild (R360, R364). -/
def State.runsStart (s : State) : State :=
  if s.mode == .run || s.mode == .degraded || s.mode == .freewheel then
    let go := fun (t : Transfer) => { t with phase := 2, start := s.bar.beatno }
    { s with rep := { s.rep with runs := updWhere (fun t => t.phase ≤ 1) go s.rep.runs } }
  else s

/-- What is left of a transfer at power loss, a full reset, a Knell, CLOSE or entry into Rest: it starts again from its
first phase, a resilvering from its saved cursor (R364, R366). -/
def State.abandonRuns (s : State) : State :=
  let saved := fun (t : Transfer) => match s.rep.savedRes with
    | some x => if x.1 == t.role then x.2 else 0
    | none => 0
  let f := fun (t : Transfer) =>
    { t with phase := 0, after := 0, late := [], cursor := if t.resilver then saved t else 0 }
  { s with rep := { s.rep with runs := s.rep.runs.map f } }

/-! ### Rebuild and verify (R360 to R365) -/

/-- The slices that rebuild reads and decodes: for a resilvering the role counts as an erasure (R365). -/
def State.rebuildView (s : State) (t : Transfer) (c : Nat) : ChordOut :=
  if t.resilver then
    let outs := (List.range 10).filter fun r => s.roleOut c r || r == t.role
    decodeChord outs (((List.range 10).zip (s.seenChord c)).map fun x => if x.1 == t.role then zeros 8 else x.2)
  else s.decodeAt c

/-- The slices of a chord as decode leaves them: encoded data, or the marker for a poisoned chord (R362). -/
def ChordOut.slices (o : ChordOut) : List (List Byte) := if o.poisoned then markerSlices else encodeChord o.data

/-- Whether another role of a chord than the one being rebuilt is erased: nothing is rebuilt for it (R368). -/
def State.twoErased (s : State) (t : Transfer) (c : Nat) : Bool := (s.outsAt c).any fun r => r != t.role

/-- One chord rebuilt: read, decoded, and, while resilvering, its slice written into the spare (R360, R365). A plain
transfer's new unit takes its content at switchover (log 62). Its one pulse counts as wear (03 R85). -/
def State.rebuildChord (s : State) (t : Transfer) (c : Nat) : State :=
  let o := s.rebuildView t c
  let s1 := s.readArray 3 c
  let die : Fin 11 := ⟨t.die % 11, Nat.mod_lt _ (by decide)⟩
  let stk := { s1.stk with pulses := s1.stk.pulses.set die (s1.stk.pulses[die] + 1),
                           writes := s1.stk.writes.set die (s1.stk.writes[die] + 1) }
  if t.resilver && s.twoErased t c then s1
  else if t.resilver then
    { s1 with mram := cellsWrite s1.mram (sliceAddr t.die c) (o.slices.getD t.role []), stk := stk }
  else { s1 with stk := stk }

/-- One funded rebuild group: the first transfer in rebuild with a chord to do, at one read token (R361). -/
def State.rebuildOne (s : State) : State :=
  match s.rebuildPick s.rep.runs with
  | none => s
  | some (t, c, t1) =>
    match s.maintToken with
    | none => s
    | some s1 => (s1.rebuildChord t c).updRun t.kind fun _ => t1

/-- Verify of one chord of a plain transfer (R363): read and decoded with the new unit in place. -/
def State.verifyOne (s : State) : State :=
  match s.rep.runs.find? fun t => t.phase == 3 && !t.resilver && !(t.kind == .die && t.role == 15) with
  | none => s
  | some t =>
    if t.size ≤ t.cursor then s
    else match s.maintToken with
      | none => s
      | some s1 => (s1.readArray 3 (t.chord t.cursor)).updRun t.kind fun x => { x with cursor := x.cursor + 1 }

/-- Verify `n` chords. -/
def verifySome : Nat → State → State
  | 0, s => s
  | n + 1, s => verifySome n s.verifyOne

/-- Whether a transfer's verify has ended by this Beat: a resilvering's two Beats after its last rebuild group (R365), a
checked die's at once (R367), a plain transfer's with its last chord. -/
def Transfer.verified (t : Transfer) : Bool :=
  if t.resilver then 2 ≤ t.after else if t.kind == .die && t.role == 15 then true else t.size ≤ t.cursor

/-- The phases of a transfer move on at a Beat boundary (R360). A verify that ends in a Downbeat's own Beat waits for the
next Downbeat, so phase 4 is entered in other Beats alone. -/
def State.phasesGoOn (s : State) : State :=
  let f := fun (t : Transfer) =>
    if t.phase == 2 && ((t.size ≤ t.cursor && t.late.isEmpty) || (t.kind == .die && t.role == 15)) then
      { t with phase := 3, cursor := if t.resilver then t.cursor else 0, after := 1 }
    else if t.phase == 3 then
      let t1 := { t with after := 2 }
      if t1.verified && s.beatIx != 0 then { t1 with phase := 4 } else t1
    else t
  { s with rep := { s.rep with runs := s.rep.runs.map f } }

/-- A Beat of the transfers: held while WRHOLD is set (20 R480), else `n` funded rebuild groups and verify reads up to
RB_MAX in all (R361). -/
def State.transfersGoOn (s : State) (n : Nat) : State :=
  if s.pwr.wrhold then
    let held := fun (t : Transfer) => { t with heldBeats := t.heldBeats + 1 }
    { s with rep := { s.rep with runs := s.rep.runs.map held } }
  else
    let s1 := forEach (fun (_ : Nat) (t : State) => t.rebuildOne) (List.range n) s
    verifySome (s.rep.rbMax - n) s1

/-! ### Switchover and failure (R360, R363, R365) -/

/-- A valid Downbeat begins this Beat. -/
def State.atDownbeat (s : State) : Bool := s.mode.timed && s.beatIx == 0 && s.bar.barMarked

/-- Run follows Degraded at the Downbeat at which no role and no bank is out (R359). -/
def State.backToRun (s : State) : State :=
  if s.mode == .degraded && !s.rep.degraded then s.enter .run 0x12 else s

/-- The part of a decoded slice that lies in the unit: one byte of a column, else the whole slice (R352). -/
def Transfer.part (t : Transfer) (slice : List Byte) : Nat × List Byte :=
  if t.kind == .column then (t.lane % 8, (slice.drop (t.lane % 8)).take 1) else (0, slice)

/-- The listed chords of a unit take the decoded symbols of the unit's die (R360, log 62). -/
def State.rewriteUnit (s : State) (t : Transfer) : State :=
  let chords := ((s.mram.map fun x => x.1 % 2 ^ 31 / 8).filter fun c => t.touches s.rep c).eraseDups
  let roles := (List.range 10).filter fun r => s.rep.phys r == t.die
  let put := fun (m : List Host.Cell) (c : Nat) =>
    let sl := (s.decodeAt c).slices
    roles.foldl (fun m r => cellsWrite m (sliceAddr t.die c + (t.part (sl.getD r [])).1) (t.part (sl.getD r [])).2) m
  { s with mram := chords.foldl put s.mram }

/-- SHADOW_SWITCHOVER (R360): at the first Downbeat after verify the new unit takes the old one's place; a die that
passed its checks becomes the hot spare as soon as they end (R367). -/
def State.switchover (s : State) (k : UnitKind) : State :=
  match s.runOf k with
  | none => s
  | some t =>
    let d : Fin 11 := ⟨t.die % 11, Nat.mod_lt _ (by decide)⟩
    if t.phase != 4 || t.resilver then s
    else if t.kind == .die && t.role == 15 then
      let r := { (s.endRun k).rep with spare := some d, spareFailed := false }
      ({ s with rep := r }).repairDone t.rec_
    else if !s.atDownbeat then s
    else match k with
      | .row => ((s.rewriteUnit t).endRun k).repairDone t.rec_
      | .column => ((s.rewriteUnit t).endRun k).repairDone t.rec_
      | .lane => s
      | .bank =>
        let s1 := (s.rewriteUnit t).endRun k
        let b := s1.rep.banks[d] &&& ~~~ BitVec.ofNat 32 (2 ^ t.bank)
        (({ s1 with rep := { s1.rep with banks := s1.rep.banks.set d b } }).repairDone t.rec_).backToRun
      | .die =>
        let s1 := (s.rewriteUnit t).endRun k
        let roles := s1.rep.rolesOut &&& ~~~ s1.rep.rolesOf t.die
        (({ s1 with rep := { s1.rep with rolesOut := roles } }).repairDone t.rec_).backToRun

/-- RESILVER_SWITCHOVER (R365): the spare takes the role, and REP_ROLE and its record pair say so. -/
def State.resilverOver (s : State) : State :=
  match s.rep.resilver with
  | none => s
  | some t =>
    if t.phase != 4 || !s.atDownbeat then s
    else
      let d : Fin 11 := ⟨t.die % 11, Nat.mod_lt _ (by decide)⟩
      let old := s.rep.phys t.role
      let r0 := (s.endRun t.kind).rep
      let r := { r0 with
        role := r0.role.set! t.role d, spare := none, savedRes := none,
        rolesOut := r0.rolesOut &&& ~~~ BitVec.ofNat 10 (2 ^ t.role),
        resilBeats := min (2 ^ 32 - 1) (elapsed t.start s.bar.beatno),
        faults := r0.faults.filter fun f => f.die != old }
      (({ s with rep := r }).repairDone t.rec_).backToRun

/-- TRANSFER_FAIL (R363, R365): the new unit is used and bad; the next spare of the kind is tried, at most twice. -/
def State.transferFails (s : State) (k : UnitKind) : State :=
  match k with
  | .lane =>
    forEach (fun (r : Ring) (t : State) =>
      let x := t.ring r
      match x.rejoin with
      | some (lane, _) =>
        (t.setRing r { x with rejoin := none }).repairEvent false
          ⟨3, (match r with | .a => 0 | .b => 1), 0, 0, 0, lane.toNat, none⟩
      | none => t) bothRings s
  | _ =>
    match s.runOf k with
    | none => s
    | some t =>
      if t.phase != 3 && !(t.resilver && t.phase == 2) then s
      else if t.resilver then
        let r := { (s.endRun k).rep with spare := none, spareFailed := true, savedRes := none }
        ({ s with rep := r }).repairEvent false t.rec_
      else
        let s1 := { s with rep := s.rep.useSpare t.rec_ }
        let more := match k with
          | .row => s1.rep.usedRows t.die t.bank < spareRows
          | _ => false
        let s2 := if more && t.tries < 2 then
            s1.updRun k fun x => { x with phase := 1, cursor := 0, late := [], tries := x.tries + 1, start := s.bar.beatno }
          else s1.endRun k
        s2.repairEvent false t.rec_

/-- RESILVER_SLOW (R365). -/
def State.resilverLate (s : State) : State := if s.rep.resilver.isSome then s.raise .rep 0x80 else s

/-- DIE_OUT (R359). -/
def State.unitOut (s : State) (u : OutUnit) : State :=
  match u with
  | .die d => s.dieGoesOut d
  | .bank d b => s.bankGoesOut d b.toNat

/-! ### REPAIR_QUERY (07 R198) -/

/-- A record of 16 bytes (16 Table 16.5). A record that comes from no Toll has no PART, SRC, bit, measured value and
TOLL_COUNT stated: free values (log 63). -/
def FaultRec.bytes (f : FaultRec) (free : Nat) : List Byte :=
  match f.raw with
  | some b => b
  | none =>
    let body := [Config.freeByte free, BitVec.ofNat 8 (16 * f.kind + (Config.freeByte (free + 1)).toNat % 4),
        BitVec.ofNat 8 f.die, BitVec.ofNat 8 f.bank] ++ leBytes 2 f.row ++
      [BitVec.ofNat 8 f.colgrp, BitVec.ofNat 8 f.lane] ++ freeBytes (free + 2) 6
    body ++ leBytes 2 (crc16 body).toNat

/-- The records of a view: factory repairs, field repairs, open faults (R198). -/
def Rep.view (r : Rep) (v : Nat) : List FaultRec := if v == 0 then r.factory else if v == 1 then r.recs else r.faults

/-- REPAIR_QUERY (R198). -/
def State.repairQuery (s : State) (j : Job) : State :=
  let first := pb j.rq 10 + 256 * pb j.rq 11
  let out := ((s.rep.view (pb j.rq 8)).drop first).take (lenOf j.rq / 16)
  let bytes := (((List.range out.length).zip out).map fun x => x.2.bytes (s.free + 8 * x.1)).flatten
  j.answer (s.spend (8 * out.length)) (ansData bytes out.length)

/-! ### REPAIR_APPLY (07 R199) -/

/-- OK, BUSY resource 2, or BAD_PARAM naming ACTION (R199). -/
def Job.started (j : Job) (s : State) : State := j.reply s 0x00 0
/-- See `started`. -/
def Job.busy (j : Job) (s : State) : State := j.reply s 0x11 2
/-- See `started`. -/
def Job.noSpare (j : Job) (s : State) : State := j.reply s 0x31 (detHdr 8)

/-- Action 1: a spare row (R360, R364). -/
def State.applyRow (s : State) (j : Job) : State :=
  let f : FaultRec := ⟨4, pb j.rq 9, pb j.rq 10, pb j.rq 11 + 256 * pb j.rq 12, 0, 0, none⟩
  if s.rep.recs.any fun x => x.kind == 4 && x.die == f.die && x.bank == f.bank && x.row == f.row then j.started s
  else if s.running .row then j.busy s
  else if spareRows ≤ s.rep.usedRows f.die f.bank || !s.rep.mapRoom true then j.noSpare s
  else j.started (s.startUnit f)

/-- The byte lane that a column repair names: that of the first open fault in the group, else 0 (log 60). -/
def Rep.faultLane (r : Rep) (die bank grp : Nat) : Nat :=
  match r.faults.find? fun f => f.die == die && f.bank == bank && f.colgrp == grp with
  | some f => f.lane
  | none => 0

/-- Action 2: a spare column (R360, R364). -/
def State.applyColumn (s : State) (j : Job) : State :=
  let die := pb j.rq 9
  let bank := pb j.rq 10
  let grp := pb j.rq 11
  let f : FaultRec := ⟨5, die, bank, 0, grp, s.rep.faultLane die bank grp, none⟩
  if s.rep.recs.any fun x => x.kind == 5 && x.die == die && x.bank == bank && x.colgrp == grp && x.lane == f.lane then
    j.started s
  else if s.running .column then j.busy s
  else if s.rep.colUsed die bank grp || !s.rep.mapRoom true then j.noSpare s
  else j.started (s.startUnit f)

/-- Whether a role has moved to the die that was the hot spare, which is no spare any more (R199, R353). -/
def Rep.moved (r : Rep) (role : Nat) : Bool := r.spare.isNone && r.phys role != role

/-- Action 3: a role onto the hot spare (R365). -/
def State.applyDie (s : State) (j : Job) : State :=
  if s.rep.moved (pb j.rq 9) then j.started s
  else if s.running .die then j.busy s
  else if s.rep.spare.isNone || !s.rep.mapRoom false then j.noSpare s
  else j.started (s.startResilver (pb j.rq 9))

/-- The ring that a target byte names. -/
def ringNo (n : Nat) : Ring := if n == 1 then .b else .a

/-- Whether a lane operation runs on either ring. -/
def State.laneRuns (s : State) : Bool :=
  bothRings.any fun r => !(s.ring r).remaps.isEmpty || (s.ring r).rejoin.isSome

/-- Action 4: a spare lane (R369). -/
def State.applyLane (s : State) (j : Job) : State :=
  let r := ringNo (pb j.rq 9)
  let lane := BitVec.ofNat 4 (pb j.rq 10)
  if (s.ring r).mapped lane then j.started s
  else if s.laneRuns then j.busy s
  else if ((s.ring r).freeSpare 0).isNone || !s.rep.mapRoom false then j.noSpare s
  else j.started (s.startRemap r lane 0)

/-- Action 5 with unit kind 1 or 2 (R367). -/
def State.applyRejoin (s : State) (j : Job) : State :=
  let d := pb j.rq 10
  let die : Fin 11 := ⟨d % 11, Nat.mod_lt _ (by decide)⟩
  if pb j.rq 9 == 2 then
    if !s.rep.bankOut d (pb j.rq 11) then j.started s
    else if s.running .bank then j.busy s
    else if !s.rep.mapRoom false then j.noSpare s
    else j.started (s.addRun (mkRun .bank d (pb j.rq 11) 0 0 15 false s.bar.beatno))
  else if !s.rep.serves d then
    if s.rep.spare.isSome then j.started s
    else if s.running .die then j.busy s
    else if !s.rep.mapRoom false then j.noSpare s
    else j.started (s.addRun (mkRun .die die.val 0 0 0 15 false s.bar.beatno))
  else if s.rep.rolesOut &&& s.rep.rolesOf d == 0 then j.started s
  else if s.running .die then j.busy s
  else if !s.rep.mapRoom false then j.noSpare s
  else
    let role := ((List.range 10).find? fun r => s.rep.phys r == d).getD 0
    j.started (s.addRun (mkRun .die d 0 0 0 role false s.bar.beatno))

/-- Action 5 with unit kind 3: a data lane returns from its spare (R370). -/
def State.applyLaneRejoin (s : State) (j : Job) : State :=
  let r := ringNo (pb j.rq 10)
  let lane := BitVec.ofNat 4 (pb j.rq 11)
  if !(s.ring r).mapped lane then j.started s
  else if s.laneRuns then j.busy s
  else if !s.rep.mapRoom false then j.noSpare s
  else j.started (s.setRing r { s.ring r with rejoin := some (lane, s.barNo + 1) })

/-! ### Lanes (04 R96, R97; R370; 05 R125) -/

/-- A lane record of the repair map (R355, R372). -/
def laneRec (r : Ring) (lane : BitVec 4) : FaultRec :=
  ⟨3, (match r with | .a => 0 | .b => 1), 0, 0, 0, lane.toNat, none⟩

/-- The LANE requests for a lane that have had their effect leave the mailbox list (05 R125). -/
def RingSt.dropLane (x : RingSt) (lane : BitVec 4) : RingSt :=
  let other := fun (m : MailReq) => match m with | .lane l _ _ => l != lane | .leave => true
  { x with mail := x.mail.filter fun m => other m.1, mailOut := x.mailOut.filter other }

/-- A comparison of a lane ends. -/
def RingSt.endRemap (x : RingSt) (lane : BitVec 4) : RingSt :=
  { x.dropLane lane with remaps := x.remaps.filter fun m => m.lane != lane }

/-- LANE_REMAP_SWITCH (R96, R97): after a Bar of comparison, 1,024 Beats from the request, at a Beat boundary, the receiver
switches to the spare; a spare that fails leaves the other to be tried. Lanes that wait for a spare then ask again. -/
def State.remapSwitch (s : State) (r : Ring) (lane : BitVec 4) (passed : Bool) : State :=
  let x := s.ring r
  match x.remaps.find? fun m => m.lane == lane with
  | none => s
  | some m =>
    if elapsed m.since s.bar.beatno < 1024 then s
    else
      let x1 := x.endRemap lane
      if passed then
        let x2 := { x1 with rx := setSpare x1.rx m.spare ⟨some lane, true⟩, badKept := x1.badKept ||| laneMask lane }
        (((s.setRing r x2).raise (.lnk r) 0x02).repairDone (laneRec r lane)).askMirrors r
      else
        ((s.setRing r x1).startRemap r lane (m.tried ||| BitVec.ofNat 2 (if m.spare then 2 else 1))).askMirrors r

/-- LANE_REJOIN_SWITCH (R370): after LANEV error-free Bars, at a Downbeat, the receiver returns to the lane, a LANE request
stops the mirror, and the spare is free. -/
def State.rejoinSwitch (s : State) (r : Ring) : State :=
  let x := s.ring r
  match x.rejoin with
  | none => s
  | some (lane, bar) =>
    if !s.atDownbeat || !barReached ((bar + s.rep.lanev) % 2 ^ 38) s.barNo then s
    else
      let second := (x.spareFor lane).getD false
      let x1 := { x with rx := setSpare x.rx second Spare.none_, rejoin := none,
                         bad := x.bad &&& ~~~ laneMask lane, badKept := x.badKept &&& ~~~ laneMask lane,
                         mail := x.mail ++ [(.lane lane second false, s.bar.beatno)],
                         mailOut := x.mailOut ++ [.lane lane second false] }
      ((s.setRing r x1).repairDone (laneRec r lane)).askMirrors r

/-- LANE_REQUEST (R96): the downstream neighbour's mirror starts or stops, recorded in LNKx_TXMAP. -/
def State.laneAsked (s : State) (r : Ring) (lane : BitVec 4) (spare start : Bool) : State :=
  let x := s.ring r
  if !x.swOpen then s
  else s.setRing r { x with tx := setSpare x.tx spare (if start then ⟨some lane, true⟩ else Spare.none_) }

/-- A request that stops a mirror. -/
def MailReq.stops : MailReq → Bool
  | .lane _ _ start => !start
  | .leave => false

/-- MAILBOX_RESEND (05 R125): each request without effect for 64 Beats is sent again. The stop of a mirror shows no effect to
the device: it counts as taken once it has left (DEDUCED, log 114). -/
def State.mailAgain (s : State) (r : Ring) : State :=
  let x := s.ring r
  let now := s.bar.beatno
  let late := fun (m : MailReq × Nat) => decide (64 ≤ elapsed m.2 now)
  let gone := fun (m : MailReq × Nat) => late m && m.1.stops && !x.mailOut.contains m.1
  let kept := x.mail.filter fun m => !gone m
  let again := ((kept.filter late).map fun m => m.1).filter fun m => !x.mailOut.contains m
  s.setRing r { x with mail := updWhere late (fun m => (m.1, now)) kept, mailOut := x.mailOut ++ again }

/-! ### The rows -/

/-- REPAIR_QUERY (R198). -/
def execRepairQuery (rq : Req) (s : State) : Host.Outcome State Fault Refusal :=
  runReq (Instr.repairQuery rq).wf rq s fun j t => t.repairQuery j
/-- REPAIR_APPLY_SPARE_ROW (R360). -/
def execRepairApplySpareRow (rq : Req) (s : State) : Host.Outcome State Fault Refusal :=
  runReq (Instr.repairApplySpareRow rq).wf rq s fun j t => t.applyRow j
/-- REPAIR_APPLY_SPARE_COLUMN (R360). -/
def execRepairApplySpareColumn (rq : Req) (s : State) : Host.Outcome State Fault Refusal :=
  runReq (Instr.repairApplySpareColumn rq).wf rq s fun j t => t.applyColumn j
/-- REPAIR_APPLY_SPARE_DIE (R365). -/
def execRepairApplySpareDie (rq : Req) (s : State) : Host.Outcome State Fault Refusal :=
  runReq (Instr.repairApplySpareDie rq).wf rq s fun j t => t.applyDie j
/-- REPAIR_APPLY_SPARE_LANE (R369). -/
def execRepairApplySpareLane (rq : Req) (s : State) : Host.Outcome State Fault Refusal :=
  runReq (Instr.repairApplySpareLane rq).wf rq s fun j t => t.applyLane j
/-- REPAIR_APPLY_SHADOW_REJOIN (R367). -/
def execRepairApplyShadowRejoin (rq : Req) (s : State) : Host.Outcome State Fault Refusal :=
  runReq (Instr.repairApplyShadowRejoin rq).wf rq s fun j t => t.applyRejoin j
/-- REPAIR_APPLY_LANE_REJOIN (R370). -/
def execRepairApplyLaneRejoin (rq : Req) (s : State) : Host.Outcome State Fault Refusal :=
  runReq (Instr.repairApplyLaneRejoin rq).wf rq s fun j t => t.applyLaneRejoin j
/-- DIE_OUT (R359). -/
def execDieOut (u : OutUnit) (s : State) : Host.Outcome State Fault Refusal := .next (s.unitOut u)
/-- SHADOW_SWITCHOVER (R360). -/
def execShadowSwitchover (k : UnitKind) (s : State) : Host.Outcome State Fault Refusal := .next (s.switchover k)
/-- TRANSFER_FAIL (R363). -/
def execTransferFail (k : UnitKind) (s : State) : Host.Outcome State Fault Refusal := .next (s.transferFails k)
/-- RESILVER_SWITCHOVER (R365). -/
def execResilverSwitchover (s : State) : Host.Outcome State Fault Refusal := .next s.resilverOver
/-- RESILVER_SLOW (R365). -/
def execResilverSlow (s : State) : Host.Outcome State Fault Refusal := .next s.resilverLate
/-- LANE_REMAP_SWITCH (R96). -/
def execLaneRemapSwitch (r : Ring) (lane : BitVec 4) (passed : Bool) (s : State) : Host.Outcome State Fault Refusal :=
  .next (s.remapSwitch r lane passed)
/-- LANE_REJOIN_SWITCH (R370). -/
def execLaneRejoinSwitch (r : Ring) (s : State) : Host.Outcome State Fault Refusal := .next (s.rejoinSwitch r)
/-- LANE_REQUEST (R96). -/
def execLaneRequest (r : Ring) (lane : BitVec 4) (spare start : Bool) (s : State) : Host.Outcome State Fault Refusal :=
  .next (s.laneAsked r lane spare start)
/-- MAILBOX_RESEND (R125). -/
def execMailboxResend (r : Ring) (s : State) : Host.Outcome State Fault Refusal := .next (s.mailAgain r)

end Sys2Proof.Machine
end

