-- ==== Sys2Proof/Machine/Tolls.lean ====
section
/-! DEFINITION. Tolls (16): result and summary records, the Toll ring, TOLL_RUN beside traffic; and the Tally commands (07
R200, R201; 18 R437 to R446) with KNELL_READ (07 R202). -/

namespace Sys2Proof.Machine

/-! ### Result records (R401 to R403) -/

/-- A failure record (Table 16.5). -/
def failBytes (f : TollFail) (src count : Nat) : List Byte :=
  let b := [f.part, BitVec.ofNat 8 (src + 16 * f.kind.toNat), f.unit, f.bank] ++ leBytes 2 f.row.toNat ++
    [BitVec.ofNat 8 f.colgrp.toNat, BitVec.ofNat 8 f.lane.toNat,
     (match f.bit with | some x => BitVec.ofNat 8 (128 + x.toNat) | none => 0), f.value] ++ leBytes 4 count
  b ++ leBytes 2 (crc16 b).toNat

/-- A summary record (Table 16.5): result 0 pass, 1 fail, 2 fatal. -/
def tollSummary (src result written dropped us count : Nat) : List Byte :=
  let b := [0xF0, BitVec.ofNat 8 (src + 4 * result), BitVec.ofNat 8 written, BitVec.ofNat 8 (min 255 dropped)]
    ++ leBytes 3 us ++ zeros 3 ++ leBytes 4 count
  b ++ leBytes 2 (crc16 b).toNat

/-- Slots of the Toll ring (R402). -/
def tollSlots : Nat := 864

/-- The next slot: the one after the last summary, slot 0 while there is none (R402). -/
def State.tollNext (s : State) : Nat := if s.toll.summary == 0x3FF then 0 else (s.toll.summary + 1) % tollSlots

/-- The chunk writes of records in the ring from a slot on, two records to an aligned chunk, in the slots given modulo 864
(R402). -/
def tollSteps (slot : Nat) (rs : List (List Byte)) : List BelStep :=
  let room := tollSlots - slot
  let at_ := fun (n : Nat) (l : List (List Byte)) => if l.isEmpty then [] else maintSteps false (202 * 256 + 16 * n) l.flatten none
  at_ slot (rs.take room) ++ at_ 0 (rs.drop room)

/-- The records of a Toll enter the ring: as an operation of the port in ring time, else at once (15 R376, R377). -/
def State.tollPut (s : State) (slot : Nat) (rs : List (List Byte)) : State := s.atPort (.steps (tollSteps slot rs))

/-- The open fault that a result record becomes: KIND 4, 5 and 6, a sacrificial row excepted (R403). -/
def failFault (f : TollFail) (src count : Nat) : Option FaultRec :=
  let k := f.kind.toNat
  if (k == 4 || k == 5 || k == 6) && !(f.part == 0x10) then
    some ⟨k, f.unit.toNat, f.bank.toNat, f.row.toNat, f.colgrp.toNat, f.lane.toNat, some (failBytes f src count)⟩
  else none

/-- Hold failure records in the 64 flip-flops; the rest is dropped and counted (R402). -/
def State.holdFails (s : State) (fs : List TollFail) : State :=
  let all := s.toll.recs ++ fs
  let t := { s.toll with recs := all.take 64, recDrop := s.toll.recDrop + (all.length - 64) }
  let s1 := { s with toll := t }
  if 64 < all.length then s1.raise .toll 0x08 else s1

/-- A Toll begins: its failure records are empty, and TOLL_COUNT counts it (R402, log 69). -/
def State.tollBegin (s : State) : State :=
  { s with toll := { s.toll with recs := [], recDrop := 0, count := up32 s.toll.count 1 } }

/-- A Toll ends: its records, then its summary, enter the ring; a TOLL event record names each failure (R394, R401, R402).
The faults of a Morning or Evening Toll are kept for the open-fault list (R403). -/
def State.tollEnd (s : State) (src : Nat) (fatal : Bool) (us : Nat) : State :=
  let fs := s.toll.recs
  let n := fs.length
  let count := s.toll.count
  let slot := s.tollNext
  let result := if fatal then 2 else if fs.isEmpty then 0 else 1
  let recs := fs.map fun f => failBytes f src count
  let s1 := s.tollPut slot (recs ++ [tollSummary src result n s.toll.recDrop us count])
  let faults := fs.filterMap fun f => failFault f src count
  let t := { s1.toll with summary := (slot + n) % tollSlots, part := 0,
                          lastRecs := if src == 3 then s1.toll.lastRecs else faults }
  forEach (fun (i : Nat) (t : State) => t.logRec 0x0702 ((slot + i) % tollSlots)) (List.range n) { s1 with toll := t }

/-- The dies that a Toll takes out: those failing identification, the write-current DAC or the sense reference (Table
14.2, Table 16.2). -/
def State.tollOuts (s : State) (fs : List TollFail) : State :=
  forEach (fun (f : TollFail) (t : State) =>
    if (f.part == 0x03 || f.part == 0x04 || f.part == 0x09) && f.unit.toNat < 11 then
      t.dieGoesOut ⟨f.unit.toNat % 11, Nat.mod_lt _ (by decide)⟩
    else t) fs s

/-- The first fatal cause among failures: every temperature sensor is judged by the sender; a checker failure is CHKFAIL,
a march of another SRAM than Near is TOLL (Table 16.2, Table 18.1). -/
def tollDetail (f : TollFail) : Nat := f.part.toNat + 256 * f.unit.toNat

/-! ### TOLL_RUN (07 R197, R404) -/

/-- PART code of the lowest part of a mask (Table 16.1, R197). -/
def firstPart (m : Nat) : Nat :=
  if m % 2 == 1 then 0x06 else if m / 2 % 2 == 1 then 0x05 else if m / 4 % 2 == 1 then 0x03
  else if m / 8 % 2 == 1 then 0x04 else 0x10

/-- TOLL_RUN starts its parts, or finds another Toll part running (R197). -/
def State.tollRun (s : State) (j : Job) : State :=
  if s.toll.run.isSome then j.reply s 0x11 4
  else
    let s1 := s.tollBegin
    { s1 with toll := { s1.toll with
        run := some (j.rid, j.rq, BitVec.ofNat 8 (pb j.rq 8)), part := firstPart (pb j.rq 8),
        sacLeft := if Nat.testBit (pb j.rq 8) 4 then 512 else 0 } }

/-- TOLL_RUN_DONE (R197, R404): records, summary, RUNFAIL, dies out, a failing checker's Knell (13 R350), and the reply, once
every sacrificial chord has been written. -/
def State.tollRunDone (s : State) (fs : List TollFail) (us : Nat) : State :=
  match s.toll.run with
  | none => s
  | some (rid, rq, _) =>
    if s.toll.sacLeft != 0 then s
    else
    let slot := s.tollNext
    let s1 := s.holdFails fs
    let n := s1.toll.recs.length
    let chk := fs.find? fun f => f.part == 0x06
    let s2 := (s1.tollEnd 3 chk.isSome us).tollOuts fs
    let s3 := { s2 with toll := { s2.toll with run := none } }
    let s5 := if fs.isEmpty then s3 else s3.raise .toll 0x04
    let s6 := match chk with
      | some f => (s5.raise .ecc 0x02).fatal 0x02 f.value.toNat
      | none => s5
    match s6.findReq rid with
    | some f => if f.stage == .replied then s6 else s6.answer rid rq f.kit (ans 0x00 (n + 2 ^ 16 * slot))
    | none => s6

/-! ### Tally commands (07 R200, R201) -/

/-- ARG of a START record (Table 18.6). -/
def State.startArg (s : State) (op : Nat) : Nat :=
  op + 2 ^ 8 * s.tal.node.toNat + 2 ^ 16 * (match s.tal.ring with | .a => 0 | .b => 1) + 2 ^ 32 * s.tal.filter.toNat

/-- OP 0: tracing stops, with a STOP record. -/
def State.tallyStop (s : State) (j : Job) : State :=
  let s1 := s.tally 0x61 none 0
  j.reply { s1 with tal := { s1.tal with on := 0, paused := false, node := 0x1F, ring := .a } } 0x00 0

/-- OP 1: recording starts. -/
def State.tallyRecord (s : State) (j : Job) : State :=
  let t := { s.tal with on := 1, paused := s.mode == .rest, node := 0x1F, ring := .a }
  let s1 := { s with tal := t }
  j.reply (s1.tally 0x60 none (s1.startArg 1)) 0x00 0

/-- OP 2: streaming starts with the records stored from now on. -/
def State.tallyStream (s : State) (j : Job) : State :=
  let t := { s.tal with on := 2, paused := s.mode == .rest, node := BitVec.ofNat 5 (pb j.rq 9), ring := ringNo (pb j.rq 10),
                        streamNext := s.tal.index }
  let s1 := { s with tal := t }
  j.reply (s1.tally 0x60 none (s1.startArg 2)) 0x00 0

/-- OP 3: the record-class filter (R439). -/
def State.tallyFilter (s : State) (j : Job) : State :=
  j.reply { s with tal := { s.tal with filter := BitVec.ofNat 6 (prm j.rq / 2 ^ 32) } } 0x00 0

/-- OP 4: the issuing Kit's consent; from the house kit it has no effect (R200). -/
def State.tallyConsent (s : State) (j : Job) : State :=
  if j.kit == 0 then j.reply s 0x00 0
  else j.reply (s.setKit j.kit { s.kit j.kit with consent := pb j.rq 9 == 1 }) 0x00 0

/-- A record of 16 bytes (Table 18.5), redacted or not. -/
def TalRec.bytes (r : TalRec) (red : Bool) : List Byte :=
  let k := match r.kit with | some k => k.val | none => 16
  leBytes 6 r.beat ++ leBytes 1 r.typ ++ leBytes 1 (k + 32 * b2n red + 64 * b2n r.drop + 128 * b2n r.x)
    ++ leBytes 8 (if red then 0 else r.arg.toNat)

/-- Whether a Kit reads a record unredacted (R443; every one while TALLYALL is set, R457). A record lost to a double-bit
error, of TYPE 0, reads as zeros throughout (13 Table 13.8). -/
def State.mayTrace (s : State) (reader : Kit) (r : TalRec) : Bool :=
  r.typ == 0 || s.gen.dbg.getLsbD 0 || match r.kit with
  | none => true
  | some k => k == reader || reader == 0 || (k != 0 && (s.kit k).consent)

/-- The record of an index while the carve-out still holds it (R441). -/
def Tal.recAt (t : Tal) (i : Nat) : Option TalRec :=
  if t.index ≤ i then none else (t.recs)[t.index - 1 - i]?

/-- TALLY_READ (R201, R441, R443). -/
def State.tallyRead (s : State) (j : Job) : State :=
  let first := prm j.rq % 2 ^ 32
  let n := min (lenOf j.rq / 16) (s.tal.index - first)
  let one := fun i => match s.tal.recAt (first + i) with
    | some r => r.bytes (!s.mayTrace j.kit r)
    | none => zeros 16
  j.answer s (ansData ((List.range n).map one).flatten)

/-! ### Streaming (R442) -/

/-- TAL_OLDEST (R441). -/
def Tal.oldest (t : Tal) : Nat := t.index - t.recs.length

/-- The stream position overtaken by the writer resumes at TAL_OLDEST, and what it skips is counted (R442). -/
def Tal.catchUp (t : Tal) : Tal :=
  if t.streamNext < t.oldest then
    { t with streamNext := t.oldest, streamLost := up32 t.streamLost (t.oldest - t.streamNext) }
  else t

/-- TALLY_STREAM_SEND (R442). -/
def State.streamSend (s : State) : State :=
  let t := s.tal.catchUp
  let n := min 4 (t.index - t.streamNext)
  let old := match t.recAt t.streamNext with
    | some r => decide (16 ≤ elapsed r.beat s.bar.beatno)
    | none => false
  if s.tal.on != 2 || n == 0 || !(n == 4 || old) then s
  else
    let body := ((List.range n).map fun i => match t.recAt (t.streamNext + i) with
      | some r => r.bytes false
      | none => zeros 16).flatten
    ({ s with tal := { t with streamNext := t.streamNext + n } }).sendDev
      (eventPkt 0 t.ring t.node 0x0500 (t.streamNext % 2 ^ 32 + 2 ^ 32 * n) body s.bar.beatno)

/-- Streaming ends when a ROSTER omits its node; recording continues (R442). -/
def State.streamStops (s : State) (r : Ring) (ids : List Node) : State :=
  if s.tal.on == 2 && s.tal.ring == r && !ids.contains s.tal.node then
    ({ s with tal := { s.tal with on := 1, node := 0x1F, ring := .a } }).raise .tal 0x02
  else s

/-- Tracing stops with no record at a full reset, a Knell, entry to Evening Toll, or Hibernate (R446). -/
def Tal.off (t : Tal) : Tal := { t with on := 0, paused := false, node := 0x1F, ring := .a, resumeDue := false }

/-! ### KNELL_READ (07 R202) -/

/-- One chord of the Main record, which reads as zeros when it cannot be read (18 R429). -/
def State.knellChord (s : State) (c : Nat) : List Byte := ((s.decodeAt c).value).getD (zeros 64)

/-- Bytes of a copy of the Main record; zeros while no Knell has ever been recorded (R202). -/
def State.knellMain (s : State) (copy off n : Nat) : List Byte :=
  if s.knl.seq == 0 && s.knl.summary.isNone then zeros n
  else
    let base := Config.knellBase + copy * Config.knellCopyChords
    let cs := ((List.range ((off + n + 63) / 64 - off / 64)).map fun i => s.knellChord (base + off / 64 + i)).flatten
    (cs.drop (off % 64)).take n

/-- Bytes of the Belfry summary, zeros when it is absent (R202, Table 15.3). -/
def State.knellSummary (s : State) (off n : Nat) : List Byte :=
  match s.knl.summary with
  | some x => (x.bytes.drop off).take n
  | none => zeros n

/-- KNELL_READ (R202). -/
def State.knellRead (s : State) (j : Job) : State :=
  let off := prm j.rq % 2 ^ 32
  let n := lenOf j.rq
  j.answer s (ansData (if pb j.rq 13 == 1 then s.knellSummary off n else s.knellMain (pb j.rq 12) off n))

/-! ### The rows -/

/-- TOLL_RUN (R197). -/
def execTollRun (rq : Req) (s : State) : Host.Outcome State Fault Refusal :=
  runReq (Instr.tollRun rq).wf rq s fun j t => t.tollRun j
/-- TOLL_RUN_DONE (R197). -/
def execTollRunDone (fails : List TollFail) (us : BitVec 24) (s : State) : Host.Outcome State Fault Refusal :=
  .next (s.tollRunDone fails us.toNat)
/-- TALLY_CTL_STOP (R200). -/
def execTallyCtlStop (rq : Req) (s : State) : Host.Outcome State Fault Refusal :=
  runReq (Instr.tallyCtlStop rq).wf rq s fun j t => t.tallyStop j
/-- TALLY_CTL_RECORD (R200). -/
def execTallyCtlRecord (rq : Req) (s : State) : Host.Outcome State Fault Refusal :=
  runReq (Instr.tallyCtlRecord rq).wf rq s fun j t => t.tallyRecord j
/-- TALLY_CTL_STREAM (R200). -/
def execTallyCtlStream (rq : Req) (s : State) : Host.Outcome State Fault Refusal :=
  runReq (Instr.tallyCtlStream rq).wf rq s fun j t => t.tallyStream j
/-- TALLY_CTL_FILTER (R439). -/
def execTallyCtlFilter (rq : Req) (s : State) : Host.Outcome State Fault Refusal :=
  runReq (Instr.tallyCtlFilter rq).wf rq s fun j t => t.tallyFilter j
/-- TALLY_CTL_CONSENT (08 R222). -/
def execTallyCtlConsent (rq : Req) (s : State) : Host.Outcome State Fault Refusal :=
  runReq (Instr.tallyCtlConsent rq).wf rq s fun j t => t.tallyConsent j
/-- TALLY_READ (R201). -/
def execTallyRead (rq : Req) (s : State) : Host.Outcome State Fault Refusal :=
  runReq (Instr.tallyRead rq).wf rq s fun j t => t.tallyRead j
/-- KNELL_READ (R202). -/
def execKnellRead (rq : Req) (s : State) : Host.Outcome State Fault Refusal :=
  runReq (Instr.knellRead rq).wf rq s fun j t => t.knellRead j
/-- TALLY_STREAM_SEND (R442). -/
def execTallyStreamSend (s : State) : Host.Outcome State Fault Refusal := .next s.streamSend

end Sys2Proof.Machine
end

