-- ==== Sys2Proof/Machine/Leave.lean ====
section
/-! DEFINITION. The Beat's budget (03 R65), the steps of CLOSE and REST_ENTER (07 R203, R204), and the chords of a Knell
record (18 R429): what every Beat asks about. -/

namespace Sys2Proof.Machine

/-! ### Budgets -/

/-- The house oscillator sets this Beat's budget (R51): Beats counted on it, the device as beat source, and the Beat that
enters Free-wheel. -/
def State.oscBudget (s : State) : Bool :=
  s.extrap || s.bar.beatsrc || ((s.mode == .run || s.mode == .degraded) && Config.lostLimit ≤ s.bar.lost)

/-- The Beat's budget (03 R65; R51; 04 R104). -/
def State.beatBudget (s : State) : Nat :=
  let n := Config.ringBudget s.bar.rate
  let n1 := if s.bar.short then min n (Config.shortBudget s.bar.rate) else n
  if s.oscBudget then min n1 (Config.extrapBudget s.bar.rate) else n1

/-- Strokes are counted per 32 ns of house time: outside ring time, and in a Rest whose BEATNO holds (R429). -/
def State.houseTimed (s : State) : Bool := !s.mode.timed || s.bar.hold

/-- The budget of a Beat, or of a 32 ns period of house time (R396, R429). -/
def State.periodBudget (s : State) : Nat := if s.houseTimed then Config.houseBudget else s.beatBudget

/-! ### CLOSE (07 R203) -/

/-- Whether an engine runs or is held. -/
def EngSt.live (g : EngSt) : Bool := g.state == .running || g.state == .held

/-- Every engine stops (R203 step 1, 18 R428 step 1). -/
def State.stopAll (s : State) : State :=
  let f := fun (g : EngSt) =>
    if g.live then { g with state := .stopped, stopping := false, fetches := [], streams := [], fifo := [] } else g
  { s with engs := s.engs.map f }

/-- MSINCE to store (16 R391): the boot value and the Measures up to the admission of the CLOSE. -/
def State.msinceAt (s : State) (admBeat : Nat) : Nat := min 255 (s.toll.msince + admBeat / 2 ^ 22)

/-- Strokes of a heat snapshot: 2 bytes for each page index, at the cost of a chord (09 R254). -/
def State.snapCost (s : State) : Nat := ceilDiv (Config.endDeep * 2) 64 * s.snapChord

/-- Whether dirty Residency frames are left that a pending split wants written back (09 R237). -/
def State.splitDirty (s : State) : Bool := s.splitPend && s.pages.any fun p => p.slot.isSome && p.dirty != 0

/-- Whether Deep can still take write-backs. -/
def State.deepTakes (s : State) : Bool := s.mode.traffic && s.deep.ready && !s.deep.muted

/-- The write-backs of a pending split start (09 R237). -/
def State.splitClean (s : State) : State :=
  if s.splitDirty && s.deepTakes then
    forEach (fun (p : Page) (t : State) => t.startWriteBack p.kit p.kp false) s.pages s
  else s

/-- Step 3 ends: every provisional write has its outcome, and a pending split its write-backs. -/
def State.closeQuiet (s : State) : Bool :=
  s.hold.isEmpty && s.merges.isEmpty && s.jobs.isEmpty && !(s.splitDirty && s.deepTakes)

/-- The snapshot as it stands: the pages that hold heat, and BEATNO (09 R254). -/
def State.snapNow (s : State) : List (Kit × KPage × Nat) × Nat :=
  ((s.pages.filter fun p => p.heat != 0).map fun p => (p.kit, p.kp, p.heat), s.bar.beatno)

/-- Outside ring time the snapshot takes a period's Strokes, whole chords at a time, charged to maintenance; in ring time its
chords are maintenance groups of the Beat's allocation. -/
def State.snapSpend (s : State) (c : CloseJob) (n : Nat) : State :=
  if !s.houseTimed then s
  else
    let k := min n (Config.houseBudget / s.snapChord * s.snapChord)
    { s.chargeMaint k with closing := some { c with snapLeft := some (n - k) } }

/-- Step 5: the snapshot's pointer record, the split to come, and the reply, when its request is still in flight. -/
def State.closeReply (s : State) (c : CloseJob) : State :=
  let tier := { s.tier with
    snapshot := if c.snap then some s.snapNow else s.tier.snapshot,
    snapToll := if c.snap then false else s.tier.snapToll,
    splitNext := if s.splitPend && !s.splitDirty then some s.tier.splitReq else none }
  let s1 := { s with tier := tier, closing := some { c with answered := true } }
  let s2 := if c.snap then s1.queueRec .deviceState else s1
  if (s2.findReq c.rid).isSome then s2.answer c.rid c.rq (some 0) (ans 0x00 0) else s2

/-- Step 6: a LEAVE request on each ring whose switch is open (04 R105). -/
def State.askLeave (s : State) (c : CloseJob) : State :=
  let one := fun (x : RingSt) =>
    if x.swOpen then
      { x with leaveReq := some s.barNo, mail := x.mail ++ [(.leave, s.bar.beatno)], mailOut := x.mailOut ++ [.leave] }
    else x
  { s with ringA := one s.ringA, ringB := one s.ringB, closing := some { c with leaving := true } }

/-- A CLOSE goes on by one step (R203 steps 2 to 6). While a REST_ENTER admitted before it leads to Rest, it waits (17
R425). -/
def State.closeStep (s : State) : State :=
  match s.closing with
  | none => s
  | some c =>
    if c.leaving || s.restDue then s
    else if c.answered then (if s.replies.isEmpty then s.askLeave c else s)
    else match c.snapLeft with
      | some n => if n == 0 then s.closeReply c else s.snapSpend c n
      | none =>
        if s.inflight.any fun f => f.rid != c.rid then s
        else
          let s1 := (s.closeMerges fun _ => true).splitClean
          if s1.closeQuiet then { s1 with closing := some { c with snapLeft := some (if c.snap then s1.snapCost else 0) } }
          else s1

/-- Every step of a CLOSE that nothing holds up. -/
def State.closeGoesOn (s : State) : State := ((s.closeStep).closeStep).closeStep

/-- CLOSE (R203): admission stops, engines stop, transfers are abandoned (14 R364); a second CLOSE of the same Beat is an
admitted request like any other and is answered OK (log 70). After a REST_ENTER it is served in Rest (17 R425): admission
alone stops now. -/
def State.close (s : State) (j : Job) : State :=
  if s.closing.isSome then j.reply s 0x00 0
  else
    let p := pb j.rq 8
    let s1 := if s.restDue then s else (s.stopAll).abandonRuns
    ({ s1 with
      toll := { s1.toll with closeMsince := s1.msinceAt j.admBeat },
      closing := some ⟨j.rid, j.rq, p % 2 == 1, p / 2 % 2 == 1, none, false, false, j.admBeat⟩ }).closeGoesOn

/-! ### REST_ENTER (07 R204) -/

/-- REST_ENTER: BUSY while an engine runs or is held; in Rest it changes nothing, and after a CLOSE admitted before it in
the same Beat, which completes (17 R425), it leads nowhere (log 70). -/
def State.restAsked (s : State) (j : Job) : State :=
  if s.mode == .rest || s.closing.isSome then j.reply s 0x00 0
  else if s.engs.any EngSt.live then j.reply s 0x11 1
  else j.reply { (s.closeMerges fun _ => true) with restDue := true } 0x00 0

/-! ### Knell record chords (18 R429) -/

/-- Device chord of a record chord: copy 0 at the region's start, copy 1 at 256 KiB (15 R490). -/
def knellChordAt (copy : Bool) (ix : Nat) : Nat := Config.knellBase + (if copy then Config.knellCopyChords else 0) + ix

/-- One record chord takes an entry, while the whole reserve and the buffer have room. -/
def State.knellTake (s : State) : Option State :=
  match s.knl.recLeft with
  | [] => none
  | (copy, ix) :: rest =>
    let c := knellChordAt copy ix
    if Config.holdEntries ≤ s.entriesUsed || Config.reserveLimit < s.allHeld + s.chordCost c then none
    else
      let d := (s.knl.record.drop (64 * ix)).take 64
      let s1 := { s with knl := { s.knl with recLeft := rest } }
      some (s1.pushEntry (mkEntry (.knell copy ix) none true 0 c d (s1.fullMask c) s1.bar.beatno))

/-- Record chords enter while they can. -/
def State.knellFill : Nat → State → State
  | 0, s => s
  | n + 1, s => match s.knellTake with
    | some t => t.knellFill n
    | none => s

/-- Whether a record chord's group may issue in this period: a first pulse in the one after acceptance, a retry when it is
due; periods of house time are not told apart. -/
def State.knellDue (s : State) (e : WEntry) : Bool :=
  match e.phase with
  | .waiting => s.houseTimed || e.accepted != s.bar.beatno
  | .retry due => s.houseTimed || reached due s.bar.beatno
  | _ => false

/-- Groups issue in acceptance order from a budget, at maintenance's charge. -/
def knellIssue : List WEntry → Nat → State → State
  | [], _, s => s
  | e :: es, b, s =>
    let n := sliceCount e.slices
    if n ≤ b then knellIssue es (b - n) ((s.pulse e.ent).chargeMaint n) else s

/-- One period of a Knell record: pulses from the whole budget, then new entries. -/
def State.knellPeriod (s : State) : State :=
  let due := s.hold.filter s.knellDue
  let s1 := knellIssue ((due.filter fun e => e.pulses != 0) ++ due.filter fun e => e.pulses == 0) s.periodBudget s
  s1.knellFill s1.knl.recLeft.length

/-! ### The rows -/

/-- CLOSE (R203). -/
def execClose (rq : Req) (s : State) : Host.Outcome State Fault Refusal :=
  runReq (Instr.close rq).wf rq s fun j t => t.close j
/-- REST_ENTER (R204). -/
def execRestEnter (rq : Req) (s : State) : Host.Outcome State Fault Refusal :=
  runReq (Instr.restEnter rq).wf rq s fun j t => t.restAsked j

end Sys2Proof.Machine
end

