-- ==== Sys2Proof/Machine/Sram.lean ====
section
/-! DEFINITION. SEC-DED in the base-die SRAMs: what a bit error that a read meets brings (13 R346, Table 13.8). -/

namespace Sys2Proof.Machine

/-- A record of all zeros. -/
def TalRec.lost : TalRec := ⟨0, 0, some 0, false, false, 0⟩

/-- A Tally record reads as zeros from now on. -/
def State.tallyLost (s : State) (i : Nat) : State :=
  if s.tal.index ≤ i then s
  else
    let n := s.tal.index - 1 - i
    { s with tal := { s.tal with recs := (s.tal.recs.zipIdx).map fun x => if x.2 == n then TalRec.lost else x.1 } }

/-- A Near line is invalidated; the chord is served again from its newest source (11 R288). -/
def State.nearLost (s : State) (blk line : Nat) : State :=
  { s with near := updWhere (fun b => b.blk == blk) (fun b => { b with lines := b.lines.filter fun l => l.1 != line }) s.near }

/-- The Tally records of a carve-out block, 256 in each, read as zeros from now on. -/
def State.blockLost (s : State) (blk : Nat) : State :=
  let t := s.tal
  let hit := fun (n : Nat) => (t.index - 1 - n) % Config.tallyRing / 256 == blk
  { s with tal := { t with recs := (t.recs.zipIdx).map fun x => if hit x.2 then TalRec.lost else x.1 } }

/-- A Near block is invalidated; a pinned one is filled again. The records of a carve-out block are lost. -/
def State.tagLost (s : State) (blk : Nat) : State :=
  if blk < 256 then s.blockLost blk
  else match s.near.find? fun b => b.blk == blk with
  | none => s
  | some b =>
    let s1 := { s with near := s.near.filter fun x => x.blk != blk }
    match s1.findPage b.kit b.kp with
    | some p => if p.nearPin then s1.bringNear b.kit b.kp none else s1
    | none => s1

/-- A chord in intake counts as accepted and recanted in the same Beat. -/
def State.intakeLost (s : State) (rid a : Nat) : State :=
  match s.findJob rid with
  | none => s
  | some j =>
    if !(j.todo.any fun u => u.kaddr == a) then s
    else
      let s2 := (s.creditBack rid j.kit).updJob rid fun x => { x with
        todo := x.todo.filter fun u => u.kaddr != a, open_ := x.open_ + 1, lastAccept := s.bar.beatno }
      match s2.locate j.kit a with
      | .main c => s2.recantNarrow j.kit [rid] a c
      | _ => (s2.setKit j.kit ((s2.kit j.kit).recant a s.bar.beatno j.rq.sync)).resolveJobs [rid] a true

/-- A write-hold entry lost its data: its chord is recanted (11 R285). Slices that a pulse has driven hold undefined bytes
(R492). A poison marker is written anew. -/
def State.holdLost (s : State) (ent : Nat) : State :=
  match s.hold.find? fun e => e.ent == ent with
  | none => s
  | some e =>
    let s1 := if e.pulses == 0 then s else s.storeEntry e e.slices
    let s2 := { s1 with hold := s1.hold.filter fun x => x.ent != ent }
    if e.kind == .marker then s2.queueMarker e.chord.toNat else s2.concluded e false false 0

/-- A lost pre-image: sharers' reads wait for the entry's outcome. -/
def State.preLost (s : State) (ent : Nat) : State :=
  { s with hold := updWhere (fun e => e.ent == ent && e.pre != .notNeeded) (fun e => { e with pre := .absent }) s.hold }

/-- A merge entry is recanted. -/
def State.mergeLost (s : State) (i : Fin 64) : State :=
  match s.merge[i] with
  | some m => (s.setMerge i none).recantNarrow m.kit m.rids m.kaddr m.chord.toNat
  | none => s

/-- A sector in the promotion buffer is read again from Deep. -/
def State.sectorAgain (s : State) (k : Kit) (kp : KPage) (x : BitVec 4) : State :=
  match s.moves.find? fun m => m.kit == k && m.kp == kp && m.entry && !m.reads.getLsbD x.toNat with
  | none => s
  | some m =>
    let gone := fun (q : WKind × Option Kit × Nat × ChordIx × List Byte) =>
      q.1 == .move k kp && secOf q.2.2.1 == x
    ({ s with chordq := s.chordq.filter fun q => !gone q }).updMove m fun n =>
      { n with reads := n.reads ||| BitVec.ofNat 16 (2 ^ x.toNat) }

/-- A REDO unit's chord is read and decoded again from the array. -/
def State.redoAgain (s : State) (rid unit : Nat) : State :=
  match s.replies.find? fun p => p.rid == rid && p.trailer with
  | none => s
  | some p => match p.redo[unit]?, p.kit with
    | some u, some k =>
      let a := addrOf p.rq + u.1
      let o := (s.look k (chordBase a)).1
      match s.locate o.1 o.2 with
      | .main c =>
        let v := (s.decodeOf o.1 o.2 c).value
        let new := match v with
          | some d => (u.1, (d.drop (a % 64)).take u.2.1.length, false)
          | none => (u.1, zeros u.2.1.length, true)
        { s.readArray 1 c with
          replies := updWhere (fun q => q.rid == rid) (fun q => { q with redo := q.redo.set unit new }) s.replies }
      | _ => s
    | _, _ => s

/-- A copy in the Rudiment store: the engines that run it halt with FAULT 4, and it is unloaded (12 R311). -/
def State.storeLost (s : State) (k : Kit) (slot : Fin 8) : State :=
  let one := fun (e : Engine) (t : State) =>
    let g := t.eng e
    if g.kit == k && g.slot == slot && g.live then t.halt e g 4 else t
  let s1 := forEach one allEngines s
  { s1 with copies := s1.copies.filter fun x => !(x.kit == k && x.slot == slot) }

/-- The outcome of a double-bit error (Table 13.8). For structures 9 to 11 it is a Knell (18 Table 18.1). -/
def State.sramLost (s : State) (w : SramWord) : State :=
  match w with
  | .near b l => s.nearLost b l
  | .tally i => s.tallyLost i
  | .nearTag b => s.tagLost b
  | .intake rid a => s.intakeLost rid a
  | .holdData e => s.holdLost e
  | .holdPre e => s.preLost e
  | .merge i => s.mergeLost i
  | .promotion k kp x => s.sectorAgain k kp x
  | .redo rid u => s.redoAgain rid u
  | .store k slot => s.storeLost k slot
  | .core n w => s.fatal 0x04 (n + 256 * w)

/-- The open fault of a Near row, 512 words to a row (14 R371; KIND 6 of 16 Table 16.5). -/
def nearFault (blk : Nat) : FaultRec := ⟨6, 0x40, 512 * blk % 256, 512 * blk / 256, 0, 0, none⟩

/-- The Near row that an error lies in. -/
def SramWord.nearRow : SramWord → Option Nat
  | .near b _ => some b
  | .tally i => some (i % Config.tallyRing / 256)
  | _ => none

/-- A Near row with a double-bit error becomes an open fault (14 R371). -/
def State.nearFaulty (w : SramWord) (s : State) : State :=
  match w.nearRow with
  | some b =>
    if s.rep.faults.contains (nearFault b) then s
    else { s with rep := s.rep.addFault s.bar.beatno (nearFault b) }
  | none => s

/-- A read meets an error: corrected and counted, or counted with its outcome (R346). -/
def State.sramMet (x : SramErr) (s : State) : State :=
  if x.double then
    ((({ s with ecc := { s.ecc with sramDed := up32 s.ecc.sramDed 1 } }).sramLost x.word)).nearFaulty x.word
  else { s with ecc := { s.ecc with sramSec := up32 s.ecc.sramSec 1 } }

/-- The errors that stand are met at the start of a Beat. -/
def State.sramErrors (s : State) : State := forEach State.sramMet s.soft { s with soft := [] }

end Sys2Proof.Machine
end

