-- ==== Sys2Proof/Machine/Beat.lean ====
section
/-! DEFINITION. Ring time (02): Beats, Bars and Downbeats, what every Beat does, Free-wheel, Ring B's offset, and the rows
of the calendar: sensors (20 R478 to R482), scrub (13 R343), heat decay with its pass (09 R242, R243), and the end of a
Measure (03 R85, 10 R272, 13 R345, 15 R379). -/

namespace Sys2Proof.Machine

/-! ### Markers -/

/-- A marker is valid (R36), whichever kind it names. -/
def markerValid (m : Marker) (rate : Nat) : Bool :=
  m.crcGood && m.rate.toNat == rate && ((m.kind == 2 && m.beat == 0) || (m.kind == 1 && m.beat != 0))

/-- A valid marker is a Downbeat. -/
def markerDown (m : Marker) (rate : Nat) : Bool := markerValid m rate && m.kind == 2

/-! ### The end of a Beat and the start of the next -/

/-- What took effect in an earlier Beat is in force for good, once no admitted request is older than it (07 R167). -/
def State.nowInForce (s : State) : State :=
  let after := fun (b : Nat) => !(s.inflight.any fun f => !reached b f.admBeat)
  let keep := fun (f : Option Nat) => f.filter fun b => !(reached b s.bar.beatno && after b)
  { s with kits := s.kits.map fun x => { x with
      binds := x.binds.map fun b => { b with from_ := keep b.from_ },
      wins := x.wins.map fun w => w.map fun v => { v with from_ := keep v.from_ } } }

/-- A Beat ends: its unissued Strokes lapse (03 R65), and what holds within one Beat alone is gone. -/
def State.closeBeat (s : State) : State :=
  let stk := { s.stk with lapsedLast := s.stk.left, slackLast := s.stk.slackNow }
  let held := fun (b : Kit × Nat) => s.inflight.any fun g => g.kit == some b.1 && g.rid < b.2 && g.stage == .ready
  ({ s with stk := stk, justOut := [], priors := [], tal := { s.tal with inBeat := 0 }, bar := { s.bar with cal := 0 },
            barriers := s.barriers.filter held, pages := s.pages.map Page.heated }).nowInForce.freshClear

/-- Whether a request waits only on MRAM pulses (20 R480): a write's chords, a FENCE, staged chords, pages whose promotions
have nothing left to read. -/
def State.onPulse (s : State) (rid : Nat) : Bool :=
  let written := fun (k : Kit) (kp : KPage) => s.moves.any fun m => m.kit == k && m.kp == kp && m.kind == .promote && m.reads == 0
  s.jobs.any (fun j => j.rid == rid) || s.fences.any (fun j => j.rid == rid) || s.stageJobs.any (fun j => j.rid == rid)
    || s.waits.any fun w => w.rid == rid && !w.pages.isEmpty && w.pages.all (written w.kit)

/-- While WRHOLD is set the bound of R157 is suspended for a request that waits only on a held pulse (20 R480): its Beats do
not count (DEDUCED, log 130). -/
def State.standing (s : State) (f : InFlight) : InFlight :=
  if s.onPulse f.rid then { f with stood := f.stood + 1 } else f

/-- WRHOLD and FIELDWR take effect at the Beat after the sample (20 R479), and its Beats are counted. -/
def State.holdTick (s : State) : State :=
  let rise := s.pwr.wrholdNext && !s.pwr.wrhold
  let p := { s.pwr with wrhold := s.pwr.wrholdNext, wrholdBeats := up32 s.pwr.wrholdBeats (b2n s.pwr.wrholdNext) }
  let s1 := { s with pwr := p, inflight := if p.wrhold then s.inflight.map s.standing else s.inflight }
  if rise then s1.raise .pwr 0x01 else s1

/-- A chord outside every map is pulsed once on each of the ten role dies (03 R85). -/
def State.wearChord (s : State) : State :=
  let add := fun (v : Vector Nat 11) => s.rep.role.toList.foldl (fun v (d : Fin 11) => v.set d (v[d] + 1)) v
  { s with stk := { s.stk with pulses := add s.stk.pulses, writes := add s.stk.writes } }

/-- A chord of the heat snapshot is written (09 R254). -/
def State.snapOne (s : State) (cost : Nat) : State :=
  match s.closing with
  | some c => { s.wearChord with closing := some { c with snapLeft := c.snapLeft.map fun n => n - cost } }
  | none => s

/-- A sacrificial chord of TOLL_RUN is written (16 R404). -/
def State.sacOne (s : State) : State :=
  { s.wearChord with toll := { s.toll with sacLeft := s.toll.sacLeft - 1 } }

/-- A funded group issues; the rebuild groups are left to the transfers. -/
def State.issueGrp (q : List DeepOp) (g : Grp) (s : State) : State :=
  match g.work with
  | .entry ent => s.pulse ent
  | .deep ix => match q[ix]? with
    | some op => s.startDeep op
    | none => s
  | .rebuild => s
  | .belfry => s.belNext
  | .snap => s.snapOne g.cost
  | .sac => s.sacOne

/-- The Kits with a pending group and none issued (STK_STARVED), and whether there is one. -/
def State.countStarved (s : State) (al : Alloc) (ds : List KDem) : State :=
  let hungry := (ds.filter fun d => !(d.main.isEmpty && d.deep.isEmpty) && !(al.kits.any fun x => x.1 == d.kit)).map
    fun d => d.kit
  let one := fun (k : Kit) (t : State) => t.setKit k { t.kit k with starved := up32 (t.kit k).starved 1 }
  let s1 := forEach one hungry s
  if hungry.isEmpty then s1 else { s1 with stk := { s1.stk with barStarved := s1.stk.barStarved + 1 } }

/-- STROKE_ALLOCATION (03 R67, Table 3.2): the Beat's groups issue and are charged (R62). -/
def State.spendBeat (s : State) : State :=
  let b := s.beatBudget
  let al := s.beatAlloc b
  let q := s.deep.queue
  let all := al.maint ++ al.slackM ++ al.kits.map fun x => x.2
  let s1 := s.countStarved al s.kitDemands
  let s2 := forEach (State.issueGrp q) all s1
  let s3 := forEach (fun (x : Kit × Grp) (t : State) => t.chargeKit x.1 x.2.cost) al.kits s2
  let s4 := s3.chargeMaint (costOf al.maint + costOf al.slackM)
  let stk := { s4.stk with budget := b, slackNow := al.slack, left := al.left,
                           mslack := up32 s4.stk.mslack (costOf al.slackM) }
  let s5 := { s4 with stk := stk }
  if s.mode.traffic then s5.transfersGoOn (all.filter fun g => g.work == .rebuild).length else s5

/-! ### Scrub (13 R343 to R345) -/

/-- GT/s of a rate code (Table 2.1). -/
def gtOf : Nat → Nat
  | 0 => 12 | 1 => 16 | 2 => 24 | 3 => 32 | _ => 40

/-- The cursor moves past a chord; at its wrap a sweep ends, late when it took more than 2 × PERIOD hours of ring time
(R345). -/
def State.scrubPast (s : State) : State :=
  let e := { s.ecc with due := s.ecc.due - 1, cur := (s.ecc.cur + 1) % Config.chordCount }
  if e.cur != 0 then { s with ecc := e }
  else
    let bars := s.sweepNow
    let s1 := { s with ecc := { e with sweeps := up32 e.sweeps 1, sweepBars := min (maxOf 32) bars, sweepBars0 := 0,
                                       sweepFrom := s.barNo } }
    if 2 * e.period * 3600000000000 * gtOf s.bar.rate < bars * 2 ^ 20 then s1.raise .ecc 0x04 else s1

/-- One due chord: skipped while an entry of it is pending, else read at one maintenance token (R343, 11 R289). -/
def State.scrubOne (s : State) : Option State :=
  if s.ecc.due == 0 then none
  else if s.entryAt s.ecc.cur then
    some ({ s with ecc := { s.ecc with skip := up32 s.ecc.skip 1 } }).scrubPast
  else s.maintToken.map fun t => (t.readArray 2 s.ecc.cur).scrubPast

/-- The due chords that this Beat's tokens allow. -/
def State.scrubSome : Nat → State → State
  | 0, s => s
  | n + 1, s => match s.scrubOne with
    | some t => t.scrubSome n
    | none => s

/-- Chords that stay due are read as tokens allow (R344); NOSCRUB stops them (19 R457). -/
def State.scrubOn (s : State) : State :=
  if s.gen.dbg.getLsbD 2 || s.ecc.due == 0 then s else s.scrubSome (s.ecc.due + 1)

/-- Chords that stay due are read with the maintenance part alone, ahead of the Kits (R79). -/
def State.scrubPart (s : State) : State :=
  let t := ({ s with stk := { s.stk with tokFree := 0 } }).scrubOn
  { t with stk := { t.stk with tokFree := s.stk.tokFree } }

/-- SCRUB_STEP (R343), at Beat 16 of each Bar. -/
def State.scrubStep (s : State) : State :=
  if !s.mode.timed || s.bar.hold || s.beatIx != 16 || !s.calOnce 5 || s.gen.dbg.getLsbD 2 then s
  else
    let s := s.calRan 5
    let a := s.ecc.acc + s.ecc.rate * s.scrubFactor
    let e := { s.ecc with acc := a % 2 ^ 16, due := s.ecc.due + a / 2 ^ 16 }
    ({ s with ecc := e }).scrubOn

/-! ### Read tokens of a Beat (03 R79, R80) -/

/-- Chords of a page's non-zero sectors. -/
def Page.chordsHeld (p : Page) : Nat := 64 * ((List.range 16).filter fun i => !p.zero.getLsbD i).length

/-- Chords that a move has still to read from Main. -/
def State.moveWant (s : State) (m : Move) : Nat :=
  let inMain := fun (i : Nat) => match s.locate m.kit (m.addr i) with | .main _ => true | _ => false
  match m.kind with
  | .promote => 0
  | _ =>
    if m.going then (m.todo.filter inMain).length
    else match s.findPage m.kit m.kp with
      | some p => if p.frame.isSome || p.slot.isSome then p.chordsHeld else 0
      | none => 0

/-- Tokens that a Kit's pending entries call for: captures and RMW merges (11 R282, R292), and merge entries that close in this
Beat (11 R290). -/
def State.entryWant (s : State) (k : Kit) : Nat :=
  let one := fun (e : WEntry) => e.payer == some k &&
    (e.phase == .merging || e.pre == .wants)
  let late := fun (m : MEntry) => m.kit == k && (m.closing || reached ((m.opened + 8) % Config.beatWrap) s.bar.beatno)
  (s.hold.filter one).length + (s.merges.filter late).length

/-- The chords that a Kit wants from Main at a Beat boundary: its READs, moves, entries, Muffles and PUSHes (R79). -/
def State.kitWant (s : State) (k : Kit) : Nat :=
  let reads := ((s.reads.filter fun j => j.kit == k).map fun j => s.arrayChords k j.todo).sum
  let moves := ((s.moves.filter fun m => m.kit == k).map s.moveWant).sum
  let mufs := ((s.mufJobs.filter fun j => j.kit == k).map fun j => 1024 - j.got.length).sum
  let push := ((s.engs.toList.filter fun g => g.kit == k).map fun g => (g.fifo.map fun p => p.need).sum).sum
  min Config.readTokens (reads + moves + mufs + push + s.entryWant k)

/-- READ_TOKEN_ALLOCATION (R79): scrub takes the maintenance part, which keeps what a scrub step of this Beat and rebuild can
use; the Kits take their reservations and the round-robin; scrub goes on with what is left. Made once, at the Beat boundary:
what arrives later in the Beat takes what is left then (DESIGN CHOICE, log 120). -/
def State.tokens (s : State) : State :=
  let s1 := s.refillTokens.scrubPart
  let rebuild := if s1.rep.runs.any fun t => t.phase == 2 || t.phase == 3 then s1.rep.rbMax else 0
  (s1.shareOut s1.kitWant (min s1.stk.tokMaint (s1.scrubNext + rebuild))).scrubOn

/-! ### What every Beat does -/

/-- The probe results take the state of the page in the Beat after a write of TIER_KPROBE (09 R257). -/
def State.probesFollow (s : State) : State :=
  let f := fun (k : Kit) =>
    let x := s.kit k
    if x.kprobeDue then { x with kprobeDue := false, kprobed := s.probeNow k } else x
  { s with kits := Vector.ofFn f }

/-- Warm-up ends with a restored snapshot or at BEATNO 262,144 (09 R256). -/
def State.warmUp (s : State) : State :=
  if s.tier.warm && (s.tier.snaprest || Config.warmBeats ≤ s.bar.beatno) then { s with tier := { s.tier with warm := false } }
  else s

/-- Degraded begins at the Beat after a role or bank goes out, or a resilvering starts (14 R359). -/
def State.degrades (s : State) : State := if s.mode == .run && s.rep.degraded then s.enter .degraded 0x12 else s

/-- The work of a Beat in the modes that serve traffic, after its Strokes are spent. -/
def State.trafficBeat (s : State) : State :=
  ((((((((s.capturesGoOn.mergesGoOn.readsGoOn).movesGoOn).mufflesGoOn).stagesOver).fetchesGoOn).pushesGoOn).countStalls).deepGoesOn).corrTriggers

/-- A Beat runs, once BEATNO stands and the mode is known: Strokes and tokens refill, the Beat's groups issue, and what
waits for a Beat goes on (R46). What reads of the SRAMs find comes first (13 R346). -/
def State.runBeat (s : State) : State :=
  let s1 := (((((s.tallyLosses).sramErrors).holdTick).stopDue).refreshFalls).portBeat
  let s2 := if s1.mode.traffic && s1.closing.isNone then (((s1.silentDies).autoRepairs).runsStart).phasesGoOn else s1
  let s3 := ((s2.tokens).maintFill).spendBeat
  let s4 := if s3.mode.traffic then s3.trafficBeat else s3
  (((s4.probesFollow).warmUp).closeGoesOn).alertSend

/-! ### Bars -/

/-- ARG of a BARLEDGER record (Table 18.6). -/
def Stk.barArg (k : Stk) : Nat :=
  min (maxOf 24) k.barKit + 2 ^ 24 * min (maxOf 24) k.barMaint + 2 ^ 48 * min (maxOf 16) k.barStarved

/-- The start levels adapt over the first 16 device Bars of first use, Bars that a forward jump skips among them: the levels
reached are free values (03 R86, 02 R48). FIXPULSE stops the adaptation (19 R457). -/
def State.adaptStart (s : State) : State :=
  if s.toll.startBars == 0 || s.barNo < s.toll.startBars then s
  else if s.gen.dbg.getLsbD 1 then { s with toll := { s.toll with startBars := 0 } }
  else
    ({ s with toll := { s.toll with
      startBars := 0,
      startLvl := Vector.ofFn fun (d : Fin 11) => Config.freeByte (s.free + d.val) } }).spend 11

/-- The level from which first pulses of a die start (11 R283): the factory trim while FIXPULSE is set (19 R457). -/
def State.startLevel (s : State) (d : Fin 11) : Byte :=
  if s.gen.dbg.getLsbD 1 then Config.startTrim d.val else s.toll.startLvl[d]

/-- The per-Bar bounds and counts at a Bar's first Beat. -/
def State.barStarts (s : State) (marked : Bool) : State :=
  let lanes := fun (x : RingSt) => { x with lerrBar := Vector.replicate 18 0 }
  ({ s with
    stk := { s.stk with barKit := 0, barMaint := 0, barStarved := 0 },
    ringA := lanes s.ringA, ringB := lanes s.ringB,
    ecc := { s.ecc with dieCorrBar := Vector.replicate 11 0 },
    confMax := (s.confMax.2, 0),
    bar := { s.bar with barMarked := marked, bLost := if s.ringB.joined then min 3 (s.bar.bLost + 1) else 0 } }).alertBar

/-- The Bar that ended was measured: FASTBEAT when it lasted less than 94 % of nominal (R34). -/
def State.barMeasured (s : State) (permille : Nat) : State := if permille < 940 then s.raise .bar 0x40 else s

/-- Whether a Kit's held Strokes fell in the Bar that ended, for each write that waits (06 R157). -/
def State.heldFalls (s : State) : State :=
  let job := fun (j : WriteJob) => { j with falling := j.falling && decide (s.kitHeld j.kit < (s.kit j.kit).heldBar) }
  { s with jobs := s.jobs.map job, kits := Vector.ofFn fun (k : Kit) => { s.kit k with heldBar := s.kitHeld k } }

/-- A Bar ends and the next begins: LOST_DOWNBEAT when no valid Downbeat began it (18 R445; none is lost to a beat source,
R58), the ledger of the Bar ended (18 R438), the start levels, and the waits of writes. -/
def State.barBegins (s0 : State) (marked : Bool) : State :=
  let s := s0.heldFalls
  let s1 := if marked || s.bar.beatsrc then s else s.tally 0x64 none (s.bar.lastDbBar * 1024 % 2 ^ 48 + 2 ^ 48 * min 65535 (s.barNo - s.bar.lastDbBar))
  ((s1.tally 0x20 none s1.stk.barArg).adaptStart).barStarts marked

/-- BEATNO wraps (R39). -/
def State.wraps (s : State) : State :=
  (({ s with bar := { s.bar with epoch := (s.bar.epoch + 1) % 65536 } }).raise .bar 0x20).tally 0x67 none
    ((s.bar.epoch + 1) % 65536)

/-- The owners that a SLOTMAP names are in force from a Downbeat on (05 R124). -/
def RingSt.ownersDown (x : RingSt) : RingSt := { x with owners := x.ownersNext.getD x.owners, ownersNext := none }

/-- Pool split and token changes that wait for a Downbeat come into force, and owners of the reply-only positions (03 R71,
09 R250, 05 R124, 13 R342). -/
def State.waitingChanges (s : State) : State :=
  let s1 := if s.stk.dirty then s.ledgerGrant
    else { s with stk := { s.stk with rtMaintNow := s.stk.rtMaint }, kits := s.kits.map fun x => { x with rtresNow := x.rtres } }
  let rate := if s1.ecc.periodDue then Config.scrubRate s1.bar.rate s1.ecc.period else s1.ecc.rate
  { s1 with
    tier := { s1.tier with partNow := s1.tier.part },
    kits := s1.kits.map fun x => { x with kqNow := (x.kq[2], x.kq[3]) },
    ecc := { s1.ecc with rate := rate, periodDue := false }, stk := { s1.stk with gone := (0, 0, 0, 0) },
    ringA := s1.ringA.ownersDown, ringB := s1.ringB.ownersDown }

/-- Strict Tempo is checked at each Downbeat: it comes into force, stays, or lapses (08 R226, R227). -/
def State.strictDown (s : State) : State :=
  let ok := s.gen.strict && s.strictOk true
  let s1 := { s with gen := { s.gen with active := ok } }
  if s.gen.active && s.gen.strict && !ok then s1.raise .tempo 0x04 else s1

/-- Everything that takes effect at a Downbeat (R71). -/
def State.downChanges (s : State) : State := ((s.waitingChanges).strictDown).wearLevel

/-- Whether the Beat that begins is shortened by a window (04 R104). -/
def State.shorten (s : State) : State :=
  let hit := s.bar.shortAt == some s.bar.beatno
  { s with bar := { s.bar with short := hit, shortAt := if hit then none else s.bar.shortAt } }

/-! ### BEAT_BOUNDARY (R37, R50, R54, R55) -/

/-- Free-wheel begins where this many Beats have elapsed without a valid Downbeat (R49). -/
def State.entersFreewheel (s : State) (lost : Nat) : Bool :=
  (s.mode == .run || s.mode == .degraded) && Config.lostLimit ≤ lost && !s.bar.beatsrc

/-- Whether a Bar that would begin here without a valid Downbeat does not begin (R54, R55). -/
def State.barHeld (s : State) : Bool :=
  s.beatIx == 1023 && !s.bar.beatsrc && (s.mode == .rest || (s.mode == .freewheel && Config.fwLimit ≤ s.bar.fwBars))

/-- The count moves on by one Beat, marked or not, on its base. A marker's BEAT is not held against the count: R40 realigns at
Downbeats alone, so a valid marker of another index marks the Beat that the count begins (DEDUCED, log 109). A Bar counted by
slots has its measured length (R34). In the Beat that enters Free-wheel its extrapolated Downbeat brings the changes of R71. -/
def State.tick (s : State) (marked osc : Bool) (permille : Nat) : State :=
  let n := (s.bar.beatno + 1) % Config.beatWrap
  let fw := if s.mode == .freewheel && n % 1024 == 0 then s.bar.fwBars + 1 else s.bar.fwBars
  let bar := { s.bar with
    beatno := n, missed := up32 s.bar.missed (b2n (!marked)), lost := satAdd 12 s.bar.lost 1, fwBars := fw,
    onOsc := s.bar.onOsc || osc }
  let s1 := ({ s with bar := bar, ringA := { s.ringA with slots := s.ringA.slots && (!osc || s.bar.beatsrc) } }).shorten
  let s2 := if n == 0 then s1.wraps else s1
  if n % 1024 != 0 then s2
  else
    let s3 := (if osc then s2 else s2.barMeasured permille).barBegins false
    if s.mode == .freewheel || s.bar.beatsrc || s.entersFreewheel s3.bar.lost then s3.downChanges else s3

/-- In Beats of a completion the count goes on alone: BEATNO, its wraps and BAR_MISSED (R37, R39), and in Rest the hold of
R55. -/
def State.countBeat (s : State) (marked osc : Bool) : State :=
  let n := (s.bar.beatno + 1) % Config.beatWrap
  let bar := { s.bar with
    beatno := n, missed := up32 s.bar.missed (b2n (!marked)), lost := satAdd 12 s.bar.lost 1,
    onOsc := s.bar.onOsc || osc, cal := 0 }
  let s1 := { s with justOut := [], priors := [], bar := bar }
  if n == 0 then s1.wraps else s1

/-- A period of a Knell record: in ring time a Beat, counted on, with nothing else in it (18 R428, R429). -/
def State.knellBeat (s : State) (marked osc : Bool) : State :=
  if s.houseTimed then s.knellPeriod else (s.countBeat marked osc).knellPeriod

/-- The Beat that begins carries a valid marker: none counts while the oscillator counts Beats (R36, R37). -/
def State.beatMarked (s : State) (osc : Bool) (m : Option Marker) : Bool :=
  !osc && (match m with | some x => markerValid x s.bar.rate | none => false)

/-- Outside ring time a beat source still emits its Beats (R58), from the end of Fill on (17 R414). -/
def State.sourceIdle (s : State) : State :=
  if s.bar.beatsrc && s.mode == .join then
    let n := (s.bar.srcBeat + 1) % 1024
    let t := if n == 0 then { s with ringA := s.ringA.ownersDown, ringB := s.ringB.ownersDown } else s
    ({ t with bar := { t.bar with srcBeat := n } }).masterBeats
  else s

/-- A Beat that is no valid Downbeat begins. A beat source counts every Beat on its oscillator (R58). -/
def State.beat (s : State) (base : BeatBase) (m : Option Marker) : State :=
  let osc := !base.slotted || s.bar.beatsrc
  if s.completing then
    (if s.knl.running then s.knellBeat (s.beatMarked osc m) osc
     else if s.houseTimed || s.barHeld then s else s.countBeat (s.beatMarked osc m) osc)
  else if !s.mode.timed then s.sourceIdle
  else if s.bar.hold then (if osc then s.closeGoesOn else s)
  else if (s.mode == .freewheel || s.bar.retrain) && !osc then s
  else if s.barHeld then
    if s.mode == .rest then { s with bar := { s.bar with hold := true } } else s
  else ((((s.closeBeat).tick (s.beatMarked osc m) osc base.permille).masterBeats).degrades).runBeat

/-- BEAT_BOUNDARY: a valid Downbeat on the slots is the row of that name, and a marker while the oscillator counts is
ignored (R37). -/
def State.beatBoundary (s : State) (base : BeatBase) (m : Option Marker) : State :=
  let down := base.slotted && !s.bar.beatsrc && (match m with | some x => markerDown x s.bar.rate | none => false)
  if down then s else s.beat base m

/-! ### Downbeats (R40) -/

/-- What a realignment works out: the new Bar before its wrap, the Bars it exceeds the master's by, whether the master
restarted, and D. -/
structure Realign where
  /-- the new Bar, not yet wrapped -/
  bar : Nat
  /-- Bars above the master-derived Bar -/
  slip : Nat
  /-- D was 0 or at least 2^31 -/
  restart : Bool
  /-- D -/
  d : Nat
deriving DecidableEq, Repr

/-- The new Bar of R40; without an earlier Downbeat the master's Bar is the next one. -/
def State.realignTo (s : State) (mbar : BitVec 32) : Realign :=
  let d := match s.bar.lastMbar with | some x => (mbar - x).toNat | none => 1
  let fwd := 1 ≤ d && d < 2 ^ 31
  let last := if s.bar.lastMbar.isSome then s.bar.lastDbBar else s.barNo
  let cur := if s.barNo < last then s.barNo + 2 ^ 38 else s.barNo
  let master := last + (if fwd then d else 1)
  ⟨max master (cur + 1), max master (cur + 1) - master, !fwd, d⟩

/-- BEATNO takes a valid Ring A Downbeat (R40, R34, R39): the count, its events and BAR_SLIP_BARS. -/
def State.realign (s : State) (m : Marker) (permille : Nat) : State :=
  let r := s.realignTo m.mbar
  let cur := if s.barNo < s.bar.lastDbBar then s.barNo + 2 ^ 38 else s.barNo
  let slipped := 1 < r.d || s.beatIx != 1023
  let ev := b2n slipped * 0x04 + b2n r.restart * 0x10
  let bar := { s.bar with
    beatno := r.bar % 2 ^ 38 * 1024, lost := 0, onOsc := false, hold := false, lastMbar := some m.mbar,
    lastDbBar := r.bar % 2 ^ 38, slipBars := up32 s.bar.slipBars r.slip }
  let s1 := ({ s with bar := bar, ringA := { s.ringA with slots := true } }).shorten
  let s2 := (s1.raise .bar (BitVec.ofNat 8 ev)).barMeasured permille
  if cur / 2 ^ 38 < r.bar / 2 ^ 38 then s2.wraps else s2

/-- The REALIGN record, when the realignment moves BEATNO ahead of the count (18 R445). -/
def State.realigned (s : State) (before slip : Nat) : State :=
  if s.bar.beatno == (before + 1) % Config.beatWrap then s
  else s.tally 0x66 none ((before + 1) % Config.beatWrap + 2 ^ 48 * min 65535 slip)

/-- The mode in which a device serves once Downbeats are there: Degraded while a role or bank is out or is being
resilvered. -/
def State.serving (s : State) : Mode := if s.rep.degraded then .degraded else .run

/-- Free-wheel ends at a valid Downbeat (R53); Degraded ends at one at which nothing is out (14 R359). -/
def State.downMode (s : State) : State :=
  if s.mode == .freewheel then s.enter s.serving 0x14 else s.backToRun

/-- The Downbeat that a rate change names: slotting stops and the training interval begins (04 R94). The Beat that it begins
has been funded at the budget of the slots: the oscillator counts from the next one on (DEDUCED, log 110). -/
def State.retrainAt (s : State) (mbar : BitVec 32) : State :=
  match s.bar.rateNext with
  | some (_, b) =>
    if b == mbar then
      { s with bar := { s.bar with retrain := true }, ringA := { s.ringA with slots := false },
               ringB := { s.ringB with slots := false } }
    else s
  | none => s

/-- A valid Downbeat begins a Beat: realignment, mode, records, the changes that wait for it, the Beat itself, and the
training of a rate change that names it. -/
def State.downGo (s : State) (m : Marker) (permille : Nat) (enterMode : State → State) : State :=
  let slip := (s.realignTo m.mbar).slip
  let s1 := enterMode ((s.closeBeat).realign m permille)
  let s2 := s1.realigned s.bar.beatno slip
  (((((s2.barBegins true).downChanges).masterBeats).degrades).runBeat).retrainAt m.mbar

/-- In Join a Downbeat brings the owners of the reply-only positions into force (05 R124). -/
def State.joinDown (s : State) : State :=
  if s.mode == .join then { s with ringA := s.ringA.ownersDown, ringB := s.ringB.ownersDown } else s

/-- DOWNBEAT (R40): in Run, Degraded and Free-wheel, and in Rest until a wake has completed; a rate change, a Join and the
end of a Rest have their own rows. -/
def State.downbeat (s : State) (m : Marker) (permille : Nat) : State :=
  if s.bar.beatsrc || !markerDown m s.bar.rate then s
  else if s.completing then
    (if !s.mode.timed || s.bar.retrain then (if s.knl.running then s.knellPeriod else s)
     else
       let t := ({ s with justOut := [], priors := [], bar := { s.bar with cal := 0 } }).realign m permille
       if s.knl.running then t.knellPeriod else t)
  else if !s.mode.timed then s.joinDown
  else if s.bar.retrain then s
  else if s.mode == .rest && (s.gen.awake || !s.ringA.swOpen) then s
  else s.downGo m permille State.downMode

/-! ### Ring B (R44, R45) -/

/-- A count of slots in the range −16,384 to +16,383. -/
def wrapSlots (n : Int) : Int := (n + 16384) % 32768 - 16384

/-- RING_B_DOWNBEAT: the first valid one is measured, later ones are compared (R44, R45). As beat source the device emits it
with Ring A's, at offset 0 (R58). -/
def State.ringBDown (s : State) (m : Marker) (given : BitVec 16) : State :=
  let offset := if s.bar.beatsrc then 0 else given
  if !s.mode.onRing || !s.ringB.joined || !markerDown m s.bar.rate then s
  else
    let s1 := { s with bar := { s.bar with bLost := 0 }, ringB := { s.ringB with slots := true } }
    if !s.bar.bvalid then { s1 with bar := { s1.bar with bOffset := offset, bvalid := true } }
    else if 4 < (wrapSlots (offset.toInt - s.bar.bOffset.toInt)).natAbs then s1.raise .bar 0x08
    else s1

/-- RING_B_DOWNBEAT_LOSS: no valid one for 2 Bars (R45). -/
def State.ringBLost (s : State) : State :=
  if s.mode.timed && s.ringB.joined && 2 ≤ s.bar.bLost then
    ({ s with bar := { s.bar with bLost := 0 } }).raise .bar 0x08
  else s

/-- BVALID clears where a ring's Downbeats move by a known step (R45). -/
def State.bMoves (s : State) : State := { s with bar := { s.bar with bvalid := false } }

/-! ### Free-wheel (R49) -/

/-- The ALERT of an events register on every ring that carries slots and has a destination (19 R456). -/
def State.alertEvery (s : State) (i : EvId) : State :=
  let one := fun (x : Ring × Node) (t : State) =>
    if (t.ring x.1).carries && x.2 != 0x1F then { t with devq := t.devq ++ [alertPkt t i x.1 x.2] } else t
  let s1 := forEach one [(.a, s.gen.alertA), (.b, s.gen.alertB)] s
  { s1 with evs := s1.evs.set i.ix { s1.evs[i.ix] with due := false, sent := true } }

/-- FREEWHEEL_ENTRY (R49): 2,048 Beats without a valid Downbeat. -/
def State.freewheels (s : State) : State :=
  if s.entersFreewheel s.bar.lost && !s.completing then
    let s1 := ({ s with bar := { s.bar with fwBars := 1 } }).enter .freewheel 0x13
    ((s1.raise .bar 0x01).alertEvery .bar).tally 0x65 none s1.budgetE
  else s

/-! ### Sensors (20 R478 to R482, 19 R459) -/

/-- The largest magnitude among a die's sensors in use. -/
def dieField (excl : BitVec 4) (xs : List (BitVec 12)) : Nat :=
  ((List.range 4).map fun i => if excl.getLsbD i then 0 else (xs.getD i 0).toNat).foldl max 0

/-- The readings of the eleven dies: a die without a sensor takes the highest reading of the others (16 R394). -/
def Pwr.fields (p : Pwr) (xs : List (List (BitVec 12))) : List Nat :=
  let own := (List.finRange 11).map fun (i : Fin 11) => (p.fieldExcl[i] == 0xF, dieField p.fieldExcl[i] (xs.getD i.val []))
  let top := ((own.filter fun x => !x.1).map fun x => x.2).foldl max 0
  own.map fun x => if x.1 then top else x.2

/-- Temperatures of the sensors in use, in eighths of a degree. -/
def Pwr.temps (p : Pwr) (ts : List (BitVec 12)) : List Int :=
  (List.range 16).filterMap fun i => if p.tempExcl.getLsbD i then none else some (ts.getD i 0).toInt

/-- The position of the first of the largest values. -/
def argMax (l : List Nat) : Nat × Nat :=
  ((List.range l.length).zip l).foldl (fun b x => if b.2 < x.2 then x else b) (0, 0)

/-- The sixteenth calm sample in a row clears a condition. -/
def calm (on : Bool) (n : Nat) (quiet : Bool) : Bool × Nat :=
  let m := if quiet then min 16 (n + 1) else 0
  (on && !(m == 16), m)

/-- Whether a sample falls due: in ring time at BEATNO[7:0] = 0, in the house-timed modes at any of its moments (R459). -/
def State.sampleDue (s : State) : Bool :=
  if s.mode.timed then s.bar.beatno % 256 == 0 && !s.bar.hold && s.calOnce 3
  else s.mode != .off && s.mode != .hibernate && s.mode != .knelled

/-- The magnetic-field part of a sample (R478, R479, R481). -/
def State.sampleField (s : State) (fields : List (List (BitVec 12))) : State :=
  let fs := s.pwr.fields fields
  let top := argMax fs
  let w := calm (s.pwr.wrhold || s.pwr.wrholdNext) s.pwr.calmW (top.2 ≤ 380)
  let r := calm s.pwr.rdfield s.pwr.calmR (top.2 ≤ 1130)
  let on := w.1 || 420 < top.2
  let rd := r.1 || 1170 < top.2
  let ended := (s.pwr.wrhold || s.pwr.wrholdNext) && !on
  let p := { s.pwr with
    field := Vector.ofFn fun (i : Fin 11) => BitVec.ofNat 12 (fs.getD i.val 0), fieldValid := true,
    peak := if s.pwr.peak.1.toNat < top.2 then (BitVec.ofNat 12 top.2, BitVec.ofNat 4 top.1) else s.pwr.peak,
    wrholdNext := on, wrhold := s.pwr.wrhold && on, calmW := w.2, rdfield := rd, calmR := r.2 }
  let s1 := { s with pwr := p, ecc := { s.ecc with boostTo := if ended then some ((s.barNo + 1024) % 2 ^ 38) else s.ecc.boostTo } }
  if rd && !s.pwr.rdfield then s1.raise .pwr 0x02 else s1

/-- The temperature part of a sample (R482). -/
def State.sampleTemp (s : State) (temps : List (BitVec 12)) : State :=
  let ts := s.pwr.temps temps
  let hi := ts.any fun t => 840 < t
  let lo := ts.any fun t => t < -320
  let h := calm s.pwr.temphi s.pwr.calmT (!hi && !lo)
  let l := calm s.pwr.templo s.pwr.calmT (!hi && !lo)
  let p := { s.pwr with
    temp := Vector.ofFn fun (i : Fin 16) =>
      if s.pwr.tempExcl.getLsbD i.val then s.pwr.temp[i] else temps.getD i.val 0,
    tempValid := ~~~ s.pwr.tempExcl, temphi := h.1 || hi, templo := l.1 || lo, calmT := h.2 }
  if (hi && !s.pwr.temphi) || (lo && !s.pwr.templo) then ({ s with pwr := p }).raise .pwr 0x04 else { s with pwr := p }

/-- SENSOR_SAMPLE: in house-timed modes WRHOLD takes effect at once, within its microsecond (R479). -/
def State.sample (s : State) (temps : List (BitVec 12)) (fields : List (List (BitVec 12))) : State :=
  if !s.sampleDue then s
  else
    let s0 := if s.mode.timed then s.calRan 3 else s
    let s1 := (s0.sampleField fields).sampleTemp temps
    if s.mode.timed || s1.pwr.wrhold == s1.pwr.wrholdNext then s1
    else ({ s1 with pwr := { s1.pwr with wrhold := true } }).raise .pwr 0x01

/-! ### Heat decay and the migration pass (09 R242, R243) -/

/-- Heat-decay events up to a BEATNO (Table 2.3). -/
def decaysTo (beat : Nat) : Nat := if beat < 96 then 0 else (beat - 96) / 262144 + 1

/-- Decays due and not yet applied. -/
def State.decaysDue (s : State) : Nat := (decaysTo s.bar.beatno + 2 ^ 30 - s.tier.lastDecay % 2 ^ 30) % 2 ^ 30

/-- The candidates of a Kit, hottest first, the lower page index first on equal heat. -/
def State.passCandidates (s : State) (k : Kit) : List Page :=
  let ok := fun (p : Page) => p.kit == k && p.deepPage.isSome && s.autoAt k p.kp && s.tier.promoteHeat ≤ p.heat
    && !p.nearPin && !p.mainPin && !p.impliedPin && !s.moving k p.kp
  let put := fun (p : Page) (l : List Page) =>
    let first := fun (q : Page) => p.heat < q.heat || (p.heat == q.heat && q.index < p.index)
    l.takeWhile first ++ p :: l.dropWhile first
  (s.pages.filter ok).foldr put []

/-- Whether an explicit request waits for a page (R253). -/
def State.askedFor (s : State) (k : Kit) (kp : KPage) : Bool := s.waits.any fun w => w.kit == k && w.pages.contains kp

/-- The victim of a demotion: the coldest unpinned page in Main of an Automatic window, the lower index first. -/
def State.passVictim (s : State) (k : Kit) (heat : Nat) : Option Page :=
  let ok := fun (p : Page) => p.kit == k && p.frame.isSome && s.autoAt k p.kp && p.heat < s.tier.demoteHeat
    && p.heat < heat && !p.nearPin && !p.mainPin && !p.impliedPin && !s.moving k p.kp && !s.askedFor k p.kp
  let colder := fun (a b : Page) => a.heat < b.heat || (a.heat == b.heat && a.index < b.index)
  match s.pages.filter ok with
  | [] => none
  | x :: xs => some (xs.foldl (fun a b => if colder b a then b else a) x)

/-- The pass of one Kit over its candidates: `n` moves are left to it. -/
def State.passKit (k : Kit) : List Page → Nat → State → State
  | [], _, s => s
  | p :: ps, n, s =>
    if s.askedFor k p.kp then State.passKit k ps n s
    else
      let home := fun (f : Nat) (t : State) => t.addMove { mkMove k p.kp .rehome f with going := false, pass := true }
      match s.homeChoice k with
      | some (.main f) => if n == 0 then s else State.passKit k ps (n - 1) (home f s)
      | _ =>
        match s.passVictim k p.heat, s.deepChoice k with
        | some v, some (.deep d) =>
          if n < 2 then s
          else
            let f := match s.freeFrame with | some g => min g v.index | none => v.index
            State.passKit k ps (n - 2)
              (home f (s.addMove { mkMove k v.kp .demote d with going := false, pass := true }))
        | _, _ => s

/-- A migration pass (R243), unless warm-up or NOAUTO suppresses it (R256). -/
def State.migrationPass (s : State) : State :=
  if s.tier.warm || s.tier.noauto then s
  else forEach (fun (k : Kit) (t : State) => State.passKit k (t.passCandidates k) t.tier.migMax t) allKits s

/-- HEAT_DECAY (R242): the shift of every missed decay at once. -/
def State.decay (s : State) : State :=
  let n := s.decaysDue
  if !s.mode.traffic || n == 0 || 2 ^ 29 ≤ n || !s.calOnce 8 then s
  else
    let s := s.calRan 8
    let k := s.tier.decay * n
    let one := fun (p : Page) => { p with heat := if 16 ≤ k then 0 else p.heat / 2 ^ k }
    ({ s with pages := s.pages.map one, tier := { s.tier with lastDecay := decaysTo s.bar.beatno } }).migrationPass

/-! ### The end of a Measure -/

/-- Mean pulses per die-slice write, 8.8, rounded to the nearest, halves upward (03 R85). -/
def meanWear (pulses writes : Nat) : Nat := (2 * 256 * pulses + writes) / (2 * writes)

/-- STK_WEAR of the Measure ended: WEAR with its record and the dies that go out (R85, 14 Table 14.2). -/
def State.wearEnds (s : State) : State :=
  let one := fun (d : Fin 11) =>
    if s.stk.writes[d] == 0 then s.stk.wear[d] else min 65535 (meanWear s.stk.pulses[d] s.stk.writes[d])
  let wear := Vector.ofFn one
  let zero := Vector.replicate 11 0
  let s1 := { s with stk := { s.stk with wear := wear, pulses := zero, writes := zero, firstUse := false } }
  let high := (List.finRange 11).filter fun d => s.stk.wearThr < wear[d]
  let s2 := if high.isEmpty || s.stk.firstUse then s1
    else forEach (fun (d : Fin 11) (t : State) => t.logRec 0x0201 (d.val + 65536 * wear[d])) high (s1.raise .stk 0x01)
  let outs := (List.finRange 11).filter fun d => s.rep.wearDie < wear[d] && s.rep.serves d.val
  forEach (fun (d : Fin 11) (t : State) => t.dieGoesOut d) outs s2

/-- DEEP_WEAR of the Measure ended (10 R272). No event tells the LDPC iterations of a codeword: their mean is a free value (log
2). -/
def State.deepWearEnds (s : State) : State :=
  let m := s.deep.measure
  let mean := fun (a b : Nat) => if b == 0 then 0 else min 65535 (256 * a / b)
  let w := (mean m.2.1 m.1, if m.2.2 == 0 then 0 else (Config.freeWord s.free).toNat % 65536)
  let s1 := { s with deep := { s.deep with wear := w, measure := (0, 0, 0) } }.spend (b2n (m.2.2 != 0))
  if s.deep.retryThr < w.1 then (s1.raise .deep 0x08).logRec 0x0401 w.1 else s1

/-- The chunks that the Belfry refresh rewrote in the Measure ended (15 R379). -/
def State.weakEnds (s : State) : State :=
  let s1 := { s with bel := { s.bel with weakLast := s.bel.weakNow, weakNow := 0 } }
  if s.bel.weakThr < s.bel.weakNow then s1.raise .bel 0x04 else s1

/-- The scrub cursor, its accumulator and the sweep's Bars are saved (13 R345), and a resilvering's cursor (14 R366). -/
def State.cursorsSaved (s : State) : State :=
  let s1 := { s with ecc := { s.ecc with saved := (s.ecc.cur, s.ecc.acc, s.sweepNow) } }
  let s2 := s1.queueRec .scrub
  match s.rep.resilver with
  | some t => s2.saveProgress t.role t.cursor
  | none => s2

/-- MEASURE_END (R85): a Measure ends where the Bar passes a multiple of 4,096. -/
def State.measureEnds (s : State) : State :=
  if !s.mode.timed || s.bar.hold || measureOf s.bar.beatno == s.stk.measure then s
  else
    let s1 := { s with stk := { s.stk with measure := measureOf s.bar.beatno } }
    (((s1.wearEnds).deepWearEnds).weakEnds).cursorsSaved

/-! ### The rows -/

/-- RING_B_DOWNBEAT (R44). -/
def execRingBDownbeat (m : Marker) (offset : BitVec 16) (s : State) : Host.Outcome State Fault Refusal :=
  .next (s.ringBDown m offset)
/-- RING_B_DOWNBEAT_LOSS (R45). -/
def execRingBDownbeatLoss (s : State) : Host.Outcome State Fault Refusal := .next s.ringBLost
/-- FREEWHEEL_ENTRY (R49). -/
def execFreewheelEntry (s : State) : Host.Outcome State Fault Refusal := .next s.freewheels
/-- SENSOR_SAMPLE (19 R459). -/
def execSensorSample (temps : List (BitVec 12)) (fields : List (List (BitVec 12))) (s : State) :
    Host.Outcome State Fault Refusal :=
  if (Instr.sensorSample temps fields).wf then .next (s.sample temps fields) else .fault .illFormed
/-- SCRUB_STEP (13 R343). -/
def execScrubStep (s : State) : Host.Outcome State Fault Refusal := .next s.scrubStep
/-- HEAT_DECAY (09 R242). -/
def execHeatDecay (s : State) : Host.Outcome State Fault Refusal := .next s.decay
/-- MEASURE_END (03 R85). -/
def execMeasureEnd (s : State) : Host.Outcome State Fault Refusal := .next s.measureEnds

end Sys2Proof.Machine
end

