-- ==== Sys2Proof/Machine/Control.lean ====
section
/-! DEFINITION. Link, status and register commands (07 R169, R170, R192, R193; the CSR rows of 02, 08, 09, 17, 19) and the
Kit commands (07 R186 to R191; 08). -/

namespace Sys2Proof.Machine

/-! ### Link and status -/

/-- PING (R169). -/
def State.ping (s : State) (j : Job) : State :=
  j.answer s { ansData j.rq.payload j.admBeat with release := some (s.readRelease j.kit j.admBeat 0) }

/-- The die position out of service, or 0x0F: a physical die (R353, Table 7.3). -/
def Rep.dieOutNo (r : Rep) : Nat := if r.roleOutNo == 15 then 15 else r.phys r.roleOutNo

/-- Table 7.3. -/
def State.statusBlock (s : State) (k : Kit) : List Byte :=
  let x := s.kit k
  let flags := b2n s.gen.active + 2 * b2n s.bel.testSeal + 4 * b2n s.ringA.joined + 8 * b2n s.ringB.joined
    + 16 * b2n x.consent
  let resil := match s.rep.resilver with | some t => t.cursor * 100 / 2 ^ 28 | none => 0
  leBytes 1 s.mode.code ++ leBytes 1 s.cond.toNat ++ leBytes 6 s.bar.beatno ++ leBytes 1 k.val ++ leBytes 1 flags
    ++ leBytes 2 (s.inflightOf (some k)) ++ leBytes 2 s.inflight.length ++ leBytes 2 (s.kitHeld k) ++ leBytes 2 x.pshare
    ++ leBytes 2 x.freeCredits ++ leBytes 1 x.granted ++ leBytes 1 x.rtres ++ zeros 2 ++ leBytes 4 Config.genId.toNat
    ++ leBytes 4 s.alertSum ++ leBytes 1 s.rep.dieOutNo ++ leBytes 1 resil ++ leBytes 1 (b2n s.deep.muted) ++ zeros 29

/-- STATUS_QUERY (R170). -/
def State.statusQuery (s : State) (j : Job) : State :=
  j.answer s { ansData (s.statusBlock j.kit) with release := some (s.readRelease j.kit j.admBeat 0) }

/-! ### Registers -/

/-- CSR_READ (R192, R193). -/
def State.csrRead (s : State) (j : Job) : State :=
  let off := csrOff j.rq
  let s1 := s.csrLatch off (lenOf j.rq)
  j.answer s1 (ansData (s1.csrBytes off (lenOf j.rq)))

/-- CSR_WRITE: every register in ascending order within one Beat (R193). -/
def State.csrWrite (s : State) (j : Job) : State :=
  j.reply (s.writeAll (csrPairs (csrOff j.rq) j.rq.payload)) 0x00 0

/-! ### Kits: creation -/

/-- The quotas that a new Kit takes: those written since it was last destroyed, else the reset values (R257). -/
def KitSt.freshQuotas (x : KitSt) : Vector Nat 7 :=
  Vector.ofFn fun i : Fin 7 => if x.kqWritten.getLsbD i.val then x.kq[i] else kqReset[i]

/-- The bindings of a payload, in force from the next Beat (R186). -/
def bindingsOf (rq : Req) (now : Nat) : List Binding :=
  (bindPairs rq).map fun p => ⟨BitVec.ofNat 5 p.1, BitVec.ofNat 4 p.2, some ((now + 1) % Config.beatWrap)⟩

/-- A Kit as KIT_CREATE makes it (R74, R186, R257). -/
def KitSt.create (x : KitSt) (rq : Req) (now draw : Nat) : KitSt :=
  { KitSt.reset with
    live := true, binds := bindingsOf rq now, notify := BitVec.ofNat 5 (fieldAt rq.payload 2 1),
    key := ⟨true, true, true, draw, false, false⟩, kq := x.freshQuotas, granted := x.granted, rtresNow := x.rtresNow }

/-- The Kit that a KIT_CREATE makes: the named one when it is free, the lowest free one for 0xFF (R186). -/
def State.createKit (s : State) (n : Nat) : Option Kit :=
  if n == 255 then s.freeKit
  else if (s.kit (kitIx n)).live || (s.kit (kitIx n)).destroying then none else some (kitIx n)

/-- KIT_CREATE with REBIND = 0 (R186, R220). -/
def State.kitCreate (s : State) (j : Job) : State :=
  match s.createKit (pb j.rq 8) with
  | none => j.reply s 0x11 5
  | some k =>
    let s1 := s.setKit k ((s.kit k).create j.rq s.bar.beatno s.free)
    if !s1.ledgerOk s then j.reply s 0x11 5
    else if !Config.noiseHealthy s.free then j.reply (s.spend 1) 0x60 2
    else
      let s2 := { s1 with evs := s1.evs.set (EvId.kit k).ix EvReg.zero }
      j.reply ((s2.spend 1).queueRec (.key k)) 0x00 k.val

/-- KIT_CREATE with REBIND = 1: bindings and KIT_NOTIFY, and the end of a suspension, with its notice (R187, Table 8.2). -/
def State.kitRebind (s : State) (j : Job) : State :=
  let k := kitIx (pb j.rq 8)
  let x := s.kit k
  let s1 := s.setKit k { x with binds := bindingsOf j.rq s.bar.beatno, suspended := false,
                                notify := BitVec.ofNat 5 (fieldAt j.rq.payload 2 1) }
  let s2 := if x.suspended then s1.notifyKit k 0x0101 0 else s1
  j.reply s2 0x00 k.val

/-! ### Windows and pages that go away -/

/-- Whether two page ranges meet. -/
def meet (a n b m : Nat) : Bool := a < b + m && b < a + n

/-- Whether an admitted request of a Kit touches kit pages and has no reply yet. -/
def State.touching (s : State) (k : Kit) (base size : Nat) : Bool :=
  s.inflight.any fun f => f.kit == some k && f.stage != .replied &&
    (match spanOf f.rq with
     | some (a, n) => meet (a / 65536) ((a + max 1 n - 1) / 65536 - a / 65536 + 1) base size
     | none => false)

/-- The windows of other Kits that share an owner's pages: Kit and index. -/
def State.sharers (s : State) (o : Kit) (base size : Nat) : List (Kit × Fin 8) :=
  (s.liveKits.map fun k => (List.finRange 8).filterMap fun i =>
    match (s.kit k).wins[i] with
    | some w => if w.srcKit == some o && meet w.srcBase w.size base size then some (k, i) else none
    | none => none).flatten

/-- Whether no admitted request touches a window. -/
def State.windowIdle (s : State) (x : Kit × Fin 8) : Bool :=
  match (s.kit x.1).wins[x.2] with
  | some w => !s.touching x.1 w.base w.size
  | none => true

/-- Whether the chord writes of a Kit to a page range are all over. -/
def State.writesOver (s : State) (k : Kit) (base size : Nat) : Bool :=
  !(s.hold.any fun e => e.payer == some k && base * 65536 ≤ e.kaddr && e.kaddr < (base + size) * 65536)
    && !(s.merges.any fun m => m.kit == k && base * 65536 ≤ m.kaddr && m.kaddr < (base + size) * 65536)

/-- Clear a sharing window: SHARELOST, set and sent once per window (R216, R212). -/
def State.clearSharer (s : State) (o : Kit) (x : Kit × Fin 8) : State :=
  let k := x.1
  let s1 := s.setKit k { s.kit k with wins := (s.kit k).wins.set x.2 none }
  (s1.raise (.kit k) 0x01).notifyKit k 0x0100 (x.2.val + 256 * o.val)

/-- The operations of a Deep queue that are left once a Kit's pages in a range are gone. -/
def DeepOp.prune (gone : Kit → KPage → Bool) : DeepOp → Option DeepOp
  | .program payer ss loc =>
    match ss.filter fun x => !gone x.1 x.2.1 with
    | [] => none
    | rest => some (.program payer rest loc)
  | op => some op

/-- The pages of a Kit that satisfy `p` are released: records, Near blocks, moves, waiting sectors, Deep map entries (R190,
R188, 10 R260). -/
def State.releasePages (s : State) (k : Kit) (p : KPage → Bool) : State :=
  let gone := fun (o : Kit) (kp : KPage) => o == k && p kp
  let deepPages := (s.pages.filter fun x => gone x.kit x.kp).filterMap Page.deepPage
  let deep := { s.deep with
    map := s.deep.map.filter fun e => !deepPages.contains e.page,
    pack := s.deep.pack.filter fun x => !gone x.1 x.2.1,
    queue := s.deep.queue.filterMap (DeepOp.prune gone) }
  { s with
    pages := s.pages.filter fun x => !gone x.kit x.kp,
    moves := s.moves.filter fun m => !gone m.kit m.kp,
    near := s.near.filter fun b => !gone b.kit b.kp,
    chordq := s.chordq.filter fun q => match q.1 with
      | .pageTable o kp _ => !gone o kp
      | .move o kp => !gone o kp
      | _ => true,
    deep := deep }

/-- Every waiting request of a drain replies OK. -/
def State.drainsOver (s : State) (k : Kit) (w : Option (Fin 8)) : State :=
  let mine := s.drains.filter fun d => d.2.2.1 == k && d.2.2.2 == w
  let s1 := { s with drains := s.drains.filter fun d => !(d.2.2.1 == k && d.2.2.2 == w) }
  forEach (fun (d : Nat × Req × Kit × Option (Fin 8)) (t : State) => t.answer d.1 d.2.1 (some 0) (ans 0x00 0)) mine s1

/-- WINDOW_SET with OP = 1 (R189). -/
def State.windowSet (s : State) (j : Job) : State :=
  let k := kitIx (pb j.rq 8)
  let w := winOf j.rq.payload s.bar.beatno
  j.reply (s.setKit k { s.kit k with wins := (s.kit k).wins.set! (pb j.rq 9) (some w) }) 0x00 0

/-- WINDOW_SET with OP = 0 starts its drain; an index not in use is done (R190). -/
def State.windowClear (s : State) (j : Job) : State :=
  let k := kitIx (pb j.rq 8)
  let i : Fin 8 := engIx (pb j.rq 9)
  match (s.kit k).wins[i] with
  | none => j.reply s 0x00 0
  | some w =>
    { s.setKit k { s.kit k with wins := (s.kit k).wins.set i (some { w with clearing := true }) } with
      drains := s.drains ++ [(j.rid, j.rq, k, some i)] }

/-- WINDOW_CLEAR_DRAINED (R190, R216): removal, release of the pages and clearing of the sharing windows together. -/
def State.windowGone (s : State) (k : Kit) (i : Fin 8) : State :=
  match (s.kit k).wins[i] with
  | none => s.drainsOver k (some i)
  | some w =>
    let shared := if w.srcKit.isNone then s.sharers k w.base w.size else []
    if !w.clearing || !s.windowIdle (k, i) || !shared.all s.windowIdle || !s.writesOver k w.base w.size then s
    else
      let s1 := s.setKit k { s.kit k with wins := (s.kit k).wins.set i none }
      let s2 := if w.srcKit.isNone then
          s1.releasePages k fun kp => w.base ≤ kp.toNat && kp.toNat < w.base + w.size else s1
      (forEach (fun (x : Kit × Fin 8) (t : State) => t.clearSharer k x) shared s2).drainsOver k (some i)

/-! ### Kits: destruction -/

/-- KIT_DESTROY begins (R188 step 1, R290): bindings go at once, merge entries close, the drain starts. -/
def State.kitDestroy (s : State) (j : Job) : State :=
  let k := kitIx (pb j.rq 8)
  let s1 := (s.setKit k { s.kit k with binds := [], destroying := true }).closeMerges fun m => m.kit == k
  { s1 with drains := s1.drains ++ [(j.rid, j.rq, k, none)] }

/-- Whether a Kit under KIT_DESTROY has drained (R188 step 2, R216). -/
def State.kitDrained (s : State) (k : Kit) : Bool :=
  !(s.inflight.any fun f => f.kit == some k && f.stage != .replied) && !(s.jobs.any fun j => j.kit == k)
    && !(s.hold.any fun e => e.payer == some k) && !(s.merges.any fun m => m.kit == k)
    && ((s.sharers k 0 (2 ^ 23)).all s.windowIdle)

/-- The engines of a Kit stop (R188 step 3). -/
def State.stopEngines (s : State) (k : Kit) : State :=
  { s with engs := s.engs.map fun g =>
      if g.kit == k && g.state != .idle then
        { g with state := .stopped, fetches := [], streams := [], fifo := [] } else g }

/-- A Kit number after its KIT_DESTROY: its values go back at the next Downbeat (R74), its quotas to 0 (R257). -/
def KitSt.destroyed (x : KitSt) : KitSt :=
  { KitSt.reset with kq := Vector.replicate 7 0, kqNow := (0, 0), granted := x.granted, rtresNow := x.rtresNow }

/-- A destroyed Kit's values stay in the sums of Table 3.3 until the next Downbeat (03 R74). -/
def Stk.goneWith (k : Stk) (x : KitSt) : Nat × Nat × Nat × Nat :=
  (k.gone.1 + x.kres, k.gone.2.1 + x.rtres, k.gone.2.2.1 + x.icred, k.gone.2.2.2 + x.pshare)

/-- Steps 3 and 4 of KIT_DESTROY: its engines stop, and the overwriting of both key copies begins (R188). -/
def State.kitWipe (s : State) (k : Kit) : State :=
  let s1 := s.stopEngines k
  (s1.setKit k { s1.kit k with wipe := .under }).queueRec (.key k)

/-- KIT_DESTROY_DRAINED (R188 steps 3 to 7): first the key, and, once both copies are overwritten, pages, values and the
reply (R221). -/
def State.kitGone (s : State) (k : Kit) : State :=
  if !(s.kit k).destroying || !s.kitDrained k then s
  else match (s.kit k).wipe with
  | .idle => if s.updating (.key k) then s else s.kitWipe k
  | .under => s
  | .done =>
    let shared := s.sharers k 0 (2 ^ 23)
    let s1 := s.queueRec (.recant k)
    let s2 := s1.releasePages k fun _ => true
    let s3 := { s2 with muffles := s2.muffles.filter fun m => m.kit != k,
                        stages := s2.stages.filter fun x => x.kit != k,
                        copies := s2.copies.filter fun x => x.kit != k,
                        stk := { s2.stk with dirty := s2.stk.dirty || (s2.kit k).kres != 0, gone := s2.stk.goneWith (s2.kit k) } }
    let s4 := forEach (fun (x : Kit × Fin 8) (t : State) => t.clearSharer k x) shared s3
    let s5 := s4.setKit k (s4.kit k).destroyed
    { s5 with evs := s5.evs.set (EvId.kit k).ix EvReg.zero }.drainsOver k none

/-- STROKE_SET (R191). -/
def State.strokeSet (s : State) (j : Job) : State :=
  let s1 := s.strokeApply (kitIx (pb j.rq 8)) j.rq.payload
  let k := kitIx (pb j.rq 8)
  let s2 := if (s1.kit k).kres == (s.kit k).kres then s1 else { s1 with stk := { s1.stk with dirty := true } }
  j.reply s2 0x00 0

/-! ### The rows -/

/-- PING (R169). -/
def execPing (rq : Req) (s : State) : Host.Outcome State Fault Refusal :=
  runReq (Instr.ping rq).wf rq s fun j t => t.ping j

/-- STATUS_QUERY (R170). -/
def execStatusQuery (rq : Req) (s : State) : Host.Outcome State Fault Refusal :=
  runReq (Instr.statusQuery rq).wf rq s fun j t => t.statusQuery j

/-- CSR_READ (R193). -/
def execCsrRead (rq : Req) (s : State) : Host.Outcome State Fault Refusal :=
  runReq (Instr.csrRead rq).wf rq s fun j t => t.csrRead j

/-- CSR_WRITE (R193). -/
def execCsrWrite (rq : Req) (s : State) : Host.Outcome State Fault Refusal :=
  runReq (Instr.csrWrite rq).wf rq s fun j t => t.csrWrite j

/-- BAR_BEATNO_LO_READ (R61). -/
def execBarBeatnoLoRead (rq : Req) (s : State) : Host.Outcome State Fault Refusal :=
  runReq (Instr.barBeatnoLoRead rq).wf rq s fun j t => t.csrRead j

/-- GEN_TEMPO_STRICT_WRITE (R225, R231). -/
def execGenTempoStrictWrite (rq : Req) (s : State) : Host.Outcome State Fault Refusal :=
  runReq (Instr.genTempoStrictWrite rq).wf rq s fun j t => t.csrWrite j

/-- GEN_REST_EXIT_WRITE (R416). -/
def execGenRestExitWrite (rq : Req) (s : State) : Host.Outcome State Fault Refusal :=
  runReq (Instr.genRestExitWrite rq).wf rq s fun j t => t.csrWrite j

/-- BAR_SRC_RATE_WRITE (R59). -/
def execBarSrcRateWrite (rq : Req) (s : State) : Host.Outcome State Fault Refusal :=
  runReq (Instr.barSrcRateWrite rq).wf rq s fun j t => t.csrWrite j

/-- TIER_SPLIT_REQUEST (R237). -/
def execTierSplitRequest (rq : Req) (s : State) : Host.Outcome State Fault Refusal :=
  runReq (Instr.tierSplitRequest rq).wf rq s fun j t => t.csrWrite j

/-- TIER_KPROBE_WRITE (R257). -/
def execTierKprobeWrite (rq : Req) (s : State) : Host.Outcome State Fault Refusal :=
  runReq (Instr.tierKprobeWrite rq).wf rq s fun j t => t.csrWrite j

/-- EVENTS_W1C_CLEAR (R453); the ALERTs that other registers owe are sent (R160). -/
def execEventsW1cClear (rq : Req) (s : State) : Host.Outcome State Fault Refusal :=
  runReq (Instr.eventsW1cClear rq).wf rq s fun j t => (t.csrWrite j).alertSend

/-- KIT_CREATE (R186). -/
def execKitCreate (rq : Req) (s : State) : Host.Outcome State Fault Refusal :=
  runReq (Instr.kitCreate rq).wf rq s fun j t => t.kitCreate j

/-- KIT_CREATE with REBIND = 1 (R187). -/
def execKitCreateRebind (rq : Req) (s : State) : Host.Outcome State Fault Refusal :=
  runReq (Instr.kitCreateRebind rq).wf rq s fun j t => t.kitRebind j

/-- KIT_DESTROY (R188). -/
def execKitDestroy (rq : Req) (s : State) : Host.Outcome State Fault Refusal :=
  runReq (Instr.kitDestroy rq).wf rq s fun j t => t.kitDestroy j

/-- KIT_DESTROY_DRAINED (R188). -/
def execKitDestroyDrained (k : Kit) (s : State) : Host.Outcome State Fault Refusal := .next (s.kitGone k)

/-- WINDOW_SET with OP = 1 (R189). -/
def execWindowSetSet (rq : Req) (s : State) : Host.Outcome State Fault Refusal :=
  runReq (Instr.windowSetSet rq).wf rq s fun j t => t.windowSet j

/-- WINDOW_SET with OP = 0 (R190). -/
def execWindowSetClear (rq : Req) (s : State) : Host.Outcome State Fault Refusal :=
  runReq (Instr.windowSetClear rq).wf rq s fun j t => t.windowClear j

/-- WINDOW_CLEAR_DRAINED (R190). -/
def execWindowClearDrained (k : Kit) (w : Fin 8) (s : State) : Host.Outcome State Fault Refusal :=
  .next (s.windowGone k w)

/-- STROKE_SET (R191). -/
def execStrokeSet (rq : Req) (s : State) : Host.Outcome State Fault Refusal :=
  runReq (Instr.strokeSet rq).wf rq s fun j t => t.strokeSet j

end Sys2Proof.Machine
end

