-- ==== Sys2Proof/Machine/Completion.lean ====
section
/-! DEFINITION. Completion of provisional writes (11 R298, R299), unplanned closure (04 R107), a full reset (17 R423), and
where a completion leads (17 R424). -/

namespace Sys2Proof.Machine

/-! ### Switches -/

/-- A ring's receivers and queues as its switch closes: spare maps and what is on the way are gone (04 R98, Table 4.6). -/
def RingSt.shut (x : RingSt) : RingSt :=
  { x with
    swOpen := false, trained := false, joined := false, slots := false, swops := up32 x.swops 1,
    rx := Vector.replicate 2 Spare.none_, tx := Vector.replicate 2 Spare.none_, bad := x.loopBad.truncate 16, remaps := [],
    gaveUp := 0, rejoin := none, heads := [], refusedStreams := [], through := [], pipe := [], front := [], held := [],
    settling := 0, blinkAt := [], copies := [], resend := [], blink := false, lastTx := none, usedAt := none, window := none,
    msg := none, mbox := [], mwin := none, mail := [], mailOut := [], leaveReq := none, enumSeen := false, freshDue := false,
    rosterIds := [] }

/-- A closure outside a window, on one ring: UNPLANNED (04 R107). -/
def State.closeRing (s : State) (r : Ring) (unplanned : Bool) : State :=
  if (s.ring r).swOpen then
    let s1 := (s.setRing r (s.ring r).shut).bMoves
    if unplanned then s1.raise (.lnk r) 0x01 else s1
  else s

/-- An unplanned closure closes both rings (R107). -/
def State.closeBoth (s : State) : State := (s.closeRing .a true).closeRing .b true

/-! ### What a completion finds -/

/-- The port without requests: a BELFRY_WRITE in progress stops there (15 R377). -/
def Bel.withoutRequests (b : Bel) : Bel :=
  { b with port := b.port.filter fun x => x.rid.isNone, jobs := [],
           run := match b.port.head? with | some (.write _) => none | _ => b.run }

/-- The chunk in progress has completed; what was to follow it at the port is not written (15 R377). -/
def State.belCut (s : State) : State := { s with bel := { s.bel with port := [], jobs := [], run := none } }

/-- What is dropped unwritten and unanswered: requests, their replies, write payload still in intake, device packets (R298,
Table 4.6). -/
def State.discard (s0 : State) : State :=
  let s := s0.zeroRest fun _ => true
  let lane := fun (x : RingSt) => { x with heads := [], refusedStreams := [] }
  { s with
    inflight := [], replies := [], reads := [], jobs := [], fences := [], waits := [], drains := [], stageJobs := [],
    mufJobs := [], devq := [], bel := s.bel.withoutRequests, closing := none, restDue := false, gongDue := none,
    ringA := lane s.ringA, ringB := lane s.ringB,
    kits := s.kits.map fun x => { x with taken := 0, destroying := false } }

/-- Every merge entry closes by read-merge; tokens do not bound it outside a Beat (R298). -/
def State.closeAll (s : State) : State :=
  let toks := s.kits.map fun x => x.tok
  let many := fun (x : KitSt) => { x with tok := 128 }
  let t := ({ s with kits := s.kits.map many }).closeMerges fun _ => true
  let back := fun (i : Fin 16) => { t.kit i with tok := toks[i] }
  { t with kits := Vector.ofFn back }

/-- Page-table chords that back a page or set a dirty bit, still waiting for their entry, are written with the data that
depends on them (DEDUCED: 09 R235, R246, log 15). -/
def State.tableFirst (s : State) : State :=
  let one := fun (q : WKind × Option Kit × Nat × ChordIx × List Byte) (t : State) =>
    match q.1 with
    | .pageTable k kp ch => match ch.ends with
      | none => t.commitPt k kp ch
      | some _ => t
    | _ => t
  { forEach one s.chordq s with chordq := [] }

/-- Whether an entry belongs to a completion: an RMW read in progress has not been accepted (R292), and what a move
in progress has not pulsed yet is abandoned (09 R252). -/
def State.completes (s : State) (e : WEntry) : Bool :=
  e.phase != .merging && (e.pulses != 0 || match e.kind with
    | .move k kp => !s.moving k kp
    | _ => true)

/-- The accepted writes. -/
def State.onlyAccepted (s : State) : State := { s with hold := s.hold.filter s.completes }

/-- The slices of an entry that fail in the end: as reported, and those of a die that gives no answer. -/
def State.endMask (s : State) (e : WEntry) (f : Slices) : Slices :=
  (f ||| s.silentMask e.chord.toNat) &&& e.slices &&& s.pulsable e.chord.toNat

/-- The recanted chords of a completion so far: Kit and chord. -/
abbrev Recants := List (Kit × ChordIx)

/-- Strokes of an entry, charged to who pays for it (03 Table 3.1). -/
def State.chargeEntry (s : State) (e : WEntry) (n : Nat) : State :=
  match e.payer with
  | some k => s.chargeKit k n
  | none => s.chargeMaint n

/-- The first pulse of an entry that has none yet, charged. -/
def State.firstPulse (s : State) (e : WEntry) : State :=
  if e.pulses == 0 then (s.pulse e.ent).chargeEntry e (sliceCount e.slices) else s

/-- `n` further pulses of each slice of a mask, charged and counted (03 R62, R85). -/
def State.morePulses (s : State) (e : WEntry) (m : Slices) (n : Nat) : State :=
  let t := (s.wearSlices e.chord.toNat m n 0).chargeEntry e (n * sliceCount m)
  { t with provRetry := up32 t.provRetry (n * sliceCount m) }

/-- The two lowest slices of a mask: a completion gives a pulsed chord no more slice pulses (03 R77); which two is the model's
(DESIGN CHOICE, log 123). -/
def lowestTwo (m : Slices) : Slices := BitVec.ofNat 11 (((sliceList m).take 2).map fun i => 2 ^ i).sum

/-- The further slice pulses of a completion and the slices that then fail: of a chord with a retry due its two pulses, the
others failing as they stand; of one whose verify is outstanding those that fail in the end, two at most (R298, 03 R77). -/
def State.lastPulses (s : State) (e : WEntry) (f : Slices) : Slices × Slices :=
  let live := e.slices &&& s.pulsable e.chord.toNat
  match e.phase with
  | .retry _ => (lowestTwo live, (live &&& ~~~ lowestTwo live) ||| (s.endMask e f &&& lowestTwo live))
  | .pulsed _ => (lowestTwo (s.endMask e f), s.endMask e f)
  | _ => (0, s.endMask e f)

/-- One held write of a completion reaches its outcome: an unpulsed one is pulsed first, a pulsed one gets up to two slice
pulses, charged as any pulse (R298, R299). A recanted chord is listed, its poison marker left to the next Join. -/
def State.completeOne (e : WEntry) (f : Slices) (x : State × Recants) : State × Recants :=
  let s := x.1
  let p := s.lastPulses e f
  let s1 := (s.firstPulse e).morePulses e p.1 1
  let bad := p.2
  let weak := sliceCount bad == 1 && !s1.dieOutAt e.chord.toNat
  match e.kind, e.payer with
  | .data, some k =>
    if bad == 0 || weak then (s1.outcome e bad, x.2)
    else
      let s2 := (s1.storeEntry e bad).freeEntry e
      let s3 := { s2 with rep := s2.rep.addFaults s.bar.beatno e.chord.toNat bad, provRecanted := up32 s2.provRecanted 1,
                          ecc := { s2.ecc with lastUncorr := (e.chord.toNat, 4) } }
      let s4 := s3.setKit k ((s3.kit k).recant e.kaddr s3.bar.beatno false)
      ((s4.raise .prov 0x01).nearDrop k e.kaddr, x.2 ++ [(k, e.chord)])
  | _, _ => (s1.outcome e bad, x.2)

/-- Event-log records written at once, ahead of the queue and without a place in it: whole chunks from the head (R299, 15
R384). -/
def State.logNow : Nat → List LogRec → State → State
  | 0, _, s => s
  | _, [], s => s
  | n + 1, rs, s =>
    let two := rs.take 2
    let pad := if two.length < 2 then [s.padRec] else []
    let seq := s.bel.seq
    let bytes := (((List.range 2).zip (two ++ pad)).map fun x => x.2.bytes (seq + x.1)).flatten
    let s1 := (s.belPut (0x4000 + 16 * (seq % 1024)) bytes 1).spend (b2n s.tb)
    State.logNow n (rs.drop 2) { s1 with bel := { s1.bel with seq := (seq + 2) % 4096 } }

/-- The recant records of a completion (R299): the per-Kit block in both copies, and PFRECANT records for the first 32, which
LOGDEG forgoes (15 R386). -/
def State.recantRecords (s : State) (rs : Recants) : State :=
  if rs.isEmpty then s
  else
    let w := s.bel.writes
    let listed := if s.gen.logdeg then [] else rs.take 32
    let recs := listed.map fun x => LogRec.mk 0x0202 s.tb s.logTime (x.2.toNat + 2 ^ 28 * x.1.val) none
    let s1 := forEach (fun (k : Kit) (t : State) => t.putRecFree (.recant k)) allKits s
    let s2 := (s1.logNow 32 recs).chargeMaint (16 + ceilDiv listed.length 2)
    { s2 with
      bel := { s2.bel with
        writes := satAdd 32 w (16 + ceilDiv listed.length 2),
        recq := s2.bel.recq.filter fun r => !(allKits.any fun k => r == .recant k) },
      compRecants := s.compRecants ++ listed.map (fun x => x.2), compOver := s.compOver || listed.length < rs.length }

/-- PROVISIONAL_COMPLETION (R298, R299): `comp` lists the slices of each held write that still fail, in acceptance order. -/
def State.provisional (s : State) (comp : CompOut) : State :=
  let s1 := ((s.closeAll).tableFirst).onlyAccepted
  let es := s1.hold
  let r := forEach (fun (x : Nat × WEntry) (y : State × Recants) => State.completeOne x.2 (comp.getD x.1 0) y)
    ((List.range es.length).zip es) (s1, [])
  let s2 := { r.1 with hold := [], lastComp := (min 1023 es.length, min 1023 r.2.length) }
  s2.recantRecords r.2

/-- Every held write reaches its outcome under the full schedule of R283, at a Free-wheel expiry: recanted chords take their
poison marker as in any Beat. A slice that fails in the end has had seven pulses. The Beats that this takes advance no count
(02 R54), so it is one step of the model (log 124). -/
def State.finishHolds (s : State) (comp : CompOut) : State :=
  let s1 := (s.closeAll).tableFirst
  let es := s1.hold.filter fun e => e.phase != .merging
  forEach (fun (x : Nat × WEntry) (t : State) =>
    let bad := t.endMask x.2 (comp.getD x.1 0)
    ((t.firstPulse x.2).morePulses x.2 bad (7 - max 1 x.2.pulses)).outcome x.2 bad) ((List.range es.length).zip es) s1

/-! ### A full reset (17 R423) -/

/-- A Kit after a full reset (08 R207, Table 8.1, Table 8.7): Kits 1 to 15 return suspended and unbound. -/
def KitSt.afterReset (x : KitSt) (house : Bool) : KitSt :=
  let b := if house then KitSt.resetHouse else KitSt.reset
  { b with
    live := x.live, suspended := x.live && !house, keylost := x.keylost, key := x.key, wins := x.wins.map fun w => w.map fun v => { v with
      from_ := none, clearing := false }, kq := x.kq, kqWritten := x.kqWritten, kqNow := (x.kq[2], x.kq[3]),
    kunrep := x.kunrep, kfirst := x.kfirst }

/-- A page record after a full reset: what its confirmed page-table chords say; heat is 0 and Near pins are lost with Near
(09 R235, R240, R252, 17 Table 17.3, DEDUCED, log 16). -/
def Page.afterReset (p : Page) : Page :=
  { p with heat := 0, hits := 0, nearPin := false, impliedPin := false, dirtyDue := 0, redirty := 0, age := 0 }

/-- A page homed in Deep loses its Residency copy, written back before, when the split changes (09 R237). -/
def Page.unslot (p : Page) : Page := { p with slot := none, dirty := 0, mainPin := p.mainPin && p.frame.isSome }

/-- A ring interface after a full reset: reset values; the lanes that the repair map records as bad stay recorded. -/
def RingSt.afterReset (x : RingSt) : RingSt := { RingSt.reset with badKept := x.badKept }

/-- Deep after a full reset: what describes the medium stays, operations in progress are abandoned (10 R261, R280). -/
def Deep.afterReset (d : Deep) : Deep :=
  { Deep.reset with
    muted := d.muted, noreloc := d.noreloc, floor := d.floor, reserve := d.reserve, retiredCt := d.retiredCt,
    factoryBad := d.factoryBad, uncorr := d.uncorr, map := d.map, nand := d.nand, rotate := d.rotate,
    refreshSeq := d.refreshSeq, blks := d.blks,
    dies := d.dies.map fun x => { DeepDie.reset with failed := x.failed, good := x.good } }

/-- Repair state after a full reset: maps and cursors stay; the open faults are those of the last Toll (14 R354, 16 R403);
transfers start again (14 R364, R366). Near rows found bad since then wait for the next Morning Toll (14 R371). -/
def Rep.afterReset (r : Rep) (last : List FaultRec) : Rep :=
  let faults := last ++ r.faults.filter fun x => x.kind == 6 && !last.contains x
  { Rep.reset with
    rolesOut := r.rolesOut, spare := r.spare, spareFailed := r.spareFailed, role := r.role, banks := r.banks,
    runs := r.runs, savedRes := r.savedRes, map := r.map, used := r.used, rowsUsed := r.rowsUsed, colsUsed := r.colsUsed,
    recs := r.recs, factory := r.factory, faults := faults, resilBeats := r.resilBeats, nearSpare := r.nearSpare,
    nearWithdrawn := r.nearWithdrawn, progPair := r.progPair }

/-- The Belfry after a full reset: the store and its seals, and the counts it keeps; queues are lost with their SRAM (15
R384, R387). -/
def Bel.afterReset (b : Bel) : Bel :=
  { Bel.reset with
    mem := b.mem, seals := b.seals, testSeal := b.testSeal, weak := b.weak, recfix := b.recfix, writes := b.writes,
    shadowHead := b.shadowHead, shadowWrapped := b.shadowWrapped, seq := b.seq }

/-- The Toll block after a full reset: results kept or as run, and the orderly-shutdown record. -/
def Toll.afterReset (t : Toll) : Toll :=
  { Toll.reset with
    fast := t.fast, mpass := t.mpass, epass := t.epass, count := t.count, lastUs := t.lastUs, msince := t.msince,
    summary := t.summary, sac := t.sac, ordValid := t.ordValid, ordPass := t.ordPass, ordFull := t.ordFull,
    ordMsince := t.ordMsince, ordStart := t.ordStart, lastRecs := t.lastRecs }

/-- An events register whose bits are kept: what is set raises ALERT again (18 R448). -/
def EvReg.kept (e : EvReg) : EvReg := ⟨e.bits, 0, e.bits != 0, false⟩

/-- Every block at its reset values, with what a full reset keeps (17 Table 17.3). The mode stays for `arrive`. -/
def State.resetBlocks (s0 : State) : State :=
  let s := s0.abandonRuns
  let split := s.tier.splitNext.getD s.tier.split
  { State.reset with
    pending := s.pending, mode := s.mode, prev := s.prev, history := s.history, pins := s.pins,
    gen := { Gen.reset with uid := s.gen.uid, romOnly := s.gen.romOnly, fwPatch := s.gen.fwPatch, holdMs := s.gen.holdMs,
                            resetCause := s.gen.resetCause, resetMode := s.gen.resetMode },
    bar := { Bar.reset with beatsrc := s.bar.beatsrc }, stk := { Stk.reset with firstUse := s.stk.firstUse },
    tier := { Tier.reset with splitReq := s.tier.splitReq, split := split, snapshot := s.tier.snapshot,
                              snapToll := s.tier.snapToll },
    deep := s.deep.afterReset,
    ecc := { Ecc.reset with cur := s.ecc.saved.1, acc := s.ecc.saved.2.1, sweepBars0 := s.ecc.saved.2.2,
                            saved := s.ecc.saved, sweepBars := s.ecc.sweepBars, sweeps := s.ecc.sweeps,
                            uncorr := s.ecc.uncorr, dieCorr := s.ecc.dieCorr, lastUncorr := s.ecc.lastUncorr },
    rep := s.rep.afterReset s.toll.lastRecs, bel := s.bel.afterReset, toll := s.toll.afterReset,
    pwr := { Pwr.reset with pfail := s.pwr.pfail, tempExcl := s.pwr.tempExcl, fieldExcl := s.pwr.fieldExcl },
    knl := { Knl.reset with seq := s.knl.seq, cause := s.knl.cause, cause2 := s.knl.cause2, mode := s.knl.mode,
                            recstate := s.knl.recstate, beat := s.knl.beat, len := s.knl.len, summary := s.knl.summary },
    tap := s.tap, ringA := s.ringA.afterReset,
    ringB := { s.ringB.afterReset with rebindDue := false },
    kits := Vector.ofFn fun (i : Fin 16) => s.kits[i].afterReset (i.val == 0),
    evs := (State.reset.evs).set EvId.knl.ix (s.ev .knl).kept, mram := s.mram, nextRid := s.nextRid, sent := s.sent, nextEnt := s.nextEnt,
    lastComp := s.lastComp, compRecants := s.compRecants, compOver := s.compOver,
    pages := (s.pages.filter fun p => p.stable).map fun p =>
      if split == s.tier.split then p.afterReset else p.afterReset.unslot, stages := s.stages,
    muffles := s.muffles.filter fun m => m.stored, free := s.free }

/-- The KNL_ registers as the summary in the Belfry gives them (18 R436, R448). -/
def Knl.load (k : Knl) : Knl :=
  match k.summary with
  | none => k
  | some x => { k with seq := x.seq, cause := x.cause.1, cause2 := x.cause.2, mode := x.mode.code, recstate := x.recstate,
                       beat := x.beat, len := x.len }

/-- A full reset, into the mode to which its trigger leads, with its trigger code of Table 18.4 and its cause of GEN_RESET
(17 R426). -/
def State.fullReset (s : State) (cause : Nat) (m : Mode) (trig : Nat) : State :=
  let s1 := s.resetBlocks
  let gen := { s1.gen with resetCause := BitVec.ofNat 4 cause, resetMode := s.mode }
  ({ s1 with gen := gen, knl := s1.knl.load }).enter m trig

/-! ### Triggers and destinations (R424) -/

/-- Rank of a trigger, 0 highest (R424). -/
def Trigger.rank : Trigger → Nat
  | .vstby => 0 | .pwrgood => 1 | .resetN => 2 | .i3c => 3 | .gong => 4 | .knell => 5

/-- The highest-ranked trigger of a list. -/
def topTrigger : List Trigger → Option Trigger
  | [] => none
  | t :: ts => some (ts.foldl (fun a b => if b.rank < a.rank then b else a) t)

/-- VSTBY is gone: Off keeps what a power cycle keeps. -/
def State.off (s : State) : State :=
  let s1 := s.resetBlocks
  { s1 with mode := .off, prev := s.mode, history := [], pins := { s1.pins with vstby := false } }

/-- The device arrives where a trigger leads. -/
def State.arrive (s : State) (t : Trigger) : State :=
  match t with
  | .vstby => s.off
  | .pwrgood => (s.closeBoth).fullReset 1 .held 0x01
  | .resetN => (s.closeBoth).fullReset 2 .held 0x02
  | .i3c => (s.closeBoth).fullReset 4 .morningToll 0x04
  | .gong => (s.closeBoth).fullReset 3 .morningToll 0x03
  | .knell => s

/-- A trigger that finds provisional writes: the completion runs, or is joined (R424, R298). A fall of PWRGOOD counts
each completion it triggers (20 R471). -/
def State.completing_ (s : State) (t : Trigger) (comp : CompOut) : State :=
  let s1 := if t == .pwrgood && !s.completing then { s with pwr := { s.pwr with pfail := up16 s.pwr.pfail 1 } } else s
  if s.completing then { s1 with triggers := s1.triggers ++ [t] }
  else
    let s2 := ((s1.discard).belCut).provisional comp
    { s2 with completing := true, triggers := [t] }

end Sys2Proof.Machine
end

