-- ==== Sys2Proof/Machine/RingCtl.lean ====
section
/-! DEFINITION. Ring control: training (04 R92), Join and Leave Windows (R101 to R106), closures seen (R108), rate changes
(R94), enumeration and the roster (05 R124 to R128), and what follows for Kits (08 R210, R211). -/

namespace Sys2Proof.Machine

/-! ### Training (R92) -/

/-- Whether a ring's receivers may train now: passively in Join, or Ring B's later in Run (R92, R106); on the device's own
slots as beat source (R101). -/
def State.mayTrain (s : State) (r : Ring) : Bool :=
  !(s.ring r).trained && !s.completing && (!(s.ring r).swOpen || s.bar.beatsrc) &&
    (s.mode == .join || (r == .b && (s.mode == .run || s.mode == .degraded)))

/-- TRAINING_COMPLETE: the rate code read from a marker becomes the joined rate, and lanes that do not meet Table 4.2 are
bad. -/
def State.trainedOn (s : State) (r : Ring) (rate us : Nat) (bad : BitVec 16) : State :=
  if !s.mayTrain r then s
  else
    let x := s.ring r
    let s1 := (s.setRing r { x with trained := true, trainUs := BitVec.ofNat 16 us, rate := rate, slots := true }).lanesBad
      r bad
    if r == .a then { s1 with bar := { s1.bar with rate := rate } } else s1

/-! ### Spare maps and a change of the upstream end (R98) -/

/-- A receiver's spare maps go with the upstream end of its hop, and lanes are judged anew, but for what the loopback found
(R98, R99). -/
def RingSt.newUpstream (x : RingSt) : RingSt :=
  { x with rx := Vector.replicate 2 Spare.none_, remaps := [], gaveUp := 0, bad := x.loopBad.truncate 16, rejoin := none }

/-! ### Windows (R102 to R106) -/

/-- Whether a window's place lies in the Bar (R102). -/
def windowOk (w : BitVec 10) : Bool := 1 ≤ w.toNat && w.toNat ≤ 1021

/-- A hop runs without hop retry: L_hop above 6, or no blink sensed (05 R119). -/
def slowHop (hop : Option (BitVec 4)) : Bool :=
  match hop with
  | some h => 6 < h.toNat
  | none => true

/-- A window measures a ring's two hops (05 R119): SW_HOPLAT is that of the device's Out side, which keeps its value where no
blink is sensed (DESIGN CHOICE, log 113). -/
def RingSt.measured (x : RingSt) (hop inHop : Option (BitVec 4)) : RingSt :=
  { x with hopLat := hop.getD x.hopLat, inHop := inHop, noRetry := slowHop inHop, outNoRetry := slowHop hop }

/-- A window passes on a ring: Ring B's offset is to be measured again (02 R45), a receiver next to the change discards its
spare maps (R98), and a node with an open switch measures its hops; at the downstream end of one without hop retry NORETRY is
set (R119). `opening`: the device opens in it. -/
def State.windowOver (s : State) (r : Ring) (hop inHop : Option (BitVec 4)) (opening step : Bool) : State :=
  let s1 := s.bMoves
  let x := s1.ring r
  if x.swOpen then
    let y := if step then x.newUpstream else x
    let s2 := s1.setRing r { y.measured hop inHop with window := some (16, opening) }
    if slowHop inHop then s2.raise .sw 0x04 else s2
  else s1

/-- Whether the device opens in a Join Window (R101, R106). -/
def State.opens (s : State) (r : Ring) : Bool :=
  let x := s.ring r
  x.trained && !x.swOpen && !x.clockBad && s.pins.vstby &&
    (s.mode == .join || (r == .b && (s.mode == .run || s.mode == .degraded)))

/-- As master the device puts a message into its CTRL slots, unless it announces a rate change (05 R124; log 115). -/
def State.say (s : State) (r : Ring) (m : List Byte) : State :=
  if s.bar.rateNext.isSome then s else s.setRing r { s.ring r with msg := some m }

/-- As master the device announces a window on a ring (R102). -/
def State.announceWindow (s : State) (r : Ring) (join : Bool) (node : Node) (w : BitVec 10) (mbar : BitVec 32) : State :=
  if s.bar.rateNext.isSome then s
  else (s.setRing r { s.ring r with mwin := some (w, mbar) }).say r (windowMsg join node w mbar)

/-- Whether a window of this place is only announced now: the device is master and drives no such window yet. -/
def State.onlyAnnounced (s : State) (r : Ring) (w : BitVec 10) (mbar : BitVec 32) : Bool :=
  s.bar.beatsrc && (s.ring r).mwin != some (w, mbar)

/-- A switch opens: spare maps start afresh (R98), a written TXEQ takes effect (R93), and blank slots stand in the forwarding
pipeline (R103). -/
def RingSt.open_ (x : RingSt) : RingSt :=
  { x.newUpstream with
    swOpen := true, swops := up32 x.swops 1, txeqNow := x.txeq, bad := x.bad, tx := Vector.replicate 2 Spare.none_,
    pipe := List.replicate 4 blankSlot, front := [], held := [], settling := 0, blinkAt := [], copies := [], resend := [],
    lastTx := none, usedAt := none, slots := true }

/-- JOINWIN (R103): the first of its W and MBAR counts. As master the row of a new place announces the window. -/
def State.joinWindow (s : State) (r : Ring) (w : BitVec 10) (mbar : BitVec 32) (hop inHop : Option (BitVec 4))
    (step : Bool) : State :=
  let x := s.ring r
  if !s.mode.onRing || s.completing || !windowOk w || x.joinSeen == some (w, mbar) then s
  else if s.onlyAnnounced r w mbar then s.announceWindow r true 0x1F w mbar
  else
    let s1 := s.setRing r { x with joinSeen := some (w, mbar) }
    if s1.opens r then (s1.setRing r (s1.ring r).open_).windowOver r hop inHop true false
    else s1.windowOver r hop inHop false step

/-- Whether a node stands before the device in enumeration order. -/
def RingSt.above (x : RingSt) (n : Node) : Bool := x.hasId && (x.rosterIds.takeWhile fun i => i != x.nodeId).contains n

/-- The Beat W + 1 of the Bar whose MBAR a message names, the one that a Leave shortens (R104; the Beat that ends 4 slots
early is W + 1, DEDUCED, log 19). -/
def Bar.windowEnd (b : Bar) (w : BitVec 10) (mbar : BitVec 32) : Option Nat :=
  b.lastMbar.map fun last => ((b.lastDbBar + (mbar - last).toNat) % 2 ^ 38) * 1024 + w.toNat + 1

/-- The device's own Leave Window: the writes still held complete, and its switch on that ring closes (R103, 01 R30). -/
def State.leaves (s : State) (r : Ring) (comp : CompOut) : State :=
  (if s.hold.isEmpty && s.merges.isEmpty then s else s.finishHolds comp).closeRing r false

/-- LEAVEWIN (R103): a window that names the device closes its switch; another node upstream on Ring A shortens a Beat, and the
node next upstream takes the device's spare maps with it (R98). As master the row of a new place announces the window. -/
def State.leaveWindow (s : State) (r : Ring) (node : Node) (w : BitVec 10) (mbar : BitVec 32)
    (hop inHop : Option (BitVec 4)) (comp : CompOut) : State :=
  let x := s.ring r
  if !s.mode.onRing || s.completing || !windowOk w || x.leaveSeen == some (w, mbar) then s
  else if s.onlyAnnounced r w mbar then s.announceWindow r false node w mbar
  else
    let s1 := s.setRing r { x with leaveSeen := some (w, mbar) }
    if x.swOpen && x.hasId && x.nodeId == node then s1.leaves r comp
    else
      let s2 := if r == .a && x.above node then
          { s1 with bar := { s1.bar with shortAt := s1.bar.windowEnd w mbar } } else s1
      s2.windowOver r hop inHop false (x.upstream == node)

/-- Bars since a leave was requested on a ring. -/
def State.leaveBars (s : State) (r : Ring) : Option Nat := (s.ring r).leaveReq.map fun b => (s.barNo + 2 ^ 38 - b) % 2 ^ 38

/-- LEAVE_TIMEOUT (R105): no window within LEAVE_TO Bars of the request, or no Bar begins any more (R55); the closure is
unplanned, and what is still held is completed first (R107). -/
def State.leaveLate (s : State) (r : Ring) (comp : CompOut) : State :=
  match s.leaveBars r with
  | none => s
  | some n =>
    if s.completing || !(s.ring r).swOpen || !((s.ring r).leaveTo ≤ n || s.bar.hold) then s
    else
      let s1 := if s.hold.isEmpty && s.merges.isEmpty then s else s.provisional comp
      (s1.raise (.lnk r) 0x08).closeBoth

/-! ### A neighbour's closure (R108) -/

/-- PHASE_STEP: a phase step on the In side without a window. A Ring A Beat shortened this way sets SHORTBEAT. -/
def State.phaseStep (s : State) (r : Ring) : State :=
  if !s.mode.onRing || !(s.ring r).swOpen then s
  else
    let s1 := (s.setRing r (s.ring r).newUpstream).bMoves
    if r == .a && s.mode.timed then s1.raise (.lnk .a) 0x40 else s1

/-! ### Rate changes (R94) -/

/-- RATECHG: the announced code and the MBAR of the Downbeat that starts training. The device as beat source announces by
itself, at its Downbeats, what BAR_SRC_RATE asks (`announceRate`). -/
def State.rateAnnounced (s : State) (code : Nat) (mbar : BitVec 32) : State :=
  if !s.mode.onRing || s.completing || s.bar.rateNext.isSome || !s.ringA.swOpen || s.bar.beatsrc then s
  else { s with bar := { s.bar with rateNext := some (code % 8, mbar) } }

/-- The new rate becomes the joined rate on both rings. -/
def State.newRate (s : State) (code : Nat) : State :=
  { s with
    bar := { s.bar with rate := code, retrain := false, rateNext := none, srcNext := none, bvalid := false },
    stk := { s.stk with dirty := true }, ecc := { s.ecc with periodDue := true },
    ringA := { s.ringA with rate := if s.ringA.trained then code else s.ringA.rate, slots := s.ringA.swOpen },
    ringB := { s.ringB with rate := if s.ringB.trained then code else s.ringB.rate, slots := s.ringB.swOpen } }

/-- What retraining at the new rate finds: lanes that do not meet Table 4.2 are bad (R92, R94). -/
def State.retrained (s : State) (badA badB : BitVec 16) : State :=
  let s1 := if s.ringA.swOpen then s.lanesBad .a badA else s
  if s1.ringB.swOpen then s1.lanesBad .b badB else s1

/-- The device's own resuming Downbeat as beat source: MBAR goes on by 1 (R94). -/
def State.ownResume (s : State) (code : Nat) : Marker × State :=
  (⟨true, 2, 0, s.ringA.mbar + 1, BitVec.ofNat 3 code⟩,
   { s with bar := { s.bar with lastMbar := some s.ringA.mbar, lastDbBar := s.barNo } })

/-- RATE_CHANGE_RESUME: the resuming Downbeat carries the new RATE. Reservations are granted and the scrub rate computed
again in its Beat (03 R73, 13 R342). In Join no BEATNO counts yet. -/
def State.rateResumes (s : State) (m : Marker) (permille : Nat) (badA badB : BitVec 16) : State :=
  match s.bar.rateNext with
  | none => s
  | some (code, _) =>
    let p := if s.bar.beatsrc then s.ownResume code else (m, s)
    if s.completing || !markerDown p.1 code then s
    else if s.mode.timed && s.bar.retrain then
      (((p.2.newRate code).retrained badA badB).downGo p.1 permille State.downMode)
    else if s.mode == .join && (s.bar.retrain || !s.bar.beatsrc) then
      let t := (s.newRate code).retrained badA badB
      if s.bar.beatsrc then ({ t with bar := { t.bar with srcBeat := 0 } }).masterBeats else t
    else s

/-! ### Enumeration (05 R124 to R128) -/

/-- Strict Tempo lapses at once where a condition fails without a command (08 R227). -/
def State.strictLapse (s : State) : State :=
  if s.gen.active && !s.strictOk true then
    ({ s with gen := { s.gen with active := false } }).raise .tempo 0x04
  else s

/-- SLOTMAP: owners of the reply-only positions from the next Downbeat (R124); as master the device sends it round. -/
def State.slotMap (s : State) (r : Ring) (owners : List Node) : State :=
  if !s.mode.onRing || s.completing || !(s.ring r).swOpen then s
  else
    let s1 := s.setRing r { s.ring r with ownersNext := some owners }
    if s.bar.beatsrc then s1.say r (slotMsg owners) else s1

/-- A node's entry in a passing ENUM (R126): it keeps its ID under REFRESH, else takes NEXTID, of which 30 is none; the ID is
used from the ROSTER on. The device as master writes its ID as entry 0, the one that it holds or that the row gives (log 115).
Spare maps go where the upstream neighbour is another than before (R98). -/
def RingSt.enumerate (x : RingSt) (master fresh : Bool) (epoch : BitVec 8) (pos : Nat) (order : List Node) (next : Node) :
    RingSt :=
  let id := if master then order.getD 0 0 else next
  let up := if master then x.upstream else if pos == 0 then 0x1F else order.getD (pos - 1) 0x1F
  let y := if up == x.upstream || x.upstream == 0x1F then x else x.newUpstream
  { y with
    epoch := epoch, enumSeen := true, upstream := up,
    newId := if x.hasId && !fresh then some x.nodeId else if id.toNat < 30 then some id else none }

/-- The ENUM that the device as master sends out: its own entry, POS 1 and NEXTID (R126). -/
def State.sendEnum (s : State) (r : Ring) (fresh : Bool) (epoch : BitVec 8) (next : Node) : State :=
  if s.bar.beatsrc then s.say r (enumMsg fresh epoch.toNat 1 next.toNat [(s.ring r).newId.getD 0]) else s

/-- ENUM (R126, R124). A FRESH one resets the positions, lets Kit 0 be bound again (08 R210), and in Run or Degraded is a
ring restart (R128). -/
def State.enumerated (s : State) (r : Ring) (fresh : Bool) (epoch : BitVec 8) (pos : Nat) (order : List Node)
    (next : Node) : State :=
  let x := s.ring r
  if !s.mode.onRing || s.completing || !x.swOpen || (x.enumSeen && x.epoch == epoch) then s
  else
    let y := x.enumerate s.bar.beatsrc fresh epoch pos order next
    let restart := fresh && (s.mode == .run || s.mode == .degraded)
    let z := if fresh then
        { y with owners := List.replicate 8 0x1F, ownersNext := none, rebindDue := true,
                 freshDue := y.freshDue || restart, freshRun := y.freshRun || restart } else y
    let s1 := ((s.setRing r z).sendEnum r fresh epoch next).bMoves
    let s2 := if y.newId.isSome then s1 else s1.raise .sw 0x02
    if fresh then s2.strictLapse else s2

/-- Requests that satisfy `p` are dropped unreplied and counted (R127, R128): their service ends, their credits return. -/
def State.orphan (s : State) (p : InFlight → Bool) : State :=
  let gone := s.inflight.filter p
  let out := fun (rid : Nat) => gone.any fun f => f.rid == rid
  let one := fun (f : InFlight) (t : State) => (t.giveBack f.rid).abandon f.rid
  let s1 := forEach one gone s
  { s1 with
    inflight := s1.inflight.filter fun f => !p f, replies := s1.replies.filter fun a => !out a.rid,
    drains := s1.drains.filter fun d => !out d.1, stageJobs := s1.stageJobs.filter fun d => !out d.rid,
    mufJobs := s1.mufJobs.filter fun d => !out d.rid,
    gongDue := s1.gongDue.filter fun g => !out g.1,
    orphaned := up32 s1.orphaned gone.length }

/-- Kits 1 to 15 lose their bindings and are suspended (08 R211). -/
def State.suspendKits (s : State) : State :=
  let one := fun (k : Kit) (t : State) =>
    if k == 0 || !(t.kit k).live then t
    else (t.setKit k { t.kit k with binds := [], suspended := true }).raise (.kit k) 0x02
  forEach one allKits s

/-- FRESH_ENUM_RESTART (R128): writes complete under R283, requests are dropped, Kits suspended. Its FRESHRUN comes with
the ROSTER. -/
def State.freshRestart (s : State) (r : Ring) (comp : CompOut) : State :=
  let x := s.ring r
  if !x.freshDue || s.completing then s
  else
    let s1 := ((s.finishHolds comp).orphan fun _ => true).suspendKits
    s1.setRing r { s1.ring r with freshDue := false }

/-- The node downstream of the device in an ORDER. -/
def RingSt.below (x : RingSt) (ids : List Node) : Option Node :=
  match ids.dropWhile fun i => i != x.nodeId with
  | _ :: n :: _ => some n
  | [_] => ids.head?
  | [] => none

/-- Kit 0's one binding (08 R210): ORDER entry 0, or entry 1 as beat source. -/
def State.bindHouse (s : State) (order : List Node) : State :=
  let h := if s.bar.beatsrc then order[1]? else order[0]?
  let bs : List Binding := match h with | some n => [⟨n, 0, none⟩] | none => []
  s.setKit 0 { s.kit 0 with binds := bs }

/-- What the first ROSTER after an opening brings: joined, mirrors asked for (R96, R98), SEQ of device packets from 0 (06
R159), and on Ring A the grant of 03 R73 and the scrub rate of 13 R342 at the joined rate (17 R412). -/
def State.joins (s : State) (r : Ring) : State :=
  if (s.ring r).joined then s
  else
    let s0 := s.setRing r { s.ring r with joined := true }
    let s1 := ({ s0 with devSeq := s0.devSeq.filter fun q => q.1 != r }).askMirrors r
    let s2 := if r == .a then
        let g := s1.ledgerGrant
        { g with ecc := { g.ecc with rate := Config.scrubRate g.bar.rate g.ecc.period, periodDue := false } } else s1
    s2.bMoves.strictLapse

/-- A ring takes a ROSTER (R126, R127): the ID of the last ENUM is in force, and the mirrors of the Out side go where another
node stands downstream (R98). The master's upstream neighbour is the last entry. -/
def RingSt.takeRoster (x : RingSt) (master : Bool) (order : List Node) : RingSt :=
  let y := { x with hasId := x.newId.isSome, nodeId := x.newId.getD x.nodeId }
  let same := x.rosterIds.isEmpty || y.below order == y.below x.rosterIds
  let z := { y with rosterIds := order, freshRun := false, rebindDue := false,
                    tx := if same then x.tx else Vector.replicate 2 Spare.none_ }
  if master then { z with upstream := order.getLast?.getD 0x1F } else z

/-- ROSTER (R127, 08 R210, 18 R442): `order` is final. A ROSTER of another EPOCH than that of the last ENUM is ignored (DESIGN
CHOICE, log 121). -/
def State.rostered (s : State) (r : Ring) (epoch : BitVec 8) (order : List Node) : State :=
  let x := s.ring r
  if !s.mode.onRing || s.completing || !x.swOpen || x.epoch != epoch || !x.enumSeen then s
  else
    let s1 := s.setRing r (x.takeRoster s.bar.beatsrc order)
    let s2 := s1.joins r
    let s3 := if x.rebindDue then s2.bindHouse order else s2
    let s4 := if x.freshRun then s3.raise .sw 0x01 else s3
    (s4.orphan fun f => f.rq.via == .ring r && !order.contains f.rq.src).streamStops r order

/-! ### The rows -/

/-- TRAINING_COMPLETE (R92). -/
def execTrainingComplete (r : Ring) (rate : BitVec 3) (us badLanes : BitVec 16) (s : State) :
    Host.Outcome State Fault Refusal :=
  if (Instr.trainingComplete r rate us badLanes).wf then .next (s.trainedOn r rate.toNat us.toNat badLanes)
  else .fault .illFormed
/-- JOINWIN (R103). -/
def execJoinwin (r : Ring) (w : BitVec 10) (mbar : BitVec 32) (h : Hops) (step : Bool) (s : State) :
    Host.Outcome State Fault Refusal :=
  .next (s.joinWindow r w mbar h.out h.up step)
/-- LEAVEWIN (R103). -/
def execLeavewin (r : Ring) (node : Node) (w : BitVec 10) (mbar : BitVec 32) (h : Hops) (comp : CompOut) (s : State) :
    Host.Outcome State Fault Refusal :=
  .next (s.leaveWindow r node w mbar h.out h.up comp)
/-- LEAVE_TIMEOUT (R105). -/
def execLeaveTimeout (r : Ring) (comp : CompOut) (s : State) : Host.Outcome State Fault Refusal :=
  .next (s.leaveLate r comp)
/-- ENUM (05 R126). -/
def execEnum (r : Ring) (fresh : Bool) (epoch : BitVec 8) (pos : BitVec 5) (order : List Node) (next : Node) (s : State) :
    Host.Outcome State Fault Refusal :=
  if (Instr.enum r fresh epoch pos order next).wf then .next (s.enumerated r fresh epoch pos.toNat order next)
  else .fault .illFormed
/-- FRESH_ENUM_RESTART (05 R128). -/
def execFreshEnumRestart (r : Ring) (comp : CompOut) (s : State) : Host.Outcome State Fault Refusal :=
  .next (s.freshRestart r comp)
/-- ROSTER (05 R127). -/
def execRoster (r : Ring) (epoch : BitVec 8) (order : List Node) (s : State) : Host.Outcome State Fault Refusal :=
  if (Instr.roster r epoch order).wf then .next (s.rostered r epoch order) else .fault .illFormed
/-- RATECHG (R94). -/
def execRatechg (code : BitVec 8) (mbar : BitVec 32) (s : State) : Host.Outcome State Fault Refusal :=
  .next (s.rateAnnounced code.toNat mbar)
/-- SLOTMAP (05 R124). -/
def execSlotmap (r : Ring) (owners : List Node) (s : State) : Host.Outcome State Fault Refusal :=
  if (Instr.slotmap r owners).wf then .next (s.slotMap r owners) else .fault .illFormed
/-- PHASE_STEP (R108). -/
def execPhaseStep (r : Ring) (s : State) : Host.Outcome State Fault Refusal := .next (s.phaseStep r)

end Sys2Proof.Machine
end

