-- ==== Sys2Proof/Machine/Knell.lean ====
section
/-! DEFINITION. The Knell (18 R427 to R436): its causes, the summary, the Main record, and what cuts it short. -/

namespace Sys2Proof.Machine

/-! ### Causes (Table 18.1) -/

/-- CAUSE of Table 18.1. -/
def causeCode : KnellCause → Nat
  | .toll => 0x01 | .chkfail => 0x02 | .metafail => 0x03 | .sramded => 0x04 | .logmain => 0x05 | .watchdog => 0x06
  | .assert => 0x07

/-- Causes that only the state shows; the control core and the SRAMs may report the others. -/
def causeFound : KnellCause → Bool
  | .toll | .chkfail | .metafail | .logmain => true
  | _ => false

/-- Modes in which a fatal cause is taken: those of Table 17.1, with Fill for the Morning Toll's fatal outcome (16 R395). -/
def Mode.knells : Mode → Bool
  | .fill | .join | .run | .degraded | .freewheel | .rest | .eveningToll => true
  | _ => false

/-- The DETAIL of a cause: as a step found it, or as its reporter gives it. None where the cause is not there. -/
def State.causeDetail (s : State) (c : KnellCause) (given : Nat) : Option Nat :=
  match s.knl.due.find? fun x => x.1 == causeCode c with
  | some x => some x.2
  | none => if causeFound c || s.mode == .fill then none else some given

/-- The cause is no longer waiting. -/
def State.causeTaken (s : State) (c : KnellCause) : State :=
  { s with knl := { s.knl with due := s.knl.due.filter fun x => x.1 != causeCode c } }

/-! ### What the record holds (Table 18.2) -/

/-- A list of bytes cut or filled with zeros to a length. -/
def padTo (n : Nat) (bs : List Byte) : List Byte := bs.take n ++ zeros (n - bs.length)

/-- Mode-history entries, oldest first, 8 bytes each. -/
def historyBytes (h : List ModeEnt) : List Byte := (h.reverse.map fun m => leBytes 8 m.nat).flatten

/-- A command-header entry of 32 bytes. -/
def HdrEnt.bytes (h : HdrEnt) : List Byte :=
  leBytes 16 (hdrOf h.rq).toNat ++ leBytes 6 h.beat ++ [h.status.getD 0xFF, BitVec.ofNat 8 (b2n h.rq.ringBit),
    (match h.kit with | some k => BitVec.ofNat 8 k.val | none => 0xFF)] ++ zeros 7

/-- A descriptor of `n` bytes: its fields, in places that the spec leaves open. -/
def descBytes (n : Nat) (fields : List Nat) : List Byte := (List.range n).map (Config.descByte fields)

/-- State of a write-hold entry in its descriptor. -/
def Phase.nat : Phase → Nat
  | .merging => 0 | .waiting => 1 | .pulsed _ => 2 | .retry _ => 3

/-- SNODE, RING and SEQ of the first write of an entry. -/
def State.entrySource (s : State) (e : WEntry) : List Nat :=
  match e.rids.head?.bind fun rid => s.findJob rid with
  | some j => [j.rq.snode.toNat, b2n j.rq.ringBit, j.rq.seq.toNat]
  | none => []

/-- The queues section: write-hold descriptors, merge descriptors, and each Kit's in-flight, intake-credit and stream-entry
counts. -/
def State.queueBytes (s : State) : List Byte :=
  let kitNo := fun (k : Option Kit) => match k with | some k => k.val | none => 16
  let hold := (s.hold.filter fun e => !e.system).map fun e =>
    descBytes 16 ([e.phase.nat, kitNo e.payer, e.chord.toNat] ++ s.entrySource e ++ [e.pulses])
  let merges := (s.merge.toList.filterMap id).map fun m =>
    descBytes 16 [m.kit.val, m.chord.toNat, m.mask.toNat, m.opened]
  let kits := allKits.map fun k =>
    descBytes 128 [s.inflightOf (some k), (s.kit k).taken,
      (s.inflight.filter fun f => f.kit == some k && f.stage == .streaming).length]
  padTo 5120 hold.flatten ++ padTo 1024 merges.flatten ++ kits.flatten

/-- The open-fault list, 256 records (Table 16.5). -/
def State.faultBytes (s : State) : List Byte :=
  let fs := s.rep.faults.take 256
  padTo 4096 (((List.range fs.length).zip fs).map fun x => x.2.bytes (s.free + 8 * x.1)).flatten

/-- The newest 256 Tally records, oldest first, unredacted. -/
def State.tallyTail (s : State) : List Byte :=
  padTo 4096 ((s.tal.recs.take 256).reverse.map fun r => r.bytes false).flatten

/-- The whole CSR space as the house kit reads it, with no side effect: BEL_SHADOW_DATA reads 0. -/
def State.csrSpace (s : State) : List Byte :=
  let one := fun (i : Nat) => if 0x6058 ≤ 4 * i && 4 * i < 0x6068 then zeros 4 else leBytes 4 (s.readCsr (4 * i))
  ((List.range 8192).map one).flatten

/-- Bytes of the core-state section, a multiple of 64 (R431). -/
def State.coreLen (s : State) : Nat := 64 * min 3283 (Config.coreUnits s.free)

/-- The Main record at the trigger (R431): `seq` is KNELL_SEQ. Its core state is the firmware's own: free bytes. -/
def State.knellRecord (s : State) (cause detail seq : Nat) : List Byte :=
  let len := 52032 + s.coreLen
  let header := padTo 256 (leBytes 2 1 ++ leBytes 1 cause ++ [0] ++ leBytes 4 seq ++ leBytes 6 s.bar.beatno
    ++ leBytes 1 s.mode.code ++ [0] ++ leBytes 4 detail ++ leBytes 4 len)
  let heads := padTo 2048 (s.headers.reverse.map HdrEnt.bytes).flatten
  let body := header ++ padTo 512 (historyBytes s.history) ++ heads ++ s.csrSpace ++ s.queueBytes ++ s.faultBytes
    ++ s.tallyTail ++ freeBytes (s.free + 2048) s.coreLen ++ leBytes 4 seq ++ leBytes 4 len ++ zeros 52
  body ++ leBytes 4 (crc32c body).toNat

/-! ### The summary (Table 18.3) -/

/-- Bytes 0 and 2 to 509 of the summary, without GEN and CRC, for a state at its trigger. -/
def summaryBody (s : State) (x : Summary) (comp : Nat × Nat) : List Byte :=
  let head := [0x4B, BitVec.ofNat 8 x.cause.1, BitVec.ofNat 8 x.cause.2] ++ leBytes 4 x.seq ++ leBytes 6 x.beat
    ++ leBytes 1 (x.mode.code + 16 * b2n x.tb) ++ leBytes 1 x.recstate ++ leBytes 4 x.detail.toNat ++ leBytes 4 x.len
    ++ leBytes 4 x.crc.toNat ++ leBytes 4 s.toll.count ++ leBytes 4 Config.genId.toNat ++ [s.cond] ++ zeros 3
  let modes := padTo 64 (historyBytes (s.history.take 8))
  let rep := leBytes 4 (s.readCsr 0x5808) ++ leBytes 1 (s.readCsr 0x580C) ++ leBytes 1 (s.readCsr 0x5804 % 16)
    ++ leBytes 1 (s.readCsr 0x5804 / 16 % 16) ++ [0]
  let prov := leBytes 2 (s.allHeld % 1024) ++ leBytes 2 comp.1 ++ leBytes 2 comp.2 ++ zeros 2
  let heads := padTo 256 ((s.headers.take 16).reverse.map fun h => leBytes 16 (hdrOf h.rq).toNat).flatten
  head ++ modes ++ rep ++ prov ++ heads ++ zeros 134

/-- The summary goes into the Belfry, copy A and then copy B, as `n` chunk writes in all (R433, 15 R381). -/
def State.putSummary (s : State) (x : Summary) (body : List Byte) (n : Nat) : State :=
  let w := s.bel.writes
  let s1 := s.putRec .knellSummary body
  let s2 := { s1 with
    bel := { s1.bel with writes := satAdd 32 w n },
    knl := { s1.knl with summary := some { x with bytes := s1.bel.copyOf .knellSummary false } } }
  s2.chargeMaint n

/-- CAUSE2 or RECSTATE change in both copies (R428 step 6, R434). The frame's CRC changes with them (log 71). -/
def State.editSummary (s : State) (x : Summary) : State :=
  let body := (x.bytes.take 1 ++ (x.bytes.drop 2).take 508).set 2 (BitVec.ofNat 8 x.cause.2)
  s.putSummary x (body.set 14 (BitVec.ofNat 8 x.recstate)) 2

/-! ### The sequence (R428) -/

/-- The ALERT packet of step 2 on a joined ring with a destination. -/
def State.knellAlert (r : Ring) (s : State) : State :=
  let dest := match r with | .a => s.gen.alertA | .b => s.gen.alertB
  if (s.ring r).joined && dest != 0x1F then { s with devq := s.devq ++ [alertPkt s .knl r dest] } else s

/-- Steps 1 to 3: everything stops, NEW is set and told, held writes complete. -/
def State.knellStops (s : State) (comp : CompOut) : State :=
  let s1 := (((s.stopAll).discard).belCut).raise .knl 0x01
  let s2 := forEach State.knellAlert bothRings s1
  let s3 := { s2 with tal := s2.tal.off }
  if s.mode.timed then s3.provisional comp else s3

/-- The chords of a record of `n` bytes, copy 0 and then copy 1. -/
def recordChords (n : Nat) : List (Bool × Nat) :=
  let one := List.range (ceilDiv n 64)
  one.map (fun i => (false, i)) ++ one.map fun i => (true, i)

/-- A Knell begins: steps 1 to 4, and the record to be written (R428). -/
def State.knellBegins (s : State) (cause detail : Nat) (comp : CompOut) : State :=
  let seq := (s.knl.seq + 1) % 2 ^ 32
  let rec_ := s.knellRecord cause detail seq
  let s1 := s.knellStops comp
  let done := if s.mode.timed then s1.lastComp else (0, 0)
  let x : Summary :=
    { cause := (cause, 0), seq := seq, beat := s.logTime % 2 ^ 48, mode := s.mode, tb := s.tb, recstate := 8,
      detail := BitVec.ofNat 32 detail, len := rec_.length, crc := BitVec.ofNat 32 (fieldAt rec_ (rec_.length - 4) 4),
      bytes := [] }
  let s2 := s1.spend (2048 + s.coreLen + b2n s.tb)
  let s3 := s2.putSummary x (summaryBody s x done) 32
  { s3 with
    completing := true, triggers := [.knell],
    knl := { s3.knl with running := true, record := rec_, recLeft := recordChords rec_.length, confirmed := (0, 0),
                         trailer := (false, false) } }

/-- A second cause, taken before the end: CAUSE2 (R434). -/
def State.secondCause (s : State) (cause : Nat) : State :=
  match s.knl.summary with
  | some x => if x.cause.2 == 0 then s.editSummary { x with cause := (x.cause.1, cause) } else s
  | none => s

/-- A cause of Table 18.1 is taken (R428, R434): it begins a Knell, is the second cause of one, or joins a completion that
another trigger started (17 R424). -/
def State.knellCause (s : State) (c : KnellCause) (given : Nat) (comp : CompOut) : State :=
  if !s.mode.knells then s
  else match s.causeDetail c given with
    | none => s
    | some d =>
      let s1 := s.causeTaken c
      if s1.knl.running then s1.secondCause (causeCode c)
      else if s1.completing then { s1 with triggers := s1.triggers ++ [.knell] }
      else s1.knellBegins (causeCode c) d comp

/-- KNELL_RECORD_BOUND (R430): no further record chord is issued. -/
def State.knellBound (s : State) : State :=
  if s.knl.running then { s with knl := { s.knl with recLeft := [] } } else s

/-- Steps 6 and 7: RECSTATE, the switches, Knelled. -/
def State.knellEnds (s : State) : State :=
  if !(s.knl.recLeft.isEmpty && s.hold.isEmpty) then s
  else
    let s1 := match s.knl.summary with
      | some x => s.editSummary { x with recstate := b2n s.knl.trailer.1 + 2 * b2n s.knl.trailer.2 }
      | none => s
    let s2 := { s1 with completing := false, triggers := [], knl := { s1.knl with running := false, due := [] } }
    (s2.closeBoth).enter .knelled 0x19

/-- A reset trigger cuts a Knell short: chords held are completed, RECSTATE stays pending (R434). -/
def State.knellCut (s : State) (comp : CompOut) : State :=
  let last := s.lastComp
  let s1 := { s with knl := { s.knl with recLeft := [], running := false } }
  { (s1.provisional comp) with lastComp := last, compRecants := s.compRecants, compOver := s.compOver }

/-- The control core cannot run: the sequencer writes the summary alone (R435, 16 R395). -/
def State.summaryOnly (s : State) (detail : Nat) : State :=
  let seq := (s.knl.seq + 1) % 2 ^ 32
  let x : Summary :=
    { cause := (1, 0), seq := seq, beat := s.logTime % 2 ^ 48, mode := s.mode, tb := true, recstate := 4,
      detail := BitVec.ofNat 32 detail, len := 0, crc := 0, bytes := [] }
  ((((s.spend (b2n s.tb)).raise .knl 0x01).putSummary x (summaryBody s x (0, 0)) 32).closeBoth).enter .knelled 0x19

/-! ### The rows -/

/-- KNELL (R427, R428). -/
def execKnell (cause : KnellCause) (detail : Word) (comp : CompOut) (s : State) : Host.Outcome State Fault Refusal :=
  .next (s.knellCause cause detail.toNat comp)
/-- WATCHDOG_EXPIRY (R427): the control core's program counter is DETAIL. -/
def execWatchdogExpiry (pc : Word) (comp : CompOut) (s : State) : Host.Outcome State Fault Refusal :=
  .next (s.knellCause .watchdog pc.toNat comp)
/-- KNELL_RECORD_BOUND (R430). -/
def execKnellRecordBound (s : State) : Host.Outcome State Fault Refusal := .next s.knellBound

end Sys2Proof.Machine
end

