-- ==== Sys2Proof/Machine/Modes.lean ====
section
/-! DEFINITION. Modes (17): power, reset and their triggers, the Tolls at both ends of a run (16), Fill, Join, Rest, and the
sideband pins (20 R471 to R477). -/

namespace Sys2Proof.Machine

/-! ### The event-log head (15 R383) -/

/-- A slot of the event log holds a good record. -/
def logGood (bs : List Byte) : Bool := bs.any (fun b => b != 0) && leBytes 2 (crc16 (bs.take 14)).toNat == bs.drop 14

/-- The good records of the log: slot and SEQ. -/
def Bel.logSeqs (b : Bel) : List (Nat × Nat) :=
  (List.range 1024).filterMap fun i =>
    let bs := cellsRead b.mem (0x4000 + 16 * i) 16
    if logGood bs then some (i, fieldAt bs 2 2 % 4096) else none

/-- The next SEQ, found from the log itself: the chunk after the newest record's, whose SEQ modulo 1,024 is its slot. -/
def Bel.logHead (b : Bel) : Nat :=
  let all := b.logSeqs
  let newer := fun (r c : Nat × Nat) => 1 ≤ (r.2 + 4096 - c.2) % 4096 && (r.2 + 4096 - c.2) % 4096 ≤ 2047
  match all.find? fun c => !all.any fun r => newer r c with
  | none => 0
  | some c =>
    let slot := (c.1 / 2 * 2 + 2) % 1024
    (c.2 + 1 + (slot + 1024 - (c.2 + 1) % 1024) % 1024) % 4096

/-! ### The Morning Toll (16 R389 to R395) -/

/-- One chunk of a record changes in each of its copies. -/
def State.putRecTwo (s : State) (r : RecId) : State :=
  let w := s.bel.writes
  let t := s.putRecFree r
  { t with bel := { t.bel with writes := satAdd 32 w 2 } }

/-- The fast path (R390). -/
def Toll.mayFast (t : Toll) : Bool := t.ordValid && t.ordPass && !t.ordFull && t.ordMsince < 64

/-- The Morning Toll begins: the log head, the path, VALID written 0 (R390, R391, R405), the start levels (R400). -/
def State.tollStart (s : State) : State :=
  let fast := s.toll.mayFast
  let t := { s.toll with
    fast := fast, epass := s.toll.ordValid && s.toll.ordPass, msince := if fast then s.toll.ordMsince else 0,
    ordValid := false, part := 0x09, fatal := none, coreOk := true,
    startLvl := if fast then s.toll.ordStart else Vector.ofFn fun (d : Fin 11) => Config.startTrim d.val,
    startBars := if fast then 0 else 16 }
  let s1 := { s with toll := t, stk := { s.stk with firstUse := !fast }, bel := { s.bel with seq := s.bel.logHead } }
  ((s1.putRecTwo .deviceState).chargeMaint 2).tollBegin

/-- Result of one lane's loopback: the fast path writes the corners it passed (16 R393, 04 R99). -/
def eyeOf (fast : Bool) (fail : Bool) (e : BitVec 8 × BitVec 8) : BitVec 8 × BitVec 8 × Bool :=
  if fast then (if fail then (0, 0, false) else (40, 22, true)) else (e.1, e.2, !fail)

/-- Lanes that fail their loopback on a path: as reported, and on a full sweep those below 40 mV or 22/64 UI. -/
def eyeFails (fast : Bool) (given : BitVec 19) (eyes : List (BitVec 8 × BitVec 8)) : BitVec 19 :=
  let low := fun (i : Nat) => !fast && ((eyes.getD i (0, 0)).1.toNat < 40 || (eyes.getD i (0, 0)).2.toNat < 22)
  given ||| BitVec.ofNat 19 (((List.range 19).filter low).map fun i => 2 ^ i).sum

/-- Loopback and continuity of one ring interface (04 R99, R100, R394): bad lanes, a clock that keeps the ring closed,
EYEFAIL and CONTFAIL. -/
def State.morningRing (s : State) (r : Ring) (fail pass tested : BitVec 19) (eyes : List (BitVec 8 × BitVec 8)) : State :=
  let x := s.ring r
  let y := { x with
    loopBad := fail.setWidth 18, clockBad := fail.getLsbD 18, contPass := pass &&& tested, contTested := tested,
    eye := Vector.ofFn fun (i : Fin 19) => eyeOf s.toll.fast (fail.getLsbD i.val) (eyes.getD i.val (0, 0)) }
  let s1 := (s.setRing r y).lanesBad r (fail.setWidth 16)
  let s2 := if fail == 0 then s1 else s1.raise (.lnk r) 0x20
  if tested &&& ~~~ pass == 0 then s2 else s2.raise (.lnk r) 0x10

/-- A failed Near row is spared, with its record pair, or the highest pool block is withdrawn (14 R371, R372). -/
def State.nearRow (f : FaultRec) (s : State) : State :=
  if 0 < s.rep.nearSpare then ({ s with rep := { s.rep with nearSpare := s.rep.nearSpare - 1 } }).repairDone f
  else { s with rep := { s.rep with nearWithdrawn := min 255 (s.rep.nearWithdrawn + 1) } }

/-- Whether a record names a Near row (16 Table 16.5). -/
def FaultRec.isNear (f : FaultRec) : Bool := f.kind == 6

/-- The Near row of a record: 512 words to a row. -/
def FaultRec.nearIx (f : FaultRec) : Nat := (f.bank + 256 * f.row) / 512

/-- The Near rows that a Morning Toll replaces on either path: those that its march reports, of which it holds records, and
the rows of open faults (14 R371). A row that no record names takes a record of row 0. -/
def State.nearFailed (s : State) (f : MorningFind) : List FaultRec :=
  let march := (s.holdFails f.fails).toll.recs.filterMap fun x => (failFault x 0 0).filter FaultRec.isNear
  let open_ := s.rep.faults.filter fun x => x.isNear && !(march.any fun y => y.nearIx == x.nearIx)
  march ++ List.replicate (f.nearRowFails.toNat - march.length) ⟨6, 0x40, 0, 0, 0, 0, none⟩ ++ open_

/-- Near rows are spared, or their blocks withdrawn; their open faults close. -/
def State.nearRows (s : State) (fs : List FaultRec) : State :=
  let s1 := forEach State.nearRow fs s
  { s1 with rep := { s1.rep with faults := s1.rep.faults.filter fun x => !x.isNear } }

/-- Sensors that the self-check excludes (R394, 20 R481). -/
def State.morningSensors (s : State) (f : MorningFind) : State :=
  let p := { s.pwr with
    tempExcl := f.tempExcluded, fieldExcl := Vector.ofFn fun (i : Fin 11) => f.fieldExcl.getD i.val 0 }
  let s1 := { s with pwr := p }
  if f.tempExcluded == 0 && f.fieldExcl.all (fun x => x == 0) then s1 else s1.raise .pwr 0x08

/-- The record of a fatal outcome: a checker failure first, then an SRAM march, then the sensors (Table 16.2). -/
def fatalRec (f : MorningFind) : TollFail :=
  ((f.fails.find? fun x => x.part == 0x06).orElse fun _ =>
    (f.fails.find? fun x => x.part == 0x07).orElse fun _ => f.fails.head?).getD
      ⟨0x05, 0, 0xFF, 0xFF, 0, 0, 0, none, 0⟩

/-- A march failure of an SRAM other than Near, whose rows are spared (Table 16.2): of structures 2 to 11. -/
def marchFatal (x : TollFail) : Bool := x.part == 0x07 && 0x42 ≤ x.unit.toNat && x.unit.toNat ≤ 0x4B

/-- A fatal Morning outcome (Table 16.2): as reported, or every temperature sensor excluded. -/
def morningFatal (f : MorningFind) : Bool :=
  f.fatal || f.tempExcluded == 0xFFFF || f.fails.any fun x => x.part == 0x06 || marchFatal x

/-- Whether any Morning part failed. -/
def morningFailing (f : MorningFind) (lanes : BitVec 19) : Bool :=
  morningFatal f || !f.fails.isEmpty || f.dieIdFail != 0 || f.nandIdFail != 0 || lanes != 0
    || f.contTestedA &&& ~~~ f.contPassA != 0 || f.contTestedB &&& ~~~ f.contPassB != 0 || f.tempExcluded != 0
    || f.fieldExcl.any fun x => x != 0

/-- The open faults are rebuilt from the records of the last Toll (14 R354, R403); Near rows have been replaced (14 R371). -/
def State.faultsAgain (s : State) : State :=
  let fs := s.toll.lastRecs.filter fun x => !x.isNear
  { s with rep := fs.foldl (fun r f => r.addFault s.bar.beatno f) { s.rep with faults := [] },
           toll := { s.toll with lastRecs := fs } }

/-- The queued event records are written at once, outside ring time (part 10; R396 step 1). -/
def State.flushLog (s : State) : State :=
  if s.gen.logdeg then s
  else
    let rs := s.bel.logq
    let s1 := (s.logNow rs.length rs).chargeMaint (ceilDiv rs.length 2)
    { s1 with bel := { s1.bel with logq := [] } }

/-- What the parts find goes into the state (R394). -/
def State.morningParts (s : State) (f : MorningFind) (failA failB : BitVec 19) : State :=
  let s1 := (s.holdFails f.fails).tollOuts f.fails
  let s2 := forEach (fun (d : Fin 11) (t : State) => if f.dieIdFail.getLsbD d.val then t.dieGoesOut d else t)
    (List.finRange 11) s1
  let s3 := forEach (fun (d : Fin 4) (t : State) => if f.nandIdFail.getLsbD d.val then t.deepDieFails d else t)
    (List.finRange 4) s2
  let s4 := (s3.morningRing .a failA f.contPassA f.contTestedA f.eyeA).morningRing .b failB f.contPassB f.contTestedB
    f.eyeB
  let s5 := s4.morningSensors f
  let s6 := if f.repairMapBad then s5.raise .rep 0x40 else s5
  let s7 := if f.fails.any fun x => x.part == 0x06 then s6.raise .ecc 0x02 else s6
  s7.nearRows (s.nearFailed f)

/-- MORNING_TOLL_DONE: the parts' outcomes, the records, and Fill (R392, R394, R395). -/
def State.morningDone (s : State) (f : MorningFind) : State :=
  if s.mode != .morningToll || s.completing then s
  else
    let failA := eyeFails s.toll.fast f.laneFailA f.eyeA
    let failB := eyeFails s.toll.fast f.laneFailB f.eyeB
    let failing := morningFailing f (failA ||| failB)
    let us := f.durationUs.toNat
    let s1 := s.morningParts f failA failB
    let s2 := ((s1.tollEnd (b2n s.toll.fast) (morningFatal f) us).flushLog).faultsAgain
    let t := { s2.toll with
      mpass := !failing, lastUs := us, part := 0x08, fatal := if morningFatal f then some (fatalRec f) else none,
      coreOk := s.toll.fast || f.coreUsable }
    let s3 := { s2 with toll := t }
    (if failing then s3.raise .toll 0x01 else s3).enter .fill 0x10

/-! ### Fill (13 R347, 01 R23, 08 R219, 11 R299) -/

/-- The patch check and load (01 R23). -/
def State.patchLoad (s : State) (f : FillFind) : State :=
  if f.patchPresent && !f.patchGood then
    ({ s with gen := { s.gen with romOnly := true, fwPatch := 0 } }).logRec 0x0102 0
  else { s with gen := { s.gen with romOnly := false, fwPatch := if f.patchPresent then f.patchRelease else 0 } }

/-- The key copies of a live Kit as found; both bad, or no root wrap material: KEYLOST (08 R219). -/
def State.unwrap (f : FillFind) (k : Kit) (s : State) : State :=
  let x := s.kit k
  if !x.live then s
  else
    let a := f.keyA.getLsbD k.val && x.key.storedA
    let b := f.keyB.getLsbD k.val && x.key.storedB
    let s1 := s.setKit k { x with key := { x.key with goodA := a, goodB := b } }
    if a || b then s1 else s1.recBad (.key k)

/-- What the last completion recanted is marked before any Kit is bound (11 R299, 15 R386). -/
def State.markRecants (s : State) : State :=
  let s1 := if s.compRecants.isEmpty then s
    else ({ s with ecc := { s.ecc with markq := s.ecc.markq ++ s.compRecants } }).raise .prov 0x02
  let s2 := if s.compOver then s1.raise .prov 0x04 else s1
  { s2 with compRecants := [], compOver := false }

/-- The device as beat source opens both switches at the end of Fill (17 R414); its first Beat is a Downbeat. -/
def State.masterOpens (s : State) : State :=
  if s.bar.beatsrc then
    let one := fun (x : RingSt) => if x.clockBad then x else x.open_
    { s with ringA := one s.ringA, ringB := one s.ringB, bar := { s.bar with rate := s.bar.srcRate, srcBeat := 1023 } }
  else s

/-- FILL_DONE: a fatal outcome waits for its Knell, or the control core is released and Join begins (R395, 17 R410). -/
def State.fillDone (s : State) (f : FillFind) : State :=
  if s.mode != .fill || s.completing then s
  else match s.toll.fatal with
    | some x =>
      let s1 := { s with toll := { s.toll with part := 0, fatal := none } }
      if !s.toll.coreOk then s1.summaryOnly (tollDetail x)
      else if x.part == 0x06 then s1.fatal 0x02 x.value.toNat
      else s1.fatal 0x01 (tollDetail x)
    | none =>
      if !s.knl.due.isEmpty then s
      else
        let s1 := ({ s with toll := { s.toll with part := 0 } }).patchLoad f
        let s2 := forEach (State.unwrap f) allKits (if f.rootWrap then s1 else s1.recBad .rootWrap)
        ((s2.markRecants).enter .join 0x10).masterOpens

/-! ### Join (17 R412, R413) -/

/-- HEAT_SNAPSHOT_RESTORE (09 R255): a valid snapshot goes into the counters; one that is not valid is not used. -/
def State.snapRestore (s : State) (crcGood : Bool) : State :=
  match s.tier.snapshot with
  | none => s
  | some (heats, _) =>
    if s.mode != .join || s.tier.snapDone || !s.ringA.trained || s.completing then s
    else
      let s1 := { s with tier := { s.tier with snapDone := true } }
      if crcGood && s.tier.snapToll then
        let heatOf := fun (p : Page) => match heats.find? fun h => h.1 == p.kit && h.2.1 == p.kp with
          | some h => h.2.2
          | none => 0
        let hot := fun (p : Page) => { p with heat := heatOf p }
        let tier := { s1.tier with snapshot := none, snaprest := true }
        (({ s1 with pages := s1.pages.map hot, tier := tier }).putRecTwo .deviceState).chargeMaint 2
      else s1.raise .tier 0x01

/-- One bad copy of a key is rewritten from the good one once Run or Degraded begins (08 R219, 15 R381). -/
def State.mendKey (k : Kit) (s : State) : State :=
  let x := s.kit k
  if x.live && x.key.goodA != x.key.goodB then
    (s.setKit k { x with key := { x.key with goodA := true, goodB := true, storedA := true, storedB := true } }).fixCopy false (.key k) x.key.goodA
  else s

/-- What waited for the first Beat of Run or Degraded (15 R381). -/
def State.firstBeat (s : State) : State := forEach State.mendKey allKits s.recsLater

/-- The device leaves Rest for Run or Degraded: Tally resumes with RESUME before any other record, and GEN_REST_BEATS takes
the Beats (17 R416, 18 R444). -/
def State.restOver (trig slip : Nat) (s : State) : State :=
  let n := elapsed s.gen.restFrom s.bar.beatno
  let s1 := s.enter s.serving trig
  let gen := { s1.gen with restBeats := min (maxOf 32) n, waking := false, awake := false, periph := true }
  let s2 := { s1 with gen := gen }
  if s2.tal.paused then
    let t := ({ s2 with tal := { s2.tal with paused := false, resumeDue := false } }).tally 0x63 none
      (n + 2 ^ 48 * min 65535 slip)
    t.tally 0x68 none (match t.history.head? with | some e => e.nat | none => 0)
  else s2

/-- Whether Join is over at a valid Downbeat (17 R412). -/
def State.joinReady (s : State) : Bool :=
  s.mode == .join && s.ringA.joined && s.deep.ready && (s.tier.snapDone || s.tier.snapshot.isNone) && !s.completing

/-- The Downbeat that a row carries; as beat source the device's own, which begins the Beat after its Beat 1,023 (17 R414). -/
def State.ownDown (s : State) (m : Marker) : Marker :=
  if s.bar.beatsrc then ⟨true, 2, 0, s.ringA.mbar + 1, BitVec.ofNat 3 s.bar.rate⟩ else m

/-- The count of a device that enters Run for the first time since its reset (02 R38). -/
def Bar.starts (b : Bar) (mbar : BitVec 32) : Bar :=
  { b with beatno := 0, counted := true, mbarJoin := mbar, lastMbar := some mbar, lastDbBar := 0, lost := 0, onOsc := false,
           hold := false }

/-- RUN_ENTRY: after a reset BEATNO starts at 0; after a rejoin it goes on under R40 (02 R38). -/
def State.runEntry (s : State) (given : Marker) (permille : Nat) : State :=
  let m := s.ownDown given
  if !s.joinReady || !markerDown m s.bar.rate || (s.bar.beatsrc && s.bar.srcBeat != 1023) then s
  else if s.bar.counted then
    (s.downGo m permille (State.restOver 0x11 (s.realignTo m.mbar).slip)).firstBeat
  else
    let s1 := ({ s with bar := s.bar.starts m.mbar, ringA := { s.ringA with slots := true } }).enter s.serving 0x11
    let s2 := ((s1.barMeasured permille).barStarts true).downChanges
    (((s2.masterBeats).degrades).runBeat.retrainAt m.mbar).firstBeat

/-- JOIN_TIMEOUT (17 R413): JOINTO, and an event record whose code and ARG the spec does not give (log 72). -/
def State.joinLate (s : State) : State :=
  if s.mode != .join then s
  else
    ((s.raise .gen 0x02).spend 2).logRec ((Config.freeWord s.free).toNat % 65536) (Config.freeWord (s.free + 1)).toNat

/-! ### Rest (17 R415 to R417) -/

/-- Entry to Rest: its REST record, then Tally pauses (18 R444); transfers are abandoned; the periphery powers down. A CLOSE
that waited for Rest stops the engines (R425). -/
def State.intoRest (s : State) (cause trig : Nat) : State :=
  let s0 := if s.closing.isSome then s.stopAll else s
  let s1 := (s0.tally 0x62 none (cause + 256 * b2n s.ringA.swOpen)).abandonRuns
  let s2 := s1.enter .rest trig
  let on := s2.tal.on != 0
  { s2 with
    tal := { s2.tal with paused := on, resumeDue := on }, restDue := false,
    gen := { s2.gen with restFrom := s2.bar.beatno, periph := false, waking := false, awake := false } }

/-- Whether a provisional write is outstanding: a Kit's write held or in the merge buffer (01 R30). -/
def State.provisionalLeft (s : State) : Bool := !s.merges.isEmpty || s.hold.any fun e => !e.maint && e.payer.isSome

/-- REST_ENTRY: at a Downbeat, an extrapolated one in Free-wheel, once the provisional writes are complete (07 R204, 01 R30).
Where writes accepted since the REST_ENTER are still outstanding, the entry waits for a later Downbeat (DESIGN CHOICE, log
122). -/
def State.restEntry (s : State) : State :=
  let down := s.beatIx == 0 && (s.bar.barMarked || s.mode == .freewheel || s.bar.beatsrc)
  if s.restDue && s.mode.traffic && down && !s.provisionalLeft && !s.completing then s.intoRest 1 0x16 else s

/-- A Free-wheel expiry that closes the switches: the traffic of Table 4.6 is lost; a CLOSE that has been answered goes on
(04 R107). -/
def State.fwCloses (s : State) (comp : CompOut) : State :=
  let c := s.closing.filter fun c => c.answered
  ({ ((s.discard).finishHolds comp) with closing := c }).closeBoth

/-- FREEWHEEL_EXPIRY (02 R54). -/
def State.fwExpires (s : State) (comp : CompOut) : State :=
  if s.mode == .freewheel && s.beatIx == 1023 && Config.fwLimit ≤ s.bar.fwBars && !s.completing then
    let s1 := s.raise .bar 0x02
    let s2 := if s1.bar.fwclose then s1.fwCloses comp else s1.finishHolds comp
    let s3 := s2.intoRest 2 0x15
    { s3 with bar := { s3.bar with hold := true } }
  else s

/-- REST_WAKE: the periphery and Deep are powered again (17 R416). -/
def State.restWakes (s : State) : State :=
  if s.mode == .rest && s.gen.waking then { s with gen := { s.gen with awake := true, periph := true } } else s

/-- REST_EXIT (17 R416): the first valid Downbeat after the wake has completed. -/
def State.restExit (s : State) (m : Marker) (permille : Nat) : State :=
  if s.mode == .rest && s.gen.awake && s.ringA.swOpen && markerDown m s.bar.rate && !s.completing then
    (s.downGo m permille (State.restOver 0x17 (s.realignTo m.mbar).slip)).firstBeat
  else s

/-- The keys of the live Kits are unwrapped from their records again at a Join that follows no Fill (08 R219). -/
def State.rewrap (s : State) : State :=
  forEach (fun (k : Kit) (t : State) => t.readRec false (.key k)) s.liveKits (s.readRec false .rootWrap)

/-- REST_REJOIN (17 R417): a valid marker on Ring A In while the switch is closed. The rate is read from it (04 R92). -/
def State.restRejoin (s : State) (m : Marker) : State :=
  if s.mode == .rest && !s.ringA.swOpen && markerValid m m.rate.toNat && !s.completing then
    (({ s with gen := { s.gen with periph := true } }).enter .join 0x17).rewrap
  else s

/-! ### The Evening Toll (16 R396 to R400) -/

/-- The sacrificial rows are not written under WRHOLD, which is a failure of the step (20 R480). -/
def State.eveningFails (s : State) (f : EveningFind) : List TollFail :=
  if s.pwr.wrhold then f.fails ++ [⟨0x10, 0, 0xFF, 0xFF, 0, 0, 0, none, 0xFF⟩] else f.fails

/-- The scrub cursor, its accumulator and the sweep's Bars are saved (13 R345). -/
def State.saveScrub (s : State) : State :=
  let e := { s.ecc with saved := (s.ecc.cur, s.ecc.acc, s.sweepNow) }
  (({ s with ecc := e }).putRecTwo .scrub).chargeMaint 2

/-- The sacrificial rows: 16,384 chords of 10 Strokes, and their mean pulses (R397). -/
def State.sacrifice (s : State) (f : EveningFind) : State :=
  if s.pwr.wrhold then s
  else
    let sac := Vector.ofFn fun (i : Fin 11) => (f.sacPulses.getD i.val 0).toNat
    ({ s with toll := { s.toll with sac := sac } }).chargeMaint 163840

/-- EVENING_TOLL: the device has left both rings (07 R203 step 7; R396). -/
def State.eveningToll (s : State) (f : EveningFind) : State :=
  match s.closing with
  | some c =>
    if !c.leaving || s.ringA.swOpen || s.ringB.swOpen || !s.mode.timed || s.completing then s
    else
      let fails := s.eveningFails f
      let s1 := ((({ s with tal := { s.tal.off with recs := [] } }).saveScrub).enter .eveningToll 0x18).belSettle
      let s2 := (((s1.flushLog).sacrifice f).tollBegin).holdFails fails
      let s3 := s2.tollOuts fails
      let s4 := { s3 with near := [], copies := [],
                          toll := { s3.toll with part := 0x12, durUs := f.durationUs.toNat } }
      if f.fatal then
        s4.fatal 0x01 (match fails.head? with | some x => tollDetail x | none => 0x11 + 256 * 0xFF)
      else s4
  | none => s

/-- EVENING_TOLL_DONE: the records, the orderly-shutdown record, and Hibernate if HIB was set (R400, 17 R418). -/
def State.eveningDone (s : State) : State :=
  match s.closing with
  | some c =>
    if s.mode != .eveningToll || s.completing || !s.knl.due.isEmpty then s
    else
      let pass := s.toll.recs.isEmpty
      let s1 := (s.tollEnd 2 false s.toll.durUs).chargeMaint 2
      let s2 := if pass then s1 else s1.raise .toll 0x02
      let t := { s2.toll with
        ordValid := true, ordPass := pass, ordFull := s2.toll.fullnext, ordMsince := s2.toll.closeMsince,
        ordStart := s2.toll.startLvl }
      let s3 := { s2 with
        toll := t, tier := { s2.tier with snapToll := if c.snap then pass else s2.tier.snapToll }, closing := none }
      let s4 := s3.putRecTwo .deviceState
      if c.hib then s4.enter .hibernate 0x18 else s4
  | none => s

/-! ### Reset, power and their triggers (17 R409 to R424) -/

/-- Where a trigger leads; a reset into the Morning Toll starts it at once. -/
def State.arriveAt (s : State) (t : Trigger) : State :=
  match t with
  | .gong | .i3c => (s.arrive t).tollStart
  | _ => s.arrive t

/-- A trigger of R420 or the loss of VSTBY: with provisional writes a completion first, else at once (R420, R422). A Knell
in progress is cut short (18 R434). -/
def State.resetBy (s : State) (t : Trigger) (comp : CompOut) : State :=
  if s.knl.running then
    let s1 := s.knellCut comp
    { s1 with triggers := s1.triggers ++ [t] }
  else if s.completing || s.mode.timed then s.completing_ t comp
  else s.arriveAt t

/-- COMPLETION_END (R424): the destination of the highest-ranked trigger; a Knell goes on to its own end. -/
def State.completionEnds (s : State) : State :=
  if !s.completing then s
  else if s.knl.running then s.knellEnds
  else match topTrigger s.triggers with
    | some t => s.arriveAt t
    | none => s

/-- RESET_N_ASSERT (R411, R419, R420). -/
def State.resetNLow (s : State) (comp : CompOut) : State :=
  let s1 := { s with pins := { s.pins with resetN := false } }
  match s.mode with
  | .off => s1
  | .hibernate => s1.fullReset 2 .held 0x02
  | _ => s1.resetBy .resetN comp

/-- PWRGOOD_FALL (20 R469, 17 R418). -/
def State.pwrgoodLow (s : State) (comp : CompOut) : State :=
  let s1 := { s with pins := { s.pins with pwrgood := false } }
  match s.mode with
  | .off | .hibernate => s1
  | _ => s1.resetBy .pwrgood comp

/-- VSTBY_LOSS (R424): the gates close by themselves at once (04 R101, Table 4.4). Where the other rails fail as well, the
completion runs on hold-up (log 73). -/
def State.vstbyGone (s : State) (comp : CompOut) : State :=
  match s.mode with
  | .off => s
  | _ => ({ s.closeBoth with pins := { s.pins with vstby := false } }).resetBy .vstby comp

/-- WAKE_N_ASSERT (R416, R419). -/
def State.wakeNLow (s : State) : State :=
  match s.mode with
  | .hibernate => s.fullReset 5 .held 0x05
  | .rest => s.wake
  | _ => s

/-- I3C_RESET (20 R476, R422): no effect in Held; nothing answers in Off and Hibernate. -/
def State.i3cResets (s : State) (comp : CompOut) : State :=
  match s.mode with
  | .off | .hibernate | .held => s
  | _ => s.resetBy .i3c comp

/-- VSTBY_UP (R409): Held, with PWRGOOD still low (R408); SB_ADDR is sampled (20 R473). -/
def State.vstbyUp (s : State) (sbAddr : BitVec 2) : State :=
  if s.mode != .off then s
  else
    ({ s with pins := { s.pins with vstby := true, pwrgood := false, sbAddr := sbAddr } }).fullReset 0 .held 0x00

/-- A RESET_N hold ends: its length, a measurement, and its record beyond 1 s (R421). -/
def State.holdEnds (s : State) : State :=
  if s.pins.resetN then s
  else
    let ms := Config.freeWord s.free
    let s1 := ({ s with gen := { s.gen with holdMs := ms } }).spend 1
    if 1000 < ms.toNat then s1.logRec 0x0101 ms.toNat else s1

/-- HELD_EXIT (R409): the Morning Toll begins, and BEATSRC is sampled (02 R60). -/
def State.heldExit (s : State) (beatsrc : Bool) : State :=
  if s.mode != .held || !s.pins.vstby then s
  else
    let trig := if !s.pins.resetN then 0x02 else if !s.pins.pwrgood then 0x01 else 0x00
    let s1 := s.holdEnds
    let s2 := { s1 with
      pins := { s1.pins with resetN := true, pwrgood := true }, bar := { s1.bar with beatsrc := beatsrc } }
    (s2.enter .morningToll trig).tollStart

/-! ### GONG (07 R205, R420) -/

/-- A broadcast GONG that this device heeds: from its house kit's binding, and a request that Table 6.5 passes. -/
def State.heedsGong (s : State) (rq : Req) : Bool :=
  match rq.via with
  | .ring r =>
    s.mode.timed && s.hears r && s.bindingOf rq.snode rq.ktag == some 0 && (s.check s.bar.beatno (some 0) rq).isNone && !rq.reply
  | .i3c => false

/-- GONG: a broadcast is taken at once; an addressed one is answered OK, and its trigger is taken after the reply has
left. -/
def State.gong (s : State) (rq : Req) (comp : CompOut) : State :=
  if rq.dnode == 31 then (if s.heedsGong rq then s.resetBy .gong comp else s)
  else s.serve rq fun j t => j.reply { t with gongDue := some (j.rid, comp) } 0x00 0

/-- The trigger of an addressed GONG is taken at the Beat after the last flit of its OK reply has left (17 R420). -/
def State.gongFires (s : State) : State :=
  match s.gongDue with
  | some g => if s.replies.any fun p => p.rid == g.1 then s else s.resetBy .gong g.2
  | none => s

/-! ### The I3C target (20 R474 to R476) -/

/-- The target answers: not in Off, Hibernate, or Held with PWRGOOD low (17 R421, Table 7.2). -/
def State.i3cLives (s : State) : Bool :=
  match s.mode with
  | .off | .hibernate => false
  | .held => s.pins.pwrgood
  | _ => true

/-- The I3C static address, 0x34 + SB_ADDR (00 Table 0.4, R473). -/
def State.i3cStatic (s : State) : BitVec 7 := 0x34 + s.pins.sbAddr.setWidth 7

/-- The address at which the target answers: its dynamic address, without one the static address (R476). -/
def State.i3cAt (s : State) : BitVec 7 := s.i3c.dyn.getD s.i3cStatic

/-- The target acknowledges a private write: no command executes and no reply is unread. -/
def State.i3cTakes (s : State) : Bool := s.i3cLives && !s.i3c.busy && s.i3c.unread.isNone && !s.completing

/-- The operation of an opcode served over I3C (Table 7.1). -/
def i3cBody (j : Job) (s : State) : State :=
  match j.rq.opc.toNat with
  | 0x01 => s.ping j
  | 0x02 => s.statusQuery j
  | 0x40 => s.csrRead j
  | 0x41 => s.csrWrite j
  | 0x48 => s.atPort (.read j.rid j.rq)
  | 0x5A => s.knellRead j
  | _ => s

/-- A reply to a private write that executes nothing. -/
def State.i3cRefuse (s : State) (rq : Req) (status detail : Nat) : State :=
  ({ s with nextRid := s.nextRid + 1 }).answer s.nextRid rq (some 0) (ans status detail)

/-- The header of a private write too short to hold one: fields of which a byte is missing read 0. -/
def shortHeader (bytes : List Byte) : Req :=
  let rq := reqOfBytes (padTo 16 (if bytes.length < 6 then bytes.take 4 else bytes)) .i3c 0
  { rq with reply := false, sync := false, nowait := false, early := false }

/-- I3C_PRIVATE_WRITE (R475): fewer than 16 bytes, LEN above 256, a wrong byte count, a wrong CRC, or one command. -/
def State.i3cWrite (s : State) (dest : BitVec 7) (bytes : List Byte) : State :=
  if !s.i3cTakes || dest != s.i3cAt then s
  else
    let n := bytes.length
    let fail := { s with gen := { s.gen with e2eFail := up32 s.gen.e2eFail 1 } }
    if n < 16 then fail.i3cRefuse (shortHeader bytes) 0x33 (2 + 256 * n)
    else
      let rq := reqOfBytes (bytes.take 16) .i3c 0
      let len := lenOf rq
      let p := payloadLen rq.opc.toNat len
      let body := bytes.take (16 + p)
      if 256 < len then s.i3cRefuse rq 0x32 (detLen len 256)
      else if n != 20 + p then fail.i3cRefuse rq 0x33 (2 + 256 * n)
      else if leBytes 4 (crc32c body).toNat != bytes.drop (16 + p) then fail.i3cRefuse rq 0x33 (1 + 256 * n)
      else
        ({ s with i3c := { s.i3c with busy := true } }).serve { rq with payload := body.drop 16 } i3cBody

/-- I3C_PRIVATE_READ (R475): the whole reply, or a read that the controller ends early, which leaves it unread. -/
def State.i3cRead (s : State) (dest : BitVec 7) (stopAfter : Option Nat) : State :=
  match s.i3c.unread with
  | none => s
  | some p =>
    let whole := match stopAfter with | none => true | some n => decide (20 + p.payload.length ≤ n)
    if whole && s.i3cLives && dest == s.i3cAt then { s with i3c := { s.i3c with unread := none }, sent := p :: s.sent } else s

/-- A dynamic address is taken while there is none (00 R15). -/
def State.i3cAddress (s : State) (addr : BitVec 7) : State :=
  if s.i3cLives && s.i3c.dyn.isNone then { s with i3c := { s.i3c with dyn := some addr } } else s

/-- SETDASA at a static address: the device's own takes a dynamic address (00 R15). -/
def State.i3cFromStatic (s : State) (static addr : BitVec 7) : State :=
  if static == s.i3cStatic then s.i3cAddress addr else s

/-- RSTDAA: the target answers at its static address again (00 R15). -/
def State.i3cForget (s : State) : State := if s.i3cLives then { s with i3c := { s.i3c with dyn := none } } else s

/-! ### The TAP and the rails (20 R471, R477) -/

/-- ALERT_N is held low (19 R461; 18 R436 in Knelled); in Off and Hibernate it is high impedance (R472). -/
def State.alertNLow (s : State) : Bool :=
  match s.mode with
  | .off | .hibernate => false
  | .knelled => true
  | _ => s.alerts

/-- The data register that an instruction captures: IDCODE, a bypass bit of 0, or a register that the spec does not
give. -/
def State.tapLoad (s : State) (t : TapInstr) : State :=
  match t with
  | .idcode => { s with tap := ⟨.idcode, Config.idcode⟩ }
  | .bypass => { s with tap := ⟨.bypass, 0⟩ }
  | t => ({ s with tap := ⟨t, Config.freeWord s.free⟩ }).spend 1

/-- TAP_INSTRUCTION (R477): served by mode and test seal, else as BYPASS; its inputs count for nothing where R472 says so. -/
def State.tapTakes (s : State) (t : TapInstr) : State :=
  if !s.i3cLives then s
  else if s.bel.testSeal then s.tapLoad .bypass
  else if s.mode == .held || (s.pins.pwrgood && (t == .idcode || t == .samplePreload)) then s.tapLoad t
  else s.tapLoad .bypass

/-- RAIL_OUT_OF_LIMITS (R471): the rails as the monitors find them; one that leaves its limits while PWRGOOD is high sets
RAIL. -/
def State.railsAre (s : State) (rails : BitVec 6) : State :=
  let gone := s.pins.rails &&& ~~~ rails
  let s1 := { s with pins := { s.pins with rails := rails } }
  if gone != 0 && s.i3cLives && s.pins.pwrgood then s1.raise .pwr 0x10 else s1

/-! ### The rows -/

/-- BEAT_BOUNDARY (02 R37). -/
def execBeatBoundary (base : BeatBase) (m : Option Marker) (s : State) : Host.Outcome State Fault Refusal :=
  .next (s.gongFires.beatBoundary base m)
/-- DOWNBEAT (02 R40). -/
def execDownbeat (m : Marker) (permille : Nat) (s : State) : Host.Outcome State Fault Refusal :=
  .next (s.gongFires.downbeat m permille)
/-- RATE_CHANGE_RESUME (04 R94). -/
def execRateChangeResume (x : Retrained) (s : State) : Host.Outcome State Fault Refusal :=
  .next (s.gongFires.rateResumes x.down.marker x.down.permille x.badA x.badB)
/-- FREEWHEEL_EXPIRY (02 R54). -/
def execFreewheelExpiry (comp : CompOut) (s : State) : Host.Outcome State Fault Refusal := .next (s.fwExpires comp)
/-- GONG (07 R205). -/
def execGong (rq : Req) (comp : CompOut) (s : State) : Host.Outcome State Fault Refusal :=
  if (Instr.gong rq comp).wf then .next (s.gong rq comp) else .fault .illFormed
/-- VSTBY_UP (17 R409). -/
def execVstbyUp (sbAddr : BitVec 2) (s : State) : Host.Outcome State Fault Refusal := .next (s.vstbyUp sbAddr)
/-- HELD_EXIT (17 R409). -/
def execHeldExit (beatsrc : Bool) (s : State) : Host.Outcome State Fault Refusal := .next (s.heldExit beatsrc)
/-- RESET_N_ASSERT (17 R420). -/
def execResetNAssert (comp : CompOut) (s : State) : Host.Outcome State Fault Refusal := .next (s.resetNLow comp)
/-- PWRGOOD_FALL (20 R469). -/
def execPwrgoodFall (comp : CompOut) (s : State) : Host.Outcome State Fault Refusal := .next (s.pwrgoodLow comp)
/-- VSTBY_LOSS (17 R424). -/
def execVstbyLoss (_railsHold : Bool) (comp : CompOut) (s : State) : Host.Outcome State Fault Refusal :=
  .next (s.vstbyGone comp)
/-- WAKE_N_ASSERT (17 R419). -/
def execWakeNAssert (s : State) : Host.Outcome State Fault Refusal := .next s.wakeNLow
/-- I3C_RESET (20 R476). -/
def execI3cReset (comp : CompOut) (s : State) : Host.Outcome State Fault Refusal := .next (s.i3cResets comp)
/-- I3C_PRIVATE_WRITE (20 R475). -/
def execI3cPrivateWrite (x : I3cWrite) (s : State) : Host.Outcome State Fault Refusal := .next (s.i3cWrite x.dest x.bytes)
/-- I3C_PRIVATE_READ (20 R475). -/
def execI3cPrivateRead (x : I3cRead) (s : State) : Host.Outcome State Fault Refusal := .next (s.i3cRead x.dest x.stopAfter)
/-- SETDASA (00 R15). -/
def execSetdasa (x : Dasa) (s : State) : Host.Outcome State Fault Refusal := .next (s.i3cFromStatic x.static x.addr)
/-- ENTDAA (00 R15). -/
def execEntdaa (addr : BitVec 7) (s : State) : Host.Outcome State Fault Refusal := .next (s.i3cAddress addr)
/-- RSTDAA (00 R15). -/
def execRstdaa (s : State) : Host.Outcome State Fault Refusal := .next s.i3cForget
/-- TAP_INSTRUCTION (20 R477). -/
def execTapInstruction (t : TapInstr) (s : State) : Host.Outcome State Fault Refusal := .next (s.tapTakes t)
/-- COMPLETION_END (17 R424). -/
def execCompletionEnd (s : State) : Host.Outcome State Fault Refusal := .next s.completionEnds
/-- MORNING_TOLL_DONE (16 R392). -/
def execMorningTollDone (f : MorningFind) (s : State) : Host.Outcome State Fault Refusal :=
  if (Instr.morningTollDone f).wf then .next (s.morningDone f) else .fault .illFormed
/-- FILL_DONE (13 R347). -/
def execFillDone (f : FillFind) (s : State) : Host.Outcome State Fault Refusal := .next (s.fillDone f)
/-- HEAT_SNAPSHOT_RESTORE (09 R255). -/
def execHeatSnapshotRestore (crcGood : Bool) (s : State) : Host.Outcome State Fault Refusal :=
  .next (s.snapRestore crcGood)
/-- RUN_ENTRY (17 R412). -/
def execRunEntry (x : BarEnd) (s : State) : Host.Outcome State Fault Refusal := .next (s.runEntry x.marker x.permille)
/-- JOIN_TIMEOUT (17 R413). -/
def execJoinTimeout (s : State) : Host.Outcome State Fault Refusal := .next s.joinLate
/-- REST_ENTRY (17 R415). -/
def execRestEntry (s : State) : Host.Outcome State Fault Refusal := .next s.restEntry
/-- REST_WAKE (17 R416). -/
def execRestWake (s : State) : Host.Outcome State Fault Refusal := .next s.restWakes
/-- REST_EXIT (17 R416). -/
def execRestExit (x : BarEnd) (s : State) : Host.Outcome State Fault Refusal :=
  .next (s.gongFires.restExit x.marker x.permille)
/-- REST_REJOIN (17 R417). -/
def execRestRejoin (m : Marker) (s : State) : Host.Outcome State Fault Refusal := .next (s.restRejoin m)
/-- EVENING_TOLL (16 R396). -/
def execEveningToll (f : EveningFind) (s : State) : Host.Outcome State Fault Refusal :=
  if (Instr.eveningToll f).wf then .next (s.eveningToll f) else .fault .illFormed
/-- EVENING_TOLL_DONE (17 R418). -/
def execEveningTollDone (s : State) : Host.Outcome State Fault Refusal := .next s.eveningDone
/-- RAIL_OUT_OF_LIMITS (20 R471). -/
def execRailOutOfLimits (rails : BitVec 6) (s : State) : Host.Outcome State Fault Refusal := .next (s.railsAre rails)

end Sys2Proof.Machine
end

