-- ==== Sys2Proof/Machine/Dispatch.lean ====
section
/-! DEFINITION. One arm per command: each calls the meaning of its row. -/

namespace Sys2Proof.Machine

-- the command's effect on everything but the queue
def exec (i : Instr) (s : State) : Host.Outcome State Fault Refusal :=
  match i with
  | .ping rq => Sys2Proof.Machine.execPing rq s
  | .statusQuery rq => Sys2Proof.Machine.execStatusQuery rq s
  | .read rq => Sys2Proof.Machine.execRead rq s
  | .write rq => Sys2Proof.Machine.execWrite rq s
  | .writeMasked rq => Sys2Proof.Machine.execWriteMasked rq s
  | .fence rq => Sys2Proof.Machine.execFence rq s
  | .place rq => Sys2Proof.Machine.execPlace rq s
  | .pin rq => Sys2Proof.Machine.execPin rq s
  | .unpin rq => Sys2Proof.Machine.execUnpin rq s
  | .migrateNow rq => Sys2Proof.Machine.execMigrateNow rq s
  | .muffleDeclare rq => Sys2Proof.Machine.execMuffleDeclare rq s
  | .rudLoadStage rq => Sys2Proof.Machine.execRudLoadStage rq s
  | .rudLoadLoad rq => Sys2Proof.Machine.execRudLoadLoad rq s
  | .rudStart rq => Sys2Proof.Machine.execRudStart rq s
  | .rudStop rq => Sys2Proof.Machine.execRudStop rq s
  | .rudQuery rq => Sys2Proof.Machine.execRudQuery rq s
  | .kitCreate rq => Sys2Proof.Machine.execKitCreate rq s
  | .kitCreateRebind rq => Sys2Proof.Machine.execKitCreateRebind rq s
  | .kitDestroy rq => Sys2Proof.Machine.execKitDestroy rq s
  | .kitDestroyDrained k => Sys2Proof.Machine.execKitDestroyDrained k s
  | .windowSetSet rq => Sys2Proof.Machine.execWindowSetSet rq s
  | .windowSetClear rq => Sys2Proof.Machine.execWindowSetClear rq s
  | .windowClearDrained k w => Sys2Proof.Machine.execWindowClearDrained k w s
  | .strokeSet rq => Sys2Proof.Machine.execStrokeSet rq s
  | .csrRead rq => Sys2Proof.Machine.execCsrRead rq s
  | .csrWrite rq => Sys2Proof.Machine.execCsrWrite rq s
  | .barBeatnoLoRead rq => Sys2Proof.Machine.execBarBeatnoLoRead rq s
  | .genTempoStrictWrite rq => Sys2Proof.Machine.execGenTempoStrictWrite rq s
  | .genRestExitWrite rq => Sys2Proof.Machine.execGenRestExitWrite rq s
  | .barSrcRateWrite rq => Sys2Proof.Machine.execBarSrcRateWrite rq s
  | .tierSplitRequest rq => Sys2Proof.Machine.execTierSplitRequest rq s
  | .tierKprobeWrite rq => Sys2Proof.Machine.execTierKprobeWrite rq s
  | .eventsW1cClear rq => Sys2Proof.Machine.execEventsW1cClear rq s
  | .belfryRead rq => Sys2Proof.Machine.execBelfryRead rq s
  | .belfryWrite rq => Sys2Proof.Machine.execBelfryWrite rq s
  | .belfrySealPages rq => Sys2Proof.Machine.execBelfrySealPages rq s
  | .belfrySealTest rq => Sys2Proof.Machine.execBelfrySealTest rq s
  | .tollRun rq => Sys2Proof.Machine.execTollRun rq s
  | .repairQuery rq => Sys2Proof.Machine.execRepairQuery rq s
  | .repairApplySpareRow rq => Sys2Proof.Machine.execRepairApplySpareRow rq s
  | .repairApplySpareColumn rq => Sys2Proof.Machine.execRepairApplySpareColumn rq s
  | .repairApplySpareDie rq => Sys2Proof.Machine.execRepairApplySpareDie rq s
  | .repairApplySpareLane rq => Sys2Proof.Machine.execRepairApplySpareLane rq s
  | .repairApplyShadowRejoin rq => Sys2Proof.Machine.execRepairApplyShadowRejoin rq s
  | .repairApplyLaneRejoin rq => Sys2Proof.Machine.execRepairApplyLaneRejoin rq s
  | .tallyCtlStop rq => Sys2Proof.Machine.execTallyCtlStop rq s
  | .tallyCtlRecord rq => Sys2Proof.Machine.execTallyCtlRecord rq s
  | .tallyCtlStream rq => Sys2Proof.Machine.execTallyCtlStream rq s
  | .tallyCtlFilter rq => Sys2Proof.Machine.execTallyCtlFilter rq s
  | .tallyCtlConsent rq => Sys2Proof.Machine.execTallyCtlConsent rq s
  | .tallyRead rq => Sys2Proof.Machine.execTallyRead rq s
  | .knellRead rq => Sys2Proof.Machine.execKnellRead rq s
  | .close rq => Sys2Proof.Machine.execClose rq s
  | .restEnter rq => Sys2Proof.Machine.execRestEnter rq s
  | .gong rq comp => Sys2Proof.Machine.execGong rq comp s
  | .rudHalt e => Sys2Proof.Machine.execRudHalt e s
  | .rudNop e => Sys2Proof.Machine.execRudNop e s
  | .seti e rd hi imm => Sys2Proof.Machine.execSeti e rd hi imm s
  | .addi e rd rs imm => Sys2Proof.Machine.execAddi e rd rs imm s
  | .mov e rd rs => Sys2Proof.Machine.execMov e rd rs s
  | .loop e count len => Sys2Proof.Machine.execLoop e count len s
  | .br e cond rs target => Sys2Proof.Machine.execBr e cond rs target s
  | .brs e neg cls status target => Sys2Proof.Machine.execBrs e neg cls status target s
  | .call e target => Sys2Proof.Machine.execCall e target s
  | .ret e => Sys2Proof.Machine.execRet e s
  | .waitb e n => Sys2Proof.Machine.execWaitb e n s
  | .waitu e mod u => Sys2Proof.Machine.execWaitu e mod u s
  | .waitbar e n => Sys2Proof.Machine.execWaitbar e n s
  | .fetch e ra tgt count1 dl => Sys2Proof.Machine.execFetch e ra tgt count1 dl s
  | .stream e ra rb node ring count1 dl => Sys2Proof.Machine.execStream e ra rb node ring count1 dl s
  | .rudPin e ra tgt count1 => Sys2Proof.Machine.execRudPin e ra tgt count1 s
  | .rudUnpin e ra tgt count1 => Sys2Proof.Machine.execRudUnpin e ra tgt count1 s
  | .hintEvict e ra tgt count1 => Sys2Proof.Machine.execHintEvict e ra tgt count1 s
  | .deadline e m => Sys2Proof.Machine.execDeadline e m s
  | .policy e full pol => Sys2Proof.Machine.execPolicy e full pol s
  | .signal e node ring rs code => Sys2Proof.Machine.execSignal e node ring rs code s
  | .fetchPageComplete e kp => Sys2Proof.Machine.execFetchPageComplete e kp s
  | .streamDeadline e => Sys2Proof.Machine.execStreamDeadline e s
  | .streamFullPageReady e pos => Sys2Proof.Machine.execStreamFullPageReady e pos s
  | .pushInject r slot => Sys2Proof.Machine.execPushInject r slot s
  | .rudimentIssue => Sys2Proof.Machine.execRudimentIssue s
  | .flitReceive r slot f => Sys2Proof.Machine.execFlitReceive r slot f s
  | .hopRetryBlink r slot => Sys2Proof.Machine.execHopRetryBlink r slot s
  | .headerAdmission r => Sys2Proof.Machine.execHeaderAdmission r s
  | .streamTimeout r src stream => Sys2Proof.Machine.execStreamTimeout r src stream s
  | .packetComplete r src stream => Sys2Proof.Machine.execPacketComplete r src stream s
  | .readReplyRelease r slot => Sys2Proof.Machine.execReadReplyRelease r slot s
  | .strictReplyRelease r slot => Sys2Proof.Machine.execStrictReplyRelease r slot s
  | .earlyTrailer r => Sys2Proof.Machine.execEarlyTrailer r s
  | .requestTimeout rid => Sys2Proof.Machine.execRequestTimeout rid s
  | .wedgeReply rid => Sys2Proof.Machine.execWedgeReply rid s
  | .devicePacketRefused r dest seq => Sys2Proof.Machine.execDevicePacketRefused r dest seq s
  | .beatBoundary base m => Sys2Proof.Machine.execBeatBoundary base m s
  | .downbeat m barPermille => Sys2Proof.Machine.execDownbeat m barPermille s
  | .ringBDownbeat m offset => Sys2Proof.Machine.execRingBDownbeat m offset s
  | .ringBDownbeatLoss => Sys2Proof.Machine.execRingBDownbeatLoss s
  | .freewheelEntry => Sys2Proof.Machine.execFreewheelEntry s
  | .freewheelExpiry comp => Sys2Proof.Machine.execFreewheelExpiry comp s
  | .sensorSample temps fields => Sys2Proof.Machine.execSensorSample temps fields s
  | .scrubStep => Sys2Proof.Machine.execScrubStep s
  | .belfryRefreshStep weak stillWeak => Sys2Proof.Machine.execBelfryRefreshStep weak stillWeak s
  | .deepScanStep => Sys2Proof.Machine.execDeepScanStep s
  | .heatDecay => Sys2Proof.Machine.execHeatDecay s
  | .measureEnd => Sys2Proof.Machine.execMeasureEnd s
  | .chordAccept k => Sys2Proof.Machine.execChordAccept k s
  | .preImageCapture ent => Sys2Proof.Machine.execPreImageCapture ent s
  | .chordVerify ent failing => Sys2Proof.Machine.execChordVerify ent failing s
  | .fenceComplete k => Sys2Proof.Machine.execFenceComplete k s
  | .mergeEntryTimeout ix => Sys2Proof.Machine.execMergeEntryTimeout ix s
  | .rmwMerge ent => Sys2Proof.Machine.execRmwMerge ent s
  | .promotionReadDone k kp sectors => Sys2Proof.Machine.execPromotionReadDone k kp sectors s
  | .nandProgramDone die good => Sys2Proof.Machine.execNandProgramDone die good s
  | .nandEraseDone die good => Sys2Proof.Machine.execNandEraseDone die good s
  | .packWaitExpiry k => Sys2Proof.Machine.execPackWaitExpiry k s
  | .dieStall die => Sys2Proof.Machine.execDieStall die s
  | .mutedEntry => Sys2Proof.Machine.execMutedEntry s
  | .deepMapReady => Sys2Proof.Machine.execDeepMapReady s
  | .dieOut u => Sys2Proof.Machine.execDieOut u s
  | .shadowSwitchover kind => Sys2Proof.Machine.execShadowSwitchover kind s
  | .transferFail kind => Sys2Proof.Machine.execTransferFail kind s
  | .resilverSwitchover => Sys2Proof.Machine.execResilverSwitchover s
  | .resilverSlow => Sys2Proof.Machine.execResilverSlow s
  | .laneRemapSwitch r lane passed => Sys2Proof.Machine.execLaneRemapSwitch r lane passed s
  | .laneRejoinSwitch r => Sys2Proof.Machine.execLaneRejoinSwitch r s
  | .laneRequest r lane spare start => Sys2Proof.Machine.execLaneRequest r lane spare start s
  | .mailboxResend r => Sys2Proof.Machine.execMailboxResend r s
  | .trainingComplete r rate us badLanes => Sys2Proof.Machine.execTrainingComplete r rate us badLanes s
  | .joinwin r w mbar hops step => Sys2Proof.Machine.execJoinwin r w mbar hops step s
  | .leavewin r node w mbar hops comp => Sys2Proof.Machine.execLeavewin r node w mbar hops comp s
  | .leaveTimeout r comp => Sys2Proof.Machine.execLeaveTimeout r comp s
  | .enum r fresh epoch pos order nextid => Sys2Proof.Machine.execEnum r fresh epoch pos order nextid s
  | .freshEnumRestart r comp => Sys2Proof.Machine.execFreshEnumRestart r comp s
  | .roster r epoch order => Sys2Proof.Machine.execRoster r epoch order s
  | .ratechg code mbar => Sys2Proof.Machine.execRatechg code mbar s
  | .rateChangeResume x => Sys2Proof.Machine.execRateChangeResume x s
  | .slotmap r owners => Sys2Proof.Machine.execSlotmap r owners s
  | .vstbyUp sbAddr => Sys2Proof.Machine.execVstbyUp sbAddr s
  | .heldExit beatsrc => Sys2Proof.Machine.execHeldExit beatsrc s
  | .resetNAssert comp => Sys2Proof.Machine.execResetNAssert comp s
  | .pwrgoodFall comp => Sys2Proof.Machine.execPwrgoodFall comp s
  | .vstbyLoss railsHold comp => Sys2Proof.Machine.execVstbyLoss railsHold comp s
  | .wakeNAssert => Sys2Proof.Machine.execWakeNAssert s
  | .i3cReset comp => Sys2Proof.Machine.execI3cReset comp s
  | .i3cPrivateWrite x => Sys2Proof.Machine.execI3cPrivateWrite x s
  | .i3cPrivateRead x => Sys2Proof.Machine.execI3cPrivateRead x s
  | .setdasa x => Sys2Proof.Machine.execSetdasa x s
  | .entdaa addr => Sys2Proof.Machine.execEntdaa addr s
  | .rstdaa => Sys2Proof.Machine.execRstdaa s
  | .tapInstruction t => Sys2Proof.Machine.execTapInstruction t s
  | .completionEnd => Sys2Proof.Machine.execCompletionEnd s
  | .morningTollDone find => Sys2Proof.Machine.execMorningTollDone find s
  | .fillDone find => Sys2Proof.Machine.execFillDone find s
  | .heatSnapshotRestore crcGood => Sys2Proof.Machine.execHeatSnapshotRestore crcGood s
  | .runEntry x => Sys2Proof.Machine.execRunEntry x s
  | .joinTimeout => Sys2Proof.Machine.execJoinTimeout s
  | .restEntry => Sys2Proof.Machine.execRestEntry s
  | .restWake => Sys2Proof.Machine.execRestWake s
  | .restExit x => Sys2Proof.Machine.execRestExit x s
  | .restRejoin m => Sys2Proof.Machine.execRestRejoin m s
  | .eveningToll find => Sys2Proof.Machine.execEveningToll find s
  | .eveningTollDone => Sys2Proof.Machine.execEveningTollDone s
  | .knell cause detail comp => Sys2Proof.Machine.execKnell cause detail comp s
  | .watchdogExpiry pc comp => Sys2Proof.Machine.execWatchdogExpiry pc comp s
  | .knellRecordBound => Sys2Proof.Machine.execKnellRecordBound s
  | .belfryChunkWrite tries good => Sys2Proof.Machine.execBelfryChunkWrite tries good s
  | .criticalRecordUpdate r body copyAGood => Sys2Proof.Machine.execCriticalRecordUpdate r body copyAGood s
  | .criticalRecordRead r => Sys2Proof.Machine.execCriticalRecordRead r s
  | .eventLogWrite good => Sys2Proof.Machine.execEventLogWrite good s
  | .shadowLogWrite => Sys2Proof.Machine.execShadowLogWrite s
  | .tallyStreamSend => Sys2Proof.Machine.execTallyStreamSend s
  | .railOutOfLimits rails => Sys2Proof.Machine.execRailOutOfLimits rails s
  | .phaseStep r => Sys2Proof.Machine.execPhaseStep r s
  | .tollRunDone fails durationUs => Sys2Proof.Machine.execTollRunDone fails durationUs s
  | .scanReadDone block corrected retries uncorrectable => Sys2Proof.Machine.execScanReadDone block corrected retries uncorrectable s

end Sys2Proof.Machine
end

