-- ==== Sys2Proof/Laws/PerInstr.lean ====
section
/-! SUPPORT. Family Opcode: a request row carries its own opcode of Table 7.1 (07 R163) and the payload its header
announces (06 R143, 07 R166). -/

namespace Sys2Proof.Laws

open Sys2Proof.Machine

/-- The request that a row carries, with its opcode of Table 7.1. -/
def requestOf : Instr → Option (Req × Nat)
  | .ping rq => some (rq, 0x01)
  | .statusQuery rq => some (rq, 0x02)
  | .read rq => some (rq, 0x10)
  | .write rq => some (rq, 0x11)
  | .writeMasked rq => some (rq, 0x12)
  | .fence rq => some (rq, 0x13)
  | .place rq => some (rq, 0x18)
  | .pin rq => some (rq, 0x19)
  | .unpin rq => some (rq, 0x1A)
  | .migrateNow rq => some (rq, 0x1B)
  | .muffleDeclare rq => some (rq, 0x1C)
  | .rudLoadStage rq => some (rq, 0x20)
  | .rudLoadLoad rq => some (rq, 0x20)
  | .rudStart rq => some (rq, 0x21)
  | .rudStop rq => some (rq, 0x22)
  | .rudQuery rq => some (rq, 0x23)
  | .kitCreate rq => some (rq, 0x30)
  | .kitCreateRebind rq => some (rq, 0x30)
  | .kitDestroy rq => some (rq, 0x31)
  | .kitDestroyDrained _ => none
  | .windowSetSet rq => some (rq, 0x32)
  | .windowSetClear rq => some (rq, 0x32)
  | .windowClearDrained _ _ => none
  | .strokeSet rq => some (rq, 0x33)
  | .csrRead rq => some (rq, 0x40)
  | .csrWrite rq => some (rq, 0x41)
  | .barBeatnoLoRead rq => some (rq, 0x40)
  | .genTempoStrictWrite rq => some (rq, 0x41)
  | .genRestExitWrite rq => some (rq, 0x41)
  | .barSrcRateWrite rq => some (rq, 0x41)
  | .tierSplitRequest rq => some (rq, 0x41)
  | .tierKprobeWrite rq => some (rq, 0x41)
  | .eventsW1cClear rq => some (rq, 0x41)
  | .belfryRead rq => some (rq, 0x48)
  | .belfryWrite rq => some (rq, 0x49)
  | .belfrySealPages rq => some (rq, 0x4A)
  | .belfrySealTest rq => some (rq, 0x4A)
  | .tollRun rq => some (rq, 0x50)
  | .repairQuery rq => some (rq, 0x51)
  | .repairApplySpareRow rq => some (rq, 0x52)
  | .repairApplySpareColumn rq => some (rq, 0x52)
  | .repairApplySpareDie rq => some (rq, 0x52)
  | .repairApplySpareLane rq => some (rq, 0x52)
  | .repairApplyShadowRejoin rq => some (rq, 0x52)
  | .repairApplyLaneRejoin rq => some (rq, 0x52)
  | .tallyCtlStop rq => some (rq, 0x58)
  | .tallyCtlRecord rq => some (rq, 0x58)
  | .tallyCtlStream rq => some (rq, 0x58)
  | .tallyCtlFilter rq => some (rq, 0x58)
  | .tallyCtlConsent rq => some (rq, 0x58)
  | .tallyRead rq => some (rq, 0x59)
  | .knellRead rq => some (rq, 0x5A)
  | .close rq => some (rq, 0x60)
  | .restEnter rq => some (rq, 0x61)
  | .gong rq _ => some (rq, 0x7F)
  | .rudHalt _ => none
  | .rudNop _ => none
  | .seti _ _ _ _ => none
  | .addi _ _ _ _ => none
  | .mov _ _ _ => none
  | .loop _ _ _ => none
  | .br _ _ _ _ => none
  | .brs _ _ _ _ _ => none
  | .call _ _ => none
  | .ret _ => none
  | .waitb _ _ => none
  | .waitu _ _ _ => none
  | .waitbar _ _ => none
  | .fetch _ _ _ _ _ => none
  | .stream _ _ _ _ _ _ _ => none
  | .rudPin _ _ _ _ => none
  | .rudUnpin _ _ _ _ => none
  | .hintEvict _ _ _ _ => none
  | .deadline _ _ => none
  | .policy _ _ _ => none
  | .signal _ _ _ _ _ => none
  | .fetchPageComplete _ _ => none
  | .streamDeadline _ => none
  | .streamFullPageReady _ _ => none
  | .pushInject _ _ => none
  | .rudimentIssue => none
  | .flitReceive _ _ _ => none
  | .hopRetryBlink _ _ => none
  | .headerAdmission _ => none
  | .streamTimeout _ _ _ => none
  | .packetComplete _ _ _ => none
  | .readReplyRelease _ _ => none
  | .strictReplyRelease _ _ => none
  | .earlyTrailer _ => none
  | .requestTimeout _ => none
  | .wedgeReply _ => none
  | .devicePacketRefused _ _ _ => none
  | .beatBoundary _ _ => none
  | .downbeat _ _ => none
  | .ringBDownbeat _ _ => none
  | .ringBDownbeatLoss => none
  | .freewheelEntry => none
  | .freewheelExpiry _ => none
  | .sensorSample _ _ => none
  | .scrubStep => none
  | .belfryRefreshStep _ _ => none
  | .deepScanStep => none
  | .heatDecay => none
  | .measureEnd => none
  | .chordAccept _ => none
  | .preImageCapture _ => none
  | .chordVerify _ _ => none
  | .fenceComplete _ => none
  | .mergeEntryTimeout _ => none
  | .rmwMerge _ => none
  | .promotionReadDone _ _ _ => none
  | .nandProgramDone _ _ => none
  | .nandEraseDone _ _ => none
  | .packWaitExpiry _ => none
  | .dieStall _ => none
  | .mutedEntry => none
  | .deepMapReady => none
  | .dieOut _ => none
  | .shadowSwitchover _ => none
  | .transferFail _ => none
  | .resilverSwitchover => none
  | .resilverSlow => none
  | .laneRemapSwitch _ _ _ => none
  | .laneRejoinSwitch _ => none
  | .laneRequest _ _ _ _ => none
  | .mailboxResend _ => none
  | .trainingComplete _ _ _ _ => none
  | .joinwin _ _ _ _ _ => none
  | .leavewin _ _ _ _ _ _ => none
  | .leaveTimeout _ _ => none
  | .enum _ _ _ _ _ _ => none
  | .freshEnumRestart _ _ => none
  | .roster _ _ _ => none
  | .ratechg _ _ => none
  | .rateChangeResume _ => none
  | .slotmap _ _ => none
  | .vstbyUp _ => none
  | .heldExit _ => none
  | .resetNAssert _ => none
  | .pwrgoodFall _ => none
  | .vstbyLoss _ _ => none
  | .wakeNAssert => none
  | .i3cReset _ => none
  | .i3cPrivateWrite _ => none
  | .i3cPrivateRead _ => none
  | .setdasa _ => none
  | .entdaa _ => none
  | .rstdaa => none
  | .tapInstruction _ => none
  | .completionEnd => none
  | .morningTollDone _ => none
  | .fillDone _ => none
  | .heatSnapshotRestore _ => none
  | .runEntry _ => none
  | .joinTimeout => none
  | .restEntry => none
  | .restWake => none
  | .restExit _ => none
  | .restRejoin _ => none
  | .eveningToll _ => none
  | .eveningTollDone => none
  | .knell _ _ _ => none
  | .watchdogExpiry _ _ => none
  | .knellRecordBound => none
  | .belfryChunkWrite _ _ => none
  | .criticalRecordUpdate _ _ _ => none
  | .criticalRecordRead _ => none
  | .eventLogWrite _ => none
  | .shadowLogWrite => none
  | .tallyStreamSend => none
  | .railOutOfLimits _ => none
  | .phaseStep _ => none
  | .tollRunDone _ _ => none
  | .scanReadDone _ _ _ _ => none

/-- What a well-formed request row carries. -/
def Opcode.Statement (i : Instr) : Prop :=
  i.wf = true → ∀ rq o, requestOf i = some (rq, o) →
    rq.opc.toNat = o ∧ rq.payload.length = payloadLen o (lenOf rq)

/-- The shared part: `is` says both. -/
theorem Opcode.of_is {rq rq' : Req} {o o' : Nat} (h : rq.is o = true) (e : some (rq, o) = some (rq', o')) :
    rq'.opc.toNat = o' ∧ rq'.payload.length = payloadLen o' (lenOf rq') := by
  cases e
  simpa [Req.is] using h

theorem Opcode.left {a b : Bool} (h : (a && b) = true) : a = true := by
  cases a <;> simp_all

theorem Opcode.ping (rq : Req) : Opcode.Statement (.ping rq) := fun h _ _ e => Opcode.of_is h e
theorem Opcode.statusQuery (rq : Req) : Opcode.Statement (.statusQuery rq) := fun h _ _ e => Opcode.of_is h e
theorem Opcode.read (rq : Req) : Opcode.Statement (.read rq) := fun h _ _ e => Opcode.of_is h e
theorem Opcode.write (rq : Req) : Opcode.Statement (.write rq) := fun h _ _ e => Opcode.of_is h e
theorem Opcode.writeMasked (rq : Req) : Opcode.Statement (.writeMasked rq) := fun h _ _ e => Opcode.of_is h e
theorem Opcode.fence (rq : Req) : Opcode.Statement (.fence rq) := fun h _ _ e => Opcode.of_is h e
theorem Opcode.place (rq : Req) : Opcode.Statement (.place rq) := fun h _ _ e => Opcode.of_is h e
theorem Opcode.pin  : Opcode.Statement (.pin rq) := fun h _ _ e => Opcode.of_is h e
theorem Opcode.unpin (rq : Req) : Opcode.Statement (.unpin rq) := fun h _ _ e => Opcode.of_is h e
theorem Opcode.migrateNow (rq : Req) : Opcode.Statement (.migrateNow rq) := fun h _ _ e => Opcode.of_is h e
theorem Opcode.muffleDeclare (rq : Req) : Opcode.Statement (.muffleDeclare rq) := fun h _ _ e => Opcode.of_is h e
theorem Opcode.rudLoadStage (rq : Req) : Opcode.Statement (.rudLoadStage rq) := fun h _ _ e => Opcode.of_is (Opcode.left h) e
theorem Opcode.rudLoadLoad (rq : Req) : Opcode.Statement (.rudLoadLoad rq) := fun h _ _ e => Opcode.of_is (Opcode.left h) e
theorem Opcode.rudStart (rq : Req) : Opcode.Statement (.rudStart rq) := fun h _ _ e => Opcode.of_is h e
theorem Opcode.rudStop (rq : Req) : Opcode.Statement (.rudStop rq) := fun h _ _ e => Opcode.of_is h e
theorem Opcode.rudQuery (rq : Req) : Opcode.Statement (.rudQuery rq) := fun h _ _ e => Opcode.of_is h e
theorem Opcode.kitCreate (rq : Req) : Opcode.Statement (.kitCreate rq) := fun h _ _ e => Opcode.of_is (Opcode.left h) e
theorem Opcode.kitCreateRebind (rq : Req) : Opcode.Statement (.kitCreateRebind rq) := fun h _ _ e => Opcode.of_is (Opcode.left h) e
theorem Opcode.kitDestroy (rq : Req) : Opcode.Statement (.kitDestroy rq) := fun h _ _ e => Opcode.of_is h e
theorem Opcode.kitDestroyDrained (k : Kit) : Opcode.Statement (.kitDestroyDrained k) := fun _ _ _ e => nomatch e
theorem Opcode.windowSetSet (rq : Req) : Opcode.Statement (.windowSetSet rq) := fun h _ _ e => Opcode.of_is (Opcode.left h) e
theorem Opcode.windowSetClear (rq : Req) : Opcode.Statement (.windowSetClear rq) := fun h _ _ e => Opcode.of_is (Opcode.left h) e
theorem Opcode.windowClearDrained (k : Kit) (w : Fin 8) : Opcode.Statement (.windowClearDrained k w) := fun _ _ _ e => nomatch e
theorem Opcode.strokeSet (rq : Req) : Opcode.Statement (.strokeSet rq) := fun h _ _ e => Opcode.of_is h e
theorem Opcode.csrRead (rq : Req) : Opcode.Statement (.csrRead rq) := fun h _ _ e => Opcode.of_is h e
theorem Opcode.csrWrite (rq : Req) : Opcode.Statement (.csrWrite rq) := fun h _ _ e => Opcode.of_is h e
theorem Opcode.barBeatnoLoRead (rq : Req) : Opcode.Statement (.barBeatnoLoRead rq) := fun h _ _ e => Opcode.of_is (Opcode.left (Opcode.left h)) e
theorem Opcode.genTempoStrictWrite (rq : Req) : Opcode.Statement (.genTempoStrictWrite rq) := fun h _ _ e => Opcode.of_is (Opcode.left (Opcode.left h)) e
theorem Opcode.genRestExitWrite (rq : Req) : Opcode.Statement (.genRestExitWrite rq) := fun h _ _ e => Opcode.of_is (Opcode.left (Opcode.left h)) e
theorem Opcode.barSrcRateWrite (rq : Req) : Opcode.Statement (.barSrcRateWrite rq) := fun h _ _ e => Opcode.of_is (Opcode.left (Opcode.left h)) e
theorem Opcode.tierSplitRequest (rq : Req) : Opcode.Statement (.tierSplitRequest rq) := fun h _ _ e => Opcode.of_is (Opcode.left (Opcode.left h)) e
theorem Opcode.tierKprobeWrite (rq : Req) : Opcode.Statement (.tierKprobeWrite rq) := fun h _ _ e => Opcode.of_is (Opcode.left (Opcode.left (Opcode.left (Opcode.left h)))) e
theorem Opcode.eventsW1cClear (rq : Req) : Opcode.Statement (.eventsW1cClear rq) := fun h _ _ e => Opcode.of_is (Opcode.left (Opcode.left h)) e
theorem Opcode.belfryRead (rq : Req) : Opcode.Statement (.belfryRead rq) := fun h _ _ e => Opcode.of_is h e
theorem Opcode.belfryWrite (rq : Req) : Opcode.Statement (.belfryWrite rq) := fun h _ _ e => Opcode.of_is h e
theorem Opcode.belfrySealPages (rq : Req) : Opcode.Statement (.belfrySealPages rq) := fun h _ _ e => Opcode.of_is (Opcode.left h) e
theorem Opcode.belfrySealTest (rq : Req) : Opcode.Statement (.belfrySealTest rq) := fun h _ _ e => Opcode.of_is (Opcode.left h) e
theorem Opcode.tollRun (rq : Req) : Opcode.Statement (.tollRun rq) := fun h _ _ e => Opcode.of_is h e
theorem Opcode.repairQuery (rq : Req) : Opcode.Statement (.repairQuery rq) := fun h _ _ e => Opcode.of_is h e
theorem Opcode.repairApplySpareRow (rq : Req) : Opcode.Statement (.repairApplySpareRow rq) := fun h _ _ e => Opcode.of_is (Opcode.left h) e
theorem Opcode.repairApplySpareColumn (rq : Req) : Opcode.Statement (.repairApplySpareColumn rq) := fun h _ _ e => Opcode.of_is (Opcode.left h) e
theorem Opcode.repairApplySpareDie (rq : Req) : Opcode.Statement (.repairApplySpareDie rq) := fun h _ _ e => Opcode.of_is (Opcode.left h) e
theorem Opcode.repairApplySpareLane (rq : Req) : Opcode.Statement (.repairApplySpareLane rq) := fun h _ _ e => Opcode.of_is (Opcode.left h) e
theorem Opcode.repairApplyShadowRejoin (rq : Req) : Opcode.Statement (.repairApplyShadowRejoin rq) := fun h _ _ e => Opcode.of_is (Opcode.left (Opcode.left h)) e
theorem Opcode.repairApplyLaneRejoin (rq : Req) : Opcode.Statement (.repairApplyLaneRejoin rq) := fun h _ _ e => Opcode.of_is (Opcode.left (Opcode.left h)) e
theorem Opcode.tallyCtlStop (rq : Req) : Opcode.Statement (.tallyCtlStop rq) := fun h _ _ e => Opcode.of_is (Opcode.left h) e
theorem Opcode.tallyCtlRecord (rq : Req) : Opcode.Statement (.tallyCtlRecord rq) := fun h _ _ e => Opcode.of_is (Opcode.left h) e
theorem Opcode.tallyCtlStream (rq : Req) : Opcode.Statement (.tallyCtlStream rq) := fun h _ _ e => Opcode.of_is (Opcode.left h) e
theorem Opcode.tallyCtlFilter (rq : Req) : Opcode.Statement (.tallyCtlFilter rq) := fun h _ _ e => Opcode.of_is (Opcode.left h) e
theorem Opcode.tallyCtlConsent (rq : Req) : Opcode.Statement (.tallyCtlConsent rq) := fun h _ _ e => Opcode.of_is (Opcode.left h) e
theorem Opcode.tallyRead (rq : Req) : Opcode.Statement (.tallyRead rq) := fun h _ _ e => Opcode.of_is h e
theorem Opcode.knellRead (rq : Req) : Opcode.Statement (.knellRead rq) := fun h _ _ e => Opcode.of_is h e
theorem Opcode.close (rq : Req) : Opcode.Statement (.close rq) := fun h _ _ e => Opcode.of_is h e
theorem Opcode.restEnter (rq : Req) : Opcode.Statement (.restEnter rq) := fun h _ _ e => Opcode.of_is h e
theorem Opcode.gong (rq : Req) (comp : CompOut) : Opcode.Statement (.gong rq comp) := fun h _ _ e => Opcode.of_is h e
theorem Opcode.rudHalt (e : Engine) : Opcode.Statement (.rudHalt e) := fun _ _ _ e => nomatch e
theorem Opcode.rudNop (e : Engine) : Opcode.Statement (.rudNop e) := fun _ _ _ e => nomatch e
theorem Opcode.seti (e : Engine) (rd : GReg) (hi : Bool) (imm : BitVec 16) : Opcode.Statement (.seti e rd hi imm) := fun _ _ _ e => nomatch e
theorem Opcode.addi (e : Engine) (rd rs : GReg) (imm : BitVec 16) : Opcode.Statement (.addi e rd rs imm) := fun _ _ _ e => nomatch e
theorem Opcode.mov (e : Engine) (rd rs : GReg) : Opcode.Statement (.mov e rd rs) := fun _ _ _ e => nomatch e
theorem Opcode.loop (e : Engine) (count : RegOrImm 12) (len : BitVec 10) : Opcode.Statement (.loop e count len) := fun _ _ _ e => nomatch e
theorem Opcode.br (e : Engine) (cond : BrCond) (rs : GReg) (target : BitVec 12) : Opcode.Statement (.br e cond rs target) := fun _ _ _ e => nomatch e
theorem Opcode.brs (e : Engine) (neg cls : Bool) (status : BitVec 8) (target : BitVec 12) : Opcode.Statement (.brs e neg cls status target) := fun _ _ _ e => nomatch e
theorem Opcode.call (e : Engine) (target : BitVec 12) : Opcode.Statement (.call e target) := fun _ _ _ e => nomatch e
theorem Opcode.ret (e : Engine) : Opcode.Statement (.ret e) := fun _ _ _ e => nomatch e
theorem Opcode.waitb (e : Engine) (n : RegOrImm 20) : Opcode.Statement (.waitb e n) := fun _ _ _ e => nomatch e
theorem Opcode.waitu (e : Engine) (mod : Bool) (u : BitVec 10) : Opcode.Statement (.waitu e mod u) := fun _ _ _ e => nomatch e
theorem Opcode.waitbar (e : Engine) (n : BitVec 16) : Opcode.Statement (.waitbar e n) := fun _ _ _ e => nomatch e
theorem Opcode.fetch (e : Engine) (ra : GReg) (tgt : Tgt) (count1 : BitVec 4) (dl : Bool) : Opcode.Statement (.fetch e ra tgt count1 dl) := fun _ _ _ e => nomatch e
theorem Opcode.stream (e : Engine) (ra rb : GReg) (node : Node) (ring : Ring) (count1 : BitVec 4) (dl : Bool) : Opcode.Statement (.stream e ra rb node ring count1 dl) := fun _ _ _ e => nomatch e
theorem Opcode.rudPin (e : Engine) (ra : GReg) (tgt : Tgt) (count1 : BitVec 4) : Opcode.Statement (.rudPin e ra tgt count1) := fun _ _ _ e => nomatch e
theorem Opcode.rudUnpin (e : Engine) (ra : GReg) (tgt : Tgt3) (count1 : BitVec 4) : Opcode.Statement (.rudUnpin e ra tgt count1) := fun _ _ _ e => nomatch e
theorem Opcode.hintEvict (e : Engine) (ra : GReg) (tgt : Tgt3) (count1 : BitVec 4) : Opcode.Statement (.hintEvict e ra tgt count1) := fun _ _ _ e => nomatch e
theorem Opcode.deadline (e : Engine) (m : DlMode) : Opcode.Statement (.deadline e m) := fun _ _ _ e => nomatch e
theorem Opcode.policy (e : Engine) (full : Bool) (pol : Policy) : Opcode.Statement (.policy e full pol) := fun _ _ _ e => nomatch e
theorem Opcode.signal (e : Engine) (node : Node) (ring : Ring) (rs : GReg) (code : BitVec 8) : Opcode.Statement (.signal e node ring rs code) := fun _ _ _ e => nomatch e
theorem Opcode.fetchPageComplete (e : Engine) (kp : KPage) : Opcode.Statement (.fetchPageComplete e kp) := fun _ _ _ e => nomatch e
theorem Opcode.streamDeadline (e : Engine) : Opcode.Statement (.streamDeadline e) := fun _ _ _ e => nomatch e
theorem Opcode.streamFullPageReady (e : Engine) (pos : BitVec 4) : Opcode.Statement (.streamFullPageReady e pos) := fun _ _ _ e => nomatch e
theorem Opcode.pushInject (r : Ring) (slot : BitVec 5) : Opcode.Statement (.pushInject r slot) := fun _ _ _ e => nomatch e
theorem Opcode.rudimentIssue : Opcode.Statement (.rudimentIssue) := fun _ _ _ e => nomatch e
theorem Opcode.flitReceive (r : Ring) (slot : BitVec 5) (f : Flit) : Opcode.Statement (.flitReceive r slot f) := fun _ _ _ e => nomatch e
theorem Opcode.hopRetryBlink (r : Ring) (slot : BitVec 5) : Opcode.Statement (.hopRetryBlink r slot) := fun _ _ _ e => nomatch e
theorem Opcode.headerAdmission (r : Ring) : Opcode.Statement (.headerAdmission r) := fun _ _ _ e => nomatch e
theorem Opcode.streamTimeout (r : Ring) (src : Node) (stream : BitVec 3) : Opcode.Statement (.streamTimeout r src stream) := fun _ _ _ e => nomatch e
theorem Opcode.packetComplete (r : Ring) (src : Node) (stream : BitVec 3) : Opcode.Statement (.packetComplete r src stream) := fun _ _ _ e => nomatch e
theorem Opcode.readReplyRelease (r : Ring) (slot : BitVec 5) : Opcode.Statement (.readReplyRelease r slot) := fun _ _ _ e => nomatch e
theorem Opcode.strictReplyRelease (r : Ring) (slot : BitVec 5) : Opcode.Statement (.strictReplyRelease r slot) := fun _ _ _ e => nomatch e
theorem Opcode.earlyTrailer (r : Ring) : Opcode.Statement (.earlyTrailer r) := fun _ _ _ e => nomatch e
theorem Opcode.requestTimeout (rid : Nat) : Opcode.Statement (.requestTimeout rid) := fun _ _ _ e => nomatch e
theorem Opcode.wedgeReply (rid : Nat) : Opcode.Statement (.wedgeReply rid) := fun _ _ _ e => nomatch e
theorem Opcode.devicePacketRefused (r : Ring) (dest : Node) (seq : BitVec 16) : Opcode.Statement (.devicePacketRefused r dest seq) := fun _ _ _ e => nomatch e
theorem Opcode.beatBoundary (base : BeatBase) (m : Option Marker) : Opcode.Statement (.beatBoundary base m) := fun _ _ _ e => nomatch e
theorem Opcode.downbeat (m : Marker) (barPermille : Nat) : Opcode.Statement (.downbeat m barPermille) := fun _ _ _ e => nomatch e
theorem Opcode.ringBDownbeat (m : Marker) (offset : BitVec 16) : Opcode.Statement (.ringBDownbeat m offset) := fun _ _ _ e => nomatch e
theorem Opcode.ringBDownbeatLoss : Opcode.Statement (.ringBDownbeatLoss) := fun _ _ _ e => nomatch e
theorem Opcode.freewheelEntry : Opcode.Statement (.freewheelEntry) := fun _ _ _ e => nomatch e
theorem Opcode.freewheelExpiry (comp : CompOut) : Opcode.Statement (.freewheelExpiry comp) := fun _ _ _ e => nomatch e
theorem Opcode.sensorSample (temps : List (BitVec 12)) (fields : List (List (BitVec 12))) : Opcode.Statement (.sensorSample temps fields) := fun _ _ _ e => nomatch e
theorem Opcode.scrubStep : Opcode.Statement (.scrubStep) := fun _ _ _ e => nomatch e
theorem Opcode.belfryRefreshStep (weak stillWeak : BitVec 8) : Opcode.Statement (.belfryRefreshStep weak stillWeak) := fun _ _ _ e => nomatch e
theorem Opcode.deepScanStep : Opcode.Statement (.deepScanStep) := fun _ _ _ e => nomatch e
theorem Opcode.heatDecay : Opcode.Statement (.heatDecay) := fun _ _ _ e => nomatch e
theorem Opcode.measureEnd : Opcode.Statement (.measureEnd) := fun _ _ _ e => nomatch e
theorem Opcode.chordAccept (k : Kit) : Opcode.Statement (.chordAccept k) := fun _ _ _ e => nomatch e
theorem Opcode.preImageCapture (ent : Nat) : Opcode.Statement (.preImageCapture ent) := fun _ _ _ e => nomatch e
theorem Opcode.chordVerify (ent : Nat) (failing : Slices) : Opcode.Statement (.chordVerify ent failing) := fun _ _ _ e => nomatch e
theorem Opcode.fenceComplete (k : Kit) : Opcode.Statement (.fenceComplete k) := fun _ _ _ e => nomatch e
theorem Opcode.mergeEntryTimeout (ix : Fin 64) : Opcode.Statement (.mergeEntryTimeout ix) := fun _ _ _ e => nomatch e
theorem Opcode.rmwMerge (ent : Nat) : Opcode.Statement (.rmwMerge ent) := fun _ _ _ e => nomatch e
theorem Opcode.promotionReadDone (k : Kit) (kp : KPage) (sectors : List (BitVec 4 × SectorRead)) : Opcode.Statement (.promotionReadDone k kp sectors) := fun _ _ _ e => nomatch e
theorem Opcode.nandProgramDone (die : Fin 4) (good : Bool) : Opcode.Statement (.nandProgramDone die good) := fun _ _ _ e => nomatch e
theorem Opcode.nandEraseDone (die : Fin 4) (good : Bool) : Opcode.Statement (.nandEraseDone die good) := fun _ _ _ e => nomatch e
theorem Opcode.packWaitExpiry (k : Kit) : Opcode.Statement (.packWaitExpiry k) := fun _ _ _ e => nomatch e
theorem Opcode.dieStall (die : Fin 4) : Opcode.Statement (.dieStall die) := fun _ _ _ e => nomatch e
theorem Opcode.mutedEntry : Opcode.Statement (.mutedEntry) := fun _ _ _ e => nomatch e
theorem Opcode.deepMapReady : Opcode.Statement (.deepMapReady) := fun _ _ _ e => nomatch e
theorem Opcode.dieOut (u : OutUnit) : Opcode.Statement (.dieOut u) := fun _ _ _ e => nomatch e
theorem Opcode.shadowSwitchover (kind : UnitKind) : Opcode.Statement (.shadowSwitchover kind) := fun _ _ _ e => nomatch e
theorem Opcode.transferFail (kind : UnitKind) : Opcode.Statement (.transferFail kind) := fun _ _ _ e => nomatch e
theorem Opcode.resilverSwitchover : Opcode.Statement (.resilverSwitchover) := fun _ _ _ e => nomatch e
theorem Opcode.resilverSlow : Opcode.Statement (.resilverSlow) := fun _ _ _ e => nomatch e
theorem Opcode.laneRemapSwitch (r : Ring) (lane : BitVec 4) (passed : Bool) : Opcode.Statement (.laneRemapSwitch r lane passed) := fun _ _ _ e => nomatch e
theorem Opcode.laneRejoinSwitch (r : Ring) : Opcode.Statement (.laneRejoinSwitch r) := fun _ _ _ e => nomatch e
theorem Opcode.laneRequest (r : Ring) (lane : BitVec 4) (spare start : Bool) : Opcode.Statement (.laneRequest r lane spare start) := fun _ _ _ e => nomatch e
theorem Opcode.mailboxResend (r : Ring) : Opcode.Statement (.mailboxResend r) := fun _ _ _ e => nomatch e
theorem Opcode.trainingComplete (r : Ring) (rate : BitVec 3) (us : BitVec 16) (badLanes : BitVec 16) : Opcode.Statement (.trainingComplete r rate us badLanes) := fun _ _ _ e => nomatch e
theorem Opcode.joinwin (r : Ring) (w : BitVec 10) (mbar : BitVec 32) (hops : Hops) (step : Bool) : Opcode.Statement (.joinwin r w mbar hops step) := fun _ _ _ e => nomatch e
theorem Opcode.leavewin (r : Ring) (node : Node) (w : BitVec 10) (mbar : BitVec 32) (hops : Hops) (comp : CompOut) : Opcode.Statement (.leavewin r node w mbar hops comp) := fun _ _ _ e => nomatch e
theorem Opcode.leaveTimeout (r : Ring) (comp : CompOut) : Opcode.Statement (.leaveTimeout r comp) := fun _ _ _ e => nomatch e
theorem Opcode.enum (r : Ring) (fresh : Bool) (epoch : BitVec 8) (pos : BitVec 5) (order : List Node) (nextid : Node) : Opcode.Statement (.enum r fresh epoch pos order nextid) := fun _ _ _ e => nomatch e
theorem Opcode.freshEnumRestart (r : Ring) (comp : CompOut) : Opcode.Statement (.freshEnumRestart r comp) := fun _ _ _ e => nomatch e
theorem Opcode.roster (r : Ring) (epoch : BitVec 8) (order : List Node) : Opcode.Statement (.roster r epoch order) := fun _ _ _ e => nomatch e
theorem Opcode.ratechg (code : BitVec 8) (mbar : BitVec 32) : Opcode.Statement (.ratechg code mbar) := fun _ _ _ e => nomatch e
theorem Opcode.rateChangeResume (x : Retrained) : Opcode.Statement (.rateChangeResume x) := fun _ _ _ e => nomatch e
theorem Opcode.slotmap (r : Ring) (owners : List Node) : Opcode.Statement (.slotmap r owners) := fun _ _ _ e => nomatch e
theorem Opcode.vstbyUp (sbAddr : BitVec 2) : Opcode.Statement (.vstbyUp sbAddr) := fun _ _ _ e => nomatch e
theorem Opcode.heldExit (beatsrc : Bool) : Opcode.Statement (.heldExit beatsrc) := fun _ _ _ e => nomatch e
theorem Opcode.resetNAssert (comp : CompOut) : Opcode.Statement (.resetNAssert comp) := fun _ _ _ e => nomatch e
theorem Opcode.pwrgoodFall (comp : CompOut) : Opcode.Statement (.pwrgoodFall comp) := fun _ _ _ e => nomatch e
theorem Opcode.vstbyLoss (railsHold : Bool) (comp : CompOut) : Opcode.Statement (.vstbyLoss railsHold comp) := fun _ _ _ e => nomatch e
theorem Opcode.wakeNAssert : Opcode.Statement (.wakeNAssert) := fun _ _ _ e => nomatch e
theorem Opcode.i3cReset (comp : CompOut) : Opcode.Statement (.i3cReset comp) := fun _ _ _ e => nomatch e
theorem Opcode.i3cPrivateWrite (x : I3cWrite) : Opcode.Statement (.i3cPrivateWrite x) := fun _ _ _ e => nomatch e
theorem Opcode.i3cPrivateRead (x : I3cRead) : Opcode.Statement (.i3cPrivateRead x) := fun _ _ _ e => nomatch e
theorem Opcode.setdasa (x : Dasa) : Opcode.Statement (.setdasa x) := fun _ _ _ e => nomatch e
theorem Opcode.entdaa (addr : BitVec 7) : Opcode.Statement (.entdaa addr) := fun _ _ _ e => nomatch e
theorem Opcode.rstdaa : Opcode.Statement (.rstdaa) := fun _ _ _ e => nomatch e
theorem Opcode.tapInstruction (t : TapInstr) : Opcode.Statement (.tapInstruction t) := fun _ _ _ e => nomatch e
theorem Opcode.completionEnd : Opcode.Statement (.completionEnd) := fun _ _ _ e => nomatch e
theorem Opcode.morningTollDone (find : MorningFind) : Opcode.Statement (.morningTollDone find) := fun _ _ _ e => nomatch e
theorem Opcode.fillDone (find : FillFind) : Opcode.Statement (.fillDone find) := fun _ _ _ e => nomatch e
theorem Opcode.heatSnapshotRestore (crcGood : Bool) : Opcode.Statement (.heatSnapshotRestore crcGood) := fun _ _ _ e => nomatch e
theorem Opcode.runEntry (x : BarEnd) : Opcode.Statement (.runEntry x) := fun _ _ _ e => nomatch e
theorem Opcode.joinTimeout : Opcode.Statement (.joinTimeout) := fun _ _ _ e => nomatch e
theorem Opcode.restEntry : Opcode.Statement (.restEntry) := fun _ _ _ e => nomatch e
theorem Opcode.restWake : Opcode.Statement (.restWake) := fun _ _ _ e => nomatch e
theorem Opcode.restExit (x : BarEnd) : Opcode.Statement (.restExit x) := fun _ _ _ e => nomatch e
theorem Opcode.restRejoin (m : Marker) : Opcode.Statement (.restRejoin m) := fun _ _ _ e => nomatch e
theorem Opcode.eveningToll (find : EveningFind) : Opcode.Statement (.eveningToll find) := fun _ _ _ e => nomatch e
theorem Opcode.eveningTollDone : Opcode.Statement (.eveningTollDone) := fun _ _ _ e => nomatch e
theorem Opcode.knell : Opcode.Statement (.knell cause detail comp) := fun _ _ _ e => nomatch e
theorem Opcode.watchdogExpiry (pc : Word) (comp : CompOut) : Opcode.Statement (.watchdogExpiry pc comp) := fun _ _ _ e => nomatch e
theorem Opcode.knellRecordBound : Opcode.Statement (.knellRecordBound) := fun _ _ _ e => nomatch e
theorem Opcode.belfryChunkWrite (tries : Fin 3) (good : Bool) : Opcode.Statement (.belfryChunkWrite tries good) := fun _ _ _ e => nomatch e
theorem Opcode.criticalRecordUpdate (r : RecId) (body : List Byte) (copyAGood : Bool) : Opcode.Statement (.criticalRecordUpdate r body copyAGood) := fun _ _ _ e => nomatch e
theorem Opcode.criticalRecordRead (r : RecId) : Opcode.Statement (.criticalRecordRead r) := fun _ _ _ e => nomatch e
theorem Opcode.eventLogWrite (good : Bool) : Opcode.Statement (.eventLogWrite good) := fun _ _ _ e => nomatch e
theorem Opcode.shadowLogWrite : Opcode.Statement (.shadowLogWrite) := fun _ _ _ e => nomatch e
theorem Opcode.tallyStreamSend : Opcode.Statement (.tallyStreamSend) := fun _ _ _ e => nomatch e
theorem Opcode.railOutOfLimits (rails : BitVec 6) : Opcode.Statement (.railOutOfLimits rails) := fun _ _ _ e => nomatch e
theorem Opcode.phaseStep (r : Ring) : Opcode.Statement (.phaseStep r) := fun _ _ _ e => nomatch e
theorem Opcode.tollRunDone (fails : List TollFail) (durationUs : BitVec 24) : Opcode.Statement (.tollRunDone fails durationUs) := fun _ _ _ e => nomatch e
theorem Opcode.scanReadDone (block : BitVec 15) (corrected : BitVec 8) (retries : BitVec 3) (uncorrectable : Bool) : Opcode.Statement (.scanReadDone block corrected retries uncorrectable) := fun _ _ _ e => nomatch e

end Sys2Proof.Laws
end

