-- ==== Sys2Proof/Safety.lean ====
section
/-! DEFINITION. What a safe run is, and the words that the statements use: a request that runs, the reply that it gets, and
the bytes of the three byte stores. -/

namespace Sys2Proof.Machine

/-- The step answers a next state. -/
def Proceeds (s : State) : Prop := ∃ t, step s = .next t

/-- Every command that waits is one a sender can put before the block. -/
def QueueWf (s : State) : Prop := ∀ c ∈ s.pending, c.wf = true

/-- A request that runs at once: taken up from its ring or from I3C (R129, R162), passed by every check of Table 6.5 (R152)
and not held for a wake from Rest (R165). It is given as the request at its execution, and the state with it in service. -/
def State.taken (s : State) (rq : Req) : Option (Job × State) :=
  match s.claim rq with
  | none => none
  | some c =>
    match c.kit with
    | none => none
    | some k =>
      if (c.st.check c.admBeat (some k) rq).isNone && !c.st.mustWake rq then some (⟨c.rid, rq, k, c.admBeat, c.slot⟩, c.st) else none

/-- From `s` to `t` the request `rid` got its one reply (R148), with this STATUS, DETAIL and payload: the newest reply that
waits on its ring, or over I3C the packet that the target holds (R475). -/
def Replied (s t : State) (rid : Nat) (rq : Req) (status detail : Nat) (payload : List Byte) : Prop :=
  match rq.via with
  | .ring _ => ∃ r : Reply, t.replies = s.replies ++ [r] ∧ r.rid = rid ∧ r.rq = rq ∧ r.status = BitVec.ofNat 8 status ∧
      r.detail = BitVec.ofNat 48 detail ∧ r.payload = payload ∧ r.len = payload.length ∧ r.early = false
  | .i3c => ∃ p : Packet, t.i3c.unread = some p ∧ p.payload = payload ∧
      p.hdr = replyHdr rq 0 false false status t.cond.toNat detail payload.length ∧
      p.crc = crc32c (leBytes 16 p.hdr.toNat ++ payload) ∧ t.replies = s.replies

/-- Every byte of the main array, of NAND and of the Belfry reads as before. -/
def SameStores (s t : State) : Prop :=
  (∀ a, cellGet t.mram a = cellGet s.mram a) ∧ (∀ a, cellGet t.deep.nand a = cellGet s.deep.nand a) ∧
  ∀ a, cellGet t.bel.mem a = cellGet s.bel.mem a

end Sys2Proof.Machine
end

