-- ==== Sys2Proof/Certificates/Slice0/Obligations.lean ====
section
/-! DEFINITION. The statements for the provers. A statement about a request row takes `s.taken rq = some (j, s1)`: the request
is taken up and passes every check of Table 6.5, `j` is the request at its execution and `s1` the state with it in service;
RequestTaken says when that is so. -/

open Sys2Proof Sys2Proof.Machine

/-! ### The queue -/

/-- A request whose reply is still to come: one over I3C, or in flight without a reply (06 R148). -/
def AwaitsReply (s : State) (rid : Nat) (rq : Req) : Prop := rq.via = .i3c ∨ s.awaits rid = true

/-- A step runs the command at the front of the queue on the state with the queue's rest. With nothing waiting the
block idles (the model's choice, log 1). -/
def Obligations.StepRunsTheFront : Prop :=
  (∀ (c : Instr) (rest : List Instr) (s : State), step { s with pending := c :: rest } = exec c { s with pending := rest }) ∧
  (∀ s : State, s.pending = [] → step s = .next s)

/-- Every command that a sender can form answers a next state, in every state: no fault and no refusal. -/
def Obligations.EveryFormedCommandAnswers : Prop :=
  ∀ (c : Instr) (s : State), c.wf = true → ∃ t, exec c s = .next t

/-! ### Requests: admission, refusal, checks (05 R129, 06 R152 to R156, 07 R163 to R165) -/

/-- HeaderRefused. A request for the device whose header the counts of R129 do not allow is refused for that reason:
SW_REFUSED of its ring rises, and no request, reply, Kit or stored byte changes. FailedCheckIsAnswered. A request that a
check of Table 6.5 fails executes nothing: it gets the one reply that the check names, and every stored byte, window, page
and engine is as it was when the request came. A broadcast, which GONG alone may be, is PowerResetAndTriggers' matter. -/
def Obligations.RefusedAndFailedRequestsExecuteNothing : Prop :=
  (∀ (c : Instr) (s : State) (rq : Req) (o : Nat) (r : Ring) (why : Nat), Laws.requestOf c = some (rq, o) → c.wf = true →
    rq.dnode ≠ 31 → rq.via = .ring r → s.addressed r rq = true → s.readyReq rq = none →
    s.refusal (s.kitOf rq) rq s.bar.beatno = some why →
    ∃ t, exec c s = .next t ∧ (t.ring r).refusedCt = min ((s.ring r).refusedCt + 1) 65535 ∧
      t.inflight = s.inflight ∧ t.replies = s.replies ∧ t.kits = s.kits ∧ t.nextRid = s.nextRid ∧ SameStores s t) ∧
  (∀ (c : Instr) (s : State) (rq : Req) (o : Nat) (cl : Claim) (a : Answer), Laws.requestOf c = some (rq, o) →
    c.wf = true → rq.dnode ≠ 31 → s.claim rq = some cl → cl.st.check cl.admBeat cl.kit rq = some a →
    ∃ t, exec c s = .next t ∧ Replied cl.st t cl.rid rq a.status a.detail a.payload ∧ SameStores s t ∧
      t.pages = s.pages ∧ t.engs = s.engs ∧ t.bar = s.bar ∧ t.mode = s.mode ∧
      ∀ k, (t.kit k).wins = (s.kit k).wins ∧ (t.kit k).binds = (s.kit k).binds)

/-- ChecksInOrder. The checks of Table 6.5 and their replies: a LEN above 4,096, an unknown opcode, a bad source, no
Kit, the mode, a house-only opcode of another Kit, a LEN outside Table 7.1; each is judged only where those before it
pass. -/
def Obligations.ChecksInOrder : Prop :=
  ∀ (s : State) (b : Nat) (rq : Req),
    (4096 < rq.len.toNat → ∀ kit, s.check b kit rq = some (ans 0x32 (rq.len.toNat + 65536 * 4096))) ∧
    (rq.len.toNat ≤ 4096 → (opRow rq.opc.toNat).isSome = true → ∀ kit, rq.reply = true →
      s.check b kit rq = some (ans 0x31 1)) ∧
    (rq.len.toNat ≤ 4096 → (opRow rq.opc.toNat).isSome = true → rq.reply = false → ∀ kit r, rq.via = .ring r →
      (rq.snode ≠ rq.src ∨ rq.ringBit ≠ (r == .b)) → s.check b kit rq = some (ans 0x31 2)) ∧
    (rq.len.toNat ≤ 4096 → (opRow rq.opc.toNat).isSome = true → sourceBad rq = none →
      s.check b none rq = some (ans 0x21 (rq.snode.toNat + 256 * rq.ktag.toNat))) ∧
    (rq.len.toNat ≤ 4096 → sourceBad rq = none → s.modeOk rq = true →
      ∀ (k : Kit) (row : OpRow), k ≠ 0 → opRow rq.opc.toNat = some row → row.house = true →
        s.check b (some k) rq = some (ans 0x20 1)) ∧
    (rq.len.toNat ≤ 4096 → (opRow rq.opc.toNat).isSome = true → sourceBad rq = none → s.modeOk rq = true →
      ∀ k, s.rightBad b k rq = none →
        ∀ m, lenRule rq.opc.toNat (selOf rq) (rq.via == .i3c) rq.len.toNat = (false, m) →
          s.check b (some k) rq = some (ans 0x32 (rq.len.toNat + 65536 * m)))

/-- RequestTaken. A packet given whole, addressed to the device on a ring that it has joined, with the counts of R129
allowing one more request, no request waiting before it, no FENCE barrier at an input port and every check of Table 6.5
passed, is taken up: it gets the next number and one in-flight entry, its Kit's intake credits are taken, and no stored
byte and no waiting reply changes. WakesFirst. In Rest a request
that Table 7.1 marks W, and that passes every check, stays in flight ready and starts the wake; nothing of it is
executed (07 R165, 17 R416). -/
def Obligations.RequestsAreTakenUp : Prop :=
  (∀ (s : State) (rq : Req) (r : Ring) (k : Kit), rq.via = .ring r → s.addressed r rq = true → s.bar.beatno < 2 ^ 48 →
    (∀ g ∈ s.inflight, g.rid < s.nextRid ∧ (g.stage = .serving ∨ g.stage = .late ∨ g.stage = .replied)) →
    s.barriers = [] → s.wedgedPorts.getLsbD (portOf rq.opc.toNat) = false →
    s.kitOf rq = some k → s.refusal (some k) rq s.bar.beatno = none →
    ((s.admitWhole rq).updReq s.nextRid fun x => { x with stage := .serving }).check s.bar.beatno (some k) rq = none →
    s.mustWake rq = false →
    ∃ s1 f, s.taken rq = some (⟨s.nextRid, rq, k, s.bar.beatno, 0⟩, s1) ∧ s1.inflight = s.inflight ++ [f] ∧
      f.rid = s.nextRid ∧ f.rq = rq ∧ f.kit = some k ∧ f.admBeat = s.bar.beatno ∧ f.credits = creditsFor rq ∧
      s1.nextRid = s.nextRid + 1 ∧ (s1.kit k).taken = (s.kit k).taken + creditsFor rq ∧
      (∀ o, o ≠ k → s1.kit o = s.kit o) ∧ s1.replies = s.replies ∧ SameStores s s1 ∧ s1.bar = s.bar ∧ s1.mode = s.mode) ∧
  (∀ (c : Instr) (s : State) (rq : Req) (o : Nat) (cl : Claim) (k : Kit) (row : OpRow), Laws.requestOf c = some (rq, o) →
    c.wf = true → rq.dnode ≠ 31 → s.claim rq = some cl → cl.kit = some k → cl.st.check cl.admBeat (some k) rq = none →
    cl.st.mode = .rest →
    opRow rq.opc.toNat = some row → row.rest = false →
    ∃ t, exec c s = .next t ∧ t.gen.waking = true ∧ t.replies = cl.st.replies ∧ SameStores s t ∧
      t.inflight = cl.st.inflight.map (fun x => if x.rid == cl.rid then { x with stage := .ready } else x))

/-! ### Link, status and registers (07 R169, R170, R192, R193; 02 R59, R61; 08 R231; 09 R237, R257; 19 R453) -/

/-- PING returns its payload with BEATNO of the Beat of admission in DETAIL; STATUS_QUERY returns the 64-byte block of
Table 7.3. Neither changes a stored byte, a page or an engine. CSR_READ returns the registers in ascending order, four
bytes each; one that covers BAR_BEATNO_LO latches BEATNO[47:32] into BAR_BEATNO_HI, so that a read of both gives one
BEATNO.
It says where these complete: PING, STATUS_QUERY, CSR_READ, BAR_BEATNO_LO_READ. -/
def Obligations.StatusAndRegisterReads : Prop :=
  (∀ (s s1 : State) (rq : Req) (j : Job), s.taken rq = some (j, s1) →
    ((Instr.ping rq).wf = true → ∃ t, exec (.ping rq) s = .next t ∧ Replied s1 t j.rid rq 0x00 j.admBeat rq.payload ∧
      SameStores s1 t ∧ t.pages = s1.pages ∧ t.engs = s1.engs ∧ t.bar = s1.bar) ∧
    ((Instr.statusQuery rq).wf = true → ∃ t b, exec (.statusQuery rq) s = .next t ∧ Replied s1 t j.rid rq 0x00 0 b ∧
      b.length = 64 ∧ fieldAt b 0 1 = s1.mode.code ∧ fieldAt b 1 1 = s1.cond.toNat ∧
      (s1.bar.beatno < 2 ^ 48 → fieldAt b 2 6 = s1.bar.beatno) ∧ fieldAt b 8 1 = j.kit.val ∧
      fieldAt b 24 4 = 0x48541648 ∧ fieldAt b 34 1 = b2n s1.deep.muted ∧
      SameStores s1 t ∧ t.pages = s1.pages ∧ t.engs = s1.engs ∧ t.bar = s1.bar)) ∧
  (∀ (s s1 : State) (rq : Req) (j : Job), s.taken rq = some (j, s1) →
    ((Instr.csrRead rq).wf = true → ∃ t b, exec (.csrRead rq) s = .next t ∧ Replied s1 t j.rid rq 0x00 0 b ∧
      (rq.len.toNat % 4 = 0 → b.length = rq.len.toNat) ∧ t.gen = s1.gen ∧ t.kits.size = 16 ∧ SameStores s1 t) ∧
    ((Instr.barBeatnoLoRead rq).wf = true → s1.bar.beatno < 2 ^ 48 → ∃ t b, exec (.barBeatnoLoRead rq) s = .next t ∧
      Replied s1 t j.rid rq 0x00 0 b ∧ fieldAt b 0 4 = s1.bar.beatno % 2 ^ 32 ∧
      t.bar.hiLatch = BitVec.ofNat 16 (s1.bar.beatno / 2 ^ 32) ∧ t.bar.beatno = s1.bar.beatno ∧
      (8 ≤ rq.len.toNat → fieldAt b 0 8 = s1.bar.beatno) ∧ SameStores s1 t))

/-- CSR_WRITE and the rows that name one register: every register of the payload takes its word in ascending order,
and the reply is OK. GEN_TEMPO.STRICT; GEN_REST.EXIT starts the wake in Rest; BAR_SRC_RATE, which as beat source asks
for a rate change; the requested TIER_SPLIT; TIER_KPROBE of a live Kit, which shows its page from the next Beat; an
events register, whose bits written 1 clear except those set in this Beat, TEMPO's in GEN_TEMPO[2].
It says where these complete: CSR_WRITE, GEN_TEMPO_STRICT_WRITE, GEN_REST_EXIT_WRITE, BAR_SRC_RATE_WRITE,
TIER_SPLIT_REQUEST, TIER_KPROBE_WRITE, EVENTS_W1C_CLEAR. -/
def Obligations.RegisterWrites : Prop :=
  ∀ (s s1 : State) (rq : Req) (j : Job), s.taken rq = some (j, s1) →
    let v := fieldAt rq.payload 0 4
    ((Instr.csrWrite rq).wf = true → ∃ t, exec (.csrWrite rq) s = .next t ∧
      (let w := s1.writeAll (csrPairs (csrOff rq) rq.payload)
       Replied w t j.rid rq 0x00 0 [] ∧ t.gen = w.gen ∧ t.bar = w.bar ∧ t.stk = w.stk ∧ t.tier = w.tier ∧
       t.deep = w.deep ∧ t.ecc = w.ecc ∧ t.rep = w.rep ∧ t.bel = w.bel ∧ t.toll = w.toll ∧ t.pwr = w.pwr)) ∧
    ((Instr.csrWrite rq).wf = true → csrOff rq = 0x0018 → 4 ≤ rq.len.toNat → ∃ t, exec (.csrWrite rq) s = .next t ∧
      t.gen.reqTo = v % 1024 ∧ SameStores s1 t) ∧
    ((Instr.genTempoStrictWrite rq).wf = true → ∃ t, exec (.genTempoStrictWrite rq) s = .next t ∧
      t.gen.strict = (v % 2 == 1) ∧ t.gen.active = s1.gen.active ∧ SameStores s1 t ∧
      (t.ev .tempo).bits = (s1.ev .tempo).bits &&& ~~~ (BitVec.ofNat 8 (v % 8 / 4 * 4) &&& ~~~ (s1.ev .tempo).fresh)) ∧
    ((Instr.genRestExitWrite rq).wf = true → ∃ t, exec (.genRestExitWrite rq) s = .next t ∧ t.mode = s1.mode ∧
      t.gen.waking = (s1.gen.waking || (v % 2 == 1 && s1.mode == .rest)) ∧ SameStores s1 t) ∧
    ((Instr.barSrcRateWrite rq).wf = true → ∃ t, exec (.barSrcRateWrite rq) s = .next t ∧
      t.bar.srcRate = v % 8 ∧ t.bar.rate = s1.bar.rate ∧
      t.bar.srcNext = (if s1.bar.beatsrc = true ∧ (s1.ringA.swOpen = true ∨ s1.ringB.swOpen = true) ∧ v % 8 ≠ s1.bar.rate
        then some (v % 8) else none)) ∧
    ((Instr.tierSplitRequest rq).wf = true → ∃ t, exec (.tierSplitRequest rq) s = .next t ∧
      t.tier.splitReq = v % 256 ∧ t.tier.split = s1.tier.split ∧ t.tier.splitNext = s1.tier.splitNext) ∧
    (∀ k : Kit, (Instr.tierKprobeWrite rq).wf = true → csrOff rq = 0x3120 + 0x40 * k.val →
      (s1.kit k).live = true → ∃ t, exec (.tierKprobeWrite rq) s = .next t ∧
      (t.kit k).kprobe = v % 2 ^ 23 ∧ (t.kit k).kprobeDue = true ∧ (t.kit k).kprobed = (s1.kit k).kprobed) ∧
    (∀ i : EvId, (Instr.eventsW1cClear rq).wf = true → csrOff rq = i.offset → i ≠ .tempo →
      (∀ k, i = .kit k → (s1.kit k).live = true) → ∃ t, exec (.eventsW1cClear rq) s = .next t ∧
      (t.ev i).bits = (s1.ev i).bits &&& ~~~ (BitVec.ofNat 8 v &&& ~~~ (s1.ev i).fresh)) ∧
    ((Instr.eventsW1cClear rq).wf = true → csrOff rq = 0x0080 → ∃ t, exec (.eventsW1cClear rq) s = .next t ∧
      (t.ev .tempo).bits = (s1.ev .tempo).bits &&& ~~~ (BitVec.ofNat 8 (v % 8 / 4 * 4) &&& ~~~ (s1.ev .tempo).fresh))

/-! ### Memory commands (07 R171 to R176; 11 R281, R287, R294, R295) -/

/-- READ: with LEN 0 it is OK at once; one whose bytes lie in one chord that must come from the array, with a token
free and a decode that changed nothing, replies OK with those bytes in the clear (08 R215), the mark 96 slots after admission (3 Beats) or 160 after a
translation-cache miss. No READ changes a stored byte of the array, of NAND or of the Belfry.
It says where these complete: READ. -/
def Obligations.ReadReturnsTheChord : Prop :=
  ∀ (s s1 : State) (rq : Req) (j : Job), s.taken rq = some (j, s1) → (Instr.read rq).wf = true →
    (rq.len = 0 → ∃ t, exec (.read rq) s = .next t ∧ Replied s1 t j.rid rq 0x00 0 [] ∧ SameStores s1 t) ∧
    (∀ a o c m ov d t0, rq.early = false → s1.findRead j.rid = none → j.admBeat = s1.bar.beatno → j.slot < 32 →
      chordsOf (addrOf rq) rq.len.toNat = [a] → s1.look j.kit a = (o, .array c m ov) → s1.kitToken j.kit = some t0 →
      (t0.decodeOf o.1 o.2 c).corrected = false → (t0.decodeOf o.1 o.2 c).value = some d → rq.len.toNat ≠ 0 →
      ∃ t, exec (.read rq) s = .next t ∧ SameStores s1 t ∧
        Replied s1 t j.rid rq 0x00 0 (((overlay m ov d).drop (addrOf rq % 64)).take rq.len.toNat) ∧
        (∀ r, rq.via = .ring r → ∃ p ∈ t.replies, p.rid = j.rid ∧
          p.mark = j.at_ + 96 + (if s1.tier.xcache.contains (o.1, kpOf o.2) then 0 else 64)))

/-- A WRITE of one whole chord, or a WRITE_MASKED of one unit with every mask bit set, to a Main-homed page of the Kit
with room in its share, without SYNC: the chord takes a write-hold entry with its data and the Beat, nothing stored
changes yet, and the reply is OK_PROVISIONAL with BEATNO of the acceptance. A WRITE or WRITE_MASKED that stores
nothing: LEN 0 is OK; a Kit whose key is lost gets POISONED with the first chord and the count; a NOWAIT write that
its share does not fit gets BACKOFF with the share held and the share. The stored bytes and the write-hold buffer stay
as they are.
It says where these complete: WRITE, WRITE_MASKED. -/
def Obligations.WritesAreHeldProvisionally : Prop :=
  (∀ (s s1 : State) (rq : Req) (j : Job) (u : WUnit) (p : Page) (c : Nat), s.taken rq = some (j, s1) →
    rq.sync = false → rq.len ≠ 0 → (s1.kit j.kit).keylost = false → u.mask = BitVec.allOnes 64 →
    s1.jobs = [] → s1.hold.all (fun e => !e.rids.contains j.rid) = true →
    s1.findPage j.kit (kpOf u.kaddr) = some p → p.frame.isSome = true → p.zero.getLsbD (secOf u.kaddr).toNat = false →
    s1.locate j.kit u.kaddr = .main c → s1.merges = [] →
    s1.shareFits j.kit (s1.chordCost c) = true → s1.shareFits j.kit (s1.writeCost j.kit [u]) = true →
    s1.entriesFree 1 = true →
    let good := fun (x : Instr) => ∃ t e, exec x s = .next t ∧ t.hold = s1.hold ++ [e] ∧ e.kind = .data ∧
      e.payer = some j.kit ∧ e.data = u.data ∧ e.kaddr = u.kaddr ∧ e.chord = BitVec.ofNat 28 c ∧
      e.accepted = s1.bar.beatno ∧ e.phase = .waiting ∧ e.pulses = 0 ∧ SameStores s1 t ∧
      Replied s1 t j.rid rq 0x01 s1.bar.beatno []
    ((Instr.write rq).wf = true → writeUnits rq = [u] → good (.write rq)) ∧
    ((Instr.writeMasked rq).wf = true → maskedUnits rq = [u] → good (.writeMasked rq))) ∧
  (∀ (s s1 : State) (rq : Req) (j : Job), s.taken rq = some (j, s1) →
    let us := if rq.opc = 0x12 then maskedUnits rq else writeUnits rq
    let good := fun (st det : Nat) => ∀ x, (x = Instr.write rq ∨ x = Instr.writeMasked rq) → x.wf = true →
      ∃ t, exec x s = .next t ∧ Replied s1 t j.rid rq st det [] ∧ SameStores s1 t ∧ t.hold = s1.hold ∧ t.merge = s1.merge
    (rq.len = 0 → good 0x00 0) ∧
    (rq.len ≠ 0 → (s1.kit j.kit).keylost = true → good 0x40 (detAddr (addrOf rq / 64 * 64) us.length)) ∧
    (rq.len ≠ 0 → (s1.kit j.kit).keylost = false → rq.nowait = true →
      s1.shareFits j.kit (s1.writeCost j.kit us) = false →
      good 0x10 (s1.kitHeld j.kit + 65536 * (s1.kit j.kit).pshare)))

/-- FENCE with no earlier write of the Kit outstanding and no open merge entry completes at once: OK with BEATNO of
its admission, or RECANTED with the first address and the count when the Kit has unreported recanted writes, which are
then reported: PROV_KRECANT takes the count and PROV_KUNREP becomes 0. FENCE_COMPLETE does the same for a FENCE that
waited. FENCE_COMPLETE of a Kit with one FENCE whose covered writes are over: OK with BEATNO of the last covered
outcome, or RECANTED; with a covered write still open nothing changes.
It says where these complete: FENCE, FENCE_COMPLETE. -/
def Obligations.FencesReportRecants : Prop :=
  (∀ (s s1 : State) (rq : Req) (j : Job), s.taken rq = some (j, s1) → (Instr.fence rq).wf = true → s1.fences = [] →
    s1.openWrites j.kit j.rid = [] → s1.merges = [] →
    ((s1.kit j.kit).kunrep = 0 → ∃ t, exec (.fence rq) s = .next t ∧ Replied s1 t j.rid rq 0x00 j.admBeat [] ∧
      t.fences = [] ∧ SameStores s1 t) ∧
    ((s1.kit j.kit).kunrep ≠ 0 → ∃ t, exec (.fence rq) s = .next t ∧
      Replied s1 t j.rid rq 0x42 (detAddr (s1.kit j.kit).kfirst (s1.kit j.kit).kunrep) [] ∧
      (t.kit j.kit).krecant = (s1.kit j.kit).kunrep ∧ (t.kit j.kit).kunrep = 0 ∧ t.fences = [] ∧ SameStores s1 t)) ∧
  (∀ (s : State) (k : Kit) (f : FenceJob), f.kit = k → s.fences = [f] → AwaitsReply s f.rid f.rq →
    (f.covers.all s.writeOver = true → ∃ t, exec (.fenceComplete k) s = .next t ∧ t.fences = [] ∧ SameStores s t ∧
      ((s.kit k).kunrep = 0 → Replied s t f.rid f.rq 0x00 f.last []) ∧
      ((s.kit k).kunrep ≠ 0 → Replied s t f.rid f.rq 0x42 (detAddr (s.kit k).kfirst (s.kit k).kunrep) [] ∧
        (t.kit k).kunrep = 0 ∧ (t.kit k).krecant = (s.kit k).kunrep)) ∧
    (f.covers.all s.writeOver = false → exec (.fenceComplete k) s = .next s))

/-- PLACE, PIN and UNPIN of one page. PLACE of an unbacked page backs it at the home that ARG names, in the lowest
free frame or Deep page that the quota allows, and its page-table chord is queued, charged to the Kit; the reply waits
for that chord; where the quota is used up the reply is OK_PARTIAL with reason 3 and no page done. PIN of a page
already pinned so, PIN in Main of a Main-homed page within the limits, and UNPIN are OK at once with the pins that ARG
names set or released. MIGRATE_NOW of a page at its target is OK at once; one to Main of a page that is not there
starts its promotion into the free slot that its Kit's share gives, and waits. MUFFLE_DECLARE. ARG 0 removes the Muffles of the pages; ARG 3
records a reference to the body for the page, in place of an earlier one, and copies nothing; both are OK at once. ARG
1 and 2 of a Kit whose Muffle quota is used up stop before the first page with OK_PARTIAL, reason 3.
It says where these complete: PLACE, PIN, UNPIN, MIGRATE_NOW, MUFFLE_DECLARE. -/
def Obligations.PlacePinMigrateMuffle : Prop :=
  (∀ (s s1 : State) (rq : Req) (j : Job) (kp : KPage), s.taken rq = some (j, s1) → s1.waits = [] → pagesOf rq = [kp] →
    (∀ h, (Instr.place rq).wf = true → s1.findPage j.kit kp = none →
      (if argOf rq == 1 then s1.homeChoice j.kit else s1.deepChoice j.kit) = some h →
      ∃ t q w, exec (.place rq) s = .next t ∧ t.pages = s1.pages ++ [newPage j.kit kp h s1.bar.beatno] ∧
        t.chordq = s1.chordq ++ [q] ∧ q.1 = .pageTable j.kit kp .backed ∧ q.2.1 = some j.kit ∧ t.waits = [w] ∧
        w.rid = j.rid ∧ w.pages = [kp] ∧ w.status = 0x00 ∧ t.replies = s1.replies ∧ SameStores s1 t) ∧
    ((Instr.place rq).wf = true → s1.findPage j.kit kp = none →
      (if argOf rq == 1 then s1.homeChoice j.kit else s1.deepChoice j.kit) = none →
      ∃ t, exec (.place rq) s = .next t ∧ Replied s1 t j.rid rq 0x04 (65536 * 3) [] ∧ t.pages = s1.pages ∧
        SameStores s1 t) ∧
    (∀ p, (Instr.pin rq).wf = true → s1.findPage j.kit kp = some p → p.stable = true →
      (if argOf rq == 1 then p.nearPin else p.mainPin) = true →
      ∃ t, exec (.pin rq) s = .next t ∧ Replied s1 t j.rid rq 0x00 0 [] ∧ t.pages = s1.pages ∧ SameStores s1 t) ∧
    (∀ p, (Instr.pin rq).wf = true → argOf rq = 2 → s1.findPage j.kit kp = some p → p.stable = true →
      p.frame.isSome = true → p.mainPin = false → p.impliedPin = false → s1.mayPinMain j.kit false = true →
      ∃ t, exec (.pin rq) s = .next t ∧ Replied s1 t j.rid rq 0x00 0 [] ∧ SameStores s1 t ∧
        t.pages = s1.pages.map (fun q => if q.kit = j.kit ∧ q.kp = kp then { q with mainPin := true } else q)) ∧
    ((Instr.unpin rq).wf = true → ∃ t, exec (.unpin rq) s = .next t ∧ Replied s1 t j.rid rq 0x00 0 [] ∧
      SameStores s1 t ∧ t.pages = s1.pages.map (fun p => if p.kit = j.kit ∧ p.kp = kp then
        { p with nearPin := p.nearPin && argOf rq == 2, impliedPin := p.impliedPin && argOf rq == 2,
                 mainPin := p.mainPin && argOf rq == 1 } else p)) ∧
    ((Instr.migrateNow rq).wf = true → (s1.migrated j.kit (argOf rq) kp = true) →
      ∃ t, exec (.migrateNow rq) s = .next t ∧ Replied s1 t j.rid rq 0x00 0 [] ∧ t.pages = s1.pages ∧
        t.moves = s1.moves ∧ SameStores s1 t) ∧
    (∀ p n, (Instr.migrateNow rq).wf = true → argOf rq = 1 → s1.migrated j.kit 1 kp = false →
      s1.findPage j.kit kp = some p → s1.moving j.kit kp = false → s1.pickSlot j.kit = some (n, none) →
      ∃ t m w, exec (.migrateNow rq) s = .next t ∧ t.moves = s1.moves ++ [m] ∧ m.kit = j.kit ∧ m.kp = kp ∧
        m.kind = .promote ∧ m.dest = n ∧ m.reads = ~~~ p.zero ∧ t.waits = [w] ∧ w.rid = j.rid ∧ w.pages = [kp] ∧
        t.replies = s1.replies ∧ SameStores s1 t)) ∧
  (∀ (s s1 : State) (rq : Req) (j : Job), s.taken rq = some (j, s1) → (Instr.muffleDeclare rq).wf = true →
    (argOf rq = 0 → ∃ t, exec (.muffleDeclare rq) s = .next t ∧ Replied s1 t j.rid rq 0x00 0 [] ∧ SameStores s1 t ∧
      t.muffles = s1.muffles.filter (fun m => !(m.kit == j.kit && (pagesOf rq).contains m.kp)) ∧ t.pages = s1.pages) ∧
    (∀ kp, argOf rq = 3 → pagesOf rq = [kp] → ∃ t, exec (.muffleDeclare rq) s = .next t ∧
      Replied s1 t j.rid rq 0x00 0 [] ∧ SameStores s1 t ∧ t.chordq = s1.chordq ∧
      t.muffleOf j.kit kp = some ⟨j.kit, kp, .declared (fieldAt rq.payload 0 5) (fieldAt rq.payload 5 2), true, false⟩) ∧
    (∀ kp rest, (argOf rq = 1 ∨ argOf rq = 2) → pagesOf rq = kp :: rest →
      s1.mufJobs = [] → s1.stageJobs = [] →
      (s1.kit j.kit).quota 6 < s1.muffleUsed j.kit kp + muffleChords (argOf rq) →
      ∃ t, exec (.muffleDeclare rq) s = .next t ∧ Replied s1 t j.rid rq 0x04 (65536 * 3) [] ∧ SameStores s1 t ∧
        t.pages = s1.pages))

/-! ### Kits, windows and the ledger (07 R186 to R191; 08 R206 to R222) -/

/-- KIT_DESTROY removes the Kit's bindings at once and waits for its drain, without a reply. KIT_DESTROY_DRAINED of a
Kit under KIT_DESTROY that has drained first stops the Kit's engines and queues its key record to be overwritten: the Kit
keeps its pages and no reply is sent. Once both key copies are overwritten it ends the Kit: it is no longer live; its pages,
Muffles, stages and store copies are gone, and its recant record is queued. Before the drain is over, and while the
overwriting is under way, nothing changes (07 R188, 08 R221).
It says where these complete: KIT_DESTROY, KIT_DESTROY_DRAINED. -/
def Obligations.KitDestruction : Prop :=
  (∀ (s s1 : State) (rq : Req) (j : Job), s.taken rq = some (j, s1) → (Instr.kitDestroy rq).wf = true → s1.merges = [] →
    let k := kitIx (pb rq 8)
    ∃ t, exec (.kitDestroy rq) s = .next t ∧ (t.kit k).binds = [] ∧ (t.kit k).destroying = true ∧
      t.drains = s1.drains ++ [(j.rid, rq, k, none)] ∧ t.replies = s1.replies ∧ t.pages = s1.pages ∧ SameStores s1 t) ∧
  (∀ (s : State) (k : Kit),
    ((s.kit k).destroying = true → s.kitDrained k = true → (s.kit k).wipe = .idle → s.updating (.key k) = false →
      ∃ t, exec (.kitDestroyDrained k) s = .next t ∧ (t.kit k).wipe = .under ∧ (t.kit k).key = (s.kit k).key ∧
      (t.kit k).live = (s.kit k).live ∧ RecId.key k ∈ t.bel.recq ∧ (∀ e, (t.eng e).kit = k → (t.eng e).busy = false) ∧
      (∀ e, (s.eng e).kit ≠ k → t.eng e = s.eng e) ∧ t.pages = s.pages ∧ t.replies = s.replies ∧ t.drains = s.drains ∧
      SameStores s t) ∧
    ((s.kit k).destroying = true → s.kitDrained k = true → (s.kit k).wipe = .done → ∃ t, exec (.kitDestroyDrained k) s = .next t ∧
      (t.kit k).live = false ∧ (t.kit k).destroying = false ∧ (t.kit k).key.present = false ∧ (t.kit k).binds = [] ∧
      (∀ p ∈ t.pages, p.kit ≠ k) ∧ (∀ b ∈ t.near, b.kit ≠ k) ∧ (∀ m ∈ t.muffles, m.kit ≠ k) ∧
      (∀ x ∈ t.stages, x.kit ≠ k) ∧ (∀ x ∈ t.copies, x.kit ≠ k) ∧
      RecId.recant k ∈ t.bel.recq ∧ t.engs = s.engs ∧ (∀ p, p.kit ≠ k → (p ∈ t.pages ↔ p ∈ s.pages)) ∧ SameStores s t) ∧
    (((s.kit k).destroying = false ∨ s.kitDrained k = false ∨ (s.kit k).wipe = .under) →
      exec (.kitDestroyDrained k) s = .next s))

/-- WINDOW_SET with OP = 1 records the window of the descriptor, in force from the next Beat, and replies OK; with OP
= 0 an index not in use is OK at once, and one in use starts its drain, without a reply. WINDOW_CLEAR_DRAINED of a
window on the Kit's own pages whose drain is over: the window goes, every page in it is released, and every window of
another Kit that shares them is cleared with KIT_EVENTS.SHARELOST, all together. While a request still touches the
window nothing changes.
It says where these complete: WINDOW_SET_SET, WINDOW_SET_CLEAR, WINDOW_CLEAR_DRAINED. -/
def Obligations.AccessWindows : Prop :=
  (∀ (s s1 : State) (rq : Req) (j : Job), s.taken rq = some (j, s1) →
    let k := kitIx (pb rq 8)
    let i : Fin 8 := engIx (pb rq 9)
    ((Instr.windowSetSet rq).wf = true → pb rq 9 < 8 → ∃ t w, exec (.windowSetSet rq) s = .next t ∧
      Replied s1 t j.rid rq 0x00 0 [] ∧ (t.kit k).wins[i] = some w ∧ w.base = fieldAt rq.payload 0 5 / 65536 ∧
      w.size = fieldAt rq.payload 8 4 ∧ w.rd = Nat.testBit (fieldAt rq.payload 12 1) 0 ∧
      w.wr = Nat.testBit (fieldAt rq.payload 12 1) 1 ∧ w.auto = Nat.testBit (fieldAt rq.payload 13 1) 0 ∧
      w.rmw = Nat.testBit (fieldAt rq.payload 13 1) 1 ∧ w.early = Nat.testBit (fieldAt rq.payload 13 1) 2 ∧
      w.from_ = some ((s1.bar.beatno + 1) % 2 ^ 48) ∧ w.clearing = false ∧
      (∀ l : Fin 8, l ≠ i → (t.kit k).wins[l] = (s1.kit k).wins[l]) ∧ t.pages = s1.pages ∧ SameStores s1 t) ∧
    ((Instr.windowSetClear rq).wf = true → (s1.kit k).wins[i] = none → ∃ t, exec (.windowSetClear rq) s = .next t ∧
      Replied s1 t j.rid rq 0x00 0 [] ∧ (t.kit k).wins = (s1.kit k).wins ∧ SameStores s1 t) ∧
    (∀ w, (Instr.windowSetClear rq).wf = true → (s1.kit k).wins[i] = some w → ∃ t, exec (.windowSetClear rq) s = .next t ∧
      (t.kit k).wins[i] = some { w with clearing := true } ∧ t.drains = s1.drains ++ [(j.rid, rq, k, some i)] ∧
      t.replies = s1.replies ∧ t.pages = s1.pages ∧ SameStores s1 t)) ∧
  (∀ (s : State) (k : Kit) (i : Fin 8) (w : Window), (s.kit k).wins[i] = some w → w.srcKit = none → w.clearing = true →
    (s.windowIdle (k, i) = true → (s.sharers k w.base w.size).all s.windowIdle = true →
      s.writesOver k w.base w.size = true → ∃ t, exec (.windowClearDrained k i) s = .next t ∧
      (t.kit k).wins[i] = none ∧ SameStores s t ∧
      (∀ p ∈ t.pages, ¬(p.kit = k ∧ w.base ≤ p.kp.toNat ∧ p.kp.toNat < w.base + w.size)) ∧
      (∀ p ∈ s.pages, ¬(p.kit = k ∧ w.base ≤ p.kp.toNat ∧ p.kp.toNat < w.base + w.size) → p ∈ t.pages) ∧
      (∀ x ∈ s.sharers k w.base w.size, (t.kit x.1).wins[x.2] = none ∧ (t.ev (.kit x.1)).bits.getLsbD 0 = true)) ∧
    (s.windowIdle (k, i) = false → exec (.windowClearDrained k i) s = .next s))

/-- KIT_CREATE of a free Kit whose ledger values fit: with a good health test of the noise source the Kit is live with
a fresh key, the bindings of the payload from the next Beat, the ledger values of R74, no window and Tally consent
off; its wrapped key is queued for both copies; the reply names the Kit. With a failed test it is INTERNAL and no Kit
is made (08 R220). A Kit that exists is BUSY, resource 5. KIT_CREATE with REBIND = 1 replaces the bindings, from the
next Beat, and KIT_NOTIFY of the Kit, lifts a suspension and changes nothing else of it: key, windows, quotas, ledger
values and counters of every Kit but the issuer stay. STROKE_SET puts each field whose mask bit is set into the Kit's
register and leaves the others; the reservation waits for the next Downbeat's grant.
It says where these complete: KIT_CREATE, KIT_CREATE_REBIND, STROKE_SET. -/
def Obligations.KitsAndLedgers : Prop :=
  (∀ (s s1 : State) (rq : Req) (j : Job) (k : Kit), s.taken rq = some (j, s1) → (Instr.kitCreate rq).wf = true →
    j.kit = 0 → k ≠ 0 → (s1.kit 0).live = true →
    (s1.createKit (pb rq 8) = some k → (s1.setKit k ((s1.kit k).create rq s1.bar.beatno s1.free)).ledgerOk s1 = true →
      ∃ t, exec (.kitCreate rq) s = .next t ∧ SameStores s1 t ∧
        (Config.noiseHealthy s1.free = true →
          Replied s1 t j.rid rq 0x00 k.val [] ∧ (t.kit k).live = true ∧ (t.kit k).consent = false ∧
          (t.kit k).wins = Vector.replicate 8 none ∧ (t.kit k).binds = bindingsOf rq s1.bar.beatno ∧
          (t.kit k).notify = BitVec.ofNat 5 (fieldAt rq.payload 2 1) ∧ (t.kit k).key = ⟨true, true, true, s1.free, false, false⟩ ∧
          (t.kit k).maxinf = 256 ∧ (t.kit k).pshare = 64 ∧ (t.kit k).icred = 512 ∧ (t.kit k).kres = 0 ∧
          (t.kit k).rtres = 0 ∧ RecId.key k ∈ t.bel.recq) ∧
        (Config.noiseHealthy s1.free = false → Replied s1 t j.rid rq 0x60 2 [] ∧ t.kit k = s1.kit k)) ∧
    (s1.createKit (pb rq 8) = none → ∃ t, exec (.kitCreate rq) s = .next t ∧ Replied s1 t j.rid rq 0x11 5 [] ∧
      t.kit k = s1.kit k ∧ SameStores s1 t)) ∧
  (∀ (s s1 : State) (rq : Req) (j : Job), s.taken rq = some (j, s1) → (Instr.kitCreateRebind rq).wf = true →
    let k := kitIx (pb rq 8)
    ∃ t, exec (.kitCreateRebind rq) s = .next t ∧ Replied s1 t j.rid rq 0x00 k.val [] ∧ SameStores s1 t ∧
      (t.kit k).binds = bindingsOf rq s1.bar.beatno ∧ (t.kit k).notify = BitVec.ofNat 5 (fieldAt rq.payload 2 1) ∧
      (t.kit k).suspended = false ∧ (t.kit k).live = (s1.kit k).live ∧ (t.kit k).key = (s1.kit k).key ∧
      (t.kit k).wins = (s1.kit k).wins ∧ (t.kit k).kq = (s1.kit k).kq ∧ (t.kit k).pshare = (s1.kit k).pshare ∧
      (∀ o, o ≠ k → o ≠ j.kit → t.kit o = s1.kit o) ∧ t.pages = s1.pages) ∧
  (∀ (s s1 : State) (rq : Req) (j : Job), s.taken rq = some (j, s1) → (Instr.strokeSet rq).wf = true →
    let k := kitIx (pb rq 8)
    let m := fieldAt rq.payload 8 1
    let x := s1.kit k
    ∃ t, exec (.strokeSet rq) s = .next t ∧ Replied s1 t j.rid rq 0x00 0 [] ∧
      (t.kit k).kres = (if Nat.testBit m 0 then fieldAt rq.payload 0 1 else x.kres) ∧
      (t.kit k).rtres = (if Nat.testBit m 1 then fieldAt rq.payload 1 1 else x.rtres) ∧
      (t.kit k).pshare = (if Nat.testBit m 2 then fieldAt rq.payload 2 2 else x.pshare) ∧
      (t.kit k).icred = (if Nat.testBit m 3 then fieldAt rq.payload 4 2 else x.icred) ∧
      (t.kit k).maxinf = (if Nat.testBit m 4 then fieldAt rq.payload 6 2 else x.maxinf) ∧
      (t.kit k).granted = x.granted ∧ (t.kit k).taken = x.taken ∧ (Nat.testBit m 0 = true → fieldAt rq.payload 0 1 ≠ x.kres → t.stk.dirty = true) ∧
      (∀ o, o ≠ k → o ≠ j.kit → t.kit o = s1.kit o) ∧ SameStores s1 t)

/-! ### Rudiment requests (07 R181 to R185; 12 R306, R307) -/

/-- RUD_LOAD. STAGE sends the chords of the slot's array copy that the payload touches on their way with the payload's words
at OFFSET; in the first of them every other word is that of the copy; its reply waits for the chords. LOAD of a slot with
nothing staged, or with a chord that cannot be read, is BAD_PARAM at byte 9; with a bad word it is
BAD_PARAM at that word's offset; with every word good, no engine running the slot and room in the store, the slot's
program is the first LENGTH words of the array copy, in the lowest run of free units, and the reply is OK. RUD_START of an
unloaded slot is BAD_PARAM at byte 8. With an idle engine that the Kit may use, the one named or for 15 the lowest,
the engine runs the slot from PC 0 with G0 from PARAM, every other register 0, an empty stack, no loop, no deadline
and STALL; the reply names it and its first Beat. With none the reply is BUSY, resource 1. RUD_STOP of a running
engine empties its FIFO and its STREAMs and stops it from the next Beat on; of another engine it changes nothing; the
reply names the engine, its PC and its state. RUD_QUERY returns the block of Table 7.7.
It says where these complete: RUD_LOAD_STAGE, RUD_LOAD_LOAD, RUD_START, RUD_STOP, RUD_QUERY. -/
def Obligations.RudimentRequests : Prop :=
  (∀ (s s1 : State) (rq : Req) (j : Job), s.taken rq = some (j, s1) →
    let slot : Fin 8 := engIx (pb rq 9)
    let off := pb rq 10 + 256 * pb rq 11
    let n := rq.len.toNat / 4
    let size := pb rq 12 + 256 * pb rq 13
    ((Instr.rudLoadStage rq).wf = true → (∀ i d, s1.stageComing (stageChord j.kit slot i) = some d → d.length = 64) →
      ∃ t, exec (.rudLoadStage rq) s = .next t ∧
      (∀ i, i < n → ∃ d, t.stageComing (stageChord j.kit slot ((off + i) / 16)) = some d ∧
        fieldAt d (4 * ((off + i) % 16)) 4 = fieldAt rq.payload (4 * i) 4) ∧
      (∀ w b, (s1.stageRead j.kit slot (off / 16)).1 = some b → w / 16 = off / 16 → w < off ∨ off + n ≤ w →
        ∃ d, t.stageComing (stageChord j.kit slot (off / 16)) = some d ∧
          fieldAt d (4 * (w % 16)) 4 = fieldAt (b.drop (4 * (w % 16))) 0 4) ∧
      t.stageJobs = s1.stageJobs ++ [⟨j.rid, rq, j.kit, (off + n - 1) / 16 - off / 16 + 1, 0, none⟩] ∧
      t.copies = s1.copies ∧ t.replies = s1.replies ∧ t.engs = s1.engs ∧ SameStores s1 t) ∧
    ((Instr.rudLoadLoad rq).wf = true → s1.isStaged j.kit slot = false → ∃ t, exec (.rudLoadLoad rq) s = .next t ∧
      Replied s1 t j.rid rq 0x31 9 [] ∧ t.copies = s1.copies ∧ SameStores s1 t) ∧
    ((Instr.rudLoadLoad rq).wf = true → s1.isStaged j.kit slot = true →
      (s1.stageReads j.kit slot ((size + 15) / 16)).1 = none → ∃ t, exec (.rudLoadLoad rq) s = .next t ∧
      Replied s1 t j.rid rq 0x31 9 [] ∧ t.copies = s1.copies ∧ t.stageOf j.kit slot = none ∧ SameStores s1 t) ∧
    (∀ bs, (Instr.rudLoadLoad rq).wf = true → s1.isStaged j.kit slot = true →
      (s1.stageReads j.kit slot ((size + 15) / 16)).1 = some bs →
      let words := (List.range size).map fun i => BitVec.ofNat 32 (fieldAt bs (4 * i) 4)
      (∀ i, i < size → goodAt (words.map Rud.decode) i = false →
        (∀ k, k < i → goodAt (words.map Rud.decode) k = true) → ∃ t, exec (.rudLoadLoad rq) s = .next t ∧
        Replied s1 t j.rid rq 0x31 (0xFF + 256 * (4 * i % 65536)) [] ∧ t.copies = s1.copies ∧ SameStores s1 t) ∧
      (∀ u, (∀ i, i < size → goodAt (words.map Rud.decode) i = true) →
        (∀ e : Engine, (s1.eng e).busy = true → (s1.eng e).kit = j.kit → (s1.eng e).slot ≠ slot) →
        State.storeRun { s1 with copies := s1.copies.filter fun c => !(c.kit == j.kit && c.slot == slot) }
          ((4 * size + 255) / 256) = some u → ∃ t c, exec (.rudLoadLoad rq) s = .next t ∧
        Replied s1 t j.rid rq 0x00 0 [] ∧ t.copyOf j.kit slot = some c ∧ c.words = words ∧ c.unit = u ∧
        t.stages = s1.stages ∧ t.engs = s1.engs ∧ SameStores s1 t))) ∧
  (∀ (s s1 : State) (rq : Req) (j : Job), s.taken rq = some (j, s1) → (Instr.rudStart rq).wf = true →
    let slot : Fin 8 := engIx (pb rq 8)
    let free := fun (e : Engine) => (pb rq 9 = 15 ∨ pb rq 9 = e.val) ∧ (s1.eng e).busy = false ∧ s1.engUsable j.kit e = true
    (s1.copyOf j.kit slot = none → ∃ t, exec (.rudStart rq) s = .next t ∧ Replied s1 t j.rid rq 0x31 8 [] ∧
      t.engs = s1.engs ∧ SameStores s1 t) ∧
    (∀ c e, s1.copyOf j.kit slot = some c → free e → (∀ o, o < e → ¬ free o) →
      let first := (j.admBeat + 1 + (pb rq 10 + 256 * pb rq 11)) % 2 ^ 48
      ∃ t, exec (.rudStart rq) s = .next t ∧ Replied s1 t j.rid rq 0x00 (e.val + 256 * (first % 2 ^ 40)) [] ∧
        (t.eng e).state = .running ∧ (t.eng e).kit = j.kit ∧ (t.eng e).slot = slot ∧ (t.eng e).pc = 0 ∧
        (t.eng e).next = first ∧ (t.eng e).g[0] = BitVec.ofNat 32 (rq.param.toNat / 2 ^ 32) ∧
        (∀ i : GReg, i ≠ 0 → (t.eng e).g[i] = 0) ∧ (t.eng e).stack = [] ∧ (t.eng e).loop = none ∧
        (t.eng e).dl = none ∧ (t.eng e).pol = .stall ∧ (∀ o, o ≠ e → t.eng o = s1.eng o) ∧ SameStores s1 t) ∧
    (∀ c, s1.copyOf j.kit slot = some c → (∀ o, ¬ free o) → ∃ t, exec (.rudStart rq) s = .next t ∧
      Replied s1 t j.rid rq 0x11 1 [] ∧ t.engs = s1.engs ∧ SameStores s1 t)) ∧
  (∀ (s s1 : State) (rq : Req) (j : Job), s.taken rq = some (j, s1) →
    let e : Engine := engIx (pb rq 9)
    let g := s1.eng e
    ((Instr.rudStop rq).wf = true → ∃ t, exec (.rudStop rq) s = .next t ∧
      Replied s1 t j.rid rq 0x00 (e.val + 256 * (g.pc % 65536) + 2 ^ 24 * g.state.code) [] ∧
      (g.busy = true → (t.eng e).stopping = true ∧ (t.eng e).fifo = [] ∧ (t.eng e).streams = [] ∧ (t.eng e).pc = g.pc ∧
        (t.eng e).fetches = g.fetches) ∧
      (g.busy = false → t.eng e = g) ∧ (∀ o, o ≠ e → t.eng o = s1.eng o) ∧ t.copies = s1.copies ∧ SameStores s1 t) ∧
    ((Instr.rudQuery rq).wf = true → ∃ t b, exec (.rudQuery rq) s = .next t ∧ Replied s1 t j.rid rq 0x00 0 b ∧
      b.length = 64 ∧ fieldAt b 0 1 = g.state.code ∧ fieldAt b 1 1 = g.kit.val ∧ fieldAt b 2 1 = g.slot.val ∧
      fieldAt b 4 2 = g.pc % 65536 ∧ (∀ i : GReg, fieldAt b (8 + 4 * i.val) 4 = (g.g[i]).toNat) ∧
      (∀ d, g.dl = some d → fieldAt b 40 6 = d % 2 ^ 48) ∧ t.engs = s1.engs ∧ SameStores s1 t))

/-! ### Rudiment instructions (12 R308 to R322) -/

/-- The PC and the loop after an instruction that does not jump (12 R308, R314). -/
def pcOnward (g : EngSt) : Nat × Option LoopSt :=
  match g.loop with
  | none => (g.pc + 1, none)
  | some l =>
    if g.pc ≠ l.last then (g.pc + 1, some l)
    else if 1 < l.ctr then (l.start, some { l with ctr := l.ctr - 1 })
    else (g.pc + 1, none)

/-- The PC and the loop after a taken jump (12 R314). -/
def pcJump (g : EngSt) (t : Nat) : Nat × Option LoopSt :=
  match g.loop with
  | none => (t, none)
  | some l => (t, if l.start ≤ t ∧ t ≤ l.last then some l else none)

/-- An engine that issues in this Beat: it may, and it stands at no wait (12 R308, R310). -/
def Issues (s : State) (e : Engine) : Prop := s.mayIssue e = true ∧ (s.eng e).waiting = false

/-- An engine once it has issued an instruction in Beat `b` that leaves it running at a PC with a loop. -/
def issuedAt (g : EngSt) (b : Nat) (p : Nat × Option LoopSt) : EngSt :=
  { g with state := .running, pc := p.1, loop := p.2, next := (b + 1) % 2 ^ 48, issued := min (g.issued + 1) (2 ^ 32 - 1) }

/-- The PC stays inside the engine's loaded program. -/
def InProgram (s : State) (e : Engine) (pc : Nat) : Prop := ∃ p, s.program e = some p ∧ pc < p.length

/-- NOP, SETI, ADDI, MOV, DEADLINE and POLICY of an engine that may issue do what Table 12.2 says to that engine's
registers, and go on; nothing else of the whole state changes.
It says where these complete: NOP, SETI, ADDI, MOV, DEADLINE, POLICY. -/
def Obligations.RudimentPlainInstructions : Prop :=
  ∀ (s : State) (e : Engine), Issues s e → InProgram s e (pcOnward (s.eng e)).1 →
    let g := s.eng e
    let b := s.bar.beatno
    let g1 := issuedAt g b (pcOnward g)
    let u := s.calRan 9
    exec (.rudNop e) s = .next (u.setEng e g1) ∧
    (∀ rd imm, exec (.seti e rd false imm) s = .next (u.setEng e { g1 with g := g.g.set rd (BitVec.ofNat 32 imm.toNat) })) ∧
    (∀ rd imm, exec (.seti e rd true imm) s = .next (u.setEng e
        { g1 with g := g.g.set rd (BitVec.ofNat 32 (imm.toNat * 65536 + (g.g[rd]).toNat % 65536)) })) ∧
    (∀ rd rs imm, exec (.addi e rd rs imm) s = .next (u.setEng e
        { g1 with g := g.g.set rd (BitVec.ofInt 32 ((g.g[rs]).toNat + imm.toInt)) })) ∧
    (∀ rd rs, exec (.mov e rd rs) s = .next (u.setEng e { g1 with g := g.g.set rd (g.g[rs]) })) ∧
    (∀ n, exec (.deadline e (.imm n)) s = .next (u.setEng e { g1 with dl := some ((b + n.toNat) % 2 ^ 48) })) ∧
    (∀ r, exec (.deadline e (.reg r)) s = .next (u.setEng e { g1 with dl := some ((b + (g.g[r]).toNat) % 2 ^ 48) })) ∧
    exec (.deadline e .clear) s = .next (u.setEng e { g1 with dl := none }) ∧
    (∀ full pol, exec (.policy e full pol) s = .next (u.setEng e { g1 with full := full, pol := pol }))

/-- BR, BRS, CALL, RET and LOOP of an engine that may issue, where the next PC lies in the program (12 R312, R314).
It says where these complete: LOOP, BR, BRS, CALL, RET. -/
def Obligations.RudimentJumps : Prop :=
  ∀ (s : State) (e : Engine), Issues s e →
    let g := s.eng e
    let b := s.bar.beatno
    let u := s.calRan 9
    let go := fun (p : Nat × Option LoopSt) => u.setEng e (issuedAt g b p)
    let at_ := fun (p : Nat × Option LoopSt) => InProgram s e p.1
    (∀ rs (t : BitVec 12), (RudInstr.br .always rs t).wf = true → at_ (pcJump g t.toNat) →
        exec (.br e .always rs t) s = .next (go (pcJump g t.toNat))) ∧
    (∀ rs (t : BitVec 12), let p := if g.g[rs] = 0 then pcJump g t.toNat else pcOnward g
        at_ p → exec (.br e .zero rs t) s = .next (go p)) ∧
    (∀ rs (t : BitVec 12), let p := if g.g[rs] ≠ 0 then pcJump g t.toNat else pcOnward g
        at_ p → exec (.br e .nonzero rs t) s = .next (go p)) ∧
    (∀ (neg : Bool) st (t : BitVec 12),
        let p := if (g.ls = st ↔ neg = false) then pcJump g t.toNat else pcOnward g
        at_ p → exec (.brs e neg false st t) s = .next (go p)) ∧
    (∀ (neg : Bool) st (t : BitVec 12),
        let p := if (g.ls.toNat / 16 = st.toNat / 16 ↔ neg = false) then pcJump g t.toNat else pcOnward g
        at_ p → exec (.brs e neg true st t) s = .next (go p)) ∧
    (∀ t : BitVec 12, g.stack.length < 4 → at_ (t.toNat, none) →
        exec (.call e t) s = .next (u.setEng e { issuedAt g b (t.toNat, none) with stack := (g.pc + 1, g.loop) :: g.stack })) ∧
    (∀ p rest, g.stack = p :: rest → at_ p →
        exec (.ret e) s = .next (u.setEng e { issuedAt g b p with stack := rest })) ∧
    (∀ (c : RegOrImm 12) (len : BitVec 10), len ≠ 0 →
        let n := match c with
          | .imm v => v.toNat
          | .reg r => (g.g[r]).toNat % 65536
        let p := if n = 0 then (g.pc + 1 + len.toNat, g.loop) else (g.pc + 1, some ⟨n, g.pc + 1, g.pc + len.toNat⟩)
        at_ p → exec (.loop e c len) s = .next (go p))

/-- The waits issue, and the engine stands at them without advancing until the target Beat of Table 12.2, in which it goes on
to its next instruction; a wait of no Beats acts as NOP. In Free-wheel and while its Kit is suspended a wait holds the engine
instead (12 R310, R313, 02 R52).
It says where these complete: WAITB, WAITU, WAITBAR. -/
def Obligations.RudimentWaits : Prop :=
  (∀ (s : State) (e : Engine), Issues s e →
    let g := s.eng e
    let b := s.bar.beatno
    let n := fun (r : GReg) => (g.g[r]).toNat
    let on := fun (target : Nat) => (s.calRan 9).setEng e { g with
      state := .running, waiting := true, next := target % 2 ^ 48, issued := min (g.issued + 1) (2 ^ 32 - 1) }
    let held := s.setEng e { g with state := .held }
    (s.mode ≠ .freewheel → (s.kit g.kit).suspended = false →
      (∀ n : BitVec 20, n ≠ 0 → exec (.waitb e (.imm n)) s = .next (on (b + 1 + n.toNat))) ∧
      (∀ r : GReg, n r ≠ 0 → exec (.waitb e (.reg r)) s = .next (on (b + 1 + n r))) ∧
      (∀ n : BitVec 16, n ≠ 0 → exec (.waitbar e n) s = .next (on ((b / 1024 + n.toNat) * 1024))) ∧
      (∀ u : BitVec 10, ∃ d, 1 ≤ d ∧ d ≤ 1024 ∧ (b + d) % 1024 = u.toNat ∧
          exec (.waitu e false u) s = .next (on (b + d))) ∧
      (∀ u : BitVec 10, u ≠ 0 → ∃ d, 1 ≤ d ∧ ((b + d) % 1024) % u.toNat = 0 ∧
          (∀ x, 1 ≤ x → x < d → ((b + x) % 1024) % u.toNat ≠ 0) ∧ exec (.waitu e true u) s = .next (on (b + d)))) ∧
    (exec (.waitb e (.imm 0)) s = exec (.rudNop e) s ∧ ∀ r, n r = 0 → exec (.waitb e (.reg r)) s = exec (.rudNop e) s) ∧
    (s.mode = .freewheel ∨ (s.kit g.kit).suspended = true →
      (∀ n : BitVec 20, n ≠ 0 → exec (.waitb e (.imm n)) s = .next held) ∧
      (∀ r : GReg, n r ≠ 0 → exec (.waitb e (.reg r)) s = .next held) ∧
      (∀ n : BitVec 16, n ≠ 0 → exec (.waitbar e n) s = .next held) ∧
      (∀ (m : Bool) (u : BitVec 10), (RudInstr.waitu m u).wf = true → exec (.waitu e m u) s = .next held))) ∧
  (∀ (s : State) (e : Engine) (i : RudInstr), s.mayIssue e = true → (s.eng e).waiting = true →
    InProgram s e (pcOnward (s.eng e)).1 →
    let p := pcOnward (s.eng e)
    s.issue e i = (s.setEng e { s.eng e with pc := p.1, loop := p.2, waiting := false }).issue e i)

/-- Where an engine halts: HALT with FAULT 0; CALL with four entries in use, FAULT 1; RET with an empty stack, FAULT
2; a PC that reaches the program's length, FAULT 3. A fault sets RUD_EVENTS.FAULT (12 R311). A Rudiment instruction of
an engine that may not issue in this Beat changes nothing (12 R308, R310).
It says where these complete: HALT. -/
def Obligations.RudimentHalts : Prop :=
  (∀ (s : State) (e : Engine), Issues s e →
    let g := s.eng e
    (∃ t, exec (.rudHalt e) s = .next t ∧ (t.eng e).state = .halted ∧ (t.eng e).fault = 0 ∧ t.evs = s.evs ∧
        t.devq = s.devq) ∧
    (∀ x : BitVec 12, 4 ≤ g.stack.length → ∃ t, exec (.call e x) s = .next t ∧ (t.eng e).state = .halted ∧
        (t.eng e).fault = 1 ∧ (t.ev .rud).bits.getLsbD 0 = true) ∧
    (g.stack = [] → ∃ t, exec (.ret e) s = .next t ∧ (t.eng e).state = .halted ∧ (t.eng e).fault = 2 ∧
        (t.ev .rud).bits.getLsbD 0 = true) ∧
    (∀ p, s.program e = some p → p.length ≤ (pcOnward g).1 → ∃ t, exec (.rudNop e) s = .next t ∧
        (t.eng e).state = .halted ∧ (t.eng e).fault = 3 ∧ (t.ev .rud).bits.getLsbD 0 = true)) ∧
  (∀ (s : State) (e : Engine) (i : RudInstr), s.mayIssue e = false → s.issue e i = s)

/-- The kit page `kp` of engine `e`'s Kit lies in a window of its own that lets it read, and `ra` names it. -/
def OwnPage (s : State) (e : Engine) (ra : GReg) (kp : KPage) : Prop :=
  ((s.eng e).g[ra]).toNat = kp.toNat ∧
    ∃ w, s.windowAt (s.eng e).kit (kp.toNat * 65536) = some w ∧ w.rd = true ∧ w.srcKit = none

/-- FETCH, PIN, UNPIN and HINT_EVICT of a range that fails a check change only LS and the PC: 0x31 where the range is
past the kit range, 0x22 where a page has no window, 0x20 where one may not be read or is shared (12 R316). FETCH of
one page into Main: where the page is in Main already the engine goes on with LS OK and nothing else changes; a
Deep-homed page that is not resident and not moving starts a promotion into the slot that the Kit takes, and the
engine has one more FETCH outstanding. FETCH of an unbacked page while Deep is Muted, with no Main home open to it, is
DENIED. PIN of one page pinned so already, and PIN in Main of a Main-homed page within the limits; UNPIN of one page;
HINT_EVICT of one page that does not move and has no request in service: its Near blocks, unless it is pinned in Near,
and its slot stamp, unless it is pinned in Main, become the oldest, as TGT asks. LS is OK, and no other page or block
changes (12 R316; 09 R240).
It says where these complete: FETCH, RUD_PIN, RUD_UNPIN, HINT_EVICT. -/
def Obligations.RudimentPages : Prop :=
  (∀ (s : State) (e : Engine) (ra : GReg) (n : BitVec 4), Issues s e → InProgram s e (pcOnward (s.eng e)).1 →
    (s.eng e).fetches.length < 8 →
    let g := s.eng e
    let base := (g.g[ra]).toNat
    let all := fun (ls : BitVec 8) =>
      let t := (s.calRan 9).setEng e { issuedAt g s.bar.beatno (pcOnward g) with ls := ls }
      (∀ tgt dl, exec (.fetch e ra tgt n dl) s = .next t) ∧ (∀ tgt, exec (.rudPin e ra tgt n) s = .next t) ∧
      (∀ tgt, exec (.rudUnpin e ra tgt n) s = .next t) ∧ (∀ tgt, exec (.hintEvict e ra tgt n) s = .next t)
    (2 ^ 23 < base + (n.toNat + 1) → all 0x31) ∧
    (base + (n.toNat + 1) ≤ 2 ^ 23 →
      (∀ i, i ≤ n.toNat → s.windowAt g.kit ((base + i) * 65536) = none → all 0x22) ∧
      (∀ i w, i ≤ n.toNat → (∀ l, l ≤ n.toNat → s.windowAt g.kit ((base + l) * 65536) ≠ none) →
        s.windowAt g.kit ((base + i) * 65536) = some w → (w.rd = false ∨ w.srcKit ≠ none) → all 0x20))) ∧
  (∀ (s : State) (e : Engine) (ra : GReg) (kp : KPage) (dl : Bool), Issues s e → OwnPage s e ra kp →
    InProgram s e (pcOnward (s.eng e)).1 → (s.eng e).fetches.length < 8 →
    let g := s.eng e
    let g1 := issuedAt g s.bar.beatno (pcOnward g)
    let d := if dl then g.dl else none
    (∀ p, s.findPage g.kit kp = some p → (p.frame.isSome = true ∨ p.slot.isSome = true) →
      exec (.fetch e ra .main 0 dl) s = .next ((s.calRan 9).setEng e { g1 with ls := 0x00 })) ∧
    (∀ p n, s.findPage g.kit kp = some p → p.frame = none → p.slot = none → s.inPlace g.kit kp = false →
      s.moving g.kit kp = false → s.pickSlot g.kit = some (n, none) →
      ∃ t m, exec (.fetch e ra .main 0 dl) s = .next t ∧ t.moves = s.moves ++ [m] ∧ m.kit = g.kit ∧ m.kp = kp ∧
        m.kind = .promote ∧ m.dest = n ∧ m.reads = ~~~ p.zero ∧ m.fetch = some (e, d) ∧
        t.eng e = { g1 with ls := 0x00, fetches := g.fetches ++ [⟨[kp], false, d⟩] } ∧ SameStores s t) ∧
    (s.findPage g.kit kp = none → s.deep.muted = true →
      (s.autoAt g.kit kp = false ∨ s.tier.newhome = false ∨ s.homeChoice g.kit = none) → ∀ tgt,
      exec (.fetch e ra tgt 0 dl) s = .next ((s.calRan 9).setEng e { g1 with ls := 0x20 }))) ∧
  (∀ (s : State) (e : Engine) (ra : GReg) (kp : KPage), Issues s e → OwnPage s e ra kp →
    InProgram s e (pcOnward (s.eng e)).1 →
    let g := s.eng e
    let g1 := { issuedAt g s.bar.beatno (pcOnward g) with ls := 0x00 }
    let mine := fun (p : Page) => p.kit = g.kit ∧ p.kp = kp
    let old := (s.bar.beatno + 2 ^ 47 + 1) % 2 ^ 48
    (∀ p tgt, s.findPage g.kit kp = some p → (if tgt = .near then p.nearPin else p.mainPin) = true →
      exec (.rudPin e ra tgt 0) s = .next ((s.calRan 9).setEng e g1)) ∧
    (∀ p, s.findPage g.kit kp = some p → p.frame.isSome = true → p.mainPin = false → p.impliedPin = false →
      s.mayPinMain g.kit false = true → ∃ t, exec (.rudPin e ra .main 0) s = .next t ∧ t.eng e = g1 ∧
        t.pages = s.pages.map (fun q => if mine q then { q with mainPin := true } else q) ∧ t.moves = s.moves ∧
        t.near = s.near ∧ SameStores s t) ∧
    (∀ tgt, ∃ t, exec (.rudUnpin e ra tgt 0) s = .next t ∧ t.eng e = g1 ∧ t.moves = s.moves ∧ t.near = s.near ∧
      SameStores s t ∧ t.pages = s.pages.map (fun q => if mine q then
        { q with nearPin := q.nearPin && tgt == .main, impliedPin := q.impliedPin && tgt == .main,
                 mainPin := q.mainPin && tgt == .near } else q)) ∧
    (∀ tgt, s.moving g.kit kp = false → s.busyPage g.kit kp = false →
      ∃ t, exec (.hintEvict e ra tgt 0) s = .next t ∧ t.eng e = g1 ∧ t.moves = s.moves ∧ SameStores s t ∧
        t.pages = s.pages.map (fun q => if mine q ∧ tgt ≠ .near ∧ q.mainPin = false ∧ q.impliedPin = false then
          { q with age := old } else q) ∧
        t.near = s.near.map (fun b => if b.kit = g.kit ∧ b.kp = kp ∧ tgt ≠ .main ∧ s.nearPinned g.kit kp = false then
          { b with age := old } else b)))

/-- STREAM of one page in Main, without a deadline, to a node that the ring's last ROSTER names, with room for sixteen
packets: they join the FIFO in order, PART 0 to 15, 4,096 bytes apart in the destination, each with 64 chords to be
read, STATUS OK, and LS is OK, or POISONED where a chord is poisoned. A node that the ROSTER does not name gives LS
BAD_PARAM and queues nothing (12 R318, R319). SIGNAL to a node of the last ROSTER, or for node 0x1F to KIT_NOTIFY of a
Kit that is not suspended, queues one EVENT packet with code 0x0200 plus CODE and ARG the engine and the register, and
LS is OK; to any other node LS is BAD_PARAM and nothing is queued (12 R321).
It says where these complete: STREAM, SIGNAL. -/
def Obligations.RudimentStreams : Prop :=
  (∀ (s : State) (e : Engine) (ra rb : GReg) (kp : KPage) (node : Node) (r : Ring), Issues s e →
    InProgram s e (pcOnward (s.eng e)).1 → (s.eng e).issuing = none →
    ((s.eng e).g[ra]).toNat = kp.toNat →
    (∃ w, s.windowAt (s.eng e).kit (kp.toNat * 65536) = some w ∧ w.rd = true ∧ w.srcKit = none) →
    let g := s.eng e
    (∀ p, (s.ring r).joined = true → node ∈ (s.ring r).rosterIds → node.toNat ≤ 29 →
      (g.g[rb]).toNat * 256 + 65536 ≤ 2 ^ 40 → g.fifo.length + 16 ≤ 512 →
      s.findPage g.kit kp = some p → p.frame.isSome = true →
      ∃ t pk, exec (.stream e ra rb node r 0 false) s = .next t ∧ (t.eng e).fifo = g.fifo ++ pk ∧ pk.length = 16 ∧
        (∀ i x, pk[i]? = some x → x.part = i ∧ x.kp = kp ∧ x.offset = (g.g[rb]).toNat * 256 + 4096 * i ∧
          x.node = node ∧ x.ring = r ∧ x.status = 0x00 ∧ x.need = 64 ∧ x.data = [] ∧ x.muffle = false) ∧
        ((t.eng e).ls = 0x00 ∨ (t.eng e).ls = 0x40) ∧ ((t.eng e).pc, (t.eng e).loop) = pcOnward g ∧
        (t.eng e).g = g.g ∧ (∀ o, o ≠ e → t.eng o = s.eng o) ∧ t.pages = s.pages ∧ t.moves = s.moves ∧ SameStores s t) ∧
    ((node ∉ (s.ring r).rosterIds ∨ (s.ring r).joined = false ∨ 29 < node.toNat) → ∀ dl,
      exec (.stream e ra rb node r 0 dl) s
        = .next ((s.calRan 9).setEng e { issuedAt g s.bar.beatno (pcOnward g) with ls := 0x31 }))) ∧
  (∀ (s : State) (e : Engine) (node : Node) (r : Ring) (rs : GReg) (code : BitVec 8), Issues s e →
    InProgram s e (pcOnward (s.eng e)).1 →
    let g := s.eng e
    let k := s.kit g.kit
    let dst := if node = 0x1F then k.notify else node
    let ok := fun (ls : BitVec 8) => (s.calRan 9).setEng e { issuedAt g s.bar.beatno (pcOnward g) with ls := ls }
    (dst ∉ (s.ring r).rosterIds → exec (.signal e node r rs code) s = .next (ok 0x31)) ∧
    (node = 0x1F → k.notify = 0x1F → exec (.signal e node r rs code) s = .next (ok 0x31)) ∧
    (node = 0x1F → dst ∈ (s.ring r).rosterIds → k.notify ≠ 0x1F → k.suspended = true →
      exec (.signal e node r rs code) s = .next (ok 0x00)) ∧
    (dst ∈ (s.ring r).rosterIds → dst ≠ 0x1F → (node ≠ 0x1F ∨ k.suspended = false) →
      ∃ q, exec (.signal e node r rs code) s = .next { ok 0x00 with devq := s.devq ++ [q] } ∧ q.opc = 0x71 ∧ q.dest = dst ∧
        q.ring = r ∧ q.ktag = BitVec.ofNat 4 g.kit.val ∧ q.payload = [] ∧ q.waiting = true ∧ q.tries = 0 ∧
        q.param = BitVec.ofNat 64 (0x0200 + code.toNat + 65536 * (e.val + 65536 * (g.g[rs]).toNat))))

/-- FETCH_PAGE_COMPLETE takes a complete page out of the engine's FETCHes, one FETCH with no page left is over; a page
that is not complete stays. STREAM_FULL_PAGE_READY queues the sixteen follow-up packets of a late page, STATUS LATE,
once, when the page is ready and the FIFO has room (12 R317, R322). STREAM_DEADLINE of a STREAM held with its deadline
reached judges its late pages once and counts them: under STALL it still waits and nothing is sent; under LATE with no
page ready it takes effect without a packet, one RUD_LATE for each page, LS LATE and the PC goes on. Before the
deadline nothing changes (12 R322, R323, Table 12.4).
It says where these complete: FETCH_PAGE_COMPLETE, STREAM_DEADLINE, STREAM_FULL_PAGE_READY. -/
def Obligations.FetchesAndDeadlines : Prop :=
  (∀ (s : State) (e : Engine),
    let g := s.eng e
    (∀ f kp, g.fetches = [f] → f.pages = [kp] → s.fetchDone g.kit f.near kp = true →
      exec (.fetchPageComplete e kp) s = .next (s.setEng e { g with fetches := [] })) ∧
    (∀ f kp, g.fetches = [f] → f.pages = [kp] → s.fetchDone g.kit f.near kp = false →
      exec (.fetchPageComplete e kp) s = .next s) ∧
    (∀ (st : StreamSt) (pos : BitVec 4), g.streams = [st] → st.done = true → st.follow = [pos.toNat] →
      s.pageReady g.kit (st.page pos.toNat) = true → g.fifo.length + 16 ≤ 512 →
      ∃ t pk, exec (.streamFullPageReady e pos) s = .next t ∧ (t.eng e).fifo = g.fifo ++ pk ∧ pk.length = 16 ∧
        (∀ i x, pk[i]? = some x → x.part = 16 * pos.toNat + i ∧ x.status = 0x41 ∧ x.muffle = false ∧ x.need = 64 ∧
          x.offset = st.rb * 256 + 65536 * pos.toNat + 4096 * i ∧ x.node = st.node ∧ x.ring = st.ring) ∧
        (∀ x ∈ (t.eng e).streams, pos.toNat ∉ x.follow) ∧ (t.eng e).pc = g.pc ∧ SameStores s t) ∧
    (∀ (st : StreamSt) (pos : BitVec 4), g.streams = [st] → st.done = true → s.pageReady g.kit (st.page pos.toNat) = false →
      exec (.streamFullPageReady e pos) s = .next s)) ∧
  (∀ (s : State) (e : Engine) (st : StreamSt) (d : Nat), (s.eng e).streams = [st] → st.done = false → st.dl = some d →
    st.judged = false →
    let g := s.eng e
    let late := (List.range st.count).filter fun p => !s.pageReady g.kit (st.page p)
    (reached d s.bar.beatno = false ∨ s.mode.traffic = false → exec (.streamDeadline e) s = .next s) ∧
    (reached d s.bar.beatno = true → s.mode.traffic = true → s.calMore 4 = true → st.pol.1 = .stall → ∃ t, exec (.streamDeadline e) s = .next t ∧
      (t.eng e).streams = [{ st with judged := true, late := late }] ∧
      (t.eng e).late = min (g.late + late.length) (2 ^ 32 - 1) ∧ (t.eng e).fifo = g.fifo ∧ (t.eng e).pc = g.pc ∧
      (t.eng e).ls = g.ls ∧ t.devq = s.devq ∧ SameStores s t) ∧
    (reached d s.bar.beatno = true → s.mode.traffic = true → s.calMore 4 = true → st.pol.1 = .late → late = List.range st.count → 0 < st.count → st.node ≠ 0x1F →
      g.fifo.length ≤ 512 → InProgram s e (pcOnward g).1 → ∃ t, exec (.streamDeadline e) s = .next t ∧
      (t.eng e).late = min (g.late + st.count) (2 ^ 32 - 1) ∧ (t.eng e).fifo = g.fifo ∧ (t.eng e).ls = 0x41 ∧
      ((t.eng e).pc, (t.eng e).loop) = pcOnward g ∧
      t.devq = s.devq ++ (List.range st.count).map (fun p => eventPkt (BitVec.ofNat 4 g.kit.val) st.ring st.node 0x0301
        (e.val + 256 * p + 65536 * (d % 2 ^ 32)) [] s.bar.beatno) ∧ SameStores s t))

/-- An Out slot that the device may use: it has joined the ring, nothing waits to go through, no copy is owed, and the slot,
which is not slot 0, is EMPTY and not blank (05 R113, R123). -/
def OpenSlot (s : State) (r : Ring) (slot : BitVec 5) : Prop :=
  (s.ring r).joined = true ∧ (s.ring r).swOpen = true ∧ (s.ring r).front = [] ∧ (s.ring r).held = [] ∧
    (s.ring r).resend = [] ∧ (s.ring r).emptyAt (s.bar.beatno * 32 + slot.toNat) = true ∧ slot ≠ 0 ∧ s.drivesBlank r = false

/-- A slot into which the device may put a request (05 R113, R123, Table 5.1). -/
def GeneralSlot (s : State) (r : Ring) (slot : BitVec 5) : Prop :=
  OpenSlot s r slot ∧ slot.toNat % 8 ≠ 2 ∧ slot.toNat % 8 ≠ 4 ∧
    (s.ring r).ronlyAt (s.bar.beatno * 32 + slot.toNat) slot.toNat = false

/-- PUSH_INJECT into a general slot that no reply waits for: the oldest device packet that waits for the ring begins, numbered
for its destination. One of one flit has left with it, and stays until its slot comes back; of a longer one the first flit
goes, in a stream of its own. With none waiting, a PUSH whose data is read leaves its engine's FIFO, counts, and begins
alike. Into slot 0 or a reply-only slot nothing goes (05 R115, R116, R123; 06 R159; 12 R319).
It says where these complete: PUSH_INJECT. -/
def Obligations.PushInject : Prop :=
  ∀ (s : State) (r : Ring) (slot : BitVec 5) (n : BitVec 3), s.freeStream r = some n →
    (∀ p rest, GeneralSlot s r slot → s.replies = [] → s.devq = p :: rest → (∀ q ∈ rest, q.waiting = false) →
      p.waiting = true → p.ring = r → p.tries = 0 → p.flitsOut = 0 → p.strm = none → p.alertOf = none →
      reached p.notBefore s.bar.beatno = true → s.devSeq = [] →
      let hdr := hdrNat p.opc.toNat p.ktag.toNat false false false false (s.ring r).nodeId.toNat (r == .b) 0 p.dest.toNat 0
        p.payload.length p.param.toNat
      ∃ t fl, exec (.pushInject r slot) s = .next t ∧ (t.ring r).lastTx = some fl ∧ fl.cls = 1 ∧ fl.first = true ∧
        fl.src = (s.ring r).nodeId ∧ fl.stream = n ∧ fl.content = (packetBytes hdr p.payload).take 60 ∧
        t.devSeq = [(r, p.dest, 1)] ∧ t.engs = s.engs ∧ t.inflight = s.inflight ∧ SameStores s t ∧
        (1 < flitsFor p.payload.length → t.sent = s.sent ∧
          t.devq = { p with seq := 0, flitsOut := 1, strm := some n } :: rest) ∧
        (flitsFor p.payload.length = 1 → t.devq = rest ++ [{ p with seq := 0, waiting := false, tries := 1 }] ∧
          ∃ k, t.sent = k :: s.sent ∧ k.payload = p.payload ∧ k.via = .ring r ∧ k.hdr = hdr ∧
            k.crc = crc32c (leBytes 16 k.hdr.toNat ++ p.payload))) ∧
    (∀ e p rest, GeneralSlot s r slot → s.replies = [] → s.devq = [] → (s.eng e).fifo = p :: rest → p.ring = r →
      p.need = 0 → p.ready = some s.bar.beatno → (∀ o, o < e → (s.eng o).fifo = []) → s.devSeq = [] →
      ∃ t d, exec (.pushInject r slot) s = .next t ∧ t.devq = [d] ∧ d.opc = 0x72 ∧ d.payload = p.data ∧ d.dest = p.node ∧
        d.ring = r ∧ d.seq = 0 ∧ d.engine = some e ∧
        d.param = BitVec.ofNat 64 (p.offset % 2 ^ 40 + 2 ^ 40 * p.status.toNat + 2 ^ 48 * e.val + 2 ^ 56 * p.part) ∧
        (1 < flitsFor p.data.length → d.waiting = true ∧ d.flitsOut = 1 ∧ d.strm = some n ∧ t.sent = s.sent) ∧
        (flitsFor p.data.length = 1 → d.waiting = false ∧ ∃ k, t.sent = k :: s.sent ∧ k.payload = p.data ∧
          k.hdr = hdrNat 0x72 (s.eng e).kit.val false false false false (s.ring r).nodeId.toNat (r == .b) 0 p.node.toNat 0
            p.data.length d.param.toNat) ∧
        (t.eng e).fifo = rest ∧ (t.eng e).pushes = min ((s.eng e).pushes + 1) (2 ^ 32 - 1) ∧
        (∀ o, o ≠ e → t.eng o = s.eng o) ∧ SameStores s t) ∧
    (slot = 0 ∨ slot.toNat % 8 = 2 ∨ slot.toNat % 8 = 4 → exec (.pushInject r slot) s = .next s)

/-- RUDIMENT_ISSUE takes the engines in ascending order; each that may issue does the instruction at its PC, each that
may not does nothing. With engine `e` alone able to issue, at a NOP inside its program, exactly its PC moves (12
R308).
It says where these complete: RUDIMENT_ISSUE. -/
def Obligations.RudimentIssueInOrder : Prop :=
  (∀ s : State, exec .rudimentIssue s = .next ((List.finRange 8).foldl (fun t (e : Engine) => State.issueAt e t) s)) ∧
  (∀ (s : State) (e : Engine) (p : List Word) (w : Word) (i : RudInstr), Issues s e → s.program e = some p →
    p[(s.eng e).pc]? = some w → Rud.decode w = some i → State.issueAt e s = s.issue e i) ∧
  (∀ (s : State) (e : Engine), s.mayIssue e = false → State.issueAt e s = s) ∧
  (∀ (s : State) (e : Engine) (p : List Word), (∀ o, s.mayIssue o = true ↔ o = e) → (s.eng e).waiting = false → s.program e = some p →
    p[(s.eng e).pc]? = some 0x04000000 → (pcOnward (s.eng e)).1 < p.length →
    exec .rudimentIssue s = .next ((s.calRan 9).setEng e (issuedAt (s.eng e) s.bar.beatno (pcOnward (s.eng e)))))

/-! ### Flits, packets and replies (05 R112 to R123, R129, R136; 06 R143 to R145, R157, R161; 08 R228; 11 R301) -/

/-- An In side with its switch open, no flit held for a copy and hop retry on. -/
def Listening (s : State) (r : Ring) : Prop :=
  (s.ring r).swOpen = true ∧ (s.ring r).held = [] ∧ (s.ring r).noRetry = false

/-- FLIT_RECEIVE of a good flit: the first flit of a request for the device waits for its admission; a further flit of
an open stream is taken into it; the first flit of a one-flit packet for another node goes on through the pipeline; a
flit of the device's own leaves the ring. A flit whose CRC fails keeps its place and is asked for again by a blink three
slots on, its copy due L_hop + 1 slots after it; in slot 0 it is not. With the switch
closed nothing changes. The beat source marks every flit that it lets past with LAP. HOP_RETRY_BLINK with hop retry
on: the flit that left SW_HOPLAT slots before the slot of the blink, k slots before the newest copy, is owed, unless that
slot was blank or slot 0; nothing else changes.
It says where these complete: FLIT_RECEIVE, HOP_RETRY_BLINK. -/
def Obligations.FlitsReceived : Prop :=
  (∀ (s : State) (r : Ring) (slot : BitVec 5) (f : Flit), f.content.length = 60 →
    let x := s.ring r
    let rq := reqOfBytes f.content (.ring r) f.src
    let seen := { f with retry := false, lap := f.lap || s.bar.beatsrc }
    let ok := Listening s r ∧ f.blank = false ∧ crcGood f = true ∧ x.hasId = true ∧ f.refused = false
    let past := f.src ≠ x.nodeId ∧ (s.bar.beatsrc && f.lap) = false
    let apart := ∀ h ∈ x.heads, ¬ (h.2.2.src = f.src ∧ h.2.2.stream = f.stream)
    (x.swOpen = false → exec (.flitReceive r slot f) s = .next s) ∧
    (ok → f.cls = 1 → past → apart → f.first = true → rq.dnode ≠ 31 → rq.dnode.toNat = x.nodeId.toNat →
      ∃ t, exec (.flitReceive r slot f) s = .next t ∧
        (t.ring r).heads = x.heads ++ [(slot.toNat, s.bar.beatno, seen)] ∧ t.inflight = s.inflight ∧
        t.replies = s.replies ∧ SameStores s t) ∧
    (∀ o, ok → f.cls ≠ 0 → f.cls ≠ 3 → past → apart → f.first = false → s.inflight = [o] →
      s.openStream r f.src f.stream = some o → o.bytes.length = 60 * o.flits →
      ∃ t, exec (.flitReceive r slot f) s = .next t ∧ SameStores s t ∧ t.replies = s.replies ∧
        t.inflight = [{ o with flits := o.flits + 1, bytes := o.bytes ++ f.content, lastFlit := s.bar.beatno }]) ∧
    (ok → f.cls ≠ 0 → f.cls ≠ 3 → past → apart → f.first = true → rq.dnode ≠ 31 → rq.dnode.toNat ≠ x.nodeId.toNat →
      s.openStream r f.src f.stream = none → flitsFrom f rq = 1 → x.pipe.length ≤ 4 →
      ∃ t, exec (.flitReceive r slot f) s = .next t ∧ t.inflight = s.inflight ∧ SameStores s t ∧
        (t.ring r).pipe = (if x.pipe.length < 4 then x.pipe else x.pipe.drop 1) ++ [seen] ∧ (t.ring r).heads = x.heads) ∧
    (ok → f.cls ≠ 0 → f.cls ≠ 3 → f.src = x.nodeId → x.pipe = [] →
      ∃ t e, exec (.flitReceive r slot f) s = .next t ∧ (t.ring r).pipe = [e] ∧ e.cls = 0 ∧ e.ronly = f.ronly ∧
        t.inflight = s.inflight ∧ SameStores s t) ∧
    (Listening s r → f.blank = false → crcGood f = false → slot ≠ 0 →
      ∃ t w, exec (.flitReceive r slot f) s = .next t ∧
        (t.ring r).held = [.gap [⟨slot.toNat, f⟩] 0 (x.copySlot slot.toNat) w] ∧
        (slot.toNat + 3) % 32 ∈ (t.ring r).blinkAt ∧
        (t.ring r).retries = min (x.retries + 1) (2 ^ 32 - 1) ∧ t.inflight = s.inflight ∧ SameStores s t) ∧
    (Listening s r → f.blank = false → crcGood f = false → slot = 0 →
      ∃ t, exec (.flitReceive r slot f) s = .next t ∧ (t.ring r).held = [] ∧ (t.ring r).retries = x.retries ∧
        t.inflight = s.inflight ∧ SameStores s t)) ∧
  (∀ (s : State) (r : Ring),
    let x := s.ring r
    (∀ (slot : BitVec 5) t q k, x.usedAt = some (t, q) → k < 16 → (slot.toNat + k) % 32 = (t + x.hopLat.toNat) % 32 →
      (∀ f, x.swOpen = true → x.outNoRetry = false → x.copies[k]? = some f → f.blank = false → f.cls ≠ 3 →
        exec (.hopRetryBlink r slot) s = .next (s.setRing r { x with resend := x.resend ++ [f] })) ∧
      (x.copies[k]? = none → exec (.hopRetryBlink r slot) s = .next s)) ∧
    (∀ slot, x.swOpen = false ∨ x.outNoRetry = true → exec (.hopRetryBlink r slot) s = .next s))

/-- HEADER_ADMISSION judges the oldest header that waits, by the Beat in which it arrived: with room it gets the next number,
one in-flight entry, two slots after its arrival, and
its credits, and its flits are collected; without, the stream is marked refused and counted, and nothing else changes.
STREAM_TIMEOUT and PACKET_COMPLETE. A stream short of flits 4 Beats after its last one gets CRC_FAIL, cause 3; sooner
it stays. A whole packet with a good CRC-32C that passes Table 6.5 is ready for its command once its input queue has room; one
with a bad CRC gets
CRC_FAIL, cause 1, and executes nothing; one that a check fails gets that check's reply. Each CRC_FAIL is counted.
It says where these complete: HEADER_ADMISSION, STREAM_TIMEOUT, PACKET_COMPLETE. -/
def Obligations.StreamsAndPackets : Prop :=
  (∀ (s : State) (r : Ring) (slot b : Nat) (f : Flit) (rest : List (Nat × Nat × Flit)),
    (s.ring r).heads = (slot, b, f) :: rest → s.openStream r f.src f.stream = none →
    (s.ring r).refusedStreams = [] →
    let rq := reqOfBytes f.content (.ring r) f.src
    (s.refusal (s.kitOf rq) rq b = none → rq.len.toNat ≤ 4096 → ∃ t h, exec (.headerAdmission r) s = .next t ∧
      t.inflight = s.inflight ++ [h] ∧ h.rid = s.nextRid ∧ h.rq = rq ∧ h.kit = s.kitOf rq ∧ h.stream = f.stream ∧
      h.stage = .streaming ∧ h.flits = 1 ∧ h.bytes = f.content ∧ h.admBeat = (b + (slot + 2) / 32) % 2 ^ 48 ∧
      h.slot = (slot + 2) % 32 ∧
      h.credits = creditsFor rq ∧ t.nextRid = s.nextRid + 1 ∧ (t.ring r).heads = rest ∧
      (∀ k, s.kitOf rq = some k → (t.kit k).taken = (s.kit k).taken + creditsFor rq) ∧ t.replies = s.replies ∧
      SameStores s t) ∧
    (∀ why, s.refusal (s.kitOf rq) rq b = some why → ∃ t, exec (.headerAdmission r) s = .next t ∧ t.inflight = s.inflight ∧
      t.kits = s.kits ∧ t.nextRid = s.nextRid ∧ (t.ring r).heads = rest ∧
      (t.ring r).refusedStreams = [(f.src, f.stream)] ∧ (t.ring r).refusedCt = min ((s.ring r).refusedCt + 1) 65535 ∧
      t.replies = s.replies ∧ SameStores s t)) ∧
  (∀ (s : State) (r : Ring) (src : Node) (stream : BitVec 3) (f : InFlight),
    let failed := fun (i : Instr) (cause : Nat) => ∃ t, exec i s = .next t ∧
      Replied s t f.rid f.rq 0x33 (cause + 256 * f.flits) [] ∧ SameStores s t ∧ t.pages = s.pages ∧
      t.gen.e2eFail = min (s.gen.e2eFail + 1) (2 ^ 32 - 1)
    let whole := { f.rq with payload := (f.bytes.drop 16).take (payloadLen f.rq.opc.toNat f.rq.len.toNat) }
    (s.openStream r src stream = some f →
      (s.mode.traffic = true → s.calMore 4 = true → 4 ≤ elapsed f.lastFlit s.bar.beatno →
        failed (.streamTimeout r src stream) 3) ∧
      (elapsed f.lastFlit s.bar.beatno < 4 ∨ s.mode.traffic = false → exec (.streamTimeout r src stream) s = .next s)) ∧
    (s.streamAt r src stream true = some f →
      (f.crcOk = false → failed (.packetComplete r src stream) 1) ∧
      (f.crcOk = true → s.check f.admBeat f.kit whole = none → s.queued (viaPort (.ring r)).val < 64 →
        ∃ t, exec (.packetComplete r src stream) s = .next t ∧ t.replies = s.replies ∧ SameStores s t ∧
          t.inflight = s.inflight.map (fun x => if x.rid = f.rid then { x with rq := whole, stage := .ready } else x)) ∧
      (f.crcOk = true → s.check f.admBeat f.kit whole = none → 64 ≤ s.queued (viaPort (.ring r)).val →
        exec (.packetComplete r src stream) s = .next s) ∧
      (∀ a, f.crcOk = true → s.check f.admBeat f.kit whole = some a →
        ∃ t, exec (.packetComplete r src stream) s = .next t ∧ SameStores s t ∧ t.pages = s.pages ∧
          Replied s t f.rid whole a.status a.detail a.payload)) ∧
    (s.streamAt r src stream true = none → exec (.packetComplete r src stream) s = .next s))

/-- A slot into which the device may put a reply (05 R113, R131). -/
def ReplySlot (s : State) (r : Ring) (slot : BitVec 5) : Prop :=
  OpenSlot s r slot ∧ (s.ring r).replySlot slot.toNat = true

/-- READ_REPLY_RELEASE sends one flit of the oldest reply whose mark has come, STRICT_REPLY_RELEASE one of the oldest
whose release Beat has come in its Kit's own position; with its last flit the reply has left: its entry is free and
the packet stands among those sent, and the REDO units of an early one are counted. Before the mark, or the release Beat,
nothing changes. A
reply waits while a request of the same ring and Kit with a page in common, admitted before it, has no reply yet.
EARLY_TRAILER: once the flits before it have left, the trailer and the REDO units of an early reply join what it sends;
before that nothing changes.
It says where these complete: READ_REPLY_RELEASE, STRICT_REPLY_RELEASE, EARLY_TRAILER. -/
def Obligations.RepliesLeave : Prop :=
  (∀ (s : State) (r : Ring) (slot : BitVec 5) (p : Reply) (n : BitVec 3), ReplySlot s r slot → s.replies = [p] →
    p.rq.via = .ring r → p.trailer = false → s.streamOf r p.strm = some n →
    let all := if p.early then (p.len + 36 + 72 * p.redo.length + 59) / 60 else flitsFor p.len
    p.flitsOut < all →
    let now := s.bar.beatno * 32 + slot.toNat
    let out := fun (i : Instr) => ∃ t, exec i s = .next t ∧ SameStores s t ∧ t.kits = s.kits ∧
      (p.flitsOut + 1 < all → t.replies = [{ p with flitsOut := p.flitsOut + 1, strm := some n }] ∧ t.sent = s.sent ∧
        t.inflight = s.inflight ∧ t.redoSent = s.redoSent) ∧
      (p.flitsOut + 1 = all → t.replies = [] ∧ (∀ x, x ∈ t.inflight ↔ x ∈ s.inflight ∧ x.rid ≠ p.rid) ∧
        t.redoSent = (if p.early then min (s.redoSent + p.redo.length) (2 ^ 32 - 1) else s.redoSent) ∧
        ∃ k, t.sent = k :: s.sent ∧ k.payload = p.payload ∧ k.crc = crc32c (leBytes 16 k.hdr.toNat ++ p.payload) ∧
          k.hdr = replyHdr p.rq (s.ring r).nodeId (r == .b) p.early p.status.toNat p.cond.toNat p.detail.toNat p.len)
    let free := ∀ f ∈ s.inflight, f.rid < p.rid → ordered f.kit p.kit f.rq p.rq = false
    (p.release = none → slotReached p.mark now = true → free → out (.readReplyRelease r slot)) ∧
    (∀ f ∈ s.inflight, f.rid < p.rid → ordered f.kit p.kit f.rq p.rq = true → p.flitsOut = 0 → p.ran = true →
      exec (.readReplyRelease r slot) s = .next s ∧ exec (.strictReplyRelease r slot) s = .next s) ∧
    (p.mark ≠ 0 → slotReached p.mark now = false → exec (.readReplyRelease r slot) s = .next s) ∧
    (∀ b k m, p.release = some b → reached b s.bar.beatno = true → p.kit = some k → posOf slot.toNat = some m → free →
      (s.kit k).replypos.getLsbD (m + (if r = .b then 8 else 0)) = true → out (.strictReplyRelease r slot)) ∧
    (∀ b, p.release = some b → s.gen.active = true → reached b s.bar.beatno = false → exec (.strictReplyRelease r slot) s = .next s ∧
      exec (.readReplyRelease r slot) s = .next s)) ∧
  (∀ (s : State) (r : Ring) (p : Reply), s.replies = [p] → p.rq.via = .ring r → p.trailer = true →
    ((16 + p.len) / 60 ≤ p.flitsOut → exec (.earlyTrailer r) s
      = .next { s with replies := [{ p with payload := p.payload ++ p.tail s.cond, trailer := false }] }) ∧
    (p.flitsOut < (16 + p.len) / 60 → exec (.earlyTrailer r) s = .next s))

/-- REQUEST_TIMEOUT: a request without a reply GEN_REQTO Bars after its admission sets GEN_EVENTS.WEDGE and queues one
WEDGE record, without a reply yet; before the bound, and for a write whose Kit's held Strokes still fall, nothing changes.
WEDGE_REPLY then gives INTERNAL with the switch
port and where the record went, and names the block. DEVICE_PACKET_REFUSED: a device packet that comes back is sent
again from the second Beat on; with its eighth refusal it is discarded and counted, and a PUSH sets RUD_EVENTS bit 1. A
packet of which only the first flits had left begins anew, one refusal further. A slot that no packet of
the device matches changes nothing.
It says where these complete: REQUEST_TIMEOUT, WEDGE_REPLY, DEVICE_PACKET_REFUSED. -/
def Obligations.LateRequestsAndRefusedPackets : Prop :=
  (∀ (s : State) (f : InFlight), s.findReq f.rid = some f → f.stage ≠ .replied →
    (f.stage ≠ .late → s.mode.traffic = true → s.calMore 4 = true → s.inBound f.rid = false →
      s.gen.reqTo * 1024 + f.stood ≤ elapsed f.admBeat s.bar.beatno →
      ∃ t g, exec (.requestTimeout f.rid) s = .next t ∧ (t.ev .gen).bits = (s.ev .gen).bits ||| 0x01 ∧
        t.findReq f.rid = some g ∧ g.stage = .late ∧ g.rq = f.rq ∧ (64 ≤ s.bel.logq.length → g.wedge = some (0, 2)) ∧
        t.replies = s.replies ∧ SameStores s t ∧ t.pages = s.pages ∧
        (s.bel.logq.length < 64 → ∃ x, t.bel.logq = s.bel.logq ++ [x] ∧ x.code = 0x0701 ∧ x.rid = some f.rid ∧
          x.arg = portOf f.rq.opc.toNat)) ∧
    (elapsed f.admBeat s.bar.beatno < s.gen.reqTo * 1024 + f.stood ∨ s.inBound f.rid = true →
      exec (.requestTimeout f.rid) s = .next s) ∧
    (∀ num w, f.wedge = some (num, w) → ∃ t, exec (.wedgeReply f.rid) s = .next t ∧ SameStores s t ∧
      Replied s t f.rid f.rq 0x60 (portOf f.rq.opc.toNat + 65536 * (num % 65536) + 2 ^ 32 * w) [] ∧
      t.wedgedPorts.getLsbD (portOf f.rq.opc.toNat) = true) ∧
    (f.wedge = none → exec (.wedgeReply f.rid) s = .next s)) ∧
  (∀ (s : State) (p : DevPkt), s.devq = [p] → p.seq < 65536 →
    let i := Instr.devicePacketRefused p.ring p.dest (BitVec.ofNat 16 p.seq)
    let again := fun (n : Nat) => { p with
      waiting := true, tries := n, flitsOut := 0, strm := none, notBefore := (s.bar.beatno + 2) % 2 ^ 48 }
    (p.waiting = false → p.flitsOut = 0 → p.tries < 8 → exec i s = .next { s with devq := [again p.tries] }) ∧
    (p.flitsOut ≠ 0 → p.tries + 1 < 8 → exec i s = .next { s with devq := [again (p.tries + 1)] }) ∧
    (p.waiting = false → p.flitsOut = 0 → 8 ≤ p.tries → ∃ t, exec i s = .next t ∧
      t.gen.txDrop = min (s.gen.txDrop + 1) (2 ^ 32 - 1) ∧ (p.opc ≠ 0x72 → t.devq = []) ∧
      (p.opc = 0x72 → (t.ev .rud).bits = (s.ev .rud).bits ||| 0x02 ∧ ∀ q ∈ t.devq, q.opc = 0x71) ∧ SameStores s t) ∧
    (∀ n q, n ≠ p.dest → exec (.devicePacketRefused p.ring n q) s = .next s))

/-! ### Ring time and the calendar (02 R37 to R55; 03 R65 to R85; 09 R242; 13 R343; 19 R459; 20 R478 to R482) -/

/-- The budgets of Tables 1.7 and 3.3: Strokes per Beat at each rate code, and E. A Beat's allocation issues and
leaves exactly its budget between them, whatever demands stand, in Strict Tempo or not; maintenance issues no more
than its reserve before slack. BEAT_BOUNDARY. In a mode that serves traffic, on slots and with no rate change, the
count moves on by one Beat and a Beat without a valid marker is counted as missed (no beat source). In a mode that does not count
Beats, and for a boundary of the wrong base while the house oscillator counts, nothing changes; a valid Downbeat is
left to the row of that name. In Rest a Bar does not begin without a Downbeat: the count holds.
It says where these complete: BEAT_BOUNDARY. -/
def Obligations.BeatsAndBudgets : Prop :=
  ([0, 1, 2, 3, 4].map Config.ringBudget = [160, 160, 160, 160, 128] ∧
  [0, 1, 2, 3, 4].map Config.extrapBudget = [160, 160, 160, 155, 124] ∧ Config.houseBudget = 144) ∧
  (∀ (strict : Bool) (budget reserve start : Nat) (ds : List KDem) (mg : List Grp),
    let a := allocate strict budget reserve start ds mg
    a.issued + a.left = budget ∧ costOf a.maint ≤ reserve) ∧
  (∀ (s : State) (m : Option Marker) (q : Nat), s.bar.beatsrc = false → s.gongDue = none →
    let n := (s.bar.beatno + 1) % 2 ^ 48
    let down := ∃ x, m = some x ∧ markerDown x s.bar.rate = true
    (s.mode = .run ∨ s.mode = .degraded → s.completing = false → s.bar.hold = false → s.bar.retrain = false →
      s.closing = none → ¬ down → ∃ t, exec (.beatBoundary (.slots q) m) s = .next t ∧ t.bar.beatno = n ∧
        t.bar.epoch = (if n = 0 then (s.bar.epoch + 1) % 65536 else s.bar.epoch) ∧
        ((∀ x, m = some x → markerValid x s.bar.rate = false) → t.bar.missed = min (s.bar.missed + 1) (2 ^ 32 - 1)) ∧
        ((∃ x, m = some x ∧ markerValid x s.bar.rate = true) → t.bar.missed = min s.bar.missed (2 ^ 32 - 1)) ∧
        t.bar.lastMbar = s.bar.lastMbar ∧ t.bar.rate = s.bar.rate) ∧
    (down → exec (.beatBoundary (.slots q) m) s = .next s) ∧
    (s.completing = false → s.mode.timed = false → exec (.beatBoundary (.slots q) m) s = .next s ∧
      exec (.beatBoundary .oscillator m) s = .next s) ∧
    (s.completing = false → s.bar.hold = false → (s.mode = .freewheel ∨ s.bar.retrain = true) →
      exec (.beatBoundary (.slots q) m) s = .next s) ∧
    (s.completing = false → s.mode = .rest → s.bar.hold = false → s.bar.retrain = false → s.bar.beatno % 1024 = 1023 →
      exec (.beatBoundary .oscillator m) s = .next { s with bar := { s.bar with hold := true } }))

/-- DOWNBEAT of a valid Downbeat whose Bar number is D ahead of the last one's, 1 ≤ D < 2^31: BEATNO becomes Beat 0 of
the later of the last Downbeat's Bar plus D and the next Bar, BAR_SLIP_BARS grows by what that exceeds the master's,
the count of lost Beats is 0, and Free-wheel is over. A marker that is no valid Downbeat changes nothing; in Join a valid one
brings the reply-only positions of the last SLOTMAP into force (05 R124).
RING_B_DOWNBEAT: the first valid Downbeat of Ring B is measured; a later one within 4 slots of it changes nothing
else, one farther away sets BAR_EVENTS.BDRIFT. RING_B_DOWNBEAT_LOSS after 2 Bars without one sets it too.
FREEWHEEL_ENTRY after 2,048 Beats without a valid Downbeat: the mode is Free-wheel in its first Bar, BAR_EVENTS.LOSTDB
is set and its ALERT queued on each ring that carries slots and has a node for it. Sooner, and at the beat source,
nothing changes.
It says where these complete: DOWNBEAT, RING_B_DOWNBEAT, RING_B_DOWNBEAT_LOSS, FREEWHEEL_ENTRY. -/
def Obligations.DownbeatsAlignRingTime : Prop :=
  (∀ (s : State) (m : Marker) (permille : Nat), s.completing = false → s.gongDue = none →
    (∀ x, s.mode = .run ∨ s.mode = .degraded ∨ s.mode = .freewheel → s.bar.beatsrc = false → s.bar.retrain = false → s.bar.rateNext = none →
      s.closing = none → markerDown m s.bar.rate = true → s.bar.lastMbar = some x →
      let d := (m.mbar - x).toNat
      let master := s.bar.lastDbBar + d
      let bar := max master (s.bar.beatno / 1024 + 1)
      1 ≤ d → d < 2 ^ 31 → s.bar.lastDbBar ≤ s.bar.beatno / 1024 → bar < 2 ^ 38 →
      ∃ t, exec (.downbeat m permille) s = .next t ∧ t.bar.beatno = bar * 1024 ∧ t.bar.lost = 0 ∧
        t.bar.lastMbar = some m.mbar ∧ t.bar.lastDbBar = bar ∧ t.bar.hold = false ∧ t.bar.onOsc = false ∧
        t.bar.slipBars = min (s.bar.slipBars + (bar - master)) (2 ^ 32 - 1) ∧ t.bar.epoch = s.bar.epoch ∧
        (s.mode = .freewheel → t.mode = .run ∨ t.mode = .degraded)) ∧
    (markerDown m s.bar.rate = false ∨ s.bar.beatsrc = true ∨ s.mode.timed = false ∧ s.mode ≠ .join ∨
      s.mode.timed = true ∧ s.bar.retrain = true → exec (.downbeat m permille) s = .next s) ∧
    (markerDown m s.bar.rate = true → s.bar.beatsrc = false → s.mode = .join → exec (.downbeat m permille) s
      = .next { s with ringA := s.ringA.ownersDown, ringB := s.ringB.ownersDown })) ∧
  (∀ (s : State) (m : Marker) (off : BitVec 16),
    let s1 := { s with bar := { s.bar with bLost := 0 }, ringB := { s.ringB with slots := true } }
    let near := (wrapSlots (off.toInt - s.bar.bOffset.toInt)).natAbs ≤ 4
    (s.mode.onRing = true → s.ringB.joined = true → s.bar.beatsrc = false → markerDown m s.bar.rate = true →
      (s.bar.bvalid = false → exec (.ringBDownbeat m off) s
        = .next { s1 with bar := { s1.bar with bOffset := off, bvalid := true } }) ∧
      (s.bar.bvalid = true → near → exec (.ringBDownbeat m off) s = .next s1) ∧
      (s.bar.bvalid = true → ¬ near → exec (.ringBDownbeat m off) s = .next (s1.raise .bar 0x08))) ∧
    (s.ringB.joined = false → exec (.ringBDownbeat m off) s = .next s ∧ exec .ringBDownbeatLoss s = .next s) ∧
    (s.mode.timed = true → s.ringB.joined = true → 2 ≤ s.bar.bLost →
      exec .ringBDownbeatLoss s = .next (State.raise { s with bar := { s.bar with bLost := 0 } } .bar 0x08))) ∧
  (∀ (s : State), s.mode = .run ∨ s.mode = .degraded → s.completing = false →
    (2048 ≤ s.bar.lost → s.bar.beatsrc = false → ∃ t, exec .freewheelEntry s = .next t ∧ t.mode = .freewheel ∧
      t.bar.fwBars = 1 ∧ t.bar.beatno = s.bar.beatno ∧ (t.ev .bar).bits = (s.ev .bar).bits ||| 0x01 ∧
      (s.ringA.carries = true → s.gen.alertA ≠ 0x1F → ∃ p ∈ t.devq, p.opc = 0x73 ∧ p.ring = .a ∧ p.dest = s.gen.alertA) ∧
      SameStores s t) ∧
    (s.bar.lost < 2048 ∨ s.bar.beatsrc = true → exec .freewheelEntry s = .next s))

/-- SENSOR_SAMPLE in ring time, every sensor in use. A field reading above 4.20 mT calls for write hold from the next
Beat on, one above 11.70 mT sets RDFIELD; the sixteenth calm sample in a row ends write hold and starts the scrub
boost, an earlier one does not. A temperature above 105 °C sets TEMPHI. Between samples nothing changes.
It says where these complete: SENSOR_SAMPLE. -/
def Obligations.SensorSample : Prop :=
  ∀ (s : State) (temps : List (BitVec 12)) (fields : List (List (BitVec 12))),
    temps.length = 16 → fields.length = 11 → (∀ l ∈ fields, l.length = 4) →
    (s.sampleDue = false → exec (.sensorSample temps fields) s = .next s) ∧
    (s.mode.timed = true → s.bar.beatno % 256 = 0 → s.bar.hold = false → s.calOnce 3 = true → s.pwr.tempExcl = 0 →
      (∀ d : Fin 11, s.pwr.fieldExcl[d] = 0) → ∃ t, exec (.sensorSample temps fields) s = .next t ∧ SameStores s t ∧
        t.bar = { s.bar with cal := 3 } ∧ t.hold = s.hold ∧ t.pwr.fieldValid = true ∧ t.pwr.tempValid = 0xFFFF ∧
        (∀ i : Fin 16, t.pwr.temp[i] = temps.getD i.val 0) ∧
        ((∃ l ∈ fields, ∃ v ∈ l, 420 < v.toNat) → t.pwr.wrholdNext = true ∧ t.pwr.wrhold = s.pwr.wrhold) ∧
        ((∃ l ∈ fields, ∃ v ∈ l, 1170 < v.toNat) → t.pwr.rdfield = true ∧
          (s.pwr.rdfield = false → (t.ev .pwr).bits.getLsbD 1 = true)) ∧
        ((∀ l ∈ fields, ∀ v ∈ l, v.toNat ≤ 380) → s.pwr.wrholdNext = true → s.pwr.calmW = 15 →
          t.pwr.wrholdNext = false ∧ t.pwr.wrhold = false ∧ t.ecc.boostTo = some ((s.bar.beatno / 1024 + 1024) % 2 ^ 38)) ∧
        ((∀ l ∈ fields, ∀ v ∈ l, v.toNat ≤ 380) → s.pwr.wrholdNext = true → s.pwr.calmW < 15 →
          t.pwr.wrholdNext = true ∧ t.pwr.wrhold = s.pwr.wrhold ∧ t.pwr.calmW = s.pwr.calmW + 1) ∧
        ((∃ v ∈ temps, 840 < v.toInt) → t.pwr.temphi = true ∧
          (s.pwr.temphi = false → (t.ev .pwr).bits.getLsbD 2 = true)))

/-- SCRUB_STEP at Beat 16 of a Bar: the accumulator takes the rate, boosted while write hold was set within 1,024
Bars; where it reaches a whole chord and maintenance has a token, once in the Beat, the chord at the cursor is read and the cursor moves
past it. At any other Beat, and with NOSCRUB, nothing changes. HEAT_DECAY: every page's heat is shifted right once for
each decay due, 0 past 16 places, and where no pass follows nothing else changes. With none due nothing changes.
MEASURE_END where the Bar has passed a multiple of 4,096: each die's mean wear of the Measure stands in STK_WEAR and
its counts start at 0, a mean above the threshold sets STK_EVENTS.WEAR unless the Measure began at first use, the
chunks that the refresh rewrote are reported, and the scrub cursor is saved. Within the Measure nothing changes.
It says where these complete: SCRUB_STEP, HEAT_DECAY, MEASURE_END. -/
def Obligations.CalendarSteps : Prop :=
  (∀ (s : State),
    let a := s.ecc.acc + s.ecc.rate * s.scrubFactor
    (s.mode.timed = true → s.bar.hold = false → s.bar.beatno % 1024 = 16 → s.gen.dbg.getLsbD 2 = false → s.ecc.due = 0 →
      s.calOnce 5 = true →
      (a < 2 ^ 16 → exec .scrubStep s = .next { s.calRan 5 with ecc := { s.ecc with acc := a } }) ∧
      (2 ^ 16 ≤ a → a < 2 ^ 17 → s.entryAt s.ecc.cur = false → 0 < s.stk.tokMaint → s.ecc.cur + 1 < 2 ^ 28 →
        ∃ t, exec .scrubStep s = .next t ∧ t.ecc.acc = a - 2 ^ 16 ∧ t.ecc.due = 0 ∧ t.ecc.cur = s.ecc.cur + 1 ∧
          t.stk.tokMaint = s.stk.tokMaint - 1 ∧ SameStores s t)) ∧
    ((s.mode.timed = false ∨ s.bar.hold = true ∨ s.bar.beatno % 1024 ≠ 16 ∨ s.calOnce 5 = false ∨
      s.gen.dbg.getLsbD 2 = true) →
      exec .scrubStep s = .next s)) ∧
  (∀ (s : State), s.mode.traffic = true →
    (0 < s.decaysDue → s.decaysDue < 2 ^ 29 → s.calOnce 8 = true → (s.tier.warm = true ∨ s.tier.noauto = true) →
      exec .heatDecay s = .next { s.calRan 8 with
        pages := s.pages.map fun p =>
          { p with heat := if 16 ≤ s.tier.decay * s.decaysDue then 0 else p.heat / 2 ^ (s.tier.decay * s.decaysDue) },
        tier := { s.tier with lastDecay := decaysTo s.bar.beatno } }) ∧
    (s.decaysDue = 0 → exec .heatDecay s = .next s)) ∧
  (∀ (s : State), s.mode.timed = true → s.bar.hold = false →
    let mean := fun (d : Fin 11) => if s.stk.writes[d] = 0 then s.stk.wear[d]
      else min 65535 ((2 * 256 * s.stk.pulses[d] + s.stk.writes[d]) / (2 * s.stk.writes[d]))
    (s.bar.beatno / (1024 * 4096) = s.stk.measure → exec .measureEnd s = .next s) ∧
    (s.bar.beatno / (1024 * 4096) ≠ s.stk.measure → (∀ d, mean d ≤ s.rep.wearDie) → ∃ t, exec .measureEnd s = .next t ∧
      t.stk.measure = s.bar.beatno / (1024 * 4096) ∧ (∀ d : Fin 11, t.stk.wear[d] = mean d) ∧
      (∀ d : Fin 11, t.stk.pulses[d] = 0 ∧ t.stk.writes[d] = 0) ∧
      ((∃ d, s.stk.wearThr < mean d) → s.stk.firstUse = false → (t.ev .stk).bits.getLsbD 0 = true) ∧
      t.bel.weakLast = s.bel.weakNow ∧ t.bel.weakNow = 0 ∧ RecId.scrub ∈ t.bel.recq ∧
      t.deep.measure = (0, 0, 0) ∧ t.ecc.saved = (s.ecc.cur, s.ecc.acc,
        s.ecc.sweepBars0 + (s.bar.beatno / 1024 + 2 ^ 38 - s.ecc.sweepFrom) % 2 ^ 38) ∧ SameStores s t))

/-! ### Provisional writes (11 R281 to R299; 13 R328 to R338) -/

/-- READ of a chord with one pending write: the Kit that writes sees the new bytes, in the Beat of an acceptance what the
chord was before it,
every other Kit the pre-image until the outcome, POISONED where the pre-image is poisoned.
It says where these complete: READ. -/
def Obligations.ReadersOfAPendingWrite : Prop :=
  ∀ (s s1 : State) (rq : Req) (j : Job) (a : Nat) (w : Window) (e : WEntry), s.taken rq = some (j, s1) →
    (Instr.read rq).wf = true → rq.len ≠ 0 → chordsOf (addrOf rq) rq.len.toNat = [a] → s1.findRead j.rid = none →
    s1.windowAt j.kit a = some w →
    let o := w.owner j.kit a
    let cut := fun (d : List Byte) => (d.drop (addrOf rq % 64)).take rq.len.toNat
    (s1.kit o.1).keylost = false → s1.entriesOf o.1 o.2 = [e] → e.phase ≠ .merging → s1.mergeOf o.1 o.2 = none →
    (o.1 = j.kit → (∀ x ∈ s1.priors, ¬ (x.1 = o.1 ∧ x.2.1 = o.2)) → ∃ t, exec (.read rq) s = .next t ∧
      Replied s1 t j.rid rq 0x00 0 (cut e.data) ∧ t.hold = s1.hold ∧ SameStores s1 t) ∧
    (∀ d, o.1 = j.kit → s1.priors = [(o.1, o.2, .val d)] → ∃ t, exec (.read rq) s = .next t ∧
      Replied s1 t j.rid rq 0x00 0 (cut d) ∧ t.hold = s1.hold ∧ SameStores s1 t) ∧
    (∀ d, o.1 ≠ j.kit → e.pre = .have (some d) → ∃ t, exec (.read rq) s = .next t ∧
      Replied s1 t j.rid rq 0x00 0 (cut d) ∧ t.hold = s1.hold ∧ SameStores s1 t) ∧
    (o.1 ≠ j.kit → e.pre = .have none → ∃ t, exec (.read rq) s = .next t ∧
      Replied s1 t j.rid rq 0x40 (a % 2 ^ 39 + 2 ^ 40) (cut (zeros 64)) ∧ t.hold = s1.hold ∧ SameStores s1 t)

/-- CHORD_VERIFY of a data chord two Beats after its pulse. With every pulsed slice good the chord is confirmed: its
ten slices, of its data under the Kit's key (08 R215), stand in the array, every other byte of it is as before, and the entry is free. With slices that fail
before the seventh pulse those alone are retried, three Beats after the pulse. With two or more failing after the
seventh, or one with a die of the chord out of service, it is recanted: counted for the Kit, PROV_EVENTS.RECANT set,
and a poison marker queued.
It says where these complete: CHORD_VERIFY. -/
def Obligations.ChordVerify : Prop :=
  ∀ (s : State) (e : WEntry) (k : Kit) (p : Nat) (failing : Slices), s.hold = [e] → e.kind = .data → e.payer = some k →
    e.phase = .pulsed p → s.knl.running = false → s.waits = [] → e.data.length = 64 → cellsWf s.mram = true →
    let c := e.chord.toNat
    let bad := (failing ||| s.silentMask c) &&& e.slices &&& s.pulsable c
    let at_ := fun r => sliceAddr (s.rep.physAt r c) c
    (reached ((p + 2) % 2 ^ 48) s.bar.beatno = false → exec (.chordVerify e.ent failing) s = .next s) ∧
    (reached ((p + 2) % 2 ^ 48) s.bar.beatno = true → bad = 0 → (∀ r, r < 10 → s.roleOut c r = false) →
      (∀ r q, r < 10 → q < 10 → s.rep.physAt r c = s.rep.physAt q c → r = q) → s.fullMask c = 0x3FF →
      ∃ t, exec (.chordVerify e.ent failing) s = .next t ∧ t.hold = [] ∧
        t.rawChord c = encodeChord (s.sealed k e.kaddr e.data) ∧
        (∀ a, (∀ r, r < 10 → a < at_ r ∨ at_ r + 8 ≤ a) → cellGet t.mram a = cellGet s.mram a) ∧
        t.provConfirmed = min (s.provConfirmed + 1) (2 ^ 32 - 1) ∧ t.deep.nand = s.deep.nand ∧ t.bel.mem = s.bel.mem) ∧
    (reached ((p + 2) % 2 ^ 48) s.bar.beatno = true → bad ≠ 0 → e.pulses < 7 →
      exec (.chordVerify e.ent failing) s
        = .next { s with hold := [{ e with slices := bad, phase := .retry ((p + 3) % 2 ^ 48) }] }) ∧
    (reached ((p + 2) % 2 ^ 48) s.bar.beatno = true → bad ≠ 0 → 7 ≤ e.pulses →
      (2 ≤ sliceCount bad ∨ s.dieOutAt c = true) → ∃ t, exec (.chordVerify e.ent failing) s = .next t ∧ t.hold = [] ∧
        (t.kit k).krectot = min ((s.kit k).krectot + 1) (2 ^ 32 - 1) ∧ (t.ev .prov).bits.getLsbD 0 = true ∧
        e.chord ∈ t.ecc.markq ∧
        t.provRecanted = min (s.provRecanted + 1) (2 ^ 32 - 1))

/-- CHORD_ACCEPT of a Kit with one write waiting at its last chord, whole and in Main: with room in the share and an
entry free it is held, the write is answered OK_PROVISIONAL with this BEATNO; with no room nothing changes.
PRE_IMAGE_CAPTURE of an entry whose capture is due reads the stored chord, in the clear, for the token that acceptance took
where it comes from the array; before its Beat nothing changes. MERGE_ENTRY_TIMEOUT of an entry open for 8 Beats: with every
byte written, or with the chord's value at hand, it closes into a held chord with its bytes laid over that value;
sooner, and for an index not in use, nothing changes. RMW_MERGE lays the written bytes over the Kit's view of the
chord, and the entry waits for its pulse; over a poisoned chord the write is recanted with no pulse.
It says where these complete: CHORD_ACCEPT, PRE_IMAGE_CAPTURE, MERGE_ENTRY_TIMEOUT, RMW_MERGE. -/
def Obligations.WriteAcceptance : Prop :=
  (∀ (s : State) (k : Kit) (jb : WriteJob) (u : WUnit) (p : Page) (c : Nat), s.jobs = [jb] → jb.kit = k → jb.todo = [u] →
    jb.rq.sync = false → jb.replied = false → jb.cutAt = none → u.mask = BitVec.allOnes 64 →
    s.hold.all (fun e => !e.rids.contains jb.rid) = true → s.findPage k (kpOf u.kaddr) = some p → p.frame.isSome = true →
    p.zero.getLsbD (secOf u.kaddr).toNat = false → s.locate k u.kaddr = .main c → s.merges = [] →
    AwaitsReply s jb.rid jb.rq →
    (s.shareFits k (s.chordCost c) = true → s.entriesFree 1 = true → ∃ t e, exec (.chordAccept k) s = .next t ∧
      t.hold = s.hold ++ [e] ∧ e.kind = .data ∧ e.payer = some k ∧ e.data = u.data ∧ e.kaddr = u.kaddr ∧
      e.chord = BitVec.ofNat 28 c ∧ e.rids = [jb.rid] ∧ e.accepted = s.bar.beatno ∧ e.phase = .waiting ∧
      Replied s t jb.rid jb.rq 0x01 s.bar.beatno [] ∧ SameStores s t) ∧
    (s.shareFits k (s.chordCost c) = false ∨ s.entriesFree 1 = false → exec (.chordAccept k) s = .next s)) ∧
  (∀ (s : State) (e : WEntry) (k : Kit) (b : Nat), s.hold = [e] → e.pre = .due b → e.payer = some k → e.kind = .data →
    (reached b s.bar.beatno = false → exec (.preImageCapture e.ent) s = .next s) ∧
    (∀ d, reached b s.bar.beatno = true → s.stored k e.kaddr = .val d →
      exec (.preImageCapture e.ent) s = .next { s with hold := [{ e with pre := .have (some d) }] }) ∧
    (∀ c m ov d, reached b s.bar.beatno = true → s.stored k e.kaddr = .array c m ov →
      (s.decodeOf k e.kaddr c).value = some d → ∃ t, exec (.preImageCapture e.ent) s = .next t ∧
      t.hold = [{ e with pre := .have (some d) }] ∧ t.stk = s.stk ∧ t.kits = s.kits ∧ SameStores s t)) ∧
  (∀ (s : State),
    (∀ (i : Fin 64), s.merge[i] = none → exec (.mergeEntryTimeout i) s = .next s) ∧
    (∀ (i : Fin 64) (m : MEntry), s.merge[i] = some m →
      (reached ((m.opened + 8) % 2 ^ 48) s.bar.beatno = false → exec (.mergeEntryTimeout i) s = .next s) ∧
      (∀ d, reached ((m.opened + 8) % 2 ^ 48) s.bar.beatno = true →
        (m.mask = BitVec.allOnes 64 ∧ d = m.data ∨
          m.mask ≠ BitVec.allOnes 64 ∧ s.hold = [] ∧ s.justOut = [] ∧
            ∃ v, s.stored m.kit m.kaddr = .val v ∧ d = overlay m.mask m.data v) →
        ∃ t e, exec (.mergeEntryTimeout i) s = .next t ∧ t.merge = s.merge.set i none ∧ t.hold = s.hold ++ [e] ∧
          e.kind = .data ∧ e.payer = some m.kit ∧ e.kaddr = m.kaddr ∧ e.chord = m.chord ∧ e.data = d ∧ e.rids = m.rids ∧
          e.phase = .waiting ∧ SameStores s t)) ∧
    (∀ (e : WEntry) (k : Kit), s.hold = [e] → e.phase = .merging → e.payer = some k →
      (∀ v, s.rmwView e k = .val v → ∃ t p, exec (.rmwMerge e.ent) s = .next t ∧ SameStores s t ∧
        t.hold = [{ e with data := overlay e.mask e.data v, phase := .waiting, accepted := s.bar.beatno, pre := p }]) ∧
      (∀ c m ov t0 d, s.rmwView e k = .array c m ov → s.kitToken k = some t0 → (t0.decodeOf k e.kaddr c).value = some d →
        ∃ t p, exec (.rmwMerge e.ent) s = .next t ∧ SameStores s t ∧ t.hold = [{ e with
          data := overlay e.mask e.data (overlay m ov d), phase := .waiting, accepted := s.bar.beatno, pre := p }]) ∧
      (s.rmwView e k = .poison → ∃ t, exec (.rmwMerge e.ent) s = .next t ∧ t.hold = [] ∧ SameStores s t ∧
        (t.kit k).krectot = min ((s.kit k).krectot + 1) (2 ^ 32 - 1))))

/-- The chord code: a chord whose ten slices are as written decodes clean, with its data. The chord code corrects one
slice: whatever eight bytes stand in one slice, or with one slice missing, the chord decodes to its data; the poison
marker decodes as a marker, poisoned. -/
def Obligations.ChordCodeCorrectsOneSlice : Prop :=
  (∀ (d : List Byte), d.length = 64 →
    (decodeChord [] (encodeChord d)).cls = .clean ∧ (decodeChord [] (encodeChord d)).value = some d) ∧
  ((∀ (d x : List Byte) (r : Nat), d.length = 64 → x.length = 8 → r < 10 →
    (decodeChord [] ((encodeChord d).set r x)).value = some d ∧
    (decodeChord [r] ((encodeChord d).set r (zeros 8))).value = some d) ∧
  (decodeChord [] markerSlices).marker = true ∧ (decodeChord [] markerSlices).poisoned = true)

/-- Bit errors that stand in base-die SRAM words are met at the start of a Beat, and none is left. A single-bit error
is corrected: it raises ECC_SRAM_SEC by 1 and changes nothing else. A double-bit error raises ECC_SRAM_DED by 1, and
what its word held is lost as Table 13.8 says: a Near line or block is invalidated and its row becomes an open fault, a
write-hold or merge entry leaves its buffer, a copy leaves the Rudiment store and the engines that run it halt with
FAULT 4; in the core's own SRAMs a Knell of cause 4 is due, with the structure and the word in its detail. No array cell changes but those of an entry already pulsed. -/
def Obligations.SramErrors : Prop :=
  ∀ (s : State),
    (s.sramErrors).soft = [] ∧
    (∀ w, State.sramMet ⟨w, false⟩ s = { s with ecc := { s.ecc with sramSec := min (s.ecc.sramSec + 1) (2 ^ 32 - 1) } }) ∧
    (∀ w, (State.sramMet ⟨w, true⟩ s).ecc.sramDed = min (s.ecc.sramDed + 1) (2 ^ 32 - 1)) ∧
    (∀ n w, State.sramMet ⟨.core n w, true⟩ s =
      let e := { s.ecc with sramDed := min (s.ecc.sramDed + 1) (2 ^ 32 - 1) }
      let k := { s.knl with due := s.knl.due ++ [(4, n + 256 * w)] }
      { s with ecc := e, knl := k }) ∧
    (∀ b l, (∀ x ∈ (State.sramMet ⟨.near b l, true⟩ s).near, x.blk = b → ∀ y ∈ x.lines, y.1 ≠ l) ∧
      nearFault b ∈ (State.sramMet ⟨.near b l, true⟩ s).rep.faults) ∧
    (∀ i : Fin 64, (State.sramMet ⟨.merge i, true⟩ s).merge[i] = none) ∧
    (∀ n, ∀ x ∈ (State.sramMet ⟨.holdData n, true⟩ s).hold, x.ent ≠ n) ∧
    (∀ e ∈ s.hold, e.pre ≠ .notNeeded → ∀ x ∈ (State.sramMet ⟨.holdPre e.ent, true⟩ s).hold, x.ent = e.ent →
      x.pre = .absent ∨ x.pre = .notNeeded) ∧
    (∀ k slot, (State.sramMet ⟨.store k slot, true⟩ s).copyOf k slot = none ∧
      ∀ e : Engine, (s.eng e).kit = k → (s.eng e).slot = slot → (s.eng e).live = true →
        ((State.sramMet ⟨.store k slot, true⟩ s).eng e).state = .halted ∧
        ((State.sramMet ⟨.store k slot, true⟩ s).eng e).fault = 4) ∧
    (∀ w, (∀ n, w ≠ .holdData n) → ∀ a, cellGet (State.sramMet ⟨w, true⟩ s).mram a = cellGet s.mram a)

/-! ### The Deep tier (10 R258 to R279; 09 R246, R247) -/

/-- PROMOTION_READ_DONE of one sector of a promotion. Good: its 64 chords, decrypted with the Kit's key and the sector's
tweak from what NAND holds, are queued for the Residency frame, and the sector is read. After a failed hard decode it is read again. Uncorrectable: it is counted
with DEEP_EVENTS.UNCORR, its map entry is poisoned and 64 poison markers are queued. Where no promotion reads the page
nothing changes. No stored byte changes. NAND_PROGRAM_DONE of a write-back of one sector. Good: the sector's confirmed
bytes, encrypted, stand at its new place in NAND and no other byte of NAND changes, the map names that place, the dirty bit is
clear unless the sector was written since, and the die is idle. Failed: nothing is stored, the map stays, and the
block is queued for retirement. NAND_ERASE_DONE. Good: the block is empty, unread and one erase older. Failed: it is
retired, and the reserve is one block smaller. On a die that erases nothing, nothing changes.
It says where these complete: PROMOTION_READ_DONE, NAND_PROGRAM_DONE, NAND_ERASE_DONE. -/
def Obligations.NandWork : Prop :=
  (∀ (s : State) (k : Kit) (kp : KPage) (m : Move) (p : Page) (x : BitVec 4) (e : DeepEnt), s.moves = [m] → m.kit = k →
    m.kp = kp → m.kind = .promote → m.entry = true → m.reads.getLsbD x.toNat = true → s.findPage k kp = some p →
    s.deep.find p.index x = some e →
    let at_ := fun (i : Nat) => BitVec.ofNat 28 (s.slotFrame m.dest * 1024 + (64 * x.toNat + i))
    let left := m.reads &&& ~~~ BitVec.ofNat 16 (2 ^ x.toNat)
    (∀ n : BitVec 8, e.poison = 0 → ∃ t qs, exec (.promotionReadDone k kp [(x, .good n)]) s = .next t ∧
      t.moves = [{ m with reads := left, retries := 0 }] ∧ t.chordq = s.chordq ++ qs ∧ qs.length = 64 ∧
      (∀ i, i < 64 → qs[i]? = some (.move k kp, some (s.movePayer m), kp.toNat * 65536 + 64 * (64 * x.toNat + i), at_ i,
        s.opened k (kp.toNat * 65536 + 4096 * x.toNat + 64 * i) (cellsRead s.deep.nand (e.loc * 4096 + 64 * i) 64))) ∧
      t.deep.map = s.deep.map ∧ SameStores s t) ∧
    (∃ t, exec (.promotionReadDone k kp [(x, .retry)]) s = .next t ∧ t.moves = [{ m with retries := min 7 (m.retries + 1) }] ∧
      t.chordq = s.chordq ∧ t.deep.map = s.deep.map ∧ SameStores s t) ∧
    (∃ t qs, exec (.promotionReadDone k kp [(x, .uncorrectable)]) s = .next t ∧
      t.moves = [{ m with reads := left, lost := m.lost ||| BitVec.ofNat 16 (2 ^ x.toNat), retries := 0 }] ∧
      t.chordq = s.chordq ++ qs ∧ qs.length = 64 ∧ (∀ q ∈ qs, q.1 = .marker) ∧
      t.deep.find p.index x = some { e with poison := BitVec.allOnes 64 } ∧ (t.ev .deep).bits.getLsbD 2 = true ∧
      t.deep.uncorr = min (s.deep.uncorr + 1) (2 ^ 32 - 1) ∧ SameStores s t) ∧
    (∀ kq rs, kq ≠ kp → exec (.promotionReadDone k kq rs) s = .next s)) ∧
  (∀ (s : State) (die : Fin 4) (k : Kit) (kp : KPage) (x : BitVec 4) (loc : Nat) (m : Move) (payer : Option Kit),
    (s.deep.dies[die]).busy = some (.program payer [(k, kp, x)] loc) → s.moves = [m] → m.kit = k → m.kp = kp →
    m.kind = .writeBack false → m.progs = BitVec.ofNat 16 (2 ^ x.toNat) → cellsWf s.deep.nand = true →
    let cs := s.sealedSector k kp x
    let bytes := (cs.map fun c => c.getD (zeros 64)).flatten
    (∃ t, exec (.nandProgramDone die true) s = .next t ∧ cellsRead t.deep.nand (loc * 4096) bytes.length = bytes ∧
      (∀ a, a < loc * 4096 ∨ loc * 4096 + bytes.length ≤ a → cellGet t.deep.nand a = cellGet s.deep.nand a) ∧
      t.deep.find m.dest x = some ⟨m.dest, x, loc, poisonMask cs⟩ ∧ (t.deep.dies[die]).busy = none ∧
      t.moves = [{ m with progs := 0 }] ∧
      t.pages = s.pages.map (fun p => if p.kit = k ∧ p.kp = kp then
        { p with dirty := p.dirty &&& ~~~ (BitVec.ofNat 16 (2 ^ x.toNat) &&& ~~~ p.redirty) } else p) ∧
      t.mram = s.mram ∧ t.bel.mem = s.bel.mem) ∧
    ((s.deep.blk (loc / 4096)).retired = false → ∃ t, exec (.nandProgramDone die false) s = .next t ∧
      t.deep.map = s.deep.map ∧ (t.deep.blk (loc / 4096)).retiring = true ∧ (t.deep.dies[die]).busy = none ∧
      t.pages = s.pages ∧ SameStores s t)) ∧
  (∀ (s : State) (die : Fin 4),
    (∀ b, (s.deep.dies[die]).busy = some (.erase b) →
      (∃ t, exec (.nandEraseDone die true) s = .next t ∧ (t.deep.blk b).fill = 0 ∧ (t.deep.blk b).reads = 0 ∧
        (t.deep.blk b).erases = min ((s.deep.blk b).erases + 1) 65535 ∧ (t.deep.blk b).refresh = none ∧
        (t.deep.dies[die]).busy = none ∧ t.deep.erases = min (s.deep.erases + 1) (2 ^ 32 - 1) ∧ SameStores s t) ∧
      ((s.deep.blk b).retired = false → ∃ t, exec (.nandEraseDone die false) s = .next t ∧
        (t.deep.blk b).retired = true ∧ t.deep.reserve = s.deep.reserve - 1 ∧ (t.deep.dies[die]).busy = none ∧
        t.deep.nand = s.deep.nand ∧ t.mram = s.mram)) ∧
    ((s.deep.dies[die]).busy = none → exec (.nandEraseDone die true) s = .next s ∧
      exec (.nandProgramDone die true) s = .next s))

/-- PACK_WAIT_EXPIRY of a Kit whose oldest waiting sector has waited PACK_WAIT × 16 Beats: its first four waiting
sectors become one program, paid by the Kit, at the next place; sooner nothing changes. DIE_STALL: of a failed die,
and with nothing waiting on it, nothing changes; a first or second stall in a row is counted; the third fails the die:
it is offline, every sector on it is poisoned, DEEP_EVENTS.DIEFAIL is set. MUTED_ENTRY below the reserve floor: Deep
is Muted, DEEP_EVENTS.MUTED is set, and the device-state record is to be written; at or above it, and when Muted
already, nothing changes. DEEP_MAP_READY in Join brings online every die that has not failed; in another mode it
changes nothing. DEEP_SCAN_STEP at Beat 64 of each 64th Bar of Run or Degraded queues three reads of each block that
the step picks, after those of a step that has begun, in place of one that has not, which is counted as dropped; at
any other Beat nothing changes. SCAN_READ_DONE takes one read off its block, counts it, and queues the block for
refresh where it was weak.
It says where these complete: DEEP_SCAN_STEP, PACK_WAIT_EXPIRY, DIE_STALL, MUTED_ENTRY, DEEP_MAP_READY,
SCAN_READ_DONE. -/
def Obligations.DeepHousekeeping : Prop :=
  (∀ (s : State) (k : Kit), s.closing = none →
    let mine := s.deep.pack.filter fun x => x.1 == k
    ((∀ x ∈ mine, elapsed x.2.2.2 s.bar.beatno < s.deep.packWait * 16) → exec (.packWaitExpiry k) s = .next s) ∧
    (∀ die loc, (∃ x ∈ mine, s.deep.packWait * 16 ≤ elapsed x.2.2.2 s.bar.beatno) →
      s.deep.nextPlace = some (die, loc) → ∃ t, exec (.packWaitExpiry k) s = .next t ∧
      t.deep.queue = s.deep.queue ++ [.program (some k) ((mine.take 4).map fun x => (x.1, x.2.1, x.2.2.1)) loc] ∧
      t.deep.pack = s.deep.pack.filter (fun x => !(mine.take 4).contains x) ∧ t.deep.map = s.deep.map ∧ SameStores s t)) ∧
  (∀ (s : State) (die : Fin 4),
    let x := s.deep.dies[die]
    (x.failed = true ∨ s.waitsOn die = false → exec (.dieStall die) s = .next s) ∧
    (x.failed = false → s.waitsOn die = true → x.stalls < 2 → exec (.dieStall die) s
      = .next { s with deep := { s.deep with dies := s.deep.dies.set die { x with stalls := x.stalls + 1 } } }) ∧
    (x.failed = false → s.waitsOn die = true → 2 ≤ x.stalls → ∃ t, exec (.dieStall die) s = .next t ∧
      (t.deep.dies[die]).failed = true ∧ (t.deep.dies[die]).online = false ∧ (t.ev .deep).bits.getLsbD 5 = true ∧
      (∀ e ∈ t.deep.map, e.loc / 2 ^ 25 = die.val → e.poison = BitVec.allOnes 64) ∧ t.mram = s.mram ∧
      t.deep.nand = s.deep.nand)) ∧
  (∀ (s : State),
    (s.deep.muted = true ∨ s.deep.floor ≤ s.deep.reserve → exec .mutedEntry s = .next s) ∧
    (s.deep.muted = false → s.deep.reserve < s.deep.floor → ∃ t, exec .mutedEntry s = .next t ∧ t.deep.muted = true ∧
      (t.ev .deep).bits.getLsbD 0 = true ∧ RecId.deviceState ∈ t.bel.recq ∧ t.deep.map = s.deep.map ∧ SameStores s t) ∧
    (s.mode = .join → exec .deepMapReady s
      = .next { s with deep := { s.deep with ready := true, dies := s.deep.dies.map fun x => { x with online := !x.failed } } }) ∧
    (s.mode ≠ .join → exec .deepMapReady s = .next s)) ∧
  (∀ (s : State),
    let due := (s.mode = .run ∨ s.mode = .degraded) ∧ s.bar.beatno / 1024 % 64 = 0 ∧ s.bar.beatno % 1024 = 64
    let new := ((s.deep.scanBlocks.1.eraseDups).map fun b => [b, b, b]).flatten
    (¬ due → exec .deepScanStep s = .next s) ∧
    (due → s.deep.scanQ = [] → ∃ t, exec .deepScanStep s = .next t ∧ t.deep.scanQ = new ∧
      t.deep.rotate = s.deep.scanBlocks.2 ∧ t.deep.map = s.deep.map ∧ SameStores s t) ∧
    (∀ b, due → s.deep.scanQ = [b, b] → ∃ t, exec .deepScanStep s = .next t ∧ t.deep.scanQ = [b, b] ++ new) ∧
    (∀ b, due → s.deep.scanQ = [b, b, b] → ∃ t, exec .deepScanStep s = .next t ∧ t.deep.scanQ = new ∧
      t.deep.scanDrop = min (s.deep.scanDrop + 1) (2 ^ 32 - 1)) ∧
    (∀ (b : BitVec 15) (corr : BitVec 8) (retries : BitVec 3), b.toNat ∈ s.deep.scanQ →
      ∃ t, exec (.scanReadDone b corr retries false) s = .next t ∧ t.deep.scanQ = s.deep.scanQ.erase b.toNat ∧
        t.deep.reads = min (s.deep.reads + 1) (2 ^ 32 - 1) ∧ t.deep.map = s.deep.map ∧
        ((s.deep.refreshBer ≤ corr.toNat ∨ retries ≠ 0) → (s.deep.blk b.toNat).retired = false →
          (t.deep.blk b.toNat).refresh ≠ none) ∧ SameStores s t))

/-! ### Repair, spares and rejoining units (07 R198, R199; 14 R352 to R372; 04 R96 to R98; 05 R125) -/

/-- REPAIR_QUERY returns, from the index asked for, as many whole records of the view as LEN holds, with their count
in DETAIL: factory repairs for view 0, field repairs for view 1, open faults for view 2. REPAIR_APPLY with a spare row, a spare column or the hot
spare. A repair in place already is OK and changes nothing; with a transfer of the kind running it is BUSY, resource
2; with no spare or no record pair left it is BAD_PARAM naming ACTION; otherwise a transfer of the unit starts, and
the reply is OK. REPAIR_APPLY with a spare lane or a unit that rejoins. A lane mapped already, and a unit that is in
service, are OK and change nothing; with a lane operation or a transfer of the kind running it is BUSY, resource 2;
otherwise the lane is mirrored onto the lowest free spare, the lane's return is watched from the next Bar on, or the
unit's transfer starts.
It says where these complete: REPAIR_QUERY, REPAIR_APPLY_SPARE_ROW, REPAIR_APPLY_SPARE_COLUMN, REPAIR_APPLY_SPARE_DIE,
REPAIR_APPLY_SPARE_LANE, REPAIR_APPLY_SHADOW_REJOIN, REPAIR_APPLY_LANE_REJOIN. -/
def Obligations.RepairRequests : Prop :=
  (∀ (s s1 : State) (rq : Req) (j : Job), s.taken rq = some (j, s1) → (Instr.repairQuery rq).wf = true →
    let view := if pb rq 8 = 0 then s1.rep.factory else if pb rq 8 = 1 then s1.rep.recs else s1.rep.faults
    let out := (view.drop (pb rq 10 + 256 * pb rq 11)).take (rq.len.toNat / 16)
    (∀ f ∈ view, ∀ b, f.raw = some b → b.length = 16) → ∃ t b, exec (.repairQuery rq) s = .next t ∧
      Replied s1 t j.rid rq 0x00 out.length b ∧ b.length = 16 * out.length ∧
      ((∀ f ∈ out, f.raw.isSome = true) → b = (out.map fun f => f.raw.getD []).flatten) ∧ t.rep = s1.rep ∧ SameStores s1 t) ∧
  (∀ (s s1 : State) (rq : Req) (j : Job), s.taken rq = some (j, s1) →
    let r := s1.rep
    let die := pb rq 9
    let bank := pb rq 10
    let row := pb rq 11 + 256 * pb rq 12
    let grp := pb rq 11
    let has := fun (k : UnitKind) => ∃ t ∈ r.runs, t.kind = k
    let same := fun (i : Instr) (st det : Nat) => ∃ t, exec i s = .next t ∧ Replied s1 t j.rid rq st det [] ∧ t.rep = r ∧
      SameStores s1 t
    let starts := fun (i : Instr) (p : Transfer → Prop) => ∃ t x, exec i s = .next t ∧ Replied s1 t j.rid rq 0x00 0 [] ∧
      t.rep.runs = r.runs ++ [x] ∧ p x ∧ x.phase = 1 ∧ t.rep.role = r.role ∧ t.rep.recs = r.recs ∧ SameStores s1 t
    let rowIn := ∃ f ∈ r.recs, f.kind = 4 ∧ f.die = die ∧ f.bank = bank ∧ f.row = row
    let colIn := ∃ f ∈ r.recs, f.kind = 5 ∧ f.die = die ∧ f.bank = bank ∧ f.colgrp = grp ∧ f.lane = r.faultLane die bank grp
    ((Instr.repairApplySpareRow rq).wf = true →
      (rowIn → same (.repairApplySpareRow rq) 0x00 0) ∧
      (¬ rowIn → has .row → same (.repairApplySpareRow rq) 0x11 2) ∧
      (¬ rowIn → ¬ has .row → (64 ≤ r.usedRows die bank ∨ 120 ≤ r.map) → same (.repairApplySpareRow rq) 0x31 8) ∧
      (¬ rowIn → ¬ has .row → r.usedRows die bank < 64 → r.map < 120 → r.noLive die bank = false →
        starts (.repairApplySpareRow rq) fun x =>
          x.kind = .row ∧ x.die = die ∧ x.bank = bank ∧ x.row = row ∧ x.resilver = false)) ∧
    ((Instr.repairApplySpareColumn rq).wf = true →
      (colIn → same (.repairApplySpareColumn rq) 0x00 0) ∧
      (¬ colIn → has .column → same (.repairApplySpareColumn rq) 0x11 2) ∧
      (¬ colIn → ¬ has .column → (r.colUsed die bank grp = true ∨ 120 ≤ r.map) →
        same (.repairApplySpareColumn rq) 0x31 8) ∧
      (¬ colIn → ¬ has .column → r.colUsed die bank grp = false → r.map < 120 → r.noLive die bank = false →
        starts (.repairApplySpareColumn rq) fun x =>
          x.kind = .column ∧ x.die = die ∧ x.bank = bank ∧ x.row = grp ∧ x.lane = r.faultLane die bank grp)) ∧
    ((Instr.repairApplySpareDie rq).wf = true →
      (r.moved die = true → same (.repairApplySpareDie rq) 0x00 0) ∧
      (r.moved die = false → has .die → same (.repairApplySpareDie rq) 0x11 2) ∧
      (r.moved die = false → ¬ has .die → (r.spare = none ∨ 128 ≤ r.map) → same (.repairApplySpareDie rq) 0x31 8) ∧
      (∀ d, r.moved die = false → ¬ has .die → r.spare = some d → r.map < 128 → starts (.repairApplySpareDie rq) fun x =>
        x.kind = .die ∧ x.die = d.val ∧ x.role = die ∧ x.resilver = true))) ∧
  (∀ (s s1 : State) (rq : Req) (j : Job), s.taken rq = some (j, s1) →
    let ok := fun (i : Instr) (t : State) => exec i s = .next t ∧ Replied s1 t j.rid rq 0x00 0 [] ∧ SameStores s1 t
    ((Instr.repairApplySpareLane rq).wf = true →
      let r : Ring := if pb rq 9 = 1 then .b else .a
      let lane := BitVec.ofNat 4 (pb rq 10)
      ((s1.ring r).mapped lane = true → ∃ t, ok (.repairApplySpareLane rq) t ∧ t.ring r = s1.ring r) ∧
      ((s1.ring r).mapped lane = false → s1.laneRuns = false → s1.rep.map < 128 →
        ((s1.ring r).rx[0]).active = false → (s1.ring r).loopBad.getLsbD 16 = false →
        ∃ t, ok (.repairApplySpareLane rq) t ∧ (t.ring r).remaps = [⟨lane, false, s1.bar.beatno, 0⟩] ∧
          (t.ring r).mail = (s1.ring r).mail ++ [(.lane lane false true, s1.bar.beatno)]) ∧
      ((s1.ring r).mapped lane = false → s1.laneRuns = false → ((s1.ring r).freeSpare 0 = none ∨ 128 ≤ s1.rep.map) →
        ∃ t, exec (.repairApplySpareLane rq) s = .next t ∧ Replied s1 t j.rid rq 0x31 8 [] ∧ t.ring r = s1.ring r)) ∧
    ((Instr.repairApplyLaneRejoin rq).wf = true →
      let r : Ring := if pb rq 10 = 1 then .b else .a
      let lane := BitVec.ofNat 4 (pb rq 11)
      ((s1.ring r).mapped lane = false → ∃ t, ok (.repairApplyLaneRejoin rq) t ∧ t.ring r = s1.ring r) ∧
      ((s1.ring r).mapped lane = true → s1.laneRuns = false → s1.rep.map < 128 → ∃ t, ok (.repairApplyLaneRejoin rq) t ∧
        t.ring r = { s1.ring r with rejoin := some (lane, s1.bar.beatno / 1024 + 1) })) ∧
    ((Instr.repairApplyShadowRejoin rq).wf = true →
      let d := pb rq 10
      let b := pb rq 11
      (pb rq 9 = 2 → s1.rep.bankOut d b = false → ∃ t, ok (.repairApplyShadowRejoin rq) t ∧ t.rep = s1.rep) ∧
      (pb rq 9 = 2 → s1.rep.bankOut d b = true → s1.running .bank = false → s1.rep.map < 128 →
        ∃ t x, ok (.repairApplyShadowRejoin rq) t ∧ t.rep.runs = s1.rep.runs ++ [x] ∧ x.kind = .bank ∧ x.die = d ∧
          x.bank = b ∧ x.phase = 1) ∧
      (pb rq 9 = 1 → s1.rep.serves d = true → s1.rep.rolesOut &&& s1.rep.rolesOf d = 0 →
        ∃ t, ok (.repairApplyShadowRejoin rq) t ∧ t.rep = s1.rep) ∧
      (pb rq 9 = 1 → s1.rep.serves d = true → s1.rep.rolesOut &&& s1.rep.rolesOf d ≠ 0 → s1.running .die = true →
        ∃ t, exec (.repairApplyShadowRejoin rq) s = .next t ∧ Replied s1 t j.rid rq 0x11 2 [] ∧ t.rep = s1.rep) ∧
      (pb rq 9 = 1 → s1.rep.serves d = true → s1.rep.rolesOut &&& s1.rep.rolesOf d ≠ 0 → s1.running .die = false →
        s1.rep.map < 128 → ∃ t x, ok (.repairApplyShadowRejoin rq) t ∧ t.rep.runs = s1.rep.runs ++ [x] ∧
          x.kind = .die ∧ x.die = d ∧ x.resilver = false ∧ x.phase = 1)))

/-- DIE_OUT. A die that serves goes out with every role that it carries, with REP_EVENTS.DIEOUT, and with the bit for
a second one when another role is out already; a die that is out already, or serves nothing and is no spare, changes
nothing; the hot spare that goes out is a failed spare. A bank goes out with REP_EVENTS bit 1; one that is out already
stays so. SHADOW_SWITCHOVER and RESILVER_SWITCHOVER. A row whose verify has ended takes its spare at a Downbeat: the
repair is recorded, the faults that it covers are closed, REP_EVENTS bit 2 is set and the transfer is over; each slice
of the row on that die holds the decoded symbols, the poison marker's for a poisoned chord, and no other stored byte
changes. A die that passed its checks becomes the hot spare. A resilvering whose verify has ended gives the role to
the spare, and the role is no longer out. Before the verify ends nothing changes. TRANSFER_FAIL in the verify of a
row: the spare is used, REP_EVENTS bit 3 is set, and the next spare row is tried, at most twice; of a resilvering, the
spare is failed and the transfer is over. With no transfer of the kind nothing changes. RESILVER_SLOW sets REP_EVENTS
bit 7 while a resilvering runs, else nothing.
It says where these complete: DIE_OUT, SHADOW_SWITCHOVER, TRANSFER_FAIL, RESILVER_SWITCHOVER, RESILVER_SLOW. -/
def Obligations.UnitsGoOutAndReturn : Prop :=
  (∀ (s : State) (d : Fin 11),
    let roles := s.rep.rolesOf d.val
    (roles ≠ 0 → s.rep.rolesOut &&& roles = 0 → ∃ t, exec (.dieOut (.die d)) s = .next t ∧
      t.rep.rolesOut = s.rep.rolesOut ||| roles ∧ (t.ev .rep).bits.getLsbD 0 = true ∧
      (s.rep.rolesOut ≠ 0 → (t.ev .rep).bits.getLsbD 4 = true) ∧ t.rep.role = s.rep.role ∧ SameStores s t) ∧
    (roles ≠ 0 → s.rep.rolesOut &&& roles ≠ 0 → exec (.dieOut (.die d)) s = .next s) ∧
    (roles = 0 → s.rep.spare ≠ some d → exec (.dieOut (.die d)) s = .next s) ∧
    (roles = 0 → s.rep.spare = some d → ∃ t, exec (.dieOut (.die d)) s = .next t ∧ t.rep.spare = none ∧
      t.rep.spareFailed = true ∧ t.rep.rolesOut = s.rep.rolesOut ∧ SameStores s t) ∧
    (∀ b : BitVec 5, s.rep.bankOut d.val b.toNat = true → exec (.dieOut (.bank d b)) s = .next s) ∧
    (∀ b : BitVec 5, s.rep.bankOut d.val b.toNat = false → ∃ t, exec (.dieOut (.bank d b)) s = .next t ∧
      t.rep.bankOut d.val b.toNat = true ∧ (t.ev .rep).bits.getLsbD 1 = true ∧ SameStores s t)) ∧
  (∀ (s : State) (x : Transfer), s.rep.runs = [x] →
    let done := fun (t : State) => t.rep.runs = [] ∧ (t.ev .rep).bits.getLsbD 2 = true ∧
      t.rep.recs = s.rep.recs ++ [x.rec_]
    (x.phase < 4 → exec (.shadowSwitchover x.kind) s = .next s ∧ exec .resilverSwitchover s = .next s) ∧
    (x.kind = .row → x.phase = 4 → x.resilver = false → s.atDownbeat = true → s.memWf = true →
      let slice := fun (c r : Nat) => x.touches s.rep c = true ∧ r < 10 ∧ s.rep.phys r = x.die
      ∃ t, exec (.shadowSwitchover .row) s = .next t ∧ done t ∧
        t.rep.faults = s.rep.faults.filter (fun f => !x.rec_.covers f) ∧
        t.rep.usedRows x.die x.bank = s.rep.usedRows x.die x.bank + 1 ∧ t.deep.nand = s.deep.nand ∧
        t.bel.mem = s.bel.mem ∧
        (∀ a, (∀ c r, slice c r → a < sliceAddr x.die c ∨ sliceAddr x.die c + 8 ≤ a) →
          cellGet t.mram a = cellGet s.mram a) ∧
        (∀ c r, slice c r → (∀ q, slice c q → q = r) → (∃ y ∈ s.mram, y.1 % 2 ^ 31 / 8 = c) →
          cellsRead t.mram (sliceAddr x.die c) 8 = (s.decodeAt c).slices.getD r [])) ∧
    (∀ d : Fin 11, x.kind = .die → x.role = 15 → x.phase = 4 → x.resilver = false → x.die = d.val →
      ∃ t, exec (.shadowSwitchover .die) s = .next t ∧ done t ∧ t.rep.spare = some d ∧ t.rep.spareFailed = false ∧
        SameStores s t) ∧
    (∀ (d : Fin 11) (r : Fin 10), x.kind = .die → x.resilver = true → x.phase = 4 → x.die = d.val → x.role = r.val →
      s.atDownbeat = true → ∃ t, exec .resilverSwitchover s = .next t ∧ done t ∧ t.rep.role[r] = d ∧
        (∀ q : Fin 10, q ≠ r → t.rep.role[q] = s.rep.role[q]) ∧ t.rep.spare = none ∧
        t.rep.rolesOut = s.rep.rolesOut &&& ~~~ BitVec.ofNat 10 (2 ^ r.val) ∧ SameStores s t)) ∧
  (∀ (s : State),
    (∀ k, k ≠ .lane → s.running k = false → exec (.transferFail k) s = .next s) ∧
    (∀ x, s.rep.runs = [x] → x.kind = .row → x.phase = 3 → x.resilver = false →
      ∃ t, exec (.transferFail .row) s = .next t ∧ (t.ev .rep).bits.getLsbD 3 = true ∧
        t.rep.usedRows x.die x.bank = s.rep.usedRows x.die x.bank + 1 ∧ t.rep.recs = s.rep.recs ∧ SameStores s t ∧
        (s.rep.usedRows x.die x.bank + 1 < 64 → x.tries < 2 → t.rep.runs =
          [{ x with phase := 1, cursor := 0, late := [], tries := x.tries + 1, start := s.bar.beatno }]) ∧
        (2 ≤ x.tries → t.rep.runs = [])) ∧
    (∀ x, s.rep.runs = [x] → x.kind = .die → x.phase = 3 → x.resilver = true →
      ∃ t, exec (.transferFail .die) s = .next t ∧ (t.ev .rep).bits.getLsbD 3 = true ∧ t.rep.runs = [] ∧
        t.rep.spare = none ∧ t.rep.spareFailed = true ∧ t.rep.role = s.rep.role ∧ SameStores s t) ∧
    ((∃ x ∈ s.rep.runs, x.resilver = true) → exec .resilverSlow s = .next (s.raise .rep 0x80)) ∧
    ((∀ x ∈ s.rep.runs, x.resilver = false) → exec .resilverSlow s = .next s))

/-- LANE_REMAP_SWITCH of a lane 1,024 Beats after its mirror was asked for: the receiver takes the spare, LNK_EVENTS bit 1
is set and the repair is recorded; where the comparison failed the other spare is tried. Sooner, and of a lane that is not
compared, nothing changes. LANE_REJOIN_SWITCH after LANEV Bars, at a Downbeat, frees the spare and asks for the mirror's
stop. LANE_REQUEST records a mirror's start or stop. MAILBOX_RESEND sends again each request that has waited 64 Beats; the
stop of a mirror that has left by then is taken as done (the model's reading, log 114).
It says where these complete: LANE_REMAP_SWITCH, LANE_REJOIN_SWITCH, LANE_REQUEST, MAILBOX_RESEND. -/
def Obligations.LanesAreReplaced : Prop :=
  ∀ (s : State) (r : Ring) (lane : BitVec 4),
    let x := s.ring r
    (∀ m, x.remaps = [m] → m.lane = lane → 1024 ≤ elapsed m.since s.bar.beatno →
      ∃ t, exec (.laneRemapSwitch r lane true) s = .next t ∧ spareOf (t.ring r).rx m.spare = ⟨some lane, true⟩ ∧
      spareOf (t.ring r).rx (!m.spare) = spareOf x.rx (!m.spare) ∧ (∀ y ∈ (t.ring r).remaps, y.lane ≠ lane) ∧
      (t.ev (.lnk r)).bits.getLsbD 1 = true ∧ t.rep.recs = s.rep.recs ++ [laneRec r lane] ∧ SameStores s t) ∧
    (∀ m, x.remaps = [m] → m.lane = lane → m.spare = false → m.tried = 0 → 1024 ≤ elapsed m.since s.bar.beatno →
      (x.rx[1]).active = false → x.loopBad.getLsbD 17 = false → ∃ t, exec (.laneRemapSwitch r lane false) s = .next t ∧
        ⟨lane, true, s.bar.beatno, 1⟩ ∈ (t.ring r).remaps ∧ (t.ring r).rx = x.rx ∧ SameStores s t) ∧
    (∀ p, (∀ m, x.remaps.find? (fun m => m.lane == lane) = some m → elapsed m.since s.bar.beatno < 1024) →
      exec (.laneRemapSwitch r lane p) s = .next s) ∧
    (∀ b, x.rejoin = some (lane, b) → s.atDownbeat = true →
      barReached ((b + s.rep.lanev) % 2 ^ 38) (s.bar.beatno / 1024) = true → x.rx[0] = ⟨some lane, true⟩ →
      ∃ t, exec (.laneRejoinSwitch r) s = .next t ∧
        (t.ring r).rx[0] = Spare.none_ ∧ (t.ring r).rejoin = none ∧ (t.ring r).bad.getLsbD lane.toNat = false ∧
        (.lane lane false false, s.bar.beatno) ∈ (t.ring r).mail ∧
        t.rep.recs = s.rep.recs ++ [laneRec r lane] ∧ SameStores s t) ∧
    (∀ b, x.rejoin = some (lane, b) → (s.atDownbeat = false ∨
      barReached ((b + s.rep.lanev) % 2 ^ 38) (s.bar.beatno / 1024) = false) → exec (.laneRejoinSwitch r) s = .next s) ∧
    (x.swOpen = true → exec (.laneRequest r lane false true) s
        = .next (s.setRing r { x with tx := x.tx.set 0 ⟨some lane, true⟩ }) ∧
      exec (.laneRequest r lane true false) s = .next (s.setRing r { x with tx := x.tx.set 1 Spare.none_ })) ∧
    let left := x.mail.filter fun m =>
        !(decide (64 ≤ elapsed m.2 s.bar.beatno) && m.1.stops && !x.mailOut.contains m.1)
    (exec (.mailboxResend r) s = .next (s.setRing r { x with
        mail := left.map fun m => if 64 ≤ elapsed m.2 s.bar.beatno then (m.1, s.bar.beatno) else m,
        mailOut := x.mailOut ++ ((left.filter fun m => 64 ≤ elapsed m.2 s.bar.beatno).map (·.1)).filter
          fun m => !x.mailOut.contains m }))

/-! ### Ring control (04 R92, R94, R101 to R108; 05 R119, R124 to R128; 08 R210, R211) -/

/-- ENUM and SLOTMAP. An entry taken in a FRESH enumeration gives the device NEXTID, of which 30 and 31 leave it
without an ID and set SW_EVENTS bit 1; the reply-only positions lose their owners, Kit 0 may be bound again, and in
Run or Degraded a restart is due; a REFRESH keeps the ID. The ID is used from the ROSTER on. An epoch seen already changes
nothing. SLOTMAP's owners wait for the next Downbeat; the beat source sends them round. ROSTER and FRESH_ENUM_RESTART. A
roster of the epoch seen is the order of the ring, brings the ID into force and joins
it; requests of nodes that it omits are dropped without a reply; after a FRESH enumeration it binds Kit 0 to its first
node (its second at the beat source), and after one in Run or Degraded sets SW_EVENTS bit 0. A roster of another epoch
changes nothing (the model's choice, log 121). A restart, with no write held, drops every request, counts them, and suspends
and unbinds the live Kits 1 to 15; with none due nothing changes.
It says where these complete: ENUM, FRESH_ENUM_RESTART, ROSTER, SLOTMAP. -/
def Obligations.EnumerationAndRoster : Prop :=
  (∀ (s : State) (r : Ring) (epoch : BitVec 8) (pos : BitVec 5) (order : List Node) (next : Node),
    let x := s.ring r
    let ok := s.mode.onRing = true ∧ s.completing = false ∧ x.swOpen = true ∧ s.bar.beatsrc = false ∧ order.length ≤ 30
    let new := x.enumSeen = false ∨ x.epoch ≠ epoch
    (ok → new → next.toNat < 30 → ∃ t, exec (.enum r true epoch pos order next) s = .next t ∧
      (t.ring r).newId = some next ∧ (t.ring r).nodeId = x.nodeId ∧ (t.ring r).hasId = x.hasId ∧ (t.ring r).epoch = epoch ∧ (t.ring r).enumSeen = true ∧ (t.ring r).rebindDue = true ∧
      (t.ring r).owners = List.replicate 8 0x1F ∧
      ((t.ring r).freshDue = true ↔ x.freshDue = true ∨ s.mode = .run ∨ s.mode = .degraded) ∧ SameStores s t) ∧
    (ok → new → 30 ≤ next.toNat → ∃ t, exec (.enum r true epoch pos order next) s = .next t ∧ (t.ring r).newId = none ∧
      (t.ev .sw).bits.getLsbD 1 = true ∧ SameStores s t) ∧
    (ok → new → x.hasId = true → ∃ t, exec (.enum r false epoch pos order next) s = .next t ∧
      (t.ring r).newId = some x.nodeId ∧ (t.ring r).nodeId = x.nodeId ∧ (t.ring r).hasId = true ∧ (t.ring r).epoch = epoch ∧
      (t.ring r).rebindDue = x.rebindDue ∧ (t.ring r).freshDue = x.freshDue ∧ (t.ring r).owners = x.owners ∧
      t.evs = s.evs ∧ t.kits = s.kits ∧ SameStores s t) ∧
    (∀ fresh, order.length ≤ 30 → x.enumSeen = true → x.epoch = epoch →
      exec (.enum r fresh epoch pos order next) s = .next s) ∧
    (∀ owners, owners.length = 8 → s.mode.onRing = true → s.completing = false → x.swOpen = true →
      (s.bar.beatsrc = false → exec (.slotmap r owners) s = .next (s.setRing r { x with ownersNext := some owners })) ∧
      (s.bar.beatsrc = true → s.bar.rateNext = none → exec (.slotmap r owners) s
        = .next (s.setRing r { x with ownersNext := some owners, msg := some (slotMsg owners) }))) ∧
    (∀ owners, owners.length = 8 → x.swOpen = false → exec (.slotmap r owners) s = .next s)) ∧
  (∀ (s : State) (r : Ring) (epoch : BitVec 8) (order : List Node), order.length ≤ 30 →
    let x := s.ring r
    (s.mode.onRing = true → s.completing = false → x.swOpen = true → x.enumSeen = true → x.epoch = epoch →
      (s.inflight.map fun f => f.rid).Nodup → ∃ t, exec (.roster r epoch order) s = .next t ∧
        (t.ring r).rosterIds = order ∧ (t.ring r).joined = true ∧ (t.ring r).hasId = x.newId.isSome ∧
        (t.ring r).nodeId = x.newId.getD x.nodeId ∧ (t.ring r).freshDue = x.freshDue ∧ (t.ring r).rebindDue = false ∧
        (∀ f, f ∈ t.inflight ↔ f ∈ s.inflight ∧ ¬(f.rq.via = .ring r ∧ f.rq.src ∉ order)) ∧
        (∀ n, x.rebindDue = true → (if s.bar.beatsrc then order[1]? else order[0]?) = some n →
          (t.kit 0).binds = [⟨n, 0, none⟩]) ∧
        (x.rebindDue = false → (t.kit 0).binds = (s.kit 0).binds) ∧
        (x.freshRun = true → (t.ev .sw).bits.getLsbD 0 = true) ∧ SameStores s t) ∧
    (x.epoch ≠ epoch → exec (.roster r epoch order) s = .next s) ∧
    (∀ comp, x.freshDue = true → s.completing = false → s.hold = [] → s.merges = [] → s.chordq = [] →
      ∃ t, exec (.freshEnumRestart r comp) s = .next t ∧ t.inflight = [] ∧ (t.ring r).freshDue = false ∧
        t.orphaned = min (s.orphaned + s.inflight.length) (2 ^ 32 - 1) ∧
        (∀ k, k ≠ 0 → (s.kit k).live = true → (t.kit k).suspended = true ∧ (t.kit k).binds = [] ∧
          (t.kit k).key = (s.kit k).key ∧ (t.kit k).wins = (s.kit k).wins ∧ (t.ev (.kit k)).bits.getLsbD 1 = true) ∧
        (t.kit 0).binds = (s.kit 0).binds ∧ t.pages = s.pages ∧ SameStores s t) ∧
    (∀ comp, x.freshDue = false → exec (.freshEnumRestart r comp) s = .next s))

/-- TRAINING_COMPLETE: a ring that trains in Join with its switch closed takes the rate of the marker, its receivers
are trained, and the lanes that do not meet their limits are bad; Ring A's rate becomes the joined rate. Where the
ring does not train, nothing changes. JOINWIN, LEAVEWIN, LEAVE_TIMEOUT and PHASE_STEP. In a Join Window a trained ring
of a device in Join opens its switch with spare maps afresh and blank slots in its pipeline; a neighbour's one makes it
discard its maps; in a Leave Window that names the device its switch
closes, without the unplanned event; a window of another node upstream on Ring A shortens the Beat after W (the
model's reading, log 19). A message that repeats the last W and MBAR, or whose W is 0 or above 1,021, changes nothing; at
the beat source that of a new window announces it.
A leave without a window for LEAVE_TO Bars closes both rings as an unplanned closure. A phase step without a window
starts the receiver's maps afresh, and BVALID clears. RATECHG and RATE_CHANGE_RESUME. A change is recorded once, with
the MBAR of the Downbeat that begins the training; the beat source announces by itself what BAR_SRC_RATE asks for. The
Downbeat that carries the new code ends the training: that code is the joined rate; another marker changes nothing.
It says where these complete: TRAINING_COMPLETE, JOINWIN, LEAVEWIN, LEAVE_TIMEOUT, RATECHG, RATE_CHANGE_RESUME,
PHASE_STEP. -/
def Obligations.RingJoinsLeavesAndRates : Prop :=
  (∀ (s : State) (r : Ring) (rate : BitVec 3) (us bad : BitVec 16), rate.toNat ≤ 4 →
    (s.mode = .join → s.completing = false → (s.ring r).swOpen = false → (s.ring r).trained = false →
      (s.ring r).joined = false → ∃ t, exec (.trainingComplete r rate us bad) s = .next t ∧
        t.ring r = { s.ring r with trained := true, rate := rate.toNat, trainUs := us, slots := true,
                                   bad := (s.ring r).bad ||| bad } ∧
        (∀ o, o ≠ r → t.ring o = s.ring o) ∧ t.bar = { s.bar with rate := if r = .a then rate.toNat else s.bar.rate } ∧
        (bad = 0 → t.evs = s.evs) ∧ t.mode = s.mode ∧ SameStores s t) ∧
    ((s.ring r).trained = true ∨ s.completing = true ∨ s.mode.onRing = false →
      exec (.trainingComplete r rate us bad) s = .next s)) ∧
  (∀ (s : State) (r : Ring) (w : BitVec 10) (mbar : BitVec 32) (hop inHop : Option (BitVec 4)) (q : Bool) (cp : CompOut),
    let x := s.ring r
    let ok := s.mode.onRing = true ∧ s.completing = false ∧ 1 ≤ w.toNat ∧ w.toNat ≤ 1021 ∧ s.bar.beatsrc = false
    (ok → x.joinSeen ≠ some (w, mbar) → s.mode = .join → x.trained = true → x.swOpen = false → x.clockBad = false →
      s.pins.vstby = true → ∃ t, exec (.joinwin r w mbar ⟨hop, inHop⟩ q) s = .next t ∧ (t.ring r).swOpen = true ∧
        (t.ring r).swops = min (x.swops + 1) (2 ^ 32 - 1) ∧ (t.ring r).rx = Vector.replicate 2 Spare.none_ ∧
        (t.ring r).tx = Vector.replicate 2 Spare.none_ ∧ (t.ring r).joinSeen = some (w, mbar) ∧
        (t.ring r).pipe = List.replicate 4 blankSlot ∧ (t.ring r).inHop = inHop ∧
        (t.ring r).noRetry = slowHop inHop ∧ (slowHop inHop = true → (t.ev .sw).bits.getLsbD 2 = true) ∧
        (t.ring r).txeqNow = x.txeq ∧ t.bar.bvalid = false ∧ (∀ l, hop = some l → (t.ring r).hopLat = l) ∧
        (∀ o, o ≠ r → t.ring o = s.ring o) ∧ SameStores s t) ∧
    (w.toNat = 0 ∨ 1021 < w.toNat ∨ x.joinSeen = some (w, mbar) → exec (.joinwin r w mbar ⟨hop, inHop⟩ q) s = .next s) ∧
    (ok → x.joinSeen ≠ some (w, mbar) → x.swOpen = true → ∃ t, exec (.joinwin r w mbar ⟨hop, inHop⟩ true) s = .next t ∧
      (t.ring r).swOpen = true ∧ (t.ring r).rx = Vector.replicate 2 Spare.none_ ∧ (t.ring r).remaps = [] ∧
      (t.ring r).tx = x.tx ∧ t.bar.bvalid = false ∧ SameStores s t) ∧
    (s.mode.onRing = true → s.completing = false → 1 ≤ w.toNat → w.toNat ≤ 1021 → s.bar.beatsrc = true →
      s.bar.rateNext = none → x.joinSeen ≠ some (w, mbar) → x.mwin ≠ some (w, mbar) → exec (.joinwin r w mbar ⟨hop, inHop⟩ q) s
        = .next (s.setRing r { x with mwin := some (w, mbar), msg := some (windowMsg true 0x1F w mbar) })) ∧
    (ok → x.leaveSeen ≠ some (w, mbar) → x.swOpen = true → x.hasId = true → s.hold = [] → s.merges = [] →
      ∃ t, exec (.leavewin r x.nodeId w mbar ⟨hop, inHop⟩ cp) s = .next t ∧ (t.ring r).swOpen = false ∧ (t.ring r).joined = false ∧
        (t.ring r).trained = false ∧ t.evs = s.evs ∧ t.bar.bvalid = false ∧ (∀ o, o ≠ r → t.ring o = s.ring o) ∧
        SameStores s t) ∧
    (∀ n l, ok → r = .a → x.leaveSeen ≠ some (w, mbar) → x.swOpen = true → x.hasId = true → n ≠ x.nodeId →
      x.rosterIds = [n, x.nodeId] → s.bar.lastMbar = some l → ∃ t, exec (.leavewin r n w mbar ⟨hop, inHop⟩ cp) s = .next t ∧
        t.bar.shortAt = some ((s.bar.lastDbBar + (mbar - l).toNat) % 2 ^ 38 * 1024 + w.toNat + 1) ∧
        (t.ring r).swOpen = true ∧ t.bar.bvalid = false ∧ SameStores s t) ∧
    (∀ n, w.toNat = 0 ∨ 1021 < w.toNat ∨ x.leaveSeen = some (w, mbar) → exec (.leavewin r n w mbar ⟨hop, inHop⟩ cp) s = .next s) ∧
    (∀ b comp, x.leaveReq = some b → s.completing = false → x.swOpen = true → s.hold = [] → s.merges = [] →
      x.leaveTo ≤ (s.bar.beatno / 1024 + 2 ^ 38 - b) % 2 ^ 38 → ∃ t, exec (.leaveTimeout r comp) s = .next t ∧
        t.ringA.swOpen = false ∧ t.ringB.swOpen = false ∧ (t.ev (.lnk r)).bits.getLsbD 3 = true ∧
        (t.ev (.lnk r)).bits.getLsbD 0 = true ∧ t.mode = s.mode ∧ SameStores s t) ∧
    (∀ b comp, x.leaveReq = some b → s.bar.hold = false → (s.bar.beatno / 1024 + 2 ^ 38 - b) % 2 ^ 38 < x.leaveTo →
      exec (.leaveTimeout r comp) s = .next s) ∧
    (s.mode.onRing = true → x.swOpen = true → ∃ t, exec (.phaseStep r) s = .next t ∧ t.bar.bvalid = false ∧
        t.ring r = { x with rx := Vector.replicate 2 Spare.none_, remaps := [], gaveUp := 0, bad := x.loopBad.truncate 16,
                            rejoin := none } ∧
        (r = .a → s.mode ≠ .join → (t.ev (.lnk .a)).bits.getLsbD 6 = true) ∧ SameStores s t) ∧
    (x.swOpen = false → exec (.phaseStep r) s = .next s)) ∧
  (∀ (s : State) (code : BitVec 8) (mbar : BitVec 32) (m : Marker) (p : Nat) (badA badB : BitVec 16),
    (s.mode.onRing = true → s.completing = false → s.bar.rateNext = none → s.ringA.swOpen = true → s.bar.beatsrc = false →
      exec (.ratechg code mbar) s = .next { s with bar := { s.bar with rateNext := some (code.toNat % 8, mbar) } }) ∧
    (s.bar.rateNext ≠ none ∨ s.ringA.swOpen = false ∨ s.bar.beatsrc = true → exec (.ratechg code mbar) s = .next s) ∧
    (∀ c b, s.bar.rateNext = some (c, b) → s.completing = false → s.gongDue = none → s.bar.beatsrc = false →
      markerDown m c = true → (s.mode = .join ∨ (s.mode.timed = true ∧ s.bar.retrain = true)) →
      ∃ t, exec (.rateChangeResume ⟨⟨m, p⟩, badA, badB⟩) s = .next t ∧
        t.bar.rate = c ∧ t.bar.retrain = false ∧ t.bar.rateNext = none ∧ t.bar.srcNext = none ∧
        (s.mode.timed = true → t.bar.lastMbar = some m.mbar)) ∧
    (s.gongDue = none → s.bar.rateNext = none ∨ (∃ c b, s.bar.rateNext = some (c, b) ∧ s.bar.beatsrc = false ∧
      markerDown m c = false) → exec (.rateChangeResume ⟨⟨m, p⟩, badA, badB⟩) s = .next s))

/-! ### Modes, power and reset (17 R408 to R424; 16 R389 to R400; 07 R203 to R205; 20 R469 to R477; 00 R15) -/

/-- What a full reset leaves, in mode `m`: ring time, requests, replies, write-hold entries, Near and the Rudiment store are
gone, both switches are closed, no engine runs; the array and NAND stay, and each Kit 1 to 15 returns with its key, live as
before, suspended and unbound (17 R423, Table 17.3). -/
def FullyReset (s t : State) (m : Mode) : Prop :=
  t.mode = m ∧ t.bar.beatno = 0 ∧ t.bar.counted = false ∧ t.inflight = [] ∧ t.replies = [] ∧ t.hold = [] ∧ t.near = [] ∧
  t.copies = [] ∧ t.ringA.swOpen = false ∧ t.ringB.swOpen = false ∧ t.completing = false ∧ t.triggers = [] ∧
  (∀ e : Engine, (t.eng e).busy = false) ∧
  (∀ k : Kit, k ≠ 0 → (t.kit k).live = (s.kit k).live ∧ (t.kit k).suspended = (s.kit k).live ∧ (t.kit k).binds = [] ∧
    (t.kit k).key = (s.kit k).key) ∧
  (∀ a, cellGet t.mram a = cellGet s.mram a) ∧ (∀ a, cellGet t.deep.nand a = cellGet s.deep.nand a) ∧ t.pending = s.pending

/-- A mode outside ring time in which a trigger of R420 acts at once. -/
def AtOnce (s : State) : Prop :=
  (s.mode = .fill ∨ s.mode = .join ∨ s.mode = .morningToll ∨ s.mode = .eveningToll ∨ s.mode = .knelled) ∧
    s.completing = false ∧ s.knl.running = false

/-- A completion that a trigger has begun: requests, replies and held writes are gone, the mode is as it was. -/
def CompletionBegun (s t : State) (x : Trigger) : Prop :=
  t.completing = true ∧ t.triggers = [x] ∧ t.mode = s.mode ∧ t.inflight = [] ∧ t.hold = []

/-- VSTBY_UP, HELD_EXIT, RESET_N_ASSERT, PWRGOOD_FALL, VSTBY_LOSS, WAKE_N_ASSERT and I3C_RESET: where each leads from
each mode. Outside ring time a trigger resets the device at once; in ring time a completion begins first, joined by
each further trigger; a fall of PWRGOOD counts it. COMPLETION_END leads where the highest-ranked of its triggers
leads: VSTBY to Off, then PWRGOOD and RESET_N to Held, then the I3C reset and GONG to the Morning Toll; with none
running nothing changes. GONG for the device replies OK first; its trigger is taken at the next Beat once that reply has
left. A broadcast GONG of the house kit's binding begins its completion at once; any other changes nothing.
It says where these complete: GONG, BEAT_BOUNDARY, VSTBY_UP, HELD_EXIT, RESET_N_ASSERT, PWRGOOD_FALL, VSTBY_LOSS,
WAKE_N_ASSERT, I3C_RESET, COMPLETION_END. -/
def Obligations.PowerResetAndTriggers : Prop :=
  (∀ (s : State) (comp : CompOut),
    let timed := s.mode.timed = true ∧ s.completing = false ∧ s.knl.running = false ∧ s.merges = []
    (∀ a, s.mode = .off → ∃ t, exec (.vstbyUp a) s = .next t ∧ FullyReset s t .held ∧ t.pins.vstby = true ∧
      t.pins.pwrgood = false ∧ t.pins.sbAddr = a ∧ t.gen.resetCause = 0) ∧
    (∀ a, s.mode ≠ .off → exec (.vstbyUp a) s = .next s) ∧
    (∀ b, s.mode = .held → s.pins.vstby = true → ∃ t, exec (.heldExit b) s = .next t ∧ t.mode = .morningToll ∧
      t.bar.beatsrc = b ∧ t.pins.resetN = true ∧ t.pins.pwrgood = true ∧ t.toll.ordValid = false ∧
      t.toll.count = min (s.toll.count + 1) (2 ^ 32 - 1) ∧
      (t.toll.fast = true ↔ s.toll.ordValid = true ∧ s.toll.ordPass = true ∧ s.toll.ordFull = false ∧
        s.toll.ordMsince < 64) ∧ (t.toll.fast = true → t.toll.startLvl = s.toll.ordStart)) ∧
    (∀ b, s.mode ≠ .held → exec (.heldExit b) s = .next s) ∧
    (AtOnce s → ∃ t, exec (.resetNAssert comp) s = .next t ∧ FullyReset s t .held ∧ t.gen.resetCause = 2 ∧
      t.pins.resetN = false) ∧
    (timed → ∃ t, exec (.resetNAssert comp) s = .next t ∧ CompletionBegun s t .resetN) ∧
    (s.mode = .hibernate → ∃ t, exec (.resetNAssert comp) s = .next t ∧ FullyReset s t .held ∧ t.gen.resetCause = 2) ∧
    (AtOnce s → ∃ t, exec (.pwrgoodFall comp) s = .next t ∧ FullyReset s t .held ∧ t.gen.resetCause = 1 ∧
      t.pins.pwrgood = false) ∧
    (timed → ∃ t, exec (.pwrgoodFall comp) s = .next t ∧ CompletionBegun s t .pwrgood ∧
      t.pwr.pfail = min (s.pwr.pfail + 1) 65535) ∧
    (s.mode = .off ∨ s.mode = .hibernate →
      exec (.pwrgoodFall comp) s = .next { s with pins := { s.pins with pwrgood := false } }) ∧
    (∀ h, AtOnce s → ∃ t, exec (.vstbyLoss h comp) s = .next t ∧ FullyReset s t .off ∧ t.pins.vstby = false ∧
      t.history = []) ∧
    (∀ h, timed → ∃ t, exec (.vstbyLoss h comp) s = .next t ∧ CompletionBegun s t .vstby ∧
      t.ringA.swOpen = false ∧ t.ringB.swOpen = false) ∧
    (∀ h, s.mode = .off → exec (.vstbyLoss h comp) s = .next s) ∧
    (s.mode = .hibernate → ∃ t, exec .wakeNAssert s = .next t ∧ FullyReset s t .held ∧ t.gen.resetCause = 5) ∧
    (s.mode = .rest → exec .wakeNAssert s = .next { s with gen := { s.gen with waking := true } }) ∧
    (s.mode ≠ .rest → s.mode ≠ .hibernate → exec .wakeNAssert s = .next s) ∧
    (AtOnce s → ∃ t, exec (.i3cReset comp) s = .next t ∧ FullyReset s t .morningToll ∧ t.gen.resetCause = 4) ∧
    (timed → ∃ t, exec (.i3cReset comp) s = .next t ∧ CompletionBegun s t .i3c) ∧
    (s.mode = .off ∨ s.mode = .hibernate ∨ s.mode = .held → exec (.i3cReset comp) s = .next s)) ∧
  ((∀ (s : State), s.completing = true → s.knl.running = false →
    (.vstby ∈ s.triggers → ∃ t, exec .completionEnd s = .next t ∧ FullyReset s t .off) ∧
    (.vstby ∉ s.triggers → .pwrgood ∈ s.triggers → ∃ t, exec .completionEnd s = .next t ∧ FullyReset s t .held ∧
      t.gen.resetCause = 1) ∧
    (.vstby ∉ s.triggers → .pwrgood ∉ s.triggers → .resetN ∈ s.triggers → ∃ t, exec .completionEnd s = .next t ∧
      FullyReset s t .held ∧ t.gen.resetCause = 2) ∧
    (∀ x, s.triggers = [x] → (x = .i3c ∨ x = .gong) → ∃ t, exec .completionEnd s = .next t ∧
      FullyReset s t .morningToll ∧ t.gen.resetCause = (if x = .i3c then 4 else 3))) ∧
  (∀ s : State, s.completing = false → exec .completionEnd s = .next s) ∧
  (∀ (s s1 : State) (rq : Req) (j : Job) (comp : CompOut), (Instr.gong rq comp).wf = true →
    (rq.dnode ≠ 31 → s.taken rq = some (j, s1) → ∃ t, exec (.gong rq comp) s = .next t ∧
      Replied s1 t j.rid rq 0x00 0 [] ∧ t.gongDue = some (j.rid, comp) ∧ t.mode = s1.mode ∧ SameStores s1 t) ∧
    (rq.dnode = 31 → s.heedsGong rq = true → s.completing = false → s.knl.running = false →
      ∃ t, exec (.gong rq comp) s = .next t ∧ CompletionBegun s t .gong) ∧
    (rq.dnode = 31 → s.heedsGong rq = false → exec (.gong rq comp) s = .next s)) ∧
  (∀ (s : State) (g : Nat × CompOut) (b : BeatBase) (m : Option Marker), s.gongDue = some g →
    (∀ x ∈ s.replies, x.rid ≠ g.1) → s.mode.timed = true → s.completing = false → s.knl.running = false →
    ∃ t, exec (.beatBoundary b m) s = .next t ∧ CompletionBegun s t .gong))

/-- MORNING_TOLL_DONE, FILL_DONE, HEAT_SNAPSHOT_RESTORE, RUN_ENTRY and JOIN_TIMEOUT. The Morning Toll leads to Fill,
with its result; a fatal outcome is held for the Knell. Fill leads to Join, a bad patch leaves the ROM alone, and a
Kit both of whose key copies are bad has lost its key; with a fatal outcome held it stays, and the Knell is due, or, where the
control core cannot run, the summary alone is written. A
good snapshot of a passed Evening Toll goes into the heat counters, any other is not used. A Downbeat ends Join once
Ring A has joined and Deep is ready: BEATNO starts at 0. Too long a Join sets GEN_EVENTS bit 1.
It says where these complete: MORNING_TOLL_DONE, FILL_DONE, HEAT_SNAPSHOT_RESTORE, RUN_ENTRY, JOIN_TIMEOUT. -/
def Obligations.FromTollToRun : Prop :=
  ∀ (s : State),
    (∀ f : MorningFind, (Instr.morningTollDone f).wf = true → s.mode = .morningToll → s.completing = false →
      ∃ t, exec (.morningTollDone f) s = .next t ∧ t.mode = .fill ∧ t.toll.lastUs = f.durationUs.toNat ∧
        (f.fatal = true → t.toll.fatal ≠ none ∧ t.toll.mpass = false ∧ (t.ev .toll).bits.getLsbD 0 = true) ∧
        (f.tempExcluded = 0xFFFF → t.toll.fatal ≠ none) ∧
        (f.fatal = false → f.fails = [] → f.tempExcluded = 0 → t.toll.fatal = none) ∧
        (f.fails ≠ [] → t.toll.mpass = false) ∧ (∀ a, cellGet t.mram a = cellGet s.mram a)) ∧
    (∀ f : MorningFind, (Instr.morningTollDone f).wf = true → s.mode ≠ .morningToll →
      exec (.morningTollDone f) s = .next s) ∧
    (∀ f : FillFind, s.mode = .fill → s.completing = false → s.toll.fatal = none → s.knl.due = [] → s.bel.recAbsent = [] →
      ∃ t, exec (.fillDone f) s = .next t ∧ t.mode = .join ∧ t.toll.part = 0 ∧
        (f.patchPresent = true → f.patchGood = false → t.gen.romOnly = true) ∧
        (f.patchPresent = true → f.patchGood = true → t.gen.romOnly = false ∧ t.gen.fwPatch = f.patchRelease) ∧
        (∀ k : Kit, (s.kit k).live = true → (s.kit k).key.present = true → f.keyA.getLsbD k.val = false →
          f.keyB.getLsbD k.val = false → (t.kit k).keylost = true) ∧
        (∀ k : Kit, f.rootWrap = true → (f.keyA.getLsbD k.val = true ∧ (s.kit k).key.storedA = true ∨
            f.keyB.getLsbD k.val = true ∧ (s.kit k).key.storedB = true) →
          (t.kit k).keylost = (s.kit k).keylost) ∧
        (s.bar.beatsrc = false → t.ringA = s.ringA ∧ t.ringB = s.ringB) ∧
        (s.bar.beatsrc = true → t.bar.rate = s.bar.srcRate ∧ (s.ringA.clockBad = false → t.ringA.swOpen = true)) ∧
        (∀ a, cellGet t.mram a = cellGet s.mram a)) ∧
    (∀ (f : FillFind) (x : TollFail), s.mode = .fill → s.completing = false → s.toll.fatal = some x → s.toll.coreOk = true →
      ∃ t, exec (.fillDone f) s = .next t ∧ t.mode = .fill ∧ t.toll.fatal = none ∧
        t.knl.due = s.knl.due ++ [if x.part = 0x06 then (0x02, x.value.toNat)
          else (0x01, x.part.toNat + 256 * x.unit.toNat)]) ∧
    (∀ (f : FillFind) (x : TollFail), s.mode = .fill → s.completing = false → s.toll.fatal = some x →
      s.toll.coreOk = false → ∃ t y, exec (.fillDone f) s = .next t ∧ t.mode = .knelled ∧ t.knl.summary = some y ∧
        y.cause = (1, 0) ∧ y.recstate = 4 ∧ (∀ a, cellGet t.mram a = cellGet s.mram a)) ∧
    (∀ f : FillFind, s.mode ≠ .fill → exec (.fillDone f) s = .next s) ∧
    (∀ heats n, s.mode = .join → s.tier.snapshot = some (heats, n) → s.tier.snapDone = false → s.ringA.trained = true →
      s.completing = false →
      (s.tier.snapToll = true → ∃ t, exec (.heatSnapshotRestore true) s = .next t ∧ t.tier.snaprest = true ∧
        t.tier.snapDone = true ∧ t.tier.snapshot = none ∧ t.pages = s.pages.map (fun p =>
          { p with heat := ((heats.find? fun h => h.1 == p.kit && h.2.1 == p.kp).map fun h => h.2.2).getD 0 })) ∧
      (∀ good, (good && s.tier.snapToll) = false → ∃ t, exec (.heatSnapshotRestore good) s = .next t ∧
        t.tier.snapDone = true ∧ t.tier.snaprest = s.tier.snaprest ∧ (t.ev .tier).bits.getLsbD 0 = true ∧
        t.pages = s.pages)) ∧
    (∀ good, s.tier.snapshot = none → exec (.heatSnapshotRestore good) s = .next s) ∧
    (∀ (m : Marker) (p : Nat), s.mode = .join → s.ringA.joined = true → s.deep.ready = true → s.completing = false →
      (s.tier.snapDone = true ∨ s.tier.snapshot = none) → markerDown m s.bar.rate = true → s.bar.counted = false →
      s.bar.beatsrc = false → ∃ t, exec (.runEntry ⟨m, p⟩) s = .next t ∧ t.bar.beatno = 0 ∧ t.bar.counted = true ∧ t.bar.mbarJoin = m.mbar ∧
        t.bar.lastMbar = some m.mbar ∧ (t.mode = .run ∨ t.mode = .degraded)) ∧
    (∀ (m : Marker) (p : Nat), s.mode ≠ .join ∨ s.ringA.joined = false ∨ s.deep.ready = false ∨
      (s.bar.beatsrc = false ∧ markerDown m s.bar.rate = false) ∨ (s.bar.beatsrc = true ∧ s.bar.srcBeat ≠ 1023) →
      exec (.runEntry ⟨m, p⟩) s = .next s) ∧
    (s.mode = .join → ∃ t, exec .joinTimeout s = .next t ∧ t.mode = .join ∧ (t.ev .gen).bits.getLsbD 1 = true ∧
      SameStores s t) ∧
    (s.mode ≠ .join → exec .joinTimeout s = .next s)

/-- REST_ENTER, REST_ENTRY, REST_WAKE, REST_EXIT, REST_REJOIN and FREEWHEEL_EXPIRY. REST_ENTER is BUSY while an engine
runs, else OK; Rest begins at a Downbeat once no provisional write is left (else it waits for a later one, the model's choice,
log 122), with Tally paused and the periphery off. After the
wake a Downbeat ends it; a marker on a closed ring leads to Join. Free-wheel ends at the last Beat of its 256th Bar in
Rest, with BAR_EVENTS bit 1 and, where FWCLOSE asks, both switches closed. CLOSE, EVENING_TOLL and EVENING_TOLL_DONE.
CLOSE stops every engine and, with nothing else in flight, nothing held and no snapshot asked for, replies OK; after a
REST_ENTER it waits for Rest, unanswered; a second CLOSE is OK and changes nothing of the first. Once the device has
left both rings the Evening Toll begins: Near and the Rudiment store are emptied. At its end the orderly-shutdown
record holds its result, and HIB leads to Hibernate.
It says where these complete: CLOSE, REST_ENTER, FREEWHEEL_EXPIRY, REST_ENTRY, REST_WAKE, REST_EXIT, REST_REJOIN,
EVENING_TOLL, EVENING_TOLL_DONE. -/
def Obligations.RestAndOrderlyLeave : Prop :=
  ((∀ (s s1 : State) (rq : Req) (j : Job), s.taken rq = some (j, s1) → (Instr.restEnter rq).wf = true → s1.merges = [] →
    (s1.mode ≠ .rest → s1.closing = none → (∀ e, (s1.eng e).live = false) → ∃ t, exec (.restEnter rq) s = .next t ∧
      Replied s1 t j.rid rq 0x00 0 [] ∧ t.restDue = true ∧ t.mode = s1.mode ∧ SameStores s1 t) ∧
    (∀ e, s1.mode ≠ .rest → s1.closing = none → (s1.eng e).live = true → ∃ t, exec (.restEnter rq) s = .next t ∧
      Replied s1 t j.rid rq 0x11 1 [] ∧ t.restDue = s1.restDue ∧ SameStores s1 t) ∧
    (s1.mode = .rest ∨ s1.closing ≠ none → ∃ t, exec (.restEnter rq) s = .next t ∧ Replied s1 t j.rid rq 0x00 0 [] ∧
      t.restDue = s1.restDue ∧ t.mode = s1.mode ∧ SameStores s1 t)) ∧
  (∀ (s : State),
    (s.restDue = true → s.mode.traffic = true → s.bar.beatno % 1024 = 0 → (s.bar.barMarked = true ∨ s.mode = .freewheel) →
      s.provisionalLeft = false → s.completing = false → ∃ t, exec .restEntry s = .next t ∧ t.mode = .rest ∧
        t.restDue = false ∧ t.gen.periph = false ∧ t.gen.restFrom = s.bar.beatno ∧ t.tal.paused = (s.tal.on != 0) ∧
        t.bar = s.bar ∧ SameStores s t) ∧
    (s.restDue = false ∨ s.bar.beatno % 1024 ≠ 0 ∨ s.provisionalLeft = true → exec .restEntry s = .next s) ∧
    (s.mode = .rest → s.gen.waking = true →
      exec .restWake s = .next { s with gen := { s.gen with awake := true, periph := true } }) ∧
    (s.mode ≠ .rest ∨ s.gen.waking = false → exec .restWake s = .next s) ∧
    (∀ (m : Marker) (p : Nat), s.mode = .rest → s.gen.awake = true → s.ringA.swOpen = true →
      markerDown m s.bar.rate = true → s.completing = false → s.gongDue = none → ∃ t, exec (.restExit ⟨m, p⟩) s = .next t ∧ (t.mode = .run ∨ t.mode = .degraded) ∧
        t.gen.waking = false ∧ t.gen.awake = false ∧ t.gen.periph = true ∧ t.bar.lastMbar = some m.mbar ∧
        (s.tal.paused = true → t.tal.paused = false)) ∧
    (∀ (m : Marker) (p : Nat), s.gongDue = none → s.mode ≠ .rest ∨ s.gen.awake = false ∨
      markerDown m s.bar.rate = false → exec (.restExit ⟨m, p⟩) s = .next s) ∧
    (∀ m : Marker, s.mode = .rest → s.ringA.swOpen = false → markerValid m m.rate.toNat = true → s.completing = false →
      ∃ t, exec (.restRejoin m) s = .next t ∧ t.mode = .join ∧ t.gen.periph = true ∧ t.bar = s.bar ∧ SameStores s t) ∧
    (∀ m : Marker, s.mode ≠ .rest ∨ s.ringA.swOpen = true → exec (.restRejoin m) s = .next s) ∧
    (∀ comp, s.mode = .freewheel → s.bar.beatno % 1024 = 1023 → 256 ≤ s.bar.fwBars → s.completing = false → s.hold = [] →
      s.merges = [] → s.chordq = [] → ∃ t, exec (.freewheelExpiry comp) s = .next t ∧ t.mode = .rest ∧ t.bar.hold = true ∧
        t.bar.beatno = s.bar.beatno ∧ (t.ev .bar).bits.getLsbD 1 = true ∧
        (s.bar.fwclose = true → t.ringA.swOpen = false ∧ t.ringB.swOpen = false) ∧
        (s.bar.fwclose = false → t.ringA.swOpen = s.ringA.swOpen ∧ t.ringB.swOpen = s.ringB.swOpen) ∧ SameStores s t) ∧
    (∀ comp, s.mode ≠ .freewheel ∨ s.bar.fwBars < 256 ∨ s.bar.beatno % 1024 ≠ 1023 →
      exec (.freewheelExpiry comp) s = .next s))) ∧
  ((∀ (s s1 : State) (rq : Req) (j : Job), s.taken rq = some (j, s1) → (Instr.close rq).wf = true →
    (s1.closing = none → s1.restDue = false → ∃ t c, exec (.close rq) s = .next t ∧ t.closing = some c ∧ c.rid = j.rid ∧
      c.hib = (pb rq 8 / 2 % 2 == 1) ∧ (∀ e, (s1.eng e).live = true → (t.eng e).state = .stopped ∧ (t.eng e).fifo = []) ∧
      (∀ e, (s1.eng e).live = false → t.eng e = s1.eng e)) ∧
    (s1.closing = none → s1.restDue = true → ∃ t c, exec (.close rq) s = .next t ∧ t.closing = some c ∧ c.rid = j.rid ∧
      c.answered = false ∧ t.restDue = true ∧ t.replies = s1.replies ∧ t.engs = s1.engs ∧ t.mode = s1.mode ∧ SameStores s1 t) ∧
    (s1.closing = none → s1.restDue = false → pb rq 8 % 2 = 0 → s1.hold = [] → s1.merges = [] → s1.jobs = [] →
      s1.tier.splitReq = s1.tier.split → (∀ f ∈ s1.inflight, f.rid = j.rid) → (∃ f ∈ s1.inflight, f.rid = j.rid) →
      ∃ t, exec (.close rq) s = .next t ∧ Replied s1 t j.rid rq 0x00 0 [] ∧ SameStores s1 t) ∧
    (s1.closing ≠ none → ∃ t, exec (.close rq) s = .next t ∧ Replied s1 t j.rid rq 0x00 0 [] ∧ t.closing = s1.closing ∧
      t.engs = s1.engs ∧ SameStores s1 t)) ∧
  (∀ (s : State) (c : CloseJob) (f : EveningFind), s.closing = some c →
    ((Instr.eveningToll f).wf = true → c.leaving = true → s.ringA.swOpen = false → s.ringB.swOpen = false →
      s.mode.timed = true → s.completing = false → ∃ t, exec (.eveningToll f) s = .next t ∧ t.mode = .eveningToll ∧
        t.near = [] ∧ t.copies = [] ∧ t.tal.on = 0 ∧ t.tal.recs = [] ∧
        t.toll.count = min (s.toll.count + 1) (2 ^ 32 - 1) ∧
        (s.pwr.wrhold = false → ∀ d : Fin 11, t.toll.sac[d] = (f.sacPulses.getD d.val 0).toNat) ∧
        (s.pwr.wrhold = true → t.toll.sac = s.toll.sac) ∧ (f.fatal = false → t.knl.due = s.knl.due) ∧
        (f.fatal = true → t.knl.due.length = s.knl.due.length + 1) ∧ (∀ a, cellGet t.mram a = cellGet s.mram a)) ∧
    (c.leaving = false ∨ s.ringA.swOpen = true ∨ s.ringB.swOpen = true → (Instr.eveningToll f).wf = true →
      exec (.eveningToll f) s = .next s) ∧
    (s.mode = .eveningToll → s.completing = false → s.knl.due = [] → ∃ t, exec .eveningTollDone s = .next t ∧
      t.toll.ordValid = true ∧ (t.toll.ordPass = true ↔ s.toll.recs = []) ∧ t.toll.ordFull = s.toll.fullnext ∧
      t.toll.ordMsince = s.toll.closeMsince ∧ t.toll.ordStart = s.toll.startLvl ∧ t.closing = none ∧ t.mode = (if c.hib then .hibernate else .eveningToll) ∧
      (s.toll.recs ≠ [] → (t.ev .toll).bits.getLsbD 1 = true) ∧ (∀ a, cellGet t.mram a = cellGet s.mram a)) ∧
    (s.mode ≠ .eveningToll → exec .eveningTollDone s = .next s)))

/-- The I3C target. SETDASA at its static address 0x34 + SB_ADDR, and ENTDAA, give it an address while it has none, RSTDAA
takes it away. A private write at its address of
one PING is answered as on a ring; one shorter than a header gets CRC_FAIL, cause 2, and is counted; with a reply
unread, and at another address, it takes none. A private read takes the whole reply; one that stops early leaves it. In Off
and Hibernate nothing answers. TAP_INSTRUCTION and RAIL_OUT_OF_LIMITS. IDCODE gives 0x1648A0B5 in Held and, with PWRGOOD, in every
mode that answers; with the test seal every instruction acts as BYPASS, as do those that the mode does not serve. A
rail that leaves its limits under PWRGOOD sets PWR_EVENTS bit 4.
It says where these complete: I3C_PRIVATE_WRITE, I3C_PRIVATE_READ, SETDASA, ENTDAA, RSTDAA, TAP_INSTRUCTION,
RAIL_OUT_OF_LIMITS. -/
def Obligations.SidebandTargets : Prop :=
  (∀ (s : State),
    let answers := s.mode ≠ .off ∧ s.mode ≠ .hibernate ∧ (s.mode = .held → s.pins.pwrgood = true)
    let ready := answers ∧ s.i3c.busy = false ∧ s.i3c.unread = none ∧ s.completing = false
    let silent := s.mode = .off ∨ s.mode = .hibernate
    let static := (0x34 : BitVec 7) + s.pins.sbAddr.setWidth 7
    let at_ := s.i3c.dyn.getD static
    (∀ a, answers → s.i3c.dyn = none →
      exec (.setdasa ⟨static, a⟩) s = .next { s with i3c := { s.i3c with dyn := some a } } ∧
      exec (.entdaa a) s = .next { s with i3c := { s.i3c with dyn := some a } }) ∧
    (∀ x a, x ≠ static → exec (.setdasa ⟨x, a⟩) s = .next s) ∧
    (∀ x a, silent ∨ s.i3c.dyn ≠ none → exec (.setdasa ⟨x, a⟩) s = .next s ∧ exec (.entdaa a) s = .next s) ∧
    (answers → exec .rstdaa s = .next { s with i3c := { s.i3c with dyn := none } }) ∧
    (silent → exec .rstdaa s = .next s) ∧
    (∀ bytes, ready → bytes.length < 16 → ∃ t p, exec (.i3cPrivateWrite ⟨at_, bytes⟩) s = .next t ∧ t.i3c.unread = some p ∧
      p.payload = [] ∧ p.hdr = replyHdr (shortHeader bytes) 0 false false 0x33 t.cond.toNat (2 + 256 * bytes.length) 0 ∧
      t.gen.e2eFail = min (s.gen.e2eFail + 1) (2 ^ 32 - 1) ∧ t.replies = s.replies ∧ SameStores s t) ∧
    (∀ bytes j s1, ready →
      let rq := { reqOfBytes (bytes.take 16) .i3c 0 with payload := (bytes.take (bytes.length - 4)).drop 16 }
      20 ≤ bytes.length → rq.opc = 0x01 → rq.len.toNat ≤ 256 → bytes.length = 20 + rq.len.toNat →
      leBytes 4 (crc32c (bytes.take (bytes.length - 4))).toNat = bytes.drop (bytes.length - 4) →
      ({ s with i3c := { s.i3c with busy := true } }).taken rq = some (j, s1) →
      ∃ t, exec (.i3cPrivateWrite ⟨at_, bytes⟩) s = .next t ∧ Replied s1 t j.rid rq 0x00 s.bar.beatno rq.payload ∧
        t.i3c.busy = false ∧ t.gen.e2eFail = s.gen.e2eFail ∧ SameStores s t) ∧
    (∀ x bytes, silent ∨ s.i3c.busy = true ∨ s.i3c.unread ≠ none ∨ x ≠ at_ →
      exec (.i3cPrivateWrite ⟨x, bytes⟩) s = .next s) ∧
    (∀ p stop, answers → s.i3c.unread = some p → (∀ n, stop = some n → 20 + p.payload.length ≤ n) →
      exec (.i3cPrivateRead ⟨at_, stop⟩) s = .next { s with i3c := { s.i3c with unread := none }, sent := p :: s.sent }) ∧
    (∀ x p n, s.i3c.unread = some p → n < 20 + p.payload.length → exec (.i3cPrivateRead ⟨x, some n⟩) s = .next s) ∧
    (∀ x stop, s.i3c.unread = none ∨ x ≠ at_ → exec (.i3cPrivateRead ⟨x, stop⟩) s = .next s)) ∧
  (∀ (s : State),
    let answers := s.mode ≠ .off ∧ s.mode ≠ .hibernate ∧ (s.mode = .held → s.pins.pwrgood = true)
    (answers → s.bel.testSeal = false → s.pins.pwrgood = true →
      exec (.tapInstruction .idcode) s = .next { s with tap := ⟨.idcode, 0x1648A0B5⟩ }) ∧
    (∀ x, answers → s.bel.testSeal = true → exec (.tapInstruction x) s = .next { s with tap := ⟨.bypass, 0⟩ }) ∧
    (∀ x, answers → s.mode ≠ .held → x ≠ .idcode → x ≠ .samplePreload →
      exec (.tapInstruction x) s = .next { s with tap := ⟨.bypass, 0⟩ }) ∧
    (∀ x, s.mode = .held → s.pins.pwrgood = true → s.bel.testSeal = false → x ≠ .idcode → x ≠ .bypass →
      ∃ t, exec (.tapInstruction x) s = .next t ∧ t.tap.ir = x ∧ t.mode = s.mode ∧ SameStores s t) ∧
    (∀ x, s.mode = .off ∨ s.mode = .hibernate → exec (.tapInstruction x) s = .next s) ∧
    (∀ rails, (s.pins.rails &&& ~~~ rails ≠ 0 → answers → s.pins.pwrgood = true →
        exec (.railOutOfLimits rails) s = .next (State.raise { s with pins := { s.pins with rails := rails } } .pwr 0x10)) ∧
      (s.pins.rails &&& ~~~ rails = 0 ∨ s.pins.pwrgood = false →
        exec (.railOutOfLimits rails) s = .next { s with pins := { s.pins with rails := rails } })))

/-! ### The Knell (18 R427 to R436; 07 R202) -/

/-- KNELL and WATCHDOG_EXPIRY. A cause that is due, or reported, in a mode of Table 17.1, with no Knell running, begins one: every engine stops,
requests and replies are gone, NEW is set, and the summary names the cause, its DETAIL, the mode, the next KNELL_SEQ
and a record that is pending. A second cause is CAUSE2 and changes nothing else of the sequence; a cause during
another completion joins it. In another mode nothing changes. KNELL_RECORD_BOUND stops the record where it stands.
COMPLETION_END of a Knell, once no record chord is left or held, closes both switches and leads to Knelled with
RECSTATE as the trailers say; before that nothing changes. KNELL_READ returns LEN bytes: of the Belfry summary, zeros
while it is absent; of the Main record, zeros while no Knell has been recorded. It changes no stored byte.
It says where these complete: KNELL_READ, COMPLETION_END, KNELL, WATCHDOG_EXPIRY, KNELL_RECORD_BOUND. -/
def Obligations.KnellSequence : Prop :=
  (∀ (s : State) (detail : Word) (comp : CompOut),
    let mode := s.mode = .join ∨ s.mode = .run ∨ s.mode = .degraded ∨ s.mode = .freewheel ∨ s.mode = .rest ∨
      s.mode = .eveningToll
    let begins := fun (i : Instr) (code d : Nat) => ∃ t x, exec i s = .next t ∧ t.knl.running = true ∧
      t.completing = true ∧ t.triggers = [.knell] ∧ t.mode = s.mode ∧ t.inflight = [] ∧ t.replies = [] ∧
      (∀ e : Engine, (t.eng e).live = false) ∧ (t.ev .knl).bits.getLsbD 0 = true ∧ t.knl.summary = some x ∧
      x.cause = (code, 0) ∧ x.detail = BitVec.ofNat 32 d ∧ x.seq = (s.knl.seq + 1) % 2 ^ 32 ∧ x.mode = s.mode ∧
      x.recstate = 8 ∧ t.knl.confirmed = (0, 0)
    let found := [(KnellCause.toll, 0x01), (.chkfail, 0x02), (.metafail, 0x03), (.logmain, 0x05)]
    (mode → s.knl.running = false → s.completing = false →
      (∀ c code d, (c, code) ∈ (.sramded, 0x04) :: found → s.knl.due = [(code, d)] → begins (.knell c detail comp) code d)) ∧
    (mode → s.knl.running = false → s.completing = false → s.knl.due = [] →
      begins (.knell .sramded detail comp) 0x04 detail.toNat ∧ begins (.knell .assert detail comp) 0x07 detail.toNat ∧
      begins (.watchdogExpiry detail comp) 0x06 detail.toNat) ∧
    (∀ c code, (c, code) ∈ found → s.knl.due = [] → exec (.knell c detail comp) s = .next s) ∧
    (∀ x, mode → s.knl.running = true → s.knl.summary = some x → x.cause.2 = 0 →
      ∃ t y, exec (.knell .assert detail comp) s = .next t ∧ t.knl.summary = some y ∧ y.cause = (x.cause.1, 0x07) ∧
        y.seq = x.seq ∧ y.recstate = x.recstate ∧ t.knl.running = true ∧ t.knl.recLeft = s.knl.recLeft ∧
        t.hold = s.hold ∧ t.mode = s.mode ∧ (∀ a, cellGet t.mram a = cellGet s.mram a)) ∧
    (mode → s.knl.running = false → s.completing = true → ∃ t, exec (.knell .assert detail comp) s = .next t ∧
      t.triggers = s.triggers ++ [.knell] ∧ t.knl.running = false ∧ SameStores s t) ∧
    (∀ c, s.mode = .off ∨ s.mode = .hibernate ∨ s.mode = .held ∨ s.mode = .morningToll ∨ s.mode = .knelled →
      exec (.knell c detail comp) s = .next s ∧ exec (.watchdogExpiry detail comp) s = .next s)) ∧
  (∀ (s : State),
    (s.knl.running = true → exec .knellRecordBound s = .next { s with knl := { s.knl with recLeft := [] } }) ∧
    (s.knl.running = false → exec .knellRecordBound s = .next s) ∧
    (∀ x, s.completing = true → s.knl.running = true → s.knl.recLeft = [] → s.hold = [] → s.knl.summary = some x →
      ∃ t y, exec .completionEnd s = .next t ∧ t.mode = .knelled ∧ t.completing = false ∧ t.triggers = [] ∧
        t.knl.running = false ∧ t.ringA.swOpen = false ∧ t.ringB.swOpen = false ∧ t.knl.summary = some y ∧
        y.cause = x.cause ∧ y.recstate = b2n s.knl.trailer.1 + 2 * b2n s.knl.trailer.2 ∧ t.alertNLow = true ∧
        (∀ a, cellGet t.mram a = cellGet s.mram a)) ∧
    (s.completing = true → s.knl.running = true → (s.knl.recLeft ≠ [] ∨ s.hold ≠ []) → exec .completionEnd s = .next s)) ∧
  (∀ (s s1 : State) (rq : Req) (j : Job), s.taken rq = some (j, s1) → (Instr.knellRead rq).wf = true →
    let off := rq.param.toNat % 2 ^ 32
    let n := rq.len.toNat
    let good := fun (b : List Byte) => ∃ t, exec (.knellRead rq) s = .next t ∧ Replied s1 t j.rid rq 0x00 0 b ∧
      t.knl = s1.knl ∧ SameStores s1 t
    (pb rq 13 = 1 → s1.knl.summary = none → good (List.replicate n 0)) ∧
    (∀ x, pb rq 13 = 1 → s1.knl.summary = some x → good ((x.bytes.drop off).take n)) ∧
    (pb rq 13 ≠ 1 → s1.knl.seq = 0 → s1.knl.summary = none → good (List.replicate n 0)) ∧
    (∀ d, pb rq 13 ≠ 1 → s1.knl.summary ≠ none → off % 64 = 0 → n = 64 → off < 2 ^ 18 →
      (s1.decodeAt (Config.knellBase + pb rq 12 * Config.knellCopyChords + off / 64)).value = some d →
      d.length = 64 → good d))

/-! ### The Belfry (15 R376 to R386; 07 R194 to R196) -/

/-- A ring request whose first entry in flight still waits for its reply; over I3C none is kept. -/
def FirstAwaits (s : State) (rid : Nat) (rq : Req) : Prop :=
  rq.via = .i3c ∨ ∃ f, s.findReq rid = some f ∧ f.stage ≠ .replied ∧ f.stage ≠ .late

/-- BELFRY_READ and BELFRY_SEAL at a free port, and BELFRY_WRITE. A read returns the bytes at its address; a seal of
pages seals exactly those and keeps every earlier seal, the test seal is set for good, each with its Stroke: outside ring
time at once, in ring time in the Beat that funds it; a write waits at the port, with LEN 0 it is OK at once. Behind a write
at the port a read waits. None of them changes a stored byte. BELFRY_CHUNK_WRITE of the write at the port. Up to 32 bytes go
to the port; outside ring time they are stored at once at its address, no other byte changes, and with the last byte it
replies OK with the bytes stored; in ring time each chunk write is one Stroke of a Beat, which stores its bytes. A first page
that is sealed or outside the customer area is DENIED and stores nothing. With the port empty nothing changes.
It says where these complete: BELFRY_READ, BELFRY_WRITE, BELFRY_SEAL_PAGES, BELFRY_SEAL_TEST, BELFRY_CHUNK_WRITE. -/
def Obligations.BelfryRequestsAndChunks : Prop :=
  (∀ (s s1 : State) (rq : Req) (j : Job), s.taken rq = some (j, s1) → s1.bel.run = none → s1.belActive = true →
    let a := rq.param.toNat % 65536
    let n := rq.len.toNat
    let seals := fun (i : Instr) (p : State → Prop) => i.wf = true → s1.bel.port = [] → FirstAwaits s1 j.rid rq →
      (s1.belPaced = false → ∃ t, exec i s = .next t ∧ Replied s1 t j.rid rq 0x00 0 [] ∧ p t ∧ SameStores s1 t ∧
        (t.kit 0).spent = min ((s1.kit 0).spent + 1) (2 ^ 32 - 1)) ∧
      (s1.belPaced = true → ∃ t, exec i s = .next t ∧ SameStores s1 t ∧ t.replies = s1.replies ∧
        t.bel.seals = s1.bel.seals ∧ t.bel.testSeal = s1.bel.testSeal ∧
        t.bel.run = some ⟨[⟨true, false, .again, some (.seal_ j.rid rq)⟩], s1.nextEnt⟩ ∧
        Replied t t.belNext j.rid rq 0x00 0 [] ∧ p t.belNext ∧ SameStores s1 t.belNext)
    ((Instr.belfryRead rq).wf = true → s1.bel.port = [] → FirstAwaits s1 j.rid rq →
      ∃ t, exec (.belfryRead rq) s = .next t ∧
        Replied s1 t j.rid rq 0x00 0 ((List.range n).map fun i => cellGet s1.bel.mem (a + i)) ∧
        t.bel = { s1.bel with busyPs := s1.bel.busyPs + 20000 * chunksOf a n } ∧ SameStores s1 t) ∧
    (∀ rid rest, (Instr.belfryRead rq).wf = true → s1.bel.port = .write rid :: rest →
      ∃ t, exec (.belfryRead rq) s = .next t ∧ t.bel.port = s1.bel.port ++ [.read j.rid rq] ∧ t.replies = s1.replies ∧
        SameStores s1 t) ∧
    seals (.belfrySealPages rq) (fun t => t.bel.testSeal = s1.bel.testSeal ∧
      ∀ p, p < 256 → (t.bel.seals.getLsbD p = true ↔ s1.bel.seals.getLsbD p = true ∨
        (pb rq 9 ≤ p ∧ p < pb rq 9 + pb rq 10))) ∧
    seals (.belfrySealTest rq) (fun t => t.bel.testSeal = true ∧ t.bel.seals = s1.bel.seals) ∧
    ((Instr.belfryWrite rq).wf = true → rq.len = 0 → ∃ t, exec (.belfryWrite rq) s = .next t ∧
      Replied s1 t j.rid rq 0x00 0 [] ∧ t.bel = s1.bel ∧ SameStores s1 t) ∧
    ((Instr.belfryWrite rq).wf = true → rq.len ≠ 0 → s1.bel.port = [] → ∃ t, exec (.belfryWrite rq) s = .next t ∧
      t.bel.port = [.write j.rid] ∧ t.bel.jobs = s1.bel.jobs ++ [⟨j.rid, rq, j.kit, 0, false⟩] ∧
      t.replies = s1.replies ∧ SameStores s1 t)) ∧
  (∀ (s : State) (tries : Fin 3) (jb : BelJob), s.bel.run = none →
    let a := jb.rq.param.toNat % 65536 + jb.done
    let len := jb.rq.len.toNat
    let n := s.bel.chunkLen a (len - jb.done)
    let bytes := (jb.rq.payload.drop jb.done).take n
    let ok := s.bel.port = [.write jb.rid] ∧ s.bel.jobs = [jb] ∧ s.belActive = true ∧ jb.failed = false
    let goes := ok ∧ cellsWf s.bel.mem = true ∧ jb.done < len ∧ jb.rq.payload.length = len ∧
      s.bel.writable (a / 256) = true
    let stored := fun (t : State) => t.mram = s.mram ∧
      (∀ i, i < n → cellGet t.bel.mem (a + i) = jb.rq.payload.getD (jb.done + i) 0) ∧
      (∀ x, (x < a ∨ a + n ≤ x) → cellGet t.bel.mem x = cellGet s.bel.mem x)
    (goes → s.belPaced = false → jb.done + n < len → s.bel.writable ((a + n) / 256) = true →
      ∃ t, exec (.belfryChunkWrite tries true) s = .next t ∧ stored t ∧ t.replies = s.replies ∧
        t.bel.jobs = [{ jb with done := jb.done + n }] ∧ t.bel.port = s.bel.port) ∧
    (goes → s.belPaced = false → jb.done + n = len → FirstAwaits s jb.rid jb.rq →
      ∃ t, exec (.belfryChunkWrite tries true) s = .next t ∧ stored t ∧ Replied s t jb.rid jb.rq 0x00 (len % 65536) [] ∧
        t.bel.jobs = [] ∧ t.bel.port = []) ∧
    (goes → s.belPaced = true → ∃ t x, exec (.belfryChunkWrite tries true) s = .next t ∧ SameStores s t ∧
      t.bel.run = some x ∧ x.steps.length = tries.val + 1 ∧ (x.steps.getLast?.map BelStep.put) = some (.data a bytes) ∧
      t.bel.jobs = [{ jb with done := jb.done + n }] ∧ t.bel.port = s.bel.port ∧ t.replies = s.replies) ∧
    (∀ good, ok → jb.done = 0 → len ≠ 0 → s.bel.writable (a / 256) = false → FirstAwaits s jb.rid jb.rq →
      ∃ t, exec (.belfryChunkWrite tries good) s = .next t ∧ Replied s t jb.rid jb.rq 0x20 3 [] ∧ t.bel.jobs = [] ∧
        t.bel.port = [] ∧ SameStores s t) ∧
    (∀ good, s.bel.port = [] → exec (.belfryChunkWrite tries good) s = .next s)) ∧
  (∀ (s : State) (house cal : Bool) (at_ : Nat) (bs : List Byte) (rest : List BelStep) (since : Nat),
    s.bel.run = some ⟨⟨house, cal, .data at_ bs, none⟩ :: rest, since⟩ → s.bel.port = [] → s.belPaced = true →
    cellsWf s.bel.mem = true →
    let t := s.belNext
    (∀ i, i < bs.length → cellGet t.bel.mem (at_ + i) = bs.getD i 0) ∧
    (∀ x, (x < at_ ∨ at_ + bs.length ≤ x) → cellGet t.bel.mem x = cellGet s.bel.mem x) ∧
    t.bel.run = (if rest = [] then none else some ⟨rest, since⟩) ∧
    t.bel.writes = min (s.bel.writes + 1) (2 ^ 32 - 1) ∧ t.mram = s.mram ∧ t.replies = s.replies)

/-- CRITICAL_RECORD_UPDATE and CRITICAL_RECORD_READ. An update at the head of the queue writes both copies alike, with
a good CRC and the next generation, outside ring time at once, in ring time chunk by chunk in the Beats that fund it; where
copy A fails, copy B is left. A read of two equal good copies changes
nothing; in ring time a good copy A replaces a bad copy B, outside it the rewrite waits for Run; with both bad the record is
absent and BEL_EVENTS bit 1 is set. EVENT_LOG_WRITE and SHADOW_LOG_WRITE. One record that waits goes into
the two slots of the next chunk, with its SEQ, and the queue is empty; a chunk that fails sets LOGDEG and BEL_EVENTS
bit 0. Under LOGDEG the record goes into the next place of the shadow log, as one held chord of maintenance. With
nothing queued nothing changes. BELFRY_REFRESH_STEP of a step that fell due at Beat 32 of each 16th Bar, for a page of the
customer area: with no chunk whose two reads differ the step is done at once, otherwise each such chunk is rewritten with its
own bytes in the Beats that fund it; with no step due nothing changes. Stored bytes stay.
It says where these complete: BELFRY_REFRESH_STEP, CRITICAL_RECORD_UPDATE, CRITICAL_RECORD_READ, EVENT_LOG_WRITE,
SHADOW_LOG_WRITE. -/
def Obligations.BelfryRecordsAndLogs : Prop :=
  (∀ (s : State) (r : RecId) (body : List Byte), cellsWf s.bel.mem = true → s.belFree = true →
    let p := recPlace r
    (∀ rest, s.bel.recq = r :: rest → s.belPaced = false →
      ∃ t, exec (.criticalRecordUpdate r body true) s = .next t ∧ t.bel.recq = rest ∧
        t.bel.copyOf r true = t.bel.copyOf r false ∧ recGood (t.bel.copyOf r false) = true ∧
        byteAt (t.bel.copyOf r false) 0 = byteAt body 0 ∧
        byteAt (t.bel.copyOf r false) 1 = (s.bel.genOf r + 1) % 256 ∧ t.mram = s.mram) ∧
    (∀ rest, s.bel.recq = r :: rest → s.belPaced = true →
      ∃ t x, exec (.criticalRecordUpdate r body true) s = .next t ∧ t.bel.recq = rest ∧ t.bel.run = some x ∧
        x.steps.length = chunksOf p.1 p.2.2 + chunksOf p.2.1 p.2.2 ∧
        (x.steps.getLast?.bind BelStep.fin) = some (.record r) ∧ SameStores s t) ∧
    (∀ rest, s.bel.recq = r :: rest → s.belPaced = false → (∀ k, r = .key k → (s.kit k).wipe ≠ .under) →
      ∃ t, exec (.criticalRecordUpdate r body false) s = .next t ∧ t.bel.recq = rest ∧
        t.bel.copyOf r true = s.bel.copyOf r true ∧ t.mram = s.mram) ∧
    (∀ good, s.bel.recq.head? ≠ some r → exec (.criticalRecordUpdate r body good) s = .next s) ∧
    (recGood (s.bel.copyOf r false) = true → s.bel.copyOf r true = s.bel.copyOf r false →
      exec (.criticalRecordRead r) s = .next s) ∧
    (recGood (s.bel.copyOf r false) = true → recGood (s.bel.copyOf r true) = false →
      (s.belPaced = true → ∃ t, exec (.criticalRecordRead r) s = .next t ∧ SameStores s t ∧
        t.bel.run = some ⟨maintSteps false p.2.1 (s.bel.copyOf r false) (some .fix), s.nextEnt⟩) ∧
      (s.belPaced = false → r ∉ s.bel.recLater → ∃ t, exec (.criticalRecordRead r) s = .next t ∧ SameStores s t ∧
        t.bel.recLater = s.bel.recLater ++ [r])) ∧
    (recGood (s.bel.copyOf r false) = false → recGood (s.bel.copyOf r true) = false → r ∉ s.bel.recAbsent →
      ∃ t, exec (.criticalRecordRead r) s = .next t ∧ (t.ev .bel).bits.getLsbD 1 = true ∧ r ∈ t.bel.recAbsent ∧
        SameStores s t)) ∧
  (∀ (s : State) (x : LogRec), s.bel.logq = [x] → s.bel.lostNow = 0 → x.rid = none → s.logDone = false →
    let a := 0x4000 + 16 * (s.bel.seq % 1024)
    (s.belFree = true → s.gen.logdeg = false → cellsWf s.bel.mem = true → s.belPaced = false →
      ∃ t, exec (.eventLogWrite true) s = .next t ∧ t.bel.logq = [] ∧ t.bel.seq = (s.bel.seq + 2) % 4096 ∧
        cellsRead t.bel.mem a 16 = x.bytes s.bel.seq ∧
        (∀ b, (b < a ∨ a + 32 ≤ b) → cellGet t.bel.mem b = cellGet s.bel.mem b) ∧ t.mram = s.mram) ∧
    (s.belFree = true → s.gen.logdeg = false → s.belPaced = true →
      ∃ t bs, exec (.eventLogWrite true) s = .next t ∧ t.bel.logq = [] ∧ t.bel.seq = (s.bel.seq + 2) % 4096 ∧
        t.bel.run = some ⟨[⟨false, false, .data a bs, some (.log [] 0)⟩], s.nextEnt⟩ ∧ bs.length = 32 ∧
        bs.take 16 = x.bytes s.bel.seq ∧ SameStores s t) ∧
    (s.belFree = true → s.gen.logdeg = false → s.belPaced = false →
      ∃ t, exec (.eventLogWrite false) s = .next t ∧ t.gen.logdeg = true ∧ (t.ev .bel).bits.getLsbD 0 = true ∧
        t.mram = s.mram) ∧
    (∀ good, s.bel.run = none → s.belFree = false ∨ s.gen.logdeg = true → exec (.eventLogWrite good) s = .next s) ∧
    (∀ d, s.gen.logdeg = true → s.mode.traffic = true → s.completing = false →
      s.maintFits (s.chordCost (Config.shadowBase + s.bel.shadowHead / 4)) = true →
      s.bel.shadowCopy = some (s.bel.shadowHead / 4, d) → d.length = 64 → ∃ t e, exec .shadowLogWrite s = .next t ∧
        t.hold = s.hold ++ [e] ∧ e.maint = true ∧ e.chord = BitVec.ofNat 28 (Config.shadowBase + s.bel.shadowHead / 4) ∧
        (e.data.drop (16 * (s.bel.shadowHead % 4))).take 16 = x.bytes s.bel.seq ∧
        e.data.take (16 * (s.bel.shadowHead % 4)) = d.take (16 * (s.bel.shadowHead % 4)) ∧ t.bel.logq = [] ∧
        t.bel.shadowHead = (s.bel.shadowHead + 1) % 4096 ∧ SameStores s t) ∧
    (s.gen.logdeg = false → exec .shadowLogWrite s = .next s)) ∧
  (∀ (s : State) (weak still : BitVec 8), still &&& ~~~ weak = 0 →
    let chunks := ((List.range 8).filter fun i => weak.getLsbD i).length
    (s.bar.beatno / 1024 % 16 = 0 → s.bar.beatno % 1024 = 32 → s.bel.refreshDue = none →
      s.refreshFalls.bel.refreshDue = some (s.bar.beatno / 1024 / 16) ∧ s.refreshFalls.bel.refreshDrop = s.bel.refreshDrop) ∧
    (∀ turn, s.bel.refreshDue = some turn → s.belPaced = true → s.belFree = true → 128 ≤ turn % 256 → turn % 256 ≤ 191 →
      (weak = 0 → ∃ t, exec (.belfryRefreshStep weak still) s = .next t ∧ t.bel.refreshDue = none ∧ t.bel.run = none ∧
        t.bel.weak = s.bel.weak ∧ t.evs = s.evs ∧ SameStores s t) ∧
      (weak ≠ 0 → ∃ t x, exec (.belfryRefreshStep weak still) s = .next t ∧ t.bel.refreshDue = none ∧
        t.bel.run = some x ∧ x.steps.length = chunks ∧ (∀ y ∈ x.steps, y.put = .again ∧ y.house = false) ∧
        (x.steps.getLast?.bind BelStep.fin) = some (.refresh (turn % 256) still) ∧ SameStores s t)) ∧
    (s.bel.refreshDue = none ∨ s.belPaced = false ∨ s.belFree = false →
      exec (.belfryRefreshStep weak still) s = .next s))

/-! ### Tolls beside traffic and Tally (07 R197, R200, R201; 16 R401 to R404; 18 R437 to R446) -/

/-- TALLY_READ returns whole records from the index asked for, to the newest. A record comes unredacted when it is a
device record, names the reader, the reader is the house kit, its Kit has consented, or TALLYALL is set; otherwise with TIME, TYPE and
KIT as stored, ARG all zero and RED set, house-kit records to every other Kit.
It says where these complete: TALLY_READ. -/
def Obligations.TallyReadRedacts : Prop :=
  ∀ (s s1 : State) (rq : Req) (j : Job), s.taken rq = some (j, s1) → (Instr.tallyRead rq).wf = true →
    let first := rq.param.toNat % 2 ^ 32
    let n := min (rq.len.toNat / 16) (s1.tal.index - first)
    ∃ t b, exec (.tallyRead rq) s = .next t ∧ Replied s1 t j.rid rq 0x00 0 b ∧ b.length = 16 * n ∧ t.tal = s1.tal ∧
      SameStores s1 t ∧ (∀ i r, i < n → s1.tal.recAt (first + i) = some r →
        let d := (b.drop (16 * i)).take 16
        let kit := match r.kit with | some k => k.val | none => 16
        let rest := 64 * b2n r.drop + 128 * b2n r.x
        let open_ := r.typ = 0 ∨ s1.gen.dbg.getLsbD 0 = true ∨ r.kit = none ∨ r.kit = some j.kit ∨ j.kit = 0 ∨
          ∃ k, r.kit = some k ∧ k ≠ 0 ∧ (s1.kit k).consent = true
        fieldAt d 0 6 = r.beat % 2 ^ 48 ∧ fieldAt d 6 1 = r.typ % 256 ∧
        (open_ → fieldAt d 7 1 = kit + rest ∧ fieldAt d 8 8 = r.arg.toNat) ∧
        (¬ open_ → fieldAt d 7 1 = kit + 32 + rest ∧ fieldAt d 8 8 = 0))

/-- TOLL_RUN and TOLL_RUN_DONE. TOLL_RUN starts the parts of its mask, without a reply yet; with one running it is
BUSY, resource 4. Its end, once every sacrificial chord has been written, hands the results to the Belfry, ends the run and
replies OK with their count and slot; a failure sets
TOLL_EVENTS bit 2, and a failing checker is a fatal cause. With none running nothing changes. TALLY_CTL: OP 0 stops
tracing, OP 1 records, OP 2 streams to a node of a ring from the next record on, OP 3 sets the filter, OP 4 sets the
issuing Kit's consent, which the house kit does not have. Each is OK, and no stored byte changes. TALLY_STREAM_SEND
sends four records in one EVENT packet to the stream node, unredacted, once four wait; with none waiting, or not
streaming, nothing changes.
It says where these complete: TOLL_RUN, TALLY_CTL_STOP, TALLY_CTL_RECORD, TALLY_CTL_STREAM, TALLY_CTL_FILTER,
TALLY_CTL_CONSENT, TALLY_STREAM_SEND, TOLL_RUN_DONE. -/
def Obligations.TollRunAndTallyControl : Prop :=
  ((∀ (s s1 : State) (rq : Req) (j : Job), s.taken rq = some (j, s1) → (Instr.tollRun rq).wf = true →
    (s1.toll.run = none → ∃ t, exec (.tollRun rq) s = .next t ∧ t.toll.run = some (j.rid, rq, BitVec.ofNat 8 (pb rq 8)) ∧
      t.toll.count = min (s1.toll.count + 1) (2 ^ 32 - 1) ∧ t.toll.recs = [] ∧
      t.toll.sacLeft = (if (pb rq 8).testBit 4 then 512 else 0) ∧ t.replies = s1.replies ∧ SameStores s1 t) ∧
    (s1.toll.run ≠ none → ∃ t, exec (.tollRun rq) s = .next t ∧ Replied s1 t j.rid rq 0x11 4 [] ∧ t.toll = s1.toll ∧
      SameStores s1 t)) ∧
  (∀ (s : State) (fs : List TollFail) (us : BitVec 24),
    (s.toll.run = none ∨ s.toll.sacLeft ≠ 0 → exec (.tollRunDone fs us) s = .next s) ∧
    (∀ rid rq mask f, s.toll.run = some (rid, rq, mask) → s.toll.sacLeft = 0 → s.bel.port = [] → s.bel.run = none →
      s.findReq rid = some f → f.stage ≠ .replied → f.stage ≠ .late →
      ∃ t, exec (.tollRunDone fs us) s = .next t ∧ t.toll.run = none ∧ t.mram = s.mram ∧
        t.toll.lastRecs = s.toll.lastRecs ∧
        (fs = [] → s.toll.recs = [] → t.toll.summary = s.tollNext % 864 ∧
          Replied s t rid rq 0x00 (65536 * s.tollNext) []) ∧
        (fs ≠ [] → (t.ev .toll).bits.getLsbD 2 = true) ∧
        (∀ x, fs = [x] → x.part = 0x06 → t.knl.due = s.knl.due ++ [(0x02, x.value.toNat)]) ∧
        ((∀ x ∈ fs, x.part ≠ 0x06) → t.knl.due = s.knl.due)))) ∧
  (∀ (s s1 : State) (rq : Req) (j : Job), s.taken rq = some (j, s1) →
    let good := fun (i : Instr) (p : State → Prop) => i.wf = true → ∃ t, exec i s = .next t ∧
      Replied s1 t j.rid rq 0x00 0 [] ∧ p t ∧ SameStores s1 t ∧ (∀ k, k ≠ j.kit → t.kit k = s1.kit k) ∧ t.bar = s1.bar
    good (.tallyCtlStop rq) (fun t => t.tal.on = 0 ∧ t.tal.filter = s1.tal.filter) ∧
    good (.tallyCtlRecord rq) (fun t => t.tal.on = 1 ∧ t.tal.filter = s1.tal.filter) ∧
    good (.tallyCtlStream rq) (fun t => t.tal.on = 2 ∧ t.tal.node = BitVec.ofNat 5 (pb rq 9) ∧
      t.tal.ring = ringNo (pb rq 10) ∧ t.tal.streamNext = s1.tal.index) ∧
    good (.tallyCtlFilter rq) (fun t => t.tal.filter = BitVec.ofNat 6 (rq.param.toNat / 2 ^ 32) ∧ t.tal.on = s1.tal.on ∧
      t.tal.recs = s1.tal.recs) ∧
    good (.tallyCtlConsent rq) (fun t => t.tal = s1.tal ∧ (j.kit ≠ 0 → (t.kit j.kit).consent = (pb rq 9 == 1)) ∧
      (j.kit = 0 → (t.kit 0).consent = (s1.kit 0).consent))) ∧
  (∀ s : State,
    (∀ a b c d : TalRec, s.tal.on = 2 → s.tal.node ≠ 0x1F → s.tal.oldest ≤ s.tal.streamNext →
      s.tal.streamNext + 4 ≤ s.tal.index → s.tal.recAt s.tal.streamNext = some a →
      s.tal.recAt (s.tal.streamNext + 1) = some b → s.tal.recAt (s.tal.streamNext + 2) = some c →
      s.tal.recAt (s.tal.streamNext + 3) = some d → ∃ t p, exec .tallyStreamSend s = .next t ∧ t.devq = s.devq ++ [p] ∧
        p.opc = 0x71 ∧ p.dest = s.tal.node ∧ p.ring = s.tal.ring ∧
        p.payload = a.bytes false ++ b.bytes false ++ c.bytes false ++ d.bytes false ∧
        t.tal.streamNext = s.tal.streamNext + 4 ∧ t.tal.recs = s.tal.recs ∧ SameStores s t) ∧
    (s.tal.on ≠ 2 ∨ s.tal.index ≤ s.tal.streamNext → exec .tallyStreamSend s = .next s))

/-! ### The whole machine -/

/-- After reset (the device in Held on standby power, log 3): no request, reply, held write or command waits, both
switches are closed, every engine is idle, only the house kit is live, no event is set, BEATNO is 0, and the registers
that the tables give a numeric reset value read it. Values that only the log names are left out. -/
def Obligations.ResetLeaves : Prop :=
  let s := State.reset
  s.mode = .held ∧ s.pending = [] ∧ s.inflight = [] ∧ s.replies = [] ∧ s.hold = [] ∧ s.jobs = [] ∧ s.merges = [] ∧
  s.near = [] ∧ s.copies = [] ∧ s.ringA.swOpen = false ∧ s.ringB.swOpen = false ∧ s.bar.beatno = 0 ∧
  s.bel.port = [] ∧ s.bel.logq = [] ∧ s.devq = [] ∧ s.alerts = false ∧ s.knl.running = false ∧ s.tal.on = 0 ∧
  (∀ e : Engine, (s.eng e).busy = false) ∧ (s.kit 0).live = true ∧ (∀ k : Kit, k ≠ 0 → (s.kit k).live = false) ∧
  (∀ i : EvId, (s.ev i).bits = 0) ∧
  (∀ p ∈ [(0x0000, 0x48541648), (0x0018, 64), (0x0024, 0x1F1F), (0x0414, 0), (0x0424, 1), (0x0804, 16), (0x0808, 8),
      (0x0814, 0x0180), (0x0900, 0), (0x1004, 0x100A), (0x3000, 2), (0x3010, 256), (0x3014, 16), (0x3018, 4), (0x301C, 25),
      (0x3804, 0x1001), (0x381C, 100000), (0x3820, 4), (0x3824, 64), (0x3828, 200), (0x382C, 0x0080), (0x5800, 0x100807),
      (0x5818, 4096), (0x581C, 0x0200), (0x6054, 0), (0x6804, 0), (0x7008, 4)], s.readCsr p.1 = p.2) ∧
  s.memWf = true

/-- Every step keeps the canonical form of the three byte stores: addresses rise strictly and no listed byte is 0, so
that equal contents are equal data. -/
def Obligations.StepKeepsTheMemoryForm : Prop :=
  ∀ s t : State, s.memWf = true → step s = .next t → t.memWf = true

/-- Off is left by VSTBY_UP alone; Hibernate by RESET_N, by WAKE_N or by the loss of VSTBY: no other command changes
the mode there. The premises rule out a completion, a Knell or a GONG under way, which neither mode has. -/
def Obligations.OffAndHibernateHold : Prop :=
  ∀ (c : Instr) (s t : State), s.completing = false → s.knl.running = false → s.gongDue = none → exec c s = .next t →
    (s.mode = .off → (∀ a, c ≠ .vstbyUp a) → t.mode = .off) ∧
    (s.mode = .hibernate → (∀ x, c ≠ .resetNAssert x) → c ≠ .wakeNAssert → (∀ h x, c ≠ .vstbyLoss h x) →
      t.mode = .hibernate)

/-- Every Rudiment instruction that Table 12.2 allows reads back from its word, with every operand. Every packet
header reads back from its sixteen bytes, whatever its fields. -/
def Obligations.WordsReadBack : Prop :=
  (∀ i : RudInstr, i.wf = true → Rud.decode (Rud.encode i) = some i) ∧
  (∀ rq : Req, reqOfBytes (leBytes 16 (hdrOf rq).toNat) rq.via rq.src = { rq with payload := [] })

/-- PING returns its request payload unchanged, with BEATNO of the Beat of admission in DETAIL, and at LEN 0 no
payload; no page, engine, held write or stored byte changes, and outside Strict Tempo no event is set.
It says where these complete: PING. -/
def Obligations.PingReturnsItsPayload : Prop :=
  ∀ (s s1 : State) (rq : Req) (j : Job), s.taken rq = some (j, s1) → (Instr.ping rq).wf = true →
    ∃ t, exec (.ping rq) s = .next t ∧ Replied s1 t j.rid rq 0x00 j.admBeat rq.payload ∧ (rq.len = 0 → rq.payload = []) ∧
      t.pages = s1.pages ∧ t.engs = s1.engs ∧ t.bar = s1.bar ∧ t.hold = s1.hold ∧
      (s1.gen.active = false → t.evs = s1.evs) ∧ SameStores s1 t

/-- The poison marker: data bytes 0x00, die 8 bytes 0xA5, die 9 bytes 0x5A; in each codeword S0 = 0xFF and S1 = 0x0D;
it is detected-uncorrectable with no die out and with any single position out, and a chord is recognized as it exactly
when it is detected-uncorrectable and every visible symbol matches. -/
def Obligations.PoisonMarkerIsRecognized : Prop :=
  (∀ r, r < 8 → markerSlices.getD r [] = List.replicate 8 0x00) ∧ markerSlices.getD 8 [] = List.replicate 8 0xA5 ∧
  markerSlices.getD 9 [] = List.replicate 8 0x5A ∧ markerSlices.length = 10 ∧
  (∀ i, i < 8 → syndromes (markerSlices.map fun x => byteAt x i) = (0xFF, 0x0D)) ∧
  (decodeChord [] markerSlices).cls = .uncorr ∧
  (∀ p, p < 10 → (decodeChord [p] (markerSlices.set p (zeros 8))).cls = .uncorr) ∧
  (∀ (outs : List Nat) (sl : List (List Byte)), (decodeChord outs sl).marker = true ↔
    (decodeChord outs sl).cls = .uncorr ∧ ∀ p, p < 10 → p ∉ outs → sl.getD p [] = markerSlices.getD p [])

/-- Record classes: filter bit n of TALLY_CTL OP 3 enables class n, for n = 0 to 5; class 6 is always recorded while
tracing runs; the filter resets to 0x3F. A record past the eighth of its Beat is counted as dropped instead (18 R440).
It says where these complete: TALLY_CTL_FILTER. -/
def Obligations.TallyFilter : Prop :=
  State.reset.tal.filter = 0x3F ∧
  (∀ (s s1 : State) (rq : Req) (j : Job), s.taken rq = some (j, s1) → (Instr.tallyCtlFilter rq).wf = true →
    ∃ t, exec (.tallyCtlFilter rq) s = .next t ∧ Replied s1 t j.rid rq 0x00 0 [] ∧
      ∀ n, n < 6 → t.tal.filter.getLsbD n = rq.param.toNat.testBit (32 + n)) ∧
  (∀ (s : State) (typ : Nat) (kit : Option Kit) (arg : Nat), s.tal.on ≠ 0 → s.tal.paused = false →
    s.mode.traffic = true →
    let enabled := typ / 16 = 6 ∨ s.tal.filter.getLsbD (typ / 16) = true
    (¬ enabled → s.tally typ kit arg = s) ∧
    (enabled → s.tal.inBeat < 8 → ∃ r, (s.tally typ kit arg).tal.recs.head? = some r ∧ r.typ = typ ∧ r.kit = kit ∧
      r.beat = s.bar.beatno ∧ r.arg = BitVec.ofNat 64 arg ∧ (s.tally typ kit arg).tal.drop = s.tal.drop) ∧
    (enabled → 8 ≤ s.tal.inBeat → (s.tally typ kit arg).tal.recs = s.tal.recs ∧
      (s.tally typ kit arg).tal.drop = min (s.tal.drop + 1) (2 ^ 32 - 1))) ∧
  (∀ (s : State) (typ : Nat) (kit : Option Kit) (arg : Nat), s.tal.on = 0 ∨ s.tal.paused = true ∨ s.mode.traffic = false →
    s.tally typ kit arg = s)
end

