-- ==== Sys2Proof/Laws/Bytes.lean ====
section
/-! SUPPORT. Byte stores: what a write leaves, and the canonical form that every store of bytes keeps. -/

namespace Sys2Proof.Machine

/-- A byte below every listed address reads 0. -/
theorem cellGet_of_lt {m : List Host.Cell} {lo a : Nat} (h : cellsWfFrom lo m = true) (ha : a < lo) : cellGet m a = 0 := by
  cases m with
  | nil => rfl
  | cons c rest =>
    obtain ⟨k, v⟩ := c
    simp only [cellsWfFrom, Bool.and_eq_true, decide_eq_true_eq] at h
    have h1 : k ≠ a := by omega
    have h2 : a < k := by omega
    simp [cellGet, h1, h2]

/-- The canonical form from a higher bound holds from a lower one. -/
theorem cellsWfFrom_mono {m : List Host.Cell} {lo lo' : Nat} (h : cellsWfFrom lo' m = true) (hl : lo ≤ lo') :
    cellsWfFrom lo m = true := by
  cases m with
  | nil => rfl
  | cons c rest =>
    obtain ⟨k, v⟩ := c
    simp only [cellsWfFrom, Bool.and_eq_true, decide_eq_true_eq] at h ⊢
    exact ⟨⟨by omega, h.1.2⟩, h.2⟩

/-- Writing one byte keeps the canonical form. -/
theorem cellsWfFrom_set {m : List Host.Cell} {lo a : Nat} (b : Byte) (h : cellsWfFrom lo m = true) (ha : lo ≤ a) :
    cellsWfFrom lo (cellSet m a b) = true := by
  induction m generalizing lo with
  | nil =>
    by_cases hb : b = 0#8
    · simp [cellSet, hb, cellsWfFrom]
    · simp [cellSet, hb, cellsWfFrom, ha]
  | cons c rest ih =>
    obtain ⟨k, v⟩ := c
    have h' := h
    simp only [cellsWfFrom, Bool.and_eq_true, decide_eq_true_eq, bne_iff_ne] at h
    obtain ⟨⟨hk, hv⟩, hr⟩ := h
    by_cases h1 : a < k
    · by_cases hb : b = 0#8
      · simpa [cellSet, h1, hb] using h'
      · simp only [BitVec.ofNat_eq_ofNat, cellSet, h1, hb, if_true, if_false, cellsWfFrom, Bool.and_eq_true, decide_eq_true_eq, bne_iff_ne]
        exact ⟨⟨ha, hb⟩, ⟨by omega, hv⟩, hr⟩
    · by_cases h2 : a = k
      · by_cases hb : b = 0#8
        · simp only [BitVec.ofNat_eq_ofNat, cellSet, h2, hb, Nat.lt_irrefl, if_true, if_false]
          exact cellsWfFrom_mono hr (by omega)
        · simp only [BitVec.ofNat_eq_ofNat, cellSet, h2, hb, Nat.lt_irrefl, if_true, if_false, cellsWfFrom, Bool.and_eq_true, decide_eq_true_eq,
            bne_iff_ne]
          exact ⟨⟨hk, hb⟩, hr⟩
      · simp only [BitVec.ofNat_eq_ofNat, cellSet, h1, h2, if_false, cellsWfFrom, Bool.and_eq_true, decide_eq_true_eq, bne_iff_ne]
        exact ⟨⟨hk, hv⟩, ih hr (by omega)⟩

/-- Writing one byte keeps a store canonical. -/
theorem cellsWf_set {m : List Host.Cell} (a : Nat) (b : Byte) (h : cellsWf m = true) : cellsWf (cellSet m a b) = true :=
  cellsWfFrom_set b h (Nat.zero_le a)

/-- Writing a list of bytes keeps a store canonical. -/
theorem cellsWf_write {m : List Host.Cell} (a : Nat) (bs : List Byte) (h : cellsWf m = true) :
    cellsWf (cellsWrite m a bs) = true := by
  induction bs generalizing m a with
  | nil => exact h
  | cons b bs ih => exact ih (a + 1) (cellsWf_set a b h)

/-- The byte written reads back. -/
theorem cellGet_set_same {m : List Host.Cell} {lo : Nat} (a : Nat) (b : Byte) (h : cellsWfFrom lo m = true) :
    cellGet (cellSet m a b) a = b := by
  induction m generalizing lo with
  | nil =>
    by_cases hb : b = 0#8 <;> simp [cellSet, hb, cellGet]
  | cons c rest ih =>
    obtain ⟨k, v⟩ := c
    simp only [cellsWfFrom, Bool.and_eq_true, decide_eq_true_eq, bne_iff_ne] at h
    obtain ⟨⟨hk, hv⟩, hr⟩ := h
    by_cases h1 : a < k
    · by_cases hb : b = 0#8
      · have : k ≠ a := by omega
        simp [cellSet, h1, hb, cellGet, this]
      · simp [cellSet, h1, hb, cellGet]
    · by_cases h2 : a = k
      · by_cases hb : b = 0#8
        · simp only [BitVec.ofNat_eq_ofNat, cellSet, h2, hb, Nat.lt_irrefl, if_true, if_false]
          exact cellGet_of_lt hr (by omega)
        · simp [cellSet, h2, hb, cellGet]
      · have h3 : ¬ k = a := fun e => h2 e.symm
        simp only [BitVec.ofNat_eq_ofNat, cellSet, h1, h2, if_false, cellGet, h3]
        exact ih hr

/-- A write of one byte leaves every other byte. -/
theorem cellGet_set_other {m : List Host.Cell} {lo : Nat} {a x : Nat} (b : Byte) (h : cellsWfFrom lo m = true)
    (hx : x ≠ a) : cellGet (cellSet m a b) x = cellGet m x := by
  induction m generalizing lo with
  | nil =>
    have : ¬ a = x := fun e => hx e.symm
    by_cases hb : b = 0#8
    · simp [cellSet, hb]
    · simp [cellSet, hb, cellGet, this]
  | cons c rest ih =>
    obtain ⟨k, v⟩ := c
    simp only [cellsWfFrom, Bool.and_eq_true, decide_eq_true_eq, bne_iff_ne] at h
    obtain ⟨⟨hk, hv⟩, hr⟩ := h
    have hax : ¬ a = x := fun e => hx e.symm
    by_cases h1 : a < k
    · by_cases hb : b = 0#8
      · simp [cellSet, h1, hb]
      · by_cases hxa : x < a
        · have h4 : x < k := by omega
          have h5 : ¬ k = x := by omega
          simp [cellSet, h1, hb, cellGet, hax, hxa, h4, h5]
        · simp [cellSet, h1, hb, cellGet, hax, hxa]
    · by_cases h2 : a = k
      · subst h2
        by_cases hb : b = 0#8
        · simp only [BitVec.ofNat_eq_ofNat, cellSet, hb, Nat.lt_irrefl, if_true, if_false, cellGet, hax]
          by_cases hxa : x < a
          · simp only [hxa, if_true]
            exact cellGet_of_lt hr (by omega)
          · simp [hxa]
        · simp [cellSet, hb, cellGet, hax]
      · simp only [BitVec.ofNat_eq_ofNat, cellSet, h1, h2, if_false, cellGet]
        by_cases h3 : k = x
        · simp [h3]
        · by_cases h4 : x < k
          · simp [h3, h4]
          · simp only [h3, h4, if_false]
            exact ih hr

/-- A write of bytes leaves every byte outside them. -/
theorem cellGet_write_outside {m : List Host.Cell} (a x : Nat) (bs : List Byte) (h : cellsWf m = true)
    (hx : x < a ∨ a + bs.length ≤ x) : cellGet (cellsWrite m a bs) x = cellGet m x := by
  induction bs generalizing m a with
  | nil => rfl
  | cons b bs ih =>
    have h1 := ih (m := cellSet m a b) (a + 1) (cellsWf_set a b h) (by simp only [List.length_cons] at hx; omega)
    rw [cellsWrite, h1]
    exact cellGet_set_other (lo := 0) b h (by simp only [List.length_cons] at hx; omega)

/-- The bytes written read back. -/
theorem cellsRead_write {m : List Host.Cell} (a : Nat) (bs : List Byte) (h : cellsWf m = true) :
    cellsRead (cellsWrite m a bs) a bs.length = bs := by
  induction bs generalizing m a with
  | nil => rfl
  | cons b bs ih =>
    have h1 : cellGet (cellsWrite (cellSet m a b) (a + 1) bs) a = b := by
      rw [cellGet_write_outside (a + 1) a bs (cellsWf_set a b h) (by omega)]
      exact cellGet_set_same (lo := 0) a b h
    simp only [cellsWrite, List.length_cons, cellsRead, h1, ih (m := cellSet m a b) (a + 1) (cellsWf_set a b h)]

/-! ### The operations that store bytes -/

/-- Storing a chord's slices keeps the array canonical. -/
theorem cellsWf_storeSlices (rep : Rep) (skip : Nat → Bool) (c : Nat) (sl : List (List Byte)) (ps : List Nat)
    {m : List Host.Cell} (h : cellsWf m = true) : cellsWf (storeSlices rep skip c sl ps m) = true := by
  induction ps generalizing m with
  | nil => exact h
  | cons p ps ih =>
    unfold storeSlices
    split
    · split
      · exact ih (cellsWf_write _ _ h)
      · exact ih h
    · split
      · exact ih h
      · exact ih (cellsWf_write _ _ h)

/-- A chord store keeps every byte store canonical. -/
theorem memWf_store {s : State} (c : Nat) (sl : List (List Byte)) (mask : Slices) (h : s.memWf = true) :
    (s.store c sl mask).memWf = true := by
  simp only [State.memWf, State.store, Bool.and_eq_true] at h ⊢
  exact ⟨⟨cellsWf_storeSlices _ _ _ _ _ h.1.1, h.1.2⟩, h.2⟩

/-- A Belfry store keeps every byte store canonical. -/
theorem memWf_belPut {s : State} (a : Nat) (bs : List Byte) (n : Nat) (h : s.memWf = true) :
    (s.belPut a bs n).memWf = true := by
  simp only [State.memWf, State.belPut, Bool.and_eq_true] at h ⊢
  exact ⟨h.1, cellsWf_write _ _ h.2⟩

/-- A fold of canonical stores is canonical. -/
theorem cellsWf_foldl {α : Type} (f : List Host.Cell → α → List Host.Cell)
    (hf : ∀ m x, cellsWf m = true → cellsWf (f m x) = true) (l : List α) {m : List Host.Cell} (h : cellsWf m = true) :
    cellsWf (l.foldl f m) = true := by
  induction l generalizing m with
  | nil => exact h
  | cons x xs ih => exact ih (hf m x h)

/-- A unit that takes its new content keeps every byte store canonical. -/
theorem memWf_rewriteUnit {s : State} (t : Transfer) (h : s.memWf = true) : (s.rewriteUnit t).memWf = true := by
  simp only [State.memWf, State.rewriteUnit, Bool.and_eq_true] at h ⊢
  refine ⟨⟨cellsWf_foldl _ (fun m c hm => ?_) _ h.1.1, h.1.2⟩, h.2⟩
  exact cellsWf_foldl _ (fun m r hm => cellsWf_write _ _ hm) _ hm

/-- A sector written to NAND keeps it canonical. -/
theorem cellsWf_commit {d : Deep} (page : Nat) (x : BitVec 4) (loc : Nat) (cs : List (Option (List Byte)))
    (h : cellsWf d.nand = true) : cellsWf (d.commit page x loc cs).nand = true := cellsWf_write _ _ h

/-- A Belfry store leaves the array, NAND and every Belfry byte outside it. -/
theorem belPut_leaves {s : State} (a x : Nat) (bs : List Byte) (n : Nat) (h : s.memWf = true)
    (hx : x < a ∨ a + bs.length ≤ x) :
    (s.belPut a bs n).mram = s.mram ∧ (s.belPut a bs n).deep.nand = s.deep.nand ∧
      cellGet (s.belPut a bs n).bel.mem x = cellGet s.bel.mem x := by
  simp only [State.memWf, Bool.and_eq_true] at h
  exact ⟨rfl, rfl, cellGet_write_outside a x bs h.2 hx⟩

/-- The reset state's byte stores are canonical. -/
theorem memWf_reset : State.reset.memWf = true := by decide

end Sys2Proof.Machine
end

