-- ==== Sys2Proof/Laws/Requests.lean ====
section
/-! SUPPORT. What taking up, running and answering a request do: the lemmas that statements about request rows rest on. -/

namespace Sys2Proof.Machine

/-- A request that runs is its operation on the state with it in service. -/
theorem serve_taken {s s1 : State} {rq : Req} {j : Job} (body : Job → State → State) (h : s.taken rq = some (j, s1)) :
    s.serve rq body = body j s1 := by
  unfold State.taken at h
  unfold State.serve
  cases hc : s.claim rq with
  | none => simp [hc] at h
  | some c =>
    simp only [hc] at h ⊢
    cases hk : c.kit with
    | none => simp [hk] at h
    | some k =>
      simp only [hk] at h ⊢
      split at h
      · rename_i hh
        simp only [Bool.and_eq_true, Option.isNone_iff_eq_none, Bool.not_eq_true'] at hh
        simp only [Option.some.injEq, Prod.mk.injEq] at h
        obtain ⟨rfl, rfl⟩ := h
        simp [hh.1, hh.2]
      · simp at h

/-- The request that a taken one is. -/
theorem taken_rq {s s1 : State} {rq : Req} {j : Job} (h : s.taken rq = some (j, s1)) : j.rq = rq := by
  unfold State.taken at h
  repeat' split at h
  all_goals first
    | (simp only [Option.some.injEq, Prod.mk.injEq] at h; obtain ⟨rfl, -⟩ := h; rfl)
    | simp at h

theorem runReq_taken {s s1 : State} {rq : Req} {j : Job} {ok : Bool} (body : Job → State → State)
    (h : s.taken rq = some (j, s1)) (hw : ok = true) : runReq ok rq s body = .next (body j s1) := by
  simp [runReq, hw, serve_taken body h]

/-- Setting a Kit leaves what COND shows. -/
theorem cond_setKit (s : State) (k : Kit) (x : KitSt) : (s.setKit k x).cond = s.cond := rfl

theorem replies_tempoMiss (s : State) (kit : Option Kit) (a : Answer) : (s.tempoMiss kit a).replies = s.replies := by
  unfold State.tempoMiss
  repeat' split
  all_goals try rfl
  unfold State.notifyKit State.sendDev State.raise
  repeat' split
  all_goals rfl

/-- A queued reply is the one reply. -/
theorem queueReply_replied (s : State) (rid : Nat) (rq : Req) (kit : Option Kit) (a : Answer) :
    Replied s (s.queueReply rid rq kit a) rid rq a.status a.detail a.payload := by
  unfold Replied State.queueReply
  cases hv : rq.via with
  | i3c =>
    cases kit <;> exact ⟨_, rfl, rfl, rfl, rfl, rfl⟩
  | ring r =>
    simp only
    cases kit with
    | none => exact ⟨_, by rw [replies_tempoMiss], rfl, rfl, rfl, rfl, rfl, rfl, rfl⟩
    | some k => exact ⟨_, by rw [replies_tempoMiss]; rfl, rfl, rfl, rfl, rfl, rfl, rfl, rfl⟩

/-- `answer` gives the one reply of a request that awaits it, or that came over I3C. -/
theorem answer_replied (s : State) (rid : Nat) (rq : Req) (kit : Option Kit) (a : Answer)
    (h : s.awaits rid = true ∨ rq.via = .i3c) :
    Replied s (s.answer rid rq kit a) rid rq a.status a.detail a.payload := by
  have he : s.answer rid rq kit a = s.queueReply rid rq kit a := by
    unfold State.answer
    split
    · rfl
    · rename_i r hv
      rcases h with h | h
      · simp [h]
      · simp [h] at hv
  rw [he]
  exact queueReply_replied s rid rq kit a

/-- A request in service awaits its reply. -/
theorem updReq_awaits {s : State} {f : InFlight} (h : f ∈ s.inflight) :
    (s.updReq f.rid fun x => { x with stage := .serving }).awaits f.rid = true := by
  simp only [State.awaits, State.updReq, updWhere, List.any_eq_true, List.mem_map]
  exact ⟨_, ⟨f, h, rfl⟩, by simp⟩

theorem deliver_awaits {s : State} {f : InFlight} {c : Claim} (hm : f ∈ s.inflight) (h : s.deliver f = some c) :
    c.st.awaits c.rid = true := by
  unfold State.deliver at h
  split at h
  · simp only [Option.some.injEq] at h
    subst h
    exact updReq_awaits hm
  · simp at h

/-- What is taken up awaits its reply, or came over I3C. -/
theorem claim_awaits {s : State} {rq : Req} {c : Claim} (h : s.claim rq = some c) :
    c.st.awaits c.rid = true ∨ rq.via = .i3c := by
  unfold State.claim at h
  split at h
  · right; assumption
  · left
    split at h
    · rename_i f hf
      exact deliver_awaits (List.mem_of_find?_eq_some hf) h
    · split at h
      · simp only at h
        split at h
        · rename_i f hf
          exact deliver_awaits (List.mem_of_find?_eq_some hf) h
        · simp at h
      · simp at h

/-- A request that runs awaits its reply, or came over I3C. -/
theorem taken_awaits {s s1 : State} {rq : Req} {j : Job} (h : s.taken rq = some (j, s1)) :
    s1.awaits j.rid = true ∨ rq.via = .i3c := by
  unfold State.taken at h
  cases hc : s.claim rq with
  | none => simp [hc] at h
  | some c =>
    simp only [hc] at h
    split at h
    · simp at h
    · split at h
      · simp only [Option.some.injEq, Prod.mk.injEq] at h
        obtain ⟨rfl, rfl⟩ := h
        exact claim_awaits hc
      · simp at h

end Sys2Proof.Machine
end

