-- ==== Sys2Proof/Laws/State.lean ====
section
/-! SUPPORT. Which fields of State the shared updates leave as they are, one lemma per field and update. -/

namespace Sys2Proof.Machine

@[simp] theorem setKit_pending (s : State) (k : Kit) (x : KitSt) : (s.setKit k x).pending = s.pending := rfl
@[simp] theorem setKit_mode (s : State) (k : Kit) (x : KitSt) : (s.setKit k x).mode = s.mode := rfl
@[simp] theorem setKit_prev (s : State) (k : Kit) (x : KitSt) : (s.setKit k x).prev = s.prev := rfl
@[simp] theorem setKit_completing (s : State) (k : Kit) (x : KitSt) : (s.setKit k x).completing = s.completing := rfl
@[simp] theorem setKit_triggers (s : State) (k : Kit) (x : KitSt) : (s.setKit k x).triggers = s.triggers := rfl
@[simp] theorem setKit_history (s : State) (k : Kit) (x : KitSt) : (s.setKit k x).history = s.history := rfl
@[simp] theorem setKit_headers (s : State) (k : Kit) (x : KitSt) : (s.setKit k x).headers = s.headers := rfl
@[simp] theorem setKit_pins (s : State) (k : Kit) (x : KitSt) : (s.setKit k x).pins = s.pins := rfl
@[simp] theorem setKit_gen (s : State) (k : Kit) (x : KitSt) : (s.setKit k x).gen = s.gen := rfl
@[simp] theorem setKit_bar (s : State) (k : Kit) (x : KitSt) : (s.setKit k x).bar = s.bar := rfl
@[simp] theorem setKit_stk (s : State) (k : Kit) (x : KitSt) : (s.setKit k x).stk = s.stk := rfl
@[simp] theorem setKit_tier (s : State) (k : Kit) (x : KitSt) : (s.setKit k x).tier = s.tier := rfl
@[simp] theorem setKit_deep (s : State) (k : Kit) (x : KitSt) : (s.setKit k x).deep = s.deep := rfl
@[simp] theorem setKit_ecc (s : State) (k : Kit) (x : KitSt) : (s.setKit k x).ecc = s.ecc := rfl
@[simp] theorem setKit_rep (s : State) (k : Kit) (x : KitSt) : (s.setKit k x).rep = s.rep := rfl
@[simp] theorem setKit_bel (s : State) (k : Kit) (x : KitSt) : (s.setKit k x).bel = s.bel := rfl
@[simp] theorem setKit_toll (s : State) (k : Kit) (x : KitSt) : (s.setKit k x).toll = s.toll := rfl
@[simp] theorem setKit_pwr (s : State) (k : Kit) (x : KitSt) : (s.setKit k x).pwr = s.pwr := rfl
@[simp] theorem setKit_tal (s : State) (k : Kit) (x : KitSt) : (s.setKit k x).tal = s.tal := rfl
@[simp] theorem setKit_knl (s : State) (k : Kit) (x : KitSt) : (s.setKit k x).knl = s.knl := rfl
@[simp] theorem setKit_i3c (s : State) (k : Kit) (x : KitSt) : (s.setKit k x).i3c = s.i3c := rfl
@[simp] theorem setKit_tap (s : State) (k : Kit) (x : KitSt) : (s.setKit k x).tap = s.tap := rfl
@[simp] theorem setKit_evs (s : State) (k : Kit) (x : KitSt) : (s.setKit k x).evs = s.evs := rfl
@[simp] theorem setKit_ringA (s : State) (k : Kit) (x : KitSt) : (s.setKit k x).ringA = s.ringA := rfl
@[simp] theorem setKit_ringB (s : State) (k : Kit) (x : KitSt) : (s.setKit k x).ringB = s.ringB := rfl
@[simp] theorem setKit_engs (s : State) (k : Kit) (x : KitSt) : (s.setKit k x).engs = s.engs := rfl
@[simp] theorem setKit_mram (s : State) (k : Kit) (x : KitSt) : (s.setKit k x).mram = s.mram := rfl
@[simp] theorem setKit_inflight (s : State) (k : Kit) (x : KitSt) : (s.setKit k x).inflight = s.inflight := rfl
@[simp] theorem setKit_nextRid (s : State) (k : Kit) (x : KitSt) : (s.setKit k x).nextRid = s.nextRid := rfl
@[simp] theorem setKit_replies (s : State) (k : Kit) (x : KitSt) : (s.setKit k x).replies = s.replies := rfl
@[simp] theorem setKit_devq (s : State) (k : Kit) (x : KitSt) : (s.setKit k x).devq = s.devq := rfl
@[simp] theorem setKit_devSeq (s : State) (k : Kit) (x : KitSt) : (s.setKit k x).devSeq = s.devSeq := rfl
@[simp] theorem setKit_sent (s : State) (k : Kit) (x : KitSt) : (s.setKit k x).sent = s.sent := rfl
@[simp] theorem setKit_infHigh (s : State) (k : Kit) (x : KitSt) : (s.setKit k x).infHigh = s.infHigh := rfl
@[simp] theorem setKit_orphaned (s : State) (k : Kit) (x : KitSt) : (s.setKit k x).orphaned = s.orphaned := rfl
@[simp] theorem setKit_frameErr (s : State) (k : Kit) (x : KitSt) : (s.setKit k x).frameErr = s.frameErr := rfl
@[simp] theorem setKit_qHigh (s : State) (k : Kit) (x : KitSt) : (s.setKit k x).qHigh = s.qHigh := rfl
@[simp] theorem setKit_bcast (s : State) (k : Kit) (x : KitSt) : (s.setKit k x).bcast = s.bcast := rfl
@[simp] theorem setKit_wedgedPorts (s : State) (k : Kit) (x : KitSt) : (s.setKit k x).wedgedPorts = s.wedgedPorts := rfl
@[simp] theorem setKit_barriers (s : State) (k : Kit) (x : KitSt) : (s.setKit k x).barriers = s.barriers := rfl
@[simp] theorem setKit_reads (s : State) (k : Kit) (x : KitSt) : (s.setKit k x).reads = s.reads := rfl
@[simp] theorem setKit_jobs (s : State) (k : Kit) (x : KitSt) : (s.setKit k x).jobs = s.jobs := rfl
@[simp] theorem setKit_fences (s : State) (k : Kit) (x : KitSt) : (s.setKit k x).fences = s.fences := rfl
@[simp] theorem setKit_waits (s : State) (k : Kit) (x : KitSt) : (s.setKit k x).waits = s.waits := rfl
@[simp] theorem setKit_drains (s : State) (k : Kit) (x : KitSt) : (s.setKit k x).drains = s.drains := rfl
@[simp] theorem setKit_hold (s : State) (k : Kit) (x : KitSt) : (s.setKit k x).hold = s.hold := rfl
@[simp] theorem setKit_justOut (s : State) (k : Kit) (x : KitSt) : (s.setKit k x).justOut = s.justOut := rfl
@[simp] theorem setKit_priors (s : State) (k : Kit) (x : KitSt) : (s.setKit k x).priors = s.priors := rfl
@[simp] theorem setKit_nextEnt (s : State) (k : Kit) (x : KitSt) : (s.setKit k x).nextEnt = s.nextEnt := rfl
@[simp] theorem setKit_merge (s : State) (k : Kit) (x : KitSt) : (s.setKit k x).merge = s.merge := rfl
@[simp] theorem setKit_provConfirmed (s : State) (k : Kit) (x : KitSt) : (s.setKit k x).provConfirmed = s.provConfirmed := rfl
@[simp] theorem setKit_provRetry (s : State) (k : Kit) (x : KitSt) : (s.setKit k x).provRetry = s.provRetry := rfl
@[simp] theorem setKit_provWeak (s : State) (k : Kit) (x : KitSt) : (s.setKit k x).provWeak = s.provWeak := rfl
@[simp] theorem setKit_provRecanted (s : State) (k : Kit) (x : KitSt) : (s.setKit k x).provRecanted = s.provRecanted := rfl
@[simp] theorem setKit_mergeClose (s : State) (k : Kit) (x : KitSt) : (s.setKit k x).mergeClose = s.mergeClose := rfl
@[simp] theorem setKit_redoSent (s : State) (k : Kit) (x : KitSt) : (s.setKit k x).redoSent = s.redoSent := rfl
@[simp] theorem setKit_lastComp (s : State) (k : Kit) (x : KitSt) : (s.setKit k x).lastComp = s.lastComp := rfl
@[simp] theorem setKit_compRecants (s : State) (k : Kit) (x : KitSt) : (s.setKit k x).compRecants = s.compRecants := rfl
@[simp] theorem setKit_compOver (s : State) (k : Kit) (x : KitSt) : (s.setKit k x).compOver = s.compOver := rfl
@[simp] theorem setKit_confMax (s : State) (k : Kit) (x : KitSt) : (s.setKit k x).confMax = s.confMax := rfl
@[simp] theorem setKit_pages (s : State) (k : Kit) (x : KitSt) : (s.setKit k x).pages = s.pages := rfl
@[simp] theorem setKit_moves (s : State) (k : Kit) (x : KitSt) : (s.setKit k x).moves = s.moves := rfl
@[simp] theorem setKit_near (s : State) (k : Kit) (x : KitSt) : (s.setKit k x).near = s.near := rfl
@[simp] theorem setKit_copies (s : State) (k : Kit) (x : KitSt) : (s.setKit k x).copies = s.copies := rfl
@[simp] theorem setKit_stages (s : State) (k : Kit) (x : KitSt) : (s.setKit k x).stages = s.stages := rfl
@[simp] theorem setKit_muffles (s : State) (k : Kit) (x : KitSt) : (s.setKit k x).muffles = s.muffles := rfl
@[simp] theorem setKit_stageJobs (s : State) (k : Kit) (x : KitSt) : (s.setKit k x).stageJobs = s.stageJobs := rfl
@[simp] theorem setKit_mufJobs (s : State) (k : Kit) (x : KitSt) : (s.setKit k x).mufJobs = s.mufJobs := rfl
@[simp] theorem setKit_chordq (s : State) (k : Kit) (x : KitSt) : (s.setKit k x).chordq = s.chordq := rfl
@[simp] theorem setKit_closing (s : State) (k : Kit) (x : KitSt) : (s.setKit k x).closing = s.closing := rfl
@[simp] theorem setKit_restDue (s : State) (k : Kit) (x : KitSt) : (s.setKit k x).restDue = s.restDue := rfl
@[simp] theorem setKit_gongDue (s : State) (k : Kit) (x : KitSt) : (s.setKit k x).gongDue = s.gongDue := rfl
@[simp] theorem setKit_soft (s : State) (k : Kit) (x : KitSt) : (s.setKit k x).soft = s.soft := rfl
@[simp] theorem setKit_free (s : State) (k : Kit) (x : KitSt) : (s.setKit k x).free = s.free := rfl

@[simp] theorem setEng_pending (s : State) (e : Engine) (x : EngSt) : (s.setEng e x).pending = s.pending := rfl
@[simp] theorem setEng_mode (s : State) (e : Engine) (x : EngSt) : (s.setEng e x).mode = s.mode := rfl
@[simp] theorem setEng_prev (s : State) (e : Engine) (x : EngSt) : (s.setEng e x).prev = s.prev := rfl
@[simp] theorem setEng_completing (s : State) (e : Engine) (x : EngSt) : (s.setEng e x).completing = s.completing := rfl
@[simp] theorem setEng_triggers (s : State) (e : Engine) (x : EngSt) : (s.setEng e x).triggers = s.triggers := rfl
@[simp] theorem setEng_history (s : State) (e : Engine) (x : EngSt) : (s.setEng e x).history = s.history := rfl
@[simp] theorem setEng_headers (s : State) (e : Engine) (x : EngSt) : (s.setEng e x).headers = s.headers := rfl
@[simp] theorem setEng_pins (s : State) (e : Engine) (x : EngSt) : (s.setEng e x).pins = s.pins := rfl
@[simp] theorem setEng_gen (s : State) (e : Engine) (x : EngSt) : (s.setEng e x).gen = s.gen := rfl
@[simp] theorem setEng_bar (s : State) (e : Engine) (x : EngSt) : (s.setEng e x).bar = s.bar := rfl
@[simp] theorem setEng_stk (s : State) (e : Engine) (x : EngSt) : (s.setEng e x).stk = s.stk := rfl
@[simp] theorem setEng_tier (s : State) (e : Engine) (x : EngSt) : (s.setEng e x).tier = s.tier := rfl
@[simp] theorem setEng_deep (s : State) (e : Engine) (x : EngSt) : (s.setEng e x).deep = s.deep := rfl
@[simp] theorem setEng_ecc (s : State) (e : Engine) (x : EngSt) : (s.setEng e x).ecc = s.ecc := rfl
@[simp] theorem setEng_rep (s : State) (e : Engine) (x : EngSt) : (s.setEng e x).rep = s.rep := rfl
@[simp] theorem setEng_bel (s : State) (e : Engine) (x : EngSt) : (s.setEng e x).bel = s.bel := rfl
@[simp] theorem setEng_toll (s : State) (e : Engine) (x : EngSt) : (s.setEng e x).toll = s.toll := rfl
@[simp] theorem setEng_pwr (s : State) (e : Engine) (x : EngSt) : (s.setEng e x).pwr = s.pwr := rfl
@[simp] theorem setEng_tal (s : State) (e : Engine) (x : EngSt) : (s.setEng e x).tal = s.tal := rfl
@[simp] theorem setEng_knl (s : State) (e : Engine) (x : EngSt) : (s.setEng e x).knl = s.knl := rfl
@[simp] theorem setEng_i3c (s : State) (e : Engine) (x : EngSt) : (s.setEng e x).i3c = s.i3c := rfl
@[simp] theorem setEng_tap (s : State) (e : Engine) (x : EngSt) : (s.setEng e x).tap = s.tap := rfl
@[simp] theorem setEng_evs (s : State) (e : Engine) (x : EngSt) : (s.setEng e x).evs = s.evs := rfl
@[simp] theorem setEng_ringA (s : State) (e : Engine) (x : EngSt) : (s.setEng e x).ringA = s.ringA := rfl
@[simp] theorem setEng_ringB (s : State) (e : Engine) (x : EngSt) : (s.setEng e x).ringB = s.ringB := rfl
@[simp] theorem setEng_kits (s : State) (e : Engine) (x : EngSt) : (s.setEng e x).kits = s.kits := rfl
@[simp] theorem setEng_mram (s : State) (e : Engine) (x : EngSt) : (s.setEng e x).mram = s.mram := rfl
@[simp] theorem setEng_inflight (s : State) (e : Engine) (x : EngSt) : (s.setEng e x).inflight = s.inflight := rfl
@[simp] theorem setEng_nextRid (s : State) (e : Engine) (x : EngSt) : (s.setEng e x).nextRid = s.nextRid := rfl
@[simp] theorem setEng_replies (s : State) (e : Engine) (x : EngSt) : (s.setEng e x).replies = s.replies := rfl
@[simp] theorem setEng_devq (s : State) (e : Engine) (x : EngSt) : (s.setEng e x).devq = s.devq := rfl
@[simp] theorem setEng_devSeq (s : State) (e : Engine) (x : EngSt) : (s.setEng e x).devSeq = s.devSeq := rfl
@[simp] theorem setEng_sent (s : State) (e : Engine) (x : EngSt) : (s.setEng e x).sent = s.sent := rfl
@[simp] theorem setEng_infHigh (s : State) (e : Engine) (x : EngSt) : (s.setEng e x).infHigh = s.infHigh := rfl
@[simp] theorem setEng_orphaned (s : State) (e : Engine) (x : EngSt) : (s.setEng e x).orphaned = s.orphaned := rfl
@[simp] theorem setEng_frameErr (s : State) (e : Engine) (x : EngSt) : (s.setEng e x).frameErr = s.frameErr := rfl
@[simp] theorem setEng_qHigh (s : State) (e : Engine) (x : EngSt) : (s.setEng e x).qHigh = s.qHigh := rfl
@[simp] theorem setEng_bcast (s : State) (e : Engine) (x : EngSt) : (s.setEng e x).bcast = s.bcast := rfl
@[simp] theorem setEng_wedgedPorts (s : State) (e : Engine) (x : EngSt) : (s.setEng e x).wedgedPorts = s.wedgedPorts := rfl
@[simp] theorem setEng_barriers (s : State) (e : Engine) (x : EngSt) : (s.setEng e x).barriers = s.barriers := rfl
@[simp] theorem setEng_reads (s : State) (e : Engine) (x : EngSt) : (s.setEng e x).reads = s.reads := rfl
@[simp] theorem setEng_jobs (s : State) (e : Engine) (x : EngSt) : (s.setEng e x).jobs = s.jobs := rfl
@[simp] theorem setEng_fences (s : State) (e : Engine) (x : EngSt) : (s.setEng e x).fences = s.fences := rfl
@[simp] theorem setEng_waits (s : State) (e : Engine) (x : EngSt) : (s.setEng e x).waits = s.waits := rfl
@[simp] theorem setEng_drains (s : State) (e : Engine) (x : EngSt) : (s.setEng e x).drains = s.drains := rfl
@[simp] theorem setEng_hold (s : State) (e : Engine) (x : EngSt) : (s.setEng e x).hold = s.hold := rfl
@[simp] theorem setEng_justOut (s : State) (e : Engine) (x : EngSt) : (s.setEng e x).justOut = s.justOut := rfl
@[simp] theorem setEng_priors (s : State) (e : Engine) (x : EngSt) : (s.setEng e x).priors = s.priors := rfl
@[simp] theorem setEng_nextEnt (s : State) (e : Engine) (x : EngSt) : (s.setEng e x).nextEnt = s.nextEnt := rfl
@[simp] theorem setEng_merge (s : State) (e : Engine) (x : EngSt) : (s.setEng e x).merge = s.merge := rfl
@[simp] theorem setEng_provConfirmed (s : State) (e : Engine) (x : EngSt) : (s.setEng e x).provConfirmed = s.provConfirmed := rfl
@[simp] theorem setEng_provRetry (s : State) (e : Engine) (x : EngSt) : (s.setEng e x).provRetry = s.provRetry := rfl
@[simp] theorem setEng_provWeak (s : State) (e : Engine) (x : EngSt) : (s.setEng e x).provWeak = s.provWeak := rfl
@[simp] theorem setEng_provRecanted (s : State) (e : Engine) (x : EngSt) : (s.setEng e x).provRecanted = s.provRecanted := rfl
@[simp] theorem setEng_mergeClose (s : State) (e : Engine) (x : EngSt) : (s.setEng e x).mergeClose = s.mergeClose := rfl
@[simp] theorem setEng_redoSent (s : State) (e : Engine) (x : EngSt) : (s.setEng e x).redoSent = s.redoSent := rfl
@[simp] theorem setEng_lastComp (s : State) (e : Engine) (x : EngSt) : (s.setEng e x).lastComp = s.lastComp := rfl
@[simp] theorem setEng_compRecants (s : State) (e : Engine) (x : EngSt) : (s.setEng e x).compRecants = s.compRecants := rfl
@[simp] theorem setEng_compOver (s : State) (e : Engine) (x : EngSt) : (s.setEng e x).compOver = s.compOver := rfl
@[simp] theorem setEng_confMax (s : State) (e : Engine) (x : EngSt) : (s.setEng e x).confMax = s.confMax := rfl
@[simp] theorem setEng_pages (s : State) (e : Engine) (x : EngSt) : (s.setEng e x).pages = s.pages := rfl
@[simp] theorem setEng_moves (s : State) (e : Engine) (x : EngSt) : (s.setEng e x).moves = s.moves := rfl
@[simp] theorem setEng_near (s : State) (e : Engine) (x : EngSt) : (s.setEng e x).near = s.near := rfl
@[simp] theorem setEng_copies (s : State) (e : Engine) (x : EngSt) : (s.setEng e x).copies = s.copies := rfl
@[simp] theorem setEng_stages (s : State) (e : Engine) (x : EngSt) : (s.setEng e x).stages = s.stages := rfl
@[simp] theorem setEng_muffles (s : State) (e : Engine) (x : EngSt) : (s.setEng e x).muffles = s.muffles := rfl
@[simp] theorem setEng_stageJobs (s : State) (e : Engine) (x : EngSt) : (s.setEng e x).stageJobs = s.stageJobs := rfl
@[simp] theorem setEng_mufJobs (s : State) (e : Engine) (x : EngSt) : (s.setEng e x).mufJobs = s.mufJobs := rfl
@[simp] theorem setEng_chordq (s : State) (e : Engine) (x : EngSt) : (s.setEng e x).chordq = s.chordq := rfl
@[simp] theorem setEng_closing (s : State) (e : Engine) (x : EngSt) : (s.setEng e x).closing = s.closing := rfl
@[simp] theorem setEng_restDue (s : State) (e : Engine) (x : EngSt) : (s.setEng e x).restDue = s.restDue := rfl
@[simp] theorem setEng_gongDue (s : State) (e : Engine) (x : EngSt) : (s.setEng e x).gongDue = s.gongDue := rfl
@[simp] theorem setEng_soft (s : State) (e : Engine) (x : EngSt) : (s.setEng e x).soft = s.soft := rfl
@[simp] theorem setEng_free (s : State) (e : Engine) (x : EngSt) : (s.setEng e x).free = s.free := rfl

@[simp] theorem setRing_pending (s : State) (r : Ring) (x : RingSt) : (s.setRing r x).pending = s.pending :=
    by cases r <;> rfl
@[simp] theorem setRing_mode (s : State) (r : Ring) (x : RingSt) : (s.setRing r x).mode = s.mode :=
    by cases r <;> rfl
@[simp] theorem setRing_prev (s : State) (r : Ring) (x : RingSt) : (s.setRing r x).prev = s.prev :=
    by cases r <;> rfl
@[simp] theorem setRing_completing (s : State) (r : Ring) (x : RingSt) : (s.setRing r x).completing = s.completing :=
    by cases r <;> rfl
@[simp] theorem setRing_triggers (s : State) (r : Ring) (x : RingSt) : (s.setRing r x).triggers = s.triggers :=
    by cases r <;> rfl
@[simp] theorem setRing_history (s : State) (r : Ring) (x : RingSt) : (s.setRing r x).history = s.history :=
    by cases r <;> rfl
@[simp] theorem setRing_headers (s : State) (r : Ring) (x : RingSt) : (s.setRing r x).headers = s.headers :=
    by cases r <;> rfl
@[simp] theorem setRing_pins (s : State) (r : Ring) (x : RingSt) : (s.setRing r x).pins = s.pins :=
    by cases r <;> rfl
@[simp] theorem setRing_gen (s : State) (r : Ring) (x : RingSt) : (s.setRing r x).gen = s.gen :=
    by cases r <;> rfl
@[simp] theorem setRing_bar (s : State) (r : Ring) (x : RingSt) : (s.setRing r x).bar = s.bar :=
    by cases r <;> rfl
@[simp] theorem setRing_stk (s : State) (r : Ring) (x : RingSt) : (s.setRing r x).stk = s.stk :=
    by cases r <;> rfl
@[simp] theorem setRing_tier (s : State) (r : Ring) (x : RingSt) : (s.setRing r x).tier = s.tier :=
    by cases r <;> rfl
@[simp] theorem setRing_deep (s : State) (r : Ring) (x : RingSt) : (s.setRing r x).deep = s.deep :=
    by cases r <;> rfl
@[simp] theorem setRing_ecc (s : State) (r : Ring) (x : RingSt) : (s.setRing r x).ecc = s.ecc :=
    by cases r <;> rfl
@[simp] theorem setRing_rep (s : State) (r : Ring) (x : RingSt) : (s.setRing r x).rep = s.rep :=
    by cases r <;> rfl
@[simp] theorem setRing_bel (s : State) (r : Ring) (x : RingSt) : (s.setRing r x).bel = s.bel :=
    by cases r <;> rfl
@[simp] theorem setRing_toll (s : State) (r : Ring) (x : RingSt) : (s.setRing r x).toll = s.toll :=
    by cases r <;> rfl
@[simp] theorem setRing_pwr (s : State) (r : Ring) (x : RingSt) : (s.setRing r x).pwr = s.pwr :=
    by cases r <;> rfl
@[simp] theorem setRing_tal (s : State) (r : Ring) (x : RingSt) : (s.setRing r x).tal = s.tal :=
    by cases r <;> rfl
@[simp] theorem setRing_knl (s : State) (r : Ring) (x : RingSt) : (s.setRing r x).knl = s.knl :=
    by cases r <;> rfl
@[simp] theorem setRing_i3c (s : State) (r : Ring) (x : RingSt) : (s.setRing r x).i3c = s.i3c :=
    by cases r <;> rfl
@[simp] theorem setRing_tap (s : State) (r : Ring) (x : RingSt) : (s.setRing r x).tap = s.tap :=
    by cases r <;> rfl
@[simp] theorem setRing_evs (s : State) (r : Ring) (x : RingSt) : (s.setRing r x).evs = s.evs :=
    by cases r <;> rfl
@[simp] theorem setRing_kits (s : State) (r : Ring) (x : RingSt) : (s.setRing r x).kits = s.kits :=
    by cases r <;> rfl
@[simp] theorem setRing_engs (s : State) (r : Ring) (x : RingSt) : (s.setRing r x).engs = s.engs :=
    by cases r <;> rfl
@[simp] theorem setRing_mram (s : State) (r : Ring) (x : RingSt) : (s.setRing r x).mram = s.mram :=
    by cases r <;> rfl
@[simp] theorem setRing_inflight (s : State) (r : Ring) (x : RingSt) : (s.setRing r x).inflight = s.inflight :=
    by cases r <;> rfl
@[simp] theorem setRing_nextRid (s : State) (r : Ring) (x : RingSt) : (s.setRing r x).nextRid = s.nextRid :=
    by cases r <;> rfl
@[simp] theorem setRing_replies (s : State) (r : Ring) (x : RingSt) : (s.setRing r x).replies = s.replies :=
    by cases r <;> rfl
@[simp] theorem setRing_devq (s : State) (r : Ring) (x : RingSt) : (s.setRing r x).devq = s.devq :=
    by cases r <;> rfl
@[simp] theorem setRing_devSeq (s : State) (r : Ring) (x : RingSt) : (s.setRing r x).devSeq = s.devSeq :=
    by cases r <;> rfl
@[simp] theorem setRing_sent (s : State) (r : Ring) (x : RingSt) : (s.setRing r x).sent = s.sent :=
    by cases r <;> rfl
@[simp] theorem setRing_infHigh (s : State) (r : Ring) (x : RingSt) : (s.setRing r x).infHigh = s.infHigh :=
    by cases r <;> rfl
@[simp] theorem setRing_orphaned (s : State) (r : Ring) (x : RingSt) : (s.setRing r x).orphaned = s.orphaned :=
    by cases r <;> rfl
@[simp] theorem setRing_frameErr (s : State) (r : Ring) (x : RingSt) : (s.setRing r x).frameErr = s.frameErr :=
    by cases r <;> rfl
@[simp] theorem setRing_qHigh (s : State) (r : Ring) (x : RingSt) : (s.setRing r x).qHigh = s.qHigh :=
    by cases r <;> rfl
@[simp] theorem setRing_bcast (s : State) (r : Ring) (x : RingSt) : (s.setRing r x).bcast = s.bcast :=
    by cases r <;> rfl
@[simp] theorem setRing_wedgedPorts (s : State) (r : Ring) (x : RingSt) : (s.setRing r x).wedgedPorts = s.wedgedPorts :=
    by cases r <;> rfl
@[simp] theorem setRing_barriers (s : State) (r : Ring) (x : RingSt) : (s.setRing r x).barriers = s.barriers :=
    by cases r <;> rfl
@[simp] theorem setRing_reads (s : State) (r : Ring) (x : RingSt) : (s.setRing r x).reads = s.reads :=
    by cases r <;> rfl
@[simp] theorem setRing_jobs (s : State) (r : Ring) (x : RingSt) : (s.setRing r x).jobs = s.jobs :=
    by cases r <;> rfl
@[simp] theorem setRing_fences (s : State) (r : Ring) (x : RingSt) : (s.setRing r x).fences = s.fences :=
    by cases r <;> rfl
@[simp] theorem setRing_waits (s : State) (r : Ring) (x : RingSt) : (s.setRing r x).waits = s.waits :=
    by cases r <;> rfl
@[simp] theorem setRing_drains (s : State) (r : Ring) (x : RingSt) : (s.setRing r x).drains = s.drains :=
    by cases r <;> rfl
@[simp] theorem setRing_hold (s : State) (r : Ring) (x : RingSt) : (s.setRing r x).hold = s.hold :=
    by cases r <;> rfl
@[simp] theorem setRing_justOut (s : State) (r : Ring) (x : RingSt) : (s.setRing r x).justOut = s.justOut :=
    by cases r <;> rfl
@[simp] theorem setRing_priors (s : State) (r : Ring) (x : RingSt) : (s.setRing r x).priors = s.priors :=
    by cases r <;> rfl
@[simp] theorem setRing_nextEnt (s : State) (r : Ring) (x : RingSt) : (s.setRing r x).nextEnt = s.nextEnt :=
    by cases r <;> rfl
@[simp] theorem setRing_merge (s : State) (r : Ring) (x : RingSt) : (s.setRing r x).merge = s.merge :=
    by cases r <;> rfl
@[simp] theorem setRing_provConfirmed (s : State) (r : Ring) (x : RingSt) : (s.setRing r x).provConfirmed = s.provConfirmed :=
    by cases r <;> rfl
@[simp] theorem setRing_provRetry (s : State) (r : Ring) (x : RingSt) : (s.setRing r x).provRetry = s.provRetry :=
    by cases r <;> rfl
@[simp] theorem setRing_provWeak (s : State) (r : Ring) (x : RingSt) : (s.setRing r x).provWeak = s.provWeak :=
    by cases r <;> rfl
@[simp] theorem setRing_provRecanted (s : State) (r : Ring) (x : RingSt) : (s.setRing r x).provRecanted = s.provRecanted :=
    by cases r <;> rfl
@[simp] theorem setRing_mergeClose (s : State) (r : Ring) (x : RingSt) : (s.setRing r x).mergeClose = s.mergeClose :=
    by cases r <;> rfl
@[simp] theorem setRing_redoSent (s : State) (r : Ring) (x : RingSt) : (s.setRing r x).redoSent = s.redoSent :=
    by cases r <;> rfl
@[simp] theorem setRing_lastComp (s : State) (r : Ring) (x : RingSt) : (s.setRing r x).lastComp = s.lastComp :=
    by cases r <;> rfl
@[simp] theorem setRing_compRecants (s : State) (r : Ring) (x : RingSt) : (s.setRing r x).compRecants = s.compRecants :=
    by cases r <;> rfl
@[simp] theorem setRing_compOver (s : State) (r : Ring) (x : RingSt) : (s.setRing r x).compOver = s.compOver :=
    by cases r <;> rfl
@[simp] theorem setRing_confMax (s : State) (r : Ring) (x : RingSt) : (s.setRing r x).confMax = s.confMax :=
    by cases r <;> rfl
@[simp] theorem setRing_pages (s : State) (r : Ring) (x : RingSt) : (s.setRing r x).pages = s.pages :=
    by cases r <;> rfl
@[simp] theorem setRing_moves (s : State) (r : Ring) (x : RingSt) : (s.setRing r x).moves = s.moves :=
    by cases r <;> rfl
@[simp] theorem setRing_near (s : State) (r : Ring) (x : RingSt) : (s.setRing r x).near = s.near :=
    by cases r <;> rfl
@[simp] theorem setRing_copies (s : State) (r : Ring) (x : RingSt) : (s.setRing r x).copies = s.copies :=
    by cases r <;> rfl
@[simp] theorem setRing_stages (s : State) (r : Ring) (x : RingSt) : (s.setRing r x).stages = s.stages :=
    by cases r <;> rfl
@[simp] theorem setRing_muffles (s : State) (r : Ring) (x : RingSt) : (s.setRing r x).muffles = s.muffles :=
    by cases r <;> rfl
@[simp] theorem setRing_stageJobs (s : State) (r : Ring) (x : RingSt) : (s.setRing r x).stageJobs = s.stageJobs :=
    by cases r <;> rfl
@[simp] theorem setRing_mufJobs (s : State) (r : Ring) (x : RingSt) : (s.setRing r x).mufJobs = s.mufJobs :=
    by cases r <;> rfl
@[simp] theorem setRing_chordq (s : State) (r : Ring) (x : RingSt) : (s.setRing r x).chordq = s.chordq :=
    by cases r <;> rfl
@[simp] theorem setRing_closing (s : State) (r : Ring) (x : RingSt) : (s.setRing r x).closing = s.closing :=
    by cases r <;> rfl
@[simp] theorem setRing_restDue (s : State) (r : Ring) (x : RingSt) : (s.setRing r x).restDue = s.restDue :=
    by cases r <;> rfl
@[simp] theorem setRing_gongDue (s : State) (r : Ring) (x : RingSt) : (s.setRing r x).gongDue = s.gongDue :=
    by cases r <;> rfl
@[simp] theorem setRing_soft (s : State) (r : Ring) (x : RingSt) : (s.setRing r x).soft = s.soft :=
    by cases r <;> rfl
@[simp] theorem setRing_free (s : State) (r : Ring) (x : RingSt) : (s.setRing r x).free = s.free :=
    by cases r <;> rfl

@[simp] theorem raise_pending (s : State) (i : EvId) (m : BitVec 8) : (s.raise i m).pending = s.pending := rfl
@[simp] theorem raise_mode (s : State) (i : EvId) (m : BitVec 8) : (s.raise i m).mode = s.mode := rfl
@[simp] theorem raise_prev (s : State) (i : EvId) (m : BitVec 8) : (s.raise i m).prev = s.prev := rfl
@[simp] theorem raise_completing (s : State) (i : EvId) (m : BitVec 8) : (s.raise i m).completing = s.completing := rfl
@[simp] theorem raise_triggers (s : State) (i : EvId) (m : BitVec 8) : (s.raise i m).triggers = s.triggers := rfl
@[simp] theorem raise_history (s : State) (i : EvId) (m : BitVec 8) : (s.raise i m).history = s.history := rfl
@[simp] theorem raise_headers (s : State) (i : EvId) (m : BitVec 8) : (s.raise i m).headers = s.headers := rfl
@[simp] theorem raise_pins (s : State) (i : EvId) (m : BitVec 8) : (s.raise i m).pins = s.pins := rfl
@[simp] theorem raise_gen (s : State) (i : EvId) (m : BitVec 8) : (s.raise i m).gen = s.gen := rfl
@[simp] theorem raise_bar (s : State) (i : EvId) (m : BitVec 8) : (s.raise i m).bar = s.bar := rfl
@[simp] theorem raise_stk (s : State) (i : EvId) (m : BitVec 8) : (s.raise i m).stk = s.stk := rfl
@[simp] theorem raise_tier (s : State) (i : EvId) (m : BitVec 8) : (s.raise i m).tier = s.tier := rfl
@[simp] theorem raise_deep (s : State) (i : EvId) (m : BitVec 8) : (s.raise i m).deep = s.deep := rfl
@[simp] theorem raise_ecc (s : State) (i : EvId) (m : BitVec 8) : (s.raise i m).ecc = s.ecc := rfl
@[simp] theorem raise_rep (s : State) (i : EvId) (m : BitVec 8) : (s.raise i m).rep = s.rep := rfl
@[simp] theorem raise_bel (s : State) (i : EvId) (m : BitVec 8) : (s.raise i m).bel = s.bel := rfl
@[simp] theorem raise_toll (s : State) (i : EvId) (m : BitVec 8) : (s.raise i m).toll = s.toll := rfl
@[simp] theorem raise_pwr (s : State) (i : EvId) (m : BitVec 8) : (s.raise i m).pwr = s.pwr := rfl
@[simp] theorem raise_tal (s : State) (i : EvId) (m : BitVec 8) : (s.raise i m).tal = s.tal := rfl
@[simp] theorem raise_knl (s : State) (i : EvId) (m : BitVec 8) : (s.raise i m).knl = s.knl := rfl
@[simp] theorem raise_i3c (s : State) (i : EvId) (m : BitVec 8) : (s.raise i m).i3c = s.i3c := rfl
@[simp] theorem raise_tap (s : State) (i : EvId) (m : BitVec 8) : (s.raise i m).tap = s.tap := rfl
@[simp] theorem raise_ringA (s : State) (i : EvId) (m : BitVec 8) : (s.raise i m).ringA = s.ringA := rfl
@[simp] theorem raise_ringB (s : State) (i : EvId) (m : BitVec 8) : (s.raise i m).ringB = s.ringB := rfl
@[simp] theorem raise_kits (s : State) (i : EvId) (m : BitVec 8) : (s.raise i m).kits = s.kits := rfl
@[simp] theorem raise_engs (s : State) (i : EvId) (m : BitVec 8) : (s.raise i m).engs = s.engs := rfl
@[simp] theorem raise_mram (s : State) (i : EvId) (m : BitVec 8) : (s.raise i m).mram = s.mram := rfl
@[simp] theorem raise_inflight (s : State) (i : EvId) (m : BitVec 8) : (s.raise i m).inflight = s.inflight := rfl
@[simp] theorem raise_nextRid (s : State) (i : EvId) (m : BitVec 8) : (s.raise i m).nextRid = s.nextRid := rfl
@[simp] theorem raise_replies (s : State) (i : EvId) (m : BitVec 8) : (s.raise i m).replies = s.replies := rfl
@[simp] theorem raise_devq (s : State) (i : EvId) (m : BitVec 8) : (s.raise i m).devq = s.devq := rfl
@[simp] theorem raise_devSeq (s : State) (i : EvId) (m : BitVec 8) : (s.raise i m).devSeq = s.devSeq := rfl
@[simp] theorem raise_sent (s : State) (i : EvId) (m : BitVec 8) : (s.raise i m).sent = s.sent := rfl
@[simp] theorem raise_infHigh (s : State) (i : EvId) (m : BitVec 8) : (s.raise i m).infHigh = s.infHigh := rfl
@[simp] theorem raise_orphaned (s : State) (i : EvId) (m : BitVec 8) : (s.raise i m).orphaned = s.orphaned := rfl
@[simp] theorem raise_frameErr (s : State) (i : EvId) (m : BitVec 8) : (s.raise i m).frameErr = s.frameErr := rfl
@[simp] theorem raise_qHigh (s : State) (i : EvId) (m : BitVec 8) : (s.raise i m).qHigh = s.qHigh := rfl
@[simp] theorem raise_bcast (s : State) (i : EvId) (m : BitVec 8) : (s.raise i m).bcast = s.bcast := rfl
@[simp] theorem raise_wedgedPorts (s : State) (i : EvId) (m : BitVec 8) : (s.raise i m).wedgedPorts = s.wedgedPorts := rfl
@[simp] theorem raise_barriers (s : State) (i : EvId) (m : BitVec 8) : (s.raise i m).barriers = s.barriers := rfl
@[simp] theorem raise_reads (s : State) (i : EvId) (m : BitVec 8) : (s.raise i m).reads = s.reads := rfl
@[simp] theorem raise_jobs (s : State) (i : EvId) (m : BitVec 8) : (s.raise i m).jobs = s.jobs := rfl
@[simp] theorem raise_fences (s : State) (i : EvId) (m : BitVec 8) : (s.raise i m).fences = s.fences := rfl
@[simp] theorem raise_waits (s : State) (i : EvId) (m : BitVec 8) : (s.raise i m).waits = s.waits := rfl
@[simp] theorem raise_drains (s : State) (i : EvId) (m : BitVec 8) : (s.raise i m).drains = s.drains := rfl
@[simp] theorem raise_hold (s : State) (i : EvId) (m : BitVec 8) : (s.raise i m).hold = s.hold := rfl
@[simp] theorem raise_justOut (s : State) (i : EvId) (m : BitVec 8) : (s.raise i m).justOut = s.justOut := rfl
@[simp] theorem raise_priors (s : State) (i : EvId) (m : BitVec 8) : (s.raise i m).priors = s.priors := rfl
@[simp] theorem raise_nextEnt (s : State) (i : EvId) (m : BitVec 8) : (s.raise i m).nextEnt = s.nextEnt := rfl
@[simp] theorem raise_merge (s : State) (i : EvId) (m : BitVec 8) : (s.raise i m).merge = s.merge := rfl
@[simp] theorem raise_provConfirmed (s : State) (i : EvId) (m : BitVec 8) : (s.raise i m).provConfirmed = s.provConfirmed := rfl
@[simp] theorem raise_provRetry (s : State) (i : EvId) (m : BitVec 8) : (s.raise i m).provRetry = s.provRetry := rfl
@[simp] theorem raise_provWeak (s : State) (i : EvId) (m : BitVec 8) : (s.raise i m).provWeak = s.provWeak := rfl
@[simp] theorem raise_provRecanted (s : State) (i : EvId) (m : BitVec 8) : (s.raise i m).provRecanted = s.provRecanted := rfl
@[simp] theorem raise_mergeClose (s : State) (i : EvId) (m : BitVec 8) : (s.raise i m).mergeClose = s.mergeClose := rfl
@[simp] theorem raise_redoSent (s : State) (i : EvId) (m : BitVec 8) : (s.raise i m).redoSent = s.redoSent := rfl
@[simp] theorem raise_lastComp (s : State) (i : EvId) (m : BitVec 8) : (s.raise i m).lastComp = s.lastComp := rfl
@[simp] theorem raise_compRecants (s : State) (i : EvId) (m : BitVec 8) : (s.raise i m).compRecants = s.compRecants := rfl
@[simp] theorem raise_compOver (s : State) (i : EvId) (m : BitVec 8) : (s.raise i m).compOver = s.compOver := rfl
@[simp] theorem raise_confMax (s : State) (i : EvId) (m : BitVec 8) : (s.raise i m).confMax = s.confMax := rfl
@[simp] theorem raise_pages (s : State) (i : EvId) (m : BitVec 8) : (s.raise i m).pages = s.pages := rfl
@[simp] theorem raise_moves (s : State) (i : EvId) (m : BitVec 8) : (s.raise i m).moves = s.moves := rfl
@[simp] theorem raise_near (s : State) (i : EvId) (m : BitVec 8) : (s.raise i m).near = s.near := rfl
@[simp] theorem raise_copies (s : State) (i : EvId) (m : BitVec 8) : (s.raise i m).copies = s.copies := rfl
@[simp] theorem raise_stages (s : State) (i : EvId) (m : BitVec 8) : (s.raise i m).stages = s.stages := rfl
@[simp] theorem raise_muffles (s : State) (i : EvId) (m : BitVec 8) : (s.raise i m).muffles = s.muffles := rfl
@[simp] theorem raise_stageJobs (s : State) (i : EvId) (m : BitVec 8) : (s.raise i m).stageJobs = s.stageJobs := rfl
@[simp] theorem raise_mufJobs (s : State) (i : EvId) (m : BitVec 8) : (s.raise i m).mufJobs = s.mufJobs := rfl
@[simp] theorem raise_chordq (s : State) (i : EvId) (m : BitVec 8) : (s.raise i m).chordq = s.chordq := rfl
@[simp] theorem raise_closing (s : State) (i : EvId) (m : BitVec 8) : (s.raise i m).closing = s.closing := rfl
@[simp] theorem raise_restDue (s : State) (i : EvId) (m : BitVec 8) : (s.raise i m).restDue = s.restDue := rfl
@[simp] theorem raise_gongDue (s : State) (i : EvId) (m : BitVec 8) : (s.raise i m).gongDue = s.gongDue := rfl
@[simp] theorem raise_soft (s : State) (i : EvId) (m : BitVec 8) : (s.raise i m).soft = s.soft := rfl
@[simp] theorem raise_free (s : State) (i : EvId) (m : BitVec 8) : (s.raise i m).free = s.free := rfl

@[simp] theorem spend_pending (s : State) (n : Nat) : (s.spend n).pending = s.pending := rfl
@[simp] theorem spend_mode (s : State) (n : Nat) : (s.spend n).mode = s.mode := rfl
@[simp] theorem spend_prev (s : State) (n : Nat) : (s.spend n).prev = s.prev := rfl
@[simp] theorem spend_completing (s : State) (n : Nat) : (s.spend n).completing = s.completing := rfl
@[simp] theorem spend_triggers (s : State) (n : Nat) : (s.spend n).triggers = s.triggers := rfl
@[simp] theorem spend_history (s : State) (n : Nat) : (s.spend n).history = s.history := rfl
@[simp] theorem spend_headers (s : State) (n : Nat) : (s.spend n).headers = s.headers := rfl
@[simp] theorem spend_pins (s : State) (n : Nat) : (s.spend n).pins = s.pins := rfl
@[simp] theorem spend_gen (s : State) (n : Nat) : (s.spend n).gen = s.gen := rfl
@[simp] theorem spend_bar (s : State) (n : Nat) : (s.spend n).bar = s.bar := rfl
@[simp] theorem spend_stk (s : State) (n : Nat) : (s.spend n).stk = s.stk := rfl
@[simp] theorem spend_tier (s : State) (n : Nat) : (s.spend n).tier = s.tier := rfl
@[simp] theorem spend_deep (s : State) (n : Nat) : (s.spend n).deep = s.deep := rfl
@[simp] theorem spend_ecc (s : State) (n : Nat) : (s.spend n).ecc = s.ecc := rfl
@[simp] theorem spend_rep (s : State) (n : Nat) : (s.spend n).rep = s.rep := rfl
@[simp] theorem spend_bel (s : State) (n : Nat) : (s.spend n).bel = s.bel := rfl
@[simp] theorem spend_toll (s : State) (n : Nat) : (s.spend n).toll = s.toll := rfl
@[simp] theorem spend_pwr (s : State) (n : Nat) : (s.spend n).pwr = s.pwr := rfl
@[simp] theorem spend_tal (s : State) (n : Nat) : (s.spend n).tal = s.tal := rfl
@[simp] theorem spend_knl (s : State) (n : Nat) : (s.spend n).knl = s.knl := rfl
@[simp] theorem spend_i3c (s : State) (n : Nat) : (s.spend n).i3c = s.i3c := rfl
@[simp] theorem spend_tap (s : State) (n : Nat) : (s.spend n).tap = s.tap := rfl
@[simp] theorem spend_evs (s : State) (n : Nat) : (s.spend n).evs = s.evs := rfl
@[simp] theorem spend_ringA (s : State) (n : Nat) : (s.spend n).ringA = s.ringA := rfl
@[simp] theorem spend_ringB (s : State) (n : Nat) : (s.spend n).ringB = s.ringB := rfl
@[simp] theorem spend_kits (s : State) (n : Nat) : (s.spend n).kits = s.kits := rfl
@[simp] theorem spend_engs (s : State) (n : Nat) : (s.spend n).engs = s.engs := rfl
@[simp] theorem spend_mram (s : State) (n : Nat) : (s.spend n).mram = s.mram := rfl
@[simp] theorem spend_inflight (s : State) (n : Nat) : (s.spend n).inflight = s.inflight := rfl
@[simp] theorem spend_nextRid (s : State) (n : Nat) : (s.spend n).nextRid = s.nextRid := rfl
@[simp] theorem spend_replies (s : State) (n : Nat) : (s.spend n).replies = s.replies := rfl
@[simp] theorem spend_devq (s : State) (n : Nat) : (s.spend n).devq = s.devq := rfl
@[simp] theorem spend_devSeq (s : State) (n : Nat) : (s.spend n).devSeq = s.devSeq := rfl
@[simp] theorem spend_sent (s : State) (n : Nat) : (s.spend n).sent = s.sent := rfl
@[simp] theorem spend_infHigh (s : State) (n : Nat) : (s.spend n).infHigh = s.infHigh := rfl
@[simp] theorem spend_orphaned (s : State) (n : Nat) : (s.spend n).orphaned = s.orphaned := rfl
@[simp] theorem spend_frameErr (s : State) (n : Nat) : (s.spend n).frameErr = s.frameErr := rfl
@[simp] theorem spend_qHigh (s : State) (n : Nat) : (s.spend n).qHigh = s.qHigh := rfl
@[simp] theorem spend_bcast (s : State) (n : Nat) : (s.spend n).bcast = s.bcast := rfl
@[simp] theorem spend_wedgedPorts (s : State) (n : Nat) : (s.spend n).wedgedPorts = s.wedgedPorts := rfl
@[simp] theorem spend_barriers (s : State) (n : Nat) : (s.spend n).barriers = s.barriers := rfl
@[simp] theorem spend_reads (s : State) (n : Nat) : (s.spend n).reads = s.reads := rfl
@[simp] theorem spend_jobs (s : State) (n : Nat) : (s.spend n).jobs = s.jobs := rfl
@[simp] theorem spend_fences (s : State) (n : Nat) : (s.spend n).fences = s.fences := rfl
@[simp] theorem spend_waits (s : State) (n : Nat) : (s.spend n).waits = s.waits := rfl
@[simp] theorem spend_drains (s : State) (n : Nat) : (s.spend n).drains = s.drains := rfl
@[simp] theorem spend_hold (s : State) (n : Nat) : (s.spend n).hold = s.hold := rfl
@[simp] theorem spend_justOut (s : State) (n : Nat) : (s.spend n).justOut = s.justOut := rfl
@[simp] theorem spend_priors (s : State) (n : Nat) : (s.spend n).priors = s.priors := rfl
@[simp] theorem spend_nextEnt (s : State) (n : Nat) : (s.spend n).nextEnt = s.nextEnt := rfl
@[simp] theorem spend_merge (s : State) (n : Nat) : (s.spend n).merge = s.merge := rfl
@[simp] theorem spend_provConfirmed (s : State) (n : Nat) : (s.spend n).provConfirmed = s.provConfirmed := rfl
@[simp] theorem spend_provRetry (s : State) (n : Nat) : (s.spend n).provRetry = s.provRetry := rfl
@[simp] theorem spend_provWeak (s : State) (n : Nat) : (s.spend n).provWeak = s.provWeak := rfl
@[simp] theorem spend_provRecanted (s : State) (n : Nat) : (s.spend n).provRecanted = s.provRecanted := rfl
@[simp] theorem spend_mergeClose (s : State) (n : Nat) : (s.spend n).mergeClose = s.mergeClose := rfl
@[simp] theorem spend_redoSent (s : State) (n : Nat) : (s.spend n).redoSent = s.redoSent := rfl
@[simp] theorem spend_lastComp (s : State) (n : Nat) : (s.spend n).lastComp = s.lastComp := rfl
@[simp] theorem spend_compRecants (s : State) (n : Nat) : (s.spend n).compRecants = s.compRecants := rfl
@[simp] theorem spend_compOver (s : State) (n : Nat) : (s.spend n).compOver = s.compOver := rfl
@[simp] theorem spend_confMax (s : State) (n : Nat) : (s.spend n).confMax = s.confMax := rfl
@[simp] theorem spend_pages (s : State) (n : Nat) : (s.spend n).pages = s.pages := rfl
@[simp] theorem spend_moves (s : State) (n : Nat) : (s.spend n).moves = s.moves := rfl
@[simp] theorem spend_near (s : State) (n : Nat) : (s.spend n).near = s.near := rfl
@[simp] theorem spend_copies (s : State) (n : Nat) : (s.spend n).copies = s.copies := rfl
@[simp] theorem spend_stages (s : State) (n : Nat) : (s.spend n).stages = s.stages := rfl
@[simp] theorem spend_muffles (s : State) (n : Nat) : (s.spend n).muffles = s.muffles := rfl
@[simp] theorem spend_stageJobs (s : State) (n : Nat) : (s.spend n).stageJobs = s.stageJobs := rfl
@[simp] theorem spend_mufJobs (s : State) (n : Nat) : (s.spend n).mufJobs = s.mufJobs := rfl
@[simp] theorem spend_chordq (s : State) (n : Nat) : (s.spend n).chordq = s.chordq := rfl
@[simp] theorem spend_closing (s : State) (n : Nat) : (s.spend n).closing = s.closing := rfl
@[simp] theorem spend_restDue (s : State) (n : Nat) : (s.spend n).restDue = s.restDue := rfl
@[simp] theorem spend_gongDue (s : State) (n : Nat) : (s.spend n).gongDue = s.gongDue := rfl
@[simp] theorem spend_soft (s : State) (n : Nat) : (s.spend n).soft = s.soft := rfl

@[simp] theorem updReq_pending (s : State) (n : Nat) (f : InFlight → InFlight) : (s.updReq n f).pending = s.pending := rfl
@[simp] theorem updReq_mode (s : State) (n : Nat) (f : InFlight → InFlight) : (s.updReq n f).mode = s.mode := rfl
@[simp] theorem updReq_prev (s : State) (n : Nat) (f : InFlight → InFlight) : (s.updReq n f).prev = s.prev := rfl
@[simp] theorem updReq_completing (s : State) (n : Nat) (f : InFlight → InFlight) : (s.updReq n f).completing = s.completing := rfl
@[simp] theorem updReq_triggers (s : State) (n : Nat) (f : InFlight → InFlight) : (s.updReq n f).triggers = s.triggers := rfl
@[simp] theorem updReq_history (s : State) (n : Nat) (f : InFlight → InFlight) : (s.updReq n f).history = s.history := rfl
@[simp] theorem updReq_headers (s : State) (n : Nat) (f : InFlight → InFlight) : (s.updReq n f).headers = s.headers := rfl
@[simp] theorem updReq_pins (s : State) (n : Nat) (f : InFlight → InFlight) : (s.updReq n f).pins = s.pins := rfl
@[simp] theorem updReq_gen (s : State) (n : Nat) (f : InFlight → InFlight) : (s.updReq n f).gen = s.gen := rfl
@[simp] theorem updReq_bar (s : State) (n : Nat) (f : InFlight → InFlight) : (s.updReq n f).bar = s.bar := rfl
@[simp] theorem updReq_stk (s : State) (n : Nat) (f : InFlight → InFlight) : (s.updReq n f).stk = s.stk := rfl
@[simp] theorem updReq_tier (s : State) (n : Nat) (f : InFlight → InFlight) : (s.updReq n f).tier = s.tier := rfl
@[simp] theorem updReq_deep (s : State) (n : Nat) (f : InFlight → InFlight) : (s.updReq n f).deep = s.deep := rfl
@[simp] theorem updReq_ecc (s : State) (n : Nat) (f : InFlight → InFlight) : (s.updReq n f).ecc = s.ecc := rfl
@[simp] theorem updReq_rep (s : State) (n : Nat) (f : InFlight → InFlight) : (s.updReq n f).rep = s.rep := rfl
@[simp] theorem updReq_bel (s : State) (n : Nat) (f : InFlight → InFlight) : (s.updReq n f).bel = s.bel := rfl
@[simp] theorem updReq_toll (s : State) (n : Nat) (f : InFlight → InFlight) : (s.updReq n f).toll = s.toll := rfl
@[simp] theorem updReq_pwr (s : State) (n : Nat) (f : InFlight → InFlight) : (s.updReq n f).pwr = s.pwr := rfl
@[simp] theorem updReq_tal (s : State) (n : Nat) (f : InFlight → InFlight) : (s.updReq n f).tal = s.tal := rfl
@[simp] theorem updReq_knl (s : State) (n : Nat) (f : InFlight → InFlight) : (s.updReq n f).knl = s.knl := rfl
@[simp] theorem updReq_i3c (s : State) (n : Nat) (f : InFlight → InFlight) : (s.updReq n f).i3c = s.i3c := rfl
@[simp] theorem updReq_tap (s : State) (n : Nat) (f : InFlight → InFlight) : (s.updReq n f).tap = s.tap := rfl
@[simp] theorem updReq_evs (s : State) (n : Nat) (f : InFlight → InFlight) : (s.updReq n f).evs = s.evs := rfl
@[simp] theorem updReq_ringA (s : State) (n : Nat) (f : InFlight → InFlight) : (s.updReq n f).ringA = s.ringA := rfl
@[simp] theorem updReq_ringB (s : State) (n : Nat) (f : InFlight → InFlight) : (s.updReq n f).ringB = s.ringB := rfl
@[simp] theorem updReq_kits (s : State) (n : Nat) (f : InFlight → InFlight) : (s.updReq n f).kits = s.kits := rfl
@[simp] theorem updReq_engs (s : State) (n : Nat) (f : InFlight → InFlight) : (s.updReq n f).engs = s.engs := rfl
@[simp] theorem updReq_mram (s : State) (n : Nat) (f : InFlight → InFlight) : (s.updReq n f).mram = s.mram := rfl
@[simp] theorem updReq_nextRid (s : State) (n : Nat) (f : InFlight → InFlight) : (s.updReq n f).nextRid = s.nextRid := rfl
@[simp] theorem updReq_replies (s : State) (n : Nat) (f : InFlight → InFlight) : (s.updReq n f).replies = s.replies := rfl
@[simp] theorem updReq_devq (s : State) (n : Nat) (f : InFlight → InFlight) : (s.updReq n f).devq = s.devq := rfl
@[simp] theorem updReq_devSeq (s : State) (n : Nat) (f : InFlight → InFlight) : (s.updReq n f).devSeq = s.devSeq := rfl
@[simp] theorem updReq_sent (s : State) (n : Nat) (f : InFlight → InFlight) : (s.updReq n f).sent = s.sent := rfl
@[simp] theorem updReq_infHigh (s : State) (n : Nat) (f : InFlight → InFlight) : (s.updReq n f).infHigh = s.infHigh := rfl
@[simp] theorem updReq_orphaned (s : State) (n : Nat) (f : InFlight → InFlight) : (s.updReq n f).orphaned = s.orphaned := rfl
@[simp] theorem updReq_frameErr (s : State) (n : Nat) (f : InFlight → InFlight) : (s.updReq n f).frameErr = s.frameErr := rfl
@[simp] theorem updReq_qHigh (s : State) (n : Nat) (f : InFlight → InFlight) : (s.updReq n f).qHigh = s.qHigh := rfl
@[simp] theorem updReq_bcast (s : State) (n : Nat) (f : InFlight → InFlight) : (s.updReq n f).bcast = s.bcast := rfl
@[simp] theorem updReq_wedgedPorts (s : State) (n : Nat) (f : InFlight → InFlight) : (s.updReq n f).wedgedPorts = s.wedgedPorts := rfl
@[simp] theorem updReq_barriers (s : State) (n : Nat) (f : InFlight → InFlight) : (s.updReq n f).barriers = s.barriers := rfl
@[simp] theorem updReq_reads (s : State) (n : Nat) (f : InFlight → InFlight) : (s.updReq n f).reads = s.reads := rfl
@[simp] theorem updReq_jobs (s : State) (n : Nat) (f : InFlight → InFlight) : (s.updReq n f).jobs = s.jobs := rfl
@[simp] theorem updReq_fences (s : State) (n : Nat) (f : InFlight → InFlight) : (s.updReq n f).fences = s.fences := rfl
@[simp] theorem updReq_waits (s : State) (n : Nat) (f : InFlight → InFlight) : (s.updReq n f).waits = s.waits := rfl
@[simp] theorem updReq_drains (s : State) (n : Nat) (f : InFlight → InFlight) : (s.updReq n f).drains = s.drains := rfl
@[simp] theorem updReq_hold (s : State) (n : Nat) (f : InFlight → InFlight) : (s.updReq n f).hold = s.hold := rfl
@[simp] theorem updReq_justOut (s : State) (n : Nat) (f : InFlight → InFlight) : (s.updReq n f).justOut = s.justOut := rfl
@[simp] theorem updReq_priors (s : State) (n : Nat) (f : InFlight → InFlight) : (s.updReq n f).priors = s.priors := rfl
@[simp] theorem updReq_nextEnt (s : State) (n : Nat) (f : InFlight → InFlight) : (s.updReq n f).nextEnt = s.nextEnt := rfl
@[simp] theorem updReq_merge (s : State) (n : Nat) (f : InFlight → InFlight) : (s.updReq n f).merge = s.merge := rfl
@[simp] theorem updReq_provConfirmed (s : State) (n : Nat) (f : InFlight → InFlight) : (s.updReq n f).provConfirmed = s.provConfirmed := rfl
@[simp] theorem updReq_provRetry (s : State) (n : Nat) (f : InFlight → InFlight) : (s.updReq n f).provRetry = s.provRetry := rfl
@[simp] theorem updReq_provWeak (s : State) (n : Nat) (f : InFlight → InFlight) : (s.updReq n f).provWeak = s.provWeak := rfl
@[simp] theorem updReq_provRecanted (s : State) (n : Nat) (f : InFlight → InFlight) : (s.updReq n f).provRecanted = s.provRecanted := rfl
@[simp] theorem updReq_mergeClose (s : State) (n : Nat) (f : InFlight → InFlight) : (s.updReq n f).mergeClose = s.mergeClose := rfl
@[simp] theorem updReq_redoSent (s : State) (n : Nat) (f : InFlight → InFlight) : (s.updReq n f).redoSent = s.redoSent := rfl
@[simp] theorem updReq_lastComp (s : State) (n : Nat) (f : InFlight → InFlight) : (s.updReq n f).lastComp = s.lastComp := rfl
@[simp] theorem updReq_compRecants (s : State) (n : Nat) (f : InFlight → InFlight) : (s.updReq n f).compRecants = s.compRecants := rfl
@[simp] theorem updReq_compOver (s : State) (n : Nat) (f : InFlight → InFlight) : (s.updReq n f).compOver = s.compOver := rfl
@[simp] theorem updReq_confMax (s : State) (n : Nat) (f : InFlight → InFlight) : (s.updReq n f).confMax = s.confMax := rfl
@[simp] theorem updReq_pages (s : State) (n : Nat) (f : InFlight → InFlight) : (s.updReq n f).pages = s.pages := rfl
@[simp] theorem updReq_moves (s : State) (n : Nat) (f : InFlight → InFlight) : (s.updReq n f).moves = s.moves := rfl
@[simp] theorem updReq_near (s : State) (n : Nat) (f : InFlight → InFlight) : (s.updReq n f).near = s.near := rfl
@[simp] theorem updReq_copies (s : State) (n : Nat) (f : InFlight → InFlight) : (s.updReq n f).copies = s.copies := rfl
@[simp] theorem updReq_stages (s : State) (n : Nat) (f : InFlight → InFlight) : (s.updReq n f).stages = s.stages := rfl
@[simp] theorem updReq_muffles (s : State) (n : Nat) (f : InFlight → InFlight) : (s.updReq n f).muffles = s.muffles := rfl
@[simp] theorem updReq_stageJobs (s : State) (n : Nat) (f : InFlight → InFlight) : (s.updReq n f).stageJobs = s.stageJobs := rfl
@[simp] theorem updReq_mufJobs (s : State) (n : Nat) (f : InFlight → InFlight) : (s.updReq n f).mufJobs = s.mufJobs := rfl
@[simp] theorem updReq_chordq (s : State) (n : Nat) (f : InFlight → InFlight) : (s.updReq n f).chordq = s.chordq := rfl
@[simp] theorem updReq_closing (s : State) (n : Nat) (f : InFlight → InFlight) : (s.updReq n f).closing = s.closing := rfl
@[simp] theorem updReq_restDue (s : State) (n : Nat) (f : InFlight → InFlight) : (s.updReq n f).restDue = s.restDue := rfl
@[simp] theorem updReq_gongDue (s : State) (n : Nat) (f : InFlight → InFlight) : (s.updReq n f).gongDue = s.gongDue := rfl
@[simp] theorem updReq_soft (s : State) (n : Nat) (f : InFlight → InFlight) : (s.updReq n f).soft = s.soft := rfl
@[simp] theorem updReq_free (s : State) (n : Nat) (f : InFlight → InFlight) : (s.updReq n f).free = s.free := rfl

@[simp] theorem dropReq_pending (s : State) (n : Nat) : (s.dropReq n).pending = s.pending := rfl
@[simp] theorem dropReq_mode (s : State) (n : Nat) : (s.dropReq n).mode = s.mode := rfl
@[simp] theorem dropReq_prev (s : State) (n : Nat) : (s.dropReq n).prev = s.prev := rfl
@[simp] theorem dropReq_completing (s : State) (n : Nat) : (s.dropReq n).completing = s.completing := rfl
@[simp] theorem dropReq_triggers (s : State) (n : Nat) : (s.dropReq n).triggers = s.triggers := rfl
@[simp] theorem dropReq_history (s : State) (n : Nat) : (s.dropReq n).history = s.history := rfl
@[simp] theorem dropReq_headers (s : State) (n : Nat) : (s.dropReq n).headers = s.headers := rfl
@[simp] theorem dropReq_pins (s : State) (n : Nat) : (s.dropReq n).pins = s.pins := rfl
@[simp] theorem dropReq_gen (s : State) (n : Nat) : (s.dropReq n).gen = s.gen := rfl
@[simp] theorem dropReq_bar (s : State) (n : Nat) : (s.dropReq n).bar = s.bar := rfl
@[simp] theorem dropReq_stk (s : State) (n : Nat) : (s.dropReq n).stk = s.stk := rfl
@[simp] theorem dropReq_tier (s : State) (n : Nat) : (s.dropReq n).tier = s.tier := rfl
@[simp] theorem dropReq_deep (s : State) (n : Nat) : (s.dropReq n).deep = s.deep := rfl
@[simp] theorem dropReq_ecc (s : State) (n : Nat) : (s.dropReq n).ecc = s.ecc := rfl
@[simp] theorem dropReq_rep (s : State) (n : Nat) : (s.dropReq n).rep = s.rep := rfl
@[simp] theorem dropReq_bel (s : State) (n : Nat) : (s.dropReq n).bel = s.bel := rfl
@[simp] theorem dropReq_toll (s : State) (n : Nat) : (s.dropReq n).toll = s.toll := rfl
@[simp] theorem dropReq_pwr (s : State) (n : Nat) : (s.dropReq n).pwr = s.pwr := rfl
@[simp] theorem dropReq_tal (s : State) (n : Nat) : (s.dropReq n).tal = s.tal := rfl
@[simp] theorem dropReq_knl (s : State) (n : Nat) : (s.dropReq n).knl = s.knl := rfl
@[simp] theorem dropReq_i3c (s : State) (n : Nat) : (s.dropReq n).i3c = s.i3c := rfl
@[simp] theorem dropReq_tap (s : State) (n : Nat) : (s.dropReq n).tap = s.tap := rfl
@[simp] theorem dropReq_evs (s : State) (n : Nat) : (s.dropReq n).evs = s.evs := rfl
@[simp] theorem dropReq_ringA (s : State) (n : Nat) : (s.dropReq n).ringA = s.ringA := rfl
@[simp] theorem dropReq_ringB (s : State) (n : Nat) : (s.dropReq n).ringB = s.ringB := rfl
@[simp] theorem dropReq_kits (s : State) (n : Nat) : (s.dropReq n).kits = s.kits := rfl
@[simp] theorem dropReq_engs (s : State) (n : Nat) : (s.dropReq n).engs = s.engs := rfl
@[simp] theorem dropReq_mram (s : State) (n : Nat) : (s.dropReq n).mram = s.mram := rfl
@[simp] theorem dropReq_nextRid (s : State) (n : Nat) : (s.dropReq n).nextRid = s.nextRid := rfl
@[simp] theorem dropReq_replies (s : State) (n : Nat) : (s.dropReq n).replies = s.replies := rfl
@[simp] theorem dropReq_devq (s : State) (n : Nat) : (s.dropReq n).devq = s.devq := rfl
@[simp] theorem dropReq_devSeq (s : State) (n : Nat) : (s.dropReq n).devSeq = s.devSeq := rfl
@[simp] theorem dropReq_sent (s : State) (n : Nat) : (s.dropReq n).sent = s.sent := rfl
@[simp] theorem dropReq_infHigh (s : State) (n : Nat) : (s.dropReq n).infHigh = s.infHigh := rfl
@[simp] theorem dropReq_orphaned (s : State) (n : Nat) : (s.dropReq n).orphaned = s.orphaned := rfl
@[simp] theorem dropReq_frameErr (s : State) (n : Nat) : (s.dropReq n).frameErr = s.frameErr := rfl
@[simp] theorem dropReq_qHigh (s : State) (n : Nat) : (s.dropReq n).qHigh = s.qHigh := rfl
@[simp] theorem dropReq_bcast (s : State) (n : Nat) : (s.dropReq n).bcast = s.bcast := rfl
@[simp] theorem dropReq_wedgedPorts (s : State) (n : Nat) : (s.dropReq n).wedgedPorts = s.wedgedPorts := rfl
@[simp] theorem dropReq_barriers (s : State) (n : Nat) : (s.dropReq n).barriers = s.barriers := rfl
@[simp] theorem dropReq_reads (s : State) (n : Nat) : (s.dropReq n).reads = s.reads := rfl
@[simp] theorem dropReq_jobs (s : State) (n : Nat) : (s.dropReq n).jobs = s.jobs := rfl
@[simp] theorem dropReq_fences (s : State) (n : Nat) : (s.dropReq n).fences = s.fences := rfl
@[simp] theorem dropReq_waits (s : State) (n : Nat) : (s.dropReq n).waits = s.waits := rfl
@[simp] theorem dropReq_drains (s : State) (n : Nat) : (s.dropReq n).drains = s.drains := rfl
@[simp] theorem dropReq_hold (s : State) (n : Nat) : (s.dropReq n).hold = s.hold := rfl
@[simp] theorem dropReq_justOut (s : State) (n : Nat) : (s.dropReq n).justOut = s.justOut := rfl
@[simp] theorem dropReq_priors (s : State) (n : Nat) : (s.dropReq n).priors = s.priors := rfl
@[simp] theorem dropReq_nextEnt (s : State) (n : Nat) : (s.dropReq n).nextEnt = s.nextEnt := rfl
@[simp] theorem dropReq_merge (s : State) (n : Nat) : (s.dropReq n).merge = s.merge := rfl
@[simp] theorem dropReq_provConfirmed (s : State) (n : Nat) : (s.dropReq n).provConfirmed = s.provConfirmed := rfl
@[simp] theorem dropReq_provRetry (s : State) (n : Nat) : (s.dropReq n).provRetry = s.provRetry := rfl
@[simp] theorem dropReq_provWeak (s : State) (n : Nat) : (s.dropReq n).provWeak = s.provWeak := rfl
@[simp] theorem dropReq_provRecanted (s : State) (n : Nat) : (s.dropReq n).provRecanted = s.provRecanted := rfl
@[simp] theorem dropReq_mergeClose (s : State) (n : Nat) : (s.dropReq n).mergeClose = s.mergeClose := rfl
@[simp] theorem dropReq_redoSent (s : State) (n : Nat) : (s.dropReq n).redoSent = s.redoSent := rfl
@[simp] theorem dropReq_lastComp (s : State) (n : Nat) : (s.dropReq n).lastComp = s.lastComp := rfl
@[simp] theorem dropReq_compRecants (s : State) (n : Nat) : (s.dropReq n).compRecants = s.compRecants := rfl
@[simp] theorem dropReq_compOver (s : State) (n : Nat) : (s.dropReq n).compOver = s.compOver := rfl
@[simp] theorem dropReq_confMax (s : State) (n : Nat) : (s.dropReq n).confMax = s.confMax := rfl
@[simp] theorem dropReq_pages (s : State) (n : Nat) : (s.dropReq n).pages = s.pages := rfl
@[simp] theorem dropReq_moves (s : State) (n : Nat) : (s.dropReq n).moves = s.moves := rfl
@[simp] theorem dropReq_near (s : State) (n : Nat) : (s.dropReq n).near = s.near := rfl
@[simp] theorem dropReq_copies (s : State) (n : Nat) : (s.dropReq n).copies = s.copies := rfl
@[simp] theorem dropReq_stages (s : State) (n : Nat) : (s.dropReq n).stages = s.stages := rfl
@[simp] theorem dropReq_muffles (s : State) (n : Nat) : (s.dropReq n).muffles = s.muffles := rfl
@[simp] theorem dropReq_stageJobs (s : State) (n : Nat) : (s.dropReq n).stageJobs = s.stageJobs := rfl
@[simp] theorem dropReq_mufJobs (s : State) (n : Nat) : (s.dropReq n).mufJobs = s.mufJobs := rfl
@[simp] theorem dropReq_chordq (s : State) (n : Nat) : (s.dropReq n).chordq = s.chordq := rfl
@[simp] theorem dropReq_closing (s : State) (n : Nat) : (s.dropReq n).closing = s.closing := rfl
@[simp] theorem dropReq_restDue (s : State) (n : Nat) : (s.dropReq n).restDue = s.restDue := rfl
@[simp] theorem dropReq_gongDue (s : State) (n : Nat) : (s.dropReq n).gongDue = s.gongDue := rfl
@[simp] theorem dropReq_soft (s : State) (n : Nat) : (s.dropReq n).soft = s.soft := rfl
@[simp] theorem dropReq_free (s : State) (n : Nat) : (s.dropReq n).free = s.free := rfl

@[simp] theorem logRec_pending (s : State) (c a : Nat) (r : Option Nat) : (s.logRec c a r).pending = s.pending := rfl
@[simp] theorem logRec_mode (s : State) (c a : Nat) (r : Option Nat) : (s.logRec c a r).mode = s.mode := rfl
@[simp] theorem logRec_prev (s : State) (c a : Nat) (r : Option Nat) : (s.logRec c a r).prev = s.prev := rfl
@[simp] theorem logRec_completing (s : State) (c a : Nat) (r : Option Nat) : (s.logRec c a r).completing = s.completing := rfl
@[simp] theorem logRec_triggers (s : State) (c a : Nat) (r : Option Nat) : (s.logRec c a r).triggers = s.triggers := rfl
@[simp] theorem logRec_history (s : State) (c a : Nat) (r : Option Nat) : (s.logRec c a r).history = s.history := rfl
@[simp] theorem logRec_headers (s : State) (c a : Nat) (r : Option Nat) : (s.logRec c a r).headers = s.headers := rfl
@[simp] theorem logRec_pins (s : State) (c a : Nat) (r : Option Nat) : (s.logRec c a r).pins = s.pins := rfl
@[simp] theorem logRec_gen (s : State) (c a : Nat) (r : Option Nat) : (s.logRec c a r).gen = s.gen := rfl
@[simp] theorem logRec_bar (s : State) (c a : Nat) (r : Option Nat) : (s.logRec c a r).bar = s.bar := rfl
@[simp] theorem logRec_stk (s : State) (c a : Nat) (r : Option Nat) : (s.logRec c a r).stk = s.stk := rfl
@[simp] theorem logRec_tier (s : State) (c a : Nat) (r : Option Nat) : (s.logRec c a r).tier = s.tier := rfl
@[simp] theorem logRec_deep (s : State) (c a : Nat) (r : Option Nat) : (s.logRec c a r).deep = s.deep := rfl
@[simp] theorem logRec_ecc (s : State) (c a : Nat) (r : Option Nat) : (s.logRec c a r).ecc = s.ecc := rfl
@[simp] theorem logRec_rep (s : State) (c a : Nat) (r : Option Nat) : (s.logRec c a r).rep = s.rep := rfl
@[simp] theorem logRec_toll (s : State) (c a : Nat) (r : Option Nat) : (s.logRec c a r).toll = s.toll := rfl
@[simp] theorem logRec_pwr (s : State) (c a : Nat) (r : Option Nat) : (s.logRec c a r).pwr = s.pwr := rfl
@[simp] theorem logRec_tal (s : State) (c a : Nat) (r : Option Nat) : (s.logRec c a r).tal = s.tal := rfl
@[simp] theorem logRec_knl (s : State) (c a : Nat) (r : Option Nat) : (s.logRec c a r).knl = s.knl := rfl
@[simp] theorem logRec_i3c (s : State) (c a : Nat) (r : Option Nat) : (s.logRec c a r).i3c = s.i3c := rfl
@[simp] theorem logRec_tap (s : State) (c a : Nat) (r : Option Nat) : (s.logRec c a r).tap = s.tap := rfl
@[simp] theorem logRec_evs (s : State) (c a : Nat) (r : Option Nat) : (s.logRec c a r).evs = s.evs := rfl
@[simp] theorem logRec_ringA (s : State) (c a : Nat) (r : Option Nat) : (s.logRec c a r).ringA = s.ringA := rfl
@[simp] theorem logRec_ringB (s : State) (c a : Nat) (r : Option Nat) : (s.logRec c a r).ringB = s.ringB := rfl
@[simp] theorem logRec_kits (s : State) (c a : Nat) (r : Option Nat) : (s.logRec c a r).kits = s.kits := rfl
@[simp] theorem logRec_engs (s : State) (c a : Nat) (r : Option Nat) : (s.logRec c a r).engs = s.engs := rfl
@[simp] theorem logRec_mram (s : State) (c a : Nat) (r : Option Nat) : (s.logRec c a r).mram = s.mram := rfl
@[simp] theorem logRec_inflight (s : State) (c a : Nat) (r : Option Nat) : (s.logRec c a r).inflight = s.inflight := rfl
@[simp] theorem logRec_nextRid (s : State) (c a : Nat) (r : Option Nat) : (s.logRec c a r).nextRid = s.nextRid := rfl
@[simp] theorem logRec_replies (s : State) (c a : Nat) (r : Option Nat) : (s.logRec c a r).replies = s.replies := rfl
@[simp] theorem logRec_devq (s : State) (c a : Nat) (r : Option Nat) : (s.logRec c a r).devq = s.devq := rfl
@[simp] theorem logRec_devSeq (s : State) (c a : Nat) (r : Option Nat) : (s.logRec c a r).devSeq = s.devSeq := rfl
@[simp] theorem logRec_sent (s : State) (c a : Nat) (r : Option Nat) : (s.logRec c a r).sent = s.sent := rfl
@[simp] theorem logRec_infHigh (s : State) (c a : Nat) (r : Option Nat) : (s.logRec c a r).infHigh = s.infHigh := rfl
@[simp] theorem logRec_orphaned (s : State) (c a : Nat) (r : Option Nat) : (s.logRec c a r).orphaned = s.orphaned := rfl
@[simp] theorem logRec_frameErr (s : State) (c a : Nat) (r : Option Nat) : (s.logRec c a r).frameErr = s.frameErr := rfl
@[simp] theorem logRec_qHigh (s : State) (c a : Nat) (r : Option Nat) : (s.logRec c a r).qHigh = s.qHigh := rfl
@[simp] theorem logRec_bcast (s : State) (c a : Nat) (r : Option Nat) : (s.logRec c a r).bcast = s.bcast := rfl
@[simp] theorem logRec_wedgedPorts (s : State) (c a : Nat) (r : Option Nat) : (s.logRec c a r).wedgedPorts = s.wedgedPorts := rfl
@[simp] theorem logRec_barriers (s : State) (c a : Nat) (r : Option Nat) : (s.logRec c a r).barriers = s.barriers := rfl
@[simp] theorem logRec_reads (s : State) (c a : Nat) (r : Option Nat) : (s.logRec c a r).reads = s.reads := rfl
@[simp] theorem logRec_jobs (s : State) (c a : Nat) (r : Option Nat) : (s.logRec c a r).jobs = s.jobs := rfl
@[simp] theorem logRec_fences (s : State) (c a : Nat) (r : Option Nat) : (s.logRec c a r).fences = s.fences := rfl
@[simp] theorem logRec_waits (s : State) (c a : Nat) (r : Option Nat) : (s.logRec c a r).waits = s.waits := rfl
@[simp] theorem logRec_drains (s : State) (c a : Nat) (r : Option Nat) : (s.logRec c a r).drains = s.drains := rfl
@[simp] theorem logRec_hold (s : State) (c a : Nat) (r : Option Nat) : (s.logRec c a r).hold = s.hold := rfl
@[simp] theorem logRec_justOut (s : State) (c a : Nat) (r : Option Nat) : (s.logRec c a r).justOut = s.justOut := rfl
@[simp] theorem logRec_priors (s : State) (c a : Nat) (r : Option Nat) : (s.logRec c a r).priors = s.priors := rfl
@[simp] theorem logRec_nextEnt (s : State) (c a : Nat) (r : Option Nat) : (s.logRec c a r).nextEnt = s.nextEnt := rfl
@[simp] theorem logRec_merge (s : State) (c a : Nat) (r : Option Nat) : (s.logRec c a r).merge = s.merge := rfl
@[simp] theorem logRec_provConfirmed (s : State) (c a : Nat) (r : Option Nat) : (s.logRec c a r).provConfirmed = s.provConfirmed := rfl
@[simp] theorem logRec_provRetry (s : State) (c a : Nat) (r : Option Nat) : (s.logRec c a r).provRetry = s.provRetry := rfl
@[simp] theorem logRec_provWeak (s : State) (c a : Nat) (r : Option Nat) : (s.logRec c a r).provWeak = s.provWeak := rfl
@[simp] theorem logRec_provRecanted (s : State) (c a : Nat) (r : Option Nat) : (s.logRec c a r).provRecanted = s.provRecanted := rfl
@[simp] theorem logRec_mergeClose (s : State) (c a : Nat) (r : Option Nat) : (s.logRec c a r).mergeClose = s.mergeClose := rfl
@[simp] theorem logRec_redoSent (s : State) (c a : Nat) (r : Option Nat) : (s.logRec c a r).redoSent = s.redoSent := rfl
@[simp] theorem logRec_lastComp (s : State) (c a : Nat) (r : Option Nat) : (s.logRec c a r).lastComp = s.lastComp := rfl
@[simp] theorem logRec_compRecants (s : State) (c a : Nat) (r : Option Nat) : (s.logRec c a r).compRecants = s.compRecants := rfl
@[simp] theorem logRec_compOver (s : State) (c a : Nat) (r : Option Nat) : (s.logRec c a r).compOver = s.compOver := rfl
@[simp] theorem logRec_confMax (s : State) (c a : Nat) (r : Option Nat) : (s.logRec c a r).confMax = s.confMax := rfl
@[simp] theorem logRec_pages (s : State) (c a : Nat) (r : Option Nat) : (s.logRec c a r).pages = s.pages := rfl
@[simp] theorem logRec_moves (s : State) (c a : Nat) (r : Option Nat) : (s.logRec c a r).moves = s.moves := rfl
@[simp] theorem logRec_near (s : State) (c a : Nat) (r : Option Nat) : (s.logRec c a r).near = s.near := rfl
@[simp] theorem logRec_copies (s : State) (c a : Nat) (r : Option Nat) : (s.logRec c a r).copies = s.copies := rfl
@[simp] theorem logRec_stages (s : State) (c a : Nat) (r : Option Nat) : (s.logRec c a r).stages = s.stages := rfl
@[simp] theorem logRec_muffles (s : State) (c a : Nat) (r : Option Nat) : (s.logRec c a r).muffles = s.muffles := rfl
@[simp] theorem logRec_stageJobs (s : State) (c a : Nat) (r : Option Nat) : (s.logRec c a r).stageJobs = s.stageJobs := rfl
@[simp] theorem logRec_mufJobs (s : State) (c a : Nat) (r : Option Nat) : (s.logRec c a r).mufJobs = s.mufJobs := rfl
@[simp] theorem logRec_chordq (s : State) (c a : Nat) (r : Option Nat) : (s.logRec c a r).chordq = s.chordq := rfl
@[simp] theorem logRec_closing (s : State) (c a : Nat) (r : Option Nat) : (s.logRec c a r).closing = s.closing := rfl
@[simp] theorem logRec_restDue (s : State) (c a : Nat) (r : Option Nat) : (s.logRec c a r).restDue = s.restDue := rfl
@[simp] theorem logRec_gongDue (s : State) (c a : Nat) (r : Option Nat) : (s.logRec c a r).gongDue = s.gongDue := rfl
@[simp] theorem logRec_soft (s : State) (c a : Nat) (r : Option Nat) : (s.logRec c a r).soft = s.soft := rfl

@[simp] theorem tally_pending (s : State) (t : Nat) (k : Option Kit) (a : Nat) : (s.tally t k a).pending = s.pending :=
    by unfold State.tally State.tallyAt; (repeat' split) <;> rfl
@[simp] theorem tally_mode (s : State) (t : Nat) (k : Option Kit) (a : Nat) : (s.tally t k a).mode = s.mode :=
    by unfold State.tally State.tallyAt; (repeat' split) <;> rfl
@[simp] theorem tally_prev (s : State) (t : Nat) (k : Option Kit) (a : Nat) : (s.tally t k a).prev = s.prev :=
    by unfold State.tally State.tallyAt; (repeat' split) <;> rfl
@[simp] theorem tally_completing (s : State) (t : Nat) (k : Option Kit) (a : Nat) : (s.tally t k a).completing = s.completing :=
    by unfold State.tally State.tallyAt; (repeat' split) <;> rfl
@[simp] theorem tally_triggers (s : State) (t : Nat) (k : Option Kit) (a : Nat) : (s.tally t k a).triggers = s.triggers :=
    by unfold State.tally State.tallyAt; (repeat' split) <;> rfl
@[simp] theorem tally_history (s : State) (t : Nat) (k : Option Kit) (a : Nat) : (s.tally t k a).history = s.history :=
    by unfold State.tally State.tallyAt; (repeat' split) <;> rfl
@[simp] theorem tally_headers (s : State) (t : Nat) (k : Option Kit) (a : Nat) : (s.tally t k a).headers = s.headers :=
    by unfold State.tally State.tallyAt; (repeat' split) <;> rfl
@[simp] theorem tally_pins (s : State) (t : Nat) (k : Option Kit) (a : Nat) : (s.tally t k a).pins = s.pins :=
    by unfold State.tally State.tallyAt; (repeat' split) <;> rfl
@[simp] theorem tally_gen (s : State) (t : Nat) (k : Option Kit) (a : Nat) : (s.tally t k a).gen = s.gen :=
    by unfold State.tally State.tallyAt; (repeat' split) <;> rfl
@[simp] theorem tally_bar (s : State) (t : Nat) (k : Option Kit) (a : Nat) : (s.tally t k a).bar = s.bar :=
    by unfold State.tally State.tallyAt; (repeat' split) <;> rfl
@[simp] theorem tally_stk (s : State) (t : Nat) (k : Option Kit) (a : Nat) : (s.tally t k a).stk = s.stk :=
    by unfold State.tally State.tallyAt; (repeat' split) <;> rfl
@[simp] theorem tally_tier (s : State) (t : Nat) (k : Option Kit) (a : Nat) : (s.tally t k a).tier = s.tier :=
    by unfold State.tally State.tallyAt; (repeat' split) <;> rfl
@[simp] theorem tally_deep (s : State) (t : Nat) (k : Option Kit) (a : Nat) : (s.tally t k a).deep = s.deep :=
    by unfold State.tally State.tallyAt; (repeat' split) <;> rfl
@[simp] theorem tally_ecc (s : State) (t : Nat) (k : Option Kit) (a : Nat) : (s.tally t k a).ecc = s.ecc :=
    by unfold State.tally State.tallyAt; (repeat' split) <;> rfl
@[simp] theorem tally_rep (s : State) (t : Nat) (k : Option Kit) (a : Nat) : (s.tally t k a).rep = s.rep :=
    by unfold State.tally State.tallyAt; (repeat' split) <;> rfl
@[simp] theorem tally_bel (s : State) (t : Nat) (k : Option Kit) (a : Nat) : (s.tally t k a).bel = s.bel :=
    by unfold State.tally State.tallyAt; (repeat' split) <;> rfl
@[simp] theorem tally_toll (s : State) (t : Nat) (k : Option Kit) (a : Nat) : (s.tally t k a).toll = s.toll :=
    by unfold State.tally State.tallyAt; (repeat' split) <;> rfl
@[simp] theorem tally_pwr (s : State) (t : Nat) (k : Option Kit) (a : Nat) : (s.tally t k a).pwr = s.pwr :=
    by unfold State.tally State.tallyAt; (repeat' split) <;> rfl
@[simp] theorem tally_knl (s : State) (t : Nat) (k : Option Kit) (a : Nat) : (s.tally t k a).knl = s.knl :=
    by unfold State.tally State.tallyAt; (repeat' split) <;> rfl
@[simp] theorem tally_i3c (s : State) (t : Nat) (k : Option Kit) (a : Nat) : (s.tally t k a).i3c = s.i3c :=
    by unfold State.tally State.tallyAt; (repeat' split) <;> rfl
@[simp] theorem tally_tap (s : State) (t : Nat) (k : Option Kit) (a : Nat) : (s.tally t k a).tap = s.tap :=
    by unfold State.tally State.tallyAt; (repeat' split) <;> rfl
@[simp] theorem tally_ringA (s : State) (t : Nat) (k : Option Kit) (a : Nat) : (s.tally t k a).ringA = s.ringA :=
    by unfold State.tally State.tallyAt; (repeat' split) <;> rfl
@[simp] theorem tally_ringB (s : State) (t : Nat) (k : Option Kit) (a : Nat) : (s.tally t k a).ringB = s.ringB :=
    by unfold State.tally State.tallyAt; (repeat' split) <;> rfl
@[simp] theorem tally_kits (s : State) (t : Nat) (k : Option Kit) (a : Nat) : (s.tally t k a).kits = s.kits :=
    by unfold State.tally State.tallyAt; (repeat' split) <;> rfl
@[simp] theorem tally_engs (s : State) (t : Nat) (k : Option Kit) (a : Nat) : (s.tally t k a).engs = s.engs :=
    by unfold State.tally State.tallyAt; (repeat' split) <;> rfl
@[simp] theorem tally_mram (s : State) (t : Nat) (k : Option Kit) (a : Nat) : (s.tally t k a).mram = s.mram :=
    by unfold State.tally State.tallyAt; (repeat' split) <;> rfl
@[simp] theorem tally_inflight (s : State) (t : Nat) (k : Option Kit) (a : Nat) : (s.tally t k a).inflight = s.inflight :=
    by unfold State.tally State.tallyAt; (repeat' split) <;> rfl
@[simp] theorem tally_nextRid (s : State) (t : Nat) (k : Option Kit) (a : Nat) : (s.tally t k a).nextRid = s.nextRid :=
    by unfold State.tally State.tallyAt; (repeat' split) <;> rfl
@[simp] theorem tally_replies (s : State) (t : Nat) (k : Option Kit) (a : Nat) : (s.tally t k a).replies = s.replies :=
    by unfold State.tally State.tallyAt; (repeat' split) <;> rfl
@[simp] theorem tally_devq (s : State) (t : Nat) (k : Option Kit) (a : Nat) : (s.tally t k a).devq = s.devq :=
    by unfold State.tally State.tallyAt; (repeat' split) <;> rfl
@[simp] theorem tally_devSeq (s : State) (t : Nat) (k : Option Kit) (a : Nat) : (s.tally t k a).devSeq = s.devSeq :=
    by unfold State.tally State.tallyAt; (repeat' split) <;> rfl
@[simp] theorem tally_sent (s : State) (t : Nat) (k : Option Kit) (a : Nat) : (s.tally t k a).sent = s.sent :=
    by unfold State.tally State.tallyAt; (repeat' split) <;> rfl
@[simp] theorem tally_infHigh (s : State) (t : Nat) (k : Option Kit) (a : Nat) : (s.tally t k a).infHigh = s.infHigh :=
    by unfold State.tally State.tallyAt; (repeat' split) <;> rfl
@[simp] theorem tally_orphaned (s : State) (t : Nat) (k : Option Kit) (a : Nat) : (s.tally t k a).orphaned = s.orphaned :=
    by unfold State.tally State.tallyAt; (repeat' split) <;> rfl
@[simp] theorem tally_frameErr (s : State) (t : Nat) (k : Option Kit) (a : Nat) : (s.tally t k a).frameErr = s.frameErr :=
    by unfold State.tally State.tallyAt; (repeat' split) <;> rfl
@[simp] theorem tally_qHigh (s : State) (t : Nat) (k : Option Kit) (a : Nat) : (s.tally t k a).qHigh = s.qHigh :=
    by unfold State.tally State.tallyAt; (repeat' split) <;> rfl
@[simp] theorem tally_bcast (s : State) (t : Nat) (k : Option Kit) (a : Nat) : (s.tally t k a).bcast = s.bcast :=
    by unfold State.tally State.tallyAt; (repeat' split) <;> rfl
@[simp] theorem tally_wedgedPorts (s : State) (t : Nat) (k : Option Kit) (a : Nat) : (s.tally t k a).wedgedPorts = s.wedgedPorts :=
    by unfold State.tally State.tallyAt; (repeat' split) <;> rfl
@[simp] theorem tally_barriers (s : State) (t : Nat) (k : Option Kit) (a : Nat) : (s.tally t k a).barriers = s.barriers :=
    by unfold State.tally State.tallyAt; (repeat' split) <;> rfl
@[simp] theorem tally_reads (s : State) (t : Nat) (k : Option Kit) (a : Nat) : (s.tally t k a).reads = s.reads :=
    by unfold State.tally State.tallyAt; (repeat' split) <;> rfl
@[simp] theorem tally_jobs (s : State) (t : Nat) (k : Option Kit) (a : Nat) : (s.tally t k a).jobs = s.jobs :=
    by unfold State.tally State.tallyAt; (repeat' split) <;> rfl
@[simp] theorem tally_fences (s : State) (t : Nat) (k : Option Kit) (a : Nat) : (s.tally t k a).fences = s.fences :=
    by unfold State.tally State.tallyAt; (repeat' split) <;> rfl
@[simp] theorem tally_waits (s : State) (t : Nat) (k : Option Kit) (a : Nat) : (s.tally t k a).waits = s.waits :=
    by unfold State.tally State.tallyAt; (repeat' split) <;> rfl
@[simp] theorem tally_drains (s : State) (t : Nat) (k : Option Kit) (a : Nat) : (s.tally t k a).drains = s.drains :=
    by unfold State.tally State.tallyAt; (repeat' split) <;> rfl
@[simp] theorem tally_hold (s : State) (t : Nat) (k : Option Kit) (a : Nat) : (s.tally t k a).hold = s.hold :=
    by unfold State.tally State.tallyAt; (repeat' split) <;> rfl
@[simp] theorem tally_justOut (s : State) (t : Nat) (k : Option Kit) (a : Nat) : (s.tally t k a).justOut = s.justOut :=
    by unfold State.tally State.tallyAt; (repeat' split) <;> rfl
@[simp] theorem tally_priors (s : State) (t : Nat) (k : Option Kit) (a : Nat) : (s.tally t k a).priors = s.priors :=
    by unfold State.tally State.tallyAt; (repeat' split) <;> rfl
@[simp] theorem tally_nextEnt (s : State) (t : Nat) (k : Option Kit) (a : Nat) : (s.tally t k a).nextEnt = s.nextEnt :=
    by unfold State.tally State.tallyAt; (repeat' split) <;> rfl
@[simp] theorem tally_merge (s : State) (t : Nat) (k : Option Kit) (a : Nat) : (s.tally t k a).merge = s.merge :=
    by unfold State.tally State.tallyAt; (repeat' split) <;> rfl
@[simp] theorem tally_provConfirmed (s : State) (t : Nat) (k : Option Kit) (a : Nat) : (s.tally t k a).provConfirmed = s.provConfirmed :=
    by unfold State.tally State.tallyAt; (repeat' split) <;> rfl
@[simp] theorem tally_provRetry (s : State) (t : Nat) (k : Option Kit) (a : Nat) : (s.tally t k a).provRetry = s.provRetry :=
    by unfold State.tally State.tallyAt; (repeat' split) <;> rfl
@[simp] theorem tally_provWeak (s : State) (t : Nat) (k : Option Kit) (a : Nat) : (s.tally t k a).provWeak = s.provWeak :=
    by unfold State.tally State.tallyAt; (repeat' split) <;> rfl
@[simp] theorem tally_provRecanted (s : State) (t : Nat) (k : Option Kit) (a : Nat) : (s.tally t k a).provRecanted = s.provRecanted :=
    by unfold State.tally State.tallyAt; (repeat' split) <;> rfl
@[simp] theorem tally_mergeClose (s : State) (t : Nat) (k : Option Kit) (a : Nat) : (s.tally t k a).mergeClose = s.mergeClose :=
    by unfold State.tally State.tallyAt; (repeat' split) <;> rfl
@[simp] theorem tally_redoSent (s : State) (t : Nat) (k : Option Kit) (a : Nat) : (s.tally t k a).redoSent = s.redoSent :=
    by unfold State.tally State.tallyAt; (repeat' split) <;> rfl
@[simp] theorem tally_lastComp (s : State) (t : Nat) (k : Option Kit) (a : Nat) : (s.tally t k a).lastComp = s.lastComp :=
    by unfold State.tally State.tallyAt; (repeat' split) <;> rfl
@[simp] theorem tally_compRecants (s : State) (t : Nat) (k : Option Kit) (a : Nat) : (s.tally t k a).compRecants = s.compRecants :=
    by unfold State.tally State.tallyAt; (repeat' split) <;> rfl
@[simp] theorem tally_compOver (s : State) (t : Nat) (k : Option Kit) (a : Nat) : (s.tally t k a).compOver = s.compOver :=
    by unfold State.tally State.tallyAt; (repeat' split) <;> rfl
@[simp] theorem tally_confMax (s : State) (t : Nat) (k : Option Kit) (a : Nat) : (s.tally t k a).confMax = s.confMax :=
    by unfold State.tally State.tallyAt; (repeat' split) <;> rfl
@[simp] theorem tally_pages (s : State) (t : Nat) (k : Option Kit) (a : Nat) : (s.tally t k a).pages = s.pages :=
    by unfold State.tally State.tallyAt; (repeat' split) <;> rfl
@[simp] theorem tally_moves (s : State) (t : Nat) (k : Option Kit) (a : Nat) : (s.tally t k a).moves = s.moves :=
    by unfold State.tally State.tallyAt; (repeat' split) <;> rfl
@[simp] theorem tally_near (s : State) (t : Nat) (k : Option Kit) (a : Nat) : (s.tally t k a).near = s.near :=
    by unfold State.tally State.tallyAt; (repeat' split) <;> rfl
@[simp] theorem tally_copies (s : State) (t : Nat) (k : Option Kit) (a : Nat) : (s.tally t k a).copies = s.copies :=
    by unfold State.tally State.tallyAt; (repeat' split) <;> rfl
@[simp] theorem tally_stages (s : State) (t : Nat) (k : Option Kit) (a : Nat) : (s.tally t k a).stages = s.stages :=
    by unfold State.tally State.tallyAt; (repeat' split) <;> rfl
@[simp] theorem tally_muffles (s : State) (t : Nat) (k : Option Kit) (a : Nat) : (s.tally t k a).muffles = s.muffles :=
    by unfold State.tally State.tallyAt; (repeat' split) <;> rfl
@[simp] theorem tally_stageJobs (s : State) (t : Nat) (k : Option Kit) (a : Nat) : (s.tally t k a).stageJobs = s.stageJobs :=
    by unfold State.tally State.tallyAt; (repeat' split) <;> rfl
@[simp] theorem tally_mufJobs (s : State) (t : Nat) (k : Option Kit) (a : Nat) : (s.tally t k a).mufJobs = s.mufJobs :=
    by unfold State.tally State.tallyAt; (repeat' split) <;> rfl
@[simp] theorem tally_chordq (s : State) (t : Nat) (k : Option Kit) (a : Nat) : (s.tally t k a).chordq = s.chordq :=
    by unfold State.tally State.tallyAt; (repeat' split) <;> rfl
@[simp] theorem tally_closing (s : State) (t : Nat) (k : Option Kit) (a : Nat) : (s.tally t k a).closing = s.closing :=
    by unfold State.tally State.tallyAt; (repeat' split) <;> rfl
@[simp] theorem tally_restDue (s : State) (t : Nat) (k : Option Kit) (a : Nat) : (s.tally t k a).restDue = s.restDue :=
    by unfold State.tally State.tallyAt; (repeat' split) <;> rfl
@[simp] theorem tally_gongDue (s : State) (t : Nat) (k : Option Kit) (a : Nat) : (s.tally t k a).gongDue = s.gongDue :=
    by unfold State.tally State.tallyAt; (repeat' split) <;> rfl
@[simp] theorem tally_soft (s : State) (t : Nat) (k : Option Kit) (a : Nat) : (s.tally t k a).soft = s.soft :=
    by unfold State.tally State.tallyAt; (repeat' split) <;> rfl
@[simp] theorem tally_free (s : State) (t : Nat) (k : Option Kit) (a : Nat) : (s.tally t k a).free = s.free :=
    by unfold State.tally State.tallyAt; (repeat' split) <;> rfl

@[simp] theorem sendDev_pending (s : State) (p : DevPkt) : (s.sendDev p).pending = s.pending :=
    by unfold State.sendDev; split <;> rfl
@[simp] theorem sendDev_mode (s : State) (p : DevPkt) : (s.sendDev p).mode = s.mode :=
    by unfold State.sendDev; split <;> rfl
@[simp] theorem sendDev_prev (s : State) (p : DevPkt) : (s.sendDev p).prev = s.prev :=
    by unfold State.sendDev; split <;> rfl
@[simp] theorem sendDev_completing (s : State) (p : DevPkt) : (s.sendDev p).completing = s.completing :=
    by unfold State.sendDev; split <;> rfl
@[simp] theorem sendDev_triggers (s : State) (p : DevPkt) : (s.sendDev p).triggers = s.triggers :=
    by unfold State.sendDev; split <;> rfl
@[simp] theorem sendDev_history (s : State) (p : DevPkt) : (s.sendDev p).history = s.history :=
    by unfold State.sendDev; split <;> rfl
@[simp] theorem sendDev_headers (s : State) (p : DevPkt) : (s.sendDev p).headers = s.headers :=
    by unfold State.sendDev; split <;> rfl
@[simp] theorem sendDev_pins (s : State) (p : DevPkt) : (s.sendDev p).pins = s.pins :=
    by unfold State.sendDev; split <;> rfl
@[simp] theorem sendDev_gen (s : State) (p : DevPkt) : (s.sendDev p).gen = s.gen :=
    by unfold State.sendDev; split <;> rfl
@[simp] theorem sendDev_bar (s : State) (p : DevPkt) : (s.sendDev p).bar = s.bar :=
    by unfold State.sendDev; split <;> rfl
@[simp] theorem sendDev_stk (s : State) (p : DevPkt) : (s.sendDev p).stk = s.stk :=
    by unfold State.sendDev; split <;> rfl
@[simp] theorem sendDev_tier (s : State) (p : DevPkt) : (s.sendDev p).tier = s.tier :=
    by unfold State.sendDev; split <;> rfl
@[simp] theorem sendDev_deep (s : State) (p : DevPkt) : (s.sendDev p).deep = s.deep :=
    by unfold State.sendDev; split <;> rfl
@[simp] theorem sendDev_ecc (s : State) (p : DevPkt) : (s.sendDev p).ecc = s.ecc :=
    by unfold State.sendDev; split <;> rfl
@[simp] theorem sendDev_rep (s : State) (p : DevPkt) : (s.sendDev p).rep = s.rep :=
    by unfold State.sendDev; split <;> rfl
@[simp] theorem sendDev_bel (s : State) (p : DevPkt) : (s.sendDev p).bel = s.bel :=
    by unfold State.sendDev; split <;> rfl
@[simp] theorem sendDev_toll (s : State) (p : DevPkt) : (s.sendDev p).toll = s.toll :=
    by unfold State.sendDev; split <;> rfl
@[simp] theorem sendDev_pwr (s : State) (p : DevPkt) : (s.sendDev p).pwr = s.pwr :=
    by unfold State.sendDev; split <;> rfl
@[simp] theorem sendDev_tal (s : State) (p : DevPkt) : (s.sendDev p).tal = s.tal :=
    by unfold State.sendDev; split <;> rfl
@[simp] theorem sendDev_knl (s : State) (p : DevPkt) : (s.sendDev p).knl = s.knl :=
    by unfold State.sendDev; split <;> rfl
@[simp] theorem sendDev_i3c (s : State) (p : DevPkt) : (s.sendDev p).i3c = s.i3c :=
    by unfold State.sendDev; split <;> rfl
@[simp] theorem sendDev_tap (s : State) (p : DevPkt) : (s.sendDev p).tap = s.tap :=
    by unfold State.sendDev; split <;> rfl
@[simp] theorem sendDev_evs (s : State) (p : DevPkt) : (s.sendDev p).evs = s.evs :=
    by unfold State.sendDev; split <;> rfl
@[simp] theorem sendDev_ringA (s : State) (p : DevPkt) : (s.sendDev p).ringA = s.ringA :=
    by unfold State.sendDev; split <;> rfl
@[simp] theorem sendDev_ringB (s : State) (p : DevPkt) : (s.sendDev p).ringB = s.ringB :=
    by unfold State.sendDev; split <;> rfl
@[simp] theorem sendDev_kits (s : State) (p : DevPkt) : (s.sendDev p).kits = s.kits :=
    by unfold State.sendDev; split <;> rfl
@[simp] theorem sendDev_engs (s : State) (p : DevPkt) : (s.sendDev p).engs = s.engs :=
    by unfold State.sendDev; split <;> rfl
@[simp] theorem sendDev_mram (s : State) (p : DevPkt) : (s.sendDev p).mram = s.mram :=
    by unfold State.sendDev; split <;> rfl
@[simp] theorem sendDev_inflight (s : State) (p : DevPkt) : (s.sendDev p).inflight = s.inflight :=
    by unfold State.sendDev; split <;> rfl
@[simp] theorem sendDev_nextRid (s : State) (p : DevPkt) : (s.sendDev p).nextRid = s.nextRid :=
    by unfold State.sendDev; split <;> rfl
@[simp] theorem sendDev_replies (s : State) (p : DevPkt) : (s.sendDev p).replies = s.replies :=
    by unfold State.sendDev; split <;> rfl
@[simp] theorem sendDev_devSeq (s : State) (p : DevPkt) : (s.sendDev p).devSeq = s.devSeq :=
    by unfold State.sendDev; split <;> rfl
@[simp] theorem sendDev_sent (s : State) (p : DevPkt) : (s.sendDev p).sent = s.sent :=
    by unfold State.sendDev; split <;> rfl
@[simp] theorem sendDev_infHigh (s : State) (p : DevPkt) : (s.sendDev p).infHigh = s.infHigh :=
    by unfold State.sendDev; split <;> rfl
@[simp] theorem sendDev_orphaned (s : State) (p : DevPkt) : (s.sendDev p).orphaned = s.orphaned :=
    by unfold State.sendDev; split <;> rfl
@[simp] theorem sendDev_frameErr (s : State) (p : DevPkt) : (s.sendDev p).frameErr = s.frameErr :=
    by unfold State.sendDev; split <;> rfl
@[simp] theorem sendDev_qHigh (s : State) (p : DevPkt) : (s.sendDev p).qHigh = s.qHigh :=
    by unfold State.sendDev; split <;> rfl
@[simp] theorem sendDev_bcast (s : State) (p : DevPkt) : (s.sendDev p).bcast = s.bcast :=
    by unfold State.sendDev; split <;> rfl
@[simp] theorem sendDev_wedgedPorts (s : State) (p : DevPkt) : (s.sendDev p).wedgedPorts = s.wedgedPorts :=
    by unfold State.sendDev; split <;> rfl
@[simp] theorem sendDev_barriers (s : State) (p : DevPkt) : (s.sendDev p).barriers = s.barriers :=
    by unfold State.sendDev; split <;> rfl
@[simp] theorem sendDev_reads (s : State) (p : DevPkt) : (s.sendDev p).reads = s.reads :=
    by unfold State.sendDev; split <;> rfl
@[simp] theorem sendDev_jobs (s : State) (p : DevPkt) : (s.sendDev p).jobs = s.jobs :=
    by unfold State.sendDev; split <;> rfl
@[simp] theorem sendDev_fences (s : State) (p : DevPkt) : (s.sendDev p).fences = s.fences :=
    by unfold State.sendDev; split <;> rfl
@[simp] theorem sendDev_waits (s : State) (p : DevPkt) : (s.sendDev p).waits = s.waits :=
    by unfold State.sendDev; split <;> rfl
@[simp] theorem sendDev_drains (s : State) (p : DevPkt) : (s.sendDev p).drains = s.drains :=
    by unfold State.sendDev; split <;> rfl
@[simp] theorem sendDev_hold (s : State) (p : DevPkt) : (s.sendDev p).hold = s.hold :=
    by unfold State.sendDev; split <;> rfl
@[simp] theorem sendDev_justOut (s : State) (p : DevPkt) : (s.sendDev p).justOut = s.justOut :=
    by unfold State.sendDev; split <;> rfl
@[simp] theorem sendDev_priors (s : State) (p : DevPkt) : (s.sendDev p).priors = s.priors :=
    by unfold State.sendDev; split <;> rfl
@[simp] theorem sendDev_nextEnt (s : State) (p : DevPkt) : (s.sendDev p).nextEnt = s.nextEnt :=
    by unfold State.sendDev; split <;> rfl
@[simp] theorem sendDev_merge (s : State) (p : DevPkt) : (s.sendDev p).merge = s.merge :=
    by unfold State.sendDev; split <;> rfl
@[simp] theorem sendDev_provConfirmed (s : State) (p : DevPkt) : (s.sendDev p).provConfirmed = s.provConfirmed :=
    by unfold State.sendDev; split <;> rfl
@[simp] theorem sendDev_provRetry (s : State) (p : DevPkt) : (s.sendDev p).provRetry = s.provRetry :=
    by unfold State.sendDev; split <;> rfl
@[simp] theorem sendDev_provWeak (s : State) (p : DevPkt) : (s.sendDev p).provWeak = s.provWeak :=
    by unfold State.sendDev; split <;> rfl
@[simp] theorem sendDev_provRecanted (s : State) (p : DevPkt) : (s.sendDev p).provRecanted = s.provRecanted :=
    by unfold State.sendDev; split <;> rfl
@[simp] theorem sendDev_mergeClose (s : State) (p : DevPkt) : (s.sendDev p).mergeClose = s.mergeClose :=
    by unfold State.sendDev; split <;> rfl
@[simp] theorem sendDev_redoSent (s : State) (p : DevPkt) : (s.sendDev p).redoSent = s.redoSent :=
    by unfold State.sendDev; split <;> rfl
@[simp] theorem sendDev_lastComp (s : State) (p : DevPkt) : (s.sendDev p).lastComp = s.lastComp :=
    by unfold State.sendDev; split <;> rfl
@[simp] theorem sendDev_compRecants (s : State) (p : DevPkt) : (s.sendDev p).compRecants = s.compRecants :=
    by unfold State.sendDev; split <;> rfl
@[simp] theorem sendDev_compOver (s : State) (p : DevPkt) : (s.sendDev p).compOver = s.compOver :=
    by unfold State.sendDev; split <;> rfl
@[simp] theorem sendDev_confMax (s : State) (p : DevPkt) : (s.sendDev p).confMax = s.confMax :=
    by unfold State.sendDev; split <;> rfl
@[simp] theorem sendDev_pages (s : State) (p : DevPkt) : (s.sendDev p).pages = s.pages :=
    by unfold State.sendDev; split <;> rfl
@[simp] theorem sendDev_moves (s : State) (p : DevPkt) : (s.sendDev p).moves = s.moves :=
    by unfold State.sendDev; split <;> rfl
@[simp] theorem sendDev_near (s : State) (p : DevPkt) : (s.sendDev p).near = s.near :=
    by unfold State.sendDev; split <;> rfl
@[simp] theorem sendDev_copies (s : State) (p : DevPkt) : (s.sendDev p).copies = s.copies :=
    by unfold State.sendDev; split <;> rfl
@[simp] theorem sendDev_stages (s : State) (p : DevPkt) : (s.sendDev p).stages = s.stages :=
    by unfold State.sendDev; split <;> rfl
@[simp] theorem sendDev_muffles (s : State) (p : DevPkt) : (s.sendDev p).muffles = s.muffles :=
    by unfold State.sendDev; split <;> rfl
@[simp] theorem sendDev_stageJobs (s : State) (p : DevPkt) : (s.sendDev p).stageJobs = s.stageJobs :=
    by unfold State.sendDev; split <;> rfl
@[simp] theorem sendDev_mufJobs (s : State) (p : DevPkt) : (s.sendDev p).mufJobs = s.mufJobs :=
    by unfold State.sendDev; split <;> rfl
@[simp] theorem sendDev_chordq (s : State) (p : DevPkt) : (s.sendDev p).chordq = s.chordq :=
    by unfold State.sendDev; split <;> rfl
@[simp] theorem sendDev_closing (s : State) (p : DevPkt) : (s.sendDev p).closing = s.closing :=
    by unfold State.sendDev; split <;> rfl
@[simp] theorem sendDev_restDue (s : State) (p : DevPkt) : (s.sendDev p).restDue = s.restDue :=
    by unfold State.sendDev; split <;> rfl
@[simp] theorem sendDev_gongDue (s : State) (p : DevPkt) : (s.sendDev p).gongDue = s.gongDue :=
    by unfold State.sendDev; split <;> rfl
@[simp] theorem sendDev_soft (s : State) (p : DevPkt) : (s.sendDev p).soft = s.soft :=
    by unfold State.sendDev; split <;> rfl
@[simp] theorem sendDev_free (s : State) (p : DevPkt) : (s.sendDev p).free = s.free :=
    by unfold State.sendDev; split <;> rfl

@[simp] theorem notifyKit_pending (s : State) (k : Kit) (c a : Nat) : (s.notifyKit k c a).pending = s.pending :=
    by unfold State.notifyKit; split <;> simp
@[simp] theorem notifyKit_mode (s : State) (k : Kit) (c a : Nat) : (s.notifyKit k c a).mode = s.mode :=
    by unfold State.notifyKit; split <;> simp
@[simp] theorem notifyKit_prev (s : State) (k : Kit) (c a : Nat) : (s.notifyKit k c a).prev = s.prev :=
    by unfold State.notifyKit; split <;> simp
@[simp] theorem notifyKit_completing (s : State) (k : Kit) (c a : Nat) : (s.notifyKit k c a).completing = s.completing :=
    by unfold State.notifyKit; split <;> simp
@[simp] theorem notifyKit_triggers (s : State) (k : Kit) (c a : Nat) : (s.notifyKit k c a).triggers = s.triggers :=
    by unfold State.notifyKit; split <;> simp
@[simp] theorem notifyKit_history (s : State) (k : Kit) (c a : Nat) : (s.notifyKit k c a).history = s.history :=
    by unfold State.notifyKit; split <;> simp
@[simp] theorem notifyKit_headers (s : State) (k : Kit) (c a : Nat) : (s.notifyKit k c a).headers = s.headers :=
    by unfold State.notifyKit; split <;> simp
@[simp] theorem notifyKit_pins (s : State) (k : Kit) (c a : Nat) : (s.notifyKit k c a).pins = s.pins :=
    by unfold State.notifyKit; split <;> simp
@[simp] theorem notifyKit_gen (s : State) (k : Kit) (c a : Nat) : (s.notifyKit k c a).gen = s.gen :=
    by unfold State.notifyKit; split <;> simp
@[simp] theorem notifyKit_bar (s : State) (k : Kit) (c a : Nat) : (s.notifyKit k c a).bar = s.bar :=
    by unfold State.notifyKit; split <;> simp
@[simp] theorem notifyKit_stk (s : State) (k : Kit) (c a : Nat) : (s.notifyKit k c a).stk = s.stk :=
    by unfold State.notifyKit; split <;> simp
@[simp] theorem notifyKit_tier (s : State) (k : Kit) (c a : Nat) : (s.notifyKit k c a).tier = s.tier :=
    by unfold State.notifyKit; split <;> simp
@[simp] theorem notifyKit_deep (s : State) (k : Kit) (c a : Nat) : (s.notifyKit k c a).deep = s.deep :=
    by unfold State.notifyKit; split <;> simp
@[simp] theorem notifyKit_ecc (s : State) (k : Kit) (c a : Nat) : (s.notifyKit k c a).ecc = s.ecc :=
    by unfold State.notifyKit; split <;> simp
@[simp] theorem notifyKit_rep (s : State) (k : Kit) (c a : Nat) : (s.notifyKit k c a).rep = s.rep :=
    by unfold State.notifyKit; split <;> simp
@[simp] theorem notifyKit_bel (s : State) (k : Kit) (c a : Nat) : (s.notifyKit k c a).bel = s.bel :=
    by unfold State.notifyKit; split <;> simp
@[simp] theorem notifyKit_toll (s : State) (k : Kit) (c a : Nat) : (s.notifyKit k c a).toll = s.toll :=
    by unfold State.notifyKit; split <;> simp
@[simp] theorem notifyKit_pwr (s : State) (k : Kit) (c a : Nat) : (s.notifyKit k c a).pwr = s.pwr :=
    by unfold State.notifyKit; split <;> simp
@[simp] theorem notifyKit_tal (s : State) (k : Kit) (c a : Nat) : (s.notifyKit k c a).tal = s.tal :=
    by unfold State.notifyKit; split <;> simp
@[simp] theorem notifyKit_knl (s : State) (k : Kit) (c a : Nat) : (s.notifyKit k c a).knl = s.knl :=
    by unfold State.notifyKit; split <;> simp
@[simp] theorem notifyKit_i3c (s : State) (k : Kit) (c a : Nat) : (s.notifyKit k c a).i3c = s.i3c :=
    by unfold State.notifyKit; split <;> simp
@[simp] theorem notifyKit_tap (s : State) (k : Kit) (c a : Nat) : (s.notifyKit k c a).tap = s.tap :=
    by unfold State.notifyKit; split <;> simp
@[simp] theorem notifyKit_evs (s : State) (k : Kit) (c a : Nat) : (s.notifyKit k c a).evs = s.evs :=
    by unfold State.notifyKit; split <;> simp
@[simp] theorem notifyKit_ringA (s : State) (k : Kit) (c a : Nat) : (s.notifyKit k c a).ringA = s.ringA :=
    by unfold State.notifyKit; split <;> simp
@[simp] theorem notifyKit_ringB (s : State) (k : Kit) (c a : Nat) : (s.notifyKit k c a).ringB = s.ringB :=
    by unfold State.notifyKit; split <;> simp
@[simp] theorem notifyKit_kits (s : State) (k : Kit) (c a : Nat) : (s.notifyKit k c a).kits = s.kits :=
    by unfold State.notifyKit; split <;> simp
@[simp] theorem notifyKit_engs (s : State) (k : Kit) (c a : Nat) : (s.notifyKit k c a).engs = s.engs :=
    by unfold State.notifyKit; split <;> simp
@[simp] theorem notifyKit_mram (s : State) (k : Kit) (c a : Nat) : (s.notifyKit k c a).mram = s.mram :=
    by unfold State.notifyKit; split <;> simp
@[simp] theorem notifyKit_inflight (s : State) (k : Kit) (c a : Nat) : (s.notifyKit k c a).inflight = s.inflight :=
    by unfold State.notifyKit; split <;> simp
@[simp] theorem notifyKit_nextRid (s : State) (k : Kit) (c a : Nat) : (s.notifyKit k c a).nextRid = s.nextRid :=
    by unfold State.notifyKit; split <;> simp
@[simp] theorem notifyKit_replies (s : State) (k : Kit) (c a : Nat) : (s.notifyKit k c a).replies = s.replies :=
    by unfold State.notifyKit; split <;> simp
@[simp] theorem notifyKit_devSeq (s : State) (k : Kit) (c a : Nat) : (s.notifyKit k c a).devSeq = s.devSeq :=
    by unfold State.notifyKit; split <;> simp
@[simp] theorem notifyKit_sent (s : State) (k : Kit) (c a : Nat) : (s.notifyKit k c a).sent = s.sent :=
    by unfold State.notifyKit; split <;> simp
@[simp] theorem notifyKit_infHigh (s : State) (k : Kit) (c a : Nat) : (s.notifyKit k c a).infHigh = s.infHigh :=
    by unfold State.notifyKit; split <;> simp
@[simp] theorem notifyKit_orphaned (s : State) (k : Kit) (c a : Nat) : (s.notifyKit k c a).orphaned = s.orphaned :=
    by unfold State.notifyKit; split <;> simp
@[simp] theorem notifyKit_frameErr (s : State) (k : Kit) (c a : Nat) : (s.notifyKit k c a).frameErr = s.frameErr :=
    by unfold State.notifyKit; split <;> simp
@[simp] theorem notifyKit_qHigh (s : State) (k : Kit) (c a : Nat) : (s.notifyKit k c a).qHigh = s.qHigh :=
    by unfold State.notifyKit; split <;> simp
@[simp] theorem notifyKit_bcast (s : State) (k : Kit) (c a : Nat) : (s.notifyKit k c a).bcast = s.bcast :=
    by unfold State.notifyKit; split <;> simp
@[simp] theorem notifyKit_wedgedPorts (s : State) (k : Kit) (c a : Nat) : (s.notifyKit k c a).wedgedPorts = s.wedgedPorts :=
    by unfold State.notifyKit; split <;> simp
@[simp] theorem notifyKit_barriers (s : State) (k : Kit) (c a : Nat) : (s.notifyKit k c a).barriers = s.barriers :=
    by unfold State.notifyKit; split <;> simp
@[simp] theorem notifyKit_reads (s : State) (k : Kit) (c a : Nat) : (s.notifyKit k c a).reads = s.reads :=
    by unfold State.notifyKit; split <;> simp
@[simp] theorem notifyKit_jobs (s : State) (k : Kit) (c a : Nat) : (s.notifyKit k c a).jobs = s.jobs :=
    by unfold State.notifyKit; split <;> simp
@[simp] theorem notifyKit_fences (s : State) (k : Kit) (c a : Nat) : (s.notifyKit k c a).fences = s.fences :=
    by unfold State.notifyKit; split <;> simp
@[simp] theorem notifyKit_waits (s : State) (k : Kit) (c a : Nat) : (s.notifyKit k c a).waits = s.waits :=
    by unfold State.notifyKit; split <;> simp
@[simp] theorem notifyKit_drains (s : State) (k : Kit) (c a : Nat) : (s.notifyKit k c a).drains = s.drains :=
    by unfold State.notifyKit; split <;> simp
@[simp] theorem notifyKit_hold (s : State) (k : Kit) (c a : Nat) : (s.notifyKit k c a).hold = s.hold :=
    by unfold State.notifyKit; split <;> simp
@[simp] theorem notifyKit_justOut (s : State) (k : Kit) (c a : Nat) : (s.notifyKit k c a).justOut = s.justOut :=
    by unfold State.notifyKit; split <;> simp
@[simp] theorem notifyKit_priors (s : State) (k : Kit) (c a : Nat) : (s.notifyKit k c a).priors = s.priors :=
    by unfold State.notifyKit; split <;> simp
@[simp] theorem notifyKit_nextEnt (s : State) (k : Kit) (c a : Nat) : (s.notifyKit k c a).nextEnt = s.nextEnt :=
    by unfold State.notifyKit; split <;> simp
@[simp] theorem notifyKit_merge (s : State) (k : Kit) (c a : Nat) : (s.notifyKit k c a).merge = s.merge :=
    by unfold State.notifyKit; split <;> simp
@[simp] theorem notifyKit_provConfirmed (s : State) (k : Kit) (c a : Nat) : (s.notifyKit k c a).provConfirmed = s.provConfirmed :=
    by unfold State.notifyKit; split <;> simp
@[simp] theorem notifyKit_provRetry (s : State) (k : Kit) (c a : Nat) : (s.notifyKit k c a).provRetry = s.provRetry :=
    by unfold State.notifyKit; split <;> simp
@[simp] theorem notifyKit_provWeak (s : State) (k : Kit) (c a : Nat) : (s.notifyKit k c a).provWeak = s.provWeak :=
    by unfold State.notifyKit; split <;> simp
@[simp] theorem notifyKit_provRecanted (s : State) (k : Kit) (c a : Nat) : (s.notifyKit k c a).provRecanted = s.provRecanted :=
    by unfold State.notifyKit; split <;> simp
@[simp] theorem notifyKit_mergeClose (s : State) (k : Kit) (c a : Nat) : (s.notifyKit k c a).mergeClose = s.mergeClose :=
    by unfold State.notifyKit; split <;> simp
@[simp] theorem notifyKit_redoSent (s : State) (k : Kit) (c a : Nat) : (s.notifyKit k c a).redoSent = s.redoSent :=
    by unfold State.notifyKit; split <;> simp
@[simp] theorem notifyKit_lastComp (s : State) (k : Kit) (c a : Nat) : (s.notifyKit k c a).lastComp = s.lastComp :=
    by unfold State.notifyKit; split <;> simp
@[simp] theorem notifyKit_compRecants (s : State) (k : Kit) (c a : Nat) : (s.notifyKit k c a).compRecants = s.compRecants :=
    by unfold State.notifyKit; split <;> simp
@[simp] theorem notifyKit_compOver (s : State) (k : Kit) (c a : Nat) : (s.notifyKit k c a).compOver = s.compOver :=
    by unfold State.notifyKit; split <;> simp
@[simp] theorem notifyKit_confMax (s : State) (k : Kit) (c a : Nat) : (s.notifyKit k c a).confMax = s.confMax :=
    by unfold State.notifyKit; split <;> simp
@[simp] theorem notifyKit_pages (s : State) (k : Kit) (c a : Nat) : (s.notifyKit k c a).pages = s.pages :=
    by unfold State.notifyKit; split <;> simp
@[simp] theorem notifyKit_moves (s : State) (k : Kit) (c a : Nat) : (s.notifyKit k c a).moves = s.moves :=
    by unfold State.notifyKit; split <;> simp
@[simp] theorem notifyKit_near (s : State) (k : Kit) (c a : Nat) : (s.notifyKit k c a).near = s.near :=
    by unfold State.notifyKit; split <;> simp
@[simp] theorem notifyKit_copies (s : State) (k : Kit) (c a : Nat) : (s.notifyKit k c a).copies = s.copies :=
    by unfold State.notifyKit; split <;> simp
@[simp] theorem notifyKit_stages (s : State) (k : Kit) (c a : Nat) : (s.notifyKit k c a).stages = s.stages :=
    by unfold State.notifyKit; split <;> simp
@[simp] theorem notifyKit_muffles (s : State) (k : Kit) (c a : Nat) : (s.notifyKit k c a).muffles = s.muffles :=
    by unfold State.notifyKit; split <;> simp
@[simp] theorem notifyKit_stageJobs (s : State) (k : Kit) (c a : Nat) : (s.notifyKit k c a).stageJobs = s.stageJobs :=
    by unfold State.notifyKit; split <;> simp
@[simp] theorem notifyKit_mufJobs (s : State) (k : Kit) (c a : Nat) : (s.notifyKit k c a).mufJobs = s.mufJobs :=
    by unfold State.notifyKit; split <;> simp
@[simp] theorem notifyKit_chordq (s : State) (k : Kit) (c a : Nat) : (s.notifyKit k c a).chordq = s.chordq :=
    by unfold State.notifyKit; split <;> simp
@[simp] theorem notifyKit_closing (s : State) (k : Kit) (c a : Nat) : (s.notifyKit k c a).closing = s.closing :=
    by unfold State.notifyKit; split <;> simp
@[simp] theorem notifyKit_restDue (s : State) (k : Kit) (c a : Nat) : (s.notifyKit k c a).restDue = s.restDue :=
    by unfold State.notifyKit; split <;> simp
@[simp] theorem notifyKit_gongDue (s : State) (k : Kit) (c a : Nat) : (s.notifyKit k c a).gongDue = s.gongDue :=
    by unfold State.notifyKit; split <;> simp
@[simp] theorem notifyKit_soft (s : State) (k : Kit) (c a : Nat) : (s.notifyKit k c a).soft = s.soft :=
    by unfold State.notifyKit; split <;> simp
@[simp] theorem notifyKit_free (s : State) (k : Kit) (c a : Nat) : (s.notifyKit k c a).free = s.free :=
    by unfold State.notifyKit; split <;> simp

@[simp] theorem tempoMiss_pending (s : State) (k : Option Kit) (a : Answer) : (s.tempoMiss k a).pending = s.pending :=
    by unfold State.tempoMiss; (repeat' split) <;> simp
@[simp] theorem tempoMiss_mode (s : State) (k : Option Kit) (a : Answer) : (s.tempoMiss k a).mode = s.mode :=
    by unfold State.tempoMiss; (repeat' split) <;> simp
@[simp] theorem tempoMiss_prev (s : State) (k : Option Kit) (a : Answer) : (s.tempoMiss k a).prev = s.prev :=
    by unfold State.tempoMiss; (repeat' split) <;> simp
@[simp] theorem tempoMiss_completing (s : State) (k : Option Kit) (a : Answer) : (s.tempoMiss k a).completing = s.completing :=
    by unfold State.tempoMiss; (repeat' split) <;> simp
@[simp] theorem tempoMiss_triggers (s : State) (k : Option Kit) (a : Answer) : (s.tempoMiss k a).triggers = s.triggers :=
    by unfold State.tempoMiss; (repeat' split) <;> simp
@[simp] theorem tempoMiss_history (s : State) (k : Option Kit) (a : Answer) : (s.tempoMiss k a).history = s.history :=
    by unfold State.tempoMiss; (repeat' split) <;> simp
@[simp] theorem tempoMiss_headers (s : State) (k : Option Kit) (a : Answer) : (s.tempoMiss k a).headers = s.headers :=
    by unfold State.tempoMiss; (repeat' split) <;> simp
@[simp] theorem tempoMiss_pins (s : State) (k : Option Kit) (a : Answer) : (s.tempoMiss k a).pins = s.pins :=
    by unfold State.tempoMiss; (repeat' split) <;> simp
@[simp] theorem tempoMiss_gen (s : State) (k : Option Kit) (a : Answer) : (s.tempoMiss k a).gen = s.gen :=
    by unfold State.tempoMiss; (repeat' split) <;> simp
@[simp] theorem tempoMiss_bar (s : State) (k : Option Kit) (a : Answer) : (s.tempoMiss k a).bar = s.bar :=
    by unfold State.tempoMiss; (repeat' split) <;> simp
@[simp] theorem tempoMiss_stk (s : State) (k : Option Kit) (a : Answer) : (s.tempoMiss k a).stk = s.stk :=
    by unfold State.tempoMiss; (repeat' split) <;> simp
@[simp] theorem tempoMiss_tier (s : State) (k : Option Kit) (a : Answer) : (s.tempoMiss k a).tier = s.tier :=
    by unfold State.tempoMiss; (repeat' split) <;> simp
@[simp] theorem tempoMiss_deep (s : State) (k : Option Kit) (a : Answer) : (s.tempoMiss k a).deep = s.deep :=
    by unfold State.tempoMiss; (repeat' split) <;> simp
@[simp] theorem tempoMiss_ecc (s : State) (k : Option Kit) (a : Answer) : (s.tempoMiss k a).ecc = s.ecc :=
    by unfold State.tempoMiss; (repeat' split) <;> simp
@[simp] theorem tempoMiss_rep (s : State) (k : Option Kit) (a : Answer) : (s.tempoMiss k a).rep = s.rep :=
    by unfold State.tempoMiss; (repeat' split) <;> simp
@[simp] theorem tempoMiss_bel (s : State) (k : Option Kit) (a : Answer) : (s.tempoMiss k a).bel = s.bel :=
    by unfold State.tempoMiss; (repeat' split) <;> simp
@[simp] theorem tempoMiss_toll (s : State) (k : Option Kit) (a : Answer) : (s.tempoMiss k a).toll = s.toll :=
    by unfold State.tempoMiss; (repeat' split) <;> simp
@[simp] theorem tempoMiss_pwr (s : State) (k : Option Kit) (a : Answer) : (s.tempoMiss k a).pwr = s.pwr :=
    by unfold State.tempoMiss; (repeat' split) <;> simp
@[simp] theorem tempoMiss_tal (s : State) (k : Option Kit) (a : Answer) : (s.tempoMiss k a).tal = s.tal :=
    by unfold State.tempoMiss; (repeat' split) <;> simp
@[simp] theorem tempoMiss_knl (s : State) (k : Option Kit) (a : Answer) : (s.tempoMiss k a).knl = s.knl :=
    by unfold State.tempoMiss; (repeat' split) <;> simp
@[simp] theorem tempoMiss_i3c (s : State) (k : Option Kit) (a : Answer) : (s.tempoMiss k a).i3c = s.i3c :=
    by unfold State.tempoMiss; (repeat' split) <;> simp
@[simp] theorem tempoMiss_tap (s : State) (k : Option Kit) (a : Answer) : (s.tempoMiss k a).tap = s.tap :=
    by unfold State.tempoMiss; (repeat' split) <;> simp
@[simp] theorem tempoMiss_ringA (s : State) (k : Option Kit) (a : Answer) : (s.tempoMiss k a).ringA = s.ringA :=
    by unfold State.tempoMiss; (repeat' split) <;> simp
@[simp] theorem tempoMiss_ringB (s : State) (k : Option Kit) (a : Answer) : (s.tempoMiss k a).ringB = s.ringB :=
    by unfold State.tempoMiss; (repeat' split) <;> simp
@[simp] theorem tempoMiss_kits (s : State) (k : Option Kit) (a : Answer) : (s.tempoMiss k a).kits = s.kits :=
    by unfold State.tempoMiss; (repeat' split) <;> simp
@[simp] theorem tempoMiss_engs (s : State) (k : Option Kit) (a : Answer) : (s.tempoMiss k a).engs = s.engs :=
    by unfold State.tempoMiss; (repeat' split) <;> simp
@[simp] theorem tempoMiss_mram (s : State) (k : Option Kit) (a : Answer) : (s.tempoMiss k a).mram = s.mram :=
    by unfold State.tempoMiss; (repeat' split) <;> simp
@[simp] theorem tempoMiss_inflight (s : State) (k : Option Kit) (a : Answer) : (s.tempoMiss k a).inflight = s.inflight :=
    by unfold State.tempoMiss; (repeat' split) <;> simp
@[simp] theorem tempoMiss_nextRid (s : State) (k : Option Kit) (a : Answer) : (s.tempoMiss k a).nextRid = s.nextRid :=
    by unfold State.tempoMiss; (repeat' split) <;> simp
@[simp] theorem tempoMiss_replies (s : State) (k : Option Kit) (a : Answer) : (s.tempoMiss k a).replies = s.replies :=
    by unfold State.tempoMiss; (repeat' split) <;> simp
@[simp] theorem tempoMiss_devSeq (s : State) (k : Option Kit) (a : Answer) : (s.tempoMiss k a).devSeq = s.devSeq :=
    by unfold State.tempoMiss; (repeat' split) <;> simp
@[simp] theorem tempoMiss_sent (s : State) (k : Option Kit) (a : Answer) : (s.tempoMiss k a).sent = s.sent :=
    by unfold State.tempoMiss; (repeat' split) <;> simp
@[simp] theorem tempoMiss_infHigh (s : State) (k : Option Kit) (a : Answer) : (s.tempoMiss k a).infHigh = s.infHigh :=
    by unfold State.tempoMiss; (repeat' split) <;> simp
@[simp] theorem tempoMiss_orphaned (s : State) (k : Option Kit) (a : Answer) : (s.tempoMiss k a).orphaned = s.orphaned :=
    by unfold State.tempoMiss; (repeat' split) <;> simp
@[simp] theorem tempoMiss_frameErr (s : State) (k : Option Kit) (a : Answer) : (s.tempoMiss k a).frameErr = s.frameErr :=
    by unfold State.tempoMiss; (repeat' split) <;> simp
@[simp] theorem tempoMiss_qHigh (s : State) (k : Option Kit) (a : Answer) : (s.tempoMiss k a).qHigh = s.qHigh :=
    by unfold State.tempoMiss; (repeat' split) <;> simp
@[simp] theorem tempoMiss_bcast (s : State) (k : Option Kit) (a : Answer) : (s.tempoMiss k a).bcast = s.bcast :=
    by unfold State.tempoMiss; (repeat' split) <;> simp
@[simp] theorem tempoMiss_wedgedPorts (s : State) (k : Option Kit) (a : Answer) : (s.tempoMiss k a).wedgedPorts = s.wedgedPorts :=
    by unfold State.tempoMiss; (repeat' split) <;> simp
@[simp] theorem tempoMiss_barriers (s : State) (k : Option Kit) (a : Answer) : (s.tempoMiss k a).barriers = s.barriers :=
    by unfold State.tempoMiss; (repeat' split) <;> simp
@[simp] theorem tempoMiss_reads (s : State) (k : Option Kit) (a : Answer) : (s.tempoMiss k a).reads = s.reads :=
    by unfold State.tempoMiss; (repeat' split) <;> simp
@[simp] theorem tempoMiss_jobs (s : State) (k : Option Kit) (a : Answer) : (s.tempoMiss k a).jobs = s.jobs :=
    by unfold State.tempoMiss; (repeat' split) <;> simp
@[simp] theorem tempoMiss_fences (s : State) (k : Option Kit) (a : Answer) : (s.tempoMiss k a).fences = s.fences :=
    by unfold State.tempoMiss; (repeat' split) <;> simp
@[simp] theorem tempoMiss_waits (s : State) (k : Option Kit) (a : Answer) : (s.tempoMiss k a).waits = s.waits :=
    by unfold State.tempoMiss; (repeat' split) <;> simp
@[simp] theorem tempoMiss_drains (s : State) (k : Option Kit) (a : Answer) : (s.tempoMiss k a).drains = s.drains :=
    by unfold State.tempoMiss; (repeat' split) <;> simp
@[simp] theorem tempoMiss_hold (s : State) (k : Option Kit) (a : Answer) : (s.tempoMiss k a).hold = s.hold :=
    by unfold State.tempoMiss; (repeat' split) <;> simp
@[simp] theorem tempoMiss_justOut (s : State) (k : Option Kit) (a : Answer) : (s.tempoMiss k a).justOut = s.justOut :=
    by unfold State.tempoMiss; (repeat' split) <;> simp
@[simp] theorem tempoMiss_priors (s : State) (k : Option Kit) (a : Answer) : (s.tempoMiss k a).priors = s.priors :=
    by unfold State.tempoMiss; (repeat' split) <;> simp
@[simp] theorem tempoMiss_nextEnt (s : State) (k : Option Kit) (a : Answer) : (s.tempoMiss k a).nextEnt = s.nextEnt :=
    by unfold State.tempoMiss; (repeat' split) <;> simp
@[simp] theorem tempoMiss_merge (s : State) (k : Option Kit) (a : Answer) : (s.tempoMiss k a).merge = s.merge :=
    by unfold State.tempoMiss; (repeat' split) <;> simp
@[simp] theorem tempoMiss_provConfirmed (s : State) (k : Option Kit) (a : Answer) : (s.tempoMiss k a).provConfirmed = s.provConfirmed :=
    by unfold State.tempoMiss; (repeat' split) <;> simp
@[simp] theorem tempoMiss_provRetry (s : State) (k : Option Kit) (a : Answer) : (s.tempoMiss k a).provRetry = s.provRetry :=
    by unfold State.tempoMiss; (repeat' split) <;> simp
@[simp] theorem tempoMiss_provWeak (s : State) (k : Option Kit) (a : Answer) : (s.tempoMiss k a).provWeak = s.provWeak :=
    by unfold State.tempoMiss; (repeat' split) <;> simp
@[simp] theorem tempoMiss_provRecanted (s : State) (k : Option Kit) (a : Answer) : (s.tempoMiss k a).provRecanted = s.provRecanted :=
    by unfold State.tempoMiss; (repeat' split) <;> simp
@[simp] theorem tempoMiss_mergeClose (s : State) (k : Option Kit) (a : Answer) : (s.tempoMiss k a).mergeClose = s.mergeClose :=
    by unfold State.tempoMiss; (repeat' split) <;> simp
@[simp] theorem tempoMiss_redoSent (s : State) (k : Option Kit) (a : Answer) : (s.tempoMiss k a).redoSent = s.redoSent :=
    by unfold State.tempoMiss; (repeat' split) <;> simp
@[simp] theorem tempoMiss_lastComp (s : State) (k : Option Kit) (a : Answer) : (s.tempoMiss k a).lastComp = s.lastComp :=
    by unfold State.tempoMiss; (repeat' split) <;> simp
@[simp] theorem tempoMiss_compRecants (s : State) (k : Option Kit) (a : Answer) : (s.tempoMiss k a).compRecants = s.compRecants :=
    by unfold State.tempoMiss; (repeat' split) <;> simp
@[simp] theorem tempoMiss_compOver (s : State) (k : Option Kit) (a : Answer) : (s.tempoMiss k a).compOver = s.compOver :=
    by unfold State.tempoMiss; (repeat' split) <;> simp
@[simp] theorem tempoMiss_confMax (s : State) (k : Option Kit) (a : Answer) : (s.tempoMiss k a).confMax = s.confMax :=
    by unfold State.tempoMiss; (repeat' split) <;> simp
@[simp] theorem tempoMiss_pages (s : State) (k : Option Kit) (a : Answer) : (s.tempoMiss k a).pages = s.pages :=
    by unfold State.tempoMiss; (repeat' split) <;> simp
@[simp] theorem tempoMiss_moves (s : State) (k : Option Kit) (a : Answer) : (s.tempoMiss k a).moves = s.moves :=
    by unfold State.tempoMiss; (repeat' split) <;> simp
@[simp] theorem tempoMiss_near (s : State) (k : Option Kit) (a : Answer) : (s.tempoMiss k a).near = s.near :=
    by unfold State.tempoMiss; (repeat' split) <;> simp
@[simp] theorem tempoMiss_copies (s : State) (k : Option Kit) (a : Answer) : (s.tempoMiss k a).copies = s.copies :=
    by unfold State.tempoMiss; (repeat' split) <;> simp
@[simp] theorem tempoMiss_stages (s : State) (k : Option Kit) (a : Answer) : (s.tempoMiss k a).stages = s.stages :=
    by unfold State.tempoMiss; (repeat' split) <;> simp
@[simp] theorem tempoMiss_muffles (s : State) (k : Option Kit) (a : Answer) : (s.tempoMiss k a).muffles = s.muffles :=
    by unfold State.tempoMiss; (repeat' split) <;> simp
@[simp] theorem tempoMiss_stageJobs (s : State) (k : Option Kit) (a : Answer) : (s.tempoMiss k a).stageJobs = s.stageJobs :=
    by unfold State.tempoMiss; (repeat' split) <;> simp
@[simp] theorem tempoMiss_mufJobs (s : State) (k : Option Kit) (a : Answer) : (s.tempoMiss k a).mufJobs = s.mufJobs :=
    by unfold State.tempoMiss; (repeat' split) <;> simp
@[simp] theorem tempoMiss_chordq (s : State) (k : Option Kit) (a : Answer) : (s.tempoMiss k a).chordq = s.chordq :=
    by unfold State.tempoMiss; (repeat' split) <;> simp
@[simp] theorem tempoMiss_closing (s : State) (k : Option Kit) (a : Answer) : (s.tempoMiss k a).closing = s.closing :=
    by unfold State.tempoMiss; (repeat' split) <;> simp
@[simp] theorem tempoMiss_restDue (s : State) (k : Option Kit) (a : Answer) : (s.tempoMiss k a).restDue = s.restDue :=
    by unfold State.tempoMiss; (repeat' split) <;> simp
@[simp] theorem tempoMiss_gongDue (s : State) (k : Option Kit) (a : Answer) : (s.tempoMiss k a).gongDue = s.gongDue :=
    by unfold State.tempoMiss; (repeat' split) <;> simp
@[simp] theorem tempoMiss_soft (s : State) (k : Option Kit) (a : Answer) : (s.tempoMiss k a).soft = s.soft :=
    by unfold State.tempoMiss; (repeat' split) <;> simp
@[simp] theorem tempoMiss_free (s : State) (k : Option Kit) (a : Answer) : (s.tempoMiss k a).free = s.free :=
    by unfold State.tempoMiss; (repeat' split) <;> simp

@[simp] theorem queueReply_pending (s : State) (n : Nat) (rq : Req) (k : Option Kit) (a : Answer) : (s.queueReply n rq k a).pending = s.pending :=
    by
  unfold State.queueReply; cases rq.via <;> cases k <;> simp
@[simp] theorem queueReply_mode (s : State) (n : Nat) (rq : Req) (k : Option Kit) (a : Answer) : (s.queueReply n rq k a).mode = s.mode :=
    by
  unfold State.queueReply; cases rq.via <;> cases k <;> simp
@[simp] theorem queueReply_prev (s : State) (n : Nat) (rq : Req) (k : Option Kit) (a : Answer) : (s.queueReply n rq k a).prev = s.prev :=
    by
  unfold State.queueReply; cases rq.via <;> cases k <;> simp
@[simp] theorem queueReply_completing (s : State) (n : Nat) (rq : Req) (k : Option Kit) (a : Answer) : (s.queueReply n rq k a).completing = s.completing :=
    by
  unfold State.queueReply; cases rq.via <;> cases k <;> simp
@[simp] theorem queueReply_triggers (s : State) (n : Nat) (rq : Req) (k : Option Kit) (a : Answer) : (s.queueReply n rq k a).triggers = s.triggers :=
    by
  unfold State.queueReply; cases rq.via <;> cases k <;> simp
@[simp] theorem queueReply_history (s : State) (n : Nat) (rq : Req) (k : Option Kit) (a : Answer) : (s.queueReply n rq k a).history = s.history :=
    by
  unfold State.queueReply; cases rq.via <;> cases k <;> simp
@[simp] theorem queueReply_pins (s : State) (n : Nat) (rq : Req) (k : Option Kit) (a : Answer) : (s.queueReply n rq k a).pins = s.pins :=
    by
  unfold State.queueReply; cases rq.via <;> cases k <;> simp
@[simp] theorem queueReply_gen (s : State) (n : Nat) (rq : Req) (k : Option Kit) (a : Answer) : (s.queueReply n rq k a).gen = s.gen :=
    by
  unfold State.queueReply; cases rq.via <;> cases k <;> simp
@[simp] theorem queueReply_bar (s : State) (n : Nat) (rq : Req) (k : Option Kit) (a : Answer) : (s.queueReply n rq k a).bar = s.bar :=
    by
  unfold State.queueReply; cases rq.via <;> cases k <;> simp
@[simp] theorem queueReply_stk (s : State) (n : Nat) (rq : Req) (k : Option Kit) (a : Answer) : (s.queueReply n rq k a).stk = s.stk :=
    by
  unfold State.queueReply; cases rq.via <;> cases k <;> simp
@[simp] theorem queueReply_tier (s : State) (n : Nat) (rq : Req) (k : Option Kit) (a : Answer) : (s.queueReply n rq k a).tier = s.tier :=
    by
  unfold State.queueReply; cases rq.via <;> cases k <;> simp
@[simp] theorem queueReply_deep (s : State) (n : Nat) (rq : Req) (k : Option Kit) (a : Answer) : (s.queueReply n rq k a).deep = s.deep :=
    by
  unfold State.queueReply; cases rq.via <;> cases k <;> simp
@[simp] theorem queueReply_ecc (s : State) (n : Nat) (rq : Req) (k : Option Kit) (a : Answer) : (s.queueReply n rq k a).ecc = s.ecc :=
    by
  unfold State.queueReply; cases rq.via <;> cases k <;> simp
@[simp] theorem queueReply_rep (s : State) (n : Nat) (rq : Req) (k : Option Kit) (a : Answer) : (s.queueReply n rq k a).rep = s.rep :=
    by
  unfold State.queueReply; cases rq.via <;> cases k <;> simp
@[simp] theorem queueReply_bel (s : State) (n : Nat) (rq : Req) (k : Option Kit) (a : Answer) : (s.queueReply n rq k a).bel = s.bel :=
    by
  unfold State.queueReply; cases rq.via <;> cases k <;> simp
@[simp] theorem queueReply_toll (s : State) (n : Nat) (rq : Req) (k : Option Kit) (a : Answer) : (s.queueReply n rq k a).toll = s.toll :=
    by
  unfold State.queueReply; cases rq.via <;> cases k <;> simp
@[simp] theorem queueReply_pwr (s : State) (n : Nat) (rq : Req) (k : Option Kit) (a : Answer) : (s.queueReply n rq k a).pwr = s.pwr :=
    by
  unfold State.queueReply; cases rq.via <;> cases k <;> simp
@[simp] theorem queueReply_tal (s : State) (n : Nat) (rq : Req) (k : Option Kit) (a : Answer) : (s.queueReply n rq k a).tal = s.tal :=
    by
  unfold State.queueReply; cases rq.via <;> cases k <;> simp
@[simp] theorem queueReply_knl (s : State) (n : Nat) (rq : Req) (k : Option Kit) (a : Answer) : (s.queueReply n rq k a).knl = s.knl :=
    by
  unfold State.queueReply; cases rq.via <;> cases k <;> simp
@[simp] theorem queueReply_tap (s : State) (n : Nat) (rq : Req) (k : Option Kit) (a : Answer) : (s.queueReply n rq k a).tap = s.tap :=
    by
  unfold State.queueReply; cases rq.via <;> cases k <;> simp
@[simp] theorem queueReply_ringA (s : State) (n : Nat) (rq : Req) (k : Option Kit) (a : Answer) : (s.queueReply n rq k a).ringA = s.ringA :=
    by
  unfold State.queueReply; cases rq.via <;> cases k <;> simp
@[simp] theorem queueReply_ringB (s : State) (n : Nat) (rq : Req) (k : Option Kit) (a : Answer) : (s.queueReply n rq k a).ringB = s.ringB :=
    by
  unfold State.queueReply; cases rq.via <;> cases k <;> simp
@[simp] theorem queueReply_engs (s : State) (n : Nat) (rq : Req) (k : Option Kit) (a : Answer) : (s.queueReply n rq k a).engs = s.engs :=
    by
  unfold State.queueReply; cases rq.via <;> cases k <;> simp
@[simp] theorem queueReply_mram (s : State) (n : Nat) (rq : Req) (k : Option Kit) (a : Answer) : (s.queueReply n rq k a).mram = s.mram :=
    by
  unfold State.queueReply; cases rq.via <;> cases k <;> simp
@[simp] theorem queueReply_nextRid (s : State) (n : Nat) (rq : Req) (k : Option Kit) (a : Answer) : (s.queueReply n rq k a).nextRid = s.nextRid :=
    by
  unfold State.queueReply; cases rq.via <;> cases k <;> simp
@[simp] theorem queueReply_devSeq (s : State) (n : Nat) (rq : Req) (k : Option Kit) (a : Answer) : (s.queueReply n rq k a).devSeq = s.devSeq :=
    by
  unfold State.queueReply; cases rq.via <;> cases k <;> simp
@[simp] theorem queueReply_sent (s : State) (n : Nat) (rq : Req) (k : Option Kit) (a : Answer) : (s.queueReply n rq k a).sent = s.sent :=
    by
  unfold State.queueReply; cases rq.via <;> cases k <;> simp
@[simp] theorem queueReply_infHigh (s : State) (n : Nat) (rq : Req) (k : Option Kit) (a : Answer) : (s.queueReply n rq k a).infHigh = s.infHigh :=
    by
  unfold State.queueReply; cases rq.via <;> cases k <;> simp
@[simp] theorem queueReply_orphaned (s : State) (n : Nat) (rq : Req) (k : Option Kit) (a : Answer) : (s.queueReply n rq k a).orphaned = s.orphaned :=
    by
  unfold State.queueReply; cases rq.via <;> cases k <;> simp
@[simp] theorem queueReply_frameErr (s : State) (n : Nat) (rq : Req) (k : Option Kit) (a : Answer) : (s.queueReply n rq k a).frameErr = s.frameErr :=
    by
  unfold State.queueReply; cases rq.via <;> cases k <;> simp
@[simp] theorem queueReply_qHigh (s : State) (n : Nat) (rq : Req) (k : Option Kit) (a : Answer) : (s.queueReply n rq k a).qHigh = s.qHigh :=
    by
  unfold State.queueReply; cases rq.via <;> cases k <;> simp
@[simp] theorem queueReply_bcast (s : State) (n : Nat) (rq : Req) (k : Option Kit) (a : Answer) : (s.queueReply n rq k a).bcast = s.bcast :=
    by
  unfold State.queueReply; cases rq.via <;> cases k <;> simp
@[simp] theorem queueReply_wedgedPorts (s : State) (n : Nat) (rq : Req) (k : Option Kit) (a : Answer) : (s.queueReply n rq k a).wedgedPorts = s.wedgedPorts :=
    by
  unfold State.queueReply; cases rq.via <;> cases k <;> simp
@[simp] theorem queueReply_barriers (s : State) (n : Nat) (rq : Req) (k : Option Kit) (a : Answer) : (s.queueReply n rq k a).barriers = s.barriers :=
    by
  unfold State.queueReply; cases rq.via <;> cases k <;> simp
@[simp] theorem queueReply_reads (s : State) (n : Nat) (rq : Req) (k : Option Kit) (a : Answer) : (s.queueReply n rq k a).reads = s.reads :=
    by
  unfold State.queueReply; cases rq.via <;> cases k <;> simp
@[simp] theorem queueReply_jobs (s : State) (n : Nat) (rq : Req) (k : Option Kit) (a : Answer) : (s.queueReply n rq k a).jobs = s.jobs :=
    by
  unfold State.queueReply; cases rq.via <;> cases k <;> simp
@[simp] theorem queueReply_fences (s : State) (n : Nat) (rq : Req) (k : Option Kit) (a : Answer) : (s.queueReply n rq k a).fences = s.fences :=
    by
  unfold State.queueReply; cases rq.via <;> cases k <;> simp
@[simp] theorem queueReply_waits (s : State) (n : Nat) (rq : Req) (k : Option Kit) (a : Answer) : (s.queueReply n rq k a).waits = s.waits :=
    by
  unfold State.queueReply; cases rq.via <;> cases k <;> simp
@[simp] theorem queueReply_drains (s : State) (n : Nat) (rq : Req) (k : Option Kit) (a : Answer) : (s.queueReply n rq k a).drains = s.drains :=
    by
  unfold State.queueReply; cases rq.via <;> cases k <;> simp
@[simp] theorem queueReply_hold (s : State) (n : Nat) (rq : Req) (k : Option Kit) (a : Answer) : (s.queueReply n rq k a).hold = s.hold :=
    by
  unfold State.queueReply; cases rq.via <;> cases k <;> simp
@[simp] theorem queueReply_justOut (s : State) (n : Nat) (rq : Req) (k : Option Kit) (a : Answer) : (s.queueReply n rq k a).justOut = s.justOut :=
    by
  unfold State.queueReply; cases rq.via <;> cases k <;> simp
@[simp] theorem queueReply_priors (s : State) (n : Nat) (rq : Req) (k : Option Kit) (a : Answer) : (s.queueReply n rq k a).priors = s.priors :=
    by
  unfold State.queueReply; cases rq.via <;> cases k <;> simp
@[simp] theorem queueReply_nextEnt (s : State) (n : Nat) (rq : Req) (k : Option Kit) (a : Answer) : (s.queueReply n rq k a).nextEnt = s.nextEnt :=
    by
  unfold State.queueReply; cases rq.via <;> cases k <;> simp
@[simp] theorem queueReply_merge (s : State) (n : Nat) (rq : Req) (k : Option Kit) (a : Answer) : (s.queueReply n rq k a).merge = s.merge :=
    by
  unfold State.queueReply; cases rq.via <;> cases k <;> simp
@[simp] theorem queueReply_provConfirmed (s : State) (n : Nat) (rq : Req) (k : Option Kit) (a : Answer) : (s.queueReply n rq k a).provConfirmed = s.provConfirmed :=
    by
  unfold State.queueReply; cases rq.via <;> cases k <;> simp
@[simp] theorem queueReply_provRetry (s : State) (n : Nat) (rq : Req) (k : Option Kit) (a : Answer) : (s.queueReply n rq k a).provRetry = s.provRetry :=
    by
  unfold State.queueReply; cases rq.via <;> cases k <;> simp
@[simp] theorem queueReply_provWeak (s : State) (n : Nat) (rq : Req) (k : Option Kit) (a : Answer) : (s.queueReply n rq k a).provWeak = s.provWeak :=
    by
  unfold State.queueReply; cases rq.via <;> cases k <;> simp
@[simp] theorem queueReply_provRecanted (s : State) (n : Nat) (rq : Req) (k : Option Kit) (a : Answer) : (s.queueReply n rq k a).provRecanted = s.provRecanted :=
    by
  unfold State.queueReply; cases rq.via <;> cases k <;> simp
@[simp] theorem queueReply_mergeClose (s : State) (n : Nat) (rq : Req) (k : Option Kit) (a : Answer) : (s.queueReply n rq k a).mergeClose = s.mergeClose :=
    by
  unfold State.queueReply; cases rq.via <;> cases k <;> simp
@[simp] theorem queueReply_redoSent (s : State) (n : Nat) (rq : Req) (k : Option Kit) (a : Answer) : (s.queueReply n rq k a).redoSent = s.redoSent :=
    by
  unfold State.queueReply; cases rq.via <;> cases k <;> simp
@[simp] theorem queueReply_lastComp (s : State) (n : Nat) (rq : Req) (k : Option Kit) (a : Answer) : (s.queueReply n rq k a).lastComp = s.lastComp :=
    by
  unfold State.queueReply; cases rq.via <;> cases k <;> simp
@[simp] theorem queueReply_compRecants (s : State) (n : Nat) (rq : Req) (k : Option Kit) (a : Answer) : (s.queueReply n rq k a).compRecants = s.compRecants :=
    by
  unfold State.queueReply; cases rq.via <;> cases k <;> simp
@[simp] theorem queueReply_compOver (s : State) (n : Nat) (rq : Req) (k : Option Kit) (a : Answer) : (s.queueReply n rq k a).compOver = s.compOver :=
    by
  unfold State.queueReply; cases rq.via <;> cases k <;> simp
@[simp] theorem queueReply_confMax (s : State) (n : Nat) (rq : Req) (k : Option Kit) (a : Answer) : (s.queueReply n rq k a).confMax = s.confMax :=
    by
  unfold State.queueReply; cases rq.via <;> cases k <;> simp
@[simp] theorem queueReply_pages (s : State) (n : Nat) (rq : Req) (k : Option Kit) (a : Answer) : (s.queueReply n rq k a).pages = s.pages :=
    by
  unfold State.queueReply; cases rq.via <;> cases k <;> simp
@[simp] theorem queueReply_moves (s : State) (n : Nat) (rq : Req) (k : Option Kit) (a : Answer) : (s.queueReply n rq k a).moves = s.moves :=
    by
  unfold State.queueReply; cases rq.via <;> cases k <;> simp
@[simp] theorem queueReply_near (s : State) (n : Nat) (rq : Req) (k : Option Kit) (a : Answer) : (s.queueReply n rq k a).near = s.near :=
    by
  unfold State.queueReply; cases rq.via <;> cases k <;> simp
@[simp] theorem queueReply_copies (s : State) (n : Nat) (rq : Req) (k : Option Kit) (a : Answer) : (s.queueReply n rq k a).copies = s.copies :=
    by
  unfold State.queueReply; cases rq.via <;> cases k <;> simp
@[simp] theorem queueReply_stages (s : State) (n : Nat) (rq : Req) (k : Option Kit) (a : Answer) : (s.queueReply n rq k a).stages = s.stages :=
    by
  unfold State.queueReply; cases rq.via <;> cases k <;> simp
@[simp] theorem queueReply_muffles (s : State) (n : Nat) (rq : Req) (k : Option Kit) (a : Answer) : (s.queueReply n rq k a).muffles = s.muffles :=
    by
  unfold State.queueReply; cases rq.via <;> cases k <;> simp
@[simp] theorem queueReply_stageJobs (s : State) (n : Nat) (rq : Req) (k : Option Kit) (a : Answer) : (s.queueReply n rq k a).stageJobs = s.stageJobs :=
    by
  unfold State.queueReply; cases rq.via <;> cases k <;> simp
@[simp] theorem queueReply_mufJobs (s : State) (n : Nat) (rq : Req) (k : Option Kit) (a : Answer) : (s.queueReply n rq k a).mufJobs = s.mufJobs :=
    by
  unfold State.queueReply; cases rq.via <;> cases k <;> simp
@[simp] theorem queueReply_chordq (s : State) (n : Nat) (rq : Req) (k : Option Kit) (a : Answer) : (s.queueReply n rq k a).chordq = s.chordq :=
    by
  unfold State.queueReply; cases rq.via <;> cases k <;> simp
@[simp] theorem queueReply_closing (s : State) (n : Nat) (rq : Req) (k : Option Kit) (a : Answer) : (s.queueReply n rq k a).closing = s.closing :=
    by
  unfold State.queueReply; cases rq.via <;> cases k <;> simp
@[simp] theorem queueReply_restDue (s : State) (n : Nat) (rq : Req) (k : Option Kit) (a : Answer) : (s.queueReply n rq k a).restDue = s.restDue :=
    by
  unfold State.queueReply; cases rq.via <;> cases k <;> simp
@[simp] theorem queueReply_gongDue (s : State) (n : Nat) (rq : Req) (k : Option Kit) (a : Answer) : (s.queueReply n rq k a).gongDue = s.gongDue :=
    by
  unfold State.queueReply; cases rq.via <;> cases k <;> simp
@[simp] theorem queueReply_soft (s : State) (n : Nat) (rq : Req) (k : Option Kit) (a : Answer) : (s.queueReply n rq k a).soft = s.soft :=
    by
  unfold State.queueReply; cases rq.via <;> cases k <;> simp
@[simp] theorem queueReply_free (s : State) (n : Nat) (rq : Req) (k : Option Kit) (a : Answer) : (s.queueReply n rq k a).free = s.free :=
    by
  unfold State.queueReply; cases rq.via <;> cases k <;> simp

@[simp] theorem answer_pending (s : State) (n : Nat) (rq : Req) (k : Option Kit) (a : Answer) : (s.answer n rq k a).pending = s.pending :=
    by unfold State.answer; (repeat' split) <;> simp
@[simp] theorem answer_mode (s : State) (n : Nat) (rq : Req) (k : Option Kit) (a : Answer) : (s.answer n rq k a).mode = s.mode :=
    by unfold State.answer; (repeat' split) <;> simp
@[simp] theorem answer_prev (s : State) (n : Nat) (rq : Req) (k : Option Kit) (a : Answer) : (s.answer n rq k a).prev = s.prev :=
    by unfold State.answer; (repeat' split) <;> simp
@[simp] theorem answer_completing (s : State) (n : Nat) (rq : Req) (k : Option Kit) (a : Answer) : (s.answer n rq k a).completing = s.completing :=
    by unfold State.answer; (repeat' split) <;> simp
@[simp] theorem answer_triggers (s : State) (n : Nat) (rq : Req) (k : Option Kit) (a : Answer) : (s.answer n rq k a).triggers = s.triggers :=
    by unfold State.answer; (repeat' split) <;> simp
@[simp] theorem answer_history (s : State) (n : Nat) (rq : Req) (k : Option Kit) (a : Answer) : (s.answer n rq k a).history = s.history :=
    by unfold State.answer; (repeat' split) <;> simp
@[simp] theorem answer_pins (s : State) (n : Nat) (rq : Req) (k : Option Kit) (a : Answer) : (s.answer n rq k a).pins = s.pins :=
    by unfold State.answer; (repeat' split) <;> simp
@[simp] theorem answer_gen (s : State) (n : Nat) (rq : Req) (k : Option Kit) (a : Answer) : (s.answer n rq k a).gen = s.gen :=
    by unfold State.answer; (repeat' split) <;> simp
@[simp] theorem answer_bar (s : State) (n : Nat) (rq : Req) (k : Option Kit) (a : Answer) : (s.answer n rq k a).bar = s.bar :=
    by unfold State.answer; (repeat' split) <;> simp
@[simp] theorem answer_stk (s : State) (n : Nat) (rq : Req) (k : Option Kit) (a : Answer) : (s.answer n rq k a).stk = s.stk :=
    by unfold State.answer; (repeat' split) <;> simp
@[simp] theorem answer_tier (s : State) (n : Nat) (rq : Req) (k : Option Kit) (a : Answer) : (s.answer n rq k a).tier = s.tier :=
    by unfold State.answer; (repeat' split) <;> simp
@[simp] theorem answer_deep (s : State) (n : Nat) (rq : Req) (k : Option Kit) (a : Answer) : (s.answer n rq k a).deep = s.deep :=
    by unfold State.answer; (repeat' split) <;> simp
@[simp] theorem answer_ecc (s : State) (n : Nat) (rq : Req) (k : Option Kit) (a : Answer) : (s.answer n rq k a).ecc = s.ecc :=
    by unfold State.answer; (repeat' split) <;> simp
@[simp] theorem answer_rep (s : State) (n : Nat) (rq : Req) (k : Option Kit) (a : Answer) : (s.answer n rq k a).rep = s.rep :=
    by unfold State.answer; (repeat' split) <;> simp
@[simp] theorem answer_bel (s : State) (n : Nat) (rq : Req) (k : Option Kit) (a : Answer) : (s.answer n rq k a).bel = s.bel :=
    by unfold State.answer; (repeat' split) <;> simp
@[simp] theorem answer_toll (s : State) (n : Nat) (rq : Req) (k : Option Kit) (a : Answer) : (s.answer n rq k a).toll = s.toll :=
    by unfold State.answer; (repeat' split) <;> simp
@[simp] theorem answer_pwr (s : State) (n : Nat) (rq : Req) (k : Option Kit) (a : Answer) : (s.answer n rq k a).pwr = s.pwr :=
    by unfold State.answer; (repeat' split) <;> simp
@[simp] theorem answer_tal (s : State) (n : Nat) (rq : Req) (k : Option Kit) (a : Answer) : (s.answer n rq k a).tal = s.tal :=
    by unfold State.answer; (repeat' split) <;> simp
@[simp] theorem answer_knl (s : State) (n : Nat) (rq : Req) (k : Option Kit) (a : Answer) : (s.answer n rq k a).knl = s.knl :=
    by unfold State.answer; (repeat' split) <;> simp
@[simp] theorem answer_tap (s : State) (n : Nat) (rq : Req) (k : Option Kit) (a : Answer) : (s.answer n rq k a).tap = s.tap :=
    by unfold State.answer; (repeat' split) <;> simp
@[simp] theorem answer_ringA (s : State) (n : Nat) (rq : Req) (k : Option Kit) (a : Answer) : (s.answer n rq k a).ringA = s.ringA :=
    by unfold State.answer; (repeat' split) <;> simp
@[simp] theorem answer_ringB (s : State) (n : Nat) (rq : Req) (k : Option Kit) (a : Answer) : (s.answer n rq k a).ringB = s.ringB :=
    by unfold State.answer; (repeat' split) <;> simp
@[simp] theorem answer_engs (s : State) (n : Nat) (rq : Req) (k : Option Kit) (a : Answer) : (s.answer n rq k a).engs = s.engs :=
    by unfold State.answer; (repeat' split) <;> simp
@[simp] theorem answer_mram (s : State) (n : Nat) (rq : Req) (k : Option Kit) (a : Answer) : (s.answer n rq k a).mram = s.mram :=
    by unfold State.answer; (repeat' split) <;> simp
@[simp] theorem answer_nextRid (s : State) (n : Nat) (rq : Req) (k : Option Kit) (a : Answer) : (s.answer n rq k a).nextRid = s.nextRid :=
    by unfold State.answer; (repeat' split) <;> simp
@[simp] theorem answer_devSeq (s : State) (n : Nat) (rq : Req) (k : Option Kit) (a : Answer) : (s.answer n rq k a).devSeq = s.devSeq :=
    by unfold State.answer; (repeat' split) <;> simp
@[simp] theorem answer_sent (s : State) (n : Nat) (rq : Req) (k : Option Kit) (a : Answer) : (s.answer n rq k a).sent = s.sent :=
    by unfold State.answer; (repeat' split) <;> simp
@[simp] theorem answer_infHigh (s : State) (n : Nat) (rq : Req) (k : Option Kit) (a : Answer) : (s.answer n rq k a).infHigh = s.infHigh :=
    by unfold State.answer; (repeat' split) <;> simp
@[simp] theorem answer_orphaned (s : State) (n : Nat) (rq : Req) (k : Option Kit) (a : Answer) : (s.answer n rq k a).orphaned = s.orphaned :=
    by unfold State.answer; (repeat' split) <;> simp
@[simp] theorem answer_frameErr (s : State) (n : Nat) (rq : Req) (k : Option Kit) (a : Answer) : (s.answer n rq k a).frameErr = s.frameErr :=
    by unfold State.answer; (repeat' split) <;> simp
@[simp] theorem answer_qHigh (s : State) (n : Nat) (rq : Req) (k : Option Kit) (a : Answer) : (s.answer n rq k a).qHigh = s.qHigh :=
    by unfold State.answer; (repeat' split) <;> simp
@[simp] theorem answer_bcast (s : State) (n : Nat) (rq : Req) (k : Option Kit) (a : Answer) : (s.answer n rq k a).bcast = s.bcast :=
    by unfold State.answer; (repeat' split) <;> simp
@[simp] theorem answer_wedgedPorts (s : State) (n : Nat) (rq : Req) (k : Option Kit) (a : Answer) : (s.answer n rq k a).wedgedPorts = s.wedgedPorts :=
    by unfold State.answer; (repeat' split) <;> simp
@[simp] theorem answer_barriers (s : State) (n : Nat) (rq : Req) (k : Option Kit) (a : Answer) : (s.answer n rq k a).barriers = s.barriers :=
    by unfold State.answer; (repeat' split) <;> simp
@[simp] theorem answer_reads (s : State) (n : Nat) (rq : Req) (k : Option Kit) (a : Answer) : (s.answer n rq k a).reads = s.reads :=
    by unfold State.answer; (repeat' split) <;> simp
@[simp] theorem answer_jobs (s : State) (n : Nat) (rq : Req) (k : Option Kit) (a : Answer) : (s.answer n rq k a).jobs = s.jobs :=
    by unfold State.answer; (repeat' split) <;> simp
@[simp] theorem answer_fences (s : State) (n : Nat) (rq : Req) (k : Option Kit) (a : Answer) : (s.answer n rq k a).fences = s.fences :=
    by unfold State.answer; (repeat' split) <;> simp
@[simp] theorem answer_waits (s : State) (n : Nat) (rq : Req) (k : Option Kit) (a : Answer) : (s.answer n rq k a).waits = s.waits :=
    by unfold State.answer; (repeat' split) <;> simp
@[simp] theorem answer_drains (s : State) (n : Nat) (rq : Req) (k : Option Kit) (a : Answer) : (s.answer n rq k a).drains = s.drains :=
    by unfold State.answer; (repeat' split) <;> simp
@[simp] theorem answer_hold (s : State) (n : Nat) (rq : Req) (k : Option Kit) (a : Answer) : (s.answer n rq k a).hold = s.hold :=
    by unfold State.answer; (repeat' split) <;> simp
@[simp] theorem answer_justOut (s : State) (n : Nat) (rq : Req) (k : Option Kit) (a : Answer) : (s.answer n rq k a).justOut = s.justOut :=
    by unfold State.answer; (repeat' split) <;> simp
@[simp] theorem answer_priors (s : State) (n : Nat) (rq : Req) (k : Option Kit) (a : Answer) : (s.answer n rq k a).priors = s.priors :=
    by unfold State.answer; (repeat' split) <;> simp
@[simp] theorem answer_nextEnt (s : State) (n : Nat) (rq : Req) (k : Option Kit) (a : Answer) : (s.answer n rq k a).nextEnt = s.nextEnt :=
    by unfold State.answer; (repeat' split) <;> simp
@[simp] theorem answer_merge (s : State) (n : Nat) (rq : Req) (k : Option Kit) (a : Answer) : (s.answer n rq k a).merge = s.merge :=
    by unfold State.answer; (repeat' split) <;> simp
@[simp] theorem answer_provConfirmed (s : State) (n : Nat) (rq : Req) (k : Option Kit) (a : Answer) : (s.answer n rq k a).provConfirmed = s.provConfirmed :=
    by unfold State.answer; (repeat' split) <;> simp
@[simp] theorem answer_provRetry (s : State) (n : Nat) (rq : Req) (k : Option Kit) (a : Answer) : (s.answer n rq k a).provRetry = s.provRetry :=
    by unfold State.answer; (repeat' split) <;> simp
@[simp] theorem answer_provWeak (s : State) (n : Nat) (rq : Req) (k : Option Kit) (a : Answer) : (s.answer n rq k a).provWeak = s.provWeak :=
    by unfold State.answer; (repeat' split) <;> simp
@[simp] theorem answer_provRecanted (s : State) (n : Nat) (rq : Req) (k : Option Kit) (a : Answer) : (s.answer n rq k a).provRecanted = s.provRecanted :=
    by unfold State.answer; (repeat' split) <;> simp
@[simp] theorem answer_mergeClose (s : State) (n : Nat) (rq : Req) (k : Option Kit) (a : Answer) : (s.answer n rq k a).mergeClose = s.mergeClose :=
    by unfold State.answer; (repeat' split) <;> simp
@[simp] theorem answer_redoSent (s : State) (n : Nat) (rq : Req) (k : Option Kit) (a : Answer) : (s.answer n rq k a).redoSent = s.redoSent :=
    by unfold State.answer; (repeat' split) <;> simp
@[simp] theorem answer_lastComp (s : State) (n : Nat) (rq : Req) (k : Option Kit) (a : Answer) : (s.answer n rq k a).lastComp = s.lastComp :=
    by unfold State.answer; (repeat' split) <;> simp
@[simp] theorem answer_compRecants (s : State) (n : Nat) (rq : Req) (k : Option Kit) (a : Answer) : (s.answer n rq k a).compRecants = s.compRecants :=
    by unfold State.answer; (repeat' split) <;> simp
@[simp] theorem answer_compOver (s : State) (n : Nat) (rq : Req) (k : Option Kit) (a : Answer) : (s.answer n rq k a).compOver = s.compOver :=
    by unfold State.answer; (repeat' split) <;> simp
@[simp] theorem answer_confMax (s : State) (n : Nat) (rq : Req) (k : Option Kit) (a : Answer) : (s.answer n rq k a).confMax = s.confMax :=
    by unfold State.answer; (repeat' split) <;> simp
@[simp] theorem answer_pages (s : State) (n : Nat) (rq : Req) (k : Option Kit) (a : Answer) : (s.answer n rq k a).pages = s.pages :=
    by unfold State.answer; (repeat' split) <;> simp
@[simp] theorem answer_moves (s : State) (n : Nat) (rq : Req) (k : Option Kit) (a : Answer) : (s.answer n rq k a).moves = s.moves :=
    by unfold State.answer; (repeat' split) <;> simp
@[simp] theorem answer_near (s : State) (n : Nat) (rq : Req) (k : Option Kit) (a : Answer) : (s.answer n rq k a).near = s.near :=
    by unfold State.answer; (repeat' split) <;> simp
@[simp] theorem answer_copies (s : State) (n : Nat) (rq : Req) (k : Option Kit) (a : Answer) : (s.answer n rq k a).copies = s.copies :=
    by unfold State.answer; (repeat' split) <;> simp
@[simp] theorem answer_stages (s : State) (n : Nat) (rq : Req) (k : Option Kit) (a : Answer) : (s.answer n rq k a).stages = s.stages :=
    by unfold State.answer; (repeat' split) <;> simp
@[simp] theorem answer_muffles (s : State) (n : Nat) (rq : Req) (k : Option Kit) (a : Answer) : (s.answer n rq k a).muffles = s.muffles :=
    by unfold State.answer; (repeat' split) <;> simp
@[simp] theorem answer_stageJobs (s : State) (n : Nat) (rq : Req) (k : Option Kit) (a : Answer) : (s.answer n rq k a).stageJobs = s.stageJobs :=
    by unfold State.answer; (repeat' split) <;> simp
@[simp] theorem answer_mufJobs (s : State) (n : Nat) (rq : Req) (k : Option Kit) (a : Answer) : (s.answer n rq k a).mufJobs = s.mufJobs :=
    by unfold State.answer; (repeat' split) <;> simp
@[simp] theorem answer_chordq (s : State) (n : Nat) (rq : Req) (k : Option Kit) (a : Answer) : (s.answer n rq k a).chordq = s.chordq :=
    by unfold State.answer; (repeat' split) <;> simp
@[simp] theorem answer_closing (s : State) (n : Nat) (rq : Req) (k : Option Kit) (a : Answer) : (s.answer n rq k a).closing = s.closing :=
    by unfold State.answer; (repeat' split) <;> simp
@[simp] theorem answer_restDue (s : State) (n : Nat) (rq : Req) (k : Option Kit) (a : Answer) : (s.answer n rq k a).restDue = s.restDue :=
    by unfold State.answer; (repeat' split) <;> simp
@[simp] theorem answer_gongDue (s : State) (n : Nat) (rq : Req) (k : Option Kit) (a : Answer) : (s.answer n rq k a).gongDue = s.gongDue :=
    by unfold State.answer; (repeat' split) <;> simp
@[simp] theorem answer_soft (s : State) (n : Nat) (rq : Req) (k : Option Kit) (a : Answer) : (s.answer n rq k a).soft = s.soft :=
    by unfold State.answer; (repeat' split) <;> simp
@[simp] theorem answer_free (s : State) (n : Nat) (rq : Req) (k : Option Kit) (a : Answer) : (s.answer n rq k a).free = s.free :=
    by unfold State.answer; (repeat' split) <;> simp

@[simp] theorem enter_pending (s : State) (m : Mode) (t : Nat) : (s.enter m t).pending = s.pending :=
    by unfold State.enter; split <;> simp
@[simp] theorem enter_completing (s : State) (m : Mode) (t : Nat) : (s.enter m t).completing = s.completing :=
    by unfold State.enter; split <;> simp
@[simp] theorem enter_triggers (s : State) (m : Mode) (t : Nat) : (s.enter m t).triggers = s.triggers :=
    by unfold State.enter; split <;> simp
@[simp] theorem enter_headers (s : State) (m : Mode) (t : Nat) : (s.enter m t).headers = s.headers :=
    by unfold State.enter; split <;> simp
@[simp] theorem enter_pins (s : State) (m : Mode) (t : Nat) : (s.enter m t).pins = s.pins :=
    by unfold State.enter; split <;> simp
@[simp] theorem enter_gen (s : State) (m : Mode) (t : Nat) : (s.enter m t).gen = s.gen :=
    by unfold State.enter; split <;> simp
@[simp] theorem enter_bar (s : State) (m : Mode) (t : Nat) : (s.enter m t).bar = s.bar :=
    by unfold State.enter; split <;> simp
@[simp] theorem enter_stk (s : State) (m : Mode) (t : Nat) : (s.enter m t).stk = s.stk :=
    by unfold State.enter; split <;> simp
@[simp] theorem enter_tier (s : State) (m : Mode) (t : Nat) : (s.enter m t).tier = s.tier :=
    by unfold State.enter; split <;> simp
@[simp] theorem enter_deep (s : State) (m : Mode) (t : Nat) : (s.enter m t).deep = s.deep :=
    by unfold State.enter; split <;> simp
@[simp] theorem enter_ecc (s : State) (m : Mode) (t : Nat) : (s.enter m t).ecc = s.ecc :=
    by unfold State.enter; split <;> simp
@[simp] theorem enter_rep (s : State) (m : Mode) (t : Nat) : (s.enter m t).rep = s.rep :=
    by unfold State.enter; split <;> simp
@[simp] theorem enter_bel (s : State) (m : Mode) (t : Nat) : (s.enter m t).bel = s.bel :=
    by unfold State.enter; split <;> simp
@[simp] theorem enter_toll (s : State) (m : Mode) (t : Nat) : (s.enter m t).toll = s.toll :=
    by unfold State.enter; split <;> simp
@[simp] theorem enter_pwr (s : State) (m : Mode) (t : Nat) : (s.enter m t).pwr = s.pwr :=
    by unfold State.enter; split <;> simp
@[simp] theorem enter_knl (s : State) (m : Mode) (t : Nat) : (s.enter m t).knl = s.knl :=
    by unfold State.enter; split <;> simp
@[simp] theorem enter_i3c (s : State) (m : Mode) (t : Nat) : (s.enter m t).i3c = s.i3c :=
    by unfold State.enter; split <;> simp
@[simp] theorem enter_tap (s : State) (m : Mode) (t : Nat) : (s.enter m t).tap = s.tap :=
    by unfold State.enter; split <;> simp
@[simp] theorem enter_ringA (s : State) (m : Mode) (t : Nat) : (s.enter m t).ringA = s.ringA :=
    by unfold State.enter; split <;> simp
@[simp] theorem enter_ringB (s : State) (m : Mode) (t : Nat) : (s.enter m t).ringB = s.ringB :=
    by unfold State.enter; split <;> simp
@[simp] theorem enter_kits (s : State) (m : Mode) (t : Nat) : (s.enter m t).kits = s.kits :=
    by unfold State.enter; split <;> simp
@[simp] theorem enter_engs (s : State) (m : Mode) (t : Nat) : (s.enter m t).engs = s.engs :=
    by unfold State.enter; split <;> simp
@[simp] theorem enter_mram (s : State) (m : Mode) (t : Nat) : (s.enter m t).mram = s.mram :=
    by unfold State.enter; split <;> simp
@[simp] theorem enter_inflight (s : State) (m : Mode) (t : Nat) : (s.enter m t).inflight = s.inflight :=
    by unfold State.enter; split <;> simp
@[simp] theorem enter_nextRid (s : State) (m : Mode) (t : Nat) : (s.enter m t).nextRid = s.nextRid :=
    by unfold State.enter; split <;> simp
@[simp] theorem enter_replies (s : State) (m : Mode) (t : Nat) : (s.enter m t).replies = s.replies :=
    by unfold State.enter; split <;> simp
@[simp] theorem enter_devq (s : State) (m : Mode) (t : Nat) : (s.enter m t).devq = s.devq :=
    by unfold State.enter; split <;> simp
@[simp] theorem enter_devSeq (s : State) (m : Mode) (t : Nat) : (s.enter m t).devSeq = s.devSeq :=
    by unfold State.enter; split <;> simp
@[simp] theorem enter_sent (s : State) (m : Mode) (t : Nat) : (s.enter m t).sent = s.sent :=
    by unfold State.enter; split <;> simp
@[simp] theorem enter_infHigh (s : State) (m : Mode) (t : Nat) : (s.enter m t).infHigh = s.infHigh :=
    by unfold State.enter; split <;> simp
@[simp] theorem enter_orphaned (s : State) (m : Mode) (t : Nat) : (s.enter m t).orphaned = s.orphaned :=
    by unfold State.enter; split <;> simp
@[simp] theorem enter_frameErr (s : State) (m : Mode) (t : Nat) : (s.enter m t).frameErr = s.frameErr :=
    by unfold State.enter; split <;> simp
@[simp] theorem enter_qHigh (s : State) (m : Mode) (t : Nat) : (s.enter m t).qHigh = s.qHigh :=
    by unfold State.enter; split <;> simp
@[simp] theorem enter_bcast (s : State) (m : Mode) (t : Nat) : (s.enter m t).bcast = s.bcast :=
    by unfold State.enter; split <;> simp
@[simp] theorem enter_wedgedPorts (s : State) (m : Mode) (t : Nat) : (s.enter m t).wedgedPorts = s.wedgedPorts :=
    by unfold State.enter; split <;> simp
@[simp] theorem enter_barriers (s : State) (m : Mode) (t : Nat) : (s.enter m t).barriers = s.barriers :=
    by unfold State.enter; split <;> simp
@[simp] theorem enter_reads (s : State) (m : Mode) (t : Nat) : (s.enter m t).reads = s.reads :=
    by unfold State.enter; split <;> simp
@[simp] theorem enter_jobs (s : State) (m : Mode) (t : Nat) : (s.enter m t).jobs = s.jobs :=
    by unfold State.enter; split <;> simp
@[simp] theorem enter_fences (s : State) (m : Mode) (t : Nat) : (s.enter m t).fences = s.fences :=
    by unfold State.enter; split <;> simp
@[simp] theorem enter_waits (s : State) (m : Mode) (t : Nat) : (s.enter m t).waits = s.waits :=
    by unfold State.enter; split <;> simp
@[simp] theorem enter_drains (s : State) (m : Mode) (t : Nat) : (s.enter m t).drains = s.drains :=
    by unfold State.enter; split <;> simp
@[simp] theorem enter_hold (s : State) (m : Mode) (t : Nat) : (s.enter m t).hold = s.hold :=
    by unfold State.enter; split <;> simp
@[simp] theorem enter_justOut (s : State) (m : Mode) (t : Nat) : (s.enter m t).justOut = s.justOut :=
    by unfold State.enter; split <;> simp
@[simp] theorem enter_priors (s : State) (m : Mode) (t : Nat) : (s.enter m t).priors = s.priors :=
    by unfold State.enter; split <;> simp
@[simp] theorem enter_nextEnt (s : State) (m : Mode) (t : Nat) : (s.enter m t).nextEnt = s.nextEnt :=
    by unfold State.enter; split <;> simp
@[simp] theorem enter_merge (s : State) (m : Mode) (t : Nat) : (s.enter m t).merge = s.merge :=
    by unfold State.enter; split <;> simp
@[simp] theorem enter_provConfirmed (s : State) (m : Mode) (t : Nat) : (s.enter m t).provConfirmed = s.provConfirmed :=
    by unfold State.enter; split <;> simp
@[simp] theorem enter_provRetry (s : State) (m : Mode) (t : Nat) : (s.enter m t).provRetry = s.provRetry :=
    by unfold State.enter; split <;> simp
@[simp] theorem enter_provWeak (s : State) (m : Mode) (t : Nat) : (s.enter m t).provWeak = s.provWeak :=
    by unfold State.enter; split <;> simp
@[simp] theorem enter_provRecanted (s : State) (m : Mode) (t : Nat) : (s.enter m t).provRecanted = s.provRecanted :=
    by unfold State.enter; split <;> simp
@[simp] theorem enter_mergeClose (s : State) (m : Mode) (t : Nat) : (s.enter m t).mergeClose = s.mergeClose :=
    by unfold State.enter; split <;> simp
@[simp] theorem enter_redoSent (s : State) (m : Mode) (t : Nat) : (s.enter m t).redoSent = s.redoSent :=
    by unfold State.enter; split <;> simp
@[simp] theorem enter_lastComp (s : State) (m : Mode) (t : Nat) : (s.enter m t).lastComp = s.lastComp :=
    by unfold State.enter; split <;> simp
@[simp] theorem enter_compRecants (s : State) (m : Mode) (t : Nat) : (s.enter m t).compRecants = s.compRecants :=
    by unfold State.enter; split <;> simp
@[simp] theorem enter_compOver (s : State) (m : Mode) (t : Nat) : (s.enter m t).compOver = s.compOver :=
    by unfold State.enter; split <;> simp
@[simp] theorem enter_confMax (s : State) (m : Mode) (t : Nat) : (s.enter m t).confMax = s.confMax :=
    by unfold State.enter; split <;> simp
@[simp] theorem enter_pages (s : State) (m : Mode) (t : Nat) : (s.enter m t).pages = s.pages :=
    by unfold State.enter; split <;> simp
@[simp] theorem enter_moves (s : State) (m : Mode) (t : Nat) : (s.enter m t).moves = s.moves :=
    by unfold State.enter; split <;> simp
@[simp] theorem enter_near (s : State) (m : Mode) (t : Nat) : (s.enter m t).near = s.near :=
    by unfold State.enter; split <;> simp
@[simp] theorem enter_copies (s : State) (m : Mode) (t : Nat) : (s.enter m t).copies = s.copies :=
    by unfold State.enter; split <;> simp
@[simp] theorem enter_stages (s : State) (m : Mode) (t : Nat) : (s.enter m t).stages = s.stages :=
    by unfold State.enter; split <;> simp
@[simp] theorem enter_muffles (s : State) (m : Mode) (t : Nat) : (s.enter m t).muffles = s.muffles :=
    by unfold State.enter; split <;> simp
@[simp] theorem enter_stageJobs (s : State) (m : Mode) (t : Nat) : (s.enter m t).stageJobs = s.stageJobs :=
    by unfold State.enter; split <;> simp
@[simp] theorem enter_mufJobs (s : State) (m : Mode) (t : Nat) : (s.enter m t).mufJobs = s.mufJobs :=
    by unfold State.enter; split <;> simp
@[simp] theorem enter_chordq (s : State) (m : Mode) (t : Nat) : (s.enter m t).chordq = s.chordq :=
    by unfold State.enter; split <;> simp
@[simp] theorem enter_closing (s : State) (m : Mode) (t : Nat) : (s.enter m t).closing = s.closing :=
    by unfold State.enter; split <;> simp
@[simp] theorem enter_restDue (s : State) (m : Mode) (t : Nat) : (s.enter m t).restDue = s.restDue :=
    by unfold State.enter; split <;> simp
@[simp] theorem enter_gongDue (s : State) (m : Mode) (t : Nat) : (s.enter m t).gongDue = s.gongDue :=
    by unfold State.enter; split <;> simp
@[simp] theorem enter_soft (s : State) (m : Mode) (t : Nat) : (s.enter m t).soft = s.soft :=
    by unfold State.enter; split <;> simp

@[simp] theorem giveBack_pending (s : State) (n : Nat) : (s.giveBack n).pending = s.pending :=
    by unfold State.giveBack; (repeat' split) <;> simp
@[simp] theorem giveBack_mode (s : State) (n : Nat) : (s.giveBack n).mode = s.mode :=
    by unfold State.giveBack; (repeat' split) <;> simp
@[simp] theorem giveBack_prev (s : State) (n : Nat) : (s.giveBack n).prev = s.prev :=
    by unfold State.giveBack; (repeat' split) <;> simp
@[simp] theorem giveBack_completing (s : State) (n : Nat) : (s.giveBack n).completing = s.completing :=
    by unfold State.giveBack; (repeat' split) <;> simp
@[simp] theorem giveBack_triggers (s : State) (n : Nat) : (s.giveBack n).triggers = s.triggers :=
    by unfold State.giveBack; (repeat' split) <;> simp
@[simp] theorem giveBack_history (s : State) (n : Nat) : (s.giveBack n).history = s.history :=
    by unfold State.giveBack; (repeat' split) <;> simp
@[simp] theorem giveBack_headers (s : State) (n : Nat) : (s.giveBack n).headers = s.headers :=
    by unfold State.giveBack; (repeat' split) <;> simp
@[simp] theorem giveBack_pins (s : State) (n : Nat) : (s.giveBack n).pins = s.pins :=
    by unfold State.giveBack; (repeat' split) <;> simp
@[simp] theorem giveBack_gen (s : State) (n : Nat) : (s.giveBack n).gen = s.gen :=
    by unfold State.giveBack; (repeat' split) <;> simp
@[simp] theorem giveBack_bar (s : State) (n : Nat) : (s.giveBack n).bar = s.bar :=
    by unfold State.giveBack; (repeat' split) <;> simp
@[simp] theorem giveBack_stk (s : State) (n : Nat) : (s.giveBack n).stk = s.stk :=
    by unfold State.giveBack; (repeat' split) <;> simp
@[simp] theorem giveBack_tier (s : State) (n : Nat) : (s.giveBack n).tier = s.tier :=
    by unfold State.giveBack; (repeat' split) <;> simp
@[simp] theorem giveBack_deep (s : State) (n : Nat) : (s.giveBack n).deep = s.deep :=
    by unfold State.giveBack; (repeat' split) <;> simp
@[simp] theorem giveBack_ecc (s : State) (n : Nat) : (s.giveBack n).ecc = s.ecc :=
    by unfold State.giveBack; (repeat' split) <;> simp
@[simp] theorem giveBack_rep (s : State) (n : Nat) : (s.giveBack n).rep = s.rep :=
    by unfold State.giveBack; (repeat' split) <;> simp
@[simp] theorem giveBack_bel (s : State) (n : Nat) : (s.giveBack n).bel = s.bel :=
    by unfold State.giveBack; (repeat' split) <;> simp
@[simp] theorem giveBack_toll (s : State) (n : Nat) : (s.giveBack n).toll = s.toll :=
    by unfold State.giveBack; (repeat' split) <;> simp
@[simp] theorem giveBack_pwr (s : State) (n : Nat) : (s.giveBack n).pwr = s.pwr :=
    by unfold State.giveBack; (repeat' split) <;> simp
@[simp] theorem giveBack_tal (s : State) (n : Nat) : (s.giveBack n).tal = s.tal :=
    by unfold State.giveBack; (repeat' split) <;> simp
@[simp] theorem giveBack_knl (s : State) (n : Nat) : (s.giveBack n).knl = s.knl :=
    by unfold State.giveBack; (repeat' split) <;> simp
@[simp] theorem giveBack_i3c (s : State) (n : Nat) : (s.giveBack n).i3c = s.i3c :=
    by unfold State.giveBack; (repeat' split) <;> simp
@[simp] theorem giveBack_tap (s : State) (n : Nat) : (s.giveBack n).tap = s.tap :=
    by unfold State.giveBack; (repeat' split) <;> simp
@[simp] theorem giveBack_evs (s : State) (n : Nat) : (s.giveBack n).evs = s.evs :=
    by unfold State.giveBack; (repeat' split) <;> simp
@[simp] theorem giveBack_ringA (s : State) (n : Nat) : (s.giveBack n).ringA = s.ringA :=
    by unfold State.giveBack; (repeat' split) <;> simp
@[simp] theorem giveBack_ringB (s : State) (n : Nat) : (s.giveBack n).ringB = s.ringB :=
    by unfold State.giveBack; (repeat' split) <;> simp
@[simp] theorem giveBack_engs (s : State) (n : Nat) : (s.giveBack n).engs = s.engs :=
    by unfold State.giveBack; (repeat' split) <;> simp
@[simp] theorem giveBack_mram (s : State) (n : Nat) : (s.giveBack n).mram = s.mram :=
    by unfold State.giveBack; (repeat' split) <;> simp
@[simp] theorem giveBack_nextRid (s : State) (n : Nat) : (s.giveBack n).nextRid = s.nextRid :=
    by unfold State.giveBack; (repeat' split) <;> simp
@[simp] theorem giveBack_replies (s : State) (n : Nat) : (s.giveBack n).replies = s.replies :=
    by unfold State.giveBack; (repeat' split) <;> simp
@[simp] theorem giveBack_devq (s : State) (n : Nat) : (s.giveBack n).devq = s.devq :=
    by unfold State.giveBack; (repeat' split) <;> simp
@[simp] theorem giveBack_devSeq (s : State) (n : Nat) : (s.giveBack n).devSeq = s.devSeq :=
    by unfold State.giveBack; (repeat' split) <;> simp
@[simp] theorem giveBack_sent (s : State) (n : Nat) : (s.giveBack n).sent = s.sent :=
    by unfold State.giveBack; (repeat' split) <;> simp
@[simp] theorem giveBack_infHigh (s : State) (n : Nat) : (s.giveBack n).infHigh = s.infHigh :=
    by unfold State.giveBack; (repeat' split) <;> simp
@[simp] theorem giveBack_orphaned (s : State) (n : Nat) : (s.giveBack n).orphaned = s.orphaned :=
    by unfold State.giveBack; (repeat' split) <;> simp
@[simp] theorem giveBack_frameErr (s : State) (n : Nat) : (s.giveBack n).frameErr = s.frameErr :=
    by unfold State.giveBack; (repeat' split) <;> simp
@[simp] theorem giveBack_qHigh (s : State) (n : Nat) : (s.giveBack n).qHigh = s.qHigh :=
    by unfold State.giveBack; (repeat' split) <;> simp
@[simp] theorem giveBack_bcast (s : State) (n : Nat) : (s.giveBack n).bcast = s.bcast :=
    by unfold State.giveBack; (repeat' split) <;> simp
@[simp] theorem giveBack_wedgedPorts (s : State) (n : Nat) : (s.giveBack n).wedgedPorts = s.wedgedPorts :=
    by unfold State.giveBack; (repeat' split) <;> simp
@[simp] theorem giveBack_barriers (s : State) (n : Nat) : (s.giveBack n).barriers = s.barriers :=
    by unfold State.giveBack; (repeat' split) <;> simp
@[simp] theorem giveBack_reads (s : State) (n : Nat) : (s.giveBack n).reads = s.reads :=
    by unfold State.giveBack; (repeat' split) <;> simp
@[simp] theorem giveBack_jobs (s : State) (n : Nat) : (s.giveBack n).jobs = s.jobs :=
    by unfold State.giveBack; (repeat' split) <;> simp
@[simp] theorem giveBack_fences (s : State) (n : Nat) : (s.giveBack n).fences = s.fences :=
    by unfold State.giveBack; (repeat' split) <;> simp
@[simp] theorem giveBack_waits (s : State) (n : Nat) : (s.giveBack n).waits = s.waits :=
    by unfold State.giveBack; (repeat' split) <;> simp
@[simp] theorem giveBack_drains (s : State) (n : Nat) : (s.giveBack n).drains = s.drains :=
    by unfold State.giveBack; (repeat' split) <;> simp
@[simp] theorem giveBack_hold (s : State) (n : Nat) : (s.giveBack n).hold = s.hold :=
    by unfold State.giveBack; (repeat' split) <;> simp
@[simp] theorem giveBack_justOut (s : State) (n : Nat) : (s.giveBack n).justOut = s.justOut :=
    by unfold State.giveBack; (repeat' split) <;> simp
@[simp] theorem giveBack_priors (s : State) (n : Nat) : (s.giveBack n).priors = s.priors :=
    by unfold State.giveBack; (repeat' split) <;> simp
@[simp] theorem giveBack_nextEnt (s : State) (n : Nat) : (s.giveBack n).nextEnt = s.nextEnt :=
    by unfold State.giveBack; (repeat' split) <;> simp
@[simp] theorem giveBack_merge (s : State) (n : Nat) : (s.giveBack n).merge = s.merge :=
    by unfold State.giveBack; (repeat' split) <;> simp
@[simp] theorem giveBack_provConfirmed (s : State) (n : Nat) : (s.giveBack n).provConfirmed = s.provConfirmed :=
    by unfold State.giveBack; (repeat' split) <;> simp
@[simp] theorem giveBack_provRetry (s : State) (n : Nat) : (s.giveBack n).provRetry = s.provRetry :=
    by unfold State.giveBack; (repeat' split) <;> simp
@[simp] theorem giveBack_provWeak (s : State) (n : Nat) : (s.giveBack n).provWeak = s.provWeak :=
    by unfold State.giveBack; (repeat' split) <;> simp
@[simp] theorem giveBack_provRecanted (s : State) (n : Nat) : (s.giveBack n).provRecanted = s.provRecanted :=
    by unfold State.giveBack; (repeat' split) <;> simp
@[simp] theorem giveBack_mergeClose (s : State) (n : Nat) : (s.giveBack n).mergeClose = s.mergeClose :=
    by unfold State.giveBack; (repeat' split) <;> simp
@[simp] theorem giveBack_redoSent (s : State) (n : Nat) : (s.giveBack n).redoSent = s.redoSent :=
    by unfold State.giveBack; (repeat' split) <;> simp
@[simp] theorem giveBack_lastComp (s : State) (n : Nat) : (s.giveBack n).lastComp = s.lastComp :=
    by unfold State.giveBack; (repeat' split) <;> simp
@[simp] theorem giveBack_compRecants (s : State) (n : Nat) : (s.giveBack n).compRecants = s.compRecants :=
    by unfold State.giveBack; (repeat' split) <;> simp
@[simp] theorem giveBack_compOver (s : State) (n : Nat) : (s.giveBack n).compOver = s.compOver :=
    by unfold State.giveBack; (repeat' split) <;> simp
@[simp] theorem giveBack_confMax (s : State) (n : Nat) : (s.giveBack n).confMax = s.confMax :=
    by unfold State.giveBack; (repeat' split) <;> simp
@[simp] theorem giveBack_pages (s : State) (n : Nat) : (s.giveBack n).pages = s.pages :=
    by unfold State.giveBack; (repeat' split) <;> simp
@[simp] theorem giveBack_moves (s : State) (n : Nat) : (s.giveBack n).moves = s.moves :=
    by unfold State.giveBack; (repeat' split) <;> simp
@[simp] theorem giveBack_near (s : State) (n : Nat) : (s.giveBack n).near = s.near :=
    by unfold State.giveBack; (repeat' split) <;> simp
@[simp] theorem giveBack_copies (s : State) (n : Nat) : (s.giveBack n).copies = s.copies :=
    by unfold State.giveBack; (repeat' split) <;> simp
@[simp] theorem giveBack_stages (s : State) (n : Nat) : (s.giveBack n).stages = s.stages :=
    by unfold State.giveBack; (repeat' split) <;> simp
@[simp] theorem giveBack_muffles (s : State) (n : Nat) : (s.giveBack n).muffles = s.muffles :=
    by unfold State.giveBack; (repeat' split) <;> simp
@[simp] theorem giveBack_stageJobs (s : State) (n : Nat) : (s.giveBack n).stageJobs = s.stageJobs :=
    by unfold State.giveBack; (repeat' split) <;> simp
@[simp] theorem giveBack_mufJobs (s : State) (n : Nat) : (s.giveBack n).mufJobs = s.mufJobs :=
    by unfold State.giveBack; (repeat' split) <;> simp
@[simp] theorem giveBack_chordq (s : State) (n : Nat) : (s.giveBack n).chordq = s.chordq :=
    by unfold State.giveBack; (repeat' split) <;> simp
@[simp] theorem giveBack_closing (s : State) (n : Nat) : (s.giveBack n).closing = s.closing :=
    by unfold State.giveBack; (repeat' split) <;> simp
@[simp] theorem giveBack_restDue (s : State) (n : Nat) : (s.giveBack n).restDue = s.restDue :=
    by unfold State.giveBack; (repeat' split) <;> simp
@[simp] theorem giveBack_gongDue (s : State) (n : Nat) : (s.giveBack n).gongDue = s.gongDue :=
    by unfold State.giveBack; (repeat' split) <;> simp
@[simp] theorem giveBack_soft (s : State) (n : Nat) : (s.giveBack n).soft = s.soft :=
    by unfold State.giveBack; (repeat' split) <;> simp
@[simp] theorem giveBack_free (s : State) (n : Nat) : (s.giveBack n).free = s.free :=
    by unfold State.giveBack; (repeat' split) <;> simp

@[simp] theorem turnDown_pending (s : State) (n : Nat) (rq : Req) (k : Option Kit) (a : Answer) : (s.turnDown n rq k a).pending = s.pending :=
    by simp [State.turnDown]
@[simp] theorem turnDown_mode (s : State) (n : Nat) (rq : Req) (k : Option Kit) (a : Answer) : (s.turnDown n rq k a).mode = s.mode :=
    by simp [State.turnDown]
@[simp] theorem turnDown_prev (s : State) (n : Nat) (rq : Req) (k : Option Kit) (a : Answer) : (s.turnDown n rq k a).prev = s.prev :=
    by simp [State.turnDown]
@[simp] theorem turnDown_completing (s : State) (n : Nat) (rq : Req) (k : Option Kit) (a : Answer) : (s.turnDown n rq k a).completing = s.completing :=
    by simp [State.turnDown]
@[simp] theorem turnDown_triggers (s : State) (n : Nat) (rq : Req) (k : Option Kit) (a : Answer) : (s.turnDown n rq k a).triggers = s.triggers :=
    by simp [State.turnDown]
@[simp] theorem turnDown_history (s : State) (n : Nat) (rq : Req) (k : Option Kit) (a : Answer) : (s.turnDown n rq k a).history = s.history :=
    by simp [State.turnDown]
@[simp] theorem turnDown_pins (s : State) (n : Nat) (rq : Req) (k : Option Kit) (a : Answer) : (s.turnDown n rq k a).pins = s.pins :=
    by simp [State.turnDown]
@[simp] theorem turnDown_gen (s : State) (n : Nat) (rq : Req) (k : Option Kit) (a : Answer) : (s.turnDown n rq k a).gen = s.gen :=
    by simp [State.turnDown]
@[simp] theorem turnDown_bar (s : State) (n : Nat) (rq : Req) (k : Option Kit) (a : Answer) : (s.turnDown n rq k a).bar = s.bar :=
    by simp [State.turnDown]
@[simp] theorem turnDown_stk (s : State) (n : Nat) (rq : Req) (k : Option Kit) (a : Answer) : (s.turnDown n rq k a).stk = s.stk :=
    by simp [State.turnDown]
@[simp] theorem turnDown_tier (s : State) (n : Nat) (rq : Req) (k : Option Kit) (a : Answer) : (s.turnDown n rq k a).tier = s.tier :=
    by simp [State.turnDown]
@[simp] theorem turnDown_deep (s : State) (n : Nat) (rq : Req) (k : Option Kit) (a : Answer) : (s.turnDown n rq k a).deep = s.deep :=
    by simp [State.turnDown]
@[simp] theorem turnDown_ecc (s : State) (n : Nat) (rq : Req) (k : Option Kit) (a : Answer) : (s.turnDown n rq k a).ecc = s.ecc :=
    by simp [State.turnDown]
@[simp] theorem turnDown_rep (s : State) (n : Nat) (rq : Req) (k : Option Kit) (a : Answer) : (s.turnDown n rq k a).rep = s.rep :=
    by simp [State.turnDown]
@[simp] theorem turnDown_bel (s : State) (n : Nat) (rq : Req) (k : Option Kit) (a : Answer) : (s.turnDown n rq k a).bel = s.bel :=
    by simp [State.turnDown]
@[simp] theorem turnDown_toll (s : State) (n : Nat) (rq : Req) (k : Option Kit) (a : Answer) : (s.turnDown n rq k a).toll = s.toll :=
    by simp [State.turnDown]
@[simp] theorem turnDown_pwr (s : State) (n : Nat) (rq : Req) (k : Option Kit) (a : Answer) : (s.turnDown n rq k a).pwr = s.pwr :=
    by simp [State.turnDown]
@[simp] theorem turnDown_tal (s : State) (n : Nat) (rq : Req) (k : Option Kit) (a : Answer) : (s.turnDown n rq k a).tal = s.tal :=
    by simp [State.turnDown]
@[simp] theorem turnDown_knl (s : State) (n : Nat) (rq : Req) (k : Option Kit) (a : Answer) : (s.turnDown n rq k a).knl = s.knl :=
    by simp [State.turnDown]
@[simp] theorem turnDown_tap (s : State) (n : Nat) (rq : Req) (k : Option Kit) (a : Answer) : (s.turnDown n rq k a).tap = s.tap :=
    by simp [State.turnDown]
@[simp] theorem turnDown_ringA (s : State) (n : Nat) (rq : Req) (k : Option Kit) (a : Answer) : (s.turnDown n rq k a).ringA = s.ringA :=
    by simp [State.turnDown]
@[simp] theorem turnDown_ringB (s : State) (n : Nat) (rq : Req) (k : Option Kit) (a : Answer) : (s.turnDown n rq k a).ringB = s.ringB :=
    by simp [State.turnDown]
@[simp] theorem turnDown_engs (s : State) (n : Nat) (rq : Req) (k : Option Kit) (a : Answer) : (s.turnDown n rq k a).engs = s.engs :=
    by simp [State.turnDown]
@[simp] theorem turnDown_mram (s : State) (n : Nat) (rq : Req) (k : Option Kit) (a : Answer) : (s.turnDown n rq k a).mram = s.mram :=
    by simp [State.turnDown]
@[simp] theorem turnDown_nextRid (s : State) (n : Nat) (rq : Req) (k : Option Kit) (a : Answer) : (s.turnDown n rq k a).nextRid = s.nextRid :=
    by simp [State.turnDown]
@[simp] theorem turnDown_devSeq (s : State) (n : Nat) (rq : Req) (k : Option Kit) (a : Answer) : (s.turnDown n rq k a).devSeq = s.devSeq :=
    by simp [State.turnDown]
@[simp] theorem turnDown_sent (s : State) (n : Nat) (rq : Req) (k : Option Kit) (a : Answer) : (s.turnDown n rq k a).sent = s.sent :=
    by simp [State.turnDown]
@[simp] theorem turnDown_infHigh (s : State) (n : Nat) (rq : Req) (k : Option Kit) (a : Answer) : (s.turnDown n rq k a).infHigh = s.infHigh :=
    by simp [State.turnDown]
@[simp] theorem turnDown_orphaned (s : State) (n : Nat) (rq : Req) (k : Option Kit) (a : Answer) : (s.turnDown n rq k a).orphaned = s.orphaned :=
    by simp [State.turnDown]
@[simp] theorem turnDown_frameErr (s : State) (n : Nat) (rq : Req) (k : Option Kit) (a : Answer) : (s.turnDown n rq k a).frameErr = s.frameErr :=
    by simp [State.turnDown]
@[simp] theorem turnDown_qHigh (s : State) (n : Nat) (rq : Req) (k : Option Kit) (a : Answer) : (s.turnDown n rq k a).qHigh = s.qHigh :=
    by simp [State.turnDown]
@[simp] theorem turnDown_bcast (s : State) (n : Nat) (rq : Req) (k : Option Kit) (a : Answer) : (s.turnDown n rq k a).bcast = s.bcast :=
    by simp [State.turnDown]
@[simp] theorem turnDown_wedgedPorts (s : State) (n : Nat) (rq : Req) (k : Option Kit) (a : Answer) : (s.turnDown n rq k a).wedgedPorts = s.wedgedPorts :=
    by simp [State.turnDown]
@[simp] theorem turnDown_barriers (s : State) (n : Nat) (rq : Req) (k : Option Kit) (a : Answer) : (s.turnDown n rq k a).barriers = s.barriers :=
    by simp [State.turnDown]
@[simp] theorem turnDown_reads (s : State) (n : Nat) (rq : Req) (k : Option Kit) (a : Answer) : (s.turnDown n rq k a).reads = s.reads :=
    by simp [State.turnDown]
@[simp] theorem turnDown_jobs (s : State) (n : Nat) (rq : Req) (k : Option Kit) (a : Answer) : (s.turnDown n rq k a).jobs = s.jobs :=
    by simp [State.turnDown]
@[simp] theorem turnDown_fences (s : State) (n : Nat) (rq : Req) (k : Option Kit) (a : Answer) : (s.turnDown n rq k a).fences = s.fences :=
    by simp [State.turnDown]
@[simp] theorem turnDown_waits (s : State) (n : Nat) (rq : Req) (k : Option Kit) (a : Answer) : (s.turnDown n rq k a).waits = s.waits :=
    by simp [State.turnDown]
@[simp] theorem turnDown_drains (s : State) (n : Nat) (rq : Req) (k : Option Kit) (a : Answer) : (s.turnDown n rq k a).drains = s.drains :=
    by simp [State.turnDown]
@[simp] theorem turnDown_hold (s : State) (n : Nat) (rq : Req) (k : Option Kit) (a : Answer) : (s.turnDown n rq k a).hold = s.hold :=
    by simp [State.turnDown]
@[simp] theorem turnDown_justOut (s : State) (n : Nat) (rq : Req) (k : Option Kit) (a : Answer) : (s.turnDown n rq k a).justOut = s.justOut :=
    by simp [State.turnDown]
@[simp] theorem turnDown_priors (s : State) (n : Nat) (rq : Req) (k : Option Kit) (a : Answer) : (s.turnDown n rq k a).priors = s.priors :=
    by simp [State.turnDown]
@[simp] theorem turnDown_nextEnt (s : State) (n : Nat) (rq : Req) (k : Option Kit) (a : Answer) : (s.turnDown n rq k a).nextEnt = s.nextEnt :=
    by simp [State.turnDown]
@[simp] theorem turnDown_merge (s : State) (n : Nat) (rq : Req) (k : Option Kit) (a : Answer) : (s.turnDown n rq k a).merge = s.merge :=
    by simp [State.turnDown]
@[simp] theorem turnDown_provConfirmed (s : State) (n : Nat) (rq : Req) (k : Option Kit) (a : Answer) : (s.turnDown n rq k a).provConfirmed = s.provConfirmed :=
    by simp [State.turnDown]
@[simp] theorem turnDown_provRetry (s : State) (n : Nat) (rq : Req) (k : Option Kit) (a : Answer) : (s.turnDown n rq k a).provRetry = s.provRetry :=
    by simp [State.turnDown]
@[simp] theorem turnDown_provWeak (s : State) (n : Nat) (rq : Req) (k : Option Kit) (a : Answer) : (s.turnDown n rq k a).provWeak = s.provWeak :=
    by simp [State.turnDown]
@[simp] theorem turnDown_provRecanted (s : State) (n : Nat) (rq : Req) (k : Option Kit) (a : Answer) : (s.turnDown n rq k a).provRecanted = s.provRecanted :=
    by simp [State.turnDown]
@[simp] theorem turnDown_mergeClose (s : State) (n : Nat) (rq : Req) (k : Option Kit) (a : Answer) : (s.turnDown n rq k a).mergeClose = s.mergeClose :=
    by simp [State.turnDown]
@[simp] theorem turnDown_redoSent (s : State) (n : Nat) (rq : Req) (k : Option Kit) (a : Answer) : (s.turnDown n rq k a).redoSent = s.redoSent :=
    by simp [State.turnDown]
@[simp] theorem turnDown_lastComp (s : State) (n : Nat) (rq : Req) (k : Option Kit) (a : Answer) : (s.turnDown n rq k a).lastComp = s.lastComp :=
    by simp [State.turnDown]
@[simp] theorem turnDown_compRecants (s : State) (n : Nat) (rq : Req) (k : Option Kit) (a : Answer) : (s.turnDown n rq k a).compRecants = s.compRecants :=
    by simp [State.turnDown]
@[simp] theorem turnDown_compOver (s : State) (n : Nat) (rq : Req) (k : Option Kit) (a : Answer) : (s.turnDown n rq k a).compOver = s.compOver :=
    by simp [State.turnDown]
@[simp] theorem turnDown_confMax (s : State) (n : Nat) (rq : Req) (k : Option Kit) (a : Answer) : (s.turnDown n rq k a).confMax = s.confMax :=
    by simp [State.turnDown]
@[simp] theorem turnDown_pages (s : State) (n : Nat) (rq : Req) (k : Option Kit) (a : Answer) : (s.turnDown n rq k a).pages = s.pages :=
    by simp [State.turnDown]
@[simp] theorem turnDown_moves (s : State) (n : Nat) (rq : Req) (k : Option Kit) (a : Answer) : (s.turnDown n rq k a).moves = s.moves :=
    by simp [State.turnDown]
@[simp] theorem turnDown_near (s : State) (n : Nat) (rq : Req) (k : Option Kit) (a : Answer) : (s.turnDown n rq k a).near = s.near :=
    by simp [State.turnDown]
@[simp] theorem turnDown_copies (s : State) (n : Nat) (rq : Req) (k : Option Kit) (a : Answer) : (s.turnDown n rq k a).copies = s.copies :=
    by simp [State.turnDown]
@[simp] theorem turnDown_stages (s : State) (n : Nat) (rq : Req) (k : Option Kit) (a : Answer) : (s.turnDown n rq k a).stages = s.stages :=
    by simp [State.turnDown]
@[simp] theorem turnDown_muffles (s : State) (n : Nat) (rq : Req) (k : Option Kit) (a : Answer) : (s.turnDown n rq k a).muffles = s.muffles :=
    by simp [State.turnDown]
@[simp] theorem turnDown_stageJobs (s : State) (n : Nat) (rq : Req) (k : Option Kit) (a : Answer) : (s.turnDown n rq k a).stageJobs = s.stageJobs :=
    by simp [State.turnDown]
@[simp] theorem turnDown_mufJobs (s : State) (n : Nat) (rq : Req) (k : Option Kit) (a : Answer) : (s.turnDown n rq k a).mufJobs = s.mufJobs :=
    by simp [State.turnDown]
@[simp] theorem turnDown_chordq (s : State) (n : Nat) (rq : Req) (k : Option Kit) (a : Answer) : (s.turnDown n rq k a).chordq = s.chordq :=
    by simp [State.turnDown]
@[simp] theorem turnDown_closing (s : State) (n : Nat) (rq : Req) (k : Option Kit) (a : Answer) : (s.turnDown n rq k a).closing = s.closing :=
    by simp [State.turnDown]
@[simp] theorem turnDown_restDue (s : State) (n : Nat) (rq : Req) (k : Option Kit) (a : Answer) : (s.turnDown n rq k a).restDue = s.restDue :=
    by simp [State.turnDown]
@[simp] theorem turnDown_gongDue (s : State) (n : Nat) (rq : Req) (k : Option Kit) (a : Answer) : (s.turnDown n rq k a).gongDue = s.gongDue :=
    by simp [State.turnDown]
@[simp] theorem turnDown_soft (s : State) (n : Nat) (rq : Req) (k : Option Kit) (a : Answer) : (s.turnDown n rq k a).soft = s.soft :=
    by simp [State.turnDown]
@[simp] theorem turnDown_free (s : State) (n : Nat) (rq : Req) (k : Option Kit) (a : Answer) : (s.turnDown n rq k a).free = s.free :=
    by simp [State.turnDown]

@[simp] theorem refuseHeader_pending (s : State) (r : Ring) (rq : Req) (w : Nat) : (s.refuseHeader r rq w).pending = s.pending :=
    by simp [State.refuseHeader]
@[simp] theorem refuseHeader_mode (s : State) (r : Ring) (rq : Req) (w : Nat) : (s.refuseHeader r rq w).mode = s.mode :=
    by simp [State.refuseHeader]
@[simp] theorem refuseHeader_prev (s : State) (r : Ring) (rq : Req) (w : Nat) : (s.refuseHeader r rq w).prev = s.prev :=
    by simp [State.refuseHeader]
@[simp] theorem refuseHeader_completing (s : State) (r : Ring) (rq : Req) (w : Nat) : (s.refuseHeader r rq w).completing = s.completing :=
    by simp [State.refuseHeader]
@[simp] theorem refuseHeader_triggers (s : State) (r : Ring) (rq : Req) (w : Nat) : (s.refuseHeader r rq w).triggers = s.triggers :=
    by simp [State.refuseHeader]
@[simp] theorem refuseHeader_history (s : State) (r : Ring) (rq : Req) (w : Nat) : (s.refuseHeader r rq w).history = s.history :=
    by simp [State.refuseHeader]
@[simp] theorem refuseHeader_headers (s : State) (r : Ring) (rq : Req) (w : Nat) : (s.refuseHeader r rq w).headers = s.headers :=
    by simp [State.refuseHeader]
@[simp] theorem refuseHeader_pins (s : State) (r : Ring) (rq : Req) (w : Nat) : (s.refuseHeader r rq w).pins = s.pins :=
    by simp [State.refuseHeader]
@[simp] theorem refuseHeader_gen (s : State) (r : Ring) (rq : Req) (w : Nat) : (s.refuseHeader r rq w).gen = s.gen :=
    by simp [State.refuseHeader]
@[simp] theorem refuseHeader_bar (s : State) (r : Ring) (rq : Req) (w : Nat) : (s.refuseHeader r rq w).bar = s.bar :=
    by simp [State.refuseHeader]
@[simp] theorem refuseHeader_stk (s : State) (r : Ring) (rq : Req) (w : Nat) : (s.refuseHeader r rq w).stk = s.stk :=
    by simp [State.refuseHeader]
@[simp] theorem refuseHeader_tier (s : State) (r : Ring) (rq : Req) (w : Nat) : (s.refuseHeader r rq w).tier = s.tier :=
    by simp [State.refuseHeader]
@[simp] theorem refuseHeader_deep (s : State) (r : Ring) (rq : Req) (w : Nat) : (s.refuseHeader r rq w).deep = s.deep :=
    by simp [State.refuseHeader]
@[simp] theorem refuseHeader_ecc (s : State) (r : Ring) (rq : Req) (w : Nat) : (s.refuseHeader r rq w).ecc = s.ecc :=
    by simp [State.refuseHeader]
@[simp] theorem refuseHeader_rep (s : State) (r : Ring) (rq : Req) (w : Nat) : (s.refuseHeader r rq w).rep = s.rep :=
    by simp [State.refuseHeader]
@[simp] theorem refuseHeader_bel (s : State) (r : Ring) (rq : Req) (w : Nat) : (s.refuseHeader r rq w).bel = s.bel :=
    by simp [State.refuseHeader]
@[simp] theorem refuseHeader_toll (s : State) (r : Ring) (rq : Req) (w : Nat) : (s.refuseHeader r rq w).toll = s.toll :=
    by simp [State.refuseHeader]
@[simp] theorem refuseHeader_pwr (s : State) (r : Ring) (rq : Req) (w : Nat) : (s.refuseHeader r rq w).pwr = s.pwr :=
    by simp [State.refuseHeader]
@[simp] theorem refuseHeader_knl (s : State) (r : Ring) (rq : Req) (w : Nat) : (s.refuseHeader r rq w).knl = s.knl :=
    by simp [State.refuseHeader]
@[simp] theorem refuseHeader_i3c (s : State) (r : Ring) (rq : Req) (w : Nat) : (s.refuseHeader r rq w).i3c = s.i3c :=
    by simp [State.refuseHeader]
@[simp] theorem refuseHeader_tap (s : State) (r : Ring) (rq : Req) (w : Nat) : (s.refuseHeader r rq w).tap = s.tap :=
    by simp [State.refuseHeader]
@[simp] theorem refuseHeader_kits (s : State) (r : Ring) (rq : Req) (w : Nat) : (s.refuseHeader r rq w).kits = s.kits :=
    by simp [State.refuseHeader]
@[simp] theorem refuseHeader_engs (s : State) (r : Ring) (rq : Req) (w : Nat) : (s.refuseHeader r rq w).engs = s.engs :=
    by simp [State.refuseHeader]
@[simp] theorem refuseHeader_mram (s : State) (r : Ring) (rq : Req) (w : Nat) : (s.refuseHeader r rq w).mram = s.mram :=
    by simp [State.refuseHeader]
@[simp] theorem refuseHeader_inflight (s : State) (r : Ring) (rq : Req) (w : Nat) : (s.refuseHeader r rq w).inflight = s.inflight :=
    by simp [State.refuseHeader]
@[simp] theorem refuseHeader_nextRid (s : State) (r : Ring) (rq : Req) (w : Nat) : (s.refuseHeader r rq w).nextRid = s.nextRid :=
    by simp [State.refuseHeader]
@[simp] theorem refuseHeader_replies (s : State) (r : Ring) (rq : Req) (w : Nat) : (s.refuseHeader r rq w).replies = s.replies :=
    by simp [State.refuseHeader]
@[simp] theorem refuseHeader_devq (s : State) (r : Ring) (rq : Req) (w : Nat) : (s.refuseHeader r rq w).devq = s.devq :=
    by simp [State.refuseHeader]
@[simp] theorem refuseHeader_devSeq (s : State) (r : Ring) (rq : Req) (w : Nat) : (s.refuseHeader r rq w).devSeq = s.devSeq :=
    by simp [State.refuseHeader]
@[simp] theorem refuseHeader_sent (s : State) (r : Ring) (rq : Req) (w : Nat) : (s.refuseHeader r rq w).sent = s.sent :=
    by simp [State.refuseHeader]
@[simp] theorem refuseHeader_infHigh (s : State) (r : Ring) (rq : Req) (w : Nat) : (s.refuseHeader r rq w).infHigh = s.infHigh :=
    by simp [State.refuseHeader]
@[simp] theorem refuseHeader_orphaned (s : State) (r : Ring) (rq : Req) (w : Nat) : (s.refuseHeader r rq w).orphaned = s.orphaned :=
    by simp [State.refuseHeader]
@[simp] theorem refuseHeader_frameErr (s : State) (r : Ring) (rq : Req) (w : Nat) : (s.refuseHeader r rq w).frameErr = s.frameErr :=
    by simp [State.refuseHeader]
@[simp] theorem refuseHeader_qHigh (s : State) (r : Ring) (rq : Req) (w : Nat) : (s.refuseHeader r rq w).qHigh = s.qHigh :=
    by simp [State.refuseHeader]
@[simp] theorem refuseHeader_bcast (s : State) (r : Ring) (rq : Req) (w : Nat) : (s.refuseHeader r rq w).bcast = s.bcast :=
    by simp [State.refuseHeader]
@[simp] theorem refuseHeader_wedgedPorts (s : State) (r : Ring) (rq : Req) (w : Nat) : (s.refuseHeader r rq w).wedgedPorts = s.wedgedPorts :=
    by simp [State.refuseHeader]
@[simp] theorem refuseHeader_barriers (s : State) (r : Ring) (rq : Req) (w : Nat) : (s.refuseHeader r rq w).barriers = s.barriers :=
    by simp [State.refuseHeader]
@[simp] theorem refuseHeader_reads (s : State) (r : Ring) (rq : Req) (w : Nat) : (s.refuseHeader r rq w).reads = s.reads :=
    by simp [State.refuseHeader]
@[simp] theorem refuseHeader_jobs (s : State) (r : Ring) (rq : Req) (w : Nat) : (s.refuseHeader r rq w).jobs = s.jobs :=
    by simp [State.refuseHeader]
@[simp] theorem refuseHeader_fences (s : State) (r : Ring) (rq : Req) (w : Nat) : (s.refuseHeader r rq w).fences = s.fences :=
    by simp [State.refuseHeader]
@[simp] theorem refuseHeader_waits (s : State) (r : Ring) (rq : Req) (w : Nat) : (s.refuseHeader r rq w).waits = s.waits :=
    by simp [State.refuseHeader]
@[simp] theorem refuseHeader_drains (s : State) (r : Ring) (rq : Req) (w : Nat) : (s.refuseHeader r rq w).drains = s.drains :=
    by simp [State.refuseHeader]
@[simp] theorem refuseHeader_hold (s : State) (r : Ring) (rq : Req) (w : Nat) : (s.refuseHeader r rq w).hold = s.hold :=
    by simp [State.refuseHeader]
@[simp] theorem refuseHeader_justOut (s : State) (r : Ring) (rq : Req) (w : Nat) : (s.refuseHeader r rq w).justOut = s.justOut :=
    by simp [State.refuseHeader]
@[simp] theorem refuseHeader_priors (s : State) (r : Ring) (rq : Req) (w : Nat) : (s.refuseHeader r rq w).priors = s.priors :=
    by simp [State.refuseHeader]
@[simp] theorem refuseHeader_nextEnt (s : State) (r : Ring) (rq : Req) (w : Nat) : (s.refuseHeader r rq w).nextEnt = s.nextEnt :=
    by simp [State.refuseHeader]
@[simp] theorem refuseHeader_merge (s : State) (r : Ring) (rq : Req) (w : Nat) : (s.refuseHeader r rq w).merge = s.merge :=
    by simp [State.refuseHeader]
@[simp] theorem refuseHeader_provConfirmed (s : State) (r : Ring) (rq : Req) (w : Nat) : (s.refuseHeader r rq w).provConfirmed = s.provConfirmed :=
    by simp [State.refuseHeader]
@[simp] theorem refuseHeader_provRetry (s : State) (r : Ring) (rq : Req) (w : Nat) : (s.refuseHeader r rq w).provRetry = s.provRetry :=
    by simp [State.refuseHeader]
@[simp] theorem refuseHeader_provWeak (s : State) (r : Ring) (rq : Req) (w : Nat) : (s.refuseHeader r rq w).provWeak = s.provWeak :=
    by simp [State.refuseHeader]
@[simp] theorem refuseHeader_provRecanted (s : State) (r : Ring) (rq : Req) (w : Nat) : (s.refuseHeader r rq w).provRecanted = s.provRecanted :=
    by simp [State.refuseHeader]
@[simp] theorem refuseHeader_mergeClose (s : State) (r : Ring) (rq : Req) (w : Nat) : (s.refuseHeader r rq w).mergeClose = s.mergeClose :=
    by simp [State.refuseHeader]
@[simp] theorem refuseHeader_redoSent (s : State) (r : Ring) (rq : Req) (w : Nat) : (s.refuseHeader r rq w).redoSent = s.redoSent :=
    by simp [State.refuseHeader]
@[simp] theorem refuseHeader_lastComp (s : State) (r : Ring) (rq : Req) (w : Nat) : (s.refuseHeader r rq w).lastComp = s.lastComp :=
    by simp [State.refuseHeader]
@[simp] theorem refuseHeader_compRecants (s : State) (r : Ring) (rq : Req) (w : Nat) : (s.refuseHeader r rq w).compRecants = s.compRecants :=
    by simp [State.refuseHeader]
@[simp] theorem refuseHeader_compOver (s : State) (r : Ring) (rq : Req) (w : Nat) : (s.refuseHeader r rq w).compOver = s.compOver :=
    by simp [State.refuseHeader]
@[simp] theorem refuseHeader_confMax (s : State) (r : Ring) (rq : Req) (w : Nat) : (s.refuseHeader r rq w).confMax = s.confMax :=
    by simp [State.refuseHeader]
@[simp] theorem refuseHeader_pages (s : State) (r : Ring) (rq : Req) (w : Nat) : (s.refuseHeader r rq w).pages = s.pages :=
    by simp [State.refuseHeader]
@[simp] theorem refuseHeader_moves (s : State) (r : Ring) (rq : Req) (w : Nat) : (s.refuseHeader r rq w).moves = s.moves :=
    by simp [State.refuseHeader]
@[simp] theorem refuseHeader_near (s : State) (r : Ring) (rq : Req) (w : Nat) : (s.refuseHeader r rq w).near = s.near :=
    by simp [State.refuseHeader]
@[simp] theorem refuseHeader_copies (s : State) (r : Ring) (rq : Req) (w : Nat) : (s.refuseHeader r rq w).copies = s.copies :=
    by simp [State.refuseHeader]
@[simp] theorem refuseHeader_stages (s : State) (r : Ring) (rq : Req) (w : Nat) : (s.refuseHeader r rq w).stages = s.stages :=
    by simp [State.refuseHeader]
@[simp] theorem refuseHeader_muffles (s : State) (r : Ring) (rq : Req) (w : Nat) : (s.refuseHeader r rq w).muffles = s.muffles :=
    by simp [State.refuseHeader]
@[simp] theorem refuseHeader_stageJobs (s : State) (r : Ring) (rq : Req) (w : Nat) : (s.refuseHeader r rq w).stageJobs = s.stageJobs :=
    by simp [State.refuseHeader]
@[simp] theorem refuseHeader_mufJobs (s : State) (r : Ring) (rq : Req) (w : Nat) : (s.refuseHeader r rq w).mufJobs = s.mufJobs :=
    by simp [State.refuseHeader]
@[simp] theorem refuseHeader_chordq (s : State) (r : Ring) (rq : Req) (w : Nat) : (s.refuseHeader r rq w).chordq = s.chordq :=
    by simp [State.refuseHeader]
@[simp] theorem refuseHeader_closing (s : State) (r : Ring) (rq : Req) (w : Nat) : (s.refuseHeader r rq w).closing = s.closing :=
    by simp [State.refuseHeader]
@[simp] theorem refuseHeader_restDue (s : State) (r : Ring) (rq : Req) (w : Nat) : (s.refuseHeader r rq w).restDue = s.restDue :=
    by simp [State.refuseHeader]
@[simp] theorem refuseHeader_gongDue (s : State) (r : Ring) (rq : Req) (w : Nat) : (s.refuseHeader r rq w).gongDue = s.gongDue :=
    by simp [State.refuseHeader]
@[simp] theorem refuseHeader_soft (s : State) (r : Ring) (rq : Req) (w : Nat) : (s.refuseHeader r rq w).soft = s.soft :=
    by simp [State.refuseHeader]
@[simp] theorem refuseHeader_free (s : State) (r : Ring) (rq : Req) (w : Nat) : (s.refuseHeader r rq w).free = s.free :=
    by simp [State.refuseHeader]

@[simp] theorem belPut_pending (s : State) (a : Nat) (bs : List Byte) (n : Nat) : (s.belPut a bs n).pending = s.pending := rfl
@[simp] theorem belPut_mode (s : State) (a : Nat) (bs : List Byte) (n : Nat) : (s.belPut a bs n).mode = s.mode := rfl
@[simp] theorem belPut_prev (s : State) (a : Nat) (bs : List Byte) (n : Nat) : (s.belPut a bs n).prev = s.prev := rfl
@[simp] theorem belPut_completing (s : State) (a : Nat) (bs : List Byte) (n : Nat) : (s.belPut a bs n).completing = s.completing := rfl
@[simp] theorem belPut_triggers (s : State) (a : Nat) (bs : List Byte) (n : Nat) : (s.belPut a bs n).triggers = s.triggers := rfl
@[simp] theorem belPut_history (s : State) (a : Nat) (bs : List Byte) (n : Nat) : (s.belPut a bs n).history = s.history := rfl
@[simp] theorem belPut_headers (s : State) (a : Nat) (bs : List Byte) (n : Nat) : (s.belPut a bs n).headers = s.headers := rfl
@[simp] theorem belPut_pins (s : State) (a : Nat) (bs : List Byte) (n : Nat) : (s.belPut a bs n).pins = s.pins := rfl
@[simp] theorem belPut_gen (s : State) (a : Nat) (bs : List Byte) (n : Nat) : (s.belPut a bs n).gen = s.gen := rfl
@[simp] theorem belPut_bar (s : State) (a : Nat) (bs : List Byte) (n : Nat) : (s.belPut a bs n).bar = s.bar := rfl
@[simp] theorem belPut_stk (s : State) (a : Nat) (bs : List Byte) (n : Nat) : (s.belPut a bs n).stk = s.stk := rfl
@[simp] theorem belPut_tier (s : State) (a : Nat) (bs : List Byte) (n : Nat) : (s.belPut a bs n).tier = s.tier := rfl
@[simp] theorem belPut_deep (s : State) (a : Nat) (bs : List Byte) (n : Nat) : (s.belPut a bs n).deep = s.deep := rfl
@[simp] theorem belPut_ecc (s : State) (a : Nat) (bs : List Byte) (n : Nat) : (s.belPut a bs n).ecc = s.ecc := rfl
@[simp] theorem belPut_rep (s : State) (a : Nat) (bs : List Byte) (n : Nat) : (s.belPut a bs n).rep = s.rep := rfl
@[simp] theorem belPut_toll (s : State) (a : Nat) (bs : List Byte) (n : Nat) : (s.belPut a bs n).toll = s.toll := rfl
@[simp] theorem belPut_pwr (s : State) (a : Nat) (bs : List Byte) (n : Nat) : (s.belPut a bs n).pwr = s.pwr := rfl
@[simp] theorem belPut_tal (s : State) (a : Nat) (bs : List Byte) (n : Nat) : (s.belPut a bs n).tal = s.tal := rfl
@[simp] theorem belPut_knl (s : State) (a : Nat) (bs : List Byte) (n : Nat) : (s.belPut a bs n).knl = s.knl := rfl
@[simp] theorem belPut_i3c (s : State) (a : Nat) (bs : List Byte) (n : Nat) : (s.belPut a bs n).i3c = s.i3c := rfl
@[simp] theorem belPut_tap (s : State) (a : Nat) (bs : List Byte) (n : Nat) : (s.belPut a bs n).tap = s.tap := rfl
@[simp] theorem belPut_evs (s : State) (a : Nat) (bs : List Byte) (n : Nat) : (s.belPut a bs n).evs = s.evs := rfl
@[simp] theorem belPut_ringA (s : State) (a : Nat) (bs : List Byte) (n : Nat) : (s.belPut a bs n).ringA = s.ringA := rfl
@[simp] theorem belPut_ringB (s : State) (a : Nat) (bs : List Byte) (n : Nat) : (s.belPut a bs n).ringB = s.ringB := rfl
@[simp] theorem belPut_kits (s : State) (a : Nat) (bs : List Byte) (n : Nat) : (s.belPut a bs n).kits = s.kits := rfl
@[simp] theorem belPut_engs (s : State) (a : Nat) (bs : List Byte) (n : Nat) : (s.belPut a bs n).engs = s.engs := rfl
@[simp] theorem belPut_mram (s : State) (a : Nat) (bs : List Byte) (n : Nat) : (s.belPut a bs n).mram = s.mram := rfl
@[simp] theorem belPut_inflight (s : State) (a : Nat) (bs : List Byte) (n : Nat) : (s.belPut a bs n).inflight = s.inflight := rfl
@[simp] theorem belPut_nextRid (s : State) (a : Nat) (bs : List Byte) (n : Nat) : (s.belPut a bs n).nextRid = s.nextRid := rfl
@[simp] theorem belPut_replies (s : State) (a : Nat) (bs : List Byte) (n : Nat) : (s.belPut a bs n).replies = s.replies := rfl
@[simp] theorem belPut_devq (s : State) (a : Nat) (bs : List Byte) (n : Nat) : (s.belPut a bs n).devq = s.devq := rfl
@[simp] theorem belPut_devSeq (s : State) (a : Nat) (bs : List Byte) (n : Nat) : (s.belPut a bs n).devSeq = s.devSeq := rfl
@[simp] theorem belPut_sent (s : State) (a : Nat) (bs : List Byte) (n : Nat) : (s.belPut a bs n).sent = s.sent := rfl
@[simp] theorem belPut_infHigh (s : State) (a : Nat) (bs : List Byte) (n : Nat) : (s.belPut a bs n).infHigh = s.infHigh := rfl
@[simp] theorem belPut_orphaned (s : State) (a : Nat) (bs : List Byte) (n : Nat) : (s.belPut a bs n).orphaned = s.orphaned := rfl
@[simp] theorem belPut_frameErr (s : State) (a : Nat) (bs : List Byte) (n : Nat) : (s.belPut a bs n).frameErr = s.frameErr := rfl
@[simp] theorem belPut_qHigh (s : State) (a : Nat) (bs : List Byte) (n : Nat) : (s.belPut a bs n).qHigh = s.qHigh := rfl
@[simp] theorem belPut_bcast (s : State) (a : Nat) (bs : List Byte) (n : Nat) : (s.belPut a bs n).bcast = s.bcast := rfl
@[simp] theorem belPut_wedgedPorts (s : State) (a : Nat) (bs : List Byte) (n : Nat) : (s.belPut a bs n).wedgedPorts = s.wedgedPorts := rfl
@[simp] theorem belPut_barriers (s : State) (a : Nat) (bs : List Byte) (n : Nat) : (s.belPut a bs n).barriers = s.barriers := rfl
@[simp] theorem belPut_reads (s : State) (a : Nat) (bs : List Byte) (n : Nat) : (s.belPut a bs n).reads = s.reads := rfl
@[simp] theorem belPut_jobs (s : State) (a : Nat) (bs : List Byte) (n : Nat) : (s.belPut a bs n).jobs = s.jobs := rfl
@[simp] theorem belPut_fences (s : State) (a : Nat) (bs : List Byte) (n : Nat) : (s.belPut a bs n).fences = s.fences := rfl
@[simp] theorem belPut_waits (s : State) (a : Nat) (bs : List Byte) (n : Nat) : (s.belPut a bs n).waits = s.waits := rfl
@[simp] theorem belPut_drains (s : State) (a : Nat) (bs : List Byte) (n : Nat) : (s.belPut a bs n).drains = s.drains := rfl
@[simp] theorem belPut_hold (s : State) (a : Nat) (bs : List Byte) (n : Nat) : (s.belPut a bs n).hold = s.hold := rfl
@[simp] theorem belPut_justOut (s : State) (a : Nat) (bs : List Byte) (n : Nat) : (s.belPut a bs n).justOut = s.justOut := rfl
@[simp] theorem belPut_priors (s : State) (a : Nat) (bs : List Byte) (n : Nat) : (s.belPut a bs n).priors = s.priors := rfl
@[simp] theorem belPut_nextEnt (s : State) (a : Nat) (bs : List Byte) (n : Nat) : (s.belPut a bs n).nextEnt = s.nextEnt := rfl
@[simp] theorem belPut_merge (s : State) (a : Nat) (bs : List Byte) (n : Nat) : (s.belPut a bs n).merge = s.merge := rfl
@[simp] theorem belPut_provConfirmed (s : State) (a : Nat) (bs : List Byte) (n : Nat) : (s.belPut a bs n).provConfirmed = s.provConfirmed := rfl
@[simp] theorem belPut_provRetry (s : State) (a : Nat) (bs : List Byte) (n : Nat) : (s.belPut a bs n).provRetry = s.provRetry := rfl
@[simp] theorem belPut_provWeak (s : State) (a : Nat) (bs : List Byte) (n : Nat) : (s.belPut a bs n).provWeak = s.provWeak := rfl
@[simp] theorem belPut_provRecanted (s : State) (a : Nat) (bs : List Byte) (n : Nat) : (s.belPut a bs n).provRecanted = s.provRecanted := rfl
@[simp] theorem belPut_mergeClose (s : State) (a : Nat) (bs : List Byte) (n : Nat) : (s.belPut a bs n).mergeClose = s.mergeClose := rfl
@[simp] theorem belPut_redoSent (s : State) (a : Nat) (bs : List Byte) (n : Nat) : (s.belPut a bs n).redoSent = s.redoSent := rfl
@[simp] theorem belPut_lastComp (s : State) (a : Nat) (bs : List Byte) (n : Nat) : (s.belPut a bs n).lastComp = s.lastComp := rfl
@[simp] theorem belPut_compRecants (s : State) (a : Nat) (bs : List Byte) (n : Nat) : (s.belPut a bs n).compRecants = s.compRecants := rfl
@[simp] theorem belPut_compOver (s : State) (a : Nat) (bs : List Byte) (n : Nat) : (s.belPut a bs n).compOver = s.compOver := rfl
@[simp] theorem belPut_confMax (s : State) (a : Nat) (bs : List Byte) (n : Nat) : (s.belPut a bs n).confMax = s.confMax := rfl
@[simp] theorem belPut_pages (s : State) (a : Nat) (bs : List Byte) (n : Nat) : (s.belPut a bs n).pages = s.pages := rfl
@[simp] theorem belPut_moves (s : State) (a : Nat) (bs : List Byte) (n : Nat) : (s.belPut a bs n).moves = s.moves := rfl
@[simp] theorem belPut_near (s : State) (a : Nat) (bs : List Byte) (n : Nat) : (s.belPut a bs n).near = s.near := rfl
@[simp] theorem belPut_copies (s : State) (a : Nat) (bs : List Byte) (n : Nat) : (s.belPut a bs n).copies = s.copies := rfl
@[simp] theorem belPut_stages (s : State) (a : Nat) (bs : List Byte) (n : Nat) : (s.belPut a bs n).stages = s.stages := rfl
@[simp] theorem belPut_muffles (s : State) (a : Nat) (bs : List Byte) (n : Nat) : (s.belPut a bs n).muffles = s.muffles := rfl
@[simp] theorem belPut_stageJobs (s : State) (a : Nat) (bs : List Byte) (n : Nat) : (s.belPut a bs n).stageJobs = s.stageJobs := rfl
@[simp] theorem belPut_mufJobs (s : State) (a : Nat) (bs : List Byte) (n : Nat) : (s.belPut a bs n).mufJobs = s.mufJobs := rfl
@[simp] theorem belPut_chordq (s : State) (a : Nat) (bs : List Byte) (n : Nat) : (s.belPut a bs n).chordq = s.chordq := rfl
@[simp] theorem belPut_closing (s : State) (a : Nat) (bs : List Byte) (n : Nat) : (s.belPut a bs n).closing = s.closing := rfl
@[simp] theorem belPut_restDue (s : State) (a : Nat) (bs : List Byte) (n : Nat) : (s.belPut a bs n).restDue = s.restDue := rfl
@[simp] theorem belPut_gongDue (s : State) (a : Nat) (bs : List Byte) (n : Nat) : (s.belPut a bs n).gongDue = s.gongDue := rfl
@[simp] theorem belPut_soft (s : State) (a : Nat) (bs : List Byte) (n : Nat) : (s.belPut a bs n).soft = s.soft := rfl
@[simp] theorem belPut_free (s : State) (a : Nat) (bs : List Byte) (n : Nat) : (s.belPut a bs n).free = s.free := rfl

@[simp] theorem kit_setKit (s : State) (k : Kit) (x : KitSt) : (s.setKit k x).kit k = x := by
  simp [State.kit, State.setKit]
theorem kit_setKit_of_ne (s : State) (k l : Kit) (x : KitSt) (h : k ≠ l) : (s.setKit k x).kit l = s.kit l := by
  have : k.val ≠ l.val := fun e => h (Fin.ext e)
  simp [State.kit, State.setKit, this]
@[simp] theorem eng_setEng (s : State) (e : Engine) (x : EngSt) : (s.setEng e x).eng e = x := by
  simp [State.eng, State.setEng]
theorem eng_setEng_of_ne (s : State) (e d : Engine) (x : EngSt) (h : e ≠ d) : (s.setEng e x).eng d = s.eng d := by
  have : e.val ≠ d.val := fun h' => h (Fin.ext h')
  simp [State.eng, State.setEng, this]
@[simp] theorem ring_setRing (s : State) (r : Ring) (x : RingSt) : (s.setRing r x).ring r = x := by cases r <;> rfl
theorem ring_setRing_of_ne (s : State) (r q : Ring) (x : RingSt) (h : r ≠ q) : (s.setRing r x).ring q = s.ring q := by
  cases r <;> cases q <;> first | rfl | exact absurd rfl h

end Sys2Proof.Machine
end

