-- ==== Sys2Proof/Tests/Slice0.lean ====
section
/-! SUPPORT. The author's own tests: the ill-formed terms that WellFormed refuses, a few values taken from the spec's tables, and
for each statement with hypotheses one theorem (`witness_…`, one entry of its list for each clause) that shows states and
operands meeting them together. -/

namespace Sys2Proof.Tests

set_option Elab.async false

open Sys2Proof.Machine

/-- Every entry of a list holds. -/
def allOf (l : List Bool) : Bool := l.all id

/-! ### Small states -/

/-- A request of node 1 on Ring A, KTAG 0. -/
def req (opc len param : Nat) (payload : List Byte := []) : Req :=
  { opc := BitVec.ofNat 8 opc, ktag := 0, reply := false, sync := false, nowait := false, early := false, snode := 1,
    ringBit := false, prio := 0, dnode := 2, seq := 0, len := BitVec.ofNat 16 len, param := BitVec.ofNat 64 param,
    payload := payload, via := .ring .a, src := 1 }

/-- A ring that carries traffic, the device as node 2 beside node 1. -/
def ringUp : RingSt :=
  { State.reset.ringA with
    joined := true, trained := true, swOpen := true, slots := true, hasId := true, nodeId := 2, rosterIds := [1, 2] }

/-- A window over a Kit's whole range with every right. -/
def allWin : Window :=
  { base := 0, size := 8388608, rd := true, wr := true, auto := false, rmw := false, early := true, srcKit := none,
    srcBase := 0, from_ := none, clearing := false }

/-- Kit 0 with node 1 bound and the window. -/
def house : KitSt := { State.reset.kit 0 with binds := [⟨1, 0, none⟩], wins := (State.reset.kit 0).wins.set 0 (some allWin) }

/-- A device in Run at Beat 5,000 with Ring A joined and read tokens to spend. -/
def run : State :=
  let s := ((State.reset.setRing .a ringUp).setKit 0 house)
  { s with mode := .run, bar := { s.bar with beatno := 5000, counted := true, lastMbar := some 7, lastDbBar := 4 },
           stk := { s.stk with tokFree := 32, tokMaint := 8 } }

/-- A page of Kit 0, its table chord confirmed, no sector zero. -/
def page (kp : Nat) (h : Home) : Page := { newPage 0 (BitVec.ofNat 23 kp) h 0 with zero := 0, stable := true }

/-- `run` with kit page 0 in Main frame 0 and kit page 1 in Deep. -/
def run2 : State := { run with pages := [page 0 (.main 0), page 1 (.deep Config.firstDeep)] }

/-- Kit `k` live in `s`, with its key and the window. -/
def withKit (s : State) (k : Kit) : State :=
  s.setKit k { s.kit k with live := true, key := ⟨true, true, true, 0, true, true⟩, wins := (s.kit k).wins.set 0 (some allWin) }

/-- The request is taken up, and what it is taken up to satisfies `p`. -/
def takenHas (s : State) (rq : Req) (p : Job → State → Bool) : Bool :=
  match s.taken rq with
  | some (j, s1) => p j s1
  | none => false

/-- The value is there and satisfies `p`. -/
def has {α : Type} (x : Option α) (p : α → Bool) : Bool :=
  match x with
  | some a => p a
  | none => false

/-! ### Witnesses: the queue and requests -/

theorem witness_StepRunsTheFront : allOf [run.pending = []] = true := by decide +kernel

theorem witness_EveryFormedCommandAnswers : allOf [(Instr.ping (req 1 0 0)).wf, (Instr.read (req 0x10 4096 0)).wf,
    (Instr.repairApplyLaneRejoin (req 0x52 0 0x305)).wf] = true := by decide +kernel

/-- `run` in which Kit 0 may have no request in flight. -/
def full : State := run.setKit 0 { house with maxinf := 0 }

theorem witness_RefusedAndFailedRequestsExecuteNothing : allOf [
    (Laws.requestOf (.ping (req 1 0 0)) = some (req 1 0 0, 1)) ∧ (Instr.ping (req 1 0 0)).wf = true ∧
      full.addressed .a (req 1 0 0) = true ∧ full.readyReq (req 1 0 0) = none ∧ (req 1 0 0).dnode ≠ 31 ∧
      full.refusal (full.kitOf (req 1 0 0)) (req 1 0 0) full.bar.beatno = some 2,
    has (run.claim (req 2 0 1)) fun cl => (Instr.statusQuery (req 2 0 1)).wf = true ∧
      cl.st.check cl.admBeat cl.kit (req 2 0 1) = some (ans 0x31 8)] = true := by decide +kernel

theorem witness_ChecksInOrder : allOf [
    4096 < (req 1 4097 0).len.toNat,
    (req 1 4096 0).len.toNat ≤ 4096 ∧ (opRow 1).isSome = true ∧ { req 1 4096 0 with reply := true }.reply = true,
    { req 1 0 0 with src := 3 }.snode ≠ { req 1 0 0 with src := 3 }.src ∧ { req 1 0 0 with ringBit := true }.ringBit ≠ (Ring.a == .b),
    sourceBad (req 1 0 0) = none,
    run.modeOk (req 0x60 0 0) = true ∧ has (opRow 0x60) (fun r => r.house),
    run.modeOk (req 1 0 0) = true ∧ run.modeOk (req 0x13 4 0) = true ∧ run.rightBad 5000 0 (req 0x13 4 0) = none ∧
      lenRule 0x13 (selOf (req 0x13 4 0)) false 4 = (false, 0)] = true := by decide +kernel

/-- `run` in Rest. -/
def rest : State := { run with mode := .rest }

theorem witness_RequestsAreTakenUp : allOf [
    run.addressed .a (req 1 0 0) = true ∧ run.inflight = [] ∧ run.barriers = [] ∧ run.wedgedPorts = 0 ∧
      run.kitOf (req 1 0 0) = some 0 ∧ run.refusal (some 0) (req 1 0 0) run.bar.beatno = none ∧
      ((run.admitWhole (req 1 0 0)).updReq run.nextRid fun x => { x with stage := .serving }).check run.bar.beatno (some 0)
        (req 1 0 0) = none ∧ run.mustWake (req 1 0 0) = false,
    has (rest.claim (req 0x13 0 0)) fun cl => (Instr.fence (req 0x13 0 0)).wf = true ∧ cl.kit = some 0 ∧
      cl.st.check cl.admBeat (some 0) (req 0x13 0 0) = none ∧ cl.st.mode = .rest ∧ has (opRow 0x13) (fun r => !r.rest)] = true := by
  decide +kernel

theorem witness_StatusAndRegisterReads : allOf [
    takenHas run (req 1 0 0) fun _ _ => (Instr.ping (req 1 0 0)).wf,
    takenHas run (req 2 0 0) fun _ s1 => (Instr.statusQuery (req 2 0 0)).wf && (s1.bar.beatno < 2 ^ 48 : Bool),
    takenHas run (req 0x40 4 0x7C14) fun _ _ => (Instr.csrRead (req 0x40 4 0x7C14)).wf,
    takenHas run (req 0x40 4 0x400) fun _ s1 => (Instr.barBeatnoLoRead (req 0x40 4 0x400)).wf && (s1.bar.beatno < 2 ^ 48 : Bool),
    takenHas run (req 0x40 8 0x400) fun _ _ => (Instr.barBeatnoLoRead (req 0x40 8 0x400)).wf && (8 ≤ (req 0x40 8 0x400).len.toNat : Bool)]
    = true := by decide +kernel

/-- `run` in which Kit 0 meets every condition of Table 8.5 (08 R226). -/
def strictRun : State :=
  let s := run.setRing .a { ringUp with owners := [2, 0x1F, 0x1F, 0x1F, 0x1F, 0x1F, 0x1F, 0x1F] }
  let k := { house with kres := 11, granted := 11, rtres := 1, replypos := 1,
                        kq := #v[180224, 7340032, 16, 16, 64, 1024, 65536] }
  { s.setKit 0 k with tier := { s.tier with part := true, partNow := true } }

theorem witness_RegisterWrites : allOf [
    takenHas run (req 0x41 4 0x0018 (leBytes 4 64)) fun _ _ => (Instr.csrWrite (req 0x41 4 0x0018 (leBytes 4 64))).wf &&
      (csrOff (req 0x41 4 0x0018 (leBytes 4 64)) = 0x0018 : Bool),
    takenHas strictRun (req 0x41 4 0x0080 (leBytes 4 5)) fun _ _ => (Instr.genTempoStrictWrite (req 0x41 4 0x0080 (leBytes 4 5))).wf,
    takenHas run (req 0x41 4 0x0080 (leBytes 4 4)) fun _ _ => (Instr.genTempoStrictWrite (req 0x41 4 0x0080 (leBytes 4 4))).wf,
    takenHas rest (req 0x41 4 0x001C (leBytes 4 1)) fun _ _ => (Instr.genRestExitWrite (req 0x41 4 0x001C (leBytes 4 1))).wf,
    takenHas run (req 0x41 4 0x0424 (leBytes 4 4)) fun _ _ => (Instr.barSrcRateWrite (req 0x41 4 0x0424 (leBytes 4 4))).wf,
    takenHas { run with bar := { run.bar with beatsrc := true } } (req 0x41 4 0x0424 (leBytes 4 4)) fun _ s1 =>
      s1.bar.beatsrc && s1.ringA.swOpen && s1.bar.rate != 4,
    takenHas run (req 0x41 4 0x3004 (leBytes 4 5)) fun _ _ => (Instr.tierSplitRequest (req 0x41 4 0x3004 (leBytes 4 5))).wf,
    takenHas run (req 0x41 4 0x3120 (leBytes 4 5)) fun _ s1 => (Instr.tierKprobeWrite (req 0x41 4 0x3120 (leBytes 4 5))).wf &&
      (s1.kit 0).live,
    takenHas (withKit run 15) (req 0x41 4 0x34E0 (leBytes 4 5)) fun _ s1 =>
      (Instr.tierKprobeWrite (req 0x41 4 0x34E0 (leBytes 4 5))).wf && (s1.kit 15).live,
    takenHas run (req 0x41 4 0x000C (leBytes 4 1)) fun _ _ => (Instr.eventsW1cClear (req 0x41 4 0x000C (leBytes 4 1))).wf,
    takenHas run (req 0x41 4 0x2010 (leBytes 4 1)) fun _ s1 => (Instr.eventsW1cClear (req 0x41 4 0x2010 (leBytes 4 1))).wf &&
      ((EvId.kit 0).offset = 0x2010 : Bool) && (s1.kit 0).live,
    takenHas run (req 0x41 4 0x0080 (leBytes 4 4)) fun _ _ => (Instr.eventsW1cClear (req 0x41 4 0x0080 (leBytes 4 4))).wf]
    = true := by decide +kernel

theorem witness_PingReturnsItsPayload : allOf [
    takenHas run (req 1 2 0 [7, 8]) fun j _ => (Instr.ping (req 1 2 0 [7, 8])).wf && (j.admBeat = 5000 : Bool)] = true := by
  decide +kernel

/-! ### Witnesses: memory, places, Kits and windows -/

/-- A chord is to be read from the array, with a token, and decodes clean. -/
def cleanRead (s : State) (k : Kit) (a : Nat) : Bool :=
  match s.look k a with
  | (_, .array c _ _) => has (s.kitToken k) fun t => (t.decodeOf (s.look k a).1.1 (s.look k a).1.2 c).corrected = false ∧
      (t.decodeOf (s.look k a).1.1 (s.look k a).1.2 c).value.isSome = true
  | _ => false

theorem witness_ReadReturnsTheChord : allOf [
    takenHas run2 (req 0x10 0 0) fun _ _ => (Instr.read (req 0x10 0 0)).wf,
    takenHas run2 (req 0x10 64 0) fun j s1 => (Instr.read (req 0x10 64 0)).wf && cleanRead s1 j.kit 0 &&
      (s1.findRead j.rid = none ∧ j.admBeat = s1.bar.beatno ∧ j.slot < 32 ∧ chordsOf 0 64 = [0] : Bool),
    takenHas run2 (req 0x10 1 65535) fun j s1 => (Instr.read (req 0x10 1 65535)).wf && cleanRead s1 j.kit 65472 &&
      (s1.findRead j.rid = none ∧ chordsOf 65535 1 = [65472] : Bool)] = true := by decide +kernel

/-- A write of one whole chord, and the same as one unit of WRITE_MASKED. -/
def wr1 : Req := req 0x11 64 128 (List.replicate 64 0x5A)
def wm1 : Req := req 0x12 72 128 (List.replicate 8 0xFF ++ List.replicate 64 0x5A)

/-- The conditions on which a write of one unit is held at once. -/
def holdable (us : List WUnit) (j : Job) (s1 : State) : Bool :=
  match us with
  | [u] => s1.jobs = [] ∧ u.mask = BitVec.allOnes 64 ∧ (s1.kit j.kit).keylost = false ∧
      s1.hold.all (fun e => !e.rids.contains j.rid) = true ∧ s1.locate j.kit u.kaddr = .main 2 ∧ s1.merges = [] ∧
      has (s1.findPage j.kit (kpOf u.kaddr)) (fun p => p.frame.isSome && !p.zero.getLsbD (secOf u.kaddr).toNat) = true ∧
      s1.shareFits j.kit (s1.chordCost 2) = true ∧ s1.shareFits j.kit (s1.writeCost j.kit us) = true ∧ s1.entriesFree 1 = true
  | _ => false

theorem witness_WritesAreHeldProvisionally : allOf [
    takenHas run2 wr1 fun j s1 => (Instr.write wr1).wf && holdable (writeUnits wr1) j s1,
    takenHas run2 wm1 fun j s1 => (Instr.writeMasked wm1).wf && holdable (maskedUnits wm1) j s1,
    takenHas run2 (req 0x11 0 0) fun _ _ => (Instr.write (req 0x11 0 0)).wf,
    takenHas run2 (req 0x12 0 0) fun _ _ => (Instr.writeMasked (req 0x12 0 0)).wf,
    takenHas (run2.setKit 0 { house with keylost := true }) wr1 fun j s1 => (s1.kit j.kit).keylost,
    takenHas (run2.setKit 0 { house with pshare := 9 }) { wr1 with nowait := true } fun j s1 =>
      !s1.shareFits j.kit (s1.writeCost j.kit (writeUnits wr1))] = true := by decide +kernel

/-- A FENCE that waits, covering request 5. -/
def fence : FenceJob := ⟨6, req 0x13 0 0, 0, [5], 5000, 5001⟩

/-- A request in flight in a stage. -/
def flying (rid : Nat) (rq : Req) (st : Stage) : InFlight :=
  { rid := rid, rq := rq, kit := some 0, stream := 0, admBeat := 5000, slot := 0, flits := 1, bytes := [], lastFlit := 5000,
    credits := 0, stage := st, wedge := none, stood := 0 }

/-- `run` in which that FENCE waits. -/
def fencing : State := { run with fences := [fence], inflight := [flying 6 (req 0x13 0 0) .serving] }

theorem witness_FencesReportRecants : allOf [
    takenHas run (req 0x13 0 0) fun j s1 => s1.fences = [] ∧ s1.openWrites j.kit j.rid = [] ∧ s1.merges = [] ∧
      (s1.kit j.kit).kunrep = 0 ∧ (Instr.fence (req 0x13 0 0)).wf = true,
    takenHas (run.setKit 0 { house with kunrep := 3 }) (req 0x13 0 0) fun j s1 => s1.fences = [] ∧
      s1.openWrites j.kit j.rid = [] ∧ s1.merges = [] ∧ (s1.kit j.kit).kunrep ≠ 0,
    fencing.fences = [fence] ∧ fence.kit = 0 ∧ fencing.awaits fence.rid = true ∧ fence.covers.all fencing.writeOver = true,
    fence.covers.all ({ fencing with inflight := flying 5 wr1 .serving :: fencing.inflight }).writeOver = false] = true := by decide +kernel

/-- PARAM of a page range (Table 7.4). -/
def pr (first count arg : Nat) : Nat := first * 65536 + 2 ^ 40 * count + 2 ^ 56 * arg

/-- A request on one page of a kind, taken up with nothing waiting. -/
def onPage (s : State) (rq : Req) (kp : Nat) (p : Job → State → Bool) : Bool :=
  takenHas s rq fun j s1 => (s1.waits = [] ∧ pagesOf rq = [BitVec.ofNat 23 kp] : Bool) && p j s1

/-- `run` in which Kit 0 has quotas for nothing. -/
def poor : State := run.setKit 0 { house with kq := Vector.replicate 7 0 }

theorem witness_PlacePinMigrateMuffle : allOf [
    onPage run (req 0x18 0 (pr 9 1 1)) 9 fun j s1 => (Instr.place (req 0x18 0 (pr 9 1 1))).wf &&
      (s1.findPage j.kit 9 = none : Bool) && (s1.homeChoice j.kit).isSome,
    onPage run (req 0x18 0 (pr 8388607 1 2)) 8388607 fun j s1 => (Instr.place (req 0x18 0 (pr 8388607 1 2))).wf &&
      (s1.findPage j.kit 8388607 = none : Bool) && (s1.deepChoice j.kit).isSome,
    onPage poor (req 0x18 0 (pr 9 1 1)) 9 fun j s1 => s1.findPage j.kit 9 = none ∧ s1.homeChoice j.kit = none,
    onPage { run with pages := [{ page 0 (.main 0) with nearPin := true, mainPin := true }] } (req 0x19 0 (pr 0 1 1)) 0 fun j s1 =>
      (Instr.pin (req 0x19 0 (pr 0 1 1))).wf && has (s1.findPage j.kit 0) fun p => p.stable && p.nearPin,
    onPage run2 (req 0x19 0 (pr 0 1 2)) 0 fun j s1 => (Instr.pin (req 0x19 0 (pr 0 1 2))).wf && s1.mayPinMain j.kit false &&
      has (s1.findPage j.kit 0) fun p => p.stable && p.frame.isSome && !p.mainPin && !p.impliedPin,
    onPage run2 (req 0x1A 0 (pr 1 1 3)) 1 fun _ _ => (Instr.unpin (req 0x1A 0 (pr 1 1 3))).wf,
    onPage run2 (req 0x1B 0 (pr 0 1 1)) 0 fun j s1 => (Instr.migrateNow (req 0x1B 0 (pr 0 1 1))).wf &&
      s1.migrated j.kit (argOf (req 0x1B 0 (pr 0 1 1))) 0,
    onPage run2 (req 0x1B 0 (pr 1 1 1)) 1 fun j s1 => argOf (req 0x1B 0 (pr 1 1 1)) = 1 ∧ s1.migrated j.kit 1 1 = false ∧
      (s1.findPage j.kit 1).isSome = true ∧ s1.moving j.kit 1 = false ∧
      s1.pickSlot j.kit = some (0, none),
    takenHas run2 (req 0x1C 0 (pr 0 1 0)) fun _ _ => (Instr.muffleDeclare (req 0x1C 0 (pr 0 1 0))).wf,
    takenHas run2 (req 0x1C 8 (pr 0 1 3) (leBytes 8 (64 + 2 ^ 40 * 17))) fun _ _ =>
      (Instr.muffleDeclare (req 0x1C 8 (pr 0 1 3) (leBytes 8 (64 + 2 ^ 40 * 17)))).wf,
    takenHas poor (req 0x1C 0 (pr 0 1 1)) fun j s1 => (Instr.muffleDeclare (req 0x1C 0 (pr 0 1 1))).wf &&
      (s1.mufJobs = [] ∧ s1.stageJobs = [] ∧ (s1.kit j.kit).quota 6 < s1.muffleUsed j.kit 0 + muffleChords 1 : Bool)] = true := by
  decide +kernel

/-- `run` with Kit 1 under KIT_DESTROY. -/
def dying : State := (withKit run 1).setKit 1 { (withKit run 1).kit 1 with destroying := true }

/-- `dying` once both copies of the key are overwritten. -/
def wiped : State := dying.setKit 1 { dying.kit 1 with wipe := .done }

theorem witness_KitDestruction : allOf [
    takenHas (withKit run 1) (req 0x31 0 1) fun _ s1 => (Instr.kitDestroy (req 0x31 0 1)).wf && (s1.merges = [] : Bool),
    takenHas (withKit run 15) (req 0x31 0 15) fun _ s1 => (Instr.kitDestroy (req 0x31 0 15)).wf && (s1.merges = [] : Bool),
    (dying.kit 1).destroying = true ∧ dying.kitDrained 1 = true ∧ (dying.kit 1).wipe = .idle ∧ dying.updating (.key 1) = false,
    (wiped.kit 1).destroying = true ∧ wiped.kitDrained 1 = true ∧ (wiped.kit 1).wipe = .done,
    (dying.setKit 1 { dying.kit 1 with wipe := .under }).kit 1 ≠ dying.kit 1,
    (run.kit 1).destroying = false,
    ({ dying with inflight := [{ flying 3 wr1 .serving with kit := some 1 }] }).kitDrained 1 = false] = true := by
  decide +kernel

/-- A window descriptor (Table 7.9) of `n` pages from page `b`. -/
def desc (b n rights modes : Nat) : List Byte :=
  leBytes 8 (b * 65536) ++ leBytes 4 n ++ leBytes 4 (rights + 256 * modes + 65536 * 255) ++ List.replicate 16 0

/-- PARAM of WINDOW_SET. -/
def wp (k w op : Nat) : Nat := k + 256 * w + 65536 * op

/-- Kit 1 without windows, live. -/
def bare : State := (withKit run 1).setKit 1 { (withKit run 1).kit 1 with wins := Vector.replicate 8 none }

/-- Kit 1's window 0 under a clear, with Kit 2 sharing it. -/
def clearing : State :=
  let s := withKit (withKit run 1) 2
  (s.setKit 1 { s.kit 1 with wins := (s.kit 1).wins.set 0 (some { allWin with clearing := true }) }).setKit 2
    { s.kit 2 with wins := (s.kit 2).wins.set 0 (some { allWin with srcKit := some 1 }) }

theorem witness_AccessWindows : allOf [
    takenHas bare (req 0x32 32 (wp 1 0 1) (desc 0 8388608 3 7)) fun _ _ =>
      (Instr.windowSetSet (req 0x32 32 (wp 1 0 1) (desc 0 8388608 3 7))).wf &&
        (pb (req 0x32 32 (wp 1 0 1) (desc 0 8388608 3 7)) 9 < 8 : Bool),
    takenHas bare (req 0x32 32 (wp 1 7 1) (desc 8388607 1 1 0)) fun _ _ =>
      (Instr.windowSetSet (req 0x32 32 (wp 1 7 1) (desc 8388607 1 1 0))).wf,
    takenHas bare (req 0x32 0 (wp 1 7 0)) fun _ s1 => (Instr.windowSetClear (req 0x32 0 (wp 1 7 0))).wf &&
      ((s1.kit 1).wins[(7 : Fin 8)] = none : Bool),
    takenHas (withKit run 1) (req 0x32 0 (wp 1 0 0)) fun _ s1 => (Instr.windowSetClear (req 0x32 0 (wp 1 0 0))).wf &&
      ((s1.kit 1).wins[(0 : Fin 8)] = some allWin : Bool),
    (clearing.kit 1).wins[(0 : Fin 8)] = some { allWin with clearing := true } ∧ clearing.windowIdle (1, 0) = true ∧
      clearing.sharers 1 0 8388608 = [(2, 0)] ∧ (clearing.sharers 1 0 8388608).all clearing.windowIdle = true ∧
      clearing.writesOver 1 0 8388608 = true,
    ({ clearing with inflight := [{ flying 3 wr1 .serving with kit := some 1 }] }).windowIdle (1, 0) = false] = true := by
  decide +kernel

theorem witness_KitsAndLedgers : allOf [
    takenHas run (req 0x30 6 1 [1, 0, 0x1F, 0, 3, 2]) fun j s1 => (Instr.kitCreate (req 0x30 6 1 [1, 0, 0x1F, 0, 3, 2])).wf &&
      (j.kit = 0 ∧ (s1.kit 0).live = true ∧ s1.createKit 1 = some 1 ∧
       (s1.setKit 1 ((s1.kit 1).create (req 0x30 6 1 [1, 0, 0x1F, 0, 3, 2]) s1.bar.beatno s1.free)).ledgerOk s1 = true : Bool),
    takenHas run (req 0x30 20 255 ([8, 0, 1, 0] ++ (List.range 8).flatMap fun i => [BitVec.ofNat 8 i, 5])) fun _ s1 =>
      s1.createKit 255 = some 1,
    takenHas (withKit run 1) (req 0x30 6 1 [1, 0, 0x1F, 0, 3, 2]) fun j s1 => j.kit = 0 ∧ s1.createKit 1 = none,
    takenHas (withKit run 1) (req 0x30 6 1 [1, 1, 4, 0, 3, 2]) fun _ _ =>
      (Instr.kitCreateRebind (req 0x30 6 1 [1, 1, 4, 0, 3, 2])).wf,
    takenHas (withKit run 15) (req 0x33 16 15 ([11, 1, 64, 0, 64, 0, 16, 0, 31] ++ List.replicate 7 0)) fun _ _ =>
      (Instr.strokeSet (req 0x33 16 15 ([11, 1, 64, 0, 64, 0, 16, 0, 31] ++ List.replicate 7 0))).wf,
    takenHas run (req 0x33 16 0 ([0, 0, 0, 0, 0, 0, 16, 0, 16] ++ List.replicate 7 0)) fun _ _ =>
      (Instr.strokeSet (req 0x33 16 0 ([0, 0, 0, 0, 0, 0, 16, 0, 16] ++ List.replicate 7 0))).wf] = true := by
  decide +kernel

/-! ### Witnesses: Rudiments -/

/-- PARAM of RUD_LOAD: OP, slot, offset, LENGTH (Table 7.6). -/
def lp (op slot off len : Nat) : Nat := op + 256 * slot + 65536 * off + 2 ^ 32 * len

/-- NOP, then HALT. -/
def prog2 : List Word := [0x04000000, 0x00000000]

/-- `run2` with engine 0 of Kit 0 running a program of NOPs at a PC, its registers as given. -/
def engAt (pc : Nat) (f : EngSt → EngSt) : State :=
  { (run2.setEng 0 (f { EngSt.reset with state := .running, next := 5000, pc := pc })) with
    copies := [⟨0, 0, 0, List.replicate 8 0x04000000⟩] }

/-- A loop in force at its last instruction, with a count. -/
def inLoop (n : Nat) : State := engAt 3 fun g => { g with loop := some ⟨n, 2, 3⟩ }

/-- The PC is one of an engine's program. -/
def inProg (s : State) (e : Engine) (pc : Nat) : Bool := has (s.program e) fun p => pc < p.length

/-- `run` in which chord 0 of Kit 0's slot 0 is on its way to the array with these words. -/
def coming (ws : List Word) : State :=
  let d := ws.flatMap fun w => leBytes 4 w.toNat
  { run with chordq := [(.stage 0 0, some 0, 9, BitVec.ofNat 28 (stageChord 0 0 0), d ++ zeros (64 - d.length))] }

/-- `run` in which that chord stands in the array as a poison marker. -/
def poisonedStage : State :=
  { run.store (stageChord 0 0 0) markerSlices 0x3FF with stages := [⟨0, 0, [0]⟩] }

/-- The first two words of Kit 0's slot 0, decoded. -/
def staged2 (s : State) (k : Kit) : List (Option RudInstr) :=
  match (s.stageReads k 0 1).1 with
  | some bs => ((List.range 2).map fun i => BitVec.ofNat 32 (fieldAt bs (4 * i) 4)).map Rud.decode
  | none => []

theorem witness_RudimentRequests : allOf [
    takenHas run (req 0x20 8 (lp 0 7 4094 0) (leBytes 4 0x04000000 ++ leBytes 4 0)) fun j s1 =>
      (Instr.rudLoadStage (req 0x20 8 (lp 0 7 4094 0) (leBytes 4 0x04000000 ++ leBytes 4 0))).wf &&
        (s1.stageRead j.kit 7 255).1.isSome && (s1.stageComing (stageChord j.kit 7 255)).isNone,
    takenHas (coming prog2) (req 0x20 4 (lp 0 0 3 0) (leBytes 4 0)) fun j s1 =>
      (Instr.rudLoadStage (req 0x20 4 (lp 0 0 3 0) (leBytes 4 0))).wf &&
        has (s1.stageComing (stageChord j.kit 0 0)) fun d => d.length = 64,
    takenHas run (req 0x20 0 (lp 1 0 0 2)) fun j s1 => (Instr.rudLoadLoad (req 0x20 0 (lp 1 0 0 2))).wf &&
      !s1.isStaged j.kit 0,
    takenHas poisonedStage (req 0x20 0 (lp 1 0 0 2)) fun j s1 =>
      s1.isStaged j.kit 0 && (s1.stageReads j.kit 0 1).1.isNone,
    takenHas (coming [0x04000000, 0xFFFFFFFF]) (req 0x20 0 (lp 1 0 0 2)) fun j s1 =>
      s1.isStaged j.kit 0 && goodAt (staged2 s1 j.kit) 0 && !goodAt (staged2 s1 j.kit) 1,
    takenHas (coming prog2) (req 0x20 0 (lp 1 0 0 2)) fun j s1 =>
      s1.isStaged j.kit 0 && ((List.range 2).all fun i => goodAt (staged2 s1 j.kit) i) &&
        (State.storeRun { s1 with copies := s1.copies.filter fun c => !(c.kit == j.kit && c.slot == 0) } 1 = some 0 : Bool),
    takenHas run (req 0x21 0 (lp 0 15 0 0)) fun j s1 => (Instr.rudStart (req 0x21 0 (lp 0 15 0 0))).wf &&
      (s1.copyOf j.kit 0 = none : Bool),
    takenHas { run with copies := [⟨0, 0, 0, prog2⟩] } (req 0x21 0 (lp 0 15 65535 9)) fun j s1 =>
      (s1.copyOf j.kit 0).isSome && !(s1.eng 0).busy && s1.engUsable j.kit 0,
    takenHas { run with copies := [⟨0, 0, 0, prog2⟩] } (req 0x21 0 (lp 0 7 0 9)) fun j s1 =>
      (s1.copyOf j.kit 0).isSome && !(s1.eng 7).busy && s1.engUsable j.kit 7,
    takenHas (engAt 0 id) (req 0x21 0 (lp 0 0 0 0)) fun j s1 => (s1.copyOf j.kit 0).isSome && (s1.eng 0).busy,
    takenHas (engAt 0 id) (req 0x22 0 (lp 0 0 0 0)) fun _ s1 => (Instr.rudStop (req 0x22 0 (lp 0 0 0 0))).wf && (s1.eng 0).busy,
    takenHas run (req 0x22 0 (lp 0 7 0 0)) fun _ s1 => (Instr.rudStop (req 0x22 0 (lp 0 7 0 0))).wf && !(s1.eng 7).busy,
    takenHas run (req 0x23 0 (lp 0 7 0 0)) fun _ _ => (Instr.rudQuery (req 0x23 0 (lp 0 7 0 0))).wf] = true := by
  decide +kernel

theorem witness_RudimentPlainInstructions : allOf [
    (engAt 0 id).mayIssue 0 = true ∧ inProg (engAt 0 id) 0 (pcOnward ((engAt 0 id).eng 0)).1 = true,
    (inLoop 2).mayIssue 0 = true ∧ inProg (inLoop 2) 0 (pcOnward ((inLoop 2).eng 0)).1 = true,
    ((engAt 0 id).eng 0).waiting = false ∧ ((inLoop 2).eng 0).waiting = false ∧ ((inLoop 1).eng 0).waiting = false,
    (inLoop 1).mayIssue 0 = true ∧ inProg (inLoop 1) 0 (pcOnward ((inLoop 1).eng 0)).1 = true] = true := by decide +kernel

theorem witness_RudimentJumps : allOf [
    (engAt 0 id).mayIssue 0 = true ∧ (RudInstr.br .always 0 7).wf = true ∧ inProg (engAt 0 id) 0 (pcJump ((engAt 0 id).eng 0) 7).1 = true,
    ((engAt 0 id).eng 0).g[0] = 0 ∧ ((engAt 0 fun g => { g with g := g.g.set 1 5 }).eng 0).g[1] ≠ 0,
    ((engAt 0 id).eng 0).ls = 0x00 ∧ ((engAt 0 fun g => { g with ls := 0x41 }).eng 0).ls.toNat / 16 = (0x40 : BitVec 8).toNat / 16,
    ((engAt 0 id).eng 0).stack.length < 4 ∧ inProg (engAt 0 id) 0 7 = true,
    ((engAt 0 fun g => { g with stack := [(7, none)] }).eng 0).stack = [(7, none)],
    (2 : BitVec 10) ≠ 0 ∧ inProg (engAt 0 id) 0 3 = true] = true := by decide +kernel

theorem witness_RudimentWaits : allOf [
    (engAt 0 id).mayIssue 0 = true ∧ inProg (engAt 0 id) 0 (pcOnward ((engAt 0 id).eng 0)).1 = true ∧
      (engAt 0 id).mode ≠ .freewheel ∧ ((engAt 0 id).kit ((engAt 0 id).eng 0).kit).suspended = false,
    (1 : BitVec 16) ≠ 0 ∧ (1023 : BitVec 10) ≠ 0,
    ({ engAt 0 id with mode := .freewheel }).mayIssue 0 = true ∧ (RudInstr.waitu false 5).wf = true,
    (engAt 0 fun g => { g with waiting := true }).mayIssue 0 = true ∧
      ((engAt 0 fun g => { g with waiting := true }).eng 0).waiting = true] = true := by decide +kernel

theorem witness_RudimentHalts : allOf [
    (engAt 0 id).mayIssue 0 = true ∧ ((engAt 0 id).eng 0).stack = [],
    4 ≤ ((engAt 0 fun g => { g with stack := List.replicate 4 (1, none) }).eng 0).stack.length ∧
      (engAt 0 fun g => { g with stack := List.replicate 4 (1, none) }).mayIssue 0 = true,
    (engAt 7 id).mayIssue 0 = true ∧ has ((engAt 7 id).program 0) (fun p => p.length ≤ (pcOnward ((engAt 7 id).eng 0)).1) = true,
    run.mayIssue 0 = false] = true := by decide +kernel

/-- The kit page that `g1` of engine 0 names. -/
def naming (kp : Nat) (s : State) : State := s.setEng 0 { s.eng 0 with g := (s.eng 0).g.set 1 (BitVec.ofNat 32 kp) }

/-- `engAt 0` for kit page `kp`. -/
def onKp (kp : Nat) : State := naming kp (engAt 0 id)

/-- The page of `g1` is the Kit's own and readable. -/
def ownPage (s : State) (kp : Nat) : Bool :=
  (((s.eng 0).g[(1 : Fin 8)]).toNat = kp : Bool) && has (s.windowAt (s.eng 0).kit (kp * 65536)) fun w => w.rd && w.srcKit.isNone

/-- A Kit without a window, and one that may not read. -/
def noWin : State := (onKp 0).setKit 0 { house with wins := Vector.replicate 8 none }
def noRead : State := (onKp 0).setKit 0 { house with wins := house.wins.set 0 (some { allWin with rd := false }) }

theorem witness_RudimentPages : allOf [
    (onKp 8388608).mayIssue 0 = true ∧ ((onKp 8388608).eng 0).fetches.length < 8 ∧ 2 ^ 23 < 8388608 + 1,
    8388607 + 1 ≤ 2 ^ 23 ∧ noWin.mayIssue 0 = true ∧ noWin.windowAt (noWin.eng 0).kit 0 = none,
    noRead.mayIssue 0 = true ∧ has (noRead.windowAt (noRead.eng 0).kit 0) (fun w => !w.rd) = true,
    (onKp 0).mayIssue 0 = true ∧ ownPage (onKp 0) 0 = true ∧ has ((onKp 0).findPage 0 0) (fun p => p.frame.isSome) = true,
    ownPage (onKp 1) 1 = true ∧ has ((onKp 1).findPage 0 1) (fun p => p.frame.isNone && p.slot.isNone) = true ∧
      (onKp 1).inPlace 0 1 = false ∧ (onKp 1).moving 0 1 = false ∧ (onKp 1).pickSlot 0 = some (0, none),
    ownPage (onKp 5) 5 = true ∧ (onKp 5).findPage 0 5 = none ∧
      ({ onKp 5 with deep := { (onKp 5).deep with muted := true } }).deep.muted = true ∧ (onKp 5).autoAt 0 5 = false,
    (onKp 0).findPage 0 0 = some (page 0 (.main 0)) ∧ (page 0 (.main 0)).mainPin = false ∧
      (page 0 (.main 0)).impliedPin = false ∧ (onKp 0).mayPinMain 0 false = true,
    (onKp 0).moving 0 0 = false ∧ (onKp 0).busyPage 0 0 = false] = true := by decide +kernel

theorem witness_RudimentStreams : allOf [
    (onKp 0).mayIssue 0 = true ∧ ((onKp 0).eng 0).issuing = none ∧ ownPage (onKp 0) 0 = true ∧
      (((onKp 0).ring .a).joined = true) ∧ (1 : Node) ∈ ((onKp 0).ring .a).rosterIds ∧
      (((onKp 0).eng 0).g[(2 : Fin 8)]).toNat * 256 + 65536 ≤ 2 ^ 40 ∧ ((onKp 0).eng 0).fifo.length + 16 ≤ 512 ∧
      has ((onKp 0).findPage 0 0) (fun p => p.frame.isSome) = true,
    (9 : Node) ∉ ((onKp 0).ring .a).rosterIds ∧ (1 : Node).toNat ≤ 29,
    (onKp 0).mayIssue 0 = true ∧ inProg (onKp 0) 0 1 = true ∧ ((onKp 0).kit 0).notify = 0x1F ∧
      ((onKp 0).kit 0).suspended = false,
    ((onKp 0).setKit 0 { house with notify := 1, suspended := true }).mayIssue 0 = true ∧ (1 : Node) ∈ (run.ring .a).rosterIds] = true := by decide +kernel

/-- A STREAM of one page with deadline 4,990. -/
def strm (kp : Nat) (pol : Policy) (done : Bool) (follow : List Nat) : StreamSt :=
  ⟨kp, 1, 0, 1, .a, some 4990, (pol, false), done, false, [], follow, 0, false⟩

/-- Engine 0 with FETCHes and STREAMs. -/
def engWith (fs : List FetchSt) (ss : List StreamSt) : State := engAt 0 fun g => { g with fetches := fs, streams := ss }

theorem witness_FetchesAndDeadlines : allOf [
    (engWith [⟨[0], false, none⟩] []).fetchDone 0 false 0 = true,
    (engWith [⟨[1], false, none⟩] []).fetchDone 0 false 1 = false,
    ((engWith [] [strm 0 .late true [0]]).eng 0).streams = [strm 0 .late true [0]] ∧
      (engWith [] [strm 0 .late true [0]]).pageReady 0 ((strm 0 .late true [0]).page 0) = true,
    (engWith [] [strm 1 .late true [0]]).pageReady 0 ((strm 1 .late true [0]).page 0) = false,
    reached 5001 (engWith [] [strm 0 .late false []]).bar.beatno = false,
    (engWith [] [strm 0 .late false []]).mode.traffic = true ∧ (engWith [] [strm 0 .late false []]).calMore 4 = true ∧
      (strm 0 .late false []).judged = false,
    reached 4990 (engWith [] [strm 0 .stall false []]).bar.beatno = true ∧ (strm 0 .stall false []).pol.1 = .stall,
    ((List.range 1).filter fun p => !(engWith [] [strm 1 .late false []]).pageReady 0 ((strm 1 .late false []).page p)) = List.range 1
      ∧ (strm 1 .late false []).node ≠ 0x1F ∧ inProg (engWith [] []) 0 1 = true] = true := by decide +kernel

/-- A device packet that waits for Ring A. -/
def pkt : DevPkt := eventPkt 0 .a 1 0x0200 0 [] 5000

/-- An Out slot of Ring A that the device may use. -/
def openSlot (s : State) (slot : BitVec 5) : Bool :=
  s.ringA.joined && s.ringA.swOpen && s.ringA.front.isEmpty && s.ringA.held.isEmpty && s.ringA.resend.isEmpty &&
    s.ringA.emptyAt (s.bar.beatno * 32 + slot.toNat) && slot != 0 && !s.drivesBlank .a

/-- A PUSH whose data is read. -/
def push : PushPkt := ⟨0, 0, 0, false, 0, 1, .a, 0, [1, 2], 0, some 5000, .kit 0, 0⟩

theorem witness_PushInject : allOf [
    openSlot run 1 = true ∧ openSlot run 31 = true ∧ run.ringA.ronlyAt (run.bar.beatno * 32 + 1) 1 = false ∧
      run.ringA.ronlyAt (run.bar.beatno * 32 + 31) 31 = false ∧ (1 : BitVec 5).toNat % 8 ≠ 2 ∧ (31 : BitVec 5).toNat % 8 ≠ 4 ∧
      run.freeStream .a = some 0 ∧ run.replies = [] ∧ ({ run with devq := [pkt] }).devq = [pkt] ∧
      pkt.waiting = true ∧ pkt.ring = .a ∧ pkt.tries = 0 ∧ pkt.flitsOut = 0 ∧ pkt.strm = none ∧ pkt.alertOf = none ∧
      reached pkt.notBefore run.bar.beatno = true ∧ run.devSeq = [],
    flitsFor pkt.payload.length = 1 ∧ 1 < flitsFor (zeros 64).length,
    ((engAt 0 fun g => { g with fifo := [push] }).eng 0).fifo = [push] ∧ push.ring = .a ∧ push.need = 0 ∧
      push.ready = some run.bar.beatno ∧ run.devq = []] = true := by decide +kernel

theorem witness_RudimentIssueInOrder : allOf [
    (engAt 0 id).mayIssue 0 = true ∧ ((engAt 0 id).eng 0).waiting = false ∧ (allEngines.all fun o => o = 0 || !(engAt 0 id).mayIssue o) = true ∧
      has ((engAt 0 id).program 0) (fun p => p[0]? = some 0x04000000 ∧ (pcOnward ((engAt 0 id).eng 0)).1 < p.length) = true ∧
      Rud.decode 0x04000000 = some .nop,
    run.mayIssue 7 = false] = true := by decide +kernel

/-! ### Witnesses: flits, packets, replies and ring time -/

/-- A flit of node 1 with this content. -/
def flit (first : Bool) (content : List Byte) : Flit :=
  withCrc { blank := false, cls := 1, ronly := false, first := first, retry := false, lap := false, refused := false,
            src := 1, stream := 0, content := content, crc := 0 }

/-- The first flit of a request whose payload fits it. -/
def headOf (rq : Req) : Flit :=
  let b := packetBytes (hdrOf rq) rq.payload
  flit true (b ++ List.replicate (60 - b.length) 0)

/-- A 60-byte PING for the device and one for node 9, and a flit of the device's own. -/
def f0 : Flit := headOf (req 1 0 0)
def f9 : Flit := headOf { req 1 0 0 with dnode := 9 }
def fLong : Flit := flit true ((packetBytes (hdrOf (req 1 60 0 (zeros 60))) (zeros 60)).take 60)
def fMore : Flit := flit false (List.replicate 60 1)
def fBad : Flit := { f0 with crc := f0.crc + 1 }

/-- A request of which one flit has come. -/
def openReq : InFlight := { flying 3 (reqOfBytes fLong.content (.ring .a) 1) .streaming with bytes := fLong.content }

/-- `run` with that request in flight. -/
def streaming (f : InFlight → InFlight) : State := { run with inflight := [f openReq] }

theorem witness_FlitsReceived : allOf [
    f0.content.length = 60 ∧ fMore.content.length = 60 ∧ f9.content.length = 60 ∧ fLong.content.length = 60,
    State.reset.ringA.swOpen = false,
    ringUp.swOpen = true ∧ ringUp.held = [] ∧ ringUp.noRetry = false ∧ ringUp.hasId = true ∧ crcGood f0 = true ∧
      f0.blank = false ∧ f0.refused = false ∧ f0.cls = 1 ∧ f0.src ≠ ringUp.nodeId ∧ (run.bar.beatsrc && f0.lap) = false ∧
      f0.first = true ∧ ringUp.heads = [] ∧ (reqOfBytes f0.content (.ring .a) f0.src).dnode ≠ 31 ∧
      (reqOfBytes f0.content (.ring .a) f0.src).dnode.toNat = ringUp.nodeId.toNat,
    (streaming id).openStream .a fMore.src fMore.stream = some openReq ∧ openReq.bytes.length = 60 * openReq.flits ∧
      ((streaming id).ring .a).heads = [] ∧ fMore.first = false ∧ crcGood fMore = true,
    (reqOfBytes f9.content (.ring .a) f9.src).dnode = 9 ∧ flitsFrom f9 (reqOfBytes f9.content (.ring .a) f9.src) = 1 ∧
      run.openStream .a f9.src f9.stream = none ∧ ringUp.pipe.length ≤ 4,
    crcGood (withCrc { f0 with src := 2 }) = true ∧ (withCrc { f0 with src := 2 }).src = ringUp.nodeId ∧ ringUp.pipe = [],
    crcGood fBad = false ∧ fBad.blank = false ∧ (1 : BitVec 5) ≠ 0 ∧ (31 : BitVec 5) ≠ 0,
    ({ ringUp with copies := [f0], usedAt := some (160009, true) }).copies[0]? = some f0 ∧ f0.cls ≠ 3 ∧
      ringUp.outNoRetry = false ∧ ((9 : BitVec 5).toNat + 0) % 32 = (160009 + ringUp.hopLat.toNat) % 32,
    ringUp.copies[15]? = none ∧ ((26 : BitVec 5).toNat + 15) % 32 = (160009 + ringUp.hopLat.toNat) % 32] = true := by decide +kernel

/-- `run` whose Ring A has a header waiting. -/
def headed (s : State) : State := s.setRing .a { s.ring .a with heads := [(9, 5000, f0)] }

/-- `streaming` with every flit of a request, its CRC good or not. -/
def allIn (rq : Req) : InFlight := { flying 3 rq .streaming with bytes := packetBytes (hdrOf rq) [] }

theorem witness_StreamsAndPackets : allOf [
    (reqOfBytes f0.content (.ring .a) f0.src).len.toNat ≤ 4096 ∧ (headed run).openStream .a f0.src f0.stream = none ∧
      ((headed run).ring .a).refusedStreams = [] ∧
      (headed run).refusal ((headed run).kitOf (reqOfBytes f0.content (.ring .a) f0.src)) (reqOfBytes f0.content (.ring .a) f0.src)
        5000 = none,
    (headed full).refusal ((headed full).kitOf (reqOfBytes f0.content (.ring .a) f0.src)) (reqOfBytes f0.content (.ring .a) f0.src)
      5000 = some 2,
    (streaming fun f => { f with lastFlit := 4996 }).openStream .a 1 0 = some { openReq with lastFlit := 4996 } ∧
      run.mode.traffic = true ∧ run.calMore 4 = true ∧ 4 ≤ elapsed 4996 run.bar.beatno,
    elapsed 4997 run.bar.beatno < 4,
    ({ run with inflight := [allIn (req 1 0 0)] }).streamAt .a 1 0 true = some (allIn (req 1 0 0)),
      ({ allIn (req 1 0 0) with bytes := (allIn (req 2 0 0)).bytes.set 0 1 }).crcOk = false,
    (allIn (req 1 0 0)).crcOk = true ∧ run.check 5000 (some 0) (req 1 0 0) = none ∧ run.queued (viaPort (.ring .a)).val < 64,
    64 ≤ ({ run with inflight := List.replicate 64 (flying 9 (req 1 0 0) .ready) }).queued (viaPort (.ring .a)).val,
    (allIn (req 2 0 1)).crcOk = true ∧ run.check 5000 (some 0) (req 2 0 1) = some (ans 0x31 8),
    (streaming id).streamAt .a 1 0 true = none] = true := by decide +kernel

/-- A reply of 60 payload bytes, which takes two flits. -/
def rep2 : Reply :=
  { rid := 3, rq := req 1 60 0, kit := some 0, status := 0, cond := 0, detail := 0, early := false, len := 60,
    payload := zeros 60, mark := 160003, release := none, flitsOut := 0, strm := none, trailer := false, redo := [], redoHeld := 0, final := (0, 0) }

theorem witness_RepliesLeave : allOf [
    openSlot run 3 = true ∧ openSlot run 31 = true ∧ run.ringA.replySlot 3 = true ∧ run.streamOf .a rep2.strm = some 0 ∧
      run.ringA.replySlot 31 = true ∧ rep2.flitsOut + 1 < flitsFor rep2.len ∧
      slotReached rep2.mark (run.bar.beatno * 32 + 3) = true,
    ({ rep2 with flitsOut := 1 }).flitsOut + 1 = flitsFor rep2.len,
    run.inflight = [],
    ordered (flying 2 (req 0x10 64 0) .serving).kit rep2.kit (req 0x10 64 0) ({ rep2 with rq := req 0x10 60 0 }).rq = true ∧
      rep2.ran = true ∧ rep2.flitsOut = 0 ∧ (flying 2 (req 0x10 64 0) .serving).rid < rep2.rid,
    slotReached rep2.mark (run.bar.beatno * 32 + 2) = false ∧ rep2.mark ≠ 0,
    reached 5000 run.bar.beatno = true ∧ posOf 2 = some 0 ∧ (strictRun.kit 0).replypos.getLsbD 0 = true ∧
      strictRun.ringA.replySlot 2 = true,
    posOf 28 = some 7 ∧ ({ strictRun with gen := { strictRun.gen with active := true } }).gen.active = true ∧ reached 5001 strictRun.bar.beatno = false,
    (16 + ({ rep2 with trailer := true, early := true, flitsOut := 1 }).len) / 60 ≤ 1,
    rep2.flitsOut < (16 + rep2.len) / 60] = true := by decide +kernel

/-- A PING admitted 64 Bars ago. -/
def old : InFlight := { flying 3 (req 1 0 0) .serving with admBeat := 70000 }
def late : State := { run with inflight := [old], bar := { run.bar with beatno := 70000 + 65536 } }

theorem witness_LateRequestsAndRefusedPackets : allOf [
    late.findReq 3 = some old ∧ old.stage ≠ .replied ∧ old.stage ≠ .late ∧ old.wedge = none ∧ late.bel.logq = [] ∧
      late.mode.traffic = true ∧ late.calMore 4 = true ∧ late.inBound 3 = false ∧
      late.gen.reqTo * 1024 + old.stood ≤ elapsed old.admBeat late.bar.beatno,
    elapsed 70001 late.bar.beatno < late.gen.reqTo * 1024 + old.stood,
    ({ old with wedge := some (4095, 2) }).wedge = some (4095, 2) ∧ ({ late with inflight := [{ old with wedge := some (4095, 2) }] }).findReq 3
      = some { old with wedge := some (4095, 2) },
    pkt.flitsOut = 0 ∧ ({ pkt with flitsOut := 1 }).flitsOut ≠ 0 ∧ pkt.tries + 1 < 8,
    ({ pkt with waiting := false, tries := 7 }).tries < 8 ∧ ({ pkt with waiting := false, seq := 65535 }).seq < 65536,
    8 ≤ ({ pkt with waiting := false, tries := 8, opc := 0x72 }).tries,
    (9 : Node) ≠ pkt.dest] = true := by decide +kernel

/-- A marker at rate 0: of Beat `b`, and a Downbeat of master Bar `n`. -/
def mk (b : Nat) : Marker := ⟨true, 1, BitVec.ofNat 10 b, 8, 0⟩
def dn (n : Nat) : Marker := ⟨true, 2, 0, BitVec.ofNat 32 n, 0⟩

/-- `run` at a Beat. -/
def atBeat (n : Nat) : State := { run with bar := { run.bar with beatno := n } }

theorem witness_BeatsAndBudgets : allOf [
    run.bar.beatsrc = false ∧ run.gongDue = none,
    run.mode = .run ∧ run.completing = false ∧ run.bar.hold = false ∧ run.bar.retrain = false ∧ run.closing = none ∧
      markerDown (mk 9) run.bar.rate = false ∧ markerValid (mk 9) run.bar.rate = true,
    markerValid ({ mk 9 with crcGood := false }) run.bar.rate = false,
    (atBeat (2 ^ 48 - 1)).mode = .run,
    markerDown (dn 9) run.bar.rate = true,
    State.reset.completing = false ∧ State.reset.mode.timed = false,
    ({ run with mode := .freewheel }).mode = .freewheel ∧ ({ run with mode := .freewheel }).bar.hold = false,
    ({ atBeat 1023 with mode := .rest }).bar.beatno % 1024 = 1023 ∧ ({ atBeat 1023 with mode := .rest }).bar.retrain = false] = true := by
  decide +kernel

/-- `run` with Ring B joined and a measured offset. -/
def runB (valid : Bool) : State :=
  { run.setRing .b ringUp with bar := { run.bar with bvalid := valid, bOffset := 100, bLost := 2 } }

theorem witness_DownbeatsAlignRingTime : allOf [
    run.mode = .run ∧ run.completing = false ∧ run.gongDue = none ∧ run.bar.beatsrc = false ∧ run.bar.retrain = false ∧
      run.bar.rateNext = none ∧ run.closing = none ∧ markerDown (dn 8) run.bar.rate = true ∧
      run.bar.lastMbar = some 7 ∧ 1 ≤ ((dn 8).mbar - 7).toNat ∧ ((dn 8).mbar - 7).toNat < 2 ^ 31 ∧
      run.bar.lastDbBar ≤ run.bar.beatno / 1024 ∧ max (run.bar.lastDbBar + 1) (run.bar.beatno / 1024 + 1) < 2 ^ 38,
    ((dn (2 ^ 31 + 6)).mbar - 7).toNat < 2 ^ 31 ∧ max (4 + (2 ^ 31 - 1)) 5 < 2 ^ 38,
    markerDown (mk 8) run.bar.rate = false,
    ({ run with mode := .join }).mode = .join,
    (runB false).mode.onRing = true ∧ (runB false).ringB.joined = true ∧ markerDown (dn 8) (runB false).bar.rate = true ∧
      (runB false).bar.bvalid = false,
    (runB true).bar.bvalid = true ∧ (wrapSlots ((104 : BitVec 16).toInt - (100 : BitVec 16).toInt)).natAbs ≤ 4,
    ¬ (wrapSlots ((105 : BitVec 16).toInt - (100 : BitVec 16).toInt)).natAbs ≤ 4,
    run.ringB.joined = false,
    (runB true).mode.timed = true ∧ 2 ≤ (runB true).bar.bLost,
    2048 ≤ ({ run.bar with lost := 2048 }).lost ∧ run.bar.beatsrc = false ∧ run.ringA.carries = true ∧
      ({ run.gen with alertA := (1 : Node) }).alertA ≠ (0x1F : Node),
    ({ run.bar with lost := 2047 }).lost < 2048] = true := by decide +kernel

/-- `run` at a sample, write hold in force with `n` calm samples. -/
def hold_ (n : Nat) : State := { atBeat 5120 with pwr := { run.pwr with wrhold := true, wrholdNext := true, calmW := n } }

theorem witness_SensorSample : allOf [
    (List.replicate 16 (0 : BitVec 12)).length = 16 ∧ (List.replicate 11 (List.replicate 4 (0 : BitVec 12))).length = 11,
    run.sampleDue = false,
    (hold_ 15).mode.timed = true ∧ (hold_ 15).bar.beatno % 256 = 0 ∧ (hold_ 15).bar.hold = false ∧ (hold_ 15).calOnce 3 = true ∧ (hold_ 15).pwr.tempExcl = 0 ∧
      (List.finRange 11).all (fun d => (hold_ 15).pwr.fieldExcl[d] = 0) = true,
    420 < (421 : BitVec 12).toNat ∧ 1170 < (1171 : BitVec 12).toNat ∧ (380 : BitVec 12).toNat ≤ 380 ∧ 840 < (841 : BitVec 12).toInt,
    (hold_ 15).pwr.calmW = 15 ∧ (hold_ 14).pwr.calmW < 15] = true := by decide +kernel

/-- `run` at Beat 16 of a Bar with a scrub rate. -/
def scrub (rate acc cur : Nat) : State := { atBeat 5136 with ecc := { run.ecc with rate := rate, acc := acc, cur := cur } }

theorem witness_CalendarSteps : allOf [
    (scrub 1 0 0).mode.timed = true ∧ (scrub 1 0 0).bar.hold = false ∧ (scrub 1 0 0).bar.beatno % 1024 = 16 ∧
      (scrub 1 0 0).gen.dbg.getLsbD 2 = false ∧ (scrub 1 0 0).calOnce 5 = true ∧ (scrub 1 0 0).ecc.due = 0 ∧ 65534 + 1 * (scrub 1 65534 0).scrubFactor < 2 ^ 16,
    2 ^ 16 ≤ 65535 + 1 * (scrub 1 65535 0).scrubFactor ∧ (scrub 1 65535 0).entryAt 0 = false ∧ 0 < (scrub 1 65535 0).stk.tokMaint ∧
      (scrub 1 65535 (2 ^ 28 - 2)).ecc.cur + 1 < 2 ^ 28,
    (atBeat 5137).bar.beatno % 1024 ≠ 16,
    (atBeat (2 ^ 20)).mode.traffic = true ∧ 0 < (atBeat (2 ^ 20)).decaysDue ∧ (atBeat (2 ^ 20)).decaysDue < 2 ^ 29 ∧ (atBeat (2 ^ 20)).calOnce 8 = true ∧
      (atBeat (2 ^ 20)).tier.warm = true,
    (atBeat 1).decaysDue = 0,
    (atBeat 5000).bar.beatno / (1024 * 4096) = (atBeat 5000).stk.measure,
    (atBeat (1024 * 4096)).bar.beatno / (1024 * 4096) ≠ (atBeat (1024 * 4096)).stk.measure ∧ (atBeat (1024 * 4096)).stk.writes[0] = 0 ∧
      (List.finRange 11).all (fun d => (atBeat 0).stk.wear[d] ≤ (atBeat 0).rep.wearDie) = true] = true := by decide +kernel

/-! ### Witnesses: provisional writes, Deep and repair -/

/-- A held write of Kit 0 at kit address 128, accepted in the last Beat. -/
def ent0 : WEntry :=
  { ent := 4, kind := .data, payer := some 0, maint := false, rids := [3], kaddr := 128, chord := 2, data := List.replicate 64 7,
    slices := 0x3FF, pre := .have (some (zeros 64)), accepted := 4999, phase := .waiting, pulses := 0, first := 0,
    blocked := false, mask := BitVec.allOnes 64 }

/-- `run2` holding one write, Kit 1 sharing Kit 0's pages. -/
def held (f : WEntry → WEntry) : State :=
  let s := { withKit run2 1 with hold := [f ent0] }
  s.setKit 1 { s.kit 1 with wins := (s.kit 1).wins.set 0 (some { allWin with wr := false, srcKit := some 0 }), binds := [⟨1, 1, none⟩] }

/-- A READ of that chord by Kit 0 and by Kit 1. -/
def rd0 : Req := req 0x10 8 130
def rd1 : Req := { rd0 with ktag := 1 }

/-- What a READ beside a pending write asks of the state. -/
def besideWrite (rq : Req) (k o : Kit) (p : WEntry → Bool) (s : State) : Bool :=
  takenHas s rq fun j s1 => (j.kit = k ∧ (Instr.read rq).wf = true ∧ chordsOf (addrOf rq) rq.len.toNat = [128] ∧
      s1.findRead j.rid = none ∧ s1.mergeOf o 128 = none ∧ (s1.kit o).keylost = false : Bool) &&
    (has (s1.windowAt j.kit 128) fun w => (w.owner j.kit 128).1 = o ∧ (w.owner j.kit 128).2 = 128) &&
    (match s1.entriesOf o 128 with | [e] => (e.phase ≠ .merging : Bool) && p e | _ => false)

theorem witness_ReadersOfAPendingWrite : allOf [
    besideWrite rd0 0 0 (fun _ => (held id).priors = []) (held id),
    besideWrite rd0 0 0 (fun _ => true) { held id with priors := [(0, 128, .val (zeros 64))] },
    besideWrite rd1 1 0 (fun e => e.pre = .have (some (zeros 64))) (held id),
    besideWrite rd1 1 0 (fun e => e.pre = .have none) (held fun e => { e with pre := .have none })] = true := by decide +kernel

/-- The slices that fail a verify. -/
def badOf (s : State) (e : WEntry) (failing : Slices) : Slices :=
  (failing ||| s.silentMask e.chord.toNat) &&& e.slices &&& s.pulsable e.chord.toNat

/-- A pulsed entry after `n` pulses. -/
def pulsed (n : Nat) : State := { run2 with hold := [{ ent0 with phase := .pulsed 4998, pulses := n }] }

theorem witness_ChordVerify : allOf [
    reached 5001 (pulsed 1).bar.beatno = false ∧ (pulsed 1).knl.running = false ∧ (pulsed 1).waits = [] ∧ ent0.data.length = 64 ∧
      cellsWf (pulsed 1).mram = true,
    reached 5000 (pulsed 1).bar.beatno = true ∧ badOf (pulsed 1) ent0 0 = 0 ∧
      (List.range 10).all (fun r => !(pulsed 1).roleOut 2 r) = true ∧ (pulsed 1).fullMask 2 = 0x3FF ∧
      ((List.range 10).map fun r => (pulsed 1).rep.physAt r 2).Nodup,
    badOf (pulsed 6) ent0 1 ≠ 0 ∧ 6 < 7,
    badOf (pulsed 7) ent0 3 ≠ 0 ∧ 2 ≤ sliceCount (badOf (pulsed 7) ent0 3)] = true := by decide +kernel

theorem witness_SramErrors : allOf [
    ((engAt 0 id).eng 0).kit = 0 ∧ ((engAt 0 id).eng 0).slot = 0 ∧ ((engAt 0 id).eng 0).live = true,
    (held id).hold.any (fun e => e.pre != .notNeeded) = true,
    (State.sramMet ⟨.near 5 0, true⟩
      { run2 with near := [⟨5, 0, 0, 0, [(0, false, zeros 64), (1, false, zeros 64)], 0⟩] }).near.any
        (fun b => b.blk == 5 && b.lines.length == 1) = true,
    (State.sramMet ⟨.holdData 0, true⟩ { run2 with hold := [{ ent0 with ent := 0 }, { ent0 with ent := 1 }] }).hold.any
        (fun e => e.ent == 1) = true] = true := by decide +kernel

/-- A write of one chord that waits in intake. -/
def job0 : WriteJob :=
  { rid := 3, rq := wr1, kit := 0, todo := [⟨128, List.replicate 64 7, BitVec.allOnes 64⟩], credits := 1, open_ := 0,
    lastAccept := 0, lastOutcome := 0, recanted := 0, firstRecant := none, recantBeat := 0, cutAt := none, zeroed := [], replied := false, plain := false,
    falling := false }

/-- An open merge entry of Kit 0, opened in a Beat, with some bytes written. -/
def ment (opened : Nat) (mask : BitVec 64) : MEntry := ⟨0, 128, 2, List.replicate 64 7, mask, opened, [3], false⟩

/-- `run2` in which kit page 0 has only zero sectors. -/
def zeroPage : State := { run2 with pages := [{ page 0 (.main 0) with zero := 0xFFFF }] }

theorem witness_WriteAcceptance : allOf [
    ({ run2 with jobs := [job0] }).jobs = [job0] ∧ run2.locate 0 128 = .main 2 ∧ run2.merges = [] ∧
      run2.shareFits 0 (run2.chordCost 2) = true ∧ run2.entriesFree 1 = true ∧
      ({ run2 with jobs := [job0], inflight := [flying 3 wr1 .serving] }).awaits 3 = true ∧
      has (run2.findPage 0 (kpOf 128)) (fun p => p.frame.isSome && !p.zero.getLsbD (secOf 128).toNat) = true,
    (run2.setKit 0 { house with pshare := 9 }).shareFits 0 (run2.chordCost 2) = false,
    reached 5001 run2.bar.beatno = false ∧ ({ ent0 with pre := .due 5001 }).pre = .due 5001,
    reached 5000 zeroPage.bar.beatno = true ∧ zeroPage.stored 0 128 = .val (zeros 64),
    run2.stored 0 128 = .array 2 0 [] ∧ (run2.decodeOf 0 128 2).value.isSome = true,
    (run2.merge[(0 : Fin 64)] : Option MEntry) = none,
    reached (4993 + 8) run2.bar.beatno = false,
    reached (4992 + 8) run2.bar.beatno = true ∧ (ment 4992 (BitVec.allOnes 64)).mask = BitVec.allOnes 64,
    (ment 4992 1).mask ≠ BitVec.allOnes 64 ∧ zeroPage.hold = [] ∧ zeroPage.justOut = [] ∧ zeroPage.stored 0 128 = .val (zeros 64),
    ({ zeroPage with hold := [{ ent0 with phase := .merging }] }).rmwView { ent0 with phase := .merging } 0 = .val (zeros 64),
    ({ run2 with hold := [{ ent0 with phase := .merging }] }).rmwView { ent0 with phase := .merging } 0 = .array 2 0 [] ∧
      has (({ run2 with hold := [{ ent0 with phase := .merging }] }).kitToken 0) (fun t => (t.decodeOf 0 128 2).value.isSome) = true,
    ({ run2 with hold := [{ ent0 with phase := .merging }], ecc := { run2.ecc with markq := [2] } }).rmwView
      { ent0 with phase := .merging } 0 = .poison] = true := by decide +kernel

theorem witness_ChordCodeCorrectsOneSlice : allOf [
    (zeros 64).length = 64 ∧ (zeros 8).length = 8 ∧ 9 < 10] = true := by decide +kernel

/-- A promotion of kit page 1 into slot 0, one sector still to read. -/
def promo : Move :=
  { mkMove 0 1 .promote 0 with reads := 0x8000, entry := true }

/-- `run2` with that promotion and the sector in the map. -/
def promoting : State :=
  { run2 with moves := [promo], deep := { run2.deep with map := [⟨Config.firstDeep, 15, 0, 0⟩] } }

/-- A write-back of one sector of kit page 1 on die 3. -/
def wback : Move := { mkMove 0 1 (.writeBack false) Config.firstDeep with progs := 1 }
def programming : State :=
  { run2 with moves := [wback],
              deep := { run2.deep with dies := run2.deep.dies.set 3 { DeepDie.reset with busy := some (.program (some 0) [(0, 1, 0)] 0x6000000) } } }

theorem witness_NandWork : allOf [
    promoting.moves = [promo] ∧ promo.kind = .promote ∧ promo.entry = true ∧ promo.reads.getLsbD (15 : BitVec 4).toNat = true ∧
      has (promoting.findPage 0 1) (fun p => promoting.deep.find p.index 15 = some ⟨Config.firstDeep, 15, 0, 0⟩) = true,
    (2 : KPage) ≠ 1,
    (programming.deep.dies[(3 : Fin 4)]).busy = some (.program (some 0) [(0, 1, 0)] 0x6000000) ∧ programming.moves = [wback] ∧
      wback.kind = .writeBack false ∧ wback.progs = BitVec.ofNat 16 (2 ^ (0 : BitVec 4).toNat) ∧ cellsWf programming.deep.nand = true ∧
      (programming.deep.blk (0x6000000 / 4096)).retired = false,
    ((run2.deep.dies.set 0 { DeepDie.reset with busy := some (.erase 7) })[(0 : Fin 4)]).busy = some (.erase 7) ∧
      (run2.deep.blk 7).retired = false,
    (run2.deep.dies[(0 : Fin 4)]).busy = none] = true := by decide +kernel

/-- `run2` with a sector of kit page 1 waiting to be packed since a Beat. -/
def packing (b : Nat) : State :=
  { run2 with deep := { run2.deep with pack := [(0, 1, 0, b)], dies := run2.deep.dies.map fun d => { d with online := true } } }

/-- `run2` with an erase waiting on die 0. -/
def stalled (n : Nat) : State :=
  { run2 with deep := { run2.deep with queue := [.erase 7], dies := run2.deep.dies.set 0 { DeepDie.reset with stalls := n } } }

/-- `run` at Beat 64 of Bar 64 with blocks to be scanned. -/
def scanning (q : List Nat) : State := { atBeat (65536 + 64) with deep := { run.deep with scanQ := q } }

theorem witness_DeepHousekeeping : allOf [
    (packing 5000).closing = none ∧ elapsed 4745 (packing 4745).bar.beatno < (packing 4745).deep.packWait * 16,
    (packing 4744).deep.packWait * 16 ≤ elapsed 4744 (packing 4744).bar.beatno ∧ (packing 4744).deep.nextPlace.isSome = true,
    (stalled 2).waitsOn 0 = true ∧ ((stalled 1).deep.dies[(0 : Fin 4)]).stalls < 2 ∧ 2 ≤ ((stalled 2).deep.dies[(0 : Fin 4)]).stalls ∧
      ((stalled 2).deep.dies[(0 : Fin 4)]).failed = false,
    run.waitsOn 3 = false,
    run.deep.floor ≤ run.deep.reserve,
    run.deep.muted = false ∧ ({ run.deep with reserve := 1023 }).reserve < ({ run.deep with reserve := 1023 }).floor,
    ({ run with mode := .join }).mode = .join ∧ run.mode ≠ .join,
    (scanning []).mode = .run ∧ (scanning []).bar.beatno / 1024 % 64 = 0 ∧ (scanning []).bar.beatno % 1024 = 64,
    (scanning [5, 5]).deep.scanQ = [5, 5] ∧ (scanning [5, 5, 5]).deep.scanQ = [5, 5, 5],
    ((32767 : BitVec 15).toNat ∈ (scanning [32767]).deep.scanQ) ∧ (scanning [32767]).deep.refreshBer ≤ (64 : BitVec 8).toNat ∧
      ((scanning [32767]).deep.blk 32767).retired = false] = true := by decide +kernel

/-- PARAM of REPAIR_APPLY (Table 7.11). -/
def ap (action die bank x y : Nat) : Nat := action + 2 ^ 8 * die + 2 ^ 16 * bank + 2 ^ 24 * x + 2 ^ 32 * y

/-- A transfer of a kind in a phase. -/
def xfer (kind : UnitKind) (phase : Nat) : Transfer :=
  { kind := kind, die := 3, bank := 5, row := 7, lane := 0, role := 15, resilver := false, phase := phase, cursor := 0, after := 0,
    tries := 0, start := 0, heldBeats := 0, late := [] }

/-- `run` with other repair state. -/
def reps (f : Rep → Rep) : State := { run with rep := f run.rep }

theorem witness_RepairRequests : allOf [
    takenHas run (req 0x51 16 1) fun _ s1 => (Instr.repairQuery (req 0x51 16 1)).wf && (s1.rep.recs = [] : Bool),
    takenHas (reps fun r => { r with faults := [⟨4, 3, 5, 7, 0, 0, some (zeros 16)⟩] }) (req 0x51 4096 2) fun _ s1 =>
      s1.rep.faults.all fun f => match f.raw with | some b => b.length == 16 | none => true,
    takenHas run (req 0x52 0 (ap 1 10 31 255 255)) fun _ s1 => (Instr.repairApplySpareRow (req 0x52 0 (ap 1 10 31 255 255))).wf &&
      (s1.rep.recs = [] ∧ s1.rep.runs = [] ∧ s1.rep.map < 120 : Bool),
    takenHas run (req 0x52 0 (ap 1 3 5 7 0)) fun _ s1 => s1.rep.usedRows 3 5 < 64 ∧ s1.rep.noLive 3 5 = false,
    takenHas (reps fun r => { r with recs := [⟨4, 3, 5, 7, 0, 0, none⟩] }) (req 0x52 0 (ap 1 3 5 7 0)) fun _ s1 =>
      s1.rep.recs.any fun f => f.kind == 4 && f.die == 3 && f.bank == 5 && f.row == 7,
    takenHas (reps fun r => { r with runs := [xfer .row 1] }) (req 0x52 0 (ap 1 3 5 7 0)) fun _ s1 => s1.rep.recs = [],
    takenHas (reps fun r => { r with map := 120 }) (req 0x52 0 (ap 1 3 5 7 0)) fun _ s1 => 120 ≤ s1.rep.map,
    takenHas run (req 0x52 0 (ap 2 3 5 15 0)) fun _ s1 => (Instr.repairApplySpareColumn (req 0x52 0 (ap 2 3 5 15 0))).wf &&
      (s1.rep.colUsed 3 5 15 = false ∧ s1.rep.noLive 3 5 = false : Bool),
    takenHas (reps fun r => { r with recs := [⟨5, 3, 5, 0, 15, 0, none⟩] }) (req 0x52 0 (ap 2 3 5 15 0)) fun _ s1 =>
      s1.rep.recs.any fun f => f.kind == 5 && f.colgrp == 15 && f.lane == s1.rep.faultLane 3 5 15,
    takenHas (reps fun r => { r with runs := [xfer .column 1] }) (req 0x52 0 (ap 2 3 5 15 0)) fun _ s1 => s1.rep.recs = [],
    takenHas (reps fun r => { r with colsUsed := [(3, 5, 15)] }) (req 0x52 0 (ap 2 3 5 15 0)) fun _ s1 => s1.rep.colUsed 3 5 15,
    takenHas run (req 0x52 0 (ap 3 9 0 0 0)) fun _ s1 => (Instr.repairApplySpareDie (req 0x52 0 (ap 3 9 0 0 0))).wf &&
      (s1.rep.spare = some 10 ∧ s1.rep.map < 128 : Bool),
    takenHas (reps fun r => { r with runs := [xfer .die 1] }) (req 0x52 0 (ap 3 9 0 0 0)) fun _ s1 => s1.rep.runs = [xfer .die 1],
    takenHas (reps fun r => { r with spare := none }) (req 0x52 0 (ap 3 9 0 0 0)) fun _ s1 => s1.rep.spare = none,
    takenHas run (req 0x52 0 (ap 4 0 15 0 0)) fun _ s1 => (Instr.repairApplySpareLane (req 0x52 0 (ap 4 0 15 0 0))).wf &&
      ((s1.ring .a).mapped 15 = false ∧ s1.laneRuns = false ∧ ((s1.ring .a).rx[0]).active = false : Bool),
    takenHas (run.setRing .a { ringUp with rx := ringUp.rx.set 0 ⟨some 15, true⟩ }) (req 0x52 0 (ap 4 0 15 0 0)) fun _ s1 =>
      (s1.ring .a).mapped 15,
    takenHas (run.setRing .a { ringUp with rx := ringUp.rx.set 0 ⟨some 15, true⟩ }) (req 0x52 0 (ap 5 3 0 15 0)) fun _ s1 =>
      (Instr.repairApplyLaneRejoin (req 0x52 0 (ap 5 3 0 15 0))).wf && (s1.ring .a).mapped 15 && !s1.laneRuns,
    takenHas run (req 0x52 0 (ap 5 3 1 15 0)) fun _ s1 => (s1.ring .b).mapped 15 = false,
    takenHas run (req 0x52 0 (ap 5 2 10 31 0)) fun _ s1 => (Instr.repairApplyShadowRejoin (req 0x52 0 (ap 5 2 10 31 0))).wf &&
      !s1.rep.bankOut 10 31,
    takenHas (reps fun r => { r with banks := r.banks.set 3 0x20 }) (req 0x52 0 (ap 5 2 3 5 0)) fun _ s1 =>
      s1.rep.bankOut 3 5 = true ∧ s1.running .bank = false ∧ s1.rep.map < 128,
    takenHas run (req 0x52 0 (ap 5 1 3 0 0)) fun _ s1 => s1.rep.serves 3 = true ∧ s1.rep.rolesOut &&& s1.rep.rolesOf 3 = 0,
    takenHas (reps fun r => { r with rolesOut := 8 }) (req 0x52 0 (ap 5 1 3 0 0)) fun _ s1 =>
      s1.rep.rolesOut &&& s1.rep.rolesOf 3 ≠ 0 ∧ s1.running .die = false,
    takenHas (reps fun r => { r with rolesOut := 8, runs := [xfer .die 1] }) (req 0x52 0 (ap 5 1 3 0 0)) fun _ s1 =>
      s1.rep.rolesOut &&& s1.rep.rolesOf 3 ≠ 0 ∧ s1.running .die = true] = true := by decide +kernel

/-- A repair that waits for its Downbeat. -/
def atDb (x : Transfer) : State := { atBeat 5120 with rep := { run.rep with runs := [x] } }

theorem witness_UnitsGoOutAndReturn : allOf [
    run.rep.rolesOf 9 ≠ 0 ∧ run.rep.rolesOut &&& run.rep.rolesOf 9 = 0,
    (reps fun r => { r with rolesOut := 8 }).rep.rolesOut &&& run.rep.rolesOf 3 ≠ 0,
    run.rep.rolesOf 10 = 0 ∧ run.rep.spare = some 10 ∧ (reps fun r => { r with spare := none }).rep.spare ≠ some 10,
    run.rep.bankOut 10 31 = false ∧ (reps fun r => { r with banks := r.banks.set 10 0x80000000 }).rep.bankOut 10 31 = true,
    (xfer .row 3).phase < 4,
    (atDb (xfer .row 4)).rep.runs = [xfer .row 4] ∧ (atDb (xfer .row 4)).atDownbeat = true ∧ (xfer .row 4).resilver = false ∧
      ({ atDb (xfer .row 4) with mram := [(sliceAddr 3 (5 * 2 ^ 23 + 7 * 128), 1)] }).memWf = true ∧
      (xfer .row 4).touches (atDb (xfer .row 4)).rep (5 * 2 ^ 23 + 7 * 128) = true ∧ run.rep.phys 3 = 3 ∧
      (List.range 10).all (fun q => run.rep.phys q != 3 || q == 3) = true ∧
      sliceAddr 3 (5 * 2 ^ 23 + 7 * 128) % 2 ^ 31 / 8 = 5 * 2 ^ 23 + 7 * 128,
    (xfer .die 4).role = 15 ∧ (xfer .die 4).die = (3 : Fin 11).val,
    ({ xfer .die 4 with resilver := true, role := 9, die := 10 }).die = (10 : Fin 11).val,
    run.running .row = false ∧ UnitKind.row ≠ .lane,
    (xfer .row 3).tries < 2 ∧ run.rep.usedRows 3 5 + 1 < 64 ∧ 2 ≤ ({ xfer .row 3 with tries := 2 }).tries,
    ({ xfer .die 3 with resilver := true }).resilver = true ∧ run.rep.runs = []] = true := by decide +kernel

/-- `run` at a Downbeat in Bar 5 with a changed Ring A. -/
def lanes (f : RingSt → RingSt) : State := (atBeat 5120).setRing .a (f ringUp)

theorem witness_LanesAreReplaced : allOf [
    ((lanes fun x => { x with remaps := [⟨15, false, 4096, 0⟩] }).ring .a).remaps = [⟨15, false, 4096, 0⟩] ∧
      1024 ≤ elapsed 4096 (lanes id).bar.beatno ∧ (ringUp.rx[1]).active = false ∧ ringUp.loopBad.getLsbD 17 = false,
    elapsed 4097 (lanes id).bar.beatno < 1024 ∧ ringUp.remaps = [],
    ((lanes fun x => { x with rx := x.rx.set 0 ⟨some 15, true⟩, rejoin := some (15, 0) }).ring .a).rx[0] = ⟨some 15, true⟩ ∧
      (lanes id).atDownbeat = true ∧ barReached ((0 + 5) % 2 ^ 38) ((lanes id).bar.beatno / 1024) = true,
    barReached ((0 + run.rep.lanev) % 2 ^ 38) ((lanes id).bar.beatno / 1024) = false,
    ringUp.swOpen = true] = true := by decide +kernel

/-! ### Witnesses: ring control, modes, power and reset -/

/-- `run` whose Ring A has other fields. -/
def ringA (f : RingSt → RingSt) : State := run.setRing .a (f ringUp)

theorem witness_EnumerationAndRoster : allOf [
    run.mode.onRing = true ∧ run.completing = false ∧ ringUp.swOpen = true ∧ run.bar.beatsrc = false ∧
      ([1, 2] : List Node).length ≤ 30 ∧ ringUp.enumSeen = false ∧ (29 : Node).toNat < 30 ∧ 30 ≤ (30 : Node).toNat ∧
      ringUp.hasId = true,
    ((ringA fun x => { x with enumSeen := true, epoch := 3 }).ring .a).epoch = 3,
    (List.replicate 8 (1 : Node)).length = 8 ∧ ({ run.bar with beatsrc := true }).rateNext = none,
    State.reset.ringA.swOpen = false,
    ((ringA fun x => { x with enumSeen := true, epoch := 3, rebindDue := true, freshDue := true }).inflight.map fun f => f.rid).Nodup
      ∧ ([1, 2] : List Node)[0]? = some 1 ∧ run.bar.beatsrc = false,
    ([1, 2] : List Node)[1]? = some 2 ∧ ({ run.bar with beatsrc := true }).beatsrc = true,
    ringUp.epoch ≠ 3 ∧ ringUp.rebindDue = true ∧ ({ ringUp with rebindDue := false }).rebindDue = false,
    ((ringA fun x => { x with freshDue := true }).ring .a).freshDue = true ∧ ringUp.rosterIds ≠ [] ∧ run.hold = [] ∧
      run.merges = [] ∧ run.chordq = [] ∧ ((withKit run 1).kit 1).live = true,
    ringUp.freshDue = false] = true := by decide +kernel

/-- A device in Join, Ring A trained and still closed. -/
def joining : State := { State.reset.setRing .a { RingSt.reset with trained := true } with mode := .join }

theorem witness_RingJoinsLeavesAndRates : allOf [
    (4 : BitVec 3).toNat ≤ 4 ∧ ({ State.reset with mode := .join }).mode = .join ∧ State.reset.completing = false ∧
      State.reset.ringA.swOpen = false ∧ State.reset.ringA.trained = false ∧ State.reset.ringA.joined = false,
    run.ringA.trained = true,
    run.mode.onRing = true ∧ run.ringA.joinSeen ≠ some (1, 8) ∧ run.ringA.swOpen = true ∧ run.bar.beatsrc = false,
    ({ run.bar with beatsrc := true }).rateNext = none ∧ run.ringA.mwin ≠ some (1, 8),
    joining.mode.onRing = true ∧ 1 ≤ (1 : BitVec 10).toNat ∧ (1021 : BitVec 10).toNat ≤ 1021 ∧ joining.ringA.joinSeen ≠ some (1, 8) ∧
      joining.ringA.trained = true ∧ joining.ringA.swOpen = false ∧ joining.ringA.clockBad = false ∧ joining.pins.vstby = true,
    (0 : BitVec 10).toNat = 0 ∧ 1021 < (1022 : BitVec 10).toNat,
    run.ringA.leaveSeen ≠ some (1, 8) ∧ run.ringA.hasId = true,
    (1 : Node) ≠ run.ringA.nodeId ∧ run.ringA.rosterIds = [1, run.ringA.nodeId] ∧ run.bar.lastMbar = some 7,
    ((ringA fun x => { x with leaveReq := some 0, leaveTo := 4 }).ring .a).leaveTo
      ≤ ((run.bar.beatno / 1024 + 2 ^ 38 - 0) % 2 ^ 38) ∧ run.hold = [] ∧ run.merges = [],
    ((run.bar.beatno / 1024 + 2 ^ 38 - 0) % 2 ^ 38) < ((ringA fun x => { x with leaveReq := some 0, leaveTo := 5 }).ring .a).leaveTo,
    run.mode ≠ .join,
    run.bar.rateNext = none ∧ run.bar.beatsrc = false,
    run.completing = false ∧ run.gongDue = none,
    ({ run.bar with rateNext := some (4, 9), retrain := true }).rateNext = some ((4 : Nat), (9 : BitVec 32)) ∧ markerDown ⟨true, 2, 0, 9, 4⟩ 4 = true ∧
      run.mode.timed = true,
    markerDown (dn 9) 4 = false] = true := by decide +kernel

/-- `run` in another mode. -/
def inMode (m : Mode) : State := { run with mode := m }

/-- A mode of AtOnce. -/
def atOnce (s : State) : Bool :=
  (s.mode = .fill ∨ s.mode = .join ∨ s.mode = .morningToll ∨ s.mode = .eveningToll ∨ s.mode = .knelled) ∧
    s.completing = false ∧ s.knl.running = false

/-- `run` in a completion with these triggers. -/
def completing (ts : List Trigger) : State := { run with completing := true, triggers := ts }

/-- A broadcast GONG of the house kit's binding. -/
def bcastGong : Req := { req 0x7F 0 0x474F4E47 with dnode := 31 }

theorem witness_PowerResetAndTriggers : allOf [
    (inMode .off).mode = .off ∧ (inMode .hibernate).mode = .hibernate ∧ (inMode .rest).mode = .rest,
    State.reset.mode = .held ∧ State.reset.pins.vstby = true,
    atOnce (inMode .fill) && atOnce (inMode .join) && atOnce (inMode .morningToll) && atOnce (inMode .eveningToll) && atOnce (inMode .knelled),
    run.mode.timed = true ∧ run.completing = false ∧ run.knl.running = false ∧ run.merges = [],
    run.mode ≠ .rest ∧ run.mode ≠ .hibernate,
    (completing [.pwrgood, .vstby]).completing = true ∧ (completing [.pwrgood, .vstby]).knl.running = false ∧
      Trigger.vstby ∈ (completing [.pwrgood, .vstby]).triggers,
    Trigger.vstby ∉ (completing [.pwrgood, .i3c]).triggers ∧ Trigger.pwrgood ∈ (completing [.pwrgood, .i3c]).triggers,
    Trigger.pwrgood ∉ (completing [.resetN]).triggers ∧ Trigger.resetN ∈ (completing [.resetN]).triggers,
    (completing [.gong]).triggers = [.gong] ∧ (completing [.i3c]).triggers = [.i3c],
    takenHas run (req 0x7F 0 0x474F4E47) fun _ _ => (Instr.gong (req 0x7F 0 0x474F4E47) []).wf = true ∧ run.gongDue = none ∧
      (req 0x7F 0 0x474F4E47).dnode ≠ 31,
    (Instr.gong bcastGong []).wf = true ∧ bcastGong.dnode = 31 ∧ run.heedsGong bcastGong = true,
    run.heedsGong { bcastGong with ktag := 3 } = false,
    ({ run with gongDue := some (3, []) }).gongDue = some (3, []) ∧ run.replies = []] = true := by decide +kernel

/-- A Morning Toll that finds nothing. -/
def morning : MorningFind :=
  { fails := [], fatal := false, coreUsable := true, durationUs := 0, dieIdFail := 0, nandIdFail := 0, laneFailA := 0,
    laneFailB := 0, contPassA := 0, contPassB := 0, contTestedA := 0, contTestedB := 0, eyeA := List.replicate 19 (0, 0),
    eyeB := List.replicate 19 (0, 0), tempExcluded := 0, fieldExcl := List.replicate 11 0, repairMapBad := false, nearRowFails := 0 }

/-- A failure of the checker part. -/
def chk : TollFail := ⟨0x06, 0, 0, 0, 0, 0, 0, none, 9⟩

/-- A Fill that finds all good. -/
def filled : FillFind := ⟨true, true, 7, 0xFFFF, 0xFFFF, true⟩

theorem witness_FromTollToRun : allOf [
    (Instr.morningTollDone morning).wf = true ∧ (Instr.morningTollDone { morning with fatal := true, fails := [chk] }).wf = true ∧
      (inMode .morningToll).mode = .morningToll ∧ run.completing = false,
    ({ morning with tempExcluded := 0xFFFF }).tempExcluded = (0xFFFF : BitVec 16),
    (inMode .fill).toll.fatal = none ∧ (inMode .fill).knl.due = [] ∧ (inMode .fill).bel.recAbsent = [],
    ({ filled with patchGood := false }).patchPresent = true ∧ (run.kit 0).live = true ∧ (run.kit 0).key.present = true ∧
      ({ filled with keyA := 0, keyB := 0 }).keyA.getLsbD (0 : Kit).val = false,
    filled.rootWrap = true ∧ filled.keyA.getLsbD (0 : Kit).val = true ∧ (run.kit 0).key.storedA = true,
    ({ run.bar with beatsrc := true }).beatsrc = true ∧ run.ringA.clockBad = false,
    ({ run.toll with fatal := some chk }).fatal = some chk ∧ run.toll.coreOk = true ∧
      ({ run.toll with coreOk := false }).coreOk = false,
    joining.tier.snapDone = false ∧ joining.ringA.trained = true ∧
      ({ joining.tier with snapshot := some ([(0, 0, 9)], 5), snapToll := true }).snapshot = some ([((0 : Kit), (0 : KPage), 9)], 5) ∧
      ({ joining.tier with snapToll := true }).snapToll = true ∧ (true && joining.tier.snapToll) = false,
    run.tier.snapshot = none,
    (inMode .join).ringA.joined = true ∧ ({ run.deep with ready := true }).ready = true ∧ markerDown (dn 9) run.bar.rate = true ∧
      State.reset.bar.counted = false ∧ joining.tier.snapshot = none ∧ joining.bar.beatsrc = false ∧ joining.completing = false,
    run.mode ≠ .join] = true := by decide +kernel

/-- Engine 0 running in Run. -/
def engRun : State := engAt 0 id

/-- A CLOSE in progress that has asked to leave. -/
def clos : CloseJob := ⟨3, req 0x60 0 2, false, true, none, true, true, 4000⟩

/-- An Evening Toll that finds nothing. -/
def evening : EveningFind := ⟨[], false, 0, List.replicate 11 0⟩

theorem witness_RestAndOrderlyLeave : allOf [
    takenHas run (req 0x61 0 0) fun _ s1 => (Instr.restEnter (req 0x61 0 0)).wf = true ∧ s1.merges = [] ∧ s1.mode ≠ .rest ∧
      s1.closing = none ∧ (List.finRange 8).all (fun e => !(s1.eng e).live) = true,
    takenHas engRun (req 0x61 0 0) fun _ s1 => s1.mode ≠ .rest ∧ s1.closing = none ∧ (s1.eng 0).live = true,
    takenHas rest (req 0x61 0 0) fun _ s1 => s1.mode = .rest,
    ({ atBeat 5120 with restDue := true }).restDue = true ∧ (atBeat 5120).mode.traffic = true ∧ (atBeat 5120).bar.beatno % 1024 = 0 ∧
      (atBeat 5120).bar.barMarked = true ∧ (atBeat 5120).provisionalLeft = false ∧ run.completing = false,
    (held id).provisionalLeft = true,
    run.restDue = false ∧ run.bar.beatno % 1024 ≠ 0,
    ({ rest.gen with waking := true, awake := true }).waking = true ∧ rest.ringA.swOpen = true ∧ markerDown (dn 9) rest.bar.rate = true ∧ rest.gongDue = none,
    rest.gen.waking = false,
    (rest.setRing .a RingSt.reset).ringA.swOpen = false ∧ markerValid (mk 9) (mk 9).rate.toNat = true,
    ({ (atBeat 6143).bar with fwBars := 256 }).beatno % 1024 = 1023 ∧ 256 ≤ ({ run.bar with fwBars := 256 }).fwBars ∧
      (inMode .freewheel).mode = .freewheel,
    ({ run.bar with fwBars := 255 }).fwBars < 256,
    takenHas run (req 0x60 0 2) fun j s1 => (Instr.close (req 0x60 0 2)).wf = true ∧ s1.closing = none ∧ s1.restDue = false ∧
      pb (req 0x60 0 2) 8 % 2 = 0 ∧
      s1.hold = [] ∧ s1.merges = [] ∧ s1.jobs = [] ∧ s1.tier.splitReq = s1.tier.split ∧ s1.inflight.all (fun f => f.rid = j.rid) = true ∧
      s1.inflight.any (fun f => f.rid = j.rid) = true,
    takenHas { run with restDue := true } (req 0x60 0 2) fun _ s1 => s1.closing = none ∧ s1.restDue = true,
    takenHas { run with closing := some clos, inflight := [flying 7 (req 0x60 0 2) .ready] } (req 0x60 0 2) fun _ s1 => s1.closing ≠ none,
    (Instr.eveningToll evening).wf = true ∧ clos.leaving = true ∧ State.reset.ringA.swOpen = false ∧ State.reset.ringB.swOpen = false ∧
      run.pwr.wrhold = false ∧ run.mode.timed = true,
    ({ clos with leaving := false }).leaving = false ∧ run.ringA.swOpen = true,
    (inMode .eveningToll).mode = .eveningToll ∧ run.knl.due = [] ∧ run.toll.recs = [],
    run.mode ≠ .eveningToll] = true := by decide +kernel

/-- A PING of two bytes over I3C. -/
def i3cPing : List Byte :=
  let b := leBytes 16 (hdrOf (req 1 2 0)).toNat ++ [7, 8]
  b ++ leBytes 4 (crc32c b).toNat

/-- A packet that waits to be read. -/
def unread : Packet := ⟨.i3c, 0, [], 0, 0⟩

theorem witness_SidebandTargets : allOf [
    State.reset.mode = .held ∧ State.reset.pins.pwrgood = true ∧ State.reset.i3c.dyn = none ∧ State.reset.i3c.busy = false ∧
      State.reset.i3c.unread = none ∧ State.reset.completing = false ∧
      (0x35 : BitVec 7) ≠ (0x34 : BitVec 7) + State.reset.pins.sbAddr.setWidth 7,
    (inMode .off).mode = .off ∧ ({ run.i3c with dyn := some (9 : BitVec 7) }).dyn ≠ (none : Option (BitVec 7)),
    (zeros 15).length < 16,
    20 ≤ i3cPing.length ∧ i3cPing.length = 20 + (reqOfBytes (i3cPing.take 16) .i3c 0).len.toNat ∧
      (reqOfBytes (i3cPing.take 16) .i3c 0).opc = 0x01 ∧
      leBytes 4 (crc32c (i3cPing.take (i3cPing.length - 4))).toNat = i3cPing.drop (i3cPing.length - 4),
    takenHas { run with i3c := { run.i3c with busy := true } }
      { reqOfBytes (i3cPing.take 16) .i3c 0 with payload := (i3cPing.take (i3cPing.length - 4)).drop 16 } fun _ _ => true,
    ({ run.i3c with busy := true }).busy = true,
    ({ run.i3c with unread := some unread }).unread = some unread ∧ 20 + unread.payload.length ≤ 20 ∧ 19 < 20 + unread.payload.length,
    State.reset.bel.testSeal = false ∧ ({ run.bel with testSeal := true }).testSeal = true,
    run.mode ≠ .held ∧ TapInstr.extest ≠ .idcode ∧ TapInstr.extest ≠ .samplePreload ∧ TapInstr.extest ≠ .bypass,
    run.pins.rails &&& ~~~ (0x1F : BitVec 6) ≠ 0 ∧ run.pins.rails &&& ~~~ (0x3F : BitVec 6) = 0 ∧ run.pins.pwrgood = true] = true := by
  decide +kernel

/-! ### Witnesses: the Knell, the Belfry, Tally and the whole machine -/

/-- A summary of a first cause. -/
def summ : Summary := ⟨(7, 0), 1, 5000, .run, false, 8, 0, 0, 0, zeros 512⟩

/-- `run` with Knell state. -/
def knl (f : Knl → Knl) : State := { run with knl := f run.knl }

theorem witness_KnellSequence : allOf [
    run.mode = .run ∧ run.knl.running = false ∧ run.completing = false ∧ (knl fun x => { x with due := [(0x05, 9)] }).knl.due = [(0x05, 9)] ∧
      (KnellCause.logmain, 0x05) ∈ [(KnellCause.toll, 0x01), (.chkfail, 0x02), (.metafail, 0x03), (.logmain, 0x05)],
    run.knl.due = [],
    (knl fun x => { x with running := true, summary := some summ }).knl.summary = some summ ∧ summ.cause.2 = 0,
    (completing [.i3c]).completing = true ∧ (completing [.i3c]).mode = .run,
    State.reset.mode = .held ∧ (inMode .knelled).mode = .knelled,
    (knl fun x => { x with running := true }).knl.running = true,
    ({ knl (fun x => { x with running := true, summary := some summ }) with completing := true }).knl.recLeft = [] ∧ run.hold = [],
    (knl fun x => { x with recLeft := [(false, 0)] }).knl.recLeft ≠ [],
    takenHas run (req 0x5A 512 (2 ^ 40)) fun _ s1 => (Instr.knellRead (req 0x5A 512 (2 ^ 40))).wf = true ∧
      pb (req 0x5A 512 (2 ^ 40)) 13 = 1 ∧ s1.knl.summary = none,
    takenHas (knl fun x => { x with seq := 1, summary := some summ }) (req 0x5A 512 (2 ^ 40)) fun _ s1 => s1.knl.summary = some summ,
    takenHas run (req 0x5A 64 (262144 - 64)) fun _ s1 => pb (req 0x5A 64 (262144 - 64)) 13 ≠ 1 ∧ s1.knl.seq = 0 ∧ s1.knl.summary = none,
    takenHas (knl fun x => { x with seq := 1, summary := some summ }) (req 0x5A 64 (2 ^ 32 + 262144 - 64)) fun _ s1 =>
      has (s1.decodeAt (Config.knellBase + Config.knellCopyChords + 4095)).value (fun d => d.length = 64)] = true := by decide +kernel

/-- A ring request still awaits its reply. -/
def awaits (s : State) (rid : Nat) : Bool := has (s.findReq rid) fun f => f.stage ≠ .replied

/-- A state outside ring time: Beats do not pass. -/
def unpaced (s : State) : State := { s with bar := { s.bar with hold := true } }

/-- A BELFRY_WRITE of `n` bytes at an address, at the port. -/
def belWrite (a n : Nat) : State :=
  let rq := req 0x49 n a (List.replicate n 9)
  { run with inflight := [flying 3 rq .serving], bel := { run.bel with port := [.write 3], jobs := [⟨3, rq, 0, 0, false⟩] } }

theorem witness_BelfryRequestsAndChunks : allOf [
    run.belPaced = true ∧ (unpaced run).belPaced = false ∧ run.bel.run = none ∧ run.belActive = true ∧ (unpaced run).belActive = true,
    takenHas run (req 0x48 16 0xFFF0) fun j s1 => (Instr.belfryRead (req 0x48 16 0xFFF0)).wf && (s1.bel.port = [] : Bool) && awaits s1 j.rid,
    takenHas (belWrite 0x8000 40) (req 0x48 16 0) fun _ s1 => s1.bel.port = [.write 3],
    [run, unpaced run].all fun s => takenHas s (req 0x4A 0 (0 + 256 * 191 + 65536 * 1)) fun j s1 =>
      (Instr.belfrySealPages (req 0x4A 0 (256 * 191 + 65536))).wf && (s1.bel.port = [] : Bool) && awaits s1 j.rid,
    [run, unpaced run].all fun s => takenHas s (req 0x4A 0 (1 + 2 ^ 32 * 0x5345414C)) fun j s1 =>
      (Instr.belfrySealTest (req 0x4A 0 (1 + 2 ^ 32 * 0x5345414C))).wf && (s1.bel.port = [] : Bool) && awaits s1 j.rid,
    takenHas run (req 0x49 0 0x8000) fun _ _ => (Instr.belfryWrite (req 0x49 0 0x8000)).wf,
    takenHas run (req 0x49 2 0xBFFE [1, 2]) fun _ s1 => (Instr.belfryWrite (req 0x49 2 0xBFFE [1, 2])).wf && (s1.bel.port = [] : Bool),
    (belWrite 0x8000 40).belActive = true ∧ cellsWf (belWrite 0x8000 40).bel.mem = true ∧ (belWrite 0x8000 40).belPaced = true ∧
      (belWrite 0x8000 40).bel.writable (0x8000 / 256) = true ∧ (unpaced (belWrite 0x8000 40)).belPaced = false ∧
      0 + (belWrite 0x8000 40).bel.chunkLen 0x8000 40 < 40 ∧ (belWrite 0x8000 40).bel.writable ((0x8000 + 32) / 256) = true,
    0 + (belWrite 0xBFE0 32).bel.chunkLen 0xBFE0 32 = 32 ∧ awaits (belWrite 0xBFE0 32) 3 = true,
    (belWrite 0xC000 32).bel.writable (0xC000 / 256) = false ∧ awaits (belWrite 0xC000 32) 3 = true,
    run.bel.port = [],
    ({ run with bel := { run.bel with run := some ⟨[⟨false, false, .data 0x8000 [1, 2], none⟩], 9⟩ } }).belPaced = true ∧
      cellsWf run.bel.mem = true] = true := by decide +kernel

/-- `run` with a record queued. -/
def recs (r : RecId) (mem : List Host.Cell) : State := { run with bel := { run.bel with recq := [r], mem := mem } }

/-- One event record that waits. -/
def logged : LogRec := ⟨0x0701, false, 5000, 0, none⟩

/-- `run` with that record queued. -/
def logging (deg : Bool) : State :=
  { run with bel := { run.bel with logq := [logged], shadowCopy := some (0, zeros 64) }, gen := { run.gen with logdeg := deg },
             stk := { run.stk with left := 100 } }

/-- `run` at Beat 32 of a Bar in the turn of a page of the Belfry. -/
def turnOf (page : Nat) : State := atBeat (16 * page * 1024 + 32)

theorem witness_BelfryRecordsAndLogs : allOf [
    cellsWf (recs .scrub []).bel.mem = true ∧ (recs .scrub []).belFree = true ∧ (recs .scrub []).belPaced = true ∧
      (unpaced (recs .scrub [])).belFree = true ∧ (unpaced (recs .scrub [])).belPaced = false ∧ RecId.scrub ≠ .key 3 ∧
      ((recs (.key 3) []).kit 3).wipe ≠ .under,
    run.bel.recq.head? ≠ some .scrub,
    recGood (run.bel.copyOf (.recant 0) false) = true ∧ run.bel.copyOf (.recant 0) true = run.bel.copyOf (.recant 0) false,
    recGood ((recs .scrub [(193 * 256, 1)]).bel.copyOf (.recant 0) false) = true ∧
      recGood ((recs .scrub [(193 * 256, 1)]).bel.copyOf (.recant 0) true) = false ∧ run.bel.recLater = [],
    recGood ((recs .scrub [(192 * 256, 1), (193 * 256, 1)]).bel.copyOf (.recant 0) false) = false ∧
      recGood ((recs .scrub [(192 * 256, 1), (193 * 256, 1)]).bel.copyOf (.recant 0) true) = false ∧ run.bel.recAbsent = [],
    (logging false).bel.logq = [logged] ∧ (logging false).bel.lostNow = 0 ∧ logged.rid = none ∧ (logging false).logDone = false ∧
      (logging false).belFree = true ∧ (logging false).belPaced = true ∧ (unpaced (logging false)).belFree = true ∧
      (unpaced (logging false)).belPaced = false,
    (logging true).gen.logdeg = true ∧ (logging true).mode.traffic = true ∧
      (logging true).maintFits ((logging true).chordCost (Config.shadowBase + (logging true).bel.shadowHead / 4)) = true ∧
      (logging true).bel.shadowCopy = some ((logging true).bel.shadowHead / 4, zeros 64),
    (logging false).gen.logdeg = false,
    (turnOf 128).bar.beatno / 1024 % 16 = 0 ∧ (turnOf 128).bar.beatno % 1024 = 32 ∧ (turnOf 128).bel.refreshDue = none ∧
      ({ (turnOf 128).bel with refreshDue := some 128 }).refreshDue = some 128 ∧ (turnOf 128).belFree = true ∧
      (turnOf 128).belPaced = true ∧ (0 : BitVec 8) &&& ~~~ (0xFF : BitVec 8) = 0,
    (turnOf 191).bar.beatno / 1024 / 16 % 256 = 191] = true := by decide +kernel

/-- A Tally record of a Kit. -/
def trec (k : Option Kit) : TalRec := ⟨4990, 0x11, k, false, false, 77⟩

/-- `run` with four records. -/
def traced (on : Nat) : State :=
  { withKit run 1 with tal := { run.tal with on := on, node := 1, index := 4, recs := [trec (some 2), trec (some 1), trec none, trec (some 0)] } }

theorem witness_TallyReadRedacts : allOf [
    takenHas (traced 1) (req 0x59 64 0) fun j s1 => (Instr.tallyRead (req 0x59 64 0)).wf = true ∧ j.kit = 0 ∧
      s1.tal.recAt 0 = some (trec (some 0)) ∧ s1.tal.recAt 3 = some (trec (some 2)),
    takenHas ((traced 1).setKit 1 { (traced 1).kit 1 with binds := [⟨1, 1, none⟩] }) { req 0x59 64 0 with ktag := 1 } fun j s1 =>
      j.kit = 1 ∧ s1.tal.recAt 3 = some (trec (some 2)) ∧ (s1.kit 2).consent = false] = true := by decide +kernel

theorem witness_TollRunAndTallyControl : allOf [
    takenHas run (req 0x50 0 31) fun _ s1 => (Instr.tollRun (req 0x50 0 31)).wf = true ∧ s1.merges = [] ∧ s1.toll.run = none,
    takenHas { run with toll := { run.toll with run := some (9, req 0x50 0 1, 1) } } (req 0x50 0 1) fun _ s1 => s1.toll.run ≠ none,
    run.toll.run = none,
    ({ run with toll := { run.toll with run := some (3, req 0x50 0 1, 1) }, inflight := [flying 3 (req 0x50 0 1) .serving] }).findReq 3
      = some (flying 3 (req 0x50 0 1) .serving) ∧ run.toll.recs = [] ∧ chk.part = 0x06,
    takenHas run (req 0x58 0 0) fun _ _ => (Instr.tallyCtlStop (req 0x58 0 0)).wf,
    takenHas run (req 0x58 0 1) fun _ _ => (Instr.tallyCtlRecord (req 0x58 0 1)).wf,
    takenHas run (req 0x58 0 (2 + 256)) fun _ _ => (Instr.tallyCtlStream (req 0x58 0 (2 + 256))).wf,
    takenHas run (req 0x58 0 (3 + 2 ^ 32 * 63)) fun _ _ => (Instr.tallyCtlFilter (req 0x58 0 (3 + 2 ^ 32 * 63))).wf,
    takenHas run (req 0x58 0 (4 + 256)) fun j _ => (Instr.tallyCtlConsent (req 0x58 0 (4 + 256))).wf && (j.kit = 0 : Bool),
    takenHas ((withKit run 1).setKit 1 { (withKit run 1).kit 1 with binds := [⟨1, 1, none⟩] }) { req 0x58 0 (4 + 256) with ktag := 1 } fun j _ =>
      j.kit ≠ 0,
    (traced 2).tal.on = 2 ∧ (traced 2).tal.node ≠ 0x1F ∧ (traced 2).tal.oldest ≤ (traced 2).tal.streamNext ∧
      (traced 2).tal.streamNext + 4 ≤ (traced 2).tal.index ∧ (traced 2).tal.recAt 3 = some (trec (some 2)),
    (traced 1).tal.on ≠ 2] = true := by decide +kernel

theorem witness_TallyFilter : allOf [
    (traced 1).tal.on ≠ 0 ∧ (traced 1).tal.paused = false ∧ (traced 1).mode.traffic = true ∧ (0x6F : Nat) / 16 = 6 ∧
      (traced 1).tal.filter.getLsbD (0x51 / 16) = true ∧ (traced 1).tal.inBeat < 8,
    ¬ ((0x51 : Nat) / 16 = 6 ∨ ({ (traced 1).tal with filter := 0x1F }).filter.getLsbD (0x51 / 16) = true),
    8 ≤ ({ (traced 1).tal with inBeat := 8 }).inBeat,
    run.tal.on = 0] = true := by decide +kernel

theorem witness_StepKeepsTheMemoryForm : allOf [State.reset.memWf] = true := by decide +kernel

theorem witness_OffAndHibernateHold : allOf [
    (inMode .off).completing = false ∧ (inMode .off).knl.running = false ∧ (inMode .off).gongDue = none ∧ (inMode .hibernate).mode = .hibernate]
    = true := by decide +kernel

theorem witness_WordsReadBack : allOf [(RudInstr.loop (.imm 4095) 1023).wf, (RudInstr.waitu true 1).wf] = true := by decide +kernel
/-! ### WellFormed refuses a term that no sender can form: one for each check -/

theorem wf_refuses_foreign_opcodes : ([.ping, .statusQuery, .read, .write, .writeMasked, .fence, .place, .pin, .unpin,
    .migrateNow, .muffleDeclare, .rudStart, .rudStop, .rudQuery, .kitDestroy, .strokeSet, .csrRead, .csrWrite, .belfryRead,
    .belfryWrite, .tollRun, .repairQuery, .tallyRead, .knellRead, .close, .restEnter, fun r => .gong r []] : List (Req → Instr)).all
    (fun f => !(f (req 0x00 0 0)).wf) = true := by decide +kernel

theorem wf_refuses_unannounced_payload : allOf [!(Instr.ping (req 1 3 0 [1])).wf, !(Instr.read (req 0x10 64 0 [1])).wf,
    !(Instr.write (req 0x11 64 0)).wf] = true := by decide +kernel

theorem wf_refuses_another_selector : allOf [
    !(Instr.rudLoadStage (req 0x20 4 1 (zeros 4))).wf, !(Instr.rudLoadLoad (req 0x20 0 0)).wf,
    !(Instr.kitCreate (req 0x30 6 1 [1, 1, 0, 0, 0, 0])).wf, !(Instr.kitCreateRebind (req 0x30 6 1 [1, 0, 0, 0, 0, 0])).wf,
    !(Instr.windowSetSet (req 0x32 0 0)).wf, !(Instr.windowSetClear (req 0x32 0 65536)).wf,
    !(Instr.barBeatnoLoRead (req 0x40 4 0x404)).wf, !(Instr.barBeatnoLoRead (req 0x40 0 0x400)).wf,
    !(Instr.genTempoStrictWrite (req 0x41 4 0x84 (zeros 4))).wf, !(Instr.genRestExitWrite (req 0x41 4 0x18 (zeros 4))).wf,
    !(Instr.barSrcRateWrite (req 0x41 4 0x420 (zeros 4))).wf, !(Instr.tierSplitRequest (req 0x41 4 0x3000 (zeros 4))).wf,
    !(Instr.tierKprobeWrite (req 0x41 4 0x3124 (zeros 4))).wf, !(Instr.tierKprobeWrite (req 0x41 4 0x3520 (zeros 4))).wf,
    !(Instr.eventsW1cClear (req 0x41 4 0x10 (zeros 4))).wf, !(Instr.belfrySealPages (req 0x4A 0 1)).wf,
    !(Instr.belfrySealTest (req 0x4A 0 0)).wf, !(Instr.repairApplySpareRow (req 0x52 0 2)).wf,
    !(Instr.repairApplySpareColumn (req 0x52 0 1)).wf, !(Instr.repairApplySpareDie (req 0x52 0 4)).wf,
    !(Instr.repairApplySpareLane (req 0x52 0 3)).wf, !(Instr.repairApplyShadowRejoin (req 0x52 0 0x305)).wf,
    !(Instr.repairApplyLaneRejoin (req 0x52 0 0x205)).wf, !(Instr.tallyCtlStop (req 0x58 0 1)).wf,
    !(Instr.tallyCtlRecord (req 0x58 0 0)).wf, !(Instr.tallyCtlStream (req 0x58 0 3)).wf, !(Instr.tallyCtlFilter (req 0x58 0 2)).wf,
    !(Instr.tallyCtlConsent (req 0x58 0 3)).wf] = true := by decide +kernel

theorem wf_refuses_bad_words_and_lists : allOf [
    !(Instr.loop 0 (.imm 1) 0).wf, !(Instr.br 0 .always 1 0).wf, !(Instr.waitu 0 true 0).wf, !(Instr.waitbar 0 0).wf,
    !(Instr.flitReceive .a 1 (flit true (zeros 59))).wf, !(Instr.sensorSample [] []).wf,
    !(Instr.sensorSample (List.replicate 16 0) (List.replicate 11 [0])).wf, !(Instr.belfryRefreshStep 0 1).wf,
    !(Instr.trainingComplete .a 5 0 0).wf, !(Instr.enum .a true 0 0 (List.replicate 31 0) 0).wf,
    !(Instr.roster .a 0 (List.replicate 31 0)).wf, !(Instr.slotmap .a [1]).wf,
    !(Instr.morningTollDone { morning with eyeA := [] }).wf, !(Instr.morningTollDone { morning with eyeB := [] }).wf,
    !(Instr.morningTollDone { morning with fieldExcl := [] }).wf, !(Instr.eveningToll ⟨[], false, 0, []⟩).wf] = true := by
  decide +kernel

/-! ### Values that the spec states -/

/-- ASCII "123456789". -/
def digits : List Byte := [0x31, 0x32, 0x33, 0x34, 0x35, 0x36, 0x37, 0x38, 0x39]

/-- The check values of 00's table of codes. -/
theorem test_crc_check_values : crc32c digits = 0xE3069283 ∧ crc16 digits = 0xD0DB := by decide +kernel

/-- The WRITE of 06's worked case. -/
def caseWrite : Req :=
  { req 0x11 192 0x41000 (zeros 192) with ktag := 2, snode := 3, src := 3, dnode := 5, seq := 0x0102 }

/-- 06's worked case: the sixteen header bytes, four flits, three credits, and the header of the reply. -/
theorem test_worked_packet : leBytes 16 (hdrOf caseWrite).toNat
      = [0x11, 0x20, 0x03, 0x05, 0x02, 0x01, 0xC0, 0x00, 0x00, 0x10, 0x04, 0x00, 0x00, 0x00, 0x00, 0x00] ∧
    flitsOf caseWrite = 4 ∧ creditsFor caseWrite = 3 ∧
    leBytes 16 (replyHdr caseWrite 5 false false 0x01 0 0x1B5AC0E3 0).toNat
      = [0x11, 0x28, 0x05, 0x03, 0x02, 0x01, 0x00, 0x00, 0x01, 0x00, 0xE3, 0xC0, 0x5A, 0x1B, 0x00, 0x00] := by decide +kernel

/-- The program of Table 12.7. -/
theorem test_worked_program : [0x84000005, 0x60400000, 0x20006004, 0x48000002, 0x80000100, 0x64148200, 0x0C000001, 0x0C900100,
      0xA3E00001, 0x00000000].map Rud.decode =
    [some (.policy true .muffle), some (.fetch 0 .main 0 false), some (.loop (.imm 4) 6), some (.waitbar 2),
     some (.deadline (.imm 256)), some (.stream 0 1 9 .a 0 true), some (.addi 0 0 1), some (.addi 1 1 256),
     some (.signal 0x1F .a 0 1), some .halt] := by decide +kernel

/-- Words that Table 12.2 marks invalid. -/
theorem test_bad_words : [0xFC000000, 0x04000001, 0x24000000 + 0x03000000, 0x20000001, 0x48000000, 0x60000000, 0x83000000,
      0x24200000].all (fun w => (Rud.decode w).isNone) = true := by decide +kernel

/-- Table 13.7. -/
theorem test_scrub_rates : [0, 1, 2, 3, 4].map (fun r => Config.scrubRate r 24) = [17792, 13344, 8896, 6672, 5338] := by
  decide +kernel

/-- The chord of 13's worked case, with die 4's slice byte 0 read as 0x10. -/
def upset : List (List Byte) := (encodeChord (1 :: zeros 63)).set 4 (0x10 :: zeros 7)

/-- 13's worked case: the upset is corrected; with die 2 out as well the chord is uncorrectable. -/
theorem test_worked_codeword : syndromes (upset.map fun x => byteAt x 0) = (0x10, 0x3A) ∧
    (decodeChord [] upset).cls = .data ∧ (decodeChord [] upset).value = some (1 :: zeros 63) ∧
    (decodeChord [2] upset).cls = .uncorr := by decide +kernel

/-- Bytes of a number, the most significant first. -/
def bigBytes (n v : Nat) : List Byte := (leBytes n v).reverse

/-- The AES-256 example of FIPS-197, appendix C.3. -/
theorem test_aes_example :
    let rks := aesRoundKeys ((List.range 32).map (BitVec.ofNat 8))
    let plain := bigBytes 16 0x00112233445566778899aabbccddeeff
    aesSeal rks plain = bigBytes 16 0x8ea2b7ca516745bfeafc49904b496089 ∧
      aesOpen rks (bigBytes 16 0x8ea2b7ca516745bfeafc49904b496089) = plain := by decide +kernel

/-- XTS-AES-256 vector 10 of IEEE 1619-2018, appendix B: the first four blocks of data unit 0xFF. -/
theorem test_xts_vector :
    xtsSeal (BitVec.ofNat 512 (leNat (bigBytes 32 0x2718281828459045235360287471352662497757247093699959574966967627 ++
        bigBytes 32 0x3141592653589793238462643383279502884197169399375105820974944592))) 0xFF 0
        ((List.range 64).map (BitVec.ofNat 8))
      = bigBytes 64 0x1c3b3a102f770386e4836c99e370cf9bea00803f5e482357a4ae12d414a3e63b5d31e276f8fe4a8d66b317f9ac683f44680a86ac35adfc3345befecb4bb188fd := by
  decide +kernel

/-! ### Single steps -/

/-- The state after a command, and what holds of it. -/
def after (s : State) (c : Instr) (p : State → Bool) : Bool :=
  match step { s with pending := c :: s.pending } with
  | .next t => p t
  | _ => false

theorem test_ping : after run (.ping (req 1 2 0 [7, 8])) (fun t => t.replies.map (fun r => (r.status, r.detail, r.payload))
    = [(0x00, 5000, [7, 8])]) = true := by decide +kernel

theorem test_unknown_binding : after run (.ping { req 1 0 0 with ktag := 3 }) (fun t => t.replies.map (fun r => (r.status, r.detail))
    = [(0x21, 0x301)]) = true := by decide +kernel

/-- 07's worked case, end: 600 bytes at 0xBF00 stop at the end of page 191, after eight chunks. -/
theorem test_write_stops_at_page_192 : (run.bel.chunkLen 0xBFE0 88, run.bel.writable (0xC000 / 256)) = (32, false) := by decide +kernel

theorem test_held_exit : after State.reset (.heldExit false) (fun t => t.mode = .morningToll ∧ t.toll.count = 1) = true := by
  decide +kernel

theorem test_ill_formed_faults : (match exec (.ping (req 2 0 0)) run with | .fault .illFormed => true | _ => false) = true := by
  decide +kernel

theorem test_no_word : decodeTableWord 32 0 = none ∧ run.withFetchWord 32 0 = run := by decide +kernel

end Sys2Proof.Tests
end

/-! PROOFS. The sideband targets: the I3C target (20 R475, R476; 00 R15), the TAP (20 R477) and the rails (20 R471). -/

namespace Sys2Proof.Machine

/-! ### When the target answers (17 R421, 20 R472) -/

theorem i3cLives_iff (s : State) : s.i3cLives = true ↔
    s.mode ≠ .off ∧ s.mode ≠ .hibernate ∧ (s.mode = .held → s.pins.pwrgood = true) := by
  unfold State.i3cLives
  cases s.mode <;> simp

theorem i3cLives_of_silent {s : State} (h : s.mode = .off ∨ s.mode = .hibernate) : s.i3cLives = false := by
  unfold State.i3cLives
  rcases h with h | h <;> rw [h]

theorem i3cTakes_iff (s : State) : s.i3cTakes = true ↔
    s.i3cLives = true ∧ s.i3c.busy = false ∧ s.i3c.unread = none ∧ s.completing = false := by
  simp [State.i3cTakes, and_assoc]

theorem i3cTakes_of_refusing {s : State}
    (h : s.i3cLives = false ∨ s.i3c.busy = true ∨ s.i3c.unread ≠ none) : s.i3cTakes = false := by
  rw [← Bool.not_eq_true, i3cTakes_iff]
  rintro ⟨hlives, hbusy, hunread, -⟩
  rcases h with h | h | h
  · simp [h] at hlives
  · simp [h] at hbusy
  · exact h hunread

/-! ### Addresses (00 R15) -/

theorem i3cAddress_given {s : State} (a : BitVec 7) (hl : s.i3cLives = true) (hd : s.i3c.dyn = none) :
    s.i3cAddress a = { s with i3c := { s.i3c with dyn := some a } } := by
  simp [State.i3cAddress, hl, hd]

theorem i3cAddress_ignored {s : State} (a : BitVec 7) (h : s.i3cLives = false ∨ s.i3c.dyn ≠ none) :
    s.i3cAddress a = s := by
  rcases h with h | h <;> simp [State.i3cAddress, h]

theorem i3cFromStatic_own (s : State) (a : BitVec 7) : s.i3cFromStatic s.i3cStatic a = s.i3cAddress a := by
  simp [State.i3cFromStatic]

theorem i3cFromStatic_other {s : State} {x : BitVec 7} (a : BitVec 7) (h : x ≠ s.i3cStatic) :
    s.i3cFromStatic x a = s := by
  simp [State.i3cFromStatic, h]

theorem i3cFromStatic_ignored {s : State} (x a : BitVec 7) (h : s.i3cLives = false ∨ s.i3c.dyn ≠ none) :
    s.i3cFromStatic x a = s := by
  unfold State.i3cFromStatic
  rw [i3cAddress_ignored a h, ite_self]

theorem i3cForget_lives {s : State} (h : s.i3cLives = true) :
    s.i3cForget = { s with i3c := { s.i3c with dyn := none } } := by
  simp [State.i3cForget, h]

theorem i3cForget_silent {s : State} (h : s.i3cLives = false) : s.i3cForget = s := by
  simp [State.i3cForget, h]

/-! ### A reply over I3C (20 R475) -/

/-- The reply to a request over I3C ends the command that executes; it counts nothing and stores no byte. -/
theorem answer_i3c_frame (s : State) (rid : Nat) (rq : Req) (kit : Option Kit) (a : Answer) (h : rq.via = .i3c) :
    (s.answer rid rq kit a).i3c.busy = false ∧ (s.answer rid rq kit a).gen = s.gen ∧
      SameStores s (s.answer rid rq kit a) := by
  cases kit <;> simp [State.answer, State.queueReply, SameStores, h]

/-- A private write that executes nothing leaves its one reply in the target; nothing goes to a ring. -/
theorem i3cRefuse_unread (s : State) (rq : Req) (status detail : Nat) (h : rq.via = .i3c) :
    ∃ p : Packet, (s.i3cRefuse rq status detail).i3c.unread = some p ∧ p.payload = [] ∧
      p.hdr = replyHdr rq 0 false false status (s.i3cRefuse rq status detail).cond.toNat detail 0 ∧
      (s.i3cRefuse rq status detail).replies = s.replies ∧ (s.i3cRefuse rq status detail).gen = s.gen ∧
      SameStores s (s.i3cRefuse rq status detail) := by
  have hr := answer_replied { s with nextRid := s.nextRid + 1 } s.nextRid rq (some 0) (ans status detail) (.inr h)
  obtain ⟨-, hgen, hstores⟩ :=
    answer_i3c_frame { s with nextRid := s.nextRid + 1 } s.nextRid rq (some 0) (ans status detail) h
  simp only [Replied, h] at hr
  obtain ⟨p, hunread, hpay, hhdr, -, hreplies⟩ := hr
  exact ⟨p, hunread, hpay, hhdr, hreplies, hgen, hstores⟩

/-- What runs over I3C has entered no queue of requests in flight: it takes a number and no more (06 R162). -/
theorem taken_i3c {s s1 : State} {rq : Req} {j : Job} (hv : rq.via = .i3c) (h : s.taken rq = some (j, s1)) :
    j.admBeat = s.bar.beatno ∧ s1 = { s with nextRid := s.nextRid + 1 } := by
  simp only [State.taken, State.claim, hv] at h
  split at h
  · cases h
  · next hc =>
    split at hc
    · cases hc
    · cases hc
      split at h
      · cases h
      · split at h
        · cases h
          exact ⟨rfl, rfl⟩
        · cases h

/-! ### Private writes (20 R475) -/

theorem i3cWrite_untaken {s : State} {x : BitVec 7} (bytes : List Byte) (h : s.i3cTakes = false ∨ x ≠ s.i3cAt) :
    s.i3cWrite x bytes = s := by
  rcases h with h | h <;> simp [State.i3cWrite, h]

theorem i3cWrite_short {s : State} {bytes : List Byte} (ht : s.i3cTakes = true) (hn : bytes.length < 16) :
    s.i3cWrite s.i3cAt bytes =
      ({ s with gen := { s.gen with e2eFail := up32 s.gen.e2eFail 1 } }).i3cRefuse (shortHeader bytes) 0x33
        (2 + 256 * bytes.length) := by
  simp [State.i3cWrite, ht, hn]

/-- A write that reads as one PING of its LEN bytes, with a good CRC, runs as a request. -/
theorem i3cWrite_ping {s : State} {bytes : List Byte} (ht : s.i3cTakes = true)
    (hopc : (reqOfBytes (bytes.take 16) .i3c 0).opc = 0x01)
    (hlen : (reqOfBytes (bytes.take 16) .i3c 0).len.toNat ≤ 256)
    (hn : bytes.length = 20 + (reqOfBytes (bytes.take 16) .i3c 0).len.toNat)
    (hcrc : leBytes 4 (crc32c (bytes.take (bytes.length - 4))).toNat = bytes.drop (bytes.length - 4)) :
    s.i3cWrite s.i3cAt bytes = ({ s with i3c := { s.i3c with busy := true } }).serve
      { reqOfBytes (bytes.take 16) .i3c 0 with payload := (bytes.take (bytes.length - 4)).drop 16 } i3cBody := by
  unfold State.i3cWrite
  generalize reqOfBytes (bytes.take 16) .i3c 0 = rq at *
  have hp : payloadLen rq.opc.toNat rq.len.toNat = rq.len.toNat := by
    rw [hopc]
    exact if_neg (by simp [readsLen]; omega)
  have hbody : 16 + rq.len.toNat = bytes.length - 4 := by omega
  have h16 : ¬ bytes.length < 16 := by omega
  have h256 : ¬ 256 < rq.len.toNat := by omega
  simp [lenOf, ht, hp, hbody, h16, h256, ← hn, hcrc]

theorem i3cBody_ping {j : Job} (s : State) (h : j.rq.opc = 0x01) : i3cBody j s = s.ping j := by
  simp [i3cBody, h]

/-- A write shorter than a header is answered CRC_FAIL with cause 2 and counted (R475, Table 6.4). -/
theorem exec_i3cPrivateWrite_short {s : State} {bytes : List Byte} (ht : s.i3cTakes = true) (hn : bytes.length < 16) :
    ∃ t p, exec (.i3cPrivateWrite ⟨s.i3cAt, bytes⟩) s = .next t ∧ t.i3c.unread = some p ∧ p.payload = [] ∧
      p.hdr = replyHdr (shortHeader bytes) 0 false false 0x33 t.cond.toNat (2 + 256 * bytes.length) 0 ∧
      t.gen.e2eFail = min (s.gen.e2eFail + 1) (2 ^ 32 - 1) ∧ t.replies = s.replies ∧ SameStores s t := by
  have hrun : exec (.i3cPrivateWrite ⟨s.i3cAt, bytes⟩) s = .next (s.i3cWrite s.i3cAt bytes) := rfl
  rw [hrun, i3cWrite_short ht hn]
  obtain ⟨p, hunread, hpay, hhdr, hreplies, hgen, hstores⟩ := i3cRefuse_unread
    { s with gen := { s.gen with e2eFail := up32 s.gen.e2eFail 1 } } (shortHeader bytes) 0x33 (2 + 256 * bytes.length) rfl
  refine ⟨_, p, rfl, hunread, hpay, hhdr, ?_, hreplies, hstores⟩
  rw [hgen]
  exact Nat.min_comm _ _

/-- One PING at the target's address is answered with its payload, as on a ring (R475, 07 R169). -/
theorem exec_i3cPrivateWrite_ping {s s1 : State} {bytes : List Byte} {rq : Req} {j : Job} (ht : s.i3cTakes = true)
    (hrq : rq = { reqOfBytes (bytes.take 16) .i3c 0 with payload := (bytes.take (bytes.length - 4)).drop 16 })
    (hopc : rq.opc = 0x01) (hlen : rq.len.toNat ≤ 256)
    (hn : bytes.length = 20 + rq.len.toNat)
    (hcrc : leBytes 4 (crc32c (bytes.take (bytes.length - 4))).toNat = bytes.drop (bytes.length - 4))
    (htk : ({ s with i3c := { s.i3c with busy := true } }).taken rq = some (j, s1)) :
    ∃ t, exec (.i3cPrivateWrite ⟨s.i3cAt, bytes⟩) s = .next t ∧
      Replied s1 t j.rid rq 0x00 s.bar.beatno rq.payload ∧ t.i3c.busy = false ∧
      t.gen.e2eFail = s.gen.e2eFail ∧ SameStores s t := by
  have hrun : exec (.i3cPrivateWrite ⟨s.i3cAt, bytes⟩) s = .next (s1.ping j) := by
    subst hrq
    have hjopc : j.rq.opc = 0x01 := by rw [taken_rq htk]; exact hopc
    rw [← i3cBody_ping s1 hjopc, ← serve_taken i3cBody htk, ← i3cWrite_ping ht hopc hlen hn hcrc]
    rfl
  have hvia : rq.via = .i3c := by rw [hrq]; rfl
  obtain ⟨hadm, hs1⟩ := taken_i3c hvia htk
  rw [hrun]
  unfold State.ping Job.answer
  rw [taken_rq htk, hadm]
  obtain ⟨hbusy, hgen, hstores⟩ := answer_i3c_frame s1 j.rid rq (some j.kit)
    { ansData rq.payload s.bar.beatno with release := some (s1.readRelease j.kit s.bar.beatno 0) } hvia
  refine ⟨_, rfl, answer_replied s1 j.rid rq _ _ (.inr hvia), hbusy, ?_, ?_⟩
  · rw [hgen, hs1]
  · subst hs1
    exact hstores

/-! ### Private reads (20 R475) -/

theorem i3cRead_whole {s : State} {p : Packet} {stop : Option Nat} (hl : s.i3cLives = true)
    (hp : s.i3c.unread = some p) (hstop : ∀ n, stop = some n → 20 + p.payload.length ≤ n) :
    s.i3cRead s.i3cAt stop = { s with i3c := { s.i3c with unread := none }, sent := p :: s.sent } := by
  cases stop with
  | none => simp [State.i3cRead, hp, hl]
  | some n => simp [State.i3cRead, hp, hl, hstop n rfl]

theorem i3cRead_stopped {s : State} {p : Packet} {n : Nat} (x : BitVec 7) (hp : s.i3c.unread = some p)
    (hn : n < 20 + p.payload.length) : s.i3cRead x (some n) = s := by
  simp [State.i3cRead, hp, Nat.not_le.mpr hn]

theorem i3cRead_untaken {s : State} {x : BitVec 7} (stop : Option Nat) (h : s.i3c.unread = none ∨ x ≠ s.i3cAt) :
    s.i3cRead x stop = s := by
  rcases h with h | h
  · simp [State.i3cRead, h]
  · cases hp : s.i3c.unread <;> simp [State.i3cRead, hp, h]

/-! ### The TAP (20 R477) -/

theorem tapTakes_silent {s : State} (t : TapInstr) (h : s.i3cLives = false) : s.tapTakes t = s := by
  simp [State.tapTakes, h]

theorem tapTakes_sealed {s : State} (t : TapInstr) (hl : s.i3cLives = true) (hs : s.bel.testSeal = true) :
    s.tapTakes t = s.tapLoad .bypass := by
  simp [State.tapTakes, hl, hs]

theorem tapTakes_served {s : State} {t : TapInstr} (hl : s.i3cLives = true) (hs : s.bel.testSeal = false)
    (h : s.mode = .held ∨ s.pins.pwrgood = true ∧ (t = .idcode ∨ t = .samplePreload)) :
    s.tapTakes t = s.tapLoad t := by
  rcases h with h | ⟨hp, ht⟩
  · simp [State.tapTakes, hl, hs, h]
  · rcases ht with ht | ht <;> simp [State.tapTakes, hl, hs, hp, ht]

theorem tapTakes_unserved {s : State} {t : TapInstr} (hl : s.i3cLives = true) (hm : s.mode ≠ .held)
    (hi : t ≠ .idcode) (hp : t ≠ .samplePreload) : s.tapTakes t = s.tapLoad .bypass := by
  simp [State.tapTakes, hl, hm, hi, hp]

/-- An instruction that loads a register which the spec does not give is served, and changes no mode and no stored byte. -/
theorem tapLoad_other {s : State} {t : TapInstr} (hi : t ≠ .idcode) (hb : t ≠ .bypass) :
    (s.tapLoad t).tap.ir = t ∧ (s.tapLoad t).mode = s.mode ∧ SameStores s (s.tapLoad t) := by
  cases t with
  | idcode => exact absurd rfl hi
  | bypass => exact absurd rfl hb
  | samplePreload | extest | serial1838 | wrapper1500 => exact ⟨rfl, rfl, fun _ => rfl, fun _ => rfl, fun _ => rfl⟩

/-! ### The rail monitors (20 R471) -/

theorem railsAre_raises {s : State} {rails : BitVec 6} (hg : s.pins.rails &&& ~~~ rails ≠ 0) (hl : s.i3cLives = true)
    (hp : s.pins.pwrgood = true) :
    s.railsAre rails = State.raise { s with pins := { s.pins with rails := rails } } .pwr 0x10 := by
  unfold State.railsAre
  exact if_pos (by simpa [hl, hp] using hg)

theorem railsAre_quiet {s : State} {rails : BitVec 6} (h : s.pins.rails &&& ~~~ rails = 0 ∨ s.pins.pwrgood = false) :
    s.railsAre rails = { s with pins := { s.pins with rails := rails } } := by
  rcases h with h | h <;> simp [State.railsAre, h]

/-! ### The statement -/

/-- Settles O50: each clause is the lemma above about its command, its hypotheses read as `i3cLives` and `i3cTakes`. What
the spec leaves open is the model's choice: what the target counts and when it takes an address (log 80), the registers of
the TAP's test instructions (log 85), and SNODE, RING and DNODE of an I3C reply (log 108). -/
theorem sidebandTargets : Obligations.SidebandTargets := by
  unfold Obligations.SidebandTargets
  refine ⟨?i3c, ?tapAndRails⟩
  case i3c =>
    intro s answers ready silent static at_
    have hlives : answers → s.i3cLives = true := (i3cLives_iff s).2
    have htakes : ready → s.i3cTakes = true := fun ⟨ha, hrest⟩ => (i3cTakes_iff s).2 ⟨hlives ha, hrest⟩
    have hsilent : silent → s.i3cLives = false := i3cLives_of_silent
    refine ⟨fun a ha hd => ⟨?_, ?_⟩, fun x a hx => ?_, fun x a h => ⟨?_, ?_⟩, fun ha => ?_, fun h => ?_,
      fun bytes hr hn => exec_i3cPrivateWrite_short (htakes hr) hn,
      fun bytes j s1 hr _ => exec_i3cPrivateWrite_ping (htakes hr) rfl,
      fun x bytes h => ?_, fun p stop ha hp hstop => ?_, fun x p n hp hn => ?_, fun x stop h => ?_⟩
    · exact congrArg Host.Outcome.next ((i3cFromStatic_own s a).trans (i3cAddress_given a (hlives ha) hd))
    · exact congrArg Host.Outcome.next (i3cAddress_given a (hlives ha) hd)
    · exact congrArg Host.Outcome.next (i3cFromStatic_other a hx)
    · exact congrArg Host.Outcome.next (i3cFromStatic_ignored x a (h.imp_left hsilent))
    · exact congrArg Host.Outcome.next (i3cAddress_ignored a (h.imp_left hsilent))
    · exact congrArg Host.Outcome.next (i3cForget_lives (hlives ha))
    · exact congrArg Host.Outcome.next (i3cForget_silent (hsilent h))
    · refine congrArg Host.Outcome.next (i3cWrite_untaken bytes ?_)
      rcases h with h | h | h | h
      · exact .inl (i3cTakes_of_refusing (.inl (hsilent h)))
      · exact .inl (i3cTakes_of_refusing (.inr (.inl h)))
      · exact .inl (i3cTakes_of_refusing (.inr (.inr h)))
      · exact .inr h
    · exact congrArg Host.Outcome.next (i3cRead_whole (hlives ha) hp hstop)
    · exact congrArg Host.Outcome.next (i3cRead_stopped x hp hn)
    · exact congrArg Host.Outcome.next (i3cRead_untaken stop h)
  case tapAndRails =>
    intro s answers
    have hlives : answers → s.i3cLives = true := (i3cLives_iff s).2
    refine ⟨fun ha hs hp => ?_, fun x ha hs => ?_, fun x ha hm hi hsp => ?_, fun x hm hp hs hi hb => ?_, fun x h => ?_,
      fun rails => ⟨fun hg ha hp => ?_, fun h => ?_⟩⟩
    · exact congrArg Host.Outcome.next (tapTakes_served (hlives ha) hs (.inr ⟨hp, .inl rfl⟩))
    · exact congrArg Host.Outcome.next (tapTakes_sealed x (hlives ha) hs)
    · exact congrArg Host.Outcome.next (tapTakes_unserved (hlives ha) hm hi hsp)
    · have hl : s.i3cLives = true := hlives ⟨by simp [hm], by simp [hm], fun _ => hp⟩
      exact ⟨_, congrArg Host.Outcome.next (tapTakes_served hl hs (.inl hm)), tapLoad_other hi hb⟩
    · exact congrArg Host.Outcome.next (tapTakes_silent x (i3cLives_of_silent h))
    · exact congrArg Host.Outcome.next (railsAre_raises hg (hlives ha) hp)
    · exact congrArg Host.Outcome.next (railsAre_quiet h)

end Sys2Proof.Machine

/-! PROOFS. Beats and budgets: the Strokes of an allocation (03 R65 to R70), and what a Beat boundary does to ring time (02
R37 to R55). -/

namespace Sys2Proof.Machine

/-! ### Strokes of an allocation (03 R66 to R70, Table 3.2) -/

theorem costOf_cons (g : Grp) (gs : List Grp) : costOf (g :: gs) = g.cost + costOf gs := by
  simp [costOf]

theorem costOf_append (gs hs : List Grp) : costOf (gs ++ hs) = costOf gs + costOf hs := by
  simp [costOf]

theorem serve_cost (b : Nat) (gs : List Grp) : costOf (serve b gs).1 + (serve b gs).2.2 = b := by
  induction gs generalizing b with
  | nil => exact Nat.zero_add b
  | cons g gs ih =>
    unfold serve
    split
    · have hrest := ih (b - g.cost)
      simp only [costOf_cons]
      omega
    · exact Nat.zero_add b

theorem roundRobin_cost (fuel b : Nat) (ts : List Turn) :
    costOf ((roundRobin fuel b ts).1.map fun x => x.2) + (roundRobin fuel b ts).2 = b := by
  induction fuel generalizing b ts with
  | zero => exact Nat.zero_add b
  | succ fuel ih =>
    cases ts with
    | nil => exact Nat.zero_add b
    | cons t ts =>
      unfold roundRobin
      split
      · exact ih b ts
      · next g gs _ =>
        split
        · have hrest := ih (b - g.cost) (ts ++ [⟨t.kit, gs⟩])
          simp only [List.map_cons, costOf_cons]
          omega
        · exact Nat.zero_add b

theorem reserveStep_cost (d : KDem) :
    costOf ((reserveStep d).1.map fun x => x.2) + (reserveStep d).2.2.2 = d.grant := by
  have hmain := serve_cost d.grant d.main
  unfold reserveStep
  dsimp only
  split
  · have hdeep := serve_cost (serve d.grant d.main).2.2 d.deep
    simp only [List.map_map, Function.comp_def, List.map_id', costOf_append]
    omega
  · simpa only [List.map_map, Function.comp_def, List.map_id'] using hmain

theorem reserveSteps_cost (ds : List KDem) :
    costOf (((ds.map reserveStep).map fun r => r.1).flatten.map fun x => x.2) +
      ((ds.map reserveStep).map fun r => r.2.2.2).sum = (ds.map fun d => d.grant).sum := by
  induction ds with
  | nil => rfl
  | cons d ds ih =>
    have hfirst := reserveStep_cost d
    simp only [List.map_cons, List.flatten_cons, List.map_append, costOf_append, List.sum_cons]
    omega

theorem sum_capGrants_le (b : Nat) (ds : List KDem) : ((capGrants b ds).map fun d => d.grant).sum ≤ b := by
  induction ds generalizing b with
  | nil => exact Nat.zero_le b
  | cons d ds ih =>
    have hrest := ih (b - min d.grant b)
    simp only [capGrants, List.map_cons, List.sum_cons]
    omega

theorem allocate_maint_le (strict : Bool) (budget reserve start : Nat) (ds : List KDem) (mg : List Grp) :
    costOf (allocate strict budget reserve start ds mg).maint ≤ reserve := by
  have hserve := serve_cost (min reserve budget) mg
  have hmaint : (allocate strict budget reserve start ds mg).maint = (serve (min reserve budget) mg).1 := by
    cases strict <;> rfl
  rw [hmaint]
  omega

/-- Every Stroke of the budget is issued or left: in the reserve, in the reservations and in slack alike. -/
theorem allocate_issued_add_left (strict : Bool) (budget reserve start : Nat) (ds : List KDem) (mg : List Grp) :
    (allocate strict budget reserve start ds mg).issued + (allocate strict budget reserve start ds mg).left = budget := by
  unfold allocate Alloc.issued
  extract_lets m cut rs grants free strictM pool slack turns tm p3 td p4 lastM
  have hmaint : costOf m.1 + m.2.2 = min reserve budget := serve_cost _ mg
  have hkits : costOf ((rs.map fun r => r.1).flatten.map fun x => x.2) + (rs.map fun r => r.2.2.2).sum = grants :=
    reserveSteps_cost cut
  have hgrants : grants ≤ budget - min reserve budget := sum_capGrants_le _ ds
  have hfree : free = budget - min reserve budget - grants := rfl
  cases strict with
  | true =>
    have hlast : costOf strictM.1 + strictM.2.2 = free := serve_cost _ m.2.1
    clear_value m rs grants free strictM
    simp only [if_true]
    omega
  | false =>
    have hpool : pool = free + m.2.2 + (rs.map fun r => r.2.2.2).sum := rfl
    have hslack : slack ≤ pool := by
      unfold slack
      split <;> omega
    have hmains : costOf (p3.1.map fun x => x.2) + p3.2 = slack := roundRobin_cost _ slack tm
    have hdeeps : costOf (p4.1.map fun x => x.2) + p4.2 = p3.2 := roundRobin_cost _ p3.2 td
    have hlast : costOf lastM.1 + lastM.2.2 = p4.2 := serve_cost p4.2 m.2.1
    clear_value m rs grants free pool slack p3 p4 lastM
    simp only [Bool.false_eq_true, if_false, List.map_append, costOf_append]
    omega

/-! ### The work of a Beat leaves ring time as it is

BEATNO, its epoch and its counters are set by the tick and by a Downbeat alone: one lemma for each operation that a Beat
runs, in the order of the model. -/

@[simp] theorem ite_bar (c : Prop) [Decidable c] (s t : State) :
    (if c then s else t).bar = if c then s.bar else t.bar := apply_ite State.bar c s t

@[simp] theorem forEach_bar {α : Type} {f : α → State → State} (h : ∀ x s, (f x s).bar = s.bar) (l : List α) (s : State) :
    (forEach f l s).bar = s.bar := by
  induction l generalizing s with
  | nil => rfl
  | cons x xs ih => rw [forEach, ih, h]

theorem foldl_bar {α : Type} {f : State → α → State} (h : ∀ s x, (f s x).bar = s.bar) (l : List α) (s : State) :
    (l.foldl f s).bar = s.bar := by
  induction l generalizing s with
  | nil => rfl
  | cons x xs ih => rw [List.foldl_cons, ih, h]

/-! #### Records, alerts and events (18 R438 to R453, 06 R160) -/

@[simp] theorem tallyLosses_bar (s : State) : s.tallyLosses.bar = s.bar := by simp [State.tallyLosses]

@[simp] theorem tallyAt_bar (s : State) (beat typ : Nat) (kit : Option Kit) (arg : Nat) :
    (s.tallyAt beat typ kit arg).bar = s.bar := by
  simp [State.tallyAt]

@[simp] theorem fatal_bar (s : State) (cause detail : Nat) : (s.fatal cause detail).bar = s.bar := rfl

@[simp] theorem alertOne_bar (i : EvId) (s : State) : (s.alertOne i).bar = s.bar := by
  unfold State.alertOne
  split <;> simp

@[simp] theorem alertSend_bar (s : State) : s.alertSend.bar = s.bar := by simp [State.alertSend]
@[simp] theorem alertBar_bar (s : State) : s.alertBar.bar = s.bar := by simp [State.alertBar]
@[simp] theorem freshClear_bar (s : State) : s.freshClear.bar = s.bar := by simp [State.freshClear]

/-! #### The array and what its faults bring about (13 R331 to R346, 14 R355 to R368) -/

@[simp] theorem store_bar (s : State) (c : Nat) (sl : List (List Byte)) (mask : Slices) :
    (s.store c sl mask).bar = s.bar := rfl

@[simp] theorem queueRec_bar (s : State) (r : RecId) : (s.queueRec r).bar = s.bar := by simp [State.queueRec]
@[simp] theorem repairPair_bar (s : State) : s.repairPair.bar = s.bar := by simp [State.repairPair]
@[simp] theorem dieGoesOut_bar (s : State) (die : Fin 11) : (s.dieGoesOut die).bar = s.bar := by simp [State.dieGoesOut]

@[simp] theorem bankGoesOut_bar (s : State) (die : Fin 11) (bank : Nat) : (s.bankGoesOut die bank).bar = s.bar := by
  simp [State.bankGoesOut]

@[simp] theorem silentDies_bar (s : State) : s.silentDies.bar = s.bar := by simp [State.silentDies]
@[simp] theorem corrTriggers_bar (s : State) : s.corrTriggers.bar = s.bar := by simp [State.corrTriggers]

@[simp] theorem metaFails_bar (s : State) (c : Nat) : (s.metaFails c).bar = s.bar := by
  unfold State.metaFails
  split <;> simp

@[simp] theorem readArray_bar (s : State) (src c : Nat) : (s.readArray src c).bar = s.bar := by simp [State.readArray]

/-! #### Pages and Near (09 R241 to R248) -/

@[simp] theorem updPage_bar (s : State) (k : Kit) (kp : KPage) (f : Page → Page) : (s.updPage k kp f).bar = s.bar := rfl

@[simp] theorem nearFill_bar (s : State) (k : Kit) (a : Nat) (poison : Bool) (d : List Byte) :
    (s.nearFill k a poison d).bar = s.bar := by
  unfold State.nearFill
  split
  · rfl
  · split <;> rfl

@[simp] theorem nearWrite_bar (s : State) (k : Kit) (a : Nat) (d : List Byte) : (s.nearWrite k a d).bar = s.bar := rfl
@[simp] theorem nearDrop_bar (s : State) (k : Kit) (a : Nat) : (s.nearDrop k a).bar = s.bar := rfl
@[simp] theorem nearRelease_bar (s : State) (k : Kit) (kp : KPage) : (s.nearRelease k kp).bar = s.bar := rfl
@[simp] theorem touch_bar (s : State) (k : Kit) (a : Nat) : (s.touch k a).bar = s.bar := rfl
@[simp] theorem heat_bar (s : State) (k : Kit) (a n : Nat) : (s.heat k a n).bar = s.bar := rfl

/-! #### Reservations and read tokens (03 R71 to R80) -/

@[simp] theorem ledgerGrant_bar (s : State) : s.ledgerGrant.bar = s.bar := by simp [State.ledgerGrant]

theorem kitToken_bar {s t : State} {k : Kit} (h : s.kitToken k = some t) : t.bar = s.bar := by
  unfold State.kitToken at h
  dsimp only at h
  split at h
  · cases h; rfl
  · split at h
    · cases h
    · split at h <;> cases h
      rfl

theorem maintToken_bar {s t : State} (h : s.maintToken = some t) : t.bar = s.bar := by
  unfold State.maintToken at h
  split at h
  · cases h; rfl
  · split at h <;> cases h
    rfl

@[simp] theorem refillTokens_bar (s : State) : s.refillTokens.bar = s.bar := rfl
@[simp] theorem shareOut_bar (s : State) (want : Kit → Nat) (keep : Nat) : (s.shareOut want keep).bar = s.bar := rfl

/-! #### Provisional writes (11 R281 to R296) -/

@[simp] theorem queueChord_bar (s : State) (kind : WKind) (payer : Option Kit) (a c : Nat) (d : List Byte) :
    (s.queueChord kind payer a c d).bar = s.bar := rfl

@[simp] theorem capture_bar (s : State) (o : Kit) (a : Nat) : (s.capture o a).2.bar = s.bar := by
  unfold State.capture
  split
  · rfl
  · split
    · rfl
    · split
      · rfl
      · rfl
      · split
        · next t h => exact kitToken_bar h
        · rfl

@[simp] theorem captureToken_bar (x : WEntry) (s : State) : (s.captureToken x).bar = s.bar := by
  unfold State.captureToken
  split
  · split
    · next t h => exact (kitToken_bar h :)
    · rfl
  · rfl

@[simp] theorem capturesGoOn_bar (s : State) : s.capturesGoOn.bar = s.bar := by simp [State.capturesGoOn]
@[simp] theorem pushEntry_bar (s : State) (e : WEntry) : (s.pushEntry e).bar = s.bar := rfl
@[simp] theorem updJob_bar (s : State) (rid : Nat) (f : WriteJob → WriteJob) : (s.updJob rid f).bar = s.bar := rfl
@[simp] theorem writeReply_bar (s : State) (j : WriteJob) : (s.writeReply j).bar = s.bar := by simp [State.writeReply]
@[simp] theorem returnCredits_bar (s : State) (j : WriteJob) : (s.returnCredits j).bar = s.bar := rfl

@[simp] theorem settleJob_bar (rid : Nat) (s : State) : (s.settleJob rid).bar = s.bar := by
  unfold State.settleJob
  split
  · rfl
  · extract_lets accepted resolved credited due replied told
    have hcredited : credited.bar = s.bar := by simp [credited]
    have hreplied : replied.bar = s.bar := by simp [replied, hcredited]
    have htold : told.bar = s.bar := by
      unfold told
      split
      · split <;> simp [hreplied]
      · exact hreplied
    simp [htold, hreplied]

@[simp] theorem resolveJobs_bar (s : State) (rids : List Nat) (a : Nat) (recant : Bool) :
    (s.resolveJobs rids a recant).bar = s.bar := by
  simp [State.resolveJobs]

@[simp] theorem queueMarker_bar (s : State) (c : Nat) : (s.queueMarker c).bar = s.bar := by simp [State.queueMarker]

@[simp] theorem recantKit_bar (s : State) (k : Kit) (a c : Nat) (sync : Bool) :
    (s.recantKit k a c sync).bar = s.bar := by
  simp [State.recantKit]

@[simp] theorem moveRecord_bar (s : State) (m : Move) (p : Page) (ch : PtChange) :
    (s.moveRecord m p ch).bar = s.bar := by
  simp [State.moveRecord]

@[simp] theorem commitPt_bar (s : State) (k : Kit) (kp : KPage) (ch : PtChange) : (s.commitPt k kp ch).bar = s.bar := by
  unfold State.commitPt
  split
  · simp
  · split
    · rfl
    · extract_lets f old changed freed rest _ tier ended
      clear_value old
      have hended : ended.bar = s.bar := by
        change freed.bar = s.bar
        unfold freed
        split
        · split <;> simp [changed]
        · simp [changed]
      split
      · rfl
      · split
        · rw [moveRecord_bar, hended]
        · exact hended

@[simp] theorem mirrorMove_bar (s : State) (o : Kit) (a : Nat) (v : Option (List Byte)) :
    (s.mirrorMove o a v).bar = s.bar := by
  unfold State.mirrorMove
  split
  · split
    · rfl
    · split <;> simp
  · rfl

@[simp] theorem storeEntry_bar (s : State) (e : WEntry) (failing : Slices) : (s.storeEntry e failing).bar = s.bar := rfl

@[simp] theorem stageDone_bar (s : State) (rids : List Nat) (c : Nat) (bad : Bool) :
    (s.stageDone rids c bad).bar = s.bar := rfl

@[simp] theorem staged_bar (s : State) (k : Kit) (slot : Fin 8) (i : Nat) : (s.staged k slot i).bar = s.bar := rfl

@[simp] theorem concluded_bar (s : State) (e : WEntry) (good weak : Bool) (failing : Slices) :
    (s.concluded e good weak failing).bar = s.bar := by
  unfold State.concluded
  dsimp only
  split
  case h_6 =>
    split
    · rfl
    · exact foldl_bar (by simp) _ s
  case h_1 => split <;> simp
  all_goals simp

@[simp] theorem wearSlices_bar (s : State) (c : Nat) (m : Slices) (n first : Nat) :
    (s.wearSlices c m n first).bar = s.bar := rfl

@[simp] theorem pulse_bar (s : State) (ent : Nat) : (s.pulse ent).bar = s.bar := by
  unfold State.pulse
  split <;> simp

@[simp] theorem setMerge_bar (s : State) (i : Fin 64) (m : Option MEntry) : (s.setMerge i m).bar = s.bar := rfl

@[simp] theorem pushData_bar (s : State) (k : Kit) (rids : List Nat) (a c : Nat) (d : List Byte) :
    (s.pushData k rids a c d).bar = s.bar := by
  simp [State.pushData]

@[simp] theorem recantNarrow_bar (s : State) (k : Kit) (rids : List Nat) (a c : Nat) :
    (s.recantNarrow k rids a c).bar = s.bar := by
  simp [State.recantNarrow]

@[simp] theorem closeMerge_bar (i : Fin 64) (s : State) : (s.closeMerge i).bar = s.bar := by
  unfold State.closeMerge
  split
  · rfl
  · dsimp only
    split
    · simp
    · split
      · simp
      · simp
      · split
        · simp
        · next t h => split <;> simp [kitToken_bar h]
      · simp

@[simp] theorem closeMerges_bar (s : State) (p : MEntry → Bool) : (s.closeMerges p).bar = s.bar := by
  refine forEach_bar (fun i t => ?_) _ s
  split <;> simp

@[simp] theorem mergesGoOn_bar (s : State) : s.mergesGoOn.bar = s.bar := by simp [State.mergesGoOn]
@[simp] theorem creditBack_bar (s : State) (rid : Nat) (k : Kit) : (s.creditBack rid k).bar = s.bar := rfl
@[simp] theorem addMove_bar (s : State) (m : Move) : (s.addMove m).bar = s.bar := rfl

@[simp] theorem startWriteBack_bar (s : State) (k : Kit) (kp : KPage) (release : Bool) :
    (s.startWriteBack k kp release).bar = s.bar := by
  unfold State.startWriteBack
  split
  · rfl
  · dsimp only
    split <;> simp

@[simp] theorem evict_bar (s : State) (q : Page) : (s.evict q).bar = s.bar := by simp [State.evict]

@[simp] theorem startPromote_bar (s : State) (k : Kit) (kp : KPage) (near : Bool) (fetch : Option (Engine × Option Nat)) :
    (s.startPromote k kp near fetch).bar = s.bar := by
  unfold State.startPromote
  split
  · rfl
  · split
    · rfl
    · split <;> simp

theorem takeMarker_bar (s t : State) (h : s.takeMarker = some t) : t.bar = s.bar := by
  unfold State.takeMarker at h
  split at h
  · cases h
  · split at h <;> cases h
    rfl

@[simp] theorem dropFixes_bar (s : State) : s.dropFixes.bar = s.bar := rfl

theorem takeFix_bar (s t : State) (h : s.takeFix = some t) : t.bar = s.bar := by
  unfold State.takeFix at h
  split at h
  · cases h
  · split at h
    · cases h; rfl
    · split at h <;> cases h
      rfl

@[simp] theorem takeChord_bar (q : WKind × Option Kit × Nat × ChordIx × List Byte) (s : State) :
    (s.takeChord q).bar = s.bar := rfl

@[simp] theorem takeChords_bar (s : State) : s.takeChords.bar = s.bar := by simp [State.takeChords]

theorem fillEntries_bar {f : State → Option State} (hf : ∀ s t, f s = some t → t.bar = s.bar) (n : Nat) (s : State) :
    (fillEntries f n s).bar = s.bar := by
  induction n generalizing s with
  | zero => rfl
  | succ n ih =>
    unfold fillEntries
    split
    · next t h => rw [ih, hf s t h]
    · rfl

@[simp] theorem maintFill_bar (s : State) : s.maintFill.bar = s.bar := by
  unfold State.maintFill
  rw [takeChords_bar, fillEntries_bar takeFix_bar, dropFixes_bar, fillEntries_bar takeMarker_bar]

/-! #### Moves between the tiers (09 R239 to R254) -/

@[simp] theorem packOne_bar (s : State) (k : Kit) : (s.packOne k).bar = s.bar := by
  unfold State.packOne
  dsimp only
  split <;> rfl

@[simp] theorem packFull_bar (k : Kit) (n : Nat) (s : State) : (s.packFull k n).bar = s.bar := by
  induction n generalizing s with
  | zero => rfl
  | succ n ih => simp [State.packFull, ih]

@[simp] theorem updMove_bar (s : State) (m : Move) (f : Move → Move) : (s.updMove m f).bar = s.bar := rfl
@[simp] theorem endMove_bar (s : State) (m : Move) : (s.endMove m).bar = s.bar := rfl

@[simp] theorem putChord_bar (s : State) (m : Move) (i : Nat) (v : Option (List Byte)) :
    (s.putChord m i v).bar = s.bar := by
  unfold State.putChord
  split
  · rfl
  · split <;> simp

theorem tryFill_bar {s t : State} {k : Kit} {a : Nat} {poison : Bool} {d : List Byte}
    (h : s.tryFill k a poison d = some t) : t.bar = s.bar := by
  unfold State.tryFill at h
  dsimp only at h
  split at h <;> cases h
  exact nearFill_bar _ _ _ _ _

theorem copyChord_bar {s t : State} {m : Move} {i : Nat} (h : s.copyChord m i = some t) : t.bar = s.bar := by
  unfold State.copyChord at h
  dsimp only at h
  split at h
  · cases h
  · split at h
    · split at h
      · cases h; rfl
      · split at h
        · exact tryFill_bar h
        · exact tryFill_bar h
        · obtain ⟨u, hu, hfill⟩ := Option.bind_eq_some_iff.mp h
          rw [tryFill_bar hfill, readArray_bar, kitToken_bar hu]
        · cases h
    · split at h
      · split at h
        · cases h; simp
        · cases h; simp
        · obtain ⟨u, hu, rfl⟩ := Option.map_eq_some_iff.mp h
          simp [kitToken_bar hu]
      · cases h; rfl

@[simp] theorem copyChords_bar (m : Move) (is : List Nat) (s : State) : (s.copyChords m is).1.bar = s.bar := by
  induction is generalizing s with
  | nil => rfl
  | cons i is ih =>
    unfold State.copyChords
    split
    · next t h => rw [ih, copyChord_bar h]
    · exact ih s

@[simp] theorem tableMove_bar (s : State) (m : Move) : (s.tableMove m).bar = s.bar := by
  unfold State.tableMove
  split <;> simp

@[simp] theorem beginMove_bar (s : State) (m : Move) : (s.beginMove m).bar = s.bar := by
  unfold State.beginMove
  split
  · simp
  · dsimp only
    split
    case h_4 => split <;> simp
    all_goals simp

@[simp] theorem redoDemote_bar (s : State) (m : Move) : (s.redoDemote m).bar = s.bar := by
  unfold State.redoDemote
  split <;> simp

@[simp] theorem moveBeat_bar (m : Move) (s : State) : (s.moveBeat m).bar = s.bar := by
  unfold State.moveBeat
  split
  · rfl
  · extract_lets begun
    have hbegun : begun.bar = s.bar := by
      unfold begun
      split
      · split <;> simp
      · rfl
    clear_value begun
    split
    · exact hbegun
    · extract_lets e r copied new _ packed
      have hpacked : packed.bar = s.bar := by simp [packed, copied, r, hbegun]
      clear_value packed
      split
      · exact hpacked
      · simp [hpacked]

@[simp] theorem bringPinned_bar (s : State) : s.bringPinned.bar = s.bar := by simp [State.bringPinned]

@[simp] theorem bringNear_bar (s : State) (k : Kit) (kp : KPage) (fetch : Option (Engine × Option Nat)) :
    (s.bringNear k kp fetch).bar = s.bar := by
  unfold State.bringNear
  split <;> simp

@[simp] theorem migrate_bar (k : Kit) (arg : Nat) (kp : KPage) (s : State) : (s.migrate k arg kp).bar = s.bar := by
  unfold State.migrate
  split
  · rfl
  · split
    · rfl
    · split <;> simp

@[simp] theorem waitOver_bar (w : WaitJob) (s : State) : (s.waitOver w).bar = s.bar := by
  unfold State.waitOver
  split <;> simp

@[simp] theorem waitsOver_bar (s : State) : s.waitsOver.bar = s.bar := by simp [State.waitsOver]
@[simp] theorem movesGoOn_bar (s : State) : s.movesGoOn.bar = s.bar := by simp [State.movesGoOn]

/-! #### Deep (10 R259 to R277) -/

@[simp] theorem reserveFalls_bar (s : State) (n : Nat) : (s.reserveFalls n).bar = s.bar := by simp [State.reserveFalls]
@[simp] theorem retireBit_bar (s : State) (b : Nat) : (s.retireBit b).bar = s.bar := rfl
@[simp] theorem retireBlock_bar (s : State) (b : Nat) : (s.retireBlock b).bar = s.bar := by simp [State.retireBlock]

@[simp] theorem putSector_bar (s : State) (m : Move) (x : BitVec 4) (cs : List (Option (List Byte))) :
    (s.putSector m x cs).bar = s.bar := by
  simp [State.putSector]

@[simp] theorem sectorIn_bar (s : State) (m : Move) (x : BitVec 4) (cs : List (Option (List Byte))) (lost : Bool) :
    (s.sectorIn m x cs lost).bar = s.bar := by
  simp [State.sectorIn]

@[simp] theorem deadReads_bar (s : State) : s.deadReads.bar = s.bar := by
  refine forEach_bar (fun m t => ?_) _ s
  split
  · rfl
  · split
    · rfl
    · refine forEach_bar (fun x u => ?_) _ t
      split
      · split <;> simp
      · rfl

@[simp] theorem startDeep_bar (s : State) (op : DeepOp) : (s.startDeep op).bar = s.bar := rfl
@[simp] theorem emptyBlocks_bar (s : State) : s.emptyBlocks.bar = s.bar := by simp [State.emptyBlocks]
@[simp] theorem holdBacks_bar (s : State) : s.holdBacks.bar = s.bar := rfl

@[simp] theorem clean_bar (s : State) : s.clean.bar = s.bar := by
  unfold State.clean
  dsimp only
  split
  · split
    · rfl
    · split <;> simp
  · rfl

@[simp] theorem drainOver_bar (s : State) : s.drainOver.bar = s.bar := by simp [State.drainOver]
@[simp] theorem suspends_bar (s : State) : s.suspends.bar = s.bar := rfl
@[simp] theorem deepGoesOn_bar (s : State) : s.deepGoesOn.bar = s.bar := by simp [State.deepGoesOn]

@[simp] theorem wearLevel_bar (s : State) : s.wearLevel.bar = s.bar := by
  unfold State.wearLevel
  dsimp only
  split <;> simp

/-! #### READs (07 R171, R172; 03 R79) -/

@[simp] theorem accessed_bar (s : State) (k o : Kit) (a : Nat) : (s.accessed k o a).bar = s.bar := by
  simp [State.accessed]

@[simp] theorem updRead_bar (s : State) (rid : Nat) (f : ReadJob → ReadJob) : (s.updRead rid f).bar = s.bar := rfl

@[simp] theorem readVal_bar (s : State) (j : ReadJob) (o : Kit × Nat) (a : Nat) (v : Option (List Byte)) :
    (s.readVal j o a v).bar = s.bar := by
  simp [State.readVal]

@[simp] theorem readFree_bar (s : State) (rid : Nat) : (s.readFree rid).bar = s.bar := by
  unfold State.readFree
  split
  · rfl
  · refine forEach_bar (fun a t => ?_) _ s
    dsimp only
    split <;> simp

theorem readToken_bar {s t : State} {rid : Nat} (h : s.readToken rid = some t) : t.bar = s.bar := by
  unfold State.readToken at h
  split at h
  · cases h
  · obtain ⟨a, -, ha⟩ := List.exists_of_findSome?_eq_some h
    dsimp only at ha
    split at ha
    · obtain ⟨u, hu, rfl⟩ := Option.map_eq_some_iff.mp ha
      simp [kitToken_bar hu]
    · cases ha

@[simp] theorem answerEarly_bar (s : State) (j : ReadJob) : (s.answerEarly j).bar = s.bar := rfl

@[simp] theorem finishRead_bar (s : State) (rid : Nat) : (s.finishRead rid).bar = s.bar := by
  unfold State.finishRead
  split <;> simp

theorem readVisit_bar {s t : State} {k : Kit} (h : s.readVisit k = some t) : t.bar = s.bar := by
  obtain ⟨rid, -, hrid⟩ := List.exists_of_findSome?_eq_some h
  obtain ⟨u, hu, rfl⟩ := Option.map_eq_some_iff.mp hrid
  rw [finishRead_bar, readToken_bar hu, readFree_bar]

@[simp] theorem readSome_bar (k : Kit) (n : Nat) (s : State) : (s.readSome k n).bar = s.bar := by
  induction n generalizing s with
  | zero => rfl
  | succ n ih =>
    unfold State.readSome
    split
    · next t h => rw [ih, readVisit_bar h]
    · rfl

@[simp] theorem readRound_bar (n : Nat) (s : State) : (s.readRound n).bar = s.bar := by
  induction n generalizing s with
  | zero => rfl
  | succ n ih => simp [State.readRound, ih]

@[simp] theorem readsGoOn_bar (s : State) : s.readsGoOn.bar = s.bar := by simp [State.readsGoOn]

/-! #### Placement (07 R180 to R186) -/

@[simp] theorem setMuffle_bar (s : State) (m : Muffle) : (s.setMuffle m).bar = s.bar := rfl

@[simp] theorem storeMuffle_bar (s : State) (j : MufJob) (kp : KPage) (cs : List (Option (List Byte))) :
    (s.storeMuffle j kp cs).bar = s.bar := by
  refine forEach_bar (fun x t => ?_) _ (s.setMuffle _)
  rfl

@[simp] theorem readPageFor_bar (k : Kit) (kp : KPage) (n : Nat) (got : List (Option (List Byte))) (s : State) :
    (s.readPageFor k kp n got).2.bar = s.bar := by
  induction n generalizing got s with
  | zero => rfl
  | succ n ih =>
    unfold State.readPageFor
    dsimp only
    split
    · exact ih _ _
    · split
      · exact ih _ _
      · exact ih _ _
      · split
        · next t h => simp [ih, kitToken_bar h]
        · rfl
      · exact startPromote_bar _ _ _ _ _
      · rfl

@[simp] theorem updMuf_bar (s : State) (j : MufJob) : (s.updMuf j).bar = s.bar := rfl
@[simp] theorem muffleOver_bar (s : State) (j : MufJob) : (s.muffleOver j).bar = s.bar := by simp [State.muffleOver]

@[simp] theorem muffleStep_bar (rid n : Nat) (s : State) : (s.muffleStep rid n).bar = s.bar := by
  induction n generalizing s with
  | zero => rfl
  | succ n ih =>
    unfold State.muffleStep
    split
    · rfl
    · split
      · exact muffleOver_bar _ _
      · simp [ih]

@[simp] theorem mufflesGoOn_bar (s : State) : s.mufflesGoOn.bar = s.bar := by simp [State.mufflesGoOn]

/-! #### Rudiments (12 R309 to R323) -/

@[simp] theorem stagesOver_bar (s : State) : s.stagesOver.bar = s.bar := by simp [State.stagesOver]
@[simp] theorem stopDue_bar (s : State) : s.stopDue.bar = s.bar := rfl

@[simp] theorem halt_bar (s : State) (e : Engine) (g : EngSt) (fault : Nat) : (s.halt e g fault).bar = s.bar := by
  simp [State.halt]

@[simp] theorem fetchGo_bar (s : State) (k : Kit) (near : Bool) (tag : Engine × Option Nat) (kp : KPage) :
    (s.fetchGo k near tag kp).bar = s.bar := by
  unfold State.fetchGo
  dsimp only
  split
  · simp
  · split <;> simp

@[simp] theorem fetchesGoOn_bar (s : State) : s.fetchesGoOn.bar = s.bar :=
  forEach_bar (fun e t => forEach_bar (fun f t => forEach_bar (fun kp t => by simp) _ t) _ t) _ s

@[simp] theorem readPush_bar (k : Kit) (n : Nat) (p : PushPkt) (s : State) : (s.readPush k n p).2.bar = s.bar := by
  induction n generalizing p s with
  | zero => rfl
  | succ n ih =>
    unfold State.readPush
    split
    · rfl
    · split
      · dsimp only
        split
        · next t h => simp [ih, kitToken_bar h]
        · rfl
      · dsimp only
        split
        · exact ih _ _
        · split
          · exact ih _ _
          · exact ih _ _
          · split
            · next t h => simp [ih, kitToken_bar h]
            · rfl
          · exact startPromote_bar _ _ _ _ _
          · rfl

@[simp] theorem readFifo_bar (k : Kit) (ps : List PushPkt) (s : State) : (s.readFifo k ps).2.bar = s.bar := by
  induction ps generalizing s with
  | nil => rfl
  | cons p ps ih => simp [State.readFifo, ih]

@[simp] theorem pushesGoOn_bar (s : State) : s.pushesGoOn.bar = s.bar := by simp [State.pushesGoOn]

@[simp] theorem countStalls_bar (s : State) : s.countStalls.bar = s.bar := by
  refine forEach_bar (fun e t => ?_) _ s
  rfl

/-! #### The Belfry port and its records (15 R376 to R385) -/

@[simp] theorem chargeKit_bar (s : State) (k : Kit) (n : Nat) : (s.chargeKit k n).bar = s.bar := rfl
@[simp] theorem chargeMaint_bar (s : State) (n : Nat) : (s.chargeMaint n).bar = s.bar := rfl

@[simp] theorem belAnswer_bar (s : State) (rid : Nat) (rq : Req) (k : Kit) (a : Answer) :
    (s.belAnswer rid rq k a).bar = s.bar := by
  unfold State.belAnswer
  split
  · simp
  · split <;> simp

@[simp] theorem belRead_bar (s : State) (rid : Nat) (rq : Req) : (s.belRead rid rq).bar = s.bar := by
  simp [State.belRead]

@[simp] theorem belSeal_bar (s : State) (rid : Nat) (rq : Req) : (s.belSeal rid rq).bar = s.bar := by
  simp [State.belSeal]

@[simp] theorem belWriteEnds_bar (s : State) (j : BelJob) : (s.belWriteEnds j).bar = s.bar := by
  simp [State.belWriteEnds]

@[simp] theorem recordGone_bar (s : State) (rid num where_ : Nat) : (s.recordGone rid num where_).bar = s.bar := by
  unfold State.recordGone
  split <;> simp

@[simp] theorem belWriteFails_bar (s : State) (rid a : Nat) : (s.belWriteFails rid a).bar = s.bar := by
  simp [State.belWriteFails]

@[simp] theorem keyLost_bar (s : State) (k : Kit) : (s.keyLost k).bar = s.bar := by simp [State.keyLost]

@[simp] theorem absentRec_bar (s : State) (r : RecId) : (s.absentRec r).bar = s.bar := by
  unfold State.absentRec
  split <;> simp

@[simp] theorem recBad_bar (s : State) (r : RecId) : (s.recBad r).bar = s.bar := by simp [State.recBad]

@[simp] theorem fixCopy_bar (s : State) (cal : Bool) (r : RecId) (second : Bool) :
    (s.fixCopy cal r second).bar = s.bar := by
  simp [State.fixCopy]

@[simp] theorem readRec_bar (s : State) (cal : Bool) (r : RecId) : (s.readRec cal r).bar = s.bar := by
  simp [State.readRec]

@[simp] theorem logFails_bar (s : State) (page : Nat) : (s.logFails page).bar = s.bar := by simp [State.logFails]

@[simp] theorem refreshEnds_bar (s : State) (page : Nat) (still : BitVec 8) :
    (s.refreshEnds page still).bar = s.bar := by
  have hlog : (forEach (fun (c : Nat) (t : State) => t.logRec 0x0604 (page + 256 * c)) (chunkList still) s).bar = s.bar :=
    forEach_bar (by simp) _ s
  simp [State.refreshEnds, hlog]

@[simp] theorem keyCopy_bar (s : State) (r : RecId) (second : Bool) : (s.keyCopy r second).bar = s.bar := by
  unfold State.keyCopy
  split <;> simp

@[simp] theorem updateLost_bar (s : State) (r : RecId) : (s.updateLost r).bar = s.bar := by
  unfold State.updateLost
  split <;> simp

@[simp] theorem belEnds_bar (s : State) (e : BelEnd) : (s.belEnds e).bar = s.bar := by
  unfold State.belEnds
  split
  · split <;> simp
  all_goals simp

@[simp] theorem belPuts_bar (s : State) (p : BelPut) : (s.belPuts p).bar = s.bar := by
  unfold State.belPuts
  split <;> simp

@[simp] theorem belWritten_bar (s : State) (x : BelStep) : (s.belWritten x).bar = s.bar := by
  unfold State.belWritten
  extract_lets stored
  have hstored : stored.bar = s.bar := by
    unfold stored
    split <;> simp
  clear_value stored
  split <;> simp [hstored]

@[simp] theorem belNow_bar (x : BelStep) (s : State) : (s.belNow x).bar = s.bar := by simp [State.belNow]
@[simp] theorem belStart_bar (s : State) (l : List BelStep) : (s.belStart l).bar = s.bar := by simp [State.belStart]

@[simp] theorem belSettle_bar (s : State) : s.belSettle.bar = s.bar := by
  unfold State.belSettle
  split
  · rfl
  · split <;> simp

@[simp] theorem portOn_bar (n : Nat) (s : State) : (s.portOn n).bar = s.bar := by
  induction n generalizing s with
  | zero => rfl
  | succ n ih =>
    unfold State.portOn
    split
    · rfl
    · split <;> simp [ih]

@[simp] theorem portGoes_bar (s : State) : s.portGoes.bar = s.bar := by simp [State.portGoes]

@[simp] theorem belNext_bar (s : State) : s.belNext.bar = s.bar := by
  unfold State.belNext
  split
  · rfl
  · split <;> simp

@[simp] theorem portBeat_bar (s : State) : s.portBeat.bar = s.bar := by simp [State.portBeat]
@[simp] theorem refreshFalls_bar (s : State) : s.refreshFalls.bar = s.bar := by simp [State.refreshFalls]

/-! #### Repair (14 R355 to R372) -/

@[simp] theorem updRun_bar (s : State) (k : UnitKind) (f : Transfer → Transfer) : (s.updRun k f).bar = s.bar := rfl
@[simp] theorem addRun_bar (s : State) (t : Transfer) : (s.addRun t).bar = s.bar := rfl

@[simp] theorem repairEvent_bar (s : State) (done : Bool) (f : FaultRec) : (s.repairEvent done f).bar = s.bar := by
  simp [State.repairEvent]

@[simp] theorem repairDone_bar (s : State) (f : FaultRec) : (s.repairDone f).bar = s.bar := by simp [State.repairDone]
@[simp] theorem startUnit_bar (s : State) (f : FaultRec) : (s.startUnit f).bar = s.bar := by simp [State.startUnit]

@[simp] theorem startResilver_bar (s : State) (role : Nat) : (s.startResilver role).bar = s.bar := by
  unfold State.startResilver
  split <;> simp

@[simp] theorem tryQueued_bar (f : FaultRec) (s : State) : (s.tryQueued f).bar = s.bar := by simp [State.tryQueued]
@[simp] theorem autoRepairs_bar (s : State) : s.autoRepairs.bar = s.bar := by simp [State.autoRepairs]
@[simp] theorem runsStart_bar (s : State) : s.runsStart.bar = s.bar := by simp [State.runsStart]

@[simp] theorem rebuildChord_bar (s : State) (t : Transfer) (c : Nat) : (s.rebuildChord t c).bar = s.bar := by
  simp [State.rebuildChord]

@[simp] theorem rebuildOne_bar (s : State) : s.rebuildOne.bar = s.bar := by
  unfold State.rebuildOne
  split
  · rfl
  · split
    · rfl
    · next t h => simp [maintToken_bar h]

@[simp] theorem verifyOne_bar (s : State) : s.verifyOne.bar = s.bar := by
  unfold State.verifyOne
  split
  · rfl
  · split
    · rfl
    · split
      · rfl
      · next t h => simp [maintToken_bar h]

@[simp] theorem verifySome_bar (n : Nat) (s : State) : (verifySome n s).bar = s.bar := by
  induction n generalizing s with
  | zero => rfl
  | succ n ih => simp [verifySome, ih]

@[simp] theorem phasesGoOn_bar (s : State) : s.phasesGoOn.bar = s.bar := rfl

@[simp] theorem transfersGoOn_bar (s : State) (n : Nat) : (s.transfersGoOn n).bar = s.bar := by
  simp [State.transfersGoOn]

/-! #### CLOSE (07 R203) -/

@[simp] theorem splitClean_bar (s : State) : s.splitClean.bar = s.bar := by simp [State.splitClean]

@[simp] theorem snapSpend_bar (s : State) (c : CloseJob) (n : Nat) : (s.snapSpend c n).bar = s.bar := by
  simp [State.snapSpend]

@[simp] theorem closeReply_bar (s : State) (c : CloseJob) : (s.closeReply c).bar = s.bar := by simp [State.closeReply]
@[simp] theorem askLeave_bar (s : State) (c : CloseJob) : (s.askLeave c).bar = s.bar := rfl

@[simp] theorem closeStep_bar (s : State) : s.closeStep.bar = s.bar := by
  unfold State.closeStep
  split
  · rfl
  · split
    · rfl
    · split
      · simp
      · split
        · simp
        · simp

@[simp] theorem closeGoesOn_bar (s : State) : s.closeGoesOn.bar = s.bar := by simp [State.closeGoesOn]

/-! #### Errors of the SRAMs (13 R346, Table 13.8) -/

@[simp] theorem tallyLost_bar (s : State) (i : Nat) : (s.tallyLost i).bar = s.bar := by simp [State.tallyLost]
@[simp] theorem nearLost_bar (s : State) (blk line : Nat) : (s.nearLost blk line).bar = s.bar := rfl
@[simp] theorem blockLost_bar (s : State) (blk : Nat) : (s.blockLost blk).bar = s.bar := rfl

@[simp] theorem tagLost_bar (s : State) (blk : Nat) : (s.tagLost blk).bar = s.bar := by
  unfold State.tagLost
  split
  · simp
  · split
    · rfl
    · dsimp only
      split <;> simp

@[simp] theorem intakeLost_bar (s : State) (rid a : Nat) : (s.intakeLost rid a).bar = s.bar := by
  unfold State.intakeLost
  split
  · rfl
  · split
    · rfl
    · dsimp only
      split <;> simp

@[simp] theorem holdLost_bar (s : State) (ent : Nat) : (s.holdLost ent).bar = s.bar := by
  unfold State.holdLost
  split <;> simp

@[simp] theorem preLost_bar (s : State) (ent : Nat) : (s.preLost ent).bar = s.bar := rfl

@[simp] theorem mergeLost_bar (s : State) (i : Fin 64) : (s.mergeLost i).bar = s.bar := by
  unfold State.mergeLost
  split <;> simp

@[simp] theorem sectorAgain_bar (s : State) (k : Kit) (kp : KPage) (x : BitVec 4) :
    (s.sectorAgain k kp x).bar = s.bar := by
  unfold State.sectorAgain
  split <;> simp

@[simp] theorem redoAgain_bar (s : State) (rid unit : Nat) : (s.redoAgain rid unit).bar = s.bar := by
  unfold State.redoAgain
  split
  · rfl
  · split
    · dsimp only
      split <;> simp
    · rfl

@[simp] theorem storeLost_bar (s : State) (k : Kit) (slot : Fin 8) : (s.storeLost k slot).bar = s.bar := by
  simp [State.storeLost]

@[simp] theorem sramLost_bar (s : State) (w : SramWord) : (s.sramLost w).bar = s.bar := by
  cases w <;> simp [State.sramLost]

@[simp] theorem nearFaulty_bar (w : SramWord) (s : State) : (s.nearFaulty w).bar = s.bar := by
  unfold State.nearFaulty
  split <;> simp

@[simp] theorem sramMet_bar (x : SramErr) (s : State) : (s.sramMet x).bar = s.bar := by simp [State.sramMet]
@[simp] theorem sramErrors_bar (s : State) : s.sramErrors.bar = s.bar := by simp [State.sramErrors]

/-! #### The Beat itself (02 R46) -/

@[simp] theorem nowInForce_bar (s : State) : s.nowInForce.bar = s.bar := rfl
@[simp] theorem holdTick_bar (s : State) : s.holdTick.bar = s.bar := by simp [State.holdTick]
@[simp] theorem wearChord_bar (s : State) : s.wearChord.bar = s.bar := rfl

@[simp] theorem snapOne_bar (s : State) (cost : Nat) : (s.snapOne cost).bar = s.bar := by
  unfold State.snapOne
  split <;> simp

@[simp] theorem sacOne_bar (s : State) : s.sacOne.bar = s.bar := rfl

@[simp] theorem issueGrp_bar (q : List DeepOp) (g : Grp) (s : State) : (s.issueGrp q g).bar = s.bar := by
  unfold State.issueGrp
  split
  case h_2 => split <;> simp
  all_goals simp

@[simp] theorem countStarved_bar (s : State) (al : Alloc) (ds : List KDem) : (s.countStarved al ds).bar = s.bar := by
  unfold State.countStarved
  dsimp only
  split <;> exact forEach_bar (by simp) _ s

@[simp] theorem spendBeat_bar (s : State) : s.spendBeat.bar = s.bar := by
  have hcharge (l : List (Kit × Grp)) (t : State) :
      (forEach (fun (x : Kit × Grp) (t : State) => t.chargeKit x.1 x.2.cost) l t).bar = t.bar :=
    forEach_bar (by simp) l t
  simp [State.spendBeat, hcharge]

@[simp] theorem scrubPast_bar (s : State) : s.scrubPast.bar = s.bar := by simp [State.scrubPast]

theorem scrubOne_bar {s t : State} (h : s.scrubOne = some t) : t.bar = s.bar := by
  unfold State.scrubOne at h
  split at h
  · cases h
  · split at h
    · cases h; simp
    · obtain ⟨u, hu, rfl⟩ := Option.map_eq_some_iff.mp h
      simp [maintToken_bar hu]

@[simp] theorem scrubSome_bar (n : Nat) (s : State) : (s.scrubSome n).bar = s.bar := by
  induction n generalizing s with
  | zero => rfl
  | succ n ih =>
    unfold State.scrubSome
    split
    · next t h => rw [ih, scrubOne_bar h]
    · rfl

@[simp] theorem scrubOn_bar (s : State) : s.scrubOn.bar = s.bar := by simp [State.scrubOn]
@[simp] theorem scrubPart_bar (s : State) : s.scrubPart.bar = s.bar := by simp [State.scrubPart]
@[simp] theorem tokens_bar (s : State) : s.tokens.bar = s.bar := by simp [State.tokens]
@[simp] theorem probesFollow_bar (s : State) : s.probesFollow.bar = s.bar := rfl
@[simp] theorem warmUp_bar (s : State) : s.warmUp.bar = s.bar := by simp [State.warmUp]
@[simp] theorem degrades_bar (s : State) : s.degrades.bar = s.bar := by simp [State.degrades]
@[simp] theorem trafficBeat_bar (s : State) : s.trafficBeat.bar = s.bar := by simp [State.trafficBeat]
@[simp] theorem runBeat_bar (s : State) : s.runBeat.bar = s.bar := by simp [State.runBeat]
@[simp] theorem adaptStart_bar (s : State) : s.adaptStart.bar = s.bar := by simp [State.adaptStart]

@[simp] theorem barMeasured_bar (s : State) (permille : Nat) : (s.barMeasured permille).bar = s.bar := by
  simp [State.barMeasured]

@[simp] theorem heldFalls_bar (s : State) : s.heldFalls.bar = s.bar := rfl
@[simp] theorem waitingChanges_bar (s : State) : s.waitingChanges.bar = s.bar := by simp [State.waitingChanges]
@[simp] theorem strictDown_bar (s : State) : s.strictDown.bar = s.bar := by simp [State.strictDown]
@[simp] theorem downChanges_bar (s : State) : s.downChanges.bar = s.bar := by simp [State.downChanges]

/-! ### A Beat that is no Downbeat (02 R37, R39, R55) -/

theorem shorten_bar (s : State) : ∃ short shortAt, s.shorten.bar = { s.bar with short := short, shortAt := shortAt } :=
  ⟨_, _, rfl⟩

theorem closeBeat_bar (s : State) : s.closeBeat.bar = { s.bar with cal := 0 } := by
  simp [State.closeBeat]

theorem wraps_bar (s : State) : s.wraps.bar = { s.bar with epoch := (s.bar.epoch + 1) % 65536 } := by
  simp [State.wraps]

theorem barBegins_bar (s : State) (marked : Bool) :
    ∃ bLost, (s.barBegins marked).bar = { s.bar with barMarked := marked, bLost := bLost } :=
  ⟨_, by simp [State.barBegins, State.barStarts]; rfl⟩

/-- What a tick does to ring time: the count, its epoch and its counters move on; whatever else may change with them is of
windows (04 R104), of Ring B (R45) and of the Bar's marker (18 R445). -/
theorem tick_bar (s : State) (marked osc : Bool) (permille : Nat) :
    ∃ fwBars short shortAt barMarked bLost, (s.tick marked osc permille).bar =
      { s.bar with
        beatno := (s.bar.beatno + 1) % Config.beatWrap,
        epoch := if (s.bar.beatno + 1) % Config.beatWrap = 0 then (s.bar.epoch + 1) % 65536 else s.bar.epoch,
        missed := up32 s.bar.missed (b2n (!marked)), lost := satAdd 12 s.bar.lost 1, onOsc := s.bar.onOsc || osc,
        fwBars := fwBars, short := short, shortAt := shortAt, barMarked := barMarked, bLost := bLost } := by
  unfold State.tick
  extract_lets n fw old bar _ s1 s2 s3
  obtain ⟨short, shortAt, hs1⟩ : ∃ short shortAt, s1.bar = { bar with short := short, shortAt := shortAt } := shorten_bar _
  have hs2 : s2.bar = { bar with
      short := short, shortAt := shortAt, epoch := if n = 0 then (s.bar.epoch + 1) % 65536 else s.bar.epoch } := by
    unfold s2
    by_cases hn : n = 0
    · simp [hn, wraps_bar, hs1, bar, old]
    · simp [hn, hs1, bar, old]
  split
  · exact ⟨_, _, _, _, _, hs2⟩
  · obtain ⟨bLost, hs3⟩ : ∃ bLost, s3.bar = { s2.bar with barMarked := false, bLost := bLost } := by
      obtain ⟨bLost, h⟩ := barBegins_bar (if osc then s2 else s2.barMeasured permille) false
      exact ⟨bLost, by simpa using h⟩
    refine ⟨fw, short, shortAt, false, bLost, ?_⟩
    rw [ite_bar, downChanges_bar, ite_self, hs3, hs2]

theorem masterBeats_of_not_source {s : State} (h : s.bar.beatsrc = false) : s.masterBeats = s := by
  simp [State.masterBeats, h]

/-- In Run and Degraded a Beat on the slots, no valid Downbeat, runs whole (R46). -/
theorem beat_on_slots {s : State} {m : Option Marker} (q : Nat) (hmode : s.mode = .run ∨ s.mode = .degraded)
    (hsrc : s.bar.beatsrc = false) (hcomp : s.completing = false) (hhold : s.bar.hold = false)
    (htrain : s.bar.retrain = false) :
    s.beat (.slots q) m = (s.closeBeat.tick (s.beatMarked false m) false q).masterBeats.degrades.runBeat := by
  rcases hmode with hmode | hmode <;>
    simp [State.beat, State.barHeld, BeatBase.slotted, BeatBase.permille, Mode.timed, hmode, hsrc, hcomp, hhold, htrain]

/-- A Beat that runs whole moves ring time on as its tick does: nothing that it runs touches the count. -/
theorem beat_on_slots_bar {s : State} (m : Option Marker) (q : Nat) (hmode : s.mode = .run ∨ s.mode = .degraded)
    (hsrc : s.bar.beatsrc = false) (hcomp : s.completing = false) (hhold : s.bar.hold = false)
    (htrain : s.bar.retrain = false) :
    (s.beat (.slots q) m).bar = (s.closeBeat.tick (s.beatMarked false m) false q).bar := by
  obtain ⟨fwBars, short, shortAt, barMarked, bLost, htick⟩ := tick_bar s.closeBeat (s.beatMarked false m) false q
  have htsrc : (s.closeBeat.tick (s.beatMarked false m) false q).bar.beatsrc = false := by
    rw [htick, closeBeat_bar]
    exact hsrc
  rw [beat_on_slots q hmode hsrc hcomp hhold htrain, masterBeats_of_not_source htsrc, runBeat_bar, degrades_bar]

/-! ### When a boundary is the row of a Downbeat -/

theorem gongFires_of_none {s : State} (h : s.gongDue = none) : s.gongFires = s := by
  simp [State.gongFires, h]

theorem exec_beatBoundary_of_no_gong {s : State} (base : BeatBase) (m : Option Marker) (h : s.gongDue = none) :
    exec (.beatBoundary base m) s = .next (s.beatBoundary base m) := by
  conv_rhs => rw [← gongFires_of_none h]
  rfl

theorem beatBoundary_downbeat {s : State} {m : Marker} (q : Nat) (hsrc : s.bar.beatsrc = false)
    (h : markerDown m s.bar.rate = true) : s.beatBoundary (.slots q) (some m) = s := by
  simp [State.beatBoundary, BeatBase.slotted, hsrc, h]

theorem beatBoundary_beat {s : State} {m : Option Marker} (q : Nat)
    (h : ¬ ∃ x, m = some x ∧ markerDown x s.bar.rate = true) : s.beatBoundary (.slots q) m = s.beat (.slots q) m := by
  cases m with
  | none => simp [State.beatBoundary]
  | some x =>
    have hx : markerDown x s.bar.rate = false := by
      rw [← Bool.not_eq_true]
      exact fun hd => h ⟨x, rfl, hd⟩
    simp [State.beatBoundary, hx]

theorem beatBoundary_oscillator (s : State) (m : Option Marker) : s.beatBoundary .oscillator m = s.beat .oscillator m := by
  simp [State.beatBoundary, BeatBase.slotted]

/-- A boundary on the slots at which the Beat would change nothing changes nothing, whatever its marker. -/
theorem beatBoundary_slots_unchanged {s : State} (m : Option Marker) (q : Nat) (h : s.beat (.slots q) m = s) :
    s.beatBoundary (.slots q) m = s := by
  simp [State.beatBoundary, h]

/-! ### Boundaries that count nothing (R37, R55) -/

theorem beat_untimed {s : State} (base : BeatBase) (m : Option Marker) (hsrc : s.bar.beatsrc = false)
    (hcomp : s.completing = false) (htimed : s.mode.timed = false) : s.beat base m = s := by
  simp [State.beat, State.sourceIdle, hsrc, hcomp, htimed]

theorem beat_wrong_base {s : State} (m : Option Marker) (q : Nat) (hsrc : s.bar.beatsrc = false)
    (hcomp : s.completing = false) (hhold : s.bar.hold = false) (hosc : s.mode = .freewheel ∨ s.bar.retrain = true) :
    s.beat (.slots q) m = s := by
  rcases hosc with hosc | hosc <;>
    simp [State.beat, State.sourceIdle, BeatBase.slotted, hsrc, hcomp, hhold, hosc]

theorem beat_rest_holds {s : State} (m : Option Marker) (hsrc : s.bar.beatsrc = false) (hcomp : s.completing = false)
    (hmode : s.mode = .rest) (hhold : s.bar.hold = false) (htrain : s.bar.retrain = false)
    (hend : s.bar.beatno % 1024 = 1023) : s.beat .oscillator m = { s with bar := { s.bar with hold := true } } := by
  simp [State.beat, State.barHeld, State.beatIx, BeatBase.slotted, Mode.timed, hsrc, hcomp, hmode, hhold, htrain, hend]

/-! ### Whether the Beat counts as marked (R36, R37) -/

theorem missed_of_unmarked {s : State} {m : Option Marker} (h : ∀ x, m = some x → markerValid x s.bar.rate = false) :
    up32 s.bar.missed (b2n (!s.beatMarked false m)) = min (s.bar.missed + 1) (2 ^ 32 - 1) := by
  have hmark : s.beatMarked false m = false := by
    cases m with
    | none => rfl
    | some x => exact h x rfl
  rw [hmark]
  exact Nat.min_comm _ _

theorem missed_of_marked {s : State} {x : Marker} (h : markerValid x s.bar.rate = true) :
    up32 s.bar.missed (b2n (!s.beatMarked false (some x))) = min s.bar.missed (2 ^ 32 - 1) := by
  have hmark : s.beatMarked false (some x) = true := h
  rw [hmark]
  exact Nat.min_comm _ _

/-- Settles O30: every Stroke of an allocation is issued or left (`allocate_issued_add_left`); a Beat that runs on the
slots moves ring time on as its tick does (`beat_on_slots_bar`); the boundaries that count nothing leave the state as it
is, but for the hold of Rest. That a valid marker marks the Beat that the count begins, whatever index it names, is the
model's deduction (log 109). -/
theorem beatsAndBudgets : Obligations.BeatsAndBudgets := by
  unfold Obligations.BeatsAndBudgets
  refine ⟨by decide, fun strict budget reserve start ds mg =>
    ⟨allocate_issued_add_left strict budget reserve start ds mg, allocate_maint_le strict budget reserve start ds mg⟩,
    fun s m q hsrc hgong => ?_⟩
  have hexec base : exec (.beatBoundary base m) s = .next (s.beatBoundary base m) :=
    exec_beatBoundary_of_no_gong base m hgong
  intro n down
  rw [hexec, hexec]
  refine ⟨fun hmode hcomp hhold htrain _ hdown => ?counts, ?downbeat, fun hcomp htimed => ⟨?slots, ?oscillator⟩,
    fun hcomp hhold hosc => ?wrongBase, fun hcomp hmode hhold htrain hend => ?rest⟩
  case counts =>
    obtain ⟨fwBars, short, shortAt, barMarked, bLost, htick⟩ := tick_bar s.closeBeat (s.beatMarked false m) false q
    have hbar := beat_on_slots_bar m q hmode hsrc hcomp hhold htrain
    rw [htick, closeBeat_bar] at hbar
    rw [beatBoundary_beat q hdown]
    refine ⟨_, rfl, ?_⟩
    rw [hbar]
    refine ⟨rfl, rfl, missed_of_unmarked, ?_, rfl, rfl⟩
    rintro ⟨x, rfl, hx⟩
    exact missed_of_marked hx
  case downbeat =>
    rintro ⟨x, rfl, hx⟩
    rw [beatBoundary_downbeat q hsrc hx]
  case slots =>
    rw [beatBoundary_slots_unchanged m q (beat_untimed _ m hsrc hcomp htimed)]
  case oscillator =>
    rw [beatBoundary_oscillator, beat_untimed _ m hsrc hcomp htimed]
  case wrongBase =>
    rw [beatBoundary_slots_unchanged m q (beat_wrong_base m q hsrc hcomp hhold hosc)]
  case rest =>
    rw [beatBoundary_oscillator, beat_rest_holds m hsrc hcomp hmode hhold htrain hend]

end Sys2Proof.Machine

/-! PROOFS. The calendar: scrub (13 R343), heat decay (09 R242) and the end of a Measure (03 R85, 10 R272, 13 R345, 15
R379). -/

namespace Sys2Proof.Machine

/-! ### What an operation on other state leaves of the byte stores -/

theorem sameStores_of_eq {s t : State} (hmram : t.mram = s.mram) (hnand : t.deep.nand = s.deep.nand)
    (hbel : t.bel.mem = s.bel.mem) : SameStores s t :=
  ⟨fun a => congrArg (cellGet · a) hmram, fun a => congrArg (cellGet · a) hnand, fun a => congrArg (cellGet · a) hbel⟩

theorem sameStores_trans {s t u : State} (hst : SameStores s t) (htu : SameStores t u) : SameStores s u :=
  ⟨fun a => (htu.1 a).trans (hst.1 a), fun a => (htu.2.1 a).trans (hst.2.1 a), fun a => (htu.2.2 a).trans (hst.2.2 a)⟩

/-! ### Events registers (19 R453) -/

theorem ev_raise_same (s : State) (i : EvId) (mask : BitVec 8) :
    ((s.raise i mask).ev i).bits = (s.ev i).bits ||| mask := by
  simp [State.ev, State.raise, EvReg.raise]

theorem ev_raise_other {i j : EvId} (s : State) (mask : BitVec 8) (h : i.ix.val ≠ j.ix.val) :
    (s.raise i mask).ev j = s.ev j := by
  simp [State.ev, State.raise, h]

/-! ### Scrub (13 R343)

An array read counts, queues and reports; the scrub's own place, the tokens and the stored bytes stay as they are. -/

/-- Where the scrub stands: its accumulator, the chords due and the cursor. -/
def Ecc.scrubPlace (e : Ecc) : Nat × Nat × Nat := (e.acc, e.due, e.cur)

theorem fix_scrubPlace (e : Ecc) (c : Nat) (mask : Slices) (beat : Nat) :
    (e.fix c mask beat).scrubPlace = e.scrubPlace := by
  unfold Ecc.fix
  split <;> rfl

theorem metaFails_frame (s : State) (c : Nat) :
    (s.metaFails c).ecc = s.ecc ∧ (s.metaFails c).stk = s.stk ∧ SameStores s (s.metaFails c) := by
  unfold State.metaFails
  split
  case h_5 => split <;> exact ⟨rfl, rfl, sameStores_of_eq rfl rfl rfl⟩
  all_goals exact ⟨rfl, rfl, sameStores_of_eq rfl rfl rfl⟩

theorem readArray_frame (s : State) (src c : Nat) :
    (s.readArray src c).ecc.scrubPlace = s.ecc.scrubPlace ∧ (s.readArray src c).stk = s.stk ∧
      SameStores s (s.readArray src c) := by
  unfold State.readArray
  extract_lets o counted fixed fresh marked t
  have hfixed : fixed.scrubPlace = s.ecc.scrubPlace := by
    unfold fixed
    split
    · exact fix_scrubPlace _ _ _ _
    · rfl
  have hmarked : marked.scrubPlace = s.ecc.scrubPlace := by
    unfold marked
    split <;> exact hfixed
  have ht : SameStores s t := sameStores_of_eq rfl rfl rfl
  split
  · obtain ⟨hecc, hstk, hstores⟩ := metaFails_frame ((t.raise .ecc 0x01).tally 0x51 none (c + 2 ^ 32 * src)) c
    have htold : SameStores t ((t.raise .ecc 0x01).tally 0x51 none (c + 2 ^ 32 * src)) :=
      sameStores_of_eq (by simp) (by simp) (by simp)
    refine ⟨?_, ?_, sameStores_trans ht (sameStores_trans htold hstores)⟩
    · rw [hecc, tally_ecc]
      exact hmarked
    · rw [hstk, tally_stk]
      rfl
  · split
    · obtain ⟨hecc, hstk, hstores⟩ := metaFails_frame t c
      exact ⟨(congrArg Ecc.scrubPlace hecc).trans hmarked, hstk, sameStores_trans ht hstores⟩
    · exact ⟨hmarked, rfl, ht⟩

/-- A token of the maintenance part is taken, and nothing else changes for the scrub. -/
theorem maintToken_of_part {s : State} (h : 0 < s.stk.tokMaint) : ∃ t, s.maintToken = some t ∧ t.ecc = s.ecc ∧
    t.stk.tokMaint = s.stk.tokMaint - 1 ∧ SameStores s t :=
  ⟨_, if_pos h, rfl, rfl, sameStores_of_eq rfl rfl rfl⟩

theorem scrubPast_of_no_wrap {s : State} (h : s.ecc.cur + 1 < 2 ^ 28) :
    s.scrubPast = { s with ecc := { s.ecc with due := s.ecc.due - 1, cur := s.ecc.cur + 1 } } := by
  have hcur : (s.ecc.cur + 1) % Config.chordCount = s.ecc.cur + 1 := Nat.mod_eq_of_lt h
  simp [State.scrubPast, hcur]

/-- With a token of its own maintenance reads the chord at the cursor and moves past it. -/
theorem scrubOne_reads {s : State} (hdue : s.ecc.due ≠ 0) (hentry : s.entryAt s.ecc.cur = false)
    (htok : 0 < s.stk.tokMaint) (hcur : s.ecc.cur + 1 < 2 ^ 28) : ∃ t, s.scrubOne = some t ∧
      t.ecc.scrubPlace = (s.ecc.acc, s.ecc.due - 1, s.ecc.cur + 1) ∧ t.stk.tokMaint = s.stk.tokMaint - 1 ∧
      SameStores s t := by
  obtain ⟨u, hu, hecc, htokens, hstores⟩ := maintToken_of_part htok
  obtain ⟨hplace, hstk, hread⟩ := readArray_frame u 2 s.ecc.cur
  rw [hecc] at hplace
  obtain ⟨hacc, hdue', hcur'⟩ : (u.readArray 2 s.ecc.cur).ecc.acc = s.ecc.acc ∧
      (u.readArray 2 s.ecc.cur).ecc.due = s.ecc.due ∧ (u.readArray 2 s.ecc.cur).ecc.cur = s.ecc.cur := by
    simpa [Ecc.scrubPlace] using hplace
  refine ⟨(u.readArray 2 s.ecc.cur).scrubPast, by simp [State.scrubOne, hdue, hentry, hu], ?_⟩
  rw [scrubPast_of_no_wrap (hcur'.symm ▸ hcur)]
  refine ⟨?_, ?_, sameStores_trans hstores hread⟩
  · simp [Ecc.scrubPlace, hacc, hdue', hcur']
  · rw [← htokens, ← hstk]

theorem scrubSome_of_none_due {s : State} (n : Nat) (h : s.ecc.due = 0) : s.scrubSome n = s := by
  cases n with
  | zero => rfl
  | succ n => simp [State.scrubSome, State.scrubOne, h]

theorem scrubSome_succ {s t : State} (n : Nat) (h : s.scrubOne = some t) : s.scrubSome (n + 1) = t.scrubSome n := by
  simp [State.scrubSome, h]

theorem scrubOn_of_none_due {s : State} (h : s.ecc.due = 0) : s.scrubOn = s := by
  simp [State.scrubOn, h]

/-- One chord due is read, and with it the step ends. -/
theorem scrubOn_of_one_due {s t : State} (hscrub : s.gen.dbg.getLsbD 2 = false) (hdue : s.ecc.due = 1)
    (hone : s.scrubOne = some t) (hlast : t.ecc.due = 0) : s.scrubOn = t := by
  unfold State.scrubOn
  rw [hscrub, hdue]
  exact (scrubSome_succ 1 hone).trans (scrubSome_of_none_due 1 hlast)

/-! #### SCRUB_STEP -/

/-- The accumulator after a step, not yet reduced to a fraction of a chord. -/
def State.scrubSum (s : State) : Nat := s.ecc.acc + s.ecc.rate * s.scrubFactor

/-- The state in which a scrub step has counted, and reads what is due. -/
def State.scrubCounted (s : State) : State :=
  { s.calRan 5 with ecc := { s.ecc with acc := s.scrubSum % 2 ^ 16, due := s.ecc.due + s.scrubSum / 2 ^ 16 } }

theorem scrubStep_runs {s : State} (htimed : s.mode.timed = true) (hhold : s.bar.hold = false)
    (hbeat : s.bar.beatno % 1024 = 16) (hscrub : s.gen.dbg.getLsbD 2 = false) (hcal : s.calOnce 5 = true) :
    s.scrubStep = s.scrubCounted.scrubOn := by
  have hix : s.beatIx = 16 := hbeat
  unfold State.scrubStep
  rw [htimed, hhold, hix, hscrub, hcal]
  rfl

theorem scrubStep_of_no_chord {s : State} (hsum : s.scrubSum < 2 ^ 16) (hdue : s.ecc.due = 0) :
    s.scrubCounted.scrubOn = { s.calRan 5 with ecc := { s.ecc with acc := s.scrubSum } } := by
  have hnone : s.ecc.due + s.scrubSum / 2 ^ 16 = s.ecc.due := by omega
  rw [scrubOn_of_none_due (hnone.trans hdue)]
  unfold State.scrubCounted
  rw [hnone, Nat.mod_eq_of_lt hsum]

theorem scrubStep_of_one_chord {s : State} (hscrub : s.gen.dbg.getLsbD 2 = false) (hdue : s.ecc.due = 0)
    (hlow : 2 ^ 16 ≤ s.scrubSum) (hhigh : s.scrubSum < 2 ^ 17) (hentry : s.entryAt s.ecc.cur = false)
    (htok : 0 < s.stk.tokMaint) (hcur : s.ecc.cur + 1 < 2 ^ 28) :
    s.scrubCounted.scrubOn.ecc.scrubPlace = (s.scrubSum - 2 ^ 16, 0, s.ecc.cur + 1) ∧
      s.scrubCounted.scrubOn.stk.tokMaint = s.stk.tokMaint - 1 ∧ SameStores s s.scrubCounted.scrubOn := by
  have hone : s.scrubCounted.ecc.due = 1 := by
    change s.ecc.due + s.scrubSum / 2 ^ 16 = 1
    omega
  have hacc : s.scrubCounted.ecc.acc = s.scrubSum - 2 ^ 16 := by
    change s.scrubSum % 2 ^ 16 = s.scrubSum - 2 ^ 16
    omega
  have hat : s.scrubCounted.ecc.cur = s.ecc.cur := rfl
  obtain ⟨t, ht, hplace, htokens, hstores⟩ :=
    scrubOne_reads (s := s.scrubCounted) (by simp [hone]) hentry htok hcur
  rw [hone, hacc, hat] at hplace
  have hlast : t.ecc.due = 0 := congrArg (·.2.1) hplace
  rw [scrubOn_of_one_due (s := s.scrubCounted) hscrub hone ht hlast]
  exact ⟨hplace, htokens, hstores⟩

theorem scrubStep_unchanged {s : State} (h : s.mode.timed = false ∨ s.bar.hold = true ∨ s.bar.beatno % 1024 ≠ 16 ∨
    s.calOnce 5 = false ∨ s.gen.dbg.getLsbD 2 = true) : s.scrubStep = s := by
  unfold State.scrubStep
  refine if_pos ?_
  rcases h with h | h | h | h | h <;> simp [State.beatIx, h]

/-! ### HEAT_DECAY (09 R242, R256) -/

theorem migrationPass_suppressed {s : State} (h : s.tier.warm = true ∨ s.tier.noauto = true) : s.migrationPass = s := by
  rcases h with h | h <;> simp [State.migrationPass, h]

/-- A decay that no pass follows shifts the heat of every page and is remembered (R242). -/
theorem decay_of_no_pass {s : State} (htraffic : s.mode.traffic = true) (hdue : 0 < s.decaysDue)
    (hahead : s.decaysDue < 2 ^ 29) (hcal : s.calOnce 8 = true) (hpass : s.tier.warm = true ∨ s.tier.noauto = true) :
    s.decay = { s.calRan 8 with
      pages := s.pages.map fun p =>
        { p with heat := if 16 ≤ s.tier.decay * s.decaysDue then 0 else p.heat / 2 ^ (s.tier.decay * s.decaysDue) },
      tier := { s.tier with lastDecay := decaysTo s.bar.beatno } } := by
  unfold State.decay
  rw [if_neg (by simp [htraffic, hcal]; omega)]
  exact migrationPass_suppressed hpass

theorem decay_of_none_due {s : State} (h : s.decaysDue = 0) : s.decay = s := by
  simp [State.decay, h]

/-! ### MEASURE_END (03 R85, 10 R272, 13 R345, 15 R379)

Each part of a Measure's end says once what it sets; of the event log, the repair state and the events registers only that
they change. -/

theorem logRec_eq (s : State) (code arg : Nat) (rid : Option Nat) : ∃ q n l f, s.logRec code arg rid =
    { s with bel := { s.bel with logq := q, logDrop := n, lostNow := l }, free := f } := by
  unfold State.logRec Bel.log
  split <;> exact ⟨_, _, _, _, rfl⟩

theorem forEach_logRec_eq {α : Type} (code arg : α → Nat) (xs : List α) (s : State) : ∃ q n l f,
    forEach (fun x (t : State) => t.logRec (code x) (arg x)) xs s =
      { s with bel := { s.bel with logq := q, logDrop := n, lostNow := l }, free := f } := by
  induction xs generalizing s with
  | nil => exact ⟨_, _, _, _, rfl⟩
  | cons x xs ih =>
    obtain ⟨q, n, l, f, h⟩ := logRec_eq s (code x) (arg x) none
    rw [forEach, h]
    exact ih _

/-- The mean wear of a die over the Measure that ends; a die without writes keeps what it showed (R85). -/
def State.wearMean (s : State) (d : Fin 11) : Nat :=
  if s.stk.writes[d] = 0 then s.stk.wear[d]
  else min 65535 ((2 * 256 * s.stk.pulses[d] + s.stk.writes[d]) / (2 * s.stk.writes[d]))

/-- The dies whose mean wear is above the threshold of STK_EVENTS.WEAR. -/
def State.wearHigh (s : State) : List (Fin 11) := (List.finRange 11).filter fun d => s.stk.wearThr < s.wearMean d

/-- The Stroke Ledger after a Measure: its means stand and its counts begin anew. -/
def State.wearShown (s : State) : State :=
  { s with stk := { s.stk with
    wear := Vector.ofFn s.wearMean, pulses := .replicate 11 0, writes := .replicate 11 0, firstUse := false } }

/-- The end of a Measure's wear: its means stand, WEAR with its records where one is high, and no die goes out. -/
theorem wearEnds_of_no_die_out {s : State} (h : ∀ d, s.wearMean d ≤ s.rep.wearDie) : s.wearEnds =
    if s.wearHigh.isEmpty || s.stk.firstUse then s.wearShown
    else forEach (fun (d : Fin 11) (t : State) => t.logRec 0x0201 (d.val + 65536 * s.wearMean d)) s.wearHigh
      (s.wearShown.raise .stk 0x01) := by
  have hwear : (Vector.ofFn fun (d : Fin 11) => if s.stk.writes[d] == 0 then s.stk.wear[d]
      else min 65535 (meanWear s.stk.pulses[d] s.stk.writes[d])) = Vector.ofFn s.wearMean := by
    congr 1
    funext d
    simp [State.wearMean, meanWear]
  have hnone : ((List.finRange 11).filter fun d => decide (s.rep.wearDie < s.wearMean d) && s.rep.serves d.val) = [] := by
    simp [Nat.not_lt.mpr (h _)]
  have hget (d : Fin 11) : (Vector.ofFn s.wearMean)[d] = s.wearMean d := by simp
  unfold State.wearEnds
  simp only [hwear, hget, hnone]
  rfl

/-- What the end of a Measure's wear changes: the Stroke Ledger, STK_EVENTS and the event log. -/
theorem wearEnds_changes {s : State} (h : ∀ d, s.wearMean d ≤ s.rep.wearDie) : ∃ v q n l f,
    s.wearEnds = { s.wearShown with
      evs := v, bel := { s.bel with logq := q, logDrop := n, lostNow := l }, free := f } ∧
    ((∃ d, s.stk.wearThr < s.wearMean d) → s.stk.firstUse = false → (s.wearEnds.ev .stk).bits.getLsbD 0 = true) := by
  rw [wearEnds_of_no_die_out h]
  by_cases hquiet : (s.wearHigh.isEmpty || s.stk.firstUse) = true
  · rw [if_pos hquiet]
    refine ⟨_, _, _, _, _, rfl, ?_⟩
    rintro ⟨d, hd⟩ hfirst
    have hmem : d ∈ s.wearHigh := by simp [State.wearHigh, hd]
    simp [hfirst] at hquiet
    simp [hquiet] at hmem
  · rw [if_neg hquiet]
    obtain ⟨q, n, l, f, hlog⟩ := forEach_logRec_eq (fun _ => 0x0201) (fun d : Fin 11 => d.val + 65536 * s.wearMean d)
      s.wearHigh (s.wearShown.raise .stk 0x01)
    rw [hlog]
    refine ⟨_, q, n, l, f, rfl, fun _ _ => ?_⟩
    change ((s.wearShown.raise .stk 0x01).ev .stk).bits.getLsbD 0 = true
    simp [ev_raise_same]

theorem deepWearEnds_changes (s : State) : ∃ w v q n l f, s.deepWearEnds = { s with
    deep := { s.deep with wear := w, measure := (0, 0, 0) }, evs := v,
    bel := { s.bel with logq := q, logDrop := n, lostNow := l }, free := f } ∧ s.deepWearEnds.ev .stk = s.ev .stk := by
  unfold State.deepWearEnds
  extract_lets m mean w deep t
  split
  · obtain ⟨q, n, l, f, hlog⟩ := logRec_eq (t.raise .deep 0x08) 0x0401 w.1 none
    exact ⟨_, _, q, n, l, f, hlog, ev_raise_other t 0x08 (by decide)⟩
  · exact ⟨_, _, _, _, _, _, rfl, rfl⟩

theorem weakEnds_changes (s : State) : ∃ v, s.weakEnds = { s with
    bel := { s.bel with weakLast := s.bel.weakNow, weakNow := 0 }, evs := v } ∧ s.weakEnds.ev .stk = s.ev .stk := by
  unfold State.weakEnds
  extract_lets bel t
  split
  · exact ⟨_, rfl, ev_raise_other t 0x04 (by decide)⟩
  · exact ⟨_, rfl, rfl⟩

theorem queueRec_changes (s : State) (r : RecId) : ∃ l, s.queueRec r = { s with bel := { s.bel with recq := l } } ∧
    r ∈ l ∧ s.bel.recq ⊆ l := by
  unfold State.queueRec
  split
  · next h => exact ⟨_, rfl, by simpa using h, List.Subset.refl _⟩
  · exact ⟨_, rfl, by simp, by simp⟩

theorem repairPair_changes (s : State) : ∃ rep l v, s.repairPair = { s with
    rep := rep, bel := { s.bel with recq := l }, evs := v } ∧ s.bel.recq ⊆ l ∧ s.repairPair.ev .stk = s.ev .stk := by
  unfold State.repairPair
  split
  · extract_lets n rep t
    obtain ⟨l, hl, -, hsub⟩ := queueRec_changes { s with rep := { s.rep with map := n + 1 } } (.repairPair (BitVec.ofNat 7 n))
    have ht : t = { s with rep := { s.rep with map := n + 1 }, bel := { s.bel with recq := l } } := hl
    rw [ht]
    split
    · exact ⟨_, _, _, rfl, hsub, ev_raise_other _ 0x20 (by decide)⟩
    · exact ⟨_, _, _, rfl, hsub, rfl⟩
  · exact ⟨_, _, _, rfl, List.Subset.refl _, rfl⟩

theorem saveProgress_changes (s : State) (role cursor : Nat) : ∃ rep l v, s.saveProgress role cursor = { s with
    rep := rep, bel := { s.bel with recq := l }, evs := v } ∧ s.bel.recq ⊆ l ∧
      (s.saveProgress role cursor).ev .stk = s.ev .stk := by
  unfold State.saveProgress
  extract_lets rep t
  split
  · next n _ =>
    obtain ⟨l, hl, -, hsub⟩ := queueRec_changes t (.repairPair (BitVec.ofNat 7 n))
    rw [hl]
    exact ⟨_, _, _, rfl, hsub, rfl⟩
  · split
    · exact repairPair_changes _
    · exact ⟨_, _, _, rfl, List.Subset.refl _, rfl⟩

theorem cursorsSaved_changes (s : State) : ∃ rep l v, s.cursorsSaved = { s with
    ecc := { s.ecc with saved := (s.ecc.cur, s.ecc.acc, s.sweepNow) }, rep := rep, bel := { s.bel with recq := l },
    evs := v } ∧ RecId.scrub ∈ l ∧ s.cursorsSaved.ev .stk = s.ev .stk := by
  unfold State.cursorsSaved
  extract_lets ecc t u
  obtain ⟨l, hl, hmem, -⟩ := queueRec_changes t .scrub
  have hu : u = { t with bel := { t.bel with recq := l } } := hl
  rw [hu]
  split
  · obtain ⟨rep, l', v, hsave, hsub, hev⟩ := saveProgress_changes { t with bel := { t.bel with recq := l } } _ _
    exact ⟨rep, l', v, hsave, hsub hmem, hev⟩
  · exact ⟨_, _, _, rfl, hmem, rfl⟩

theorem measureEnds_within {s : State} (h : measureOf s.bar.beatno = s.stk.measure) : s.measureEnds = s := by
  simp [State.measureEnds, h]

/-- What the four parts of a Measure's end leave, where no die is worn out. -/
theorem measureParts {s : State} (hdies : ∀ d, s.wearMean d ≤ s.rep.wearDie) :
    ∃ t, s.wearEnds.deepWearEnds.weakEnds.cursorsSaved = t ∧ t.stk = s.wearShown.stk ∧
      ((∃ d, s.stk.wearThr < s.wearMean d) → s.stk.firstUse = false → (t.ev .stk).bits.getLsbD 0 = true) ∧
      t.bel.weakLast = s.bel.weakNow ∧ t.bel.weakNow = 0 ∧ RecId.scrub ∈ t.bel.recq ∧ t.deep.measure = (0, 0, 0) ∧
      t.ecc.saved = (s.ecc.cur, s.ecc.acc, s.sweepNow) ∧ SameStores s t := by
  obtain ⟨_, _, _, _, _, hworn, hhigh⟩ := wearEnds_changes hdies
  obtain ⟨_, _, _, _, _, _, hdeep, hdeepEv⟩ := deepWearEnds_changes s.wearEnds
  obtain ⟨_, hweak, hweakEv⟩ := weakEnds_changes s.wearEnds.deepWearEnds
  obtain ⟨_, _, _, hsaved, hscrub, hsavedEv⟩ := cursorsSaved_changes s.wearEnds.deepWearEnds.weakEnds
  generalize s.wearEnds = worn at *
  generalize worn.deepWearEnds = deep at *
  generalize deep.weakEnds = weak at *
  generalize weak.cursorsSaved = t at *
  have hwornStores : SameStores s worn := hworn ▸ sameStores_of_eq rfl rfl rfl
  have hdeepStores : SameStores worn deep := hdeep ▸ sameStores_of_eq rfl rfl rfl
  have hweakStores : SameStores deep weak := hweak ▸ sameStores_of_eq rfl rfl rfl
  have hsavedStores : SameStores weak t := hsaved ▸ sameStores_of_eq rfl rfl rfl
  refine ⟨t, rfl, ?stk, ?event, ?weakLast, ?weakNow, ?queued, ?deep, ?cursors,
    sameStores_trans hwornStores (sameStores_trans hdeepStores (sameStores_trans hweakStores hsavedStores))⟩
  case stk => calc
    t.stk = weak.stk := by rw [hsaved]
    _ = deep.stk := by rw [hweak]
    _ = worn.stk := by rw [hdeep]
    _ = s.wearShown.stk := by rw [hworn]
  case event =>
    rw [hsavedEv, hweakEv, hdeepEv]
    exact hhigh
  case weakLast => calc
    t.bel.weakLast = weak.bel.weakLast := by rw [hsaved]
    _ = deep.bel.weakNow := by rw [hweak]
    _ = worn.bel.weakNow := by rw [hdeep]
    _ = s.bel.weakNow := by rw [hworn]
  case weakNow => calc
    t.bel.weakNow = weak.bel.weakNow := by rw [hsaved]
    _ = 0 := by rw [hweak]
  case queued =>
    rw [hsaved]
    exact hscrub
  case deep => calc
    t.deep.measure = weak.deep.measure := by rw [hsaved]
    _ = deep.deep.measure := by rw [hweak]
    _ = (0, 0, 0) := by rw [hdeep]
  case cursors =>
    have hecc : weak.ecc = s.ecc := calc
      weak.ecc = deep.ecc := by rw [hweak]
      _ = worn.ecc := by rw [hdeep]
      _ = s.ecc := by rw [hworn]; rfl
    have hbar : weak.bar = s.bar := calc
      weak.bar = deep.bar := by rw [hweak]
      _ = worn.bar := by rw [hdeep]
      _ = s.bar := by rw [hworn]; rfl
    rw [hsaved]
    simp [State.sweepNow, State.barNo, hecc, hbar]

theorem measureEnds_past {s : State} (htimed : s.mode.timed = true) (hhold : s.bar.hold = false)
    (hpast : measureOf s.bar.beatno ≠ s.stk.measure) :
    s.measureEnds = ({ s with
      stk := { s.stk with measure := measureOf s.bar.beatno } }).wearEnds.deepWearEnds.weakEnds.cursorsSaved := by
  simp [State.measureEnds, htimed, hhold, hpast]

/-! ### The statement -/

/-- Settles O33: a scrub step counts and reads at most one chord (`scrubStep_of_one_chord`); a decay that no pass follows
only shifts (`decay_of_no_pass`); the end of a Measure is its four parts (`measureParts`). That it acts at the first row
past the multiple, whatever skipped the Beat itself, is the model's choice (log 96). -/
theorem calendarSteps : Obligations.CalendarSteps := by
  unfold Obligations.CalendarSteps
  refine ⟨fun s => ⟨?scrub, ?noScrub⟩, fun s htraffic => ⟨?decay, ?noDecay⟩, fun s htimed hhold => ⟨?within, ?past⟩⟩
  case scrub =>
    intro htimed hhold hbeat hscrub hdue hcal
    have hrun : exec .scrubStep s = .next s.scrubCounted.scrubOn :=
      congrArg Host.Outcome.next (scrubStep_runs htimed hhold hbeat hscrub hcal)
    rw [hrun]
    refine ⟨fun hlow => congrArg Host.Outcome.next (scrubStep_of_no_chord hlow hdue),
      fun hlow hhigh hentry htok hcur => ?_⟩
    obtain ⟨hplace, hrest⟩ := scrubStep_of_one_chord hscrub hdue hlow hhigh hentry htok hcur
    simp only [Ecc.scrubPlace, Prod.mk.injEq] at hplace
    obtain ⟨hacc, hdue', hcur'⟩ := hplace
    exact ⟨_, rfl, hacc, hdue', hcur', hrest⟩
  case noScrub => exact fun h => congrArg Host.Outcome.next (scrubStep_unchanged h)
  case decay =>
    exact fun hdue hahead hcal hpass => congrArg Host.Outcome.next (decay_of_no_pass htraffic hdue hahead hcal hpass)
  case noDecay => exact fun h => congrArg Host.Outcome.next (decay_of_none_due h)
  case within => exact fun h => congrArg Host.Outcome.next (measureEnds_within h)
  case past =>
    intro hpast hdies
    obtain ⟨t, ht, hstk, hrest⟩ :=
      measureParts (s := { s with stk := { s.stk with measure := measureOf s.bar.beatno } }) hdies
    refine ⟨t, congrArg Host.Outcome.next ((measureEnds_past htimed hhold hpast).trans ht), ?_⟩
    rw [hstk]
    exact ⟨rfl, fun d => by simp [State.wearShown, State.wearMean], fun d => by simp [State.wearShown], hrest⟩

end Sys2Proof.Machine


/-! PROOFS. The mode in a Beat (17 R406): what a Beat runs enters no mode. As `runBeat_bar` for ring time, from one lemma for
each operation that a Beat runs, in the order of the model; none of them writes the mode. -/

namespace Sys2Proof.Machine

@[simp] theorem ite_mode (c : Prop) [Decidable c] (s t : State) :
    (if c then s else t).mode = if c then s.mode else t.mode := apply_ite State.mode c s t

@[simp] theorem forEach_mode {α : Type} {f : α → State → State} (h : ∀ x s, (f x s).mode = s.mode) (l : List α)
    (s : State) : (forEach f l s).mode = s.mode := by
  induction l generalizing s with
  | nil => rfl
  | cons x xs ih => rw [forEach, ih, h]

theorem foldl_mode {α : Type} {f : State → α → State} (h : ∀ s x, (f s x).mode = s.mode) (l : List α) (s : State) :
    (l.foldl f s).mode = s.mode := by
  induction l generalizing s with
  | nil => rfl
  | cons x xs ih => rw [List.foldl_cons, ih, h]

section
variable (s : State) (k : Kit) (kp : KPage) (rid a c n : Nat) (d : List Byte) (r : RecId) (rq : Req) (rids : List Nat)
  (m : Move) (e : WEntry)

/-! ### Records, alerts and events (18 R438 to R453, 06 R160) -/

@[simp] theorem tallyLosses_mode : s.tallyLosses.mode = s.mode := by simp [State.tallyLosses]

@[simp] theorem tallyAt_mode (beat typ : Nat) (kit : Option Kit) (arg : Nat) :
    (s.tallyAt beat typ kit arg).mode = s.mode := by
  simp [State.tallyAt]

@[simp] theorem fatal_mode (cause detail : Nat) : (s.fatal cause detail).mode = s.mode := rfl
@[simp] theorem alertOne_mode (i : EvId) : (s.alertOne i).mode = s.mode := by grind [State.alertOne]
@[simp] theorem alertSend_mode : s.alertSend.mode = s.mode := by simp [State.alertSend]
@[simp] theorem alertBar_mode : s.alertBar.mode = s.mode := by simp [State.alertBar]
@[simp] theorem freshClear_mode : s.freshClear.mode = s.mode := by simp [State.freshClear]

/-! ### The array and what its faults bring about (13 R331 to R346, 14 R355 to R368) -/

@[simp] theorem store_mode (sl : List (List Byte)) (mask : Slices) : (s.store c sl mask).mode = s.mode := rfl
@[simp] theorem queueRec_mode : (s.queueRec r).mode = s.mode := by simp [State.queueRec]
@[simp] theorem repairPair_mode : s.repairPair.mode = s.mode := by simp [State.repairPair]
@[simp] theorem dieGoesOut_mode (die : Fin 11) : (s.dieGoesOut die).mode = s.mode := by simp [State.dieGoesOut]

@[simp] theorem bankGoesOut_mode (die : Fin 11) (bank : Nat) : (s.bankGoesOut die bank).mode = s.mode := by
  simp [State.bankGoesOut]

@[simp] theorem silentDies_mode : s.silentDies.mode = s.mode := by simp [State.silentDies]
@[simp] theorem corrTriggers_mode : s.corrTriggers.mode = s.mode := by simp [State.corrTriggers]
@[simp] theorem metaFails_mode : (s.metaFails c).mode = s.mode := by grind [State.metaFails, fatal_mode, raise_mode]
@[simp] theorem readArray_mode (src : Nat) : (s.readArray src c).mode = s.mode := by simp [State.readArray]

/-! ### Pages and Near (09 R241 to R248) -/

@[simp] theorem updPage_mode (f : Page → Page) : (s.updPage k kp f).mode = s.mode := rfl
@[simp] theorem nearFill_mode (poison : Bool) : (s.nearFill k a poison d).mode = s.mode := by grind [State.nearFill]
@[simp] theorem nearWrite_mode : (s.nearWrite k a d).mode = s.mode := rfl
@[simp] theorem nearDrop_mode : (s.nearDrop k a).mode = s.mode := rfl
@[simp] theorem nearRelease_mode : (s.nearRelease k kp).mode = s.mode := rfl
@[simp] theorem touch_mode : (s.touch k a).mode = s.mode := rfl
@[simp] theorem heat_mode : (s.heat k a n).mode = s.mode := rfl

/-! ### Reservations and read tokens (03 R71 to R80) -/

@[simp] theorem ledgerGrant_mode : s.ledgerGrant.mode = s.mode := by simp [State.ledgerGrant]

theorem kitToken_mode {s t : State} {k : Kit} (h : s.kitToken k = some t) : t.mode = s.mode := by
  grind [State.kitToken, setKit_mode]

theorem maintToken_mode {s t : State} (h : s.maintToken = some t) : t.mode = s.mode := by
  grind [State.maintToken]

@[simp] theorem refillTokens_mode : s.refillTokens.mode = s.mode := rfl
@[simp] theorem shareOut_mode (want : Kit → Nat) (keep : Nat) : (s.shareOut want keep).mode = s.mode := rfl

/-! ### Provisional writes (11 R281 to R296) -/

@[simp] theorem queueChord_mode (kind : WKind) (payer : Option Kit) :
    (s.queueChord kind payer a c d).mode = s.mode := rfl

@[simp] theorem capture_mode (o : Kit) : (s.capture o a).2.mode = s.mode := by grind [State.capture, kitToken_mode]

@[simp] theorem captureToken_mode (x : WEntry) : (s.captureToken x).mode = s.mode := by
  grind [State.captureToken, kitToken_mode]

@[simp] theorem capturesGoOn_mode : s.capturesGoOn.mode = s.mode := by simp [State.capturesGoOn]
@[simp] theorem pushEntry_mode : (s.pushEntry e).mode = s.mode := rfl
@[simp] theorem updJob_mode (f : WriteJob → WriteJob) : (s.updJob rid f).mode = s.mode := rfl
@[simp] theorem writeReply_mode (j : WriteJob) : (s.writeReply j).mode = s.mode := by simp [State.writeReply]
@[simp] theorem returnCredits_mode (j : WriteJob) : (s.returnCredits j).mode = s.mode := rfl

@[simp] theorem settleJob_mode : (s.settleJob rid).mode = s.mode := by
  grind [State.settleJob, returnCredits_mode, sendDev_mode, updJob_mode, writeReply_mode]

@[simp] theorem resolveJobs_mode (recant : Bool) : (s.resolveJobs rids a recant).mode = s.mode := by
  simp [State.resolveJobs]

@[simp] theorem queueMarker_mode : (s.queueMarker c).mode = s.mode := by simp [State.queueMarker]
@[simp] theorem recantKit_mode (sync : Bool) : (s.recantKit k a c sync).mode = s.mode := by simp [State.recantKit]

@[simp] theorem moveRecord_mode (p : Page) (ch : PtChange) : (s.moveRecord m p ch).mode = s.mode := by
  simp [State.moveRecord]

@[simp] theorem commitPt_mode (ch : PtChange) : (s.commitPt k kp ch).mode = s.mode := by
  unfold State.commitPt
  dsimp only
  repeat' split
  all_goals simp

@[simp] theorem mirrorMove_mode (o : Kit) (v : Option (List Byte)) : (s.mirrorMove o a v).mode = s.mode := by
  grind [State.mirrorMove, queueChord_mode]

@[simp] theorem storeEntry_mode (failing : Slices) : (s.storeEntry e failing).mode = s.mode := rfl
@[simp] theorem stageDone_mode (bad : Bool) : (s.stageDone rids c bad).mode = s.mode := rfl
@[simp] theorem staged_mode (slot : Fin 8) (i : Nat) : (s.staged k slot i).mode = s.mode := rfl

@[simp] theorem concluded_mode (good weak : Bool) (failing : Slices) :
    (s.concluded e good weak failing).mode = s.mode := by
  grind [State.concluded, bankGoesOut_mode, commitPt_mode, fatal_mode, foldl_mode, mirrorMove_mode, queueMarker_mode,
    recantKit_mode, resolveJobs_mode, stageDone_mode, staged_mode, tally_mode]

@[simp] theorem wearSlices_mode (m : Slices) (first : Nat) : (s.wearSlices c m n first).mode = s.mode := rfl
@[simp] theorem pulse_mode (ent : Nat) : (s.pulse ent).mode = s.mode := by grind [State.pulse, wearSlices_mode]
@[simp] theorem setMerge_mode (i : Fin 64) (m : Option MEntry) : (s.setMerge i m).mode = s.mode := rfl
@[simp] theorem pushData_mode : (s.pushData k rids a c d).mode = s.mode := by simp [State.pushData]
@[simp] theorem recantNarrow_mode : (s.recantNarrow k rids a c).mode = s.mode := by simp [State.recantNarrow]

@[simp] theorem closeMerge_mode (i : Fin 64) : (s.closeMerge i).mode = s.mode := by
  unfold State.closeMerge
  split
  · rfl
  · dsimp only
    split
    · simp
    · split
      · simp
      · simp
      · split
        · simp
        · next t h => split <;> simp [kitToken_mode h]
      · simp

@[simp] theorem closeMerges_mode (p : MEntry → Bool) : (s.closeMerges p).mode = s.mode := by
  grind [State.closeMerges, closeMerge_mode, forEach_mode]

@[simp] theorem mergesGoOn_mode : s.mergesGoOn.mode = s.mode := by simp [State.mergesGoOn]
@[simp] theorem creditBack_mode : (s.creditBack rid k).mode = s.mode := rfl
@[simp] theorem addMove_mode : (s.addMove m).mode = s.mode := rfl

@[simp] theorem startWriteBack_mode (release : Bool) : (s.startWriteBack k kp release).mode = s.mode := by
  grind [State.startWriteBack, addMove_mode, closeMerges_mode, updPage_mode]

@[simp] theorem evict_mode (q : Page) : (s.evict q).mode = s.mode := by simp [State.evict]

@[simp] theorem startPromote_mode (near : Bool) (fetch : Option (Engine × Option Nat)) :
    (s.startPromote k kp near fetch).mode = s.mode := by
  grind [State.startPromote, addMove_mode, evict_mode, raise_mode]

theorem takeMarker_mode (s t : State) (h : s.takeMarker = some t) : t.mode = s.mode := by
  grind [State.takeMarker, pushEntry_mode]

@[simp] theorem dropFixes_mode : s.dropFixes.mode = s.mode := rfl

theorem takeFix_mode (s t : State) (h : s.takeFix = some t) : t.mode = s.mode := by
  grind [State.takeFix, pushEntry_mode]

@[simp] theorem takeChord_mode (q : WKind × Option Kit × Nat × ChordIx × List Byte) :
    (s.takeChord q).mode = s.mode := rfl

@[simp] theorem takeChords_mode : s.takeChords.mode = s.mode := by simp [State.takeChords]

theorem fillEntries_mode {f : State → Option State} (hf : ∀ s t, f s = some t → t.mode = s.mode) (n : Nat)
    (s : State) : (fillEntries f n s).mode = s.mode := by
  induction n generalizing s with
  | zero => rfl
  | succ n ih => grind [fillEntries]

@[simp] theorem maintFill_mode : s.maintFill.mode = s.mode := by
  unfold State.maintFill
  rw [takeChords_mode, fillEntries_mode takeFix_mode, dropFixes_mode, fillEntries_mode takeMarker_mode]

/-! ### Moves between the tiers (09 R239 to R254) -/

@[simp] theorem packOne_mode : (s.packOne k).mode = s.mode := by grind [State.packOne]

@[simp] theorem packFull_mode : (s.packFull k n).mode = s.mode := by
  induction n generalizing s with
  | zero => rfl
  | succ n ih => simp [State.packFull, ih]

@[simp] theorem updMove_mode (f : Move → Move) : (s.updMove m f).mode = s.mode := rfl
@[simp] theorem endMove_mode : (s.endMove m).mode = s.mode := rfl

@[simp] theorem putChord_mode (i : Nat) (v : Option (List Byte)) : (s.putChord m i v).mode = s.mode := by
  grind [State.putChord, queueChord_mode]

theorem tryFill_mode {s t : State} {k : Kit} {a : Nat} {poison : Bool} {d : List Byte}
    (h : s.tryFill k a poison d = some t) : t.mode = s.mode := by
  grind [State.tryFill, nearFill_mode]

theorem copyChord_mode {s t : State} {m : Move} {i : Nat} (h : s.copyChord m i = some t) : t.mode = s.mode := by
  grind [State.copyChord, Option.map_eq_some_iff, Option.bind_eq_some_iff, kitToken_mode, readArray_mode,
    tryFill_mode, putChord_mode]

@[simp] theorem copyChords_mode (is : List Nat) : (s.copyChords m is).1.mode = s.mode := by
  induction is generalizing s with
  | nil => rfl
  | cons i is ih => grind [State.copyChords, copyChord_mode]

@[simp] theorem tableMove_mode : (s.tableMove m).mode = s.mode := by
  grind [State.tableMove, endMove_mode, queueChord_mode, updMove_mode]

@[simp] theorem beginMove_mode : (s.beginMove m).mode = s.mode := by
  grind [State.beginMove, closeMerges_mode, endMove_mode, evict_mode, nearFill_mode, updMove_mode, updPage_mode]

@[simp] theorem redoDemote_mode : (s.redoDemote m).mode = s.mode := by
  grind [State.redoDemote, foldl_mode, updMove_mode, updPage_mode]

@[simp] theorem moveBeat_mode : (s.moveBeat m).mode = s.mode := by
  grind [State.moveBeat, beginMove_mode, copyChords_mode, redoDemote_mode, tableMove_mode, updMove_mode]

@[simp] theorem bringPinned_mode : s.bringPinned.mode = s.mode := by simp [State.bringPinned]

@[simp] theorem bringNear_mode (fetch : Option (Engine × Option Nat)) : (s.bringNear k kp fetch).mode = s.mode := by
  grind [State.bringNear, addMove_mode, nearFill_mode, startPromote_mode]

@[simp] theorem migrate_mode (arg : Nat) : (s.migrate k arg kp).mode = s.mode := by
  grind [State.migrate, addMove_mode, bringNear_mode, nearRelease_mode, startPromote_mode, startWriteBack_mode]

@[simp] theorem waitOver_mode (w : WaitJob) : (s.waitOver w).mode = s.mode := by
  grind [State.waitOver, answer_mode, forEach_mode, migrate_mode]

@[simp] theorem waitsOver_mode : s.waitsOver.mode = s.mode := by simp [State.waitsOver]
@[simp] theorem movesGoOn_mode : s.movesGoOn.mode = s.mode := by simp [State.movesGoOn]

/-! ### Deep (10 R259 to R277) -/

@[simp] theorem reserveFalls_mode : (s.reserveFalls n).mode = s.mode := by simp [State.reserveFalls]
@[simp] theorem retireBit_mode (b : Nat) : (s.retireBit b).mode = s.mode := rfl
@[simp] theorem retireBlock_mode (b : Nat) : (s.retireBlock b).mode = s.mode := by simp [State.retireBlock]

@[simp] theorem putSector_mode (x : BitVec 4) (cs : List (Option (List Byte))) :
    (s.putSector m x cs).mode = s.mode := by
  simp [State.putSector]

@[simp] theorem sectorIn_mode (x : BitVec 4) (cs : List (Option (List Byte))) (lost : Bool) :
    (s.sectorIn m x cs lost).mode = s.mode := by
  simp [State.sectorIn]

@[simp] theorem deadReads_mode : s.deadReads.mode = s.mode := by grind [State.deadReads, forEach_mode, sectorIn_mode]
@[simp] theorem startDeep_mode (op : DeepOp) : (s.startDeep op).mode = s.mode := rfl
@[simp] theorem emptyBlocks_mode : s.emptyBlocks.mode = s.mode := by simp [State.emptyBlocks]
@[simp] theorem holdBacks_mode : s.holdBacks.mode = s.mode := rfl
@[simp] theorem clean_mode : s.clean.mode = s.mode := by grind [State.clean, startWriteBack_mode]
@[simp] theorem drainOver_mode : s.drainOver.mode = s.mode := by simp [State.drainOver]
@[simp] theorem suspends_mode : s.suspends.mode = s.mode := rfl
@[simp] theorem deepGoesOn_mode : s.deepGoesOn.mode = s.mode := by simp [State.deepGoesOn]
@[simp] theorem wearLevel_mode : s.wearLevel.mode = s.mode := by grind [State.wearLevel, foldl_mode]

/-! ### READs (07 R171, R172; 03 R79) -/

@[simp] theorem accessed_mode (o : Kit) : (s.accessed k o a).mode = s.mode := by simp [State.accessed]
@[simp] theorem updRead_mode (f : ReadJob → ReadJob) : (s.updRead rid f).mode = s.mode := rfl

@[simp] theorem readVal_mode (j : ReadJob) (o : Kit × Nat) (v : Option (List Byte)) :
    (s.readVal j o a v).mode = s.mode := by
  simp [State.readVal]

@[simp] theorem readFree_mode : (s.readFree rid).mode = s.mode := by
  grind [State.readFree, forEach_mode, readVal_mode, startPromote_mode]

theorem readToken_mode {s t : State} {rid : Nat} (h : s.readToken rid = some t) : t.mode = s.mode := by
  unfold State.readToken at h
  split at h
  · cases h
  · obtain ⟨a, -, ha⟩ := List.exists_of_findSome?_eq_some h
    dsimp only at ha
    split at ha
    · obtain ⟨u, hu, rfl⟩ := Option.map_eq_some_iff.mp ha
      simp [kitToken_mode hu]
    · cases ha

@[simp] theorem answerEarly_mode (j : ReadJob) : (s.answerEarly j).mode = s.mode := rfl

@[simp] theorem finishRead_mode : (s.finishRead rid).mode = s.mode := by
  grind [State.finishRead, answer_mode, answerEarly_mode]

theorem readVisit_mode {s t : State} {k : Kit} (h : s.readVisit k = some t) : t.mode = s.mode := by
  obtain ⟨rid, -, hrid⟩ := List.exists_of_findSome?_eq_some h
  obtain ⟨u, hu, rfl⟩ := Option.map_eq_some_iff.mp hrid
  rw [finishRead_mode, readToken_mode hu, readFree_mode]

@[simp] theorem readSome_mode : (s.readSome k n).mode = s.mode := by
  induction n generalizing s with
  | zero => rfl
  | succ n ih => grind [State.readSome, readVisit_mode]

@[simp] theorem readRound_mode : (s.readRound n).mode = s.mode := by
  induction n generalizing s with
  | zero => rfl
  | succ n ih => simp [State.readRound, ih]

@[simp] theorem readsGoOn_mode : s.readsGoOn.mode = s.mode := by simp [State.readsGoOn]

/-! ### Placement (07 R180 to R186) -/

@[simp] theorem setMuffle_mode (m : Muffle) : (s.setMuffle m).mode = s.mode := rfl

@[simp] theorem storeMuffle_mode (j : MufJob) (cs : List (Option (List Byte))) :
    (s.storeMuffle j kp cs).mode = s.mode := by
  grind [State.storeMuffle, forEach_mode, queueChord_mode, setMuffle_mode]

@[simp] theorem readPageFor_mode (got : List (Option (List Byte))) : (s.readPageFor k kp n got).2.mode = s.mode := by
  induction n generalizing got s with
  | zero => rfl
  | succ n ih =>
    unfold State.readPageFor
    dsimp only
    split
    · exact ih _ _
    · split
      · exact ih _ _
      · exact ih _ _
      · split
        · next t h => simp [ih, kitToken_mode h]
        · rfl
      · exact startPromote_mode _ _ _ _ _
      · rfl

@[simp] theorem updMuf_mode (j : MufJob) : (s.updMuf j).mode = s.mode := rfl
@[simp] theorem muffleOver_mode (j : MufJob) : (s.muffleOver j).mode = s.mode := by simp [State.muffleOver]

@[simp] theorem muffleStep_mode : (s.muffleStep rid n).mode = s.mode := by
  induction n generalizing s with
  | zero => rfl
  | succ n ih => grind [State.muffleStep, muffleOver_mode, readPageFor_mode, storeMuffle_mode, updMuf_mode]

@[simp] theorem mufflesGoOn_mode : s.mufflesGoOn.mode = s.mode := by simp [State.mufflesGoOn]

/-! ### Rudiments (12 R309 to R323) -/

@[simp] theorem stagesOver_mode : s.stagesOver.mode = s.mode := by simp [State.stagesOver]
@[simp] theorem stopDue_mode : s.stopDue.mode = s.mode := rfl

@[simp] theorem halt_mode (e : Engine) (g : EngSt) (fault : Nat) : (s.halt e g fault).mode = s.mode := by
  simp [State.halt]

@[simp] theorem fetchGo_mode (near : Bool) (tag : Engine × Option Nat) : (s.fetchGo k near tag kp).mode = s.mode := by
  grind [State.fetchGo, bringNear_mode, startPromote_mode]

@[simp] theorem fetchesGoOn_mode : s.fetchesGoOn.mode = s.mode :=
  forEach_mode (fun e t => forEach_mode (fun f t => forEach_mode (fun kp t => by simp) _ t) _ t) _ s

@[simp] theorem readPush_mode (p : PushPkt) : (s.readPush k n p).2.mode = s.mode := by
  induction n generalizing p s with
  | zero => rfl
  | succ n ih =>
    unfold State.readPush
    split
    · rfl
    · split
      · dsimp only
        split
        · next t h => simp [ih, kitToken_mode h]
        · rfl
      · dsimp only
        split
        · exact ih _ _
        · split
          · exact ih _ _
          · exact ih _ _
          · split
            · next t h => simp [ih, kitToken_mode h]
            · rfl
          · exact startPromote_mode _ _ _ _ _
          · rfl

@[simp] theorem readFifo_mode (ps : List PushPkt) : (s.readFifo k ps).2.mode = s.mode := by
  induction ps generalizing s with
  | nil => rfl
  | cons p ps ih => simp [State.readFifo, ih]

@[simp] theorem pushesGoOn_mode : s.pushesGoOn.mode = s.mode := by simp [State.pushesGoOn]

@[simp] theorem countStalls_mode : s.countStalls.mode = s.mode := by
  grind [State.countStalls, forEach_mode, setEng_mode]

/-! ### The Belfry port and its records (15 R376 to R385) -/

@[simp] theorem chargeKit_mode : (s.chargeKit k n).mode = s.mode := rfl
@[simp] theorem chargeMaint_mode : (s.chargeMaint n).mode = s.mode := rfl

@[simp] theorem belAnswer_mode (a : Answer) : (s.belAnswer rid rq k a).mode = s.mode := by
  grind [State.belAnswer, answer_mode]

@[simp] theorem belRead_mode : (s.belRead rid rq).mode = s.mode := by simp [State.belRead]
@[simp] theorem belSeal_mode : (s.belSeal rid rq).mode = s.mode := by simp [State.belSeal]
@[simp] theorem belWriteEnds_mode (j : BelJob) : (s.belWriteEnds j).mode = s.mode := by simp [State.belWriteEnds]

@[simp] theorem recordGone_mode (num where_ : Nat) : (s.recordGone rid num where_).mode = s.mode := by
  grind [State.recordGone, belAnswer_mode, updReq_mode]

@[simp] theorem belWriteFails_mode : (s.belWriteFails rid a).mode = s.mode := by simp [State.belWriteFails]
@[simp] theorem keyLost_mode : (s.keyLost k).mode = s.mode := by simp [State.keyLost]

@[simp] theorem absentRec_mode : (s.absentRec r).mode = s.mode := by
  unfold State.absentRec
  split <;> simp

@[simp] theorem recBad_mode : (s.recBad r).mode = s.mode := by simp [State.recBad]

@[simp] theorem fixCopy_mode (cal : Bool) (second : Bool) : (s.fixCopy cal r second).mode = s.mode := by
  simp [State.fixCopy]

@[simp] theorem readRec_mode (cal : Bool) : (s.readRec cal r).mode = s.mode := by simp [State.readRec]
@[simp] theorem logFails_mode (page : Nat) : (s.logFails page).mode = s.mode := by simp [State.logFails]

@[simp] theorem refreshEnds_mode (page : Nat) (still : BitVec 8) : (s.refreshEnds page still).mode = s.mode := by
  grind [State.refreshEnds, forEach_mode, logFails_mode, logRec_mode, readRec_mode]

@[simp] theorem keyCopy_mode (second : Bool) : (s.keyCopy r second).mode = s.mode := by
  unfold State.keyCopy
  split <;> simp

@[simp] theorem updateLost_mode : (s.updateLost r).mode = s.mode := by
  unfold State.updateLost
  split <;> simp

@[simp] theorem belEnds_mode (e : BelEnd) : (s.belEnds e).mode = s.mode := by
  unfold State.belEnds
  split
  · split <;> simp
  all_goals simp

@[simp] theorem belPuts_mode (p : BelPut) : (s.belPuts p).mode = s.mode := by
  unfold State.belPuts
  split <;> simp

@[simp] theorem belWritten_mode (x : BelStep) : (s.belWritten x).mode = s.mode := by
  grind [State.belWritten, belEnds_mode, belPuts_mode]

@[simp] theorem belNow_mode (x : BelStep) : (s.belNow x).mode = s.mode := by simp [State.belNow]
@[simp] theorem belStart_mode (l : List BelStep) : (s.belStart l).mode = s.mode := by simp [State.belStart]
@[simp] theorem belSettle_mode : s.belSettle.mode = s.mode := by grind [State.belSettle, belNow_mode, forEach_mode]

@[simp] theorem portOn_mode : (s.portOn n).mode = s.mode := by
  induction n generalizing s with
  | zero => rfl
  | succ n ih => grind [State.portOn, belRead_mode, belStart_mode]

@[simp] theorem portGoes_mode : s.portGoes.mode = s.mode := by simp [State.portGoes]
@[simp] theorem belNext_mode : s.belNext.mode = s.mode := by grind [State.belNext, belWritten_mode, portGoes_mode]
@[simp] theorem portBeat_mode : s.portBeat.mode = s.mode := by simp [State.portBeat]
@[simp] theorem refreshFalls_mode : s.refreshFalls.mode = s.mode := by simp [State.refreshFalls]

/-! ### Repair (14 R355 to R372) -/

@[simp] theorem updRun_mode (k : UnitKind) (f : Transfer → Transfer) : (s.updRun k f).mode = s.mode := rfl
@[simp] theorem addRun_mode (t : Transfer) : (s.addRun t).mode = s.mode := rfl

@[simp] theorem repairEvent_mode (done : Bool) (f : FaultRec) : (s.repairEvent done f).mode = s.mode := by
  simp [State.repairEvent]

@[simp] theorem repairDone_mode (f : FaultRec) : (s.repairDone f).mode = s.mode := by simp [State.repairDone]
@[simp] theorem startUnit_mode (f : FaultRec) : (s.startUnit f).mode = s.mode := by simp [State.startUnit]

@[simp] theorem startResilver_mode (role : Nat) : (s.startResilver role).mode = s.mode := by
  grind [State.startResilver, addRun_mode]

@[simp] theorem tryQueued_mode (f : FaultRec) : (s.tryQueued f).mode = s.mode := by simp [State.tryQueued]
@[simp] theorem autoRepairs_mode : s.autoRepairs.mode = s.mode := by simp [State.autoRepairs]
@[simp] theorem runsStart_mode : s.runsStart.mode = s.mode := by simp [State.runsStart]
@[simp] theorem rebuildChord_mode (t : Transfer) : (s.rebuildChord t c).mode = s.mode := by simp [State.rebuildChord]

@[simp] theorem rebuildOne_mode : s.rebuildOne.mode = s.mode := by
  grind [State.rebuildOne, maintToken_mode, rebuildChord_mode, updRun_mode]

@[simp] theorem verifyOne_mode : s.verifyOne.mode = s.mode := by
  grind [State.verifyOne, maintToken_mode, readArray_mode, updRun_mode]

@[simp] theorem verifySome_mode : (verifySome n s).mode = s.mode := by
  induction n generalizing s with
  | zero => rfl
  | succ n ih => simp [verifySome, ih]

@[simp] theorem phasesGoOn_mode : s.phasesGoOn.mode = s.mode := rfl
@[simp] theorem transfersGoOn_mode : (s.transfersGoOn n).mode = s.mode := by simp [State.transfersGoOn]

/-! ### CLOSE (07 R203) -/

@[simp] theorem splitClean_mode : s.splitClean.mode = s.mode := by simp [State.splitClean]
@[simp] theorem snapSpend_mode (c : CloseJob) : (s.snapSpend c n).mode = s.mode := by simp [State.snapSpend]
@[simp] theorem closeReply_mode (c : CloseJob) : (s.closeReply c).mode = s.mode := by simp [State.closeReply]
@[simp] theorem askLeave_mode (c : CloseJob) : (s.askLeave c).mode = s.mode := rfl

@[simp] theorem closeStep_mode : s.closeStep.mode = s.mode := by
  grind [State.closeStep, askLeave_mode, closeMerges_mode, closeReply_mode, snapSpend_mode, splitClean_mode]

@[simp] theorem closeGoesOn_mode : s.closeGoesOn.mode = s.mode := by simp [State.closeGoesOn]

/-! ### Errors of the SRAMs (13 R346, Table 13.8) -/

@[simp] theorem tallyLost_mode (i : Nat) : (s.tallyLost i).mode = s.mode := by simp [State.tallyLost]
@[simp] theorem nearLost_mode (blk line : Nat) : (s.nearLost blk line).mode = s.mode := rfl
@[simp] theorem blockLost_mode (blk : Nat) : (s.blockLost blk).mode = s.mode := rfl

@[simp] theorem tagLost_mode (blk : Nat) : (s.tagLost blk).mode = s.mode := by
  grind [State.tagLost, blockLost_mode, bringNear_mode]

@[simp] theorem intakeLost_mode : (s.intakeLost rid a).mode = s.mode := by
  grind [State.intakeLost, creditBack_mode, recantNarrow_mode, resolveJobs_mode, setKit_mode, updJob_mode]

@[simp] theorem holdLost_mode (ent : Nat) : (s.holdLost ent).mode = s.mode := by
  grind [State.holdLost, concluded_mode, queueMarker_mode, storeEntry_mode]

@[simp] theorem preLost_mode (ent : Nat) : (s.preLost ent).mode = s.mode := rfl

@[simp] theorem mergeLost_mode (i : Fin 64) : (s.mergeLost i).mode = s.mode := by
  grind [State.mergeLost, recantNarrow_mode, setMerge_mode]

@[simp] theorem sectorAgain_mode (x : BitVec 4) : (s.sectorAgain k kp x).mode = s.mode := by
  grind [State.sectorAgain, updMove_mode]

@[simp] theorem redoAgain_mode (unit : Nat) : (s.redoAgain rid unit).mode = s.mode := by
  grind [State.redoAgain, readArray_mode]

@[simp] theorem storeLost_mode (slot : Fin 8) : (s.storeLost k slot).mode = s.mode := by simp [State.storeLost]

@[simp] theorem sramLost_mode (w : SramWord) : (s.sramLost w).mode = s.mode := by
  unfold State.sramLost
  split <;> simp

@[simp] theorem nearFaulty_mode (w : SramWord) : (s.nearFaulty w).mode = s.mode := by grind [State.nearFaulty]
@[simp] theorem sramMet_mode (x : SramErr) : (s.sramMet x).mode = s.mode := by simp [State.sramMet]
@[simp] theorem sramErrors_mode : s.sramErrors.mode = s.mode := by simp [State.sramErrors]

/-! ### The Beat itself (02 R46) -/

@[simp] theorem nowInForce_mode : s.nowInForce.mode = s.mode := rfl
@[simp] theorem holdTick_mode : s.holdTick.mode = s.mode := by simp [State.holdTick]
@[simp] theorem wearChord_mode : s.wearChord.mode = s.mode := rfl
@[simp] theorem snapOne_mode (cost : Nat) : (s.snapOne cost).mode = s.mode := by grind [State.snapOne, wearChord_mode]
@[simp] theorem sacOne_mode : s.sacOne.mode = s.mode := rfl

@[simp] theorem issueGrp_mode (q : List DeepOp) (g : Grp) : (s.issueGrp q g).mode = s.mode := by
  grind [State.issueGrp, belNext_mode, pulse_mode, sacOne_mode, snapOne_mode, startDeep_mode]

@[simp] theorem countStarved_mode (al : Alloc) (ds : List KDem) : (s.countStarved al ds).mode = s.mode := by
  grind [State.countStarved, forEach_mode, setKit_mode]

@[simp] theorem spendBeat_mode : s.spendBeat.mode = s.mode := by
  grind [State.spendBeat, chargeKit_mode, chargeMaint_mode, countStarved_mode, forEach_mode, issueGrp_mode,
    transfersGoOn_mode]

@[simp] theorem scrubPast_mode : s.scrubPast.mode = s.mode := by simp [State.scrubPast]

theorem scrubOne_mode {s t : State} (h : s.scrubOne = some t) : t.mode = s.mode := by
  grind [State.scrubOne, Option.map_eq_some_iff, maintToken_mode, readArray_mode, scrubPast_mode]

@[simp] theorem scrubSome_mode : (s.scrubSome n).mode = s.mode := by
  induction n generalizing s with
  | zero => rfl
  | succ n ih => grind [State.scrubSome, scrubOne_mode]

@[simp] theorem scrubOn_mode : s.scrubOn.mode = s.mode := by simp [State.scrubOn]
@[simp] theorem scrubPart_mode : s.scrubPart.mode = s.mode := by simp [State.scrubPart]
@[simp] theorem tokens_mode : s.tokens.mode = s.mode := by simp [State.tokens]
@[simp] theorem probesFollow_mode : s.probesFollow.mode = s.mode := rfl
@[simp] theorem warmUp_mode : s.warmUp.mode = s.mode := by simp [State.warmUp]
@[simp] theorem trafficBeat_mode : s.trafficBeat.mode = s.mode := by simp [State.trafficBeat]
@[simp] theorem runBeat_mode : s.runBeat.mode = s.mode := by simp [State.runBeat]
@[simp] theorem adaptStart_mode : s.adaptStart.mode = s.mode := by simp [State.adaptStart]

@[simp] theorem barMeasured_mode (permille : Nat) : (s.barMeasured permille).mode = s.mode := by
  simp [State.barMeasured]

@[simp] theorem heldFalls_mode : s.heldFalls.mode = s.mode := rfl
@[simp] theorem waitingChanges_mode : s.waitingChanges.mode = s.mode := by simp [State.waitingChanges]
@[simp] theorem strictDown_mode : s.strictDown.mode = s.mode := by simp [State.strictDown]
@[simp] theorem downChanges_mode : s.downChanges.mode = s.mode := by simp [State.downChanges]

end

end Sys2Proof.Machine

/-! PROOFS. Downbeats (02 R40), Ring B (R44, R45) and the entry to Free-wheel (R49). -/

namespace Sys2Proof.Machine

/-! ### Modes (17 R406) -/

theorem enter_mode (s : State) (m : Mode) (trig : Nat) : (s.enter m trig).mode = m := by
  unfold State.enter
  split
  · assumption
  · simp

theorem serving_cases (s : State) : s.serving = .run ∨ s.serving = .degraded := by
  unfold State.serving
  split
  · exact .inr rfl
  · exact .inl rfl

theorem degrades_serves {s : State} (h : s.mode = .run ∨ s.mode = .degraded) :
    s.degrades.mode = .run ∨ s.degrades.mode = .degraded := by
  unfold State.degrades
  split
  · exact .inr (enter_mode _ _ _)
  · exact h

@[simp] theorem downMode_bar (s : State) : s.downMode.bar = s.bar := by simp [State.downMode, State.backToRun]

theorem downMode_of_freewheel {s : State} (h : s.mode = .freewheel) :
    s.downMode.mode = .run ∨ s.downMode.mode = .degraded := by
  have hmode : s.downMode.mode = s.serving := by simp [State.downMode, h, enter_mode]
  rw [hmode]
  exact serving_cases s

/-! ### A Downbeat (02 R40) -/

@[simp] theorem closeBeat_mode (s : State) : s.closeBeat.mode = s.mode := by simp [State.closeBeat]
@[simp] theorem wraps_mode (s : State) : s.wraps.mode = s.mode := by simp [State.wraps]
@[simp] theorem shorten_mode (s : State) : s.shorten.mode = s.mode := rfl

@[simp] theorem realign_mode (s : State) (m : Marker) (permille : Nat) : (s.realign m permille).mode = s.mode := by
  simp [State.realign]

@[simp] theorem realigned_mode (s : State) (before slip : Nat) : (s.realigned before slip).mode = s.mode := by
  simp [State.realigned]

@[simp] theorem realigned_bar (s : State) (before slip : Nat) : (s.realigned before slip).bar = s.bar := by
  simp [State.realigned]

@[simp] theorem barBegins_mode (s : State) (marked : Bool) : (s.barBegins marked).mode = s.mode := by
  simp [State.barBegins, State.barStarts]

/-- A Downbeat ahead of the last one by less than half the master's range: its Bar, and what that exceeds the master's. -/
theorem realignTo_forward {s : State} {mbar x : BitVec 32} (hlast : s.bar.lastMbar = some x)
    (hpos : 1 ≤ (mbar - x).toNat) (hhalf : (mbar - x).toNat < 2 ^ 31) (hbar : s.bar.lastDbBar ≤ s.bar.beatno / 1024) :
    s.realignTo mbar =
      ⟨max (s.bar.lastDbBar + (mbar - x).toNat) (s.bar.beatno / 1024 + 1),
       max (s.bar.lastDbBar + (mbar - x).toNat) (s.bar.beatno / 1024 + 1) - (s.bar.lastDbBar + (mbar - x).toNat),
       false, (mbar - x).toNat⟩ := by
  have hno : s.barNo = s.bar.beatno / 1024 := rfl
  unfold State.realignTo
  rw [hlast, hno]
  dsimp only
  generalize (mbar - x).toNat = d at *
  have hahead : 1 ≤ d ∧ d < 2147483648 := ⟨hpos, hhalf⟩
  simp [Nat.not_lt.mpr hbar, hahead]

/-- What a realignment that does not pass 2^38 Bars does to ring time; besides, a window may end with it (04 R104). -/
theorem realign_bar {s : State} (m : Marker) (permille : Nat) (hbar : s.bar.lastDbBar ≤ s.bar.beatno / 1024)
    (hwrap : (s.realignTo m.mbar).bar < 2 ^ 38) : ∃ short shortAt, (s.realign m permille).bar = { s.bar with
      beatno := (s.realignTo m.mbar).bar * 1024, lost := 0, onOsc := false, hold := false, lastMbar := some m.mbar,
      lastDbBar := (s.realignTo m.mbar).bar, slipBars := up32 s.bar.slipBars (s.realignTo m.mbar).slip,
      short := short, shortAt := shortAt } := by
  have hcur : ¬ s.barNo < s.bar.lastDbBar := Nat.not_lt.mpr hbar
  have hround : ¬ s.barNo / 2 ^ 38 < (s.realignTo m.mbar).bar / 2 ^ 38 := by
    rw [Nat.div_eq_of_lt hwrap]
    exact Nat.not_lt_zero _
  unfold State.realign
  simp only [if_neg hcur, if_neg hround, barMeasured_bar, raise_bar, Nat.mod_eq_of_lt hwrap]
  exact ⟨_, _, rfl⟩

theorem retrainAt_of_no_change {s : State} (mbar : BitVec 32) (h : s.bar.rateNext = none) : s.retrainAt mbar = s := by
  simp [State.retrainAt, h]

/-- The state in which a Downbeat's Beat begins: realigned, in its mode, and with what waits for a Downbeat in force. -/
def State.downBegun (s : State) (m : Marker) (permille : Nat) : State :=
  ((((s.closeBeat.realign m permille).downMode).realigned s.bar.beatno (s.realignTo m.mbar).slip).barBegins true).downChanges

theorem downBegun_bar (s : State) (m : Marker) (permille : Nat) : ∃ bLost, (s.downBegun m permille).bar =
    { (s.closeBeat.realign m permille).bar with barMarked := true, bLost := bLost } := by
  obtain ⟨bLost, h⟩ := barBegins_bar
    (((s.closeBeat.realign m permille).downMode).realigned s.bar.beatno (s.realignTo m.mbar).slip) true
  exact ⟨bLost, by rw [State.downBegun, downChanges_bar, h, realigned_bar, downMode_bar]⟩

theorem downBegun_mode (s : State) (m : Marker) (permille : Nat) :
    (s.downBegun m permille).mode = (s.closeBeat.realign m permille).downMode.mode := by
  simp [State.downBegun]

/-- What a taken Downbeat leaves of ring time when its Beat begins: realigned, marked, the rest as it was (R40). -/
theorem downBegun_realigned {s : State} (m : Marker) (permille : Nat) (hbar : s.bar.lastDbBar ≤ s.bar.beatno / 1024)
    (hwrap : (s.realignTo m.mbar).bar < 2 ^ 38) : ∃ short shortAt bLost, (s.downBegun m permille).bar = { s.bar with
      beatno := (s.realignTo m.mbar).bar * 1024, lost := 0, onOsc := false, hold := false, lastMbar := some m.mbar,
      lastDbBar := (s.realignTo m.mbar).bar, slipBars := up32 s.bar.slipBars (s.realignTo m.mbar).slip,
      short := short, shortAt := shortAt, cal := 0, barMarked := true, bLost := bLost } := by
  have hclose := closeBeat_bar s
  have hto : s.closeBeat.realignTo m.mbar = s.realignTo m.mbar := by
    unfold State.realignTo State.barNo
    rw [hclose]
  obtain ⟨short, shortAt, hrealign⟩ := realign_bar (s := s.closeBeat) m permille (by rw [hclose]; exact hbar)
    (by rw [hto]; exact hwrap)
  obtain ⟨bLost, hbegun⟩ := downBegun_bar s m permille
  exact ⟨short, shortAt, bLost, by rw [hbegun, hrealign, hto, hclose]⟩

/-- Without a beat source and without a rate change that it names, a Downbeat begins a Beat that runs whole. -/
theorem downGo_runs {s : State} (m : Marker) (permille : Nat) (hsrc : (s.downBegun m permille).bar.beatsrc = false)
    (hrate : (s.downBegun m permille).bar.rateNext = none) :
    s.downGo m permille State.downMode = (s.downBegun m permille).degrades.runBeat := by
  have hgo : s.downGo m permille State.downMode =
      ((s.downBegun m permille).masterBeats.degrades.runBeat).retrainAt m.mbar := rfl
  rw [hgo, masterBeats_of_not_source hsrc, retrainAt_of_no_change]
  rw [runBeat_bar, degrades_bar, hrate]

/-- A valid Downbeat outside a completion, a training and Rest is taken (R40). -/
theorem downbeat_taken {s : State} {m : Marker} (permille : Nat)
    (hmode : s.mode = .run ∨ s.mode = .degraded ∨ s.mode = .freewheel) (hcomp : s.completing = false)
    (hsrc : s.bar.beatsrc = false) (htrain : s.bar.retrain = false) (hdown : markerDown m s.bar.rate = true) :
    s.downbeat m permille = s.downGo m permille State.downMode := by
  rcases hmode with hmode | hmode | hmode <;>
    simp [State.downbeat, Mode.timed, hmode, hcomp, hsrc, htrain, hdown]

theorem downbeat_join {s : State} {m : Marker} (permille : Nat) (hcomp : s.completing = false)
    (hsrc : s.bar.beatsrc = false) (hdown : markerDown m s.bar.rate = true) (hmode : s.mode = .join) :
    s.downbeat m permille = { s with ringA := s.ringA.ownersDown, ringB := s.ringB.ownersDown } := by
  simp [State.downbeat, State.joinDown, Mode.timed, hcomp, hsrc, hdown, hmode]

theorem downbeat_unchanged {s : State} {m : Marker} (permille : Nat) (hcomp : s.completing = false)
    (h : markerDown m s.bar.rate = false ∨ s.bar.beatsrc = true ∨ s.mode.timed = false ∧ s.mode ≠ .join ∨
      s.mode.timed = true ∧ s.bar.retrain = true) : s.downbeat m permille = s := by
  rcases h with h | h | ⟨htimed, hmode⟩ | ⟨htimed, htrain⟩
  · simp [State.downbeat, h]
  · simp [State.downbeat, h]
  · simp [State.downbeat, State.joinDown, hcomp, htimed, hmode]
  · simp [State.downbeat, hcomp, htimed, htrain]

theorem exec_downbeat_of_no_gong {s : State} (m : Marker) (permille : Nat) (h : s.gongDue = none) :
    exec (.downbeat m permille) s = .next (s.downbeat m permille) := by
  conv_rhs => rw [← gongFires_of_none h]
  rfl

/-! ### Ring B (R44, R45) -/

/-- Ring B carries slots again from a valid Downbeat of its own on. -/
def State.ringBMarked (s : State) : State :=
  { s with bar := { s.bar with bLost := 0 }, ringB := { s.ringB with slots := true } }

/-- The offset of Ring B's Downbeat is within 4 slots of the measured one. -/
def State.ringBNear (s : State) (off : BitVec 16) : Prop :=
  (wrapSlots (off.toInt - s.bar.bOffset.toInt)).natAbs ≤ 4

section
variable {s : State} {m : Marker} {off : BitVec 16} (hring : s.mode.onRing = true) (hjoined : s.ringB.joined = true)
  (hsrc : s.bar.beatsrc = false) (hdown : markerDown m s.bar.rate = true)
include hring hjoined hsrc hdown

theorem ringBDown_first (hfirst : s.bar.bvalid = false) : s.ringBDown m off =
    { s.ringBMarked with bar := { s.ringBMarked.bar with bOffset := off, bvalid := true } } := by
  simp [State.ringBDown, hring, hjoined, hsrc, hdown, hfirst, State.ringBMarked]

theorem ringBDown_near (hvalid : s.bar.bvalid = true) (hnear : s.ringBNear off) : s.ringBDown m off = s.ringBMarked := by
  have hle : ¬ 4 < (wrapSlots (off.toInt - s.bar.bOffset.toInt)).natAbs := Nat.not_lt.mpr hnear
  simp [State.ringBDown, hring, hjoined, hsrc, hdown, hvalid, hle, State.ringBMarked]

theorem ringBDown_far (hvalid : s.bar.bvalid = true) (hfar : ¬ s.ringBNear off) :
    s.ringBDown m off = s.ringBMarked.raise .bar 0x08 := by
  have hlt : 4 < (wrapSlots (off.toInt - s.bar.bOffset.toInt)).natAbs := Nat.not_le.mp hfar
  simp [State.ringBDown, hring, hjoined, hsrc, hdown, hvalid, hlt, State.ringBMarked]

end

theorem ringBDown_unjoined {s : State} (m : Marker) (off : BitVec 16) (h : s.ringB.joined = false) :
    s.ringBDown m off = s := by
  simp [State.ringBDown, h]

theorem ringBLost_unjoined {s : State} (h : s.ringB.joined = false) : s.ringBLost = s := by
  simp [State.ringBLost, h]

theorem ringBLost_drifts {s : State} (htimed : s.mode.timed = true) (hjoined : s.ringB.joined = true)
    (hlost : 2 ≤ s.bar.bLost) :
    s.ringBLost = State.raise { s with bar := { s.bar with bLost := 0 } } .bar 0x08 := by
  simp [State.ringBLost, htimed, hjoined, hlost]

/-! ### Free-wheel (R49) -/

theorem freewheels_unchanged {s : State} (h : s.bar.lost < 2048 ∨ s.bar.beatsrc = true) : s.freewheels = s := by
  have hstays : s.entersFreewheel s.bar.lost = false := by
    rcases h with h | h
    · simp [State.entersFreewheel, Config.lostLimit, Nat.not_le.mpr h]
    · simp [State.entersFreewheel, h]
  simp [State.freewheels, hstays]

/-- The ALERT of an events register on one ring, where it carries slots and has a node (19 R456). -/
def State.alertOn (i : EvId) (x : Ring × Node) (t : State) : State :=
  if (t.ring x.1).carries && x.2 != 0x1F then { t with devq := t.devq ++ [alertPkt t i x.1 x.2] } else t

theorem alertOn_queues (i : EvId) (x : Ring × Node) (t : State) : ∃ q, t.alertOn i x = { t with devq := q } ∧
    t.devq ⊆ q ∧ ((t.ring x.1).carries = true → x.2 ≠ 0x1F → alertPkt t i x.1 x.2 ∈ q) := by
  unfold State.alertOn
  split
  · exact ⟨_, rfl, by simp, fun _ _ => by simp⟩
  · next h => exact ⟨_, rfl, List.Subset.refl _, fun hcarries hnode => absurd (by simpa [hcarries] using hnode) h⟩

/-- The ALERT of an events register on every ring changes the queue of device packets and what the register owes. -/
theorem alertEvery_queues (s : State) (i : EvId) : ∃ q, s.alertEvery i =
    { s with devq := q, evs := s.evs.set i.ix { s.evs[i.ix] with due := false, sent := true } } ∧
    (s.ringA.carries = true → s.gen.alertA ≠ 0x1F → alertPkt s i .a s.gen.alertA ∈ q) := by
  obtain ⟨qA, hA, -, hmem⟩ := alertOn_queues i (.a, s.gen.alertA) s
  obtain ⟨qB, hB, hsub, -⟩ := alertOn_queues i (.b, s.gen.alertB) { s with devq := qA }
  have hboth : State.alertOn i (.b, s.gen.alertB) (State.alertOn i (.a, s.gen.alertA) s) = { s with devq := qB } := by
    rw [hA, hB]
  refine ⟨qB, ?_, fun hcarries hnode => hsub (hmem hcarries hnode)⟩
  change (fun t : State => ({ t with evs := t.evs.set i.ix { t.evs[i.ix] with due := false, sent := true } } : State))
    (State.alertOn i (.b, s.gen.alertB) (State.alertOn i (.a, s.gen.alertA) s)) = _
  rw [hboth]

theorem tally_ev {i : EvId} (s : State) (typ : Nat) (kit : Option Kit) (arg : Nat) (h : EvId.tal.ix.val ≠ i.ix.val) :
    (s.tally typ kit arg).ev i = s.ev i := by
  unfold State.tally State.tallyAt
  split
  · split
    · simp [State.ev, h]
    · rfl
  · rfl

theorem enter_ev {i : EvId} (s : State) (m : Mode) (trig : Nat) (h : EvId.tal.ix.val ≠ i.ix.val) :
    (s.enter m trig).ev i = s.ev i := by
  unfold State.enter
  split
  · rfl
  · exact tally_ev _ _ _ _ h

/-- The state of Free-wheel's first Bar, before its event and its records. -/
def State.freewheeling (s : State) : State := ({ s with bar := { s.bar with fwBars := 1 } }).enter .freewheel 0x13

theorem freewheels_taken {s : State} (hmode : s.mode = .run ∨ s.mode = .degraded) (hcomp : s.completing = false)
    (hlost : 2048 ≤ s.bar.lost) (hsrc : s.bar.beatsrc = false) : s.freewheels =
      (((s.freewheeling.raise .bar 0x01).alertEvery .bar).tally 0x65 none s.freewheeling.budgetE) := by
  unfold State.freewheels
  exact if_pos (by simp [State.entersFreewheel, Config.lostLimit, hmode, hcomp, hlost, hsrc])

/-- Entry to Free-wheel: its first Bar, LOSTDB with its ALERT, and nothing of ring time or of the stored bytes. -/
theorem freewheeling_alerted (s : State) (arg : Nat) :
    ∃ t, ((s.freewheeling.raise .bar 0x01).alertEvery .bar).tally 0x65 none arg = t ∧ t.mode = .freewheel ∧
      t.bar = { s.bar with fwBars := 1 } ∧ (t.ev .bar).bits = (s.ev .bar).bits ||| 0x01 ∧
      (s.ringA.carries = true → s.gen.alertA ≠ 0x1F →
        ∃ p ∈ t.devq, p.opc = 0x73 ∧ p.ring = .a ∧ p.dest = s.gen.alertA) ∧ SameStores s t := by
  have hring : s.freewheeling.ringA = s.ringA := by simp [State.freewheeling]
  have hgen : s.freewheeling.gen = s.gen := by simp [State.freewheeling]
  have hstores : SameStores s s.freewheeling := by
    unfold State.freewheeling
    exact sameStores_of_eq (by simp) (by simp) (by simp)
  obtain ⟨q, halert, hmem⟩ := alertEvery_queues (s.freewheeling.raise .bar 0x01) .bar
  refine ⟨_, rfl, ?mode, ?bar, ?event,
    fun hcarries hnode => ⟨alertPkt (s.freewheeling.raise .bar 0x01) .bar .a s.gen.alertA, ?packet, rfl, rfl, rfl⟩, ?stores⟩
  case mode =>
    rw [tally_mode, halert]
    exact enter_mode _ _ _
  case bar =>
    rw [tally_bar, halert]
    simp [State.freewheeling]
  case event =>
    have hev : s.freewheeling.ev .bar = s.ev .bar := enter_ev _ _ _ (by decide)
    rw [tally_ev _ _ _ _ (by decide), halert, ← hev, ← ev_raise_same]
    simp [State.ev]
  case packet =>
    rw [raise_ringA, raise_gen, hring, hgen] at hmem
    rw [tally_devq, halert]
    exact hmem hcarries hnode
  case stores =>
    rw [halert]
    exact sameStores_trans hstores (sameStores_of_eq (by simp) (by simp) (by simp))

/-! ### The statement -/

/-- Settles O31: ring time after a Downbeat is that of the Beat's beginning (`downBegun_realigned`), which nothing that the
Beat runs moves, and the mode that of `downMode` or Degraded; Ring B by the cases of `ringBDown`; Free-wheel by
`freewheeling_alerted`. -/
theorem downbeatsAlignRingTime : Obligations.DownbeatsAlignRingTime := by
  unfold Obligations.DownbeatsAlignRingTime
  refine ⟨fun s m permille hcomp hgong => ?downbeat, fun s m off => ?ringB, fun s hmode hcomp => ?freewheel⟩
  case downbeat =>
    rw [exec_downbeat_of_no_gong m permille hgong]
    refine ⟨fun x hmode hsrc htrain hrate _ hdown hlast => ?_,
      fun h => congrArg Host.Outcome.next (downbeat_unchanged permille hcomp h),
      fun hdown hsrc hmode => congrArg Host.Outcome.next (downbeat_join permille hcomp hsrc hdown hmode)⟩
    intro d master bar hpos hhalf hbar hwrap
    have hto := realignTo_forward hlast hpos hhalf hbar
    obtain ⟨short, shortAt, bLost, hbegun⟩ := downBegun_realigned m permille hbar (by rw [hto]; exact hwrap)
    rw [hto] at hbegun
    have hrun := downGo_runs m permille (by rw [hbegun]; exact hsrc) (by rw [hbegun]; exact hrate)
    have htime : (s.downBegun m permille).degrades.runBeat.bar = (s.downBegun m permille).bar := by
      rw [runBeat_bar, degrades_bar]
    refine ⟨_, congrArg Host.Outcome.next ((downbeat_taken permille hmode hcomp hsrc htrain hdown).trans hrun), ?_⟩
    rw [htime, hbegun]
    refine ⟨rfl, rfl, rfl, rfl, rfl, rfl, Nat.min_comm _ _, rfl, fun hfree => ?_⟩
    rw [runBeat_mode]
    refine degrades_serves ?_
    rw [downBegun_mode]
    exact downMode_of_freewheel (by simpa using hfree)
  case ringB =>
    refine ⟨fun hring hjoined hsrc hdown => ⟨fun hfirst => ?_, fun hvalid hnear => ?_, fun hvalid hfar => ?_⟩,
      fun h => ⟨congrArg Host.Outcome.next (ringBDown_unjoined m off h), congrArg Host.Outcome.next (ringBLost_unjoined h)⟩,
      fun htimed hjoined hlost => congrArg Host.Outcome.next (ringBLost_drifts htimed hjoined hlost)⟩
    · exact congrArg Host.Outcome.next (ringBDown_first hring hjoined hsrc hdown hfirst)
    · exact congrArg Host.Outcome.next (ringBDown_near hring hjoined hsrc hdown hvalid hnear)
    · exact congrArg Host.Outcome.next (ringBDown_far hring hjoined hsrc hdown hvalid hfar)
  case freewheel =>
    refine ⟨fun hlost hsrc => ?_, fun h => congrArg Host.Outcome.next (freewheels_unchanged h)⟩
    obtain ⟨t, ht, hfree, hbar, hrest⟩ := freewheeling_alerted s s.freewheeling.budgetE
    refine ⟨t, congrArg Host.Outcome.next ((freewheels_taken hmode hcomp hlost hsrc).trans ht), hfree, ?_⟩
    rw [hbar]
    exact ⟨rfl, rfl, hrest⟩

end Sys2Proof.Machine

/-! PROOFS. Acceptance of writes (03 R76, R82; 11 R281, R282), the merge buffer (R290) and RMW merges (R292, 13 R338). -/

namespace Sys2Proof.Machine

/-! ### What leaves the pending writes as they are

Tokens, counters, ages, replies and array reads touch neither an entry nor a stored byte: one relation, and a lemma for each
operation that acceptance, a merge and a recant run. -/

/-- From `s` to `t` no write-hold entry, no merge entry, no Kit's recant count and no stored byte changes, in one Beat. -/
structure SameWrites (s t : State) : Prop where
  hold : t.hold = s.hold
  merge : t.merge = s.merge
  bar : t.bar = s.bar
  recants : ∀ k, (t.kit k).krectot = (s.kit k).krectot
  stores : SameStores s t

/-- An update of other fields alone. -/
theorem SameWrites.of_eq {s t : State} (hhold : t.hold = s.hold := by rfl) (hmerge : t.merge = s.merge := by rfl)
    (hbar : t.bar = s.bar := by rfl) (hkits : t.kits = s.kits := by rfl) (hmram : t.mram = s.mram := by rfl)
    (hnand : t.deep.nand = s.deep.nand := by rfl) (hbel : t.bel.mem = s.bel.mem := by rfl) : SameWrites s t :=
  ⟨hhold, hmerge, hbar, fun k => by rw [State.kit, State.kit, hkits], sameStores_of_eq hmram hnand hbel⟩

theorem SameWrites.refl (s : State) : SameWrites s s := .of_eq

theorem SameWrites.trans {s t u : State} (hst : SameWrites s t) (htu : SameWrites t u) : SameWrites s u where
  hold := htu.hold.trans hst.hold
  merge := htu.merge.trans hst.merge
  bar := htu.bar.trans hst.bar
  recants k := (htu.recants k).trans (hst.recants k)
  stores := sameStores_trans hst.stores htu.stores

theorem SameWrites.ite {s t u : State} {c : Prop} [Decidable c] (ht : SameWrites s t) (hu : SameWrites s u) :
    SameWrites s (if c then t else u) := by
  split
  · exact ht
  · exact hu

theorem SameWrites.forEach {α : Type} {f : α → State → State} (h : ∀ x s, SameWrites s (f x s)) (l : List α)
    (s : State) : SameWrites s (forEach f l s) := by
  induction l generalizing s with
  | nil => exact .refl s
  | cons x xs ih => exact (h x s).trans (ih (f x s))

/-! #### Kits and tokens (03 R79, R81) -/

theorem setKit_krectot {s : State} {k : Kit} {x : KitSt} (h : x.krectot = (s.kit k).krectot) (l : Kit) :
    ((s.setKit k x).kit l).krectot = (s.kit l).krectot := by
  by_cases hl : k = l
  · subst hl
    rw [kit_setKit, h]
  · rw [kit_setKit_of_ne s k l x hl]

theorem setKit_sameWrites {s : State} {k : Kit} {x : KitSt} (h : x.krectot = (s.kit k).krectot) :
    SameWrites s (s.setKit k x) :=
  ⟨rfl, rfl, rfl, setKit_krectot h, sameStores_of_eq rfl rfl rfl⟩

/-- A token comes out of the Kit's own count or of the free ones. -/
theorem kitToken_takes {s t : State} {k : Kit} (h : s.kitToken k = some t) :
    t = s.setKit k { s.kit k with tok := (s.kit k).tok - 1 } ∨
      t = { s with stk := { s.stk with tokFree := s.stk.tokFree - 1 } } := by
  unfold State.kitToken at h
  dsimp only at h
  split at h
  · exact .inl (Option.some.inj h).symm
  · split at h
    · cases h
    · split at h
      · exact .inr (Option.some.inj h).symm
      · cases h

theorem kitToken_sameWrites {s t : State} {k : Kit} (h : s.kitToken k = some t) : SameWrites s t := by
  obtain rfl | rfl := kitToken_takes h
  · exact setKit_sameWrites rfl
  · exact .of_eq

/-- A capture takes a token of its Kit at most (11 R282). -/
theorem capture_token (s : State) (o : Kit) (a : Nat) :
    (s.capture o a).2 = s ∨ s.kitToken o = some (s.capture o a).2 := by
  unfold State.capture
  split
  · exact .inl rfl
  · split
    · exact .inl rfl
    · split
      · exact .inl rfl
      · exact .inl rfl
      · split
        · next h => exact .inr h
        · exact .inl rfl

theorem capture_sameWrites (s : State) (o : Kit) (a : Nat) : SameWrites s (s.capture o a).2 := by
  obtain h | h := capture_token s o a
  · rw [h]
    exact .refl s
  · exact kitToken_sameWrites h

/-! #### Places, counters and records -/

theorem heat_touch_sameWrites (s : State) (k : Kit) (a n : Nat) : SameWrites s ((s.heat k a n).touch k a) :=
  .of_eq

theorem nearWrite_sameWrites (s : State) (k : Kit) (a : Nat) (d : List Byte) : SameWrites s (s.nearWrite k a d) :=
  .of_eq

theorem updJob_sameWrites (s : State) (rid : Nat) (f : WriteJob → WriteJob) : SameWrites s (s.updJob rid f) :=
  .of_eq

theorem notePrior_sameWrites (s : State) (k : Kit) (a : Nat) : SameWrites s (s.notePrior k a) :=
  .of_eq

theorem redirty_sameWrites (s : State) (k : Kit) (a : Nat) : SameWrites s (s.redirty k a) :=
  .of_eq

theorem tally_sameWrites (s : State) (typ : Nat) (kit : Option Kit) (arg : Nat) : SameWrites s (s.tally typ kit arg) :=
  .of_eq (by simp) (by simp) (by simp) (by simp) (by simp) (by simp) (by simp)

theorem sendDev_sameWrites (s : State) (p : DevPkt) : SameWrites s (s.sendDev p) :=
  .of_eq (by simp) (by simp) (by simp) (by simp) (by simp) (by simp) (by simp)

theorem creditBack_sameWrites (s : State) (rid : Nat) (k : Kit) : SameWrites s (s.creditBack rid k) :=
  (updJob_sameWrites s rid _).trans (setKit_sameWrites rfl)

theorem acceptedUnit_sameWrites (s : State) (rid : Nat) (k : Kit) (u : WUnit) (whole : Bool) :
    SameWrites s (s.acceptedUnit rid k u whole) := by
  unfold State.acceptedUnit
  extract_lets credited touched
  have htouched : SameWrites s touched :=
    ((creditBack_sameWrites s rid k).trans (updJob_sameWrites _ rid _)).trans (heat_touch_sameWrites _ k u.kaddr 1)
  exact .ite (htouched.trans (nearWrite_sameWrites _ k u.kaddr u.data)) htouched

/-! #### Array reads (13 R331 to R341) -/

theorem metaFails_same (s : State) (c : Nat) :
    (s.metaFails c).hold = s.hold ∧ (s.metaFails c).merge = s.merge ∧ (s.metaFails c).kits = s.kits := by
  unfold State.metaFails
  split
  case h_5 => split <;> exact ⟨rfl, rfl, rfl⟩
  all_goals exact ⟨rfl, rfl, rfl⟩

theorem readArray_same (s : State) (src c : Nat) : (s.readArray src c).hold = s.hold ∧
    (s.readArray src c).merge = s.merge ∧ (s.readArray src c).kits = s.kits := by
  unfold State.readArray
  extract_lets o counted fixed fresh marked t
  have ht : t.hold = s.hold ∧ t.merge = s.merge ∧ t.kits = s.kits := ⟨rfl, rfl, rfl⟩
  clear_value t
  split
  · obtain ⟨hhold, hmerge, hkits⟩ := metaFails_same ((t.raise .ecc 0x01).tally 0x51 none (c + 2 ^ 32 * src)) c
    rw [hhold, hmerge, hkits]
    simpa using ht
  · split
    · obtain ⟨hhold, hmerge, hkits⟩ := metaFails_same t c
      rw [hhold, hmerge, hkits]
      exact ht
    · exact ht

theorem readArray_sameWrites (s : State) (src c : Nat) : SameWrites s (s.readArray src c) := by
  obtain ⟨hhold, hmerge, hkits⟩ := readArray_same s src c
  obtain ⟨-, -, hstores⟩ := readArray_frame s src c
  exact ⟨hhold, hmerge, readArray_bar s src c, fun k => by rw [State.kit, State.kit, hkits], hstores⟩

/-! #### Replies and settlement (03 R82; 06 R148; 11 R293) -/

theorem queueReply_krectot (s : State) (rid : Nat) (rq : Req) (k l : Kit) (a : Answer) :
    ((s.queueReply rid rq (some k) a).kit l).krectot = (s.kit l).krectot := by
  rw [← setKit_krectot (s := s) (k := k) (x := (s.kit k).countReply a.status) rfl l]
  unfold State.queueReply
  cases rq.via with
  | i3c => rfl
  | ring r => exact congrArg (fun kits : Vector KitSt 16 => (kits[l]).krectot) (tempoMiss_kits _ _ _)

theorem answer_sameWrites (s : State) (rid : Nat) (rq : Req) (k : Kit) (a : Answer) :
    SameWrites s (s.answer rid rq (some k) a) := by
  refine ⟨by simp, by simp, by simp, fun l => ?_, sameStores_of_eq (by simp) (by simp) (by simp)⟩
  unfold State.answer
  split
  · exact queueReply_krectot s rid rq k l a
  · split
    · exact queueReply_krectot s rid rq k l a
    · rfl

theorem writeReply_sameWrites (s : State) (j : WriteJob) : SameWrites s (s.writeReply j) := by
  unfold State.writeReply
  extract_lets wr cut rel _ noted
  have hnoted : SameWrites s noted := setKit_sameWrites rfl
  split
  · split
    · exact hnoted.trans (answer_sameWrites noted j.rid j.rq j.kit _)
    · exact answer_sameWrites s j.rid j.rq j.kit _
  · exact answer_sameWrites s j.rid j.rq j.kit _

theorem returnCredits_sameWrites (s : State) (j : WriteJob) : SameWrites s (s.returnCredits j) := setKit_sameWrites rfl

theorem settleJob_sameWrites (rid : Nat) (s : State) : SameWrites s (s.settleJob rid) := by
  unfold State.settleJob
  split
  · exact .refl s
  · extract_lets accepted resolved credited due replied told
    have hcredited : SameWrites s credited :=
      .ite ((returnCredits_sameWrites _ _).trans (updJob_sameWrites _ _ _)) (.refl s)
    have hreplied : SameWrites s replied :=
      hcredited.trans (.ite ((writeReply_sameWrites _ _).trans (updJob_sameWrites _ _ _)) (.refl _))
    have htold : SameWrites s told := by
      refine hreplied.trans (.ite ?_ (.refl _))
      split
      · exact sendDev_sameWrites _ _
      · exact .refl _
    exact .ite (htold.trans .of_eq) hreplied

theorem resolveJobs_sameWrites (s : State) (rids : List Nat) (a : Nat) (recant : Bool) :
    SameWrites s (s.resolveJobs rids a recant) := by
  unfold State.resolveJobs
  extract_lets told
  have htold : SameWrites s told := .of_eq
  exact htold.trans (.forEach (fun rid t => (updJob_sameWrites t rid _).trans (settleJob_sameWrites rid _)) rids told)

/-! #### A recant (11 R285; 13 R338) -/

theorem queueMarker_sameWrites (s : State) (c : Nat) : SameWrites s (s.queueMarker c) :=
  .ite (.refl s) .of_eq

theorem queueRec_sameWrites (s : State) (r : RecId) : SameWrites s (s.queueRec r) :=
  .ite (.refl s) .of_eq

/-- A recant is its Kit's record of it; the rest leaves the pending writes. -/
theorem recantKit_sameWrites (s : State) (k : Kit) (a c : Nat) (sync : Bool) :
    SameWrites (s.setKit k ((s.kit k).recant a s.bar.beatno sync)) (s.recantKit k a c sync) := by
  refine SameWrites.trans ?_ (queueRec_sameWrites _ _)
  refine SameWrites.trans ?_ (queueMarker_sameWrites _ c)
  exact .of_eq

theorem recantNarrow_sameWrites (s : State) (k : Kit) (rids : List Nat) (a c : Nat) :
    SameWrites (s.setKit k ((s.kit k).recant a s.bar.beatno (s.allSync rids))) (s.recantNarrow k rids a c) :=
  ((recantKit_sameWrites s k a c _).trans (tally_sameWrites _ _ _ _)).trans (resolveJobs_sameWrites _ _ _ _)

/-! ### A data entry is taken (11 R281) -/

/-- An entry as acceptance leaves it: the data of a chord of a Kit, for the writes that brought it, waiting for its
pulse. -/
structure WEntry.Accepted (e : WEntry) (k : Kit) (a c : Nat) (d : List Byte) (rids : List Nat) (now : Nat) : Prop where
  kind : e.kind = .data
  payer : e.payer = some k
  kaddr : e.kaddr = a
  chord : e.chord = BitVec.ofNat 28 c
  data : e.data = d
  rids : e.rids = rids
  accepted : e.accepted = now
  phase : e.phase = .waiting

theorem pushData_accepts (s : State) (k : Kit) (rids : List Nat) (a c : Nat) (d : List Byte) :
    ∃ e : WEntry, e.Accepted k a c d rids s.bar.beatno ∧
      SameWrites { s with hold := s.hold ++ [e] } (s.pushData k rids a c d) := by
  obtain ⟨hhold, hmerge, hbar, hrecants, hstores⟩ := capture_sameWrites s k a
  refine ⟨_, ?_, ⟨congrArg (· ++ [_]) hhold, hmerge, hbar, hrecants, hstores⟩⟩
  exact ⟨rfl, rfl, rfl, rfl, rfl, rfl, rfl, rfl⟩

/-! ### PRE_IMAGE_CAPTURE (11 R282) -/

section
variable {s : State} {e : WEntry} {k : Kit} {b : Nat} (hhold : s.hold = [e]) (hpre : e.pre = .due b)
  (hpayer : e.payer = some k)
include hhold hpre hpayer

theorem captureEntry_early (hdue : reached b s.bar.beatno = false) : s.captureEntry e.ent = s := by
  simp [State.captureEntry, hhold, hpre, hpayer, hdue]

theorem captureEntry_at_hand {d : List Byte} (hkind : e.kind = .data) (hdue : reached b s.bar.beatno = true)
    (hview : s.stored k e.kaddr = .val d) :
    s.captureEntry e.ent = { s with hold := [{ e with pre := .have (some d) }] } := by
  simp [State.captureEntry, hhold, hpre, hpayer, hdue, hview, hkind, updWhere]

theorem captureEntry_read {c : Nat} {m : BitVec 64} {ov d : List Byte} (hkind : e.kind = .data)
    (hdue : reached b s.bar.beatno = true) (hview : s.stored k e.kaddr = .array c m ov)
    (hvalue : (s.decodeOf k e.kaddr c).value = some d) :
    s.captureEntry e.ent = { s.readArray 1 c with hold := [{ e with pre := .have (some d) }] } := by
  have hread : (s.readArray 1 c).hold = [e] := (readArray_same s 1 c).1.trans hhold
  simp [State.captureEntry, hhold, hpre, hpayer, hdue, hview, hvalue, hread, hkind, updWhere]

end

/-! ### MERGE_ENTRY_TIMEOUT (11 R290) -/

theorem mergeLate_free {s : State} {i : Fin 64} (h : s.merge[i] = none) : s.mergeLate i = s := by
  simp only [State.mergeLate, h]

theorem mergeLate_early {s : State} {i : Fin 64} {m : MEntry} (h : s.merge[i] = some m)
    (hdue : reached ((m.opened + 8) % 2 ^ 48) s.bar.beatno = false) : s.mergeLate i = s := by
  simp only [State.mergeLate, h, Config.beatWrap, hdue, Bool.false_eq_true, if_false]

theorem mergeLate_due {s : State} {i : Fin 64} {m : MEntry} (h : s.merge[i] = some m)
    (hdue : reached ((m.opened + 8) % 2 ^ 48) s.bar.beatno = true) : s.mergeLate i = s.closeMerge i := by
  simp only [State.mergeLate, h, Config.beatWrap, hdue, if_true]

/-- The state in which a merge entry has left the buffer and its close is counted. -/
def State.mergeOut (s : State) (i : Fin 64) (counts : Nat × Nat) : State := { s.setMerge i none with mergeClose := counts }

/-- The chord of a merge entry that closes is accepted as one of data. -/
def State.mergePush (s : State) (m : MEntry) (d : List Byte) : State :=
  (s.pushData m.kit m.rids m.kaddr m.chord.toNat d).nearWrite m.kit m.kaddr d

theorem closeMerge_full {s : State} {i : Fin 64} {m : MEntry} (h : s.merge[i] = some m)
    (hmask : m.mask = BitVec.allOnes 64) :
    ∃ counts, s.closeMerge i = (s.mergeOut i counts).mergePush m m.data := by
  simp only [State.closeMerge, h, hmask, beq_self_eq_true, if_true]
  exact ⟨_, rfl⟩

theorem closeMerge_over {s : State} {i : Fin 64} {m : MEntry} {v : List Byte} (h : s.merge[i] = some m)
    (hmask : m.mask ≠ BitVec.allOnes 64) (hhold : s.hold = []) (hout : s.justOut = [])
    (hview : s.stored m.kit m.kaddr = .val v) :
    ∃ counts, s.closeMerge i = (s.mergeOut i counts).mergePush m (overlay m.mask m.data v) := by
  have hview' (counts : Nat × Nat) : (s.mergeOut i counts).stored m.kit m.kaddr = .val v := hview
  have hnone (counts : Nat × Nat) : (s.mergeOut i counts).entriesOf m.kit m.kaddr = [] := by
    simp [State.entriesOf, State.mergeOut, State.setMerge, hhold, hout]
  simp only [State.closeMerge, h, beq_false_of_ne hmask, Bool.false_eq_true, if_false]
  simp only [← State.mergeOut.eq_def, hnone, hview', List.filter_nil, List.getLast?_nil]
  exact ⟨_, rfl⟩

/-- What a closed merge entry leaves: its place free, its chord held, no stored byte changed. -/
theorem mergePush_holds (s : State) (i : Fin 64) (counts : Nat × Nat) (m : MEntry) (d : List Byte) :
    ∃ e : WEntry, e.Accepted m.kit m.kaddr m.chord.toNat d m.rids s.bar.beatno ∧
      ((s.mergeOut i counts).mergePush m d).merge = s.merge.set i none ∧
      ((s.mergeOut i counts).mergePush m d).hold = s.hold ++ [e] ∧
      SameStores s ((s.mergeOut i counts).mergePush m d) := by
  obtain ⟨e, he, hpush⟩ := pushData_accepts (s.mergeOut i counts) m.kit m.rids m.kaddr m.chord.toNat d
  obtain ⟨hhold, hmerge, -, -, hstores⟩ := hpush.trans (nearWrite_sameWrites _ m.kit m.kaddr d)
  exact ⟨e, he, hmerge, hhold, hstores⟩

/-- A merge entry closes at its time, where its mask is full or the chord's value is at hand. -/
theorem mergeLate_closes {s : State} {i : Fin 64} {m : MEntry} {d : List Byte} (h : s.merge[i] = some m)
    (hdue : reached ((m.opened + 8) % 2 ^ 48) s.bar.beatno = true)
    (hdata : m.mask = BitVec.allOnes 64 ∧ d = m.data ∨
      m.mask ≠ BitVec.allOnes 64 ∧ s.hold = [] ∧ s.justOut = [] ∧
        ∃ v, s.stored m.kit m.kaddr = .val v ∧ d = overlay m.mask m.data v) :
    ∃ counts, s.mergeLate i = (s.mergeOut i counts).mergePush m d := by
  rw [mergeLate_due h hdue]
  obtain ⟨hmask, rfl⟩ | ⟨hmask, hhold, hout, v, hview, rfl⟩ := hdata
  · exact closeMerge_full h hmask
  · exact closeMerge_over h hmask hhold hout hview

/-! ### RMW_MERGE (11 R292, 13 R338) -/

/-- The state in which the merged chord stands in its entry, its pre-image captured. -/
def State.rmwMerged (s : State) (e : WEntry) (k : Kit) (d : List Byte) : State :=
  let p := (s.notePrior k e.kaddr).capture k e.kaddr
  let f := fun (x : WEntry) =>
    { x with data := overlay e.mask e.data d, phase := .waiting, accepted := s.bar.beatno, pre := p.1 }
  { p.2 with hold := updWhere (fun x => x.ent == e.ent) f s.hold }

/-- Once the merged chord stands in its entry the acceptance touches no pending write. -/
theorem rmwAccept_sameWrites (s : State) (e : WEntry) (k : Kit) (d : List Byte) :
    SameWrites (s.rmwMerged e k d) (s.rmwAccept e k d) := by
  unfold State.rmwAccept
  extract_lets noted data p f _ merged credited written
  have hcredited : SameWrites merged credited :=
    .forEach (fun rid t => (creditBack_sameWrites t rid k).trans (updJob_sameWrites _ rid _)) e.rids merged
  have hwritten : SameWrites credited written :=
    (heat_touch_sameWrites _ k e.kaddr 1).trans (nearWrite_sameWrites _ k e.kaddr data)
  exact (hcredited.trans hwritten).trans (.forEach settleJob_sameWrites e.rids written)

theorem rmwAccept_holds {s : State} {e : WEntry} (k : Kit) (d : List Byte) (hhold : s.hold = [e]) :
    SameStores s (s.rmwAccept e k d) ∧ ∃ p, (s.rmwAccept e k d).hold =
      [{ e with data := overlay e.mask e.data d, phase := .waiting, accepted := s.bar.beatno, pre := p }] := by
  obtain ⟨hheld, -, -, -, hstores⟩ := rmwAccept_sameWrites s e k d
  have hnoted : SameWrites s ((s.notePrior k e.kaddr).capture k e.kaddr).2 :=
    (notePrior_sameWrites s k e.kaddr).trans (capture_sameWrites _ k e.kaddr)
  have hmerged : SameStores s (s.rmwMerged e k d) := hnoted.stores
  exact ⟨sameStores_trans hmerged hstores, ((s.notePrior k e.kaddr).capture k e.kaddr).1,
    hheld.trans (by simp [State.rmwMerged, hhold, updWhere])⟩

/-- The state in which an entry has left the buffer without a pulse. -/
def State.entryGone (s : State) (e : WEntry) : State := { s with hold := s.hold.filter fun x => x.ent != e.ent }

/-- A poisoned chord is recanted with no pulse: its entry is gone and its Kit counts one more recant. -/
theorem rmwPoison_recants {s : State} {e : WEntry} (k : Kit) (hhold : s.hold = [e]) :
    (s.rmwPoison e k).hold = [] ∧ SameStores s (s.rmwPoison e k) ∧
      ((s.rmwPoison e k).kit k).krectot = up32 (s.kit k).krectot 1 := by
  have hgone : (s.entryGone e).hold = [] := by simp [State.entryGone, hhold]
  obtain ⟨hheld, -, -, hrecants, hstores⟩ := recantNarrow_sameWrites (s.entryGone e) k e.rids e.kaddr e.chord.toNat
  exact ⟨hheld.trans hgone, hstores, (hrecants k).trans (by rw [kit_setKit]; rfl)⟩

section
variable {s : State} {e : WEntry} {k : Kit} (hhold : s.hold = [e]) (hphase : e.phase = .merging)
  (hpayer : e.payer = some k)
include hhold hphase hpayer

theorem mergeEntry_at_hand {d : List Byte} (hview : s.rmwView e k = .val d) :
    s.mergeEntry e.ent = s.rmwAccept e k d := by
  simp [State.mergeEntry, hhold, hphase, hpayer, hview]

theorem mergeEntry_poison (hview : s.rmwView e k = .poison) : s.mergeEntry e.ent = s.rmwPoison e k := by
  simp [State.mergeEntry, hhold, hphase, hpayer, hview]

theorem mergeEntry_read {c : Nat} {m : BitVec 64} {ov d : List Byte} {t : State} (hview : s.rmwView e k = .array c m ov)
    (htoken : s.kitToken k = some t) (hvalue : (t.decodeOf k e.kaddr c).value = some d) :
    s.mergeEntry e.ent = (t.readArray 1 c).rmwAccept e k (overlay m ov d) := by
  simp [State.mergeEntry, hhold, hphase, hpayer, hview, htoken, hvalue]

end

/-! ### CHORD_ACCEPT (03 R76, R82; 11 R281) -/

theorem forEach_unchanged {α σ : Type} {f : α → σ → σ} {s : σ} {l : List α} (h : ∀ x, f x s = s) :
    forEach f l s = s := by
  induction l with
  | nil => rfl
  | cons x xs ih => rw [forEach, h, ih]

theorem merge_empty {s : State} (h : s.merges = []) (i : Fin 64) : s.merge[i] = none := by
  simp only [State.merges, List.filterMap_eq_nil_iff, id_eq] at h
  exact h _ (by simp)

theorem closeMerges_empty {s : State} (p : MEntry → Bool) (h : s.merges = []) : s.closeMerges p = s :=
  forEach_unchanged fun i => by rw [merge_empty h i]

theorem mergeIx_empty {s : State} (k : Kit) (a : Nat) (h : s.merges = []) : s.mergeIx k a = none := by
  simp [State.mergeIx, merge_empty h]

/-- A page homed in Main is ready for a write to a sector with data. -/
theorem readyPage_main {s : State} {j : WriteJob} {a c : Nat} {p : Page} (hpage : s.findPage j.kit (kpOf a) = some p)
    (hframe : p.frame.isSome = true) (hzero : p.zero.getLsbD (secOf a).toNat = false)
    (hplace : s.locate j.kit a = .main c) : s.readyPage j a = .ready s c := by
  have hdeep : p.deepPage.isSome = false := by
    unfold Page.frame at hframe
    unfold Page.deepPage
    cases hhome : p.home <;> simp [hhome] at hframe ⊢
  simp [State.readyPage, hpage, hdeep, hzero, hplace]

/-- A sector of a page homed in Main has no dirty bit to set. -/
theorem dirties_main {s : State} {k : Kit} {a : Nat} {p : Page} (hpage : s.findPage k (kpOf a) = some p)
    (hframe : p.frame.isSome = true) : s.dirties k a = false := by
  unfold Page.frame at hframe
  cases hhome : p.home <;> simp [hhome] at hframe
  simp [State.dirties, hpage, Page.deepPage, hhome]

/-- A whole chord of a page in Main is accepted. -/
def State.wholeAccepted (s : State) (j : WriteJob) (u : WUnit) (c : Nat) : State :=
  ((((s.notePrior j.kit u.kaddr).redirty j.kit u.kaddr).pushData j.kit [j.rid] u.kaddr c u.data).acceptedUnit j.rid j.kit u
    true)

section
variable {s : State} {j : WriteJob} {u : WUnit} {p : Page} {c : Nat}
  (hmask : u.mask = BitVec.allOnes 64) (hpage : s.findPage j.kit (kpOf u.kaddr) = some p)
  (hframe : p.frame.isSome = true) (hzero : p.zero.getLsbD (secOf u.kaddr).toNat = false)
  (hplace : s.locate j.kit u.kaddr = .main c)

include hpage hframe in
theorem wholeFits_main : s.wholeFits j u c = (s.shareFits j.kit (s.chordCost c) && s.entriesFree 1) := by
  simp [State.wholeFits, State.tableCost, dirties_main hpage hframe, b2n]

include hmask hpage hframe hzero hplace

theorem acceptUnit_fits (hmerges : s.merges = []) (hfits : s.wholeFits j u c = true) :
    s.acceptUnit j u = some (s.wholeAccepted j u c) := by
  let noted := s.notePrior j.kit u.kaddr
  have hready : noted.readyPage j u.kaddr = .ready noted c := readyPage_main hpage hframe hzero hplace
  have hdirty : noted.dirties j.kit u.kaddr = false := dirties_main hpage hframe
  have hfits' : noted.wholeFits j u c = true := hfits
  have hclose : noted.closeFor j u c = noted := by
    simp [State.closeFor, hmask, hfits', closeMerges_empty (s := noted) _ hmerges]
  have hix : noted.mergeIx j.kit u.kaddr = none := mergeIx_empty _ _ hmerges
  unfold State.acceptUnit
  rw [hready]
  simp [hmask, hdirty, hfits', hclose, hix, State.wholeAccepted, noted]

theorem acceptUnit_waits (hfits : s.wholeFits j u c = false) : s.acceptUnit j u = none := by
  let noted := s.notePrior j.kit u.kaddr
  have hready : noted.readyPage j u.kaddr = .ready noted c := readyPage_main hpage hframe hzero hplace
  have hfits' : noted.wholeFits j u c = false := hfits
  unfold State.acceptUnit
  rw [hready]
  simp [hmask, hfits']

end

/-! #### The write's job and its reply -/

/-- From `s` to `t` no write job, no request in flight and no reply changes. -/
structure SameRequests (s t : State) : Prop where
  jobs : t.jobs = s.jobs
  replies : t.replies = s.replies
  inflight : t.inflight = s.inflight

theorem SameRequests.trans {s t u : State} (hst : SameRequests s t) (htu : SameRequests t u) : SameRequests s u :=
  ⟨htu.jobs.trans hst.jobs, htu.replies.trans hst.replies, htu.inflight.trans hst.inflight⟩

theorem capture_sameRequests (s : State) (o : Kit) (a : Nat) : SameRequests s (s.capture o a).2 := by
  obtain h | h := capture_token s o a
  · rw [h]
    exact ⟨rfl, rfl, rfl⟩
  · obtain h | h := kitToken_takes h <;> rw [h] <;> exact ⟨rfl, rfl, rfl⟩

theorem pushData_sameRequests (s : State) (k : Kit) (rids : List Nat) (a c : Nat) (d : List Byte) :
    SameRequests s (s.pushData k rids a c d) := by
  obtain ⟨hjobs, hreplies, hinflight⟩ := capture_sameRequests s k a
  exact ⟨hjobs, hreplies, hinflight⟩

theorem heat_touch_sameRequests (s : State) (k : Kit) (a n : Nat) : SameRequests s ((s.heat k a n).touch k a) :=
  ⟨rfl, rfl, rfl⟩

theorem nearWrite_sameRequests (s : State) (k : Kit) (a : Nat) (d : List Byte) : SameRequests s (s.nearWrite k a d) :=
  ⟨rfl, rfl, rfl⟩

/-- Acceptance of a chord changes the write's job alone among the requests. -/
theorem acceptedUnit_sameRequests (s : State) (rid : Nat) (k : Kit) (u : WUnit) (whole : Bool) :
    SameRequests ((s.creditBack rid k).updJob rid fun j =>
      { j with todo := j.todo.drop 1, open_ := j.open_ + 1, lastAccept := s.bar.beatno })
      (s.acceptedUnit rid k u whole) := by
  unfold State.acceptedUnit
  extract_lets credited touched
  have htouched : SameRequests credited touched := heat_touch_sameRequests credited k u.kaddr 1
  split
  · exact htouched.trans (nearWrite_sameRequests touched k u.kaddr u.data)
  · exact htouched

/-- A job with one more chord accepted. -/
def WriteJob.accepted (j : WriteJob) (now : Nat) : WriteJob :=
  { j with credits := j.credits - 1, todo := j.todo.drop 1, open_ := j.open_ + 1, lastAccept := now }

theorem acceptedUnit_requests {s : State} {j : WriteJob} (k : Kit) (u : WUnit) (whole : Bool) (hjobs : s.jobs = [j]) :
    (s.acceptedUnit j.rid k u whole).jobs = [j.accepted s.bar.beatno] ∧
      (s.acceptedUnit j.rid k u whole).replies = s.replies ∧ (s.acceptedUnit j.rid k u whole).inflight = s.inflight := by
  obtain ⟨haccepted, hreplies, hinflight⟩ := acceptedUnit_sameRequests s j.rid k u whole
  refine ⟨haccepted.trans ?_, hreplies, hinflight⟩
  simp [State.creditBack, State.updJob, hjobs, updWhere, WriteJob.accepted]

theorem wholeAccepted_requests {s : State} {j : WriteJob} (u : WUnit) (c : Nat) (hjobs : s.jobs = [j]) :
    (s.wholeAccepted j u c).jobs = [j.accepted s.bar.beatno] ∧ (s.wholeAccepted j u c).replies = s.replies ∧
      (s.wholeAccepted j u c).inflight = s.inflight := by
  let dirty := (s.notePrior j.kit u.kaddr).redirty j.kit u.kaddr
  obtain ⟨hpushed, hreplies, hinflight⟩ := pushData_sameRequests dirty j.kit [j.rid] u.kaddr c u.data
  obtain ⟨haccepted, hreplies', hinflight'⟩ := acceptedUnit_requests j.kit u true (hpushed.trans hjobs)
  have hbar : (dirty.pushData j.kit [j.rid] u.kaddr c u.data).bar = s.bar := pushData_bar _ _ _ _ _ _
  rw [hbar] at haccepted
  exact ⟨haccepted, hreplies'.trans hreplies, hinflight'.trans hinflight⟩

theorem wholeAccepted_findJob {s : State} {j : WriteJob} (u : WUnit) (c : Nat) (hjobs : s.jobs = [j]) :
    (s.wholeAccepted j u c).findJob j.rid = some (j.accepted s.bar.beatno) := by
  obtain ⟨haccepted, -, -⟩ := wholeAccepted_requests u c hjobs
  simp [State.findJob, haccepted, WriteJob.accepted]

/-- The chord that is accepted is held, and every other pending write is as it was. -/
theorem wholeAccepted_holds (s : State) (j : WriteJob) (u : WUnit) (c : Nat) :
    ∃ e : WEntry, e.Accepted j.kit u.kaddr c u.data [j.rid] s.bar.beatno ∧
      SameWrites { s with hold := s.hold ++ [e] } (s.wholeAccepted j u c) := by
  obtain ⟨e, he, hpush⟩ :=
    pushData_accepts ((s.notePrior j.kit u.kaddr).redirty j.kit u.kaddr) j.kit [j.rid] u.kaddr c u.data
  have hnoted : SameWrites { s with hold := s.hold ++ [e] }
      { (s.notePrior j.kit u.kaddr).redirty j.kit u.kaddr with hold := s.hold ++ [e] } :=
    .of_eq
  exact ⟨e, he, (hnoted.trans hpush).trans (acceptedUnit_sameWrites _ j.rid j.kit u true)⟩

/-- What was answered stands as the reply since any state with the same replies. -/
theorem Replied.since {s t u : State} {rid status detail : Nat} {rq : Req} {payload : List Byte}
    (hanswered : Replied t u rid rq status detail payload) (hreplies : t.replies = s.replies) :
    Replied s u rid rq status detail payload := by
  unfold Replied at hanswered ⊢
  rw [hreplies] at hanswered
  exact hanswered

section
variable {s : State} {j : WriteJob} (hjob : s.findJob j.rid = some j) (htodo : j.todo = [])
  (hmerging : (s.hold.any fun e => e.phase == .merging && e.rids.contains j.rid) = false) (hopen : j.open_ ≠ 0)
  (hsync : j.rq.sync = false) (hreplied : j.replied = false) (hcut : j.cutAt = none)
include hjob htodo hmerging hopen hsync hreplied hcut

/-- A provisional write whose chords are all accepted is answered OK_PROVISIONAL with the Beat of the last (03 R82). -/
theorem settleJob_provisional :
    ∃ (t : State) (a : Answer) (f : WriteJob → WriteJob), t.replies = s.replies ∧ t.inflight = s.inflight ∧
      a.status = 0x01 ∧ a.detail = j.lastAccept ∧ a.payload = [] ∧
      s.settleJob j.rid = (t.answer j.rid j.rq (some j.kit) a).updJob j.rid f := by
  let credited := if j.credits != 0 then (s.returnCredits j).updJob j.rid fun j => { j with credits := 0 } else s
  have hcredited : credited.replies = s.replies ∧ credited.inflight = s.inflight := by
    unfold credited
    split <;> exact ⟨rfl, rfl⟩
  refine ⟨credited, { ans 0x01 j.lastAccept with release := some (j.lastAccept + (credited.kit j.kit).tempoWr) },
    fun j => { j with replied := true }, hcredited.1, hcredited.2, rfl, rfl, rfl, ?_⟩
  simp only [State.settleJob, hjob, htodo, hmerging, hsync, hreplied, State.writeReply, hcut, credited]
  simp [hopen]

/-- A request that awaits its reply has it once `settleJob` has answered. -/
theorem settleJob_replies (hawaits : AwaitsReply s j.rid j.rq) :
    Replied s (s.settleJob j.rid) j.rid j.rq 0x01 j.lastAccept [] := by
  obtain ⟨t, a, f, hreplies, hinflight, hstatus, hdetail, hpayload, hsettled⟩ :=
    settleJob_provisional hjob htodo hmerging hopen hsync hreplied hcut
  have hwaits : t.awaits j.rid = true ∨ j.rq.via = .i3c := by
    unfold State.awaits
    rw [hinflight]
    exact hawaits.symm
  have hanswered := answer_replied t j.rid j.rq (some j.kit) a hwaits
  rw [hstatus, hdetail, hpayload] at hanswered
  rw [hsettled]
  exact hanswered.since hreplies

end

/-! #### One write of one chord -/

theorem acceptKit_of_job {s : State} {j : WriteJob} (hjobs : s.jobs = [j]) (htodo : j.todo ≠ []) :
    s.acceptKit j.kit = s.acceptJob j.rid (j.todo.length + 1) := by
  simp [State.acceptKit, hjobs, htodo, forEach]

section
variable {s : State} {j : WriteJob} {u : WUnit} {p : Page} {c : Nat}
  (hjobs : s.jobs = [j]) (htodo : j.todo = [u])
  (hmask : u.mask = BitVec.allOnes 64) (hpage : s.findPage j.kit (kpOf u.kaddr) = some p)
  (hframe : p.frame.isSome = true) (hzero : p.zero.getLsbD (secOf u.kaddr).toNat = false)
  (hplace : s.locate j.kit u.kaddr = .main c)
include hjobs htodo hmask hpage hframe hzero hplace

/-- Without room the write waits, and nothing changes. -/
theorem acceptKit_waits (hfits : s.wholeFits j u c = false) : s.acceptKit j.kit = s := by
  have hjob : s.findJob j.rid = some j := by simp [State.findJob, hjobs]
  have hwait : s.acceptUnit j u = none := acceptUnit_waits hmask hpage hframe hzero hplace hfits
  have hready : s.readyPage j u.kaddr = .ready s c := readyPage_main hpage hframe hzero hplace
  rw [acceptKit_of_job hjobs (by simp [htodo])]
  simp [State.acceptJob, hjob, htodo, hwait, hready, State.closeFor, hmask, hfits]

/-- With room the last chord of the write is accepted, and the write settled. -/
theorem acceptKit_accepts (hmerges : s.merges = []) (hfits : s.wholeFits j u c = true) :
    s.acceptKit j.kit = (s.wholeAccepted j u c).settleJob j.rid := by
  have hjob : s.findJob j.rid = some j := by simp [State.findJob, hjobs]
  have haccept := acceptUnit_fits hmask hpage hframe hzero hplace hmerges hfits
  have hjob' := wholeAccepted_findJob u c hjobs
  rw [acceptKit_of_job hjobs (by simp [htodo])]
  simp [State.acceptJob, hjob, htodo, haccept, hjob', WriteJob.accepted]

/-- The accepted chord is held, and the write answered OK_PROVISIONAL with its Beat. -/
theorem acceptKit_holds (hmerges : s.merges = []) (hfits : s.wholeFits j u c = true) (hsync : j.rq.sync = false)
    (hreplied : j.replied = false) (hcut : j.cutAt = none)
    (hown : s.hold.all (fun e => !e.rids.contains j.rid) = true) (hawaits : AwaitsReply s j.rid j.rq) :
    ∃ e : WEntry, e.Accepted j.kit u.kaddr c u.data [j.rid] s.bar.beatno ∧ (s.acceptKit j.kit).hold = s.hold ++ [e] ∧
      Replied s (s.acceptKit j.kit) j.rid j.rq 0x01 s.bar.beatno [] ∧ SameStores s (s.acceptKit j.kit) := by
  obtain ⟨e, he, hheld⟩ := wholeAccepted_holds s j u c
  obtain ⟨-, hreplies, hinflight⟩ := wholeAccepted_requests u c hjobs
  have hmerging : ((s.wholeAccepted j u c).hold.any fun e => e.phase == .merging && e.rids.contains j.rid) = false := by
    rw [hheld.hold]
    have hown' : ∀ x ∈ s.hold, j.rid ∉ x.rids := by simpa using hown
    simp only [List.any_append, List.any_cons, List.any_nil, he.phase]
    simpa using fun x hx _ => hown' x hx
  have hawaits' : AwaitsReply (s.wholeAccepted j u c) j.rid j.rq := by
    unfold AwaitsReply State.awaits
    rw [hinflight]
    exact hawaits
  have hanswered : Replied (s.wholeAccepted j u c) ((s.wholeAccepted j u c).settleJob j.rid) j.rid j.rq 0x01
      s.bar.beatno [] :=
    settleJob_replies (j := j.accepted s.bar.beatno) (wholeAccepted_findJob u c hjobs)
      (by simp [WriteJob.accepted, htodo]) hmerging (Nat.succ_ne_zero _) hsync hreplied hcut hawaits'
  obtain ⟨hhold, -, -, -, hstores⟩ := hheld.trans (settleJob_sameWrites j.rid (s.wholeAccepted j u c))
  rw [acceptKit_accepts hjobs htodo hmask hpage hframe hzero hplace hmerges hfits]
  exact ⟨e, he, hhold, hanswered.since hreplies, hstores⟩

end

/-! ### The statement -/

/-- Settles O35: acceptance by `acceptKit_holds` and `acceptKit_waits`, the capture by the cases of `captureEntry`, the
close of a merge entry by `mergeLate_closes`, the RMW merge by `rmwAccept_holds` and `rmwPoison_recants`. -/
theorem writeAcceptance : Obligations.WriteAcceptance := by
  unfold Obligations.WriteAcceptance
  refine ⟨?accept, ?capture, fun s => ⟨fun i h => congrArg Host.Outcome.next (mergeLate_free h), ?timeout, ?rmw⟩⟩
  case accept =>
    intro s k j u p c hjobs hkit htodo hsync hreplied hcut hmask hown hpage hframe hzero hplace hmerges hawaits
    subst hkit
    have hroom := wholeFits_main (u := u) (c := c) hpage hframe
    refine ⟨fun hshare hfree => ?_, fun hfull => ?_⟩
    · obtain ⟨e, he, hhold, hanswered, hstores⟩ := acceptKit_holds hjobs htodo hmask hpage hframe hzero hplace hmerges
        (by rw [hroom, hshare, hfree]; rfl) hsync hreplied hcut hown hawaits
      exact ⟨_, e, rfl, hhold, he.kind, he.payer, he.data, he.kaddr, he.chord, he.rids, he.accepted, he.phase, hanswered,
        hstores⟩
    · have hno : s.wholeFits j u c = false := by
        rw [hroom]
        obtain h | h := hfull <;> simp [h]
      exact congrArg Host.Outcome.next (acceptKit_waits hjobs htodo hmask hpage hframe hzero hplace hno)
  case capture =>
    intro s e k b hhold hpre hpayer hkind
    refine ⟨fun hdue => congrArg Host.Outcome.next (captureEntry_early hhold hpre hpayer hdue),
      fun d hdue hview => congrArg Host.Outcome.next (captureEntry_at_hand hhold hpre hpayer hkind hdue hview),
      fun c m ov d hdue hview hvalue => ?_⟩
    obtain ⟨-, hstk, hstores⟩ := readArray_frame s 1 c
    obtain ⟨-, -, hkits⟩ := readArray_same s 1 c
    exact ⟨_, congrArg Host.Outcome.next (captureEntry_read hhold hpre hpayer hkind hdue hview hvalue), rfl, hstk, hkits,
      hstores⟩
  case timeout =>
    intro i m hm
    refine ⟨fun hdue => congrArg Host.Outcome.next (mergeLate_early hm hdue), fun d hdue hdata => ?_⟩
    obtain ⟨counts, hcloses⟩ := mergeLate_closes hm hdue hdata
    obtain ⟨e, he, hmerge, hhold, hstores⟩ := mergePush_holds s i counts m d
    exact ⟨_, e, congrArg Host.Outcome.next hcloses, hmerge, hhold, he.kind, he.payer, he.kaddr,
      he.chord.trans (BitVec.ofNat_toNat 28 m.chord), he.data, he.rids, he.phase, hstores⟩
  case rmw =>
    intro e k hhold hphase hpayer
    refine ⟨fun v hview => ?_, fun c m ov t d hview htoken hvalue => ?_, fun hview => ?_⟩
    · obtain ⟨hstores, p, hheld⟩ := rmwAccept_holds k v hhold
      exact ⟨_, p, congrArg Host.Outcome.next (mergeEntry_at_hand hhold hphase hpayer hview), hstores, hheld⟩
    · have hread : SameWrites s (t.readArray 1 c) := (kitToken_sameWrites htoken).trans (readArray_sameWrites t 1 c)
      obtain ⟨hstores, p, hheld⟩ := rmwAccept_holds k (overlay m ov d) (hread.hold.trans hhold)
      rw [hread.bar] at hheld
      exact ⟨_, p, congrArg Host.Outcome.next (mergeEntry_read hhold hphase hpayer hview htoken hvalue),
        sameStores_trans hread.stores hstores, hheld⟩
    · obtain ⟨hgone, hstores, hcount⟩ := rmwPoison_recants k hhold
      exact ⟨_, congrArg Host.Outcome.next (mergeEntry_poison hhold hphase hpayer hview), hgone, hstores,
        hcount.trans (Nat.min_comm _ _)⟩

end Sys2Proof.Machine

/-! PROOFS. Lanes and their spares (04 R96, R97; 05 R125; 14 R370): the requests for mirrors, the two switches, and what a
completed repair leaves. -/

namespace Sys2Proof.Machine

/-! ### Ring interfaces and events -/

@[simp] theorem ite_ring (c : Prop) [Decidable c] (s t : State) (r : Ring) :
    (if c then s else t).ring r = if c then s.ring r else t.ring r := apply_ite (State.ring · r) c s t

@[simp] theorem raise_ring (s : State) (i : EvId) (mask : BitVec 8) (r : Ring) : (s.raise i mask).ring r = s.ring r := by
  cases r <;> rfl

@[simp] theorem notifyKit_ring (s : State) (k : Kit) (c a : Nat) (r : Ring) : (s.notifyKit k c a).ring r = s.ring r := by
  cases r
  · exact notifyKit_ringA s k c a
  · exact notifyKit_ringB s k c a

@[simp] theorem tally_ring (s : State) (typ : Nat) (k : Option Kit) (a : Nat) (r : Ring) :
    (s.tally typ k a).ring r = s.ring r := by
  cases r
  · exact tally_ringA s typ k a
  · exact tally_ringB s typ k a

@[simp] theorem setRing_ev (s : State) (r : Ring) (x : RingSt) (i : EvId) : (s.setRing r x).ev i = s.ev i := by
  cases r <;> rfl

@[simp] theorem notifyKit_ev (s : State) (k : Kit) (c a : Nat) (i : EvId) : (s.notifyKit k c a).ev i = s.ev i := by
  simp [State.ev]

/-- Raising an event of any register leaves the bits that stand. -/
theorem ev_raise_keeps {i : EvId} {n : Nat} (s : State) (j : EvId) (mask : BitVec 8)
    (h : (s.ev i).bits.getLsbD n = true) : ((s.raise j mask).ev i).bits.getLsbD n = true := by
  by_cases hij : j.ix.val = i.ix.val
  · have hev : (s.raise j mask).ev i = ((s.evs[j.ix]).raise j.alertMask mask) := by simp [State.ev, State.raise, hij]
    have hold : s.ev i = s.evs[j.ix] := by simp [State.ev, hij]
    rw [hev]
    simp [EvReg.raise, ← hold, h]
  · rw [ev_raise_other s mask hij, h]

theorem lnk_ix_ne_rep (r : Ring) : EvId.rep.ix.val ≠ (EvId.lnk r).ix.val := by cases r <;> decide
theorem lnk_ix_ne_tal (r : Ring) : EvId.tal.ix.val ≠ (EvId.lnk r).ix.val := by cases r <;> decide

/-- From `s` to `t` one ring interface has changed and events are raised; nothing else that the statements speak of. -/
structure RingWork (r : Ring) (s t : State) : Prop where
  others : ∀ o, o ≠ r → t.ring o = s.ring o
  bar : t.bar = s.bar
  mode : t.mode = s.mode
  rep : t.rep = s.rep
  events : ∀ i n, (s.ev i).bits.getLsbD n = true → (t.ev i).bits.getLsbD n = true
  stores : SameStores s t

theorem RingWork.refl (r : Ring) (s : State) : RingWork r s s :=
  ⟨fun _ _ => rfl, rfl, rfl, rfl, fun _ _ h => h, sameStores_of_eq rfl rfl rfl⟩

theorem RingWork.trans {r : Ring} {s t u : State} (hst : RingWork r s t) (htu : RingWork r t u) : RingWork r s u :=
  ⟨fun o h => (htu.others o h).trans (hst.others o h), htu.bar.trans hst.bar, htu.mode.trans hst.mode,
    htu.rep.trans hst.rep, fun i n h => htu.events i n (hst.events i n h), sameStores_trans hst.stores htu.stores⟩

theorem setRing_ringWork (s : State) (r : Ring) (x : RingSt) : RingWork r s (s.setRing r x) :=
  ⟨fun o h => ring_setRing_of_ne s r o x h.symm, by simp, by simp, by simp, fun i n h => by simpa using h,
    sameStores_of_eq (by simp) (by simp) (by simp)⟩

theorem raise_ringWork (s : State) (r : Ring) (i : EvId) (mask : BitVec 8) : RingWork r s (s.raise i mask) :=
  ⟨fun o _ => raise_ring s i mask o, rfl, rfl, rfl, fun _ _ h => ev_raise_keeps s i mask h, sameStores_of_eq rfl rfl rfl⟩

theorem forEach_ringWork {α : Type} {r : Ring} {f : α → State → State} (h : ∀ x s, RingWork r s (f x s)) (l : List α)
    (s : State) : RingWork r s (forEach f l s) := by
  induction l generalizing s with
  | nil => exact .refl r s
  | cons x xs ih => exact (h x s).trans (ih (f x s))

/-! ### Spares and lanes (04 R96) -/

theorem spareOf_setSpare_same (v : Vector Spare 2) (sp : Bool) (x : Spare) : spareOf (setSpare v sp x) sp = x := by
  cases sp <;> simp [spareOf, setSpare]

theorem spareOf_setSpare_other (v : Vector Spare 2) (sp : Bool) (x : Spare) :
    spareOf (setSpare v sp x) (!sp) = spareOf v (!sp) := by
  cases sp <;> simp [spareOf, setSpare]

theorem laneMask_bit (l : BitVec 4) (i : Nat) (h : i < 16) : (laneMask l).getLsbD i = decide (l.toNat = i) := by
  rw [laneMask, BitVec.getLsbD_ofNat, Nat.testBit_two_pow]
  simp [h]

theorem laneMask_cleared (b : BitVec 16) (l : BitVec 4) : (b &&& ~~~ laneMask l).getLsbD l.toNat = false := by
  simp [laneMask_bit l l.toNat l.isLt]

/-- A lane that a spare in use replaces is mapped. -/
theorem mapped_of_spare {x : RingSt} {sp : Bool} {lane : BitVec 4} (h : spareOf x.rx sp = ⟨some lane, true⟩) :
    x.mapped lane = true := by
  unfold RingSt.mapped RingSt.spareFor
  rw [List.find?_isSome]
  exact ⟨sp, by cases sp <;> simp, by simp [h]⟩

theorem not_wanted_of_mapped {x : RingSt} {lane : BitVec 4} (h : x.mapped lane = true) : lane ∉ x.wanted := by
  simp [RingSt.wanted, h]

/-! ### Mirrors asked for (04 R96, R97) -/

/-- From `s` to `t` mirrors of some of `lanes` are asked for on a ring, or their want of a spare is reported: what the
receiver carries stays, and comparisons and requests are only added. -/
structure MirrorsAsked (r : Ring) (lanes : List (BitVec 4)) (s t : State) : Prop extends RingWork r s t where
  rx : (t.ring r).rx = (s.ring r).rx
  bad : (t.ring r).bad = (s.ring r).bad
  rejoin : (t.ring r).rejoin = (s.ring r).rejoin
  kept : (s.ring r).remaps ⊆ (t.ring r).remaps
  asked : ∀ m ∈ (t.ring r).remaps, m ∈ (s.ring r).remaps ∨ m.lane ∈ lanes
  mail : (s.ring r).mail ⊆ (t.ring r).mail

theorem MirrorsAsked.refl (r : Ring) (lanes : List (BitVec 4)) (s : State) : MirrorsAsked r lanes s s :=
  ⟨.refl r s, rfl, rfl, rfl, List.Subset.refl _, fun _ h => .inl h, List.Subset.refl _⟩

theorem MirrorsAsked.trans {r : Ring} {k l : List (BitVec 4)} {s t u : State} (hst : MirrorsAsked r k s t)
    (htu : MirrorsAsked r l t u) : MirrorsAsked r (k ++ l) s u where
  toRingWork := hst.toRingWork.trans htu.toRingWork
  rx := htu.rx.trans hst.rx
  bad := htu.bad.trans hst.bad
  rejoin := htu.rejoin.trans hst.rejoin
  kept := List.Subset.trans hst.kept htu.kept
  mail := List.Subset.trans hst.mail htu.mail
  asked m hm := by
    rcases htu.asked m hm with h | h
    · exact (hst.asked m h).imp_right (List.mem_append_left l)
    · exact .inr (List.mem_append_right k h)

theorem startRemap_asks (s : State) (r : Ring) (lane : BitVec 4) (tried : BitVec 2) :
    MirrorsAsked r [lane] s (s.startRemap r lane tried) := by
  unfold State.startRemap
  extract_lets x
  split
  · exact ⟨setRing_ringWork s r _, by simp [x], by simp [x], by simp [x], by simp [x],
      fun m hm => by simp [x] at hm; rcases hm with h | rfl <;> simp [*], by simp [x]⟩
  · split
    · exact .refl r _ s
    · exact ⟨(setRing_ringWork s r _).trans (raise_ringWork _ r _ _), by simp [x], by simp [x], by simp [x], by simp [x],
        fun m hm => .inl (by simpa [x] using hm), by simp [x]⟩

theorem startRemaps_asks (r : Ring) (lanes : List (BitVec 4)) (s : State) :
    MirrorsAsked r lanes s (forEach (fun l (t : State) => t.startRemap r l 0) lanes s) := by
  induction lanes generalizing s with
  | nil => exact .refl r [] s
  | cons l ls ih => exact (startRemap_asks s r l 0).trans (ih (s.startRemap r l 0))

theorem askMirrors_asks (s : State) (r : Ring) : MirrorsAsked r (s.ring r).wanted s (s.askMirrors r) := by
  unfold State.askMirrors
  split
  · exact startRemaps_asks r _ s
  · exact .refl r _ s

theorem askMirrors_of_unjoined {s : State} {r : Ring} (h : (s.ring r).joined = false) : s.askMirrors r = s := by
  simp [State.askMirrors, h]

/-! ### A repair is complete (14 R355, R372) -/

/-- The record pair of a repair counts in the map and waits for its write; REP_EVENTS reports a full map. -/
theorem repairPair_counts (s : State) : ∃ n l v, s.repairPair = { s with
    rep := { s.rep with map := n }, bel := { s.bel with recq := l }, evs := v } ∧
      ∀ r, s.repairPair.ev (.lnk r) = s.ev (.lnk r) := by
  unfold State.repairPair
  split
  · extract_lets n rep t
    obtain ⟨l, hl, -, -⟩ := queueRec_changes { s with rep := { s.rep with map := n + 1 } } (.repairPair (BitVec.ofNat 7 n))
    have ht : t = { s with rep := { s.rep with map := n + 1 }, bel := { s.bel with recq := l } } := hl
    rw [ht]
    split
    · exact ⟨_, _, _, rfl, fun r => ev_raise_other _ 0x20 (lnk_ix_ne_rep r)⟩
    · exact ⟨_, _, _, rfl, fun _ => rfl⟩
  · exact ⟨_, _, _, rfl, fun _ => rfl⟩

@[simp] theorem repairEvent_ring (s : State) (done : Bool) (f : FaultRec) (r : Ring) :
    (s.repairEvent done f).ring r = s.ring r := by
  simp [State.repairEvent]

theorem repairEvent_lnk (s : State) (done : Bool) (f : FaultRec) (r : Ring) :
    (s.repairEvent done f).ev (.lnk r) = s.ev (.lnk r) := by
  unfold State.repairEvent
  rw [tally_ev _ _ _ _ (lnk_ix_ne_tal r), notifyKit_ev, ev_raise_other _ _ (lnk_ix_ne_rep r)]

theorem repairEvent_stores (s : State) (done : Bool) (f : FaultRec) : SameStores s (s.repairEvent done f) :=
  sameStores_of_eq (by simp [State.repairEvent]) (by simp [State.repairEvent]) (by simp [State.repairEvent])

/-- A completed repair is recorded; the rings, their events and the byte stores stay as they are. -/
theorem repairDone_records (s : State) (f : FaultRec) : (s.repairDone f).rep.recs = s.rep.recs ++ [f] ∧
    (∀ r, (s.repairDone f).ring r = s.ring r) ∧ (∀ r, (s.repairDone f).ev (.lnk r) = s.ev (.lnk r)) ∧
    SameStores s (s.repairDone f) := by
  unfold State.repairDone
  extract_lets _ rep
  obtain ⟨n, l, v, hpair, hev⟩ := repairPair_counts { s with rep := rep }
  refine ⟨?_, fun r => ?_, fun r => ?_, sameStores_trans ?_ (repairEvent_stores _ _ _)⟩
  · simp [State.repairEvent, hpair, rep]
  · rw [repairEvent_ring, hpair]
    cases r <;> rfl
  · rw [repairEvent_lnk, hev]
    rfl
  · rw [hpair]
    exact sameStores_of_eq rfl rfl rfl

/-! ### LANE_REMAP_SWITCH (R96, R97) -/

/-- A receiver that has switched a lane onto the spare compared with it. -/
def RingSt.onSpare (x : RingSt) (m : LaneRun) : RingSt :=
  { x.endRemap m.lane with
    rx := setSpare x.rx m.spare ⟨some m.lane, true⟩, badKept := x.badKept ||| laneMask m.lane }

theorem endRemap_remaps {x : RingSt} {m : LaneRun} (h : x.remaps = [m]) : (x.endRemap m.lane).remaps = [] := by
  simp [RingSt.endRemap, RingSt.dropLane, h]

theorem remapSwitch_passed {s : State} {r : Ring} {m : LaneRun} (hrun : (s.ring r).remaps = [m])
    (hbar : 1024 ≤ elapsed m.since s.bar.beatno) : s.remapSwitch r m.lane true =
    (((s.setRing r ((s.ring r).onSpare m)).raise (.lnk r) 0x02).repairDone (laneRec r m.lane)).askMirrors r := by
  simp [State.remapSwitch, hrun, Nat.not_lt.mpr hbar, RingSt.onSpare, RingSt.endRemap, RingSt.dropLane]

/-- Where the comparison with S0 fails, S1 alone is left to be tried. -/
theorem remapSwitch_first_failed {s : State} {r : Ring} {lane : BitVec 4} {since : Nat}
    (hrun : (s.ring r).remaps = [⟨lane, false, since, 0⟩]) (hbar : 1024 ≤ elapsed since s.bar.beatno) :
    s.remapSwitch r lane false =
      ((s.setRing r ((s.ring r).endRemap lane)).startRemap r lane 1).askMirrors r := by
  simp [State.remapSwitch, hrun, Nat.not_lt.mpr hbar]

theorem remapSwitch_early {s : State} {r : Ring} {lane : BitVec 4} (passed : Bool)
    (h : ∀ m, (s.ring r).remaps.find? (fun m => m.lane == lane) = some m → elapsed m.since s.bar.beatno < 1024) :
    s.remapSwitch r lane passed = s := by
  unfold State.remapSwitch
  extract_lets x
  split
  · rfl
  · next m hm => simp [h m hm]

/-- With S0 tried and S1 free, the lane is compared with S1. -/
theorem startRemap_second {s : State} {r : Ring} (lane : BitVec 4) (hrun : (s.ring r).remaps = [])
    (hfree : ((s.ring r).rx[1]).active = false) (hloop : (s.ring r).loopBad.getLsbD 17 = false) :
    ⟨lane, true, s.bar.beatno, 1⟩ ∈ ((s.startRemap r lane 1).ring r).remaps := by
  have hspare : (s.ring r).freeSpare 1#2 = some true := by
    simpa [RingSt.freeSpare, spareOf, hrun, hfree, b2n] using hloop
  simp [State.startRemap, hspare]

/-! ### LANE_REJOIN_SWITCH (R370) -/

/-- A receiver whose lane has left its spare S0: the mirror's stop is asked for. -/
def RingSt.rejoined (x : RingSt) (lane : BitVec 4) (now : Nat) : RingSt :=
  { x with
    rx := x.rx.set 0 Spare.none_, rejoin := none, bad := x.bad &&& ~~~ laneMask lane,
    badKept := x.badKept &&& ~~~ laneMask lane, mail := x.mail ++ [(.lane lane false false, now)],
    mailOut := x.mailOut ++ [.lane lane false false] }

theorem spareFor_first {x : RingSt} {lane : BitVec 4} (h : x.rx[0] = ⟨some lane, true⟩) :
    x.spareFor lane = some false := by
  simp [RingSt.spareFor, spareOf, h]

theorem rejoinSwitch_due {s : State} {r : Ring} {lane : BitVec 4} {b : Nat} (hrejoin : (s.ring r).rejoin = some (lane, b))
    (hdown : s.atDownbeat = true) (hbar : barReached ((b + s.rep.lanev) % 2 ^ 38) (s.bar.beatno / 1024) = true)
    (hrx : (s.ring r).rx[0] = ⟨some lane, true⟩) : s.rejoinSwitch r =
      ((s.setRing r ((s.ring r).rejoined lane s.bar.beatno)).repairDone (laneRec r lane)).askMirrors r := by
  have hno : s.barNo = s.bar.beatno / 1024 := rfl
  unfold State.rejoinSwitch
  simp [-Nat.reducePow, hrejoin, hno, hdown, hbar, spareFor_first hrx, setSpare, RingSt.rejoined]

theorem rejoinSwitch_early {s : State} {r : Ring} {lane : BitVec 4} {b : Nat}
    (hrejoin : (s.ring r).rejoin = some (lane, b)) (h : s.atDownbeat = false ∨
      barReached ((b + s.rep.lanev) % 2 ^ 38) (s.bar.beatno / 1024) = false) : s.rejoinSwitch r = s := by
  have hno : s.barNo = s.bar.beatno / 1024 := rfl
  unfold State.rejoinSwitch
  rcases h with h | h <;> simp [-Nat.reducePow, hrejoin, hno, h]

/-! ### LANE_REQUEST and MAILBOX_RESEND (R96, R125) -/

theorem laneAsked_open {s : State} {r : Ring} (lane : BitVec 4) (spare start : Bool) (h : (s.ring r).swOpen = true) :
    s.laneAsked r lane spare start = s.setRing r { s.ring r with
      tx := setSpare (s.ring r).tx spare (if start then ⟨some lane, true⟩ else Spare.none_) } := by
  simp [State.laneAsked, h]

/-! ### The statement -/

/-- Settles O44: the switch of a lane by `remapSwitch_passed` and `remapSwitch_first_failed`, its return by
`rejoinSwitch_due`. The mirrors that are asked for at their end only add to what is compared and sent, and never for a lane
with a spare in use (`askMirrors_asks`, `not_wanted_of_mapped`). That the stop of a mirror counts as taken once it has left
is the model's deduction (log 114). -/
theorem lanesAreReplaced : Obligations.LanesAreReplaced := by
  unfold Obligations.LanesAreReplaced
  intro s r lane x
  refine ⟨?passed, ?failed, fun p h => congrArg Host.Outcome.next (remapSwitch_early p h), ?rejoins,
    fun b hrejoin h => congrArg Host.Outcome.next (rejoinSwitch_early hrejoin h),
    fun hopen => ⟨congrArg Host.Outcome.next (laneAsked_open lane false true hopen),
      congrArg Host.Outcome.next (laneAsked_open lane true false hopen)⟩, ?resend⟩
  case passed =>
    rintro m hrun rfl hbar
    refine ⟨_, congrArg Host.Outcome.next (remapSwitch_passed hrun hbar), ?_⟩
    have hwork : RingWork r s ((s.setRing r (x.onSpare m)).raise (.lnk r) 0x02) :=
      (setRing_ringWork s r _).trans (raise_ringWork _ r _ _)
    obtain ⟨hrecs, hring, hlnk, hstores⟩ :=
      repairDone_records ((s.setRing r (x.onSpare m)).raise (.lnk r) 0x02) (laneRec r m.lane)
    set t := ((s.setRing r (x.onSpare m)).raise (.lnk r) 0x02).repairDone (laneRec r m.lane)
    have ht : t.ring r = x.onSpare m := by rw [hring, raise_ring, ring_setRing]
    have hspare : spareOf (t.ring r).rx m.spare = ⟨some m.lane, true⟩ := by
      rw [ht]
      exact spareOf_setSpare_same _ _ _
    have hasks := askMirrors_asks t r
    refine ⟨by rw [hasks.rx, hspare], ?other, ?compared, hasks.events _ _ ?event, ?recorded,
      sameStores_trans (sameStores_trans hwork.stores hstores) hasks.stores⟩
    case other =>
      rw [hasks.rx, ht]
      exact spareOf_setSpare_other _ _ _
    case compared =>
      intro y hy hlane
      rcases hasks.asked y hy with h | h
      · rw [ht] at h
        simp [RingSt.onSpare, endRemap_remaps hrun] at h
      · exact not_wanted_of_mapped (mapped_of_spare hspare) (hlane ▸ h)
    case event =>
      rw [hlnk, ev_raise_same]
      simp
    case recorded => rw [hasks.rep, hrecs, hwork.rep]
  case failed =>
    rintro ⟨lane, _, since, _⟩ hrun rfl rfl rfl hbar hfree hloop
    refine ⟨_, congrArg Host.Outcome.next (remapSwitch_first_failed hrun hbar), ?_⟩
    have hset := setRing_ringWork s r (x.endRemap lane)
    have hstart := startRemap_asks (s.setRing r (x.endRemap lane)) r lane 1
    have hasks := askMirrors_asks ((s.setRing r (x.endRemap lane)).startRemap r lane 1) r
    refine ⟨hasks.kept ?_, ?_, sameStores_trans hset.stores (sameStores_trans hstart.stores hasks.stores)⟩
    · have hsecond := startRemap_second (s := s.setRing r (x.endRemap lane)) (r := r) lane
      rw [ring_setRing, setRing_bar] at hsecond
      exact hsecond (endRemap_remaps hrun) hfree hloop
    · rw [hasks.rx, hstart.rx, ring_setRing]
      rfl
  case rejoins =>
    intro b hrejoin hdown hbar hrx
    refine ⟨_, congrArg Host.Outcome.next (rejoinSwitch_due hrejoin hdown hbar hrx), ?_⟩
    have hset := setRing_ringWork s r (x.rejoined lane s.bar.beatno)
    obtain ⟨hrecs, hring, -, hstores⟩ :=
      repairDone_records (s.setRing r (x.rejoined lane s.bar.beatno)) (laneRec r lane)
    set t := (s.setRing r (x.rejoined lane s.bar.beatno)).repairDone (laneRec r lane)
    have ht : t.ring r = x.rejoined lane s.bar.beatno := by rw [hring, ring_setRing]
    have hasks := askMirrors_asks t r
    refine ⟨?_, ?_, ?_, hasks.mail ?_, by rw [hasks.rep, hrecs, hset.rep],
      sameStores_trans (sameStores_trans hset.stores hstores) hasks.stores⟩
    · simp [hasks.rx, ht, RingSt.rejoined]
    · rw [hasks.rejoin, ht]; rfl
    · rw [hasks.bad, ht]
      exact laneMask_cleared _ _
    · rw [ht]
      simp [RingSt.rejoined]
  case resend =>
    intro left
    refine congrArg Host.Outcome.next ?_
    simp [State.mailAgain, updWhere, left, x]

end Sys2Proof.Machine

/-! PROOFS. Ring control: training (04 R92), Join and Leave Windows (R101 to R106), closures (R105, R107, R108) and rate
changes (R94). -/

namespace Sys2Proof.Machine

/-! ### Lanes found bad (04 R95) -/

theorem laneBad_ringWork (s : State) (r : Ring) (lane : BitVec 4) : RingWork r s (s.laneBad r lane) := by
  unfold State.laneBad
  extract_lets x t
  have hset : RingWork r s t := setRing_ringWork s r _
  split
  · exact .refl r s
  · split
    · exact (hset.trans (raise_ringWork t r _ _)).trans (askMirrors_asks _ r).toRingWork
    · exact hset.trans (askMirrors_asks t r).toRingWork

theorem lanesBad_ringWork (s : State) (r : Ring) (m : BitVec 16) : RingWork r s (s.lanesBad r m) :=
  forEach_ringWork (fun l t => laneBad_ringWork t r l) (laneList m) s

@[simp] theorem lanesBad_bar (s : State) (r : Ring) (m : BitVec 16) : (s.lanesBad r m).bar = s.bar :=
  (lanesBad_ringWork s r m).bar

theorem or_laneMask_of_bad {b : BitVec 16} {l : BitVec 4} (h : b.getLsbD l.toNat = true) : b ||| laneMask l = b := by
  refine BitVec.eq_of_getLsbD_eq fun i hi => ?_
  rw [BitVec.getLsbD_or, laneMask_bit l i hi]
  by_cases hl : l.toNat = i
  · simp [← hl, h]
  · simp [hl]

theorem laneBad_of_unjoined {s : State} {r : Ring} (lane : BitVec 4) (h : (s.ring r).joined = false) :
    (s.laneBad r lane).ring r = { s.ring r with bad := (s.ring r).bad ||| laneMask lane } := by
  have hask (t : State) (ht : (t.ring r).joined = false) : (t.askMirrors r).ring r = t.ring r := by
    rw [askMirrors_of_unjoined ht]
  unfold State.laneBad
  extract_lets x t
  have ht : t.ring r = { s.ring r with bad := (s.ring r).bad ||| laneMask lane } := ring_setRing s r _
  split
  · next hbad => rw [or_laneMask_of_bad hbad]
  · split
    · rw [hask _ (by rw [raise_ring, ht]; exact h), raise_ring, ht]
    · rw [hask _ (by rw [ht]; exact h), ht]

/-- The lanes of a list added to a mask. -/
def lanesOr (b : BitVec 16) (ls : List (BitVec 4)) : BitVec 16 := ls.foldl (fun b l => b ||| laneMask l) b

theorem lanesOr_bit (b : BitVec 16) (ls : List (BitVec 4)) (i : Nat) (h : i < 16) :
    (lanesOr b ls).getLsbD i = (b.getLsbD i || ls.any fun l => l.toNat = i) := by
  induction ls generalizing b with
  | nil => simp [lanesOr]
  | cons l ls ih =>
    have hcons : lanesOr b (l :: ls) = lanesOr (b ||| laneMask l) ls := rfl
    rw [hcons, ih, BitVec.getLsbD_or, laneMask_bit l i h, List.any_cons, Bool.or_assoc]

theorem laneList_any (m : BitVec 16) (i : Nat) (h : i < 16) :
    ((laneList m).any fun l => l.toNat = i) = m.getLsbD i := by
  rw [Bool.eq_iff_iff, List.any_eq_true]
  constructor
  · rintro ⟨l, hl, hi⟩
    obtain ⟨j, hj, rfl⟩ := List.mem_map.mp hl
    obtain ⟨hj, hbit⟩ := List.mem_filter.mp hj
    have hlt : j < 16 := List.mem_range.mp hj
    have hji : j = i := by simpa [Nat.mod_eq_of_lt hlt] using hi
    rw [← hji, hbit]
  · intro hbit
    refine ⟨BitVec.ofNat 4 i, List.mem_map.mpr ⟨i, List.mem_filter.mpr ⟨List.mem_range.mpr h, hbit⟩, rfl⟩, ?_⟩
    simp [Nat.mod_eq_of_lt h]

theorem lanesOr_laneList (b m : BitVec 16) : lanesOr b (laneList m) = b ||| m := by
  refine BitVec.eq_of_getLsbD_eq fun i hi => ?_
  rw [lanesOr_bit b _ i hi, laneList_any m i hi, BitVec.getLsbD_or]

/-- On a ring that is not joined no mirror is asked for: lanes found bad are marked, and nothing else of the ring. -/
theorem lanesBad_of_unjoined {s : State} {r : Ring} (m : BitVec 16) (h : (s.ring r).joined = false) :
    (s.lanesBad r m).ring r = { s.ring r with bad := (s.ring r).bad ||| m } := by
  have hall (ls : List (BitVec 4)) (t : State) (ht : (t.ring r).joined = false) :
      (forEach (fun l (t : State) => t.laneBad r l) ls t).ring r =
        { t.ring r with bad := lanesOr (t.ring r).bad ls } := by
    induction ls generalizing t with
    | nil => rfl
    | cons l ls ih =>
      have hl := laneBad_of_unjoined l ht
      rw [forEach, ih _ (by rw [hl]; exact ht), hl]
      rfl
  rw [State.lanesBad, hall _ s h, lanesOr_laneList]

theorem lanesBad_none (s : State) (r : Ring) : s.lanesBad r 0 = s := by
  have hnone : laneList 0 = [] := by decide
  rw [State.lanesBad, hnone]
  rfl

/-! ### TRAINING_COMPLETE (R92) -/

/-- A ring that has trained at a rate. -/
def RingSt.trainedAt (x : RingSt) (rate us : Nat) : RingSt :=
  { x with trained := true, trainUs := BitVec.ofNat 16 us, rate := rate, slots := true }

theorem mayTrain_join {s : State} {r : Ring} (hmode : s.mode = .join) (hcomp : s.completing = false)
    (hopen : (s.ring r).swOpen = false) (htrained : (s.ring r).trained = false) : s.mayTrain r = true := by
  simp [State.mayTrain, hmode, hcomp, hopen, htrained]

theorem not_mayTrain {s : State} {r : Ring}
    (h : (s.ring r).trained = true ∨ s.completing = true ∨ s.mode.onRing = false) : s.mayTrain r = false := by
  rcases h with h | h | h
  · simp [State.mayTrain, h]
  · simp [State.mayTrain, h]
  · cases hm : s.mode <;> simp_all [State.mayTrain, Mode.onRing]

theorem trainedOn_idle {s : State} {r : Ring} (rate us : Nat) (bad : BitVec 16) (h : s.mayTrain r = false) :
    s.trainedOn r rate us bad = s := by
  simp [State.trainedOn, h]

theorem trainedOn_join {s : State} {r : Ring} (rate us : Nat) (bad : BitVec 16) (h : s.mayTrain r = true) :
    s.trainedOn r rate us bad = { (s.setRing r ((s.ring r).trainedAt rate us)).lanesBad r bad with
      bar := { s.bar with rate := if r = .a then rate else s.bar.rate } } := by
  have hbar : ((s.setRing r ((s.ring r).trainedAt rate us)).lanesBad r bad).bar = s.bar := by simp
  unfold State.trainedOn
  cases r with
  | a => simp [h, RingSt.trainedAt]
  | b =>
    simp only [h, reduceCtorEq, if_false]
    rw [← hbar]
    rfl

/-- In Join a ring trains: its rate, Ring A's as the joined one, and the lanes found bad. -/
theorem trainedOn_trains {s : State} {r : Ring} (rate us : Nat) (bad : BitVec 16) (h : s.mayTrain r = true)
    (hjoined : (s.ring r).joined = false) :
    let t := s.trainedOn r rate us bad
    t.ring r = { (s.ring r).trainedAt rate us with bad := (s.ring r).bad ||| bad } ∧
    (∀ o, o ≠ r → t.ring o = s.ring o) ∧
    t.bar = { s.bar with rate := if r = .a then rate else s.bar.rate } ∧ (bad = 0 → t.evs = s.evs) ∧ t.mode = s.mode ∧
    SameStores s t := by
  have hlanes := lanesBad_of_unjoined (s := s.setRing r ((s.ring r).trainedAt rate us)) bad
    (by rw [ring_setRing]; exact hjoined)
  have hwork := (setRing_ringWork s r ((s.ring r).trainedAt rate us)).trans (lanesBad_ringWork _ r bad)
  rw [ring_setRing] at hlanes
  rw [trainedOn_join rate us bad h]
  refine ⟨?_, fun o ho => ?_, rfl, ?_, hwork.mode, hwork.stores⟩
  · cases r <;> exact hlanes
  · cases o <;> exact hwork.others _ ho
  · rintro rfl
    rw [lanesBad_none]
    exact setRing_evs _ _ _

theorem exec_trainingComplete {r : Ring} {rate : BitVec 3} (s : State) (us bad : BitVec 16) (hrate : rate.toNat ≤ 4) :
    exec (.trainingComplete r rate us bad) s = .next (s.trainedOn r rate.toNat us.toNat bad) :=
  if_pos (decide_eq_true hrate)

/-! ### Ring time beside the rings (02 R45) -/

@[simp] theorem bMoves_ring (s : State) (r : Ring) : s.bMoves.ring r = s.ring r := by cases r <;> rfl

theorem bMoves_stores (s : State) : SameStores s s.bMoves := sameStores_of_eq rfl rfl rfl

/-! ### Windows (R102 to R106) -/

theorem windowOk_iff (w : BitVec 10) : windowOk w = true ↔ 1 ≤ w.toNat ∧ w.toNat ≤ 1021 := by simp [windowOk]

theorem windowOk_eq_false {w : BitVec 10} (h : w.toNat = 0 ∨ 1021 < w.toNat) : windowOk w = false := by
  rw [← Bool.not_eq_true, windowOk_iff]
  omega

/-- A window's message counts, at a device that is not the beat source: its place lies in the Bar. -/
def State.TakesWindow (s : State) (w : BitVec 10) : Prop :=
  s.mode.onRing = true ∧ s.completing = false ∧ 1 ≤ w.toNat ∧ w.toNat ≤ 1021 ∧ s.bar.beatsrc = false

theorem takesWindow_ok {s : State} {w : BitVec 10} (h : s.TakesWindow w) : windowOk w = true := by
  obtain ⟨-, -, hlow, hhigh, -⟩ := h
  exact (windowOk_iff w).mpr ⟨hlow, hhigh⟩

theorem takesWindow_not_announced {s : State} {w : BitVec 10} (r : Ring) (mbar : BitVec 32) (h : s.TakesWindow w) :
    s.onlyAnnounced r w mbar = false := by
  obtain ⟨-, -, -, -, hsrc⟩ := h
  simp [State.onlyAnnounced, hsrc]

/-- An open ring after a window has passed on it. -/
def RingSt.windowed (x : RingSt) (hop inHop : Option (BitVec 4)) (opening step : Bool) : RingSt :=
  { (if step then x.newUpstream else x).measured hop inHop with window := some (16, opening) }

theorem windowed_swOpen {x : RingSt} {hop inHop : Option (BitVec 4)} {opening step : Bool} (h : x.swOpen = true) :
    (x.windowed hop inHop opening step).swOpen = true := by
  cases step <;> exact h

/-- A receiver next to the change discards its maps; the mirrors of the Out side stay (R98). -/
theorem windowed_step (x : RingSt) (hop inHop : Option (BitVec 4)) (opening : Bool) :
    (x.windowed hop inHop opening true).rx = Vector.replicate 2 Spare.none_ ∧
    (x.windowed hop inHop opening true).remaps = [] ∧ (x.windowed hop inHop opening true).tx = x.tx :=
  ⟨rfl, rfl, rfl⟩

/-- A window that passes on an open ring changes that ring, what is known of Ring B's offset, and NORETRY. -/
theorem windowOver_open {s : State} {r : Ring} (hop inHop : Option (BitVec 4)) (opening step : Bool)
    (h : (s.ring r).swOpen = true) :
    (s.windowOver r hop inHop opening step).ring r = (s.ring r).windowed hop inHop opening step ∧
    (∀ o, o ≠ r → (s.windowOver r hop inHop opening step).ring o = s.ring o) ∧
    (s.windowOver r hop inHop opening step).bar = { s.bar with bvalid := false } ∧
    (slowHop inHop = true → ((s.windowOver r hop inHop opening step).ev .sw).bits.getLsbD 2 = true) ∧
    SameStores s (s.windowOver r hop inHop opening step) := by
  have heq : s.windowOver r hop inHop opening step =
      if slowHop inHop then (s.bMoves.setRing r ((s.ring r).windowed hop inHop opening step)).raise .sw 0x04
      else s.bMoves.setRing r ((s.ring r).windowed hop inHop opening step) := by
    simp [State.windowOver, h, RingSt.windowed]
  have hset := setRing_ringWork s.bMoves r ((s.ring r).windowed hop inHop opening step)
  have hraised := hset.trans (raise_ringWork _ r .sw 0x04)
  rw [heq]
  split
  · exact ⟨by simp, fun o ho => (hraised.others o ho).trans (bMoves_ring s o), hraised.bar,
      fun _ => by simp [ev_raise_same], sameStores_trans (bMoves_stores s) hraised.stores⟩
  · next hslow => exact ⟨by simp, fun o ho => (hset.others o ho).trans (bMoves_ring s o), hset.bar,
      fun hs => absurd hs hslow, sameStores_trans (bMoves_stores s) hset.stores⟩

/-! ### JOINWIN (R101, R103) -/

theorem joinWindow_ignored {s : State} {r : Ring} {w : BitVec 10} {mbar : BitVec 32} (hop inHop : Option (BitVec 4))
    (step : Bool) (h : windowOk w = false ∨ (s.ring r).joinSeen = some (w, mbar)) :
    s.joinWindow r w mbar hop inHop step = s := by
  rcases h with h | h <;> simp [State.joinWindow, h]

theorem joinWindow_announced {s : State} {r : Ring} {w : BitVec 10} {mbar : BitVec 32} (hop inHop : Option (BitVec 4))
    (step : Bool) (hring : s.mode.onRing = true) (hcomp : s.completing = false) (hw : windowOk w = true)
    (hsrc : s.bar.beatsrc = true) (hrate : s.bar.rateNext = none) (hnew : (s.ring r).joinSeen ≠ some (w, mbar))
    (hdriven : (s.ring r).mwin ≠ some (w, mbar)) : s.joinWindow r w mbar hop inHop step =
      s.setRing r { s.ring r with mwin := some (w, mbar), msg := some (windowMsg true 0x1F w mbar) } := by
  have honly : s.onlyAnnounced r w mbar = true := by simp [State.onlyAnnounced, hsrc, hdriven]
  have hset : s.announceWindow r true 0x1F w mbar =
      s.setRing r { s.ring r with mwin := some (w, mbar), msg := some (windowMsg true 0x1F w mbar) } := by
    cases r <;> simp [State.announceWindow, State.say, hrate, State.setRing, State.ring]
  rw [← hset]
  exact (if_neg (by simp [hring, hcomp, hw, hnew])).trans (if_pos honly)

/-- A ring that has taken a Join Window's message. -/
def RingSt.sawJoin (x : RingSt) (w : BitVec 10) (mbar : BitVec 32) : RingSt := { x with joinSeen := some (w, mbar) }

section
variable {s : State} {r : Ring} {w : BitVec 10} {mbar : BitVec 32} (hop inHop : Option (BitVec 4))
  (htakes : s.TakesWindow w) (hnew : (s.ring r).joinSeen ≠ some (w, mbar))
include htakes hnew

theorem joinWindow_taken (step : Bool) : s.joinWindow r w mbar hop inHop step =
    let t := s.setRing r ((s.ring r).sawJoin w mbar)
    if t.opens r then (t.setRing r (t.ring r).open_).windowOver r hop inHop true false
    else t.windowOver r hop inHop false step := by
  have hw := takesWindow_ok htakes
  have honly := takesWindow_not_announced r mbar htakes
  obtain ⟨hring, hcomp, -⟩ := htakes
  exact (if_neg (by simp [hring, hcomp, hw, hnew])).trans (if_neg (by simp [honly]))

/-- A trained ring of a device in Join opens: spare maps afresh, blank slots in the pipeline, the hops as measured. -/
theorem joinWindow_opens (step : Bool) (hmode : s.mode = .join) (htrained : (s.ring r).trained = true)
    (hclosed : (s.ring r).swOpen = false) (hclock : (s.ring r).clockBad = false) (hvstby : s.pins.vstby = true) :
    let t := s.joinWindow r w mbar hop inHop step
    t.ring r = (((s.ring r).sawJoin w mbar).open_).windowed hop inHop true false ∧ (∀ o, o ≠ r → t.ring o = s.ring o) ∧
    t.bar = { s.bar with bvalid := false } ∧ (slowHop inHop = true → (t.ev .sw).bits.getLsbD 2 = true) ∧
    SameStores s t := by
  have hopens : (s.setRing r ((s.ring r).sawJoin w mbar)).opens r = true := by
    simp [State.opens, RingSt.sawJoin, htrained, hclosed, hclock, hvstby, hmode]
  have hset := (setRing_ringWork s r ((s.ring r).sawJoin w mbar)).trans
    (setRing_ringWork _ r ((s.ring r).sawJoin w mbar).open_)
  obtain ⟨hx, hothers, hbar, hslow, hstores⟩ := windowOver_open (r := r)
    (s := (s.setRing r ((s.ring r).sawJoin w mbar)).setRing r ((s.ring r).sawJoin w mbar).open_) hop inHop true false
    (by rw [ring_setRing]; rfl)
  rw [ring_setRing] at hx
  rw [hset.bar] at hbar
  rw [joinWindow_taken hop inHop htakes hnew step]
  dsimp only
  rw [if_pos hopens, ring_setRing]
  exact ⟨hx, fun o ho => (hothers o ho).trans (hset.others o ho), hbar, hslow, sameStores_trans hset.stores hstores⟩

/-- A window on an open ring whose neighbour it concerns: the receiver discards its maps. -/
theorem joinWindow_passes (step : Bool) (hopen : (s.ring r).swOpen = true) :
    let t := s.joinWindow r w mbar hop inHop step
    t.ring r = ((s.ring r).sawJoin w mbar).windowed hop inHop false step ∧ t.bar = { s.bar with bvalid := false } ∧
    SameStores s t := by
  have hopens : (s.setRing r ((s.ring r).sawJoin w mbar)).opens r = false := by
    simp [State.opens, RingSt.sawJoin, hopen]
  have hset := setRing_ringWork s r ((s.ring r).sawJoin w mbar)
  obtain ⟨hx, -, hbar, -, hstores⟩ := windowOver_open (r := r) (s := s.setRing r ((s.ring r).sawJoin w mbar)) hop inHop
    false step (by rw [ring_setRing]; exact hopen)
  rw [ring_setRing] at hx
  rw [hset.bar] at hbar
  rw [joinWindow_taken hop inHop htakes hnew step]
  dsimp only
  rw [if_neg (by rw [hopens]; decide)]
  exact ⟨hx, hbar, sameStores_trans hset.stores hstores⟩

end

/-! ### LEAVEWIN (R103, R104) -/

theorem leaveWindow_ignored {s : State} {r : Ring} {w : BitVec 10} {mbar : BitVec 32} (node : Node)
    (hop inHop : Option (BitVec 4)) (comp : CompOut)
    (h : windowOk w = false ∨ (s.ring r).leaveSeen = some (w, mbar)) :
    s.leaveWindow r node w mbar hop inHop comp = s := by
  rcases h with h | h <;> simp [State.leaveWindow, h]

/-- A ring that has taken a Leave Window's message. -/
def RingSt.sawLeave (x : RingSt) (w : BitVec 10) (mbar : BitVec 32) : RingSt := { x with leaveSeen := some (w, mbar) }

/-- The device has taken the message of a Leave Window above it on Ring A. -/
def State.sawAbove (s : State) (w : BitVec 10) (mbar : BitVec 32) : State :=
  { s.setRing .a ((s.ring .a).sawLeave w mbar) with bar := { s.bar with shortAt := s.bar.windowEnd w mbar } }

theorem sawAbove_stores (s : State) (w : BitVec 10) (mbar : BitVec 32) : SameStores s (s.sawAbove w mbar) :=
  sameStores_of_eq rfl rfl rfl

@[simp] theorem setRing_merges (s : State) (r : Ring) (x : RingSt) : (s.setRing r x).merges = s.merges := by
  cases r <;> rfl

theorem above_first {x : RingSt} {n : Node} (hid : x.hasId = true) (hn : n ≠ x.nodeId)
    (hroster : x.rosterIds = [n, x.nodeId]) : x.above n = true := by
  simp [RingSt.above, hid, hroster, hn]

section
variable {s : State} {r : Ring} {w : BitVec 10} {mbar : BitVec 32} (hop inHop : Option (BitVec 4)) (comp : CompOut)
  (htakes : s.TakesWindow w) (hnew : (s.ring r).leaveSeen ≠ some (w, mbar)) (hopen : (s.ring r).swOpen = true)
include htakes hnew hopen

/-- The device's own Leave Window closes its switch, without an event. -/
theorem leaveWindow_own (hid : (s.ring r).hasId = true) (hhold : s.hold = []) (hmerges : s.merges = []) :
    let t := s.leaveWindow r (s.ring r).nodeId w mbar hop inHop comp
    t.ring r = ((s.ring r).sawLeave w mbar).shut ∧ (∀ o, o ≠ r → t.ring o = s.ring o) ∧ t.evs = s.evs ∧
    t.bar = { s.bar with bvalid := false } ∧ SameStores s t := by
  have hw := takesWindow_ok htakes
  have honly := takesWindow_not_announced r mbar htakes
  obtain ⟨hring, hcomp, -⟩ := htakes
  have hset := (setRing_ringWork s r ((s.ring r).sawLeave w mbar)).trans
    (setRing_ringWork _ r ((s.ring r).sawLeave w mbar).shut)
  have heq : s.leaveWindow r (s.ring r).nodeId w mbar hop inHop comp =
      ((s.setRing r ((s.ring r).sawLeave w mbar)).setRing r ((s.ring r).sawLeave w mbar).shut).bMoves := by
    simp [State.leaveWindow, State.leaves, State.closeRing, hring, hcomp, hw, hnew, honly, hopen, hid, hhold, hmerges,
      RingSt.sawLeave]
  rw [heq]
  refine ⟨by simp, fun o ho => (bMoves_ring _ o).trans (hset.others o ho), ?_, ?_,
    sameStores_trans hset.stores (bMoves_stores _)⟩
  · simp [State.bMoves]
  · simp [State.bMoves]

/-- A window of a node above on Ring A shortens the Beat after W of the Bar that it names. -/
theorem leaveWindow_above {n : Node} (hr : r = .a) (hn : n ≠ (s.ring r).nodeId) (habove : (s.ring r).above n = true) :
    let t := s.leaveWindow r n w mbar hop inHop comp
    (t.ring r).swOpen = true ∧ t.bar = { s.bar with shortAt := s.bar.windowEnd w mbar, bvalid := false } ∧
    SameStores s t := by
  have hw := takesWindow_ok htakes
  have honly := takesWindow_not_announced r mbar htakes
  obtain ⟨hring, hcomp, -⟩ := htakes
  subst hr
  have heq : s.leaveWindow .a n w mbar hop inHop comp =
      (s.sawAbove w mbar).windowOver .a hop inHop false ((s.ring .a).upstream == n) := by
    simp [State.leaveWindow, State.sawAbove, hring, hcomp, hw, hnew, honly, hn.symm, habove, RingSt.sawLeave]
  have hseen : ((s.sawAbove w mbar).ring .a).swOpen = true := hopen
  obtain ⟨hx, -, hbar, -, hstores⟩ := windowOver_open hop inHop false ((s.ring .a).upstream == n) hseen
  rw [heq]
  refine ⟨?_, hbar, sameStores_trans (sawAbove_stores s w mbar) hstores⟩
  rw [hx]
  exact windowed_swOpen hseen

end

/-! ### Closures (R105, R107) -/

theorem closeRing_open {s : State} {r : Ring} (unplanned : Bool) (h : (s.ring r).swOpen = true) :
    s.closeRing r unplanned = if unplanned then ((s.setRing r (s.ring r).shut).bMoves).raise (.lnk r) 0x01
      else (s.setRing r (s.ring r).shut).bMoves := by
  simp [State.closeRing, h]

theorem closeRing_closed {s : State} {r : Ring} (unplanned : Bool) (h : (s.ring r).swOpen = false) :
    s.closeRing r unplanned = s := by
  simp [State.closeRing, h]

/-- What a closure of one ring leaves: the other ring, the mode, the events that stand, the stored bytes. -/
theorem closeRing_leaves (s : State) (r : Ring) (unplanned : Bool) :
    (∀ o, o ≠ r → (s.closeRing r unplanned).ring o = s.ring o) ∧
    (s.closeRing r unplanned).mode = s.mode ∧
    (∀ i n, (s.ev i).bits.getLsbD n = true → ((s.closeRing r unplanned).ev i).bits.getLsbD n = true) ∧
    SameStores s (s.closeRing r unplanned) := by
  have hshut := setRing_ringWork s r (s.ring r).shut
  have hstores : SameStores s ((s.setRing r (s.ring r).shut).bMoves) := sameStores_trans hshut.stores (bMoves_stores _)
  cases hopen : (s.ring r).swOpen with
  | false =>
    rw [closeRing_closed unplanned hopen]
    exact ⟨fun _ _ => rfl, rfl, fun _ _ h => h, sameStores_of_eq rfl rfl rfl⟩
  | true =>
    rw [closeRing_open unplanned hopen]
    cases unplanned with
    | false => exact ⟨fun o ho => (bMoves_ring _ o).trans (hshut.others o ho), hshut.mode, hshut.events, hstores⟩
    | true =>
      have hraised := raise_ringWork (s.setRing r (s.ring r).shut).bMoves r (.lnk r) 0x01
      exact ⟨fun o ho => (hraised.others o ho).trans ((bMoves_ring _ o).trans (hshut.others o ho)),
        hraised.mode.trans hshut.mode, fun i n h => hraised.events i n (hshut.events i n h),
        sameStores_trans hstores hraised.stores⟩

theorem closeRing_swOpen (s : State) (r : Ring) (unplanned : Bool) :
    ((s.closeRing r unplanned).ring r).swOpen = false := by
  cases hopen : (s.ring r).swOpen with
  | false => rw [closeRing_closed unplanned hopen, hopen]
  | true =>
    rw [closeRing_open unplanned hopen]
    cases unplanned <;> simp [RingSt.shut]

theorem closeRing_unplanned {s : State} {r : Ring} (h : (s.ring r).swOpen = true) :
    ((s.closeRing r true).ev (.lnk r)).bits.getLsbD 0 = true := by
  rw [closeRing_open true h, if_pos rfl, ev_raise_same]
  simp

/-- An unplanned closure closes both rings and is reported on each one that was open. -/
theorem closeBoth_closes {s : State} {r : Ring} (h : (s.ring r).swOpen = true) :
    s.closeBoth.ringA.swOpen = false ∧ s.closeBoth.ringB.swOpen = false ∧
    (s.closeBoth.ev (.lnk r)).bits.getLsbD 0 = true ∧ s.closeBoth.mode = s.mode ∧
    (∀ i n, (s.ev i).bits.getLsbD n = true → (s.closeBoth.ev i).bits.getLsbD n = true) ∧ SameStores s s.closeBoth := by
  obtain ⟨hotherA, hmodeA, hevA, hstoresA⟩ := closeRing_leaves s .a true
  obtain ⟨hotherB, hmodeB, hevB, hstoresB⟩ := closeRing_leaves (s.closeRing .a true) .b true
  refine ⟨?_, closeRing_swOpen (s.closeRing .a true) .b true, ?_, hmodeB.trans hmodeA,
    fun i n hi => hevB i n (hevA i n hi), sameStores_trans hstoresA hstoresB⟩
  · exact (congrArg RingSt.swOpen (hotherB .a (by decide))).trans (closeRing_swOpen s .a true)
  · cases r with
    | a => exact hevB _ _ (closeRing_unplanned h)
    | b => exact closeRing_unplanned ((congrArg RingSt.swOpen (hotherA .b (by decide))).trans h)

theorem leaveBars_of_request {s : State} {r : Ring} {b : Nat} (h : (s.ring r).leaveReq = some b) :
    s.leaveBars r = some ((s.bar.beatno / 1024 + 2 ^ 38 - b) % 2 ^ 38) := by
  simp [State.leaveBars, h, State.barNo]

theorem leaveLate_due {s : State} {r : Ring} {b : Nat} (comp : CompOut) (hreq : (s.ring r).leaveReq = some b)
    (hcomp : s.completing = false) (hopen : (s.ring r).swOpen = true) (hhold : s.hold = []) (hmerges : s.merges = [])
    (hdue : (s.ring r).leaveTo ≤ (s.bar.beatno / 1024 + 2 ^ 38 - b) % 2 ^ 38) :
    s.leaveLate r comp = (s.raise (.lnk r) 0x08).closeBoth := by
  simp only [State.leaveLate, leaveBars_of_request hreq, hcomp, hopen, hdue, hhold, hmerges]
  rfl

theorem leaveLate_early {s : State} {r : Ring} {b : Nat} (comp : CompOut) (hreq : (s.ring r).leaveReq = some b)
    (hheld : s.bar.hold = false) (h : (s.bar.beatno / 1024 + 2 ^ 38 - b) % 2 ^ 38 < (s.ring r).leaveTo) :
    s.leaveLate r comp = s := by
  simp [-Nat.reducePow, State.leaveLate, leaveBars_of_request hreq, hheld, h]

/-! ### PHASE_STEP (R98, R108) -/

theorem timed_of_onRing {m : Mode} (h : m.onRing = true) (hm : m ≠ .join) : m.timed = true := by
  cases m <;> simp_all [Mode.onRing, Mode.timed]

theorem phaseStep_open {s : State} {r : Ring} (hring : s.mode.onRing = true) (hopen : (s.ring r).swOpen = true) :
    s.phaseStep r = if r == .a && s.mode.timed then
      ((s.setRing r (s.ring r).newUpstream).bMoves).raise (.lnk .a) 0x40
      else (s.setRing r (s.ring r).newUpstream).bMoves := by
  simp [State.phaseStep, hring, hopen]

theorem phaseStep_closed {s : State} {r : Ring} (h : (s.ring r).swOpen = false) : s.phaseStep r = s := by
  simp [State.phaseStep, h]

theorem phaseStep_steps {s : State} {r : Ring} (hring : s.mode.onRing = true) (hopen : (s.ring r).swOpen = true) :
    (s.phaseStep r).bar.bvalid = false ∧ (s.phaseStep r).ring r = (s.ring r).newUpstream ∧
    (r = .a → s.mode ≠ .join → ((s.phaseStep r).ev (.lnk .a)).bits.getLsbD 6 = true) ∧
    SameStores s (s.phaseStep r) := by
  have hstores : SameStores s ((s.setRing r (s.ring r).newUpstream).bMoves) :=
    sameStores_trans (setRing_ringWork s r _).stores (bMoves_stores _)
  rw [phaseStep_open hring hopen]
  split
  · exact ⟨rfl, by simp, fun _ _ => by simp [ev_raise_same],
      sameStores_trans hstores (raise_ringWork _ r _ _).stores⟩
  · next hstays =>
    refine ⟨rfl, by simp, fun hr hmode => absurd ?_ hstays, hstores⟩
    simp [hr, timed_of_onRing hring hmode]

/-! ### Rate changes (R94) -/

theorem rateAnnounced_taken {s : State} (code : Nat) (mbar : BitVec 32) (hring : s.mode.onRing = true)
    (hcomp : s.completing = false) (hrate : s.bar.rateNext = none) (hopen : s.ringA.swOpen = true)
    (hsrc : s.bar.beatsrc = false) :
    s.rateAnnounced code mbar = { s with bar := { s.bar with rateNext := some (code % 8, mbar) } } := by
  simp [State.rateAnnounced, hring, hcomp, hrate, hopen, hsrc]

theorem rateAnnounced_ignored {s : State} (code : Nat) (mbar : BitVec 32)
    (h : s.bar.rateNext ≠ none ∨ s.ringA.swOpen = false ∨ s.bar.beatsrc = true) : s.rateAnnounced code mbar = s := by
  rcases h with h | h | h
  · simp [State.rateAnnounced, Option.isSome_iff_ne_none.mpr h]
  all_goals simp [State.rateAnnounced, h]

@[simp] theorem retrained_bar (s : State) (badA badB : BitVec 16) : (s.retrained badA badB).bar = s.bar := by
  simp [State.retrained]

/-- Whatever its new Bar, a realignment records its master's Bar, and leaves the rate, the training and the base. -/
theorem realign_leaves (s : State) (m : Marker) (permille : Nat) : ∃ beatno epoch lastDbBar slipBars short shortAt,
    (s.realign m permille).bar = { s.bar with
      beatno := beatno, epoch := epoch, lost := 0, onOsc := false, hold := false, lastMbar := some m.mbar,
      lastDbBar := lastDbBar, slipBars := slipBars, short := short, shortAt := shortAt } := by
  unfold State.realign
  extract_lets _ _ _ _ _ _ _ t u
  obtain ⟨short, shortAt, ht⟩ : ∃ short shortAt, t.bar = _ := shorten_bar _
  have hu : u.bar = t.bar := by rw [barMeasured_bar, raise_bar]
  split
  · exact ⟨_, _, _, _, _, _, by rw [wraps_bar, hu, ht]⟩
  · exact ⟨_, _, _, _, _, _, by rw [hu, ht]⟩

theorem rateResumes_idle {s : State} {m : Marker} (permille : Nat) (badA badB : BitVec 16)
    (h : s.bar.rateNext = none ∨ ∃ c b, s.bar.rateNext = some (c, b) ∧ s.bar.beatsrc = false ∧ markerDown m c = false) :
    s.rateResumes m permille badA badB = s := by
  rcases h with h | ⟨c, b, h, hsrc, hdown⟩
  · simp [State.rateResumes, h]
  · simp [State.rateResumes, h, hsrc, hdown]

section
variable {s : State} {m : Marker} {c : Nat} {b : BitVec 32} (permille : Nat) (badA badB : BitVec 16)
  (hrate : s.bar.rateNext = some (c, b)) (hcomp : s.completing = false) (hsrc : s.bar.beatsrc = false)
  (hdown : markerDown m c = true)
include hrate hcomp hsrc hdown

theorem rateResumes_join (hmode : s.mode = .join) :
    s.rateResumes m permille badA badB = (s.newRate c).retrained badA badB := by
  simp [State.rateResumes, hrate, hcomp, hsrc, hdown, hmode, Mode.timed]

theorem rateResumes_timed (htimed : s.mode.timed = true) (htrain : s.bar.retrain = true) :
    s.rateResumes m permille badA badB = ((s.newRate c).retrained badA badB).downGo m permille State.downMode := by
  simp [State.rateResumes, hrate, hcomp, hsrc, hdown, htimed, htrain]

end

/-- The Beat of the Downbeat that ends a training counts at the new rate, from the master's Bar on. -/
theorem newRate_downGo (s : State) (m : Marker) (c permille : Nat) (badA badB : BitVec 16)
    (hsrc : s.bar.beatsrc = false) :
    ∃ t, ((s.newRate c).retrained badA badB).downGo m permille State.downMode = t ∧ t.bar.rate = c ∧
      t.bar.retrain = false ∧ t.bar.rateNext = none ∧ t.bar.srcNext = none ∧ t.bar.lastMbar = some m.mbar := by
  obtain ⟨bLost, hbegun⟩ := downBegun_bar ((s.newRate c).retrained badA badB) m permille
  obtain ⟨beatno, epoch, lastDbBar, slipBars, short, shortAt, hrealign⟩ :=
    realign_leaves ((s.newRate c).retrained badA badB).closeBeat m permille
  rw [hrealign, closeBeat_bar, retrained_bar] at hbegun
  refine ⟨_, downGo_runs m permille (by rw [hbegun]; exact hsrc) (by rw [hbegun]; rfl), ?_⟩
  rw [runBeat_bar, degrades_bar, hbegun]
  exact ⟨rfl, rfl, rfl, rfl, rfl⟩

theorem exec_rateChangeResume_of_no_gong {s : State} (m : Marker) (permille : Nat) (badA badB : BitVec 16)
    (h : s.gongDue = none) :
    exec (.rateChangeResume ⟨⟨m, permille⟩, badA, badB⟩) s = .next (s.rateResumes m permille badA badB) := by
  conv_rhs => rw [← gongFires_of_none h]
  rfl

/-! ### The statement -/

/-- Settles O45: training by `trainedOn_trains`, windows by `joinWindow_opens`, `joinWindow_passes`, `leaveWindow_own`
and `leaveWindow_above`, a leave without one by `leaveLate_due` and `closeBoth_closes`, a phase step by
`phaseStep_steps`. The Downbeat that ends a rate change begins a Beat of ring time as `newRate_downGo` gives it, which
nothing that the Beat runs moves. These are the model's own readings: the Beat that a Leave Window shortens (log 19), a
rate code taken as its 3 bits (log 75), the lanes that stay marked for their loopback and SHORTBEAT at a phase step
(log 81), and that the beat source announces a window or a rate change by itself (log 115). -/
theorem ringJoinsLeavesAndRates : Obligations.RingJoinsLeavesAndRates := by
  unfold Obligations.RingJoinsLeavesAndRates
  refine ⟨fun s r rate us bad hrate => ?training, fun s r w mbar hop inHop q cp => ?windows,
    fun s code mbar m p badA badB =>
      ⟨fun hring hcomp hnext hopen hsrc =>
        congrArg Host.Outcome.next (rateAnnounced_taken code.toNat mbar hring hcomp hnext hopen hsrc),
       fun h => congrArg Host.Outcome.next (rateAnnounced_ignored code.toNat mbar h), ?resumes,
       fun hgong h => ?otherMarker⟩⟩
  case training =>
    rw [exec_trainingComplete s us bad hrate]
    refine ⟨fun hmode hcomp hopen htrained hjoined => ?_,
      fun h => congrArg Host.Outcome.next (trainedOn_idle _ _ _ (not_mayTrain h))⟩
    obtain ⟨hring, hrest⟩ :=
      trainedOn_trains rate.toNat us.toNat bad (mayTrain_join hmode hcomp hopen htrained) hjoined
    refine ⟨_, rfl, ?_, hrest⟩
    simpa [RingSt.trainedAt] using hring
  case windows =>
    intro x ok
    have hplace (seen : Prop) (h : w.toNat = 0 ∨ 1021 < w.toNat ∨ seen) : windowOk w = false ∨ seen :=
      (or_assoc.mpr h).imp_left windowOk_eq_false
    refine ⟨fun htakes hnew hmode htrained hclosed hclock hvstby => ?opens,
      fun h => congrArg Host.Outcome.next (joinWindow_ignored hop inHop q (hplace _ h)),
      fun htakes hnew hopen => ?neighbour,
      fun hring hcomp hlow hhigh hsrc hrate hnew hdriven => congrArg Host.Outcome.next
        (joinWindow_announced hop inHop q hring hcomp ((windowOk_iff w).mpr ⟨hlow, hhigh⟩) hsrc hrate hnew hdriven),
      fun htakes hnew hopen hid hhold hmerges => ?leaves,
      fun n l htakes hr hnew hopen hid hn hroster hlast => ?shortened,
      fun n h => congrArg Host.Outcome.next (leaveWindow_ignored n hop inHop cp (hplace _ h)),
      fun b comp hreq hcomp hopen hhold hmerges hdue => ?late,
      fun b comp hreq hheld h => congrArg Host.Outcome.next (leaveLate_early comp hreq hheld h),
      fun hring hopen => ⟨_, rfl, phaseStep_steps hring hopen⟩,
      fun hclosed => congrArg Host.Outcome.next (phaseStep_closed hclosed)⟩
    case opens =>
      obtain ⟨hring, hothers, hbar, hslow, hstores⟩ :=
        joinWindow_opens hop inHop htakes hnew q hmode htrained hclosed hclock hvstby
      refine ⟨s.joinWindow r w mbar hop inHop q, rfl, ?_⟩
      rw [hring, hbar]
      exact ⟨rfl, Nat.min_comm _ _, rfl, rfl, rfl, rfl, rfl, rfl, hslow, rfl, rfl,
        fun l hl => congrArg (Option.getD · x.hopLat) hl, hothers, hstores⟩
    case neighbour =>
      obtain ⟨hring, hbar, hstores⟩ := joinWindow_passes hop inHop htakes hnew true hopen
      refine ⟨s.joinWindow r w mbar hop inHop true, rfl, ?_⟩
      rw [hring, hbar]
      obtain ⟨hrx, hremaps, htx⟩ := windowed_step ((s.ring r).sawJoin w mbar) hop inHop false
      exact ⟨windowed_swOpen hopen, hrx, hremaps, htx, rfl, hstores⟩
    case leaves =>
      obtain ⟨hring, hothers, hevs, hbar, hstores⟩ := leaveWindow_own hop inHop cp htakes hnew hopen hid hhold hmerges
      refine ⟨s.leaveWindow r x.nodeId w mbar hop inHop cp, rfl, ?_⟩
      rw [hring, hbar]
      exact ⟨rfl, rfl, rfl, hevs, rfl, hothers, hstores⟩
    case shortened =>
      obtain ⟨hstays, hbar, hstores⟩ :=
        leaveWindow_above hop inHop cp htakes hnew hopen hr hn (above_first hid hn hroster)
      refine ⟨s.leaveWindow r n w mbar hop inHop cp, rfl, ?_⟩
      rw [hbar]
      exact ⟨congrArg (Option.map _) hlast, hstays, rfl, hstores⟩
    case late =>
      have hraised := raise_ringWork s r (.lnk r) 0x08
      obtain ⟨hA, hB, hunplanned, hmode, hevents, hstores⟩ := closeBoth_closes (s := s.raise (.lnk r) 0x08) (r := r)
        (by rw [raise_ring]; exact hopen)
      exact ⟨_, congrArg Host.Outcome.next (leaveLate_due comp hreq hcomp hopen hhold hmerges hdue), hA, hB,
        hevents _ _ (by simp [ev_raise_same]), hunplanned, hmode, sameStores_trans hraised.stores hstores⟩
  case resumes =>
    intro c b hrate hcomp hgong hsrc hdown hmode
    rw [exec_rateChangeResume_of_no_gong m p badA badB hgong]
    rcases hmode with hmode | ⟨htimed, htrain⟩
    · refine ⟨_, congrArg Host.Outcome.next (rateResumes_join p badA badB hrate hcomp hsrc hdown hmode), ?_⟩
      rw [retrained_bar]
      refine ⟨rfl, rfl, rfl, rfl, fun htimed => ?_⟩
      rw [hmode] at htimed
      exact absurd htimed (by decide)
    · obtain ⟨t, ht, hnewRate, htrained, hnext, hsrcNext, hlast⟩ := newRate_downGo s m c p badA badB hsrc
      exact ⟨t, congrArg Host.Outcome.next
        ((rateResumes_timed p badA badB hrate hcomp hsrc hdown htimed htrain).trans ht), hnewRate, htrained, hnext,
        hsrcNext, fun _ => hlast⟩
  case otherMarker =>
    rw [exec_rateChangeResume_of_no_gong m p badA badB hgong]
    exact congrArg Host.Outcome.next (rateResumes_idle p badA badB h)

end Sys2Proof.Machine


/-! PROOFS. What becomes of a request's header (05 R129), of the checks (06 R152) and of a wake from Rest (07 R165). -/

namespace Sys2Proof.Machine

/-! ### A request row serves its request -/

theorem serves_of_runReq {c : Instr} {rq : Req} {s : State} {body : Job → State → State} (hwf : c.wf = true)
    (hrun : exec c s = runReq c.wf rq s body) : ∃ body, exec c s = .next (s.serve rq body) :=
  ⟨body, by rw [hrun, runReq, if_pos hwf]⟩

theorem gong_addressed {s : State} {rq : Req} {comp : CompOut} (haddr : rq.dnode ≠ 31) :
    s.gong rq comp = s.serve rq fun j t => j.reply { t with gongDue := some (j.rid, comp) } 0x00 0 := by
  rw [State.gong, if_neg (by simpa using haddr)]

/-- Every request row of Table 7.1 runs its operation in the one frame; a GONG does where it is no broadcast. -/
theorem exec_serves {c : Instr} {rq : Req} {o : Nat} (s : State) (hreq : Laws.requestOf c = some (rq, o))
    (hwf : c.wf = true) (haddr : rq.dnode ≠ 31) : ∃ body, exec c s = .next (s.serve rq body) := by
  cases c
  case gong rq comp =>
    cases hreq
    exact ⟨_, (if_pos hwf).trans (congrArg Host.Outcome.next (gong_addressed haddr))⟩
  all_goals
    cases hreq
  all_goals
    exact serves_of_runReq hwf rfl


/-! ### A header that the counts refuse (05 R129) -/

theorem claim_refused {s : State} {rq : Req} {r : Ring} {why : Nat} (hvia : rq.via = .ring r)
    (hready : s.readyReq rq = none) (hwhy : s.refusal (s.kitOf rq) rq s.bar.beatno = some why) : s.claim rq = none := by
  simp [State.claim, State.admits, hvia, hready, hwhy]

theorem serve_refused {s : State} {rq : Req} {r : Ring} {why : Nat} (body : Job → State → State)
    (hvia : rq.via = .ring r) (haddr : s.addressed r rq = true) (hready : s.readyReq rq = none)
    (hwhy : s.refusal (s.kitOf rq) rq s.bar.beatno = some why) : s.serve rq body = s.refuseHeader r rq why := by
  have hclaim := claim_refused hvia hready hwhy
  simp [State.serve, hclaim, State.unclaimed, State.admits, hvia, hready, haddr, hwhy]

@[simp] theorem tallyAt_ring (s : State) (beat typ : Nat) (kit : Option Kit) (arg : Nat) (r : Ring) :
    (s.tallyAt beat typ kit arg).ring r = s.ring r := by
  unfold State.tallyAt
  split
  · split <;> cases r <;> rfl
  · rfl

/-- A refused header counts, and does no more to its ring. -/
theorem refuseHeader_ring (s : State) (r : Ring) (rq : Req) (why : Nat) :
    (s.refuseHeader r rq why).ring r = { s.ring r with refusedCt := min ((s.ring r).refusedCt + 1) 65535 } := by
  rw [State.refuseHeader, tally_ring, ring_setRing, Nat.min_comm]
  rfl

theorem refuseHeader_stores (s : State) (r : Ring) (rq : Req) (why : Nat) : SameStores s (s.refuseHeader r rq why) :=
  sameStores_of_eq (by simp) (by simp) (by simp)

/-! ### What taking up and turning down a request leave (05 R129, 06 R148) -/

/-- From `s` to `t` the Kits' credits and reply counters alone have changed of what a request may work on: the byte stores,
the pages, the engines, ring time and the mode are as they were. -/
structure CountsOnly (s t : State) : Prop where
  stores : SameStores s t
  pages : t.pages = s.pages
  engs : t.engs = s.engs
  bar : t.bar = s.bar
  mode : t.mode = s.mode
  kits : ∀ k, ∃ taken denied oow, t.kit k = { s.kit k with taken := taken, denied := denied, oow := oow }

theorem same_counts (s : State) (k : Kit) :
    ∃ taken denied oow, s.kit k = { s.kit k with taken := taken, denied := denied, oow := oow } := ⟨_, _, _, rfl⟩

theorem CountsOnly.refl (s : State) : CountsOnly s s :=
  ⟨sameStores_of_eq rfl rfl rfl, rfl, rfl, rfl, rfl, same_counts s⟩

theorem CountsOnly.trans {s t u : State} (hst : CountsOnly s t) (htu : CountsOnly t u) : CountsOnly s u where
  stores := sameStores_trans hst.stores htu.stores
  pages := htu.pages.trans hst.pages
  engs := htu.engs.trans hst.engs
  bar := htu.bar.trans hst.bar
  mode := htu.mode.trans hst.mode
  kits k := by
    obtain ⟨_, _, _, ht⟩ := hst.kits k
    obtain ⟨taken, denied, oow, hu⟩ := htu.kits k
    exact ⟨taken, denied, oow, by rw [hu, ht]⟩

theorem setKit_countsOnly {s : State} {k : Kit} {x : KitSt}
    (h : ∃ taken denied oow, x = { s.kit k with taken := taken, denied := denied, oow := oow }) :
    CountsOnly s (s.setKit k x) where
  stores := sameStores_of_eq rfl rfl rfl
  pages := rfl
  engs := rfl
  bar := rfl
  mode := rfl
  kits l := by
    by_cases hl : k = l
    · subst hl
      simpa using h
    · simpa [kit_setKit_of_ne _ _ _ _ hl] using same_counts s l

theorem updReq_countsOnly (s : State) (rid : Nat) (f : InFlight → InFlight) : CountsOnly s (s.updReq rid f) :=
  ⟨sameStores_of_eq rfl rfl rfl, rfl, rfl, rfl, rfl, same_counts s⟩

theorem tallyAt_countsOnly (s : State) (beat typ : Nat) (kit : Option Kit) (arg : Nat) :
    CountsOnly s (s.tallyAt beat typ kit arg) := by
  unfold State.tallyAt
  split
  · split <;> exact ⟨sameStores_of_eq rfl rfl rfl, rfl, rfl, rfl, rfl, same_counts s⟩
  · exact .refl s

theorem noteQueue_countsOnly (s : State) (v : Via) : CountsOnly s (s.noteQueue v) :=
  ⟨sameStores_of_eq rfl rfl rfl, rfl, rfl, rfl, rfl, same_counts s⟩

/-- The Kit of a request, if it has one, with its credits taken or given back. -/
def State.withTaken (s : State) (kit : Option Kit) (taken : Kit → Nat) : State :=
  match kit with
  | some k => s.setKit k { s.kit k with taken := taken k }
  | none => s

theorem withTaken_countsOnly (s : State) (kit : Option Kit) (taken : Kit → Nat) :
    CountsOnly s (s.withTaken kit taken) := by
  cases kit with
  | none => exact .refl s
  | some k => exact setKit_countsOnly ⟨_, _, _, rfl⟩

theorem admitReq_countsOnly (s : State) (rq : Req) (kit : Option Kit) (stream : BitVec 3) (beat slot delay : Nat)
    (stage : Stage) (bytes : List Byte) : CountsOnly s (s.admitReq rq kit stream beat slot delay stage bytes) := by
  have hkit := withTaken_countsOnly s kit fun k => (s.kit k).taken + creditsFor rq
  refine (hkit.trans (?_ : CountsOnly _ _)).trans (tallyAt_countsOnly _ beat 0x01 kit (admitArg rq))
  exact ⟨sameStores_of_eq rfl rfl rfl, rfl, rfl, rfl, rfl, same_counts _⟩

theorem admitWhole_countsOnly (s : State) (rq : Req) : CountsOnly s (s.admitWhole rq) :=
  (admitReq_countsOnly s rq (s.kitOf rq) 0 s.bar.beatno 0 0 .ready []).trans (noteQueue_countsOnly _ rq.via)

theorem giveBack_countsOnly (s : State) (rid : Nat) : CountsOnly s (s.giveBack rid) := by
  unfold State.giveBack
  split
  · exact .refl s
  · rename_i f _
    exact (withTaken_countsOnly s f.kit fun k => (s.kit k).taken - f.credits).trans (updReq_countsOnly _ rid _)

theorem queueReply_countsOnly (s : State) (rid : Nat) (rq : Req) (kit : Option Kit) (a : Answer) :
    CountsOnly s (s.queueReply rid rq kit a) := by
  have hcount : CountsOnly s (match kit with
      | some k => s.setKit k ((s.kit k).countReply a.status)
      | none => s) := by
    cases kit with
    | none => exact .refl s
    | some k => exact setKit_countsOnly ⟨_, _, _, rfl⟩
  refine ⟨sameStores_of_eq (by simp) (by simp) (by simp), by simp, by simp, by simp, by simp, fun k => ?_⟩
  obtain ⟨taken, denied, oow, hk⟩ := hcount.kits k
  refine ⟨taken, denied, oow, Eq.trans ?_ hk⟩
  unfold State.queueReply
  cases rq.via with
  | i3c => rfl
  | ring r => exact congrArg (fun kits : Vector KitSt 16 => kits[k]) (tempoMiss_kits _ _ _)

theorem answer_countsOnly (s : State) (rid : Nat) (rq : Req) (kit : Option Kit) (a : Answer) :
    CountsOnly s (s.answer rid rq kit a) := by
  unfold State.answer
  split
  · exact queueReply_countsOnly s rid rq kit a
  · split
    · exact queueReply_countsOnly s rid rq kit a
    · exact .refl s

theorem turnDown_countsOnly (s : State) (rid : Nat) (rq : Req) (kit : Option Kit) (a : Answer) :
    CountsOnly s (s.turnDown rid rq kit a) := (giveBack_countsOnly s rid).trans (answer_countsOnly _ rid rq kit a)

theorem deliver_countsOnly {s : State} {f : InFlight} {cl : Claim} (h : s.deliver f = some cl) :
    CountsOnly s cl.st := by
  unfold State.deliver at h
  split at h
  · cases h
    exact updReq_countsOnly s f.rid _
  · cases h

/-- Taking up a request moves its Kit's credits alone. -/
theorem claim_countsOnly {s : State} {rq : Req} {cl : Claim} (h : s.claim rq = some cl) : CountsOnly s cl.st := by
  unfold State.claim at h
  split at h
  · split at h
    · cases h
    · cases h
      exact ⟨sameStores_of_eq rfl rfl rfl, rfl, rfl, rfl, rfl, same_counts s⟩
  · split at h
    · exact deliver_countsOnly h
    · split at h
      · extract_lets t at h
        split at h
        · exact (admitWhole_countsOnly s rq).trans (deliver_countsOnly h)
        · cases h
      · cases h

/-! ### A reply to a request that executes nothing (06 R148, R152) -/

theorem giveBack_awaits (s : State) (rid n : Nat) : (s.giveBack rid).awaits n = s.awaits n := by
  unfold State.giveBack
  split
  · rfl
  · rename_i f _
    have hcredits : ∀ l : List InFlight, ((updWhere (fun x => x.rid == rid) (fun x => { x with credits := 0 }) l).any
        fun g => g.rid == n && !(g.stage == .replied || g.stage == .late))
        = l.any fun g => g.rid == n && !(g.stage == .replied || g.stage == .late) := by
      intro l
      rw [updWhere, List.any_map]
      congr 1
      funext g
      simp only [Function.comp_apply]
      split <;> rfl
    cases f.kit <;> exact hcredits s.inflight

theorem turnDown_replied (s : State) (rid : Nat) (rq : Req) (kit : Option Kit) (a : Answer)
    (h : s.awaits rid = true ∨ rq.via = .i3c) :
    Replied s (s.turnDown rid rq kit a) rid rq a.status a.detail a.payload :=
  (answer_replied (s.giveBack rid) rid rq kit a (by rwa [giveBack_awaits])).since (by simp)

theorem serve_checked {s : State} {rq : Req} {cl : Claim} {a : Answer} (body : Job → State → State)
    (hclaim : s.claim rq = some cl) (hcheck : cl.st.check cl.admBeat cl.kit rq = some a) :
    s.serve rq body = cl.st.turnDown cl.rid rq cl.kit a := by
  simp only [State.serve, hclaim, hcheck]

/-! ### The statement on refusals -/

/-- Settles O4: a refused header only counts (`serve_refused`); a failed check turns its request down (`serve_checked`),
which gives the one reply and moves credits and counters alone. -/
theorem refusedAndFailedRequestsExecuteNothing : Obligations.RefusedAndFailedRequestsExecuteNothing := by
  unfold Obligations.RefusedAndFailedRequestsExecuteNothing
  refine ⟨fun c s rq o r why hreq hwf hnode hvia haddr hready hwhy => ?refused,
    fun c s rq o cl a hreq hwf hnode hclaim hcheck => ?failed⟩
  case refused =>
    obtain ⟨body, hexec⟩ := exec_serves s hreq hwf hnode
    rw [hexec, serve_refused body hvia haddr hready hwhy]
    exact ⟨_, rfl, congrArg RingSt.refusedCt (refuseHeader_ring s r rq why), by simp, by simp, by simp, by simp,
      refuseHeader_stores s r rq why⟩
  case failed =>
    obtain ⟨body, hexec⟩ := exec_serves s hreq hwf hnode
    rw [hexec, serve_checked body hclaim hcheck]
    obtain ⟨hstores, hpages, hengs, hbar, hmode, hkits⟩ :=
      (claim_countsOnly hclaim).trans (turnDown_countsOnly cl.st cl.rid rq cl.kit a)
    refine ⟨_, rfl, turnDown_replied _ _ _ _ _ (claim_awaits hclaim), hstores, hpages, hengs, hbar, hmode, fun k => ?_⟩
    obtain ⟨_, _, _, hk⟩ := hkits k
    rw [hk]
    exact ⟨rfl, rfl⟩


/-! ### Admission (05 R129, 06 R155) -/

/-- The in-flight entry that an admitted request takes (06 R155). -/
def State.entryFor (s : State) (rq : Req) (kit : Option Kit) (stream : BitVec 3) (beat slot delay : Nat) (stage : Stage)
    (bytes : List Byte) : InFlight :=
  { rid := s.nextRid, rq := rq, kit := kit, stream := stream, admBeat := (beat + (slot + delay) / 32) % 2 ^ 48,
    slot := (slot + delay) % 32, flits := 1, bytes := bytes, lastFlit := beat, credits := creditsFor rq, stage := stage,
    wedge := none, stood := 0 }

theorem tallyAt_changes (s : State) (beat typ : Nat) (kit : Option Kit) (arg : Nat) :
    ∃ tal evs, s.tallyAt beat typ kit arg = { s with tal := tal, evs := evs } := by
  unfold State.tallyAt
  split
  · split
    · exact ⟨_, _, rfl⟩
    · exact ⟨_, s.evs, rfl⟩
  · exact ⟨s.tal, s.evs, rfl⟩

/-- What an admission does: credits, one entry and the next number; besides these only records. -/
theorem admitReq_changes (s : State) (rq : Req) (kit : Option Kit) (stream : BitVec 3) (beat slot delay : Nat)
    (stage : Stage) (bytes : List Byte) : ∃ infHigh headers tal evs,
      s.admitReq rq kit stream beat slot delay stage bytes =
        { s.withTaken kit (fun k => (s.kit k).taken + creditsFor rq) with
          inflight := s.inflight ++ [s.entryFor rq kit stream beat slot delay stage bytes], nextRid := s.nextRid + 1,
          infHigh := infHigh, headers := headers, tal := tal, evs := evs } := by
  obtain ⟨tal, evs, htally⟩ := tallyAt_changes
    ({ s.withTaken kit (fun k => (s.kit k).taken + creditsFor rq) with
        inflight := s.inflight ++ [s.entryFor rq kit stream beat slot delay stage bytes], nextRid := s.nextRid + 1,
        infHigh := max s.infHigh (s.inflight.length + 1),
        headers := (⟨s.nextRid, rq, (beat + (slot + delay) / 32) % 2 ^ 48, none, kit⟩ :: s.headers).take 64 })
    beat 0x01 kit (admitArg rq)
  refine ⟨_, _, tal, evs, Eq.trans ?_ htally⟩
  cases kit <;> rfl

/-- From `s` to `t` a request of a Kit is admitted: its credits, one entry and the next number. -/
structure Admitted (s : State) (rq : Req) (kit : Option Kit) (e : InFlight) (t : State) : Prop extends CountsOnly s t where
  inflight : t.inflight = s.inflight ++ [e]
  nextRid : t.nextRid = s.nextRid + 1
  replies : t.replies = s.replies
  wedgedPorts : t.wedgedPorts = s.wedgedPorts
  barriers : t.barriers = s.barriers
  rings : ∀ r, t.ring r = s.ring r
  taken : ∀ k, kit = some k → (t.kit k).taken = (s.kit k).taken + creditsFor rq
  others : ∀ o, kit ≠ some o → t.kit o = s.kit o

theorem admitReq_admits (s : State) (rq : Req) (kit : Option Kit) (stream : BitVec 3) (beat slot delay : Nat)
    (stage : Stage) (bytes : List Byte) :
    Admitted s rq kit (s.entryFor rq kit stream beat slot delay stage bytes)
      (s.admitReq rq kit stream beat slot delay stage bytes) := by
  have hcounts := admitReq_countsOnly s rq kit stream beat slot delay stage bytes
  obtain ⟨infHigh, headers, tal, evs, hadmit⟩ := admitReq_changes s rq kit stream beat slot delay stage bytes
  rw [hadmit] at hcounts ⊢
  refine ⟨hcounts, rfl, rfl, ?_, ?_, ?_, fun r => ?_, fun k hk => ?_, fun o ho => ?_⟩
  · cases kit <;> rfl
  · cases kit <;> rfl
  · cases kit <;> rfl
  · cases kit <;> cases r <;> rfl
  · subst hk
    exact congrArg KitSt.taken (kit_setKit s k _)
  · cases kit with
    | none => rfl
    | some k => exact kit_setKit_of_ne s k o _ fun h => ho (congrArg some h)

/-- The entry of a packet given whole. -/
def State.wholeEntry (s : State) (rq : Req) : InFlight := s.entryFor rq (s.kitOf rq) 0 s.bar.beatno 0 0 .ready []

theorem admitWhole_admits (s : State) (rq : Req) :
    Admitted s rq (s.kitOf rq) (s.wholeEntry rq) (s.admitWhole rq) := by
  have h := admitReq_admits s rq (s.kitOf rq) 0 s.bar.beatno 0 0 .ready []
  exact ⟨admitWhole_countsOnly s rq, h.inflight, h.nextRid, h.replies, h.wedgedPorts, h.barriers,
    fun r => Eq.trans (by cases r <;> rfl) (h.rings r), h.taken, h.others⟩

/-! ### A packet given whole is taken up (05 R129, R134) -/

theorem updReq_of_absent {l : List InFlight} {rid : Nat} (f : InFlight → InFlight) (h : ∀ g ∈ l, g.rid ≠ rid) :
    updWhere (fun x => x.rid == rid) f l = l := by
  unfold updWhere
  conv_rhs => rw [← List.map_id l]
  refine List.map_congr_left fun g hg => ?_
  rw [if_neg (by simpa using h g hg), id]

section
variable {s : State} {rq : Req} {r : Ring} (hvia : rq.via = .ring r)
  (hserved : ∀ g ∈ s.inflight, g.rid < s.nextRid ∧ (g.stage = .serving ∨ g.stage = .late ∨ g.stage = .replied))
include hserved

theorem readyReq_of_served : s.readyReq rq = none := by
  rw [State.readyReq, List.find?_eq_none]
  intro g hg
  rcases (hserved g hg).2 with h | h | h <;> simp [h]

include hvia in
theorem queued_of_served : s.queued (viaPort rq.via).val = 0 := by
  have hnone : (s.inflight.filter fun f => f.stage == .ready && f.rq.via == .ring r) = [] := by
    rw [List.filter_eq_nil_iff]
    intro g hg
    rcases (hserved g hg).2 with h | h | h <;> simp [h]
  rw [hvia]
  cases r <;> simp [State.queued, viaPort, hnone]

theorem findReq_admitWhole : (s.admitWhole rq).findReq s.nextRid = some (s.wholeEntry rq) := by
  have hold : s.inflight.find? (fun f => f.rid == s.nextRid) = none := by
    rw [List.find?_eq_none]
    intro g hg
    simpa using (hserved g hg).1.ne
  rw [State.findReq, (admitWhole_admits s rq).inflight, List.find?_append, hold]
  simp [State.wholeEntry, State.entryFor]

/-- Behind requests that their outputs have taken, a packet given whole goes first. -/
theorem delivers_admitWhole (hbarriers : s.barriers = [])
    (hport : s.wedgedPorts.getLsbD (portOf rq.opc.toNat) = false) :
    (s.admitWhole rq).delivers (s.wholeEntry rq) = true := by
  have hadmitted := admitWhole_admits s rq
  have hfirst : ∀ g ∈ (s.admitWhole rq).inflight,
      (g.rid != (s.wholeEntry rq).rid && (s.admitWhole rq).goesFirst g (s.wholeEntry rq)) = false := by
    rw [hadmitted.inflight]
    intro g hg
    rcases List.mem_append.mp hg with hg | hg
    · rcases (hserved g hg).2 with h | h | h <;> simp [State.goesFirst, InFlight.waits, h]
    · simp [List.mem_singleton.mp hg]
  have hany : ((s.admitWhole rq).inflight.any fun g =>
      g.rid != (s.wholeEntry rq).rid && (s.admitWhole rq).goesFirst g (s.wholeEntry rq)) = false := by
    rw [List.any_eq_false]
    intro g hg
    simpa using hfirst g hg
  have hopen : (s.admitWhole rq).wedgedPorts.getLsbD (s.wholeEntry rq).port = false := by
    rw [hadmitted.wedgedPorts]
    exact hport
  simp [State.delivers, State.fenced, hadmitted.barriers, hbarriers, hopen, hany]

include hvia in
/-- The claim of a packet given whole: its admission, and then its delivery. -/
theorem claim_whole (haddr : s.addressed r rq = true) (hbarriers : s.barriers = [])
    (hport : s.wedgedPorts.getLsbD (portOf rq.opc.toNat) = false)
    (hroom : s.refusal (s.kitOf rq) rq s.bar.beatno = none) : s.claim rq = some ⟨s.nextRid, s.kitOf rq,
      s.bar.beatno % 2 ^ 48, 0, (s.admitWhole rq).updReq s.nextRid fun x => { x with stage := .serving }⟩ := by
  have hadmits : s.admits r rq = true := by
    simp [State.admits, haddr, hroom, queued_of_served hvia hserved]
  unfold State.claim
  simp only [hvia, readyReq_of_served hserved, hadmits, if_true, findReq_admitWhole hserved, State.deliver,
    delivers_admitWhole hserved hbarriers hport]
  rfl
end

theorem taken_of_claim {s : State} {rq : Req} {cl : Claim} {k : Kit} (hclaim : s.claim rq = some cl)
    (hkit : cl.kit = some k) (hcheck : cl.st.check cl.admBeat (some k) rq = none) (hwake : cl.st.mustWake rq = false) :
    s.taken rq = some (⟨cl.rid, rq, k, cl.admBeat, cl.slot⟩, cl.st) := by
  simp [State.taken, hclaim, hkit, hcheck, hwake]

/-! ### A request that first wakes the device (07 R165, 17 R416) -/

theorem serve_wakes {s : State} {rq : Req} {cl : Claim} {k : Kit} (body : Job → State → State)
    (hclaim : s.claim rq = some cl) (hkit : cl.kit = some k) (hcheck : cl.st.check cl.admBeat (some k) rq = none)
    (hwake : cl.st.mustWake rq = true) :
    s.serve rq body = (cl.st.updReq cl.rid fun x => { x with stage := .ready }).wake := by
  simp [State.serve, hclaim, hkit, hcheck, hwake]

theorem wake_of_rest {s : State} (h : s.mode = .rest) : s.wake = { s with gen := { s.gen with waking := true } } := by
  simp [State.wake, h]

/-! ### The statement on requests taken up -/

/-- Settles O3: behind requests that their outputs have taken, a packet given whole is claimed by its admission
(`claim_whole`), whose frame is `admitWhole_admits`; a W request in Rest goes back to wait (`serve_wakes`). -/
theorem requestsAreTakenUp : Obligations.RequestsAreTakenUp := by
  unfold Obligations.RequestsAreTakenUp
  refine ⟨fun s rq r k hvia haddr hbeat hserved hbarriers hport hkit hroom hcheck hwake => ?taken,
    fun c s rq o cl k row hreq hwf hnode hclaim hkit hcheck hmode hrow hrest => ?wakes⟩
  case taken =>
    have hadmitted := admitWhole_admits s rq
    have hclaim := claim_whole hvia hserved haddr hbarriers hport (hkit ▸ hroom)
    rw [Nat.mod_eq_of_lt hbeat] at hclaim
    have hstill : ((s.admitWhole rq).updReq s.nextRid fun x => { x with stage := .serving }).mustWake rq = false := by
      rw [State.mustWake, updReq_mode, hadmitted.mode]
      exact hwake
    refine ⟨_, { s.wholeEntry rq with stage := .serving }, taken_of_claim hclaim hkit hcheck hstill, ?_, rfl, rfl, hkit,
      Nat.mod_eq_of_lt hbeat, rfl, hadmitted.nextRid, hadmitted.taken k hkit,
      fun o ho => hadmitted.others o (by rw [hkit]; exact fun h => ho (Option.some.inj h).symm),
      hadmitted.replies, hadmitted.stores, hadmitted.bar, hadmitted.mode⟩
    change updWhere _ _ (s.admitWhole rq).inflight = _
    rw [hadmitted.inflight, updWhere, List.map_append, ← updWhere,
      updReq_of_absent _ fun g hg => (hserved g hg).1.ne]
    simp [State.wholeEntry, State.entryFor]
  case wakes =>
    obtain ⟨body, hexec⟩ := exec_serves s hreq hwf hnode
    have hwake : cl.st.mustWake rq = true := by simp [State.mustWake, hmode, hrow, hrest]
    rw [hexec, serve_wakes body hclaim hkit hcheck hwake,
      wake_of_rest (s := cl.st.updReq cl.rid fun x => { x with stage := .ready }) hmode]
    exact ⟨_, rfl, rfl, rfl, (claim_countsOnly hclaim).stores, rfl⟩

end Sys2Proof.Machine

/-! PROOFS. Replies leave (05 R130, R136; 06 R142, R147; 08 R228), and the trailer of an early one (11 R301). -/

namespace Sys2Proof.Machine

/-! ### The slot and the reply that may use it (05 R113, R136) -/

theorem ringIsB_eq (r : Ring) : ringIsB r = (r == .b) := by cases r <;> rfl

theorem mayPlace_of_open {s : State} {r : Ring} {slot : BitVec 5} (h : OpenSlot s r slot) :
    (s.ring r).mayPlace (s.slotNow slot.toNat) slot.toNat = true := by
  obtain ⟨hjoined, hopen, hfront, hheld, hresend, hempty, hslot, -⟩ := h
  have hpos : slot.toNat ≠ 0 := fun e => hslot (BitVec.eq_of_toNat_eq e)
  simp [RingSt.mayPlace, hjoined, hopen, hfront, hheld, hresend, State.slotNow, hempty, hpos]

theorem replyRoom_of_slot {s : State} {r : Ring} {slot : BitVec 5} (h : ReplySlot s r slot) :
    s.replyRoom r slot.toNat = true := by
  obtain ⟨hopen, hslot⟩ := h
  simp [State.replyRoom, mayPlace_of_open hopen, hslot, hopen.2.2.2.2.2.2.2]

/-- A request of which the switch keeps the order holds a reply back until its own reply leaves (06 R142). -/
theorem heldBack_of_ordered {s : State} {p : Reply} {f : InFlight} (hreplies : s.replies = [p]) (hf : f ∈ s.inflight)
    (hbefore : f.rid < p.rid) (hordered : ordered f.kit p.kit f.rq p.rq = true) (hfirst : p.flitsOut = 0)
    (hran : p.ran = true) : s.heldBack p = true := by
  have hleave : s.toLeave f = true := by simp [State.toLeave, hreplies, hbefore.ne']
  have hany : (s.inflight.any fun f => f.rid < p.rid && ordered f.kit p.kit f.rq p.rq && s.toLeave f) = true := by
    rw [List.any_eq_true]
    exact ⟨f, hf, by simp [hbefore, hordered, hleave]⟩
  simp [State.heldBack, hfirst, hran, hany]

theorem heldBack_of_free {s : State} {p : Reply}
    (h : ∀ f ∈ s.inflight, f.rid < p.rid → ordered f.kit p.kit f.rq p.rq = false) : s.heldBack p = false := by
  have hany : (s.inflight.any fun f => f.rid < p.rid && ordered f.kit p.kit f.rq p.rq && s.toLeave f) = false := by
    rw [List.any_eq_false]
    intro f hf
    by_cases hrid : f.rid < p.rid
    · simp [h f hf hrid]
    · simp [hrid]
  simp [State.heldBack, hany]

section
variable {s : State} {r : Ring} {slot : Nat} {p : Reply} (hreplies : s.replies = [p])
include hreplies

theorem nextReply_of_held (strict : Bool) (hheld : s.heldBack p = true) : s.nextReply r slot strict = none := by
  simp [State.nextReply, hreplies, hheld]

theorem nextReply_before_mark (hmark : p.mark ≠ 0) (hearly : slotReached p.mark (s.bar.beatno * 32 + slot) = false) :
    s.nextReply r slot false = none := by
  simp [State.nextReply, hreplies, hmark, State.slotNow, hearly]

theorem nextReply_before_release {b : Nat} (strict : Bool) (hrelease : p.release = some b) (hactive : s.gen.active = true)
    (hearly : reached b s.bar.beatno = false) : s.nextReply r slot strict = none := by
  cases strict <;> simp [State.nextReply, hreplies, hrelease, hactive, hearly]

variable (hvia : p.rq.via = .ring r) (hflits : p.flitsOut < p.before) (hheld : s.heldBack p = false)
include hvia hflits hheld

theorem nextReply_at_mark (hrelease : p.release = none)
    (hmark : slotReached p.mark (s.bar.beatno * 32 + slot) = true) : s.nextReply r slot false = some p := by
  simp [State.nextReply, hreplies, Reply.on, hvia, hflits, hheld, hrelease, State.slotNow, hmark]

theorem nextReply_at_release {b m : Nat} {k : Kit} (hrelease : p.release = some b)
    (hreached : reached b s.bar.beatno = true) (hkit : p.kit = some k) (hpos : posOf slot = some m)
    (howns : (s.kit k).replypos.getLsbD (m + (if r = .b then 8 else 0)) = true) :
    s.nextReply r slot true = some p := by
  have hring : (m + if ringIsB r = true then 8 else 0) = m + if r = .b then 8 else 0 := by cases r <;> rfl
  simp [State.nextReply, hreplies, Reply.on, hvia, hflits, hheld, hrelease, hreached, hkit, hpos, hring, howns]
end

theorem release_holds {s : State} {r : Ring} {slot : Nat} {strict : Bool} (h : s.nextReply r slot strict = none) :
    s.release r slot strict = s := by
  simp [State.release, h]

theorem release_sends {s : State} {r : Ring} {slot : Nat} {strict : Bool} {p : Reply} {n : BitVec 3}
    (hroom : s.replyRoom r slot = true) (hnext : s.nextReply r slot strict = some p)
    (hstream : s.streamOf r p.strm = some n) : s.release r slot strict = s.sendReply r slot p n := by
  simp [State.release, hroom, hnext, hstream]

/-! ### A flit of a reply leaves (05 R116, R130) -/

@[simp] theorem transmit_nodeId (x : RingSt) (at_ : Nat) (f : Flit) : (x.transmit at_ f).nodeId = x.nodeId := rfl
@[simp] theorem place_nodeId (x : RingSt) (at_ slot : Nat) (f : Flit) : (x.place at_ slot f).nodeId = x.nodeId := rfl

/-- The state with a reply's next flit in its slot: the REPLY record, and what stands in the Out slot. -/
theorem sendReply_changes (s : State) (r : Ring) (slot : Nat) (p : Reply) (n : BitVec 3) :
    ∃ tal evs x, x.nodeId = (s.ring r).nodeId ∧ s.sendReply r slot p n =
      if p.flits ≤ p.flitsOut + 1 then (({ s with tal := tal, evs := evs }).setRing r x).replyGone r p
      else { ({ s with tal := tal, evs := evs }).setRing r x with
        replies := updWhere (fun y => y.rid == p.rid) (fun y => { y with flitsOut := y.flitsOut + 1, strm := some n })
          s.replies } := by
  obtain ⟨tal, evs, htal⟩ : ∃ tal evs,
      (if p.flitsOut == 0 then s.tally 0x02 p.kit (s.replyArg p) else s) = { s with tal := tal, evs := evs } := by
    split
    · exact tallyAt_changes s s.bar.beatno 0x02 p.kit (s.replyArg p)
    · exact ⟨s.tal, s.evs, rfl⟩
  refine ⟨tal, evs, (({ s with tal := tal, evs := evs }).ring r).place (s.slotNow slot) slot
    ((({ s with tal := tal, evs := evs }).ring r).ownFlit 2 n p.flitsOut
      (packetBytes (({ s with tal := tal, evs := evs }).hdrFor p) (({ s with tal := tal, evs := evs }).bodyFor p))), ?_, ?_⟩
  · cases r <;> rfl
  · rw [State.sendReply, htal]
    cases r <;> rfl

/-- What a reply's flit leaves, and what the last one brings: its entry free, and its packet among those sent. -/
structure FlitLeaves (s : State) (r : Ring) (p : Reply) (n : BitVec 3) (t : State) : Prop where
  stores : SameStores s t
  kits : t.kits = s.kits
  more : p.flitsOut + 1 < p.flits → t.replies = [{ p with flitsOut := p.flitsOut + 1, strm := some n }] ∧
    t.sent = s.sent ∧ t.inflight = s.inflight ∧ t.redoSent = s.redoSent
  last : p.flitsOut + 1 = p.flits → t.replies = [] ∧ (∀ x, x ∈ t.inflight ↔ x ∈ s.inflight ∧ x.rid ≠ p.rid) ∧
    t.redoSent = (if p.early then min (s.redoSent + p.redo.length) (2 ^ 32 - 1) else s.redoSent) ∧
    ∃ k, t.sent = k :: s.sent ∧ k.payload = p.payload ∧ k.crc = crc32c (leBytes 16 k.hdr.toNat ++ p.payload) ∧
      k.hdr = replyHdr p.rq (s.ring r).nodeId (r == .b) p.early p.status.toNat p.cond.toNat p.detail.toNat p.len

theorem hdrFor_ring (s : State) {r : Ring} {p : Reply} (hvia : p.rq.via = .ring r) : s.hdrFor p =
    replyHdr p.rq (s.ring r).nodeId (r == .b) p.early p.status.toNat p.cond.toNat p.detail.toNat p.len := by
  simp [State.hdrFor, hvia, ringIsB_eq]

theorem bodyFor_of_no_trailer (s : State) {p : Reply} (h : p.trailer = false) : s.bodyFor p = p.payload := by
  simp [State.bodyFor, h]

theorem sendReply_leaves {s : State} {r : Ring} {p : Reply} (slot : Nat) (n : BitVec 3) (hreplies : s.replies = [p])
    (hvia : p.rq.via = .ring r) (htrailer : p.trailer = false) : FlitLeaves s r p n (s.sendReply r slot p n) := by
  obtain ⟨tal, evs, x, hnode, hsend⟩ := sendReply_changes s r slot p n
  rw [hsend]
  by_cases hlast : p.flits ≤ p.flitsOut + 1
  · rw [if_pos hlast]
    generalize hu : ({ s with tal := tal, evs := evs } : State).setRing r x = u
    have hring : u.ring r = x := by rw [← hu, ring_setRing]
    have hgone : u.replyGone r p = { u.dropReq p.rid with
        replies := u.replies.filter fun y => y.rid != p.rid,
        sent := ⟨.ring r, u.hdrFor p, p.payload, crc32c (leBytes 16 (u.hdrFor p).toNat ++ p.payload), u.bar.beatno⟩
          :: u.sent,
        redoSent := if p.early then up32 u.redoSent p.redo.length else u.redoSent } := by
      rw [State.replyGone, bodyFor_of_no_trailer u htrailer]
    have hsame : u.kits = s.kits ∧ u.sent = s.sent ∧ u.inflight = s.inflight ∧ u.redoSent = s.redoSent ∧
        u.replies = s.replies ∧ SameStores s u := by
      subst hu
      exact ⟨by simp, by simp, by simp, by simp, by simp, sameStores_of_eq (by simp) (by simp) (by simp)⟩
    obtain ⟨hkits, hsent, hinflight, hredo, hreps, hstores⟩ := hsame
    rw [hgone]
    refine ⟨hstores, hkits, fun hmore => absurd hmore (by omega), fun _ =>
      ⟨?_, fun y => ?_, ?_, _, congrArg (List.cons _) hsent, rfl, rfl, ?_⟩⟩
    · simp [hreps, hreplies]
    · simp [State.dropReq, hinflight]
    · simp only [hredo, up32, satAdd, Nat.min_comm]
      rfl
    · rw [hdrFor_ring u hvia, hring, hnode]
  · rw [if_neg hlast]
    refine ⟨sameStores_of_eq (by simp) (by simp) (by simp), by simp, fun _ => ⟨?_, by simp, by simp, by simp⟩,
      fun hall => absurd hall (by omega)⟩
    simp [updWhere, hreplies]

theorem before_of_no_trailer {p : Reply} (h : p.trailer = false) : p.before = p.flits := by simp [Reply.before, h]

theorem flits_eq (p : Reply) :
    p.flits = if p.early then (p.len + 36 + 72 * p.redo.length + 59) / 60 else flitsFor p.len := rfl

/-! ### EARLY_TRAILER (11 R301) -/

theorem sendTrailer_joins {s : State} {r : Ring} {p : Reply} (hreplies : s.replies = [p]) (hvia : p.rq.via = .ring r)
    (htrailer : p.trailer = true) (hleft : (16 + p.len) / 60 ≤ p.flitsOut) :
    s.sendTrailer r = { s with replies := [{ p with payload := p.payload ++ p.tail s.cond, trailer := false }] } := by
  simp [State.sendTrailer, hreplies, Reply.on, hvia, Reply.before, htrailer, hleft, updWhere, State.bodyFor]

theorem sendTrailer_waits {s : State} {r : Ring} {p : Reply} (hreplies : s.replies = [p]) (htrailer : p.trailer = true)
    (hleft : p.flitsOut < (16 + p.len) / 60) : s.sendTrailer r = s := by
  simp [State.sendTrailer, hreplies, Reply.before, htrailer, hleft]

/-! ### The statement -/

/-- Settles O28: which reply a slot takes is `nextReply`, one lemma per condition; what its flit leaves is
`sendReply_leaves`. -/
theorem repliesLeave : Obligations.RepliesLeave := by
  unfold Obligations.RepliesLeave
  refine ⟨fun s r slot p n hslot hreplies hvia htrailer hstream => ?replies,
    fun s r p hreplies hvia htrailer =>
      ⟨fun hleft => congrArg Host.Outcome.next (sendTrailer_joins hreplies hvia htrailer hleft),
       fun hleft => congrArg Host.Outcome.next (sendTrailer_waits hreplies htrailer hleft)⟩⟩
  intro all hall now out free
  have hbefore : p.flitsOut < p.before := by rwa [before_of_no_trailer htrailer, flits_eq]
  have hleaves (strict : Bool) (hnext : s.nextReply r slot.toNat strict = some p) :
      FlitLeaves s r p n (s.release r slot.toNat strict) := by
    rw [release_sends (replyRoom_of_slot hslot) hnext hstream]
    exact sendReply_leaves slot.toNat n hreplies hvia htrailer
  refine ⟨fun hrelease hmark hfree => ?atMark, fun f hf hrid hordered hfirst hran => ?heldBack,
    fun hmark hearly =>
      congrArg Host.Outcome.next (release_holds (nextReply_before_mark hreplies hmark hearly)),
    fun b k m hrelease hreached hkit hpos hfree howns => ?atRelease,
    fun b hrelease hactive hearly =>
      ⟨congrArg Host.Outcome.next (release_holds (nextReply_before_release hreplies true hrelease hactive hearly)),
       congrArg Host.Outcome.next (release_holds (nextReply_before_release hreplies false hrelease hactive hearly))⟩⟩
  case atMark =>
    obtain ⟨hstores, hkits, hmore, hlast⟩ := hleaves false
      (nextReply_at_mark hreplies hvia hbefore (heldBack_of_free hfree) hrelease hmark)
    exact ⟨_, rfl, hstores, hkits, hmore, hlast⟩
  case heldBack =>
    have hheld := heldBack_of_ordered hreplies hf hrid hordered hfirst hran
    exact ⟨congrArg Host.Outcome.next (release_holds (nextReply_of_held hreplies false hheld)),
      congrArg Host.Outcome.next (release_holds (nextReply_of_held hreplies true hheld))⟩
  case atRelease =>
    obtain ⟨hstores, hkits, hmore, hlast⟩ := hleaves true
      (nextReply_at_release hreplies hvia hbefore (heldBack_of_free hfree) hrelease hreached hkit hpos howns)
    exact ⟨_, rfl, hstores, hkits, hmore, hlast⟩

end Sys2Proof.Machine

/-! PROOFS. Packets of the device leave (05 R115, R123; 06 R159), and the PUSHes of its engines (12 R319, R320). -/

namespace Sys2Proof.Machine

/-! ### The slot (05 R113, R123) -/

theorem reqRoom_of_general {s : State} {r : Ring} {slot : BitVec 5} (h : GeneralSlot s r slot) :
    s.reqRoom r slot.toNat = true := by
  obtain ⟨hopen, htwo, hfour, hronly⟩ := h
  have hclass : (s.ring r).reqSlot (s.slotNow slot.toNat) slot.toNat = true := by
    simp [RingSt.reqSlot, replyOnly, htwo, hfour, State.slotNow, hronly]
  simp [State.reqRoom, mayPlace_of_open hopen, hclass, hopen.2.2.2.2.2.2.2]

theorem reqRoom_of_reserved {s : State} {r : Ring} {slot : BitVec 5}
    (h : slot = 0 ∨ slot.toNat % 8 = 2 ∨ slot.toNat % 8 = 4) : s.reqRoom r slot.toNat = false := by
  rcases h with rfl | h | h <;> simp [State.reqRoom, RingSt.mayPlace, RingSt.reqSlot, replyOnly, *]

theorem injectReq_of_no_room {s : State} {r : Ring} {slot : Nat} (h : s.reqRoom r slot = false) :
    s.injectReq r slot = s := by
  simp [State.injectReq, h]

/-! ### The packet that goes next (12 R320) -/

theorem takeFirst_cons_of_pos {α : Type} {p : α → Bool} {x : α} (xs : List α) (h : p x = true) :
    takeFirst p (x :: xs) = some (x, xs) := by simp [takeFirst, h]

theorem takeFirst_of_none {α : Type} {p : α → Bool} {l : List α} (h : ∀ x ∈ l, p x = false) : takeFirst p l = none := by
  induction l with
  | nil => rfl
  | cons x xs ih =>
    rw [takeFirst, h x (List.mem_cons_self ..), ih fun y hy => h y (List.mem_cons_of_mem _ hy)]
    rfl

/-- The one packet that waits goes next, whether it is a PUSH or not. -/
theorem nextDev_of_one {s : State} {r : Ring} {p : DevPkt} {rest : List DevPkt} (hdevq : s.devq = p :: rest)
    (hrest : ∀ q ∈ rest, q.waiting = false) (hwaits : p.waiting = true) (hring : p.ring = r) (hfirst : p.flitsOut = 0)
    (hbeat : reached p.notBefore s.bar.beatno = true) : s.nextDev r = some (p, rest) := by
  have hbegun (f : DevPkt → Bool) : takeFirst (fun q =>
      q.waiting && q.ring == r && reached q.notBefore s.bar.beatno && f q && q.flitsOut != 0) (p :: rest) = none := by
    refine takeFirst_of_none fun q hq => ?_
    rcases List.mem_cons.mp hq with rfl | hq
    · simp [hfirst]
    · simp [hrest q hq]
  unfold State.nextDev
  extract_lets mine push
  rw [hdevq, hbegun fun q => !push q, hbegun push]
  by_cases hpush : push p = true
  · have hnone : takeFirst (fun q => mine q && !push q) (p :: rest) = none := by
      refine takeFirst_of_none fun q hq => ?_
      rcases List.mem_cons.mp hq with rfl | hq
      · simp [hpush]
      · simp [mine, hrest q hq]
    rw [hnone, takeFirst_cons_of_pos rest (by simp [mine, hwaits, hring, hbeat, hpush])]
    rfl
  · rw [takeFirst_cons_of_pos rest (by simp [mine, hwaits, hring, hbeat, hpush])]
    rfl

theorem reached_self (b : Nat) : reached b b = true := by
  have hd : (b + Config.beatWrap - b % Config.beatWrap) % Config.beatWrap = 0 := by
    simp only [Config.beatWrap]
    omega
  simp [reached, hd]

theorem findSome_finRange {n : Nat} {β : Type} {f : Fin n → Option β} {e : Fin n} {b : β} (he : f e = some b)
    (hlower : ∀ o, o < e → f o = none) : (List.finRange n).findSome? f = some b := by
  rw [List.findSome?_eq_some_iff]
  refine ⟨(List.finRange n).take e, e, (List.finRange n).drop (e + 1), ?_, he, fun o ho => hlower o ?_⟩
  · have hsplit := List.take_append_drop e.val (List.finRange n)
    rw [List.drop_eq_getElem_cons (by simp)] at hsplit
    simpa using hsplit.symm
  · obtain ⟨i, hi, rfl⟩ := List.mem_take_iff_getElem.mp ho
    simp only [List.length_finRange, lt_min_iff] at hi
    simpa [Fin.lt_def] using hi.1

/-- The PUSH of the lowest engine that has one is ready once its data is read (12 R320). -/
theorem readyPush_of_lowest {s : State} {r : Ring} {e : Engine} {p : PushPkt} {rest : List PushPkt}
    (hfifo : (s.eng e).fifo = p :: rest) (hring : p.ring = r) (hneed : p.need = 0) (hready : p.ready = some s.bar.beatno)
    (hlower : ∀ o, o < e → (s.eng o).fifo = []) : s.readyPush r = some (e, p) := by
  refine findSome_finRange (e := e) ?_ fun o ho => ?_
  · simp [hfifo, hring, hneed, hready, reached_self]
  · simp [hlower o ho]

/-! ### A packet begins (05 R115, R116; 06 R159) -/

/-- The header of a device packet that its destination's first SEQ numbers (06 R159). -/
def State.firstHdr (s : State) (p : DevPkt) : BitVec 128 :=
  hdrNat p.opc.toNat p.ktag.toNat false false false false (s.ring p.ring).nodeId.toNat (p.ring == .b) 0 p.dest.toNat 0
    p.payload.length p.param.toNat

/-- The first flit of a packet, the first to its destination, has left in stream `n`; `rest` waits behind it. -/
structure PacketBegins (s : State) (p : DevPkt) (rest : List DevPkt) (n : BitVec 3) (t : State) : Prop where
  stores : SameStores s t
  engs : t.engs = s.engs
  inflight : t.inflight = s.inflight
  devSeq : t.devSeq = [(p.ring, p.dest, 1)]
  flit : ∃ fl, (t.ring p.ring).lastTx = some fl ∧ fl.cls = 1 ∧ fl.first = true ∧ fl.src = (s.ring p.ring).nodeId ∧
    fl.stream = n ∧ fl.content = (packetBytes (s.firstHdr p) p.payload).take 60
  more : 1 < flitsFor p.payload.length → t.sent = s.sent ∧
    t.devq = { p with seq := 0, flitsOut := 1, strm := some n } :: rest
  last : flitsFor p.payload.length = 1 →
    t.sent = ⟨.ring p.ring, s.firstHdr p, p.payload, crc32c (leBytes 16 (s.firstHdr p).toNat ++ p.payload), s.bar.beatno⟩
      :: s.sent ∧
    t.devq = rest ++ [{ p with seq := 0, waiting := false, tries := 1, flitsOut := 0, strm := none }]

/-- The state once a first packet to its destination has its number (06 R159). -/
def State.numbered (s : State) (p : DevPkt) : State := { s with devSeq := [(p.ring, p.dest, 1)] }

theorem begin_first {s : State} {p : DevPkt} (htries : p.tries = 0) (halert : p.alertOf = none) (hseq : s.devSeq = []) :
    s.begin_ p = ({ p with seq := 0 }, s.numbered p) := by
  simp [State.begin_, htries, halert, State.takeSeq, hseq, State.numbered]

/-- The state with the first flit of a packet in its slot. -/
def State.firstPlaced (s : State) (slot : Nat) (p : DevPkt) (n : BitVec 3) : State :=
  (s.numbered p).setRing p.ring ((s.ring p.ring).place (s.slotNow slot) slot
    ((s.ring p.ring).ownFlit 1 n 0 (packetBytes (s.firstHdr p) p.payload)))

theorem emit_first {s : State} (slot : Nat) {p : DevPkt} (rest : List DevPkt) (n : BitVec 3) (htries : p.tries = 0)
    (hfirst : p.flitsOut = 0) (halert : p.alertOf = none) (hseq : s.devSeq = []) :
    s.emit slot p rest n =
      if flitsFor p.payload.length ≤ 1 then
        { s.firstPlaced slot p n with
          sent := ⟨.ring p.ring, s.firstHdr p, p.payload, crc32c (leBytes 16 (s.firstHdr p).toNat ++ p.payload),
            s.bar.beatno⟩ :: s.sent,
          devq := rest ++ [{ p with seq := 0, waiting := false, tries := 1, flitsOut := 0, strm := none }] }
      else { s.firstPlaced slot p n with devq := { p with seq := 0, flitsOut := 1, strm := some n } :: rest } := by
  have hbegin : (if p.flitsOut == 0 then s.begin_ p else (p, s)) = ({ p with seq := 0 }, s.numbered p) :=
    (if_pos (by rw [hfirst]; rfl)).trans (begin_first htries halert hseq)
  unfold State.emit
  rw [hbegin]
  obtain ⟨opc, ktag, ring, dest, seq, param, payload, tries, notBefore, engine, sid, waiting, flitsOut, strm, alertOf⟩ := p
  subst htries hfirst
  cases ring <;> rfl

theorem place_lastTx (x : RingSt) (at_ slot : Nat) {f : Flit} (h : f.blank = false) :
    (x.place at_ slot f).lastTx = some (withCrc { f with ronly := x.ronlyAt at_ slot }) := by
  simp [RingSt.place, RingSt.transmit, h]

theorem emit_begins {s : State} (slot : Nat) {p : DevPkt} (rest : List DevPkt) (n : BitVec 3) (htries : p.tries = 0)
    (hfirst : p.flitsOut = 0) (halert : p.alertOf = none) (hseq : s.devSeq = []) :
    PacketBegins s p rest n (s.emit slot p rest n) := by
  have hplaced : ((s.firstPlaced slot p n).ring p.ring).lastTx = _ :=
    (congrArg RingSt.lastTx (ring_setRing _ _ _)).trans (place_lastTx _ _ _ rfl)
  have hstores : SameStores s (s.firstPlaced slot p n) := by
    cases hring : p.ring <;> simp [State.firstPlaced, hring] <;> exact sameStores_of_eq rfl rfl rfl
  have hengs : (s.firstPlaced slot p n).engs = s.engs := setRing_engs _ _ _
  have hinflight : (s.firstPlaced slot p n).inflight = s.inflight := setRing_inflight _ _ _
  have hdevSeq : (s.firstPlaced slot p n).devSeq = [(p.ring, p.dest, 1)] := setRing_devSeq _ _ _
  have hsent : (s.firstPlaced slot p n).sent = s.sent := setRing_sent _ _ _
  rw [emit_first slot rest n htries hfirst halert hseq]
  split
  · refine ⟨hstores, hengs, hinflight, hdevSeq, ⟨_, Eq.trans ?_ hplaced, rfl, rfl, rfl, rfl, rfl⟩,
      fun hmore => absurd hmore (by omega), fun _ => ⟨rfl, rfl⟩⟩
    cases p.ring <;> rfl
  · refine ⟨hstores, hengs, hinflight, hdevSeq, ⟨_, Eq.trans ?_ hplaced, rfl, rfl, rfl, rfl, rfl⟩,
      fun _ => ⟨hsent, rfl⟩, fun hlast => absurd hlast (by omega)⟩
    cases p.ring <;> rfl

/-! ### PUSH_INJECT (05 R123) -/

theorem no_nextReply {s : State} (r : Ring) (slot : Nat) (strict : Bool) (h : s.replies = []) :
    s.nextReply r slot strict = none := by
  simp [State.nextReply, h]

theorem injectReq_device {s : State} {r : Ring} {slot : Nat} {p : DevPkt} {rest : List DevPkt} {n : BitVec 3}
    (hroom : s.reqRoom r slot = true) (hreplies : s.replies = []) (hnext : s.nextDev r = some (p, rest))
    (hstream : s.streamOf r p.strm = some n) : s.injectReq r slot = s.emit slot p rest n := by
  simp [State.injectReq, hroom, no_nextReply r slot _ hreplies, hnext, hstream]

theorem injectReq_push {s : State} {r : Ring} {slot : Nat} {e : Engine} {p : PushPkt} {n : BitVec 3}
    (hroom : s.reqRoom r slot = true) (hreplies : s.replies = []) (hdevq : s.devq = [])
    (hready : s.readyPush r = some (e, p)) (hstream : s.freeStream r = some n) :
    s.injectReq r slot = (s.takePush r e p).2.emit slot (s.takePush r e p).1 [] n := by
  have hnext : s.nextDev r = none := by simp [State.nextDev, hdevq, takeFirst]
  have hstays : (s.takePush r e p).2.devq = [] := hdevq
  simp [State.injectReq, hroom, no_nextReply r slot _ hreplies, hnext, hready, hstream, hstays]

section
variable (s : State) (r : Ring) (e : Engine) (p : PushPkt)

theorem takePush_hdr : (s.takePush r e p).2.firstHdr (s.takePush r e p).1 =
    hdrNat 0x72 (s.eng e).kit.val false false false false (s.ring r).nodeId.toNat (r == .b) 0 p.node.toNat 0 p.data.length
      (p.param e).toNat := by
  have hkit : (BitVec.ofNat 4 (s.eng e).kit.val).toNat = (s.eng e).kit.val := by
    rw [BitVec.toNat_ofNat]
    exact Nat.mod_eq_of_lt (s.eng e).kit.isLt
  have hring : (s.takePush r e p).2.ring r = s.ring r := by cases r <;> rfl
  rw [← hkit, ← hring]
  rfl

theorem takePush_eng : (s.takePush r e p).2.eng e =
    { s.eng e with fifo := (s.eng e).fifo.drop 1, pushes := up32 (s.eng e).pushes 1 } := eng_setEng s e _

theorem takePush_eng_other {o : Engine} (h : o ≠ e) : (s.takePush r e p).2.eng o = s.eng o :=
  eng_setEng_of_ne s e o _ h.symm
end

theorem flitsFor_pos (n : Nat) : 1 ≤ flitsFor n := by
  unfold flitsFor ceilDiv
  omega

/-! ### The statement -/

/-- Settles O24: which packet a general slot takes is `nextDev_of_one`, or `readyPush_of_lowest` with none waiting; how it
begins is `emit_begins`. -/
theorem pushInject : Obligations.PushInject := by
  unfold Obligations.PushInject
  refine fun s r slot n hfree => ⟨fun p rest hslot hreplies hdevq hrest hwaits hring htries hfirst hstrm halert hbeat hseq =>
    ?device, fun e p rest hslot hreplies hdevq hfifo hring hneed hready hlower hseq => ?push,
    fun h => congrArg Host.Outcome.next (injectReq_of_no_room (reqRoom_of_reserved h))⟩
  case device =>
    have hstream : s.streamOf r p.strm = some n := by simp [State.streamOf, hstrm, hfree]
    have hinject := injectReq_device (reqRoom_of_general hslot) hreplies
      (nextDev_of_one hdevq hrest hwaits hring hfirst hbeat) hstream
    obtain ⟨hstores, hengs, hinflight, hdevSeq, hflit, hmore, hlast⟩ :=
      emit_begins slot.toNat rest n htries hfirst halert hseq
    subst hring
    obtain ⟨fl, htx, hcls, hfl, hsrc, hfs, hcontent⟩ := hflit
    intro hdr
    refine ⟨_, fl, congrArg Host.Outcome.next hinject, htx, hcls, hfl, hsrc, hfs, hcontent, hdevSeq, hengs, hinflight,
      hstores, hmore, fun hone => ?_⟩
    obtain ⟨hsent, hqueue⟩ := hlast hone
    exact ⟨by rw [hqueue, hfirst, hstrm], _, hsent, rfl, rfl, rfl, rfl⟩
  case push =>
    have hinject := injectReq_push (reqRoom_of_general hslot) hreplies hdevq
      (readyPush_of_lowest hfifo hring hneed hready hlower) hfree
    obtain ⟨hstores, hengs, -, -, -, hmore, hlast⟩ :=
      emit_begins (s := (s.takePush r e p).2) (p := (s.takePush r e p).1) slot.toNat [] n rfl rfl rfl hseq
    have hengs (o : Engine) : ((s.takePush r e p).2.emit slot.toNat (s.takePush r e p).1 [] n).eng o =
        (s.takePush r e p).2.eng o := congrArg (fun engs : Vector EngSt 8 => engs[o]) hengs
    have htaken := (hengs e).trans (takePush_eng s r e p)
    have hfifo := (congrArg EngSt.fifo htaken).trans (congrArg (List.drop 1) hfifo)
    have hpushes := (congrArg EngSt.pushes htaken).trans (Nat.min_comm _ _)
    have hothers (o : Engine) (ho : o ≠ e) := (hengs o).trans (takePush_eng_other s r e p ho)
    rcases (flitsFor_pos p.data.length).eq_or_lt with hone | hlong
    · obtain ⟨hsent, hqueue⟩ := hlast hone.symm
      exact ⟨_, _, congrArg Host.Outcome.next hinject, hqueue, rfl, rfl, rfl, rfl, rfl, rfl, rfl,
        fun h => absurd h (by omega), fun _ => ⟨rfl, _, hsent, rfl, takePush_hdr s r e p⟩, hfifo, hpushes, hothers, hstores⟩
    · obtain ⟨hsent, hqueue⟩ := hmore hlong
      exact ⟨_, _, congrArg Host.Outcome.next hinject, hqueue, rfl, rfl, rfl, rfl, rfl, rfl, rfl,
        fun _ => ⟨rfl, rfl, rfl, hsent⟩, fun h => absurd h (by omega), hfifo, hpushes, hothers, hstores⟩

end Sys2Proof.Machine

/-! PROOFS. Headers are judged (05 R129), streams time out (06 R144) and packets are complete (06 R143, R145). -/

namespace Sys2Proof.Machine

/-! ### What a ring interface does not touch -/

@[simp] theorem setRing_kitOf (s : State) (r : Ring) (x : RingSt) (rq : Req) : (s.setRing r x).kitOf rq = s.kitOf rq := by
  cases r <;> rfl

@[simp] theorem setRing_refusal (s : State) (r : Ring) (x : RingSt) (kit : Option Kit) (rq : Req) (b : Nat) :
    (s.setRing r x).refusal kit rq b = s.refusal kit rq b := by cases r <;> rfl

@[simp] theorem setRing_streamAt (s : State) (r q : Ring) (x : RingSt) (src : Node) (n : BitVec 3) (full : Bool) :
    (s.setRing r x).streamAt q src n full = s.streamAt q src n full := by cases r <;> rfl

@[simp] theorem setRing_openStream (s : State) (r q : Ring) (x : RingSt) (src : Node) (n : BitVec 3) :
    (s.setRing r x).openStream q src n = s.openStream q src n := setRing_streamAt ..

@[simp] theorem setRing_kit (s : State) (r : Ring) (x : RingSt) (k : Kit) : (s.setRing r x).kit k = s.kit k := by
  cases r <;> rfl

@[simp] theorem setRing_entryFor (s : State) (r : Ring) (x : RingSt) (rq : Req) (kit : Option Kit) (n : BitVec 3)
    (beat slot delay : Nat) (stage : Stage) (bytes : List Byte) :
    (s.setRing r x).entryFor rq kit n beat slot delay stage bytes = s.entryFor rq kit n beat slot delay stage bytes := by
  cases r <;> rfl

@[simp] theorem setRing_setRing (s : State) (r : Ring) (x y : RingSt) : (s.setRing r x).setRing r y = s.setRing r y := by
  cases r <;> rfl

theorem setRing_stores (s : State) (r : Ring) (x : RingSt) : SameStores s (s.setRing r x) :=
  sameStores_of_eq (by simp) (by simp) (by simp)

/-! ### HEADER_ADMISSION (05 R129) -/

theorem cutStream_of_none {s : State} {r : Ring} {src : Node} {n : BitVec 3} (h : s.openStream r src n = none) :
    s.cutStream r src n = s := by
  simp [State.cutStream, h]

theorem filter_refusedStreams {x : RingSt} (p : Node × BitVec 3 → Bool) (h : x.refusedStreams = []) :
    { x with refusedStreams := x.refusedStreams.filter p } = x := by
  cases x
  cases h
  rfl

@[simp] theorem setRing_self (s : State) (r : Ring) : s.setRing r (s.ring r) = s := by cases r <;> rfl

/-- A header that cuts no stream short, of a stream that was not refused, is judged by the counts alone. -/
theorem admitHeader_judges {s : State} {r : Ring} {f : Flit} {rq : Req} (slot b : Nat)
    (hopen : s.openStream r f.src f.stream = none) (hrefused : (s.ring r).refusedStreams = [])
    (hrq : reqOfBytes f.content (.ring r) f.src = rq) :
    (∀ why, s.refusal (s.kitOf rq) rq b = some why → s.admitHeader r slot b f =
      (s.setRing r { (s.ring r).sendOn f with
        refusedStreams := (s.ring r).refusedStreams ++ [(f.src, f.stream)] }).refuseHeader r rq why) ∧
    (s.refusal (s.kitOf rq) rq b = none → rq.len.toNat ≤ 4096 →
      s.admitHeader r slot b f = s.admitReq rq (s.kitOf rq) f.stream b slot 2 .streaming f.content) := by
  unfold State.admitHeader
  extract_lets s0 x s1 q kit x1 sent s2
  have hs0 : s0 = s := cutStream_of_none hopen
  have hs1 : s1 = s := by
    simp only [s1, x, hs0]
    rw [filter_refusedStreams _ hrefused, setRing_self]
  simp only [s2, sent, x1, kit, q, hs1, hrq]
  refine ⟨fun why hwhy => ?_, fun hroom hlen => ?_⟩
  · simp only [hwhy]
    rfl
  · simp only [hroom]
    exact if_neg (by simpa [lenOf] using hlen)

/-- The ring once the oldest header that waits is taken to be judged. -/
def RingSt.headTaken (x : RingSt) : RingSt := { x with heads := x.heads.drop 1 }

theorem admitNext_head {s : State} {r : Ring} {slot b : Nat} {f : Flit} {rest : List (Nat × Nat × Flit)}
    (hheads : (s.ring r).heads = (slot, b, f) :: rest) :
    s.admitNext r = (s.setRing r (s.ring r).headTaken).admitHeader r slot b f := by
  simp only [State.admitNext, RingSt.headTaken, hheads]
  rfl

theorem headTaken_heads {x : RingSt} {h : Nat × Nat × Flit} {rest : List (Nat × Nat × Flit)} (hheads : x.heads = h :: rest) :
    x.headTaken.heads = rest := by
  rw [RingSt.headTaken, hheads, List.drop_one, List.tail_cons]

theorem sendOn_keeps (x : RingSt) (f : Flit) : (x.sendOn f).heads = x.heads ∧ (x.sendOn f).refusedCt = x.refusedCt := by
  unfold RingSt.sendOn
  extract_lets g
  split <;> exact ⟨rfl, rfl⟩

section
variable {s : State} {r : Ring} {slot b : Nat} {f : Flit} {rest : List (Nat × Nat × Flit)} {rq : Req}
  (hheads : (s.ring r).heads = (slot, b, f) :: rest) (hopen : s.openStream r f.src f.stream = none)
  (hrefused : (s.ring r).refusedStreams = []) (hrq : reqOfBytes f.content (.ring r) f.src = rq)
include hheads hopen hrefused hrq

theorem admitNext_refuses {why : Nat} (hwhy : s.refusal (s.kitOf rq) rq b = some why) :
    (s.admitNext r).inflight = s.inflight ∧ (s.admitNext r).kits = s.kits ∧ (s.admitNext r).nextRid = s.nextRid ∧
      ((s.admitNext r).ring r).heads = rest ∧ ((s.admitNext r).ring r).refusedStreams = [(f.src, f.stream)] ∧
      ((s.admitNext r).ring r).refusedCt = min ((s.ring r).refusedCt + 1) 65535 ∧
      (s.admitNext r).replies = s.replies ∧ SameStores s (s.admitNext r) := by
  have hjudge := (admitHeader_judges (s := s.setRing r (s.ring r).headTaken) slot b (by simpa using hopen)
    (by rwa [ring_setRing]) hrq).1 why (by simpa using hwhy)
  obtain ⟨hkept, hcount⟩ := sendOn_keeps (s.ring r).headTaken f
  rw [ring_setRing, setRing_setRing] at hjudge
  rw [admitNext_head hheads, hjudge, refuseHeader_ring, ring_setRing]
  exact ⟨by simp, by simp, by simp, hkept.trans (headTaken_heads hheads),
    congrArg (· ++ [(f.src, f.stream)]) hrefused, congrArg (fun n => min (n + 1) 65535) hcount, by simp,
    sameStores_trans (setRing_stores _ _ _) (refuseHeader_stores _ _ _ _)⟩

theorem admitNext_admits (hroom : s.refusal (s.kitOf rq) rq b = none) (hlen : rq.len.toNat ≤ 4096) :
    Admitted (s.setRing r (s.ring r).headTaken) rq (s.kitOf rq)
      (s.entryFor rq (s.kitOf rq) f.stream b slot 2 .streaming f.content) (s.admitNext r) := by
  have hjudge := (admitHeader_judges (s := s.setRing r (s.ring r).headTaken) slot b (by simpa using hopen)
    (by rwa [ring_setRing]) hrq).2 (by simpa using hroom) hlen
  rw [admitNext_head hheads, hjudge, setRing_kitOf, ← setRing_entryFor s r (s.ring r).headTaken]
  exact admitReq_admits ..
end

/-! ### STREAM_TIMEOUT and PACKET_COMPLETE (06 R143 to R145) -/

theorem streamAt_streaming {s : State} {r : Ring} {src : Node} {n : BitVec 3} {full : Bool} {f : InFlight}
    (h : s.streamAt r src n full = some f) : f ∈ s.inflight ∧ f.stage = .streaming ∧ f.rq.via = .ring r := by
  have hp := List.find?_some h
  simp only [Bool.and_eq_true, beq_iff_eq] at hp
  obtain ⟨⟨⟨⟨hstage, hvia⟩, -⟩, -⟩, -⟩ := hp
  exact ⟨List.mem_of_find?_eq_some h, hstage, hvia⟩

theorem awaits_of_streaming {s : State} {f : InFlight} (hf : f ∈ s.inflight) (hstage : f.stage = .streaming) :
    s.awaits f.rid = true := by
  rw [State.awaits, List.any_eq_true]
  exact ⟨f, hf, by simp [hstage]⟩

/-- A packet whose end-to-end check fails: counted, and answered at once (06 R145). -/
theorem crcFail_answers {s : State} {f : InFlight} (cause : Nat) (hf : f ∈ s.inflight) (hstage : f.stage = .streaming) :
    Replied s (s.crcFail f cause) f.rid f.rq 0x33 (cause + 256 * f.flits) [] ∧ SameStores s (s.crcFail f cause) ∧
      (s.crcFail f cause).pages = s.pages ∧ (s.crcFail f cause).gen.e2eFail = min (s.gen.e2eFail + 1) (2 ^ 32 - 1) := by
  have hreplied := turnDown_replied { s with gen := { s.gen with e2eFail := up32 s.gen.e2eFail 1 } } f.rid f.rq f.kit
    (ans 0x33 (cause + 256 * f.flits)) (.inl (awaits_of_streaming (s := s) hf hstage))
  refine ⟨hreplied.since rfl,
    sameStores_trans (sameStores_of_eq rfl rfl rfl) (turnDown_countsOnly _ _ _ _ _).stores,
    (turnDown_countsOnly _ _ _ _ _).pages, ?_⟩
  rw [State.crcFail, turnDown_gen, Nat.min_comm]
  rfl

theorem streamLate_due {s : State} {r : Ring} {src : Node} {n : BitVec 3} {f : InFlight}
    (hopen : s.openStream r src n = some f) (htraffic : s.mode.traffic = true) (hcal : s.calMore 4 = true)
    (hlate : 4 ≤ elapsed f.lastFlit s.bar.beatno) : s.streamLate r src n = (s.calRan 4).crcFail f 3 := by
  simp [State.streamLate, hopen, htraffic, hcal, hlate]

theorem streamLate_early {s : State} {r : Ring} {src : Node} {n : BitVec 3} {f : InFlight}
    (hopen : s.openStream r src n = some f) (h : elapsed f.lastFlit s.bar.beatno < 4 ∨ s.mode.traffic = false) :
    s.streamLate r src n = s := by
  rcases h with h | h <;> simp [State.streamLate, hopen, h]

section
variable {s : State} {r : Ring} {src : Node} {n : BitVec 3} {f : InFlight}
  (hfull : s.streamAt r src n true = some f)
include hfull

theorem packetDone_badCrc (hcrc : f.crcOk = false) : s.packetDone r src n = s.crcFail f 1 := by
  simp [State.packetDone, hfull, hcrc]

theorem packetDone_checked {a : Answer} (hcrc : f.crcOk = true) (hcheck : s.check f.admBeat f.kit f.whole = some a) :
    s.packetDone r src n = s.turnDown f.rid f.whole f.kit a := by
  simp [State.packetDone, hfull, hcrc, hcheck]

/-- A packet that passes waits at its input port, if that has room (05 R133). -/
theorem packetDone_passes (hcrc : f.crcOk = true) (hcheck : s.check f.admBeat f.kit f.whole = none) :
    s.packetDone r src n = if s.queued (viaPort (.ring r)).val < 64 then s.ready f.rid f.whole else s := by
  simp [State.packetDone, hfull, hcrc, hcheck, (streamAt_streaming hfull).2.2]
end

theorem ready_inflight (s : State) (rid : Nat) (rq : Req) : (s.ready rid rq).inflight =
    s.inflight.map fun x => if x.rid = rid then { x with rq := rq, stage := .ready } else x := by
  simp [State.ready, State.noteQueue, State.updReq, updWhere]

theorem ready_stores (s : State) (rid : Nat) (rq : Req) : SameStores s (s.ready rid rq) :=
  (CountsOnly.trans (updReq_countsOnly s rid _) (noteQueue_countsOnly _ rq.via)).stores

/-! ### The statement -/

/-- Settles O27: a header is judged by `admitHeader_judges`; a stream that is short, or whose CRC is bad, fails by
`crcFail_answers`; one that passes becomes ready, and one that a check fails is turned down. -/
theorem streamsAndPackets : Obligations.StreamsAndPackets := by
  unfold Obligations.StreamsAndPackets
  refine ⟨fun s r slot b f rest hheads hopen hrefused => ?header, fun s r src n f => ?streams⟩
  case header =>
    intro rq
    refine ⟨fun hroom hlen => ?_, fun why hwhy =>
      ⟨_, rfl, admitNext_refuses hheads hopen hrefused rfl hwhy⟩⟩
    have h := admitNext_admits hheads hopen hrefused rfl hroom hlen
    refine ⟨_, _, rfl, h.inflight.trans (congrArg (· ++ [_]) (setRing_inflight ..)), rfl, rfl, rfl, rfl, rfl, rfl, rfl,
      rfl, rfl, rfl, h.nextRid.trans (by rw [setRing_nextRid]), ?_, fun k hk => (h.taken k hk).trans (by rw [setRing_kit]),
      h.replies.trans (setRing_replies ..), sameStores_trans (setRing_stores ..) h.stores⟩
    rw [h.rings, ring_setRing, headTaken_heads hheads]
  case streams =>
    intro failed whole
    refine ⟨fun hopen => ⟨fun htraffic hcal hlate => ?late, fun h => congrArg Host.Outcome.next (streamLate_early hopen h)⟩,
      fun hfull => ?complete, fun hnone => congrArg Host.Outcome.next (by simp [State.packetDone, hnone])⟩
    case late =>
      obtain ⟨hf, hstage, -⟩ := streamAt_streaming hopen
      obtain ⟨hreplied, hstores, hpages, hcount⟩ := crcFail_answers (s := s.calRan 4) 3 hf hstage
      exact ⟨_, congrArg Host.Outcome.next (streamLate_due hopen htraffic hcal hlate), hreplied.since rfl, hstores, hpages,
        hcount⟩
    case complete =>
      obtain ⟨hf, hstage, -⟩ := streamAt_streaming hfull
      refine ⟨fun hcrc => ⟨_, congrArg Host.Outcome.next (packetDone_badCrc hfull hcrc), crcFail_answers 1 hf hstage⟩,
        fun hcrc hcheck hroom => ⟨_, congrArg Host.Outcome.next
          ((packetDone_passes hfull hcrc hcheck).trans (if_pos hroom)), rfl, ready_stores _ _ _, ready_inflight _ _ _⟩,
        fun hcrc hcheck hroom => congrArg Host.Outcome.next
          ((packetDone_passes hfull hcrc hcheck).trans (if_neg (by omega))),
        fun a hcrc hcheck => ⟨_, congrArg Host.Outcome.next (packetDone_checked hfull hcrc hcheck),
          (turnDown_countsOnly _ _ _ _ _).stores, (turnDown_countsOnly _ _ _ _ _).pages,
          turnDown_replied _ _ _ _ _ (.inl (awaits_of_streaming hf hstage))⟩⟩

end Sys2Proof.Machine

/-! PROOFS. A slot passes (05 R123), and what a flit does at the device (05 R112 to R122): streams, headers, hop retry. -/

namespace Sys2Proof.Machine

/-! ### A slot passes (05 R123) -/

/-- The 4-slot forwarding pipeline once a flit has entered it. -/
def RingSt.entered (x : RingSt) (into : Flit) : List Flit :=
  (if x.pipe.length < 4 then x.pipe else x.pipe.drop 1) ++ [into]

theorem entered_eq (x : RingSt) (into : Flit) :
    (if 4 < (x.pipe ++ [into]).length then (x.pipe ++ [into]).drop 1 else x.pipe ++ [into]) = x.entered into := by
  unfold RingSt.entered
  rw [List.length_append, List.length_singleton]
  by_cases h : x.pipe.length < 4
  · rw [if_neg (by omega), if_pos h]
  · rw [if_pos (by omega), if_neg h, List.drop_append_of_le_length (by omega)]

/-- No held flit waits at the head of the through-queue to go on. -/
def RingSt.noneToGo (x : RingSt) : Prop := ∀ f rest, x.held ≠ HeldEnt.go f :: rest

/-- From `x` to `y` the Out side has sent, and nothing else has changed. -/
def RingSt.Sent (x y : RingSt) : Prop :=
  ∃ front resend copies lastTx usedAt,
    y = { x with front := front, resend := resend, copies := copies, lastTx := lastTx, usedAt := usedAt }

theorem transmit_sent (x : RingSt) (at_ : Nat) (f : Flit) : x.Sent (x.transmit at_ f) := ⟨x.front, x.resend, _, _, _, rfl⟩

theorem sendQueue_sent {x : RingSt} (at_ slot : Nat) (settled : Bool) (e : Flit) (h : x.noneToGo) :
    x.Sent (x.sendQueue at_ slot settled e) := by
  unfold RingSt.sendQueue
  split
  · split
    · exact ⟨_, x.resend, _, _, _, rfl⟩
    · exact transmit_sent x at_ e
  · rename_i hheld
    exact absurd hheld (h _ _)
  · exact transmit_sent x at_ e

theorem send_sent {x : RingSt} (master : Bool) (at_ slot : Nat) (settled : Bool) (out : Flit) (h : x.noneToGo) :
    x.Sent (x.send master at_ slot settled out) := by
  unfold RingSt.send
  extract_lets late ronly
  split
  · exact ⟨_, x.resend, x.copies, x.lastTx, x.usedAt, rfl⟩
  split
  · exact transmit_sent x at_ out
  split
  · exact ⟨_, _, _, _, _, rfl⟩
  split
  · exact transmit_sent x at_ out
  · obtain ⟨_, _, _, _, _, hsent⟩ :=
      sendQueue_sent (x := { x with front := x.front ++ late }) at_ slot settled (emptyFlit ronly) h
    exact ⟨_, _, _, _, _, hsent⟩

theorem shift_sent {x : RingSt} (master blank : Bool) (at_ slot : Nat) (into : Flit) (h : x.noneToGo) :
    ({ x with pipe := x.entered into, settling := x.settling - 1 } : RingSt).Sent
      (x.shift master blank at_ slot into) := by
  unfold RingSt.shift
  extract_lets p full head out y
  have hy : y = { x with pipe := x.entered into, settling := x.settling - 1 } := by
    rw [← entered_eq]
  rw [← hy]
  split
  · exact transmit_sent y at_ blankSlot
  · exact send_sent master at_ slot _ out h

/-- A slot that passes: a flit has entered the pipeline, and the Out side has sent. -/
theorem passSlot_sent {s : State} {r : Ring} (slot : Nat) (into : Flit) (h : (s.ring r).noneToGo) :
    ∃ y, ({ s.ring r with pipe := (s.ring r).entered into, settling := (s.ring r).settling - 1 } : RingSt).Sent y ∧
      s.passSlot r slot into = s.setRing r y := ⟨_, shift_sent _ _ _ _ into h, rfl⟩

/-- What a slot that passes leaves, on a ring whose through-queue holds nothing to go on. -/
structure Passed (s : State) (r : Ring) (into : Flit) (t : State) : Prop where
  pipe : (t.ring r).pipe = (s.ring r).entered into
  heads : (t.ring r).heads = (s.ring r).heads
  held : (t.ring r).held = (s.ring r).held
  blinkAt : (t.ring r).blinkAt = (s.ring r).blinkAt
  retries : (t.ring r).retries = (s.ring r).retries
  inflight : t.inflight = s.inflight
  replies : t.replies = s.replies
  stores : SameStores s t

theorem passSlot_passed {s : State} {r : Ring} (slot : Nat) (into : Flit) (h : (s.ring r).noneToGo) :
    Passed s r into (s.passSlot r slot into) := by
  obtain ⟨y, ⟨front, resend, copies, lastTx, usedAt, hy⟩, hpass⟩ := passSlot_sent slot into h
  subst hy
  rw [hpass]
  exact ⟨by rw [ring_setRing], by rw [ring_setRing], by rw [ring_setRing], by rw [ring_setRing], by rw [ring_setRing],
    by simp, by simp, setRing_stores ..⟩

/-! ### A slot begins (05 R118, R119) -/

/-- The state with a slot begun on the In side of a ring. -/
def State.slotBegun (s : State) (r : Ring) (slot : Nat) : State :=
  s.setRing r (if s.mode.timed || s.bar.beatsrc then (s.ring r).slotBegins slot
    else { (s.ring r).slotBegins slot with usedAt := none })

/-- From `s` to `u` a slot has begun on the In side of a ring: blinks, the window and the Out slot in use may have changed. -/
structure SlotBegins (s : State) (r : Ring) (u : State) : Prop where
  rest : ∃ x, u = s.setRing r x
  heads : (u.ring r).heads = (s.ring r).heads
  held : (u.ring r).held = (s.ring r).held
  pipe : (u.ring r).pipe = (s.ring r).pipe
  retries : (u.ring r).retries = (s.ring r).retries
  noRetry : (u.ring r).noRetry = (s.ring r).noRetry
  inHop : (u.ring r).inHop = (s.ring r).inHop
  hasId : (u.ring r).hasId = (s.ring r).hasId
  nodeId : (u.ring r).nodeId = (s.ring r).nodeId

theorem slotBegun_begins (s : State) (r : Ring) (slot : Nat) : SlotBegins s r (s.slotBegun r slot) := by
  refine ⟨⟨_, rfl⟩, ?_, ?_, ?_, ?_, ?_, ?_, ?_, ?_⟩ <;>
  · rw [State.slotBegun, ring_setRing]
    split <;> rfl

namespace SlotBegins
variable {s u : State} {r : Ring} (h : SlotBegins s r u)
include h

theorem bar : u.bar = s.bar := by obtain ⟨x, rfl⟩ := h.rest; simp
theorem inflight : u.inflight = s.inflight := by obtain ⟨x, rfl⟩ := h.rest; simp
theorem replies : u.replies = s.replies := by obtain ⟨x, rfl⟩ := h.rest; simp
theorem stores : SameStores s u := by obtain ⟨x, rfl⟩ := h.rest; exact setRing_stores ..
theorem openStream (src : Node) (n : BitVec 3) : u.openStream r src n = s.openStream r src n := by
  obtain ⟨x, rfl⟩ := h.rest
  simp
end SlotBegins

/-! ### Which way a flit is taken (05 R114, R117) -/

theorem flitIn_closed {s : State} {r : Ring} (slot : Nat) (f : Flit) (h : (s.ring r).swOpen = false) :
    s.flitIn r slot f = s := by
  simp [State.flitIn, h]

theorem copyMissed_of_none_held {s : State} {r : Ring} (slot : Nat) (h : (s.ring r).held = []) :
    s.copyMissed r slot = s := by
  simp [State.copyMissed, h, dueGap]

theorem flitIn_good {s : State} {r : Ring} {f : Flit} (slot : Nat) (hopen : (s.ring r).swOpen = true)
    (hheld : (s.ring r).held = []) (hblank : f.blank = false) (hcrc : crcGood f = true) :
    s.flitIn r slot f = (s.slotBegun r slot).goodFlit r slot { f with retry := false } := by
  unfold State.flitIn
  rw [if_neg (by simp [hopen])]
  extract_lets x u
  have hnone : (u.ring r).held = [] := (slotBegun_begins s r slot).held.trans hheld
  have hgap : (u.ring r).gapOf slot = none := by simp [RingSt.gapOf, hnone, dueGap, firstGap]
  change _ = u.goodFlit r slot { f with retry := false }
  rw [if_neg (by simp [hblank]), if_neg (by simp [hcrc]), copyMissed_of_none_held slot hnone]
  cases hretry : f.retry
  · have hplain : f = { f with retry := false } := by rw [← hretry]
    rw [← hplain]
    rfl
  · simp only [hgap, if_true]

theorem flitIn_bad {s : State} {r : Ring} {f : Flit} (slot : Nat) (hopen : (s.ring r).swOpen = true)
    (hblank : f.blank = false) (hcrc : crcGood f = false) :
    s.flitIn r slot f = (s.slotBegun r slot).badFlit r slot f := by
  unfold State.flitIn
  rw [if_neg (by simp [hopen])]
  extract_lets x u
  exact (if_neg (by simp [hblank])).trans (if_pos (by simp [hcrc]))

section
variable {s t : State} {r : Ring} {slot : Nat} {f : Flit} (hcls : f.cls ≠ 0) (hctrl : f.cls ≠ 3)
  (hheld : (s.ring r).held = [])
include hcls hctrl hheld

/-- With no copy awaited, what a good flit is judged to be goes on, or leaves its slot EMPTY. -/
theorem goodFlit_judged (j : Option Flit × State) (hj : s.judgeFlit r slot f (fun _ => none) = j) :
    (j.1 = none → s.goodFlit r slot f = j.2.passSlot r slot (vacate f)) ∧
    (∀ g, j.1 = some g → (j.2.ring r).held = [] → s.goodFlit r slot f = j.2.passSlot r slot g) := by
  have hcls' : (f.cls == 0) = false := by simpa using hcls
  have hctrl' : (f.cls == 3) = false := by simpa using hctrl
  obtain ⟨o, u⟩ := j
  refine ⟨fun h => ?_, fun g h hnone => ?_⟩
  all_goals
    unfold State.goodFlit
    obtain rfl : o = _ := h
    simp only [hcls', hctrl', hheld, firstGap, List.findIdx?_nil, Option.isSome_none, Bool.and_false, Bool.false_and,
      Bool.false_eq_true, if_false, hj]
  simp [show (u.ring r).held = [] from hnone]
end

/-- A flit that the device lets past: as beat source it marks it with LAP (R117). -/
def State.marked (s : State) (f : Flit) : Flit := { f with lap := f.lap || s.bar.beatsrc }

section
variable {s : State} {r : Ring} {slot : Nat} {f : Flit} {place : Nat → Option Nat}

theorem judgeFlit_own (hid : (s.ring r).hasId = true) (hsrc : f.src = (s.ring r).nodeId) :
    s.judgeFlit r slot f place = (none, s) := by
  simp [State.judgeFlit, hid, hsrc]

theorem judgeFlit_past (hsrc : f.src ≠ (s.ring r).nodeId) (hlap : (s.bar.beatsrc && f.lap) = false) :
    s.judgeFlit r slot f place =
      if f.first then s.judgeFirst r slot (s.marked f) else s.judgeLater r (s.marked f) place := by
  have hmark : (if s.bar.beatsrc = true then { f with lap := true } else f) = s.marked f := by
    unfold State.marked
    cases s.bar.beatsrc <;> simp
  unfold State.judgeFlit
  rw [if_neg (by simp [hsrc]), if_neg (by simp [hlap])]
  extract_lets g
  have hg : g = s.marked f := hmark
  rw [hg]
  rfl

theorem admitFor_apart (h : ∀ x ∈ (s.ring r).heads, ¬(x.2.2.src = f.src ∧ x.2.2.stream = f.stream)) :
    s.admitFor r f = s := by
  have hany : ((s.ring r).heads.any fun x => x.2.2.src == f.src && x.2.2.stream == f.stream) = false := by
    rw [List.any_eq_false]
    intro x hx
    simpa using h x hx
  simp [State.admitFor, hany]

variable (hapart : ∀ x ∈ (s.ring r).heads, ¬(x.2.2.src = f.src ∧ x.2.2.stream = f.stream)) (hrefused : f.refused = false)
include hapart hrefused

/-- The header of a request for the device goes through and waits for its admission (R117, R129). -/
theorem judgeFirst_header (hcls : f.cls = 1) (hid : (s.ring r).hasId = true)
    (hbroad : (reqOfBytes f.content (.ring r) f.src).dnode ≠ 31)
    (hmine : (reqOfBytes f.content (.ring r) f.src).dnode.toNat = (s.ring r).nodeId.toNat) :
    s.judgeFirst r slot f =
      (some f, s.setRing r { s.ring r with heads := (s.ring r).heads ++ [(slot, s.bar.beatno, f)] }) := by
  have hnode : ((reqOfBytes f.content (.ring r) f.src).dnode == 31) = false := by simpa using hbroad
  unfold State.judgeFirst
  simp only [admitFor_apart hapart, hrefused, hnode, hid, hmine, hcls, beq_self_eq_true, Bool.and_self, if_true,
    Bool.false_eq_true, if_false]

/-- A one-flit packet for another node passes through (R115, R117). -/
theorem judgeFirst_through (hbroad : (reqOfBytes f.content (.ring r) f.src).dnode ≠ 31)
    (hother : (reqOfBytes f.content (.ring r) f.src).dnode.toNat ≠ (s.ring r).nodeId.toNat)
    (hopen : s.openStream r f.src f.stream = none) (hone : flitsFrom f (reqOfBytes f.content (.ring r) f.src) = 1) :
    ∃ th, s.judgeFirst r slot f = (some f, s.setRing r { s.ring r with through := th }) := by
  refine ⟨(s.ring r).through.filter fun p => !(p.1 == f.src && p.2.1 == f.stream), ?_⟩
  have hnode : ((reqOfBytes f.content (.ring r) f.src).dnode == 31) = false := by simpa using hbroad
  have hnot : ((reqOfBytes f.content (.ring r) f.src).dnode.toNat == (s.ring r).nodeId.toNat) = false := by
    simpa using hother
  unfold State.judgeFirst
  simp only [admitFor_apart hapart, hrefused, hnode, hnot, cutStream_of_none hopen, hone, Bool.and_false,
    Bool.false_eq_true, if_false, Nat.lt_irrefl]

/-- A further flit of an open stream is taken (R116, R117). -/
theorem judgeLater_taken {o : InFlight} (hopen : s.openStream r f.src f.stream = some o) :
    s.judgeLater r f (fun _ => none) = (none, s.updReq o.rid fun q =>
      { q with flits := q.flits + 1, bytes := insertFlit q.bytes o.flits f.content, lastFlit := s.bar.beatno }) := by
  simp only [State.judgeLater, admitFor_apart hapart, hrefused, hopen]
  rfl
end

theorem insertFlit_last {bytes : List Byte} {n : Nat} (c : List Byte) (h : bytes.length = 60 * n) :
    insertFlit bytes n c = bytes ++ c := by
  rw [insertFlit, ← h, List.take_length, List.drop_length, List.append_nil]

/-! ### A flit whose CRC fails (05 R118 to R122) -/

/-- The ring once a copy of the one bad flit is asked for: its place is kept among the held flits (R118, R120). -/
def RingSt.gapKept (x : RingSt) (slot : Nat) (f : Flit) (seen : List (Nat × Nat)) : RingSt :=
  { x with held := [HeldEnt.gap [⟨slot, f⟩] 0 (x.copySlot slot) seen] }.askCopy slot

theorem badFlit_asks {s : State} {r : Ring} {slot : Nat} {f : Flit} (hslot : slot ≠ 0)
    (hretry : (s.ring r).noRetry = false) (hheld : (s.ring r).held = []) :
    Passed (s.setRing r ((s.ring r).gapKept slot f (s.streamsSeen r))) r (emptyFlit (replyOnly slot))
      (s.badFlit r slot f) := by
  have hbad : s.badFlit r slot f = (s.setRing r ((s.ring r).gapKept slot f (s.streamsSeen r))).passSlot r slot
      (emptyFlit (replyOnly slot)) := by
    simp [State.badFlit, hslot, hretry, hheld, dueGap, RingSt.gapKept]
  rw [hbad]
  refine passSlot_passed slot _ ?_
  rw [ring_setRing]
  exact fun g rest => by simp [RingSt.gapKept, RingSt.askCopy]

theorem badFlit_slot_zero (s : State) (r : Ring) (f : Flit) : ∃ e, s.badFlit r 0 f = s.passSlot r 0 e := by
  unfold State.badFlit
  extract_lets x empty
  rw [if_pos (beq_self_eq_true 0)]
  split <;> exact ⟨_, rfl⟩

/-! ### HOP_RETRY_BLINK (05 R118) -/

/-- The copy that a blink asks for lies `k` slots before the newest. -/
theorem askedFlit_eq {x : RingSt} {slot : BitVec 5} {t k : Nat} {q : Bool} (hused : x.usedAt = some (t, q)) (hk : k < 16)
    (hslot : (slot.toNat + k) % 32 = (t + x.hopLat.toNat) % 32) : x.askedFlit slot.toNat = x.copies[k]? := by
  have hs := slot.isLt
  have hl := x.hopLat.isLt
  have hn : x.hopLat.toNat + (t % 32 + 48 - slot.toNat) % 32 = k + 16 := by omega
  simp only [RingSt.askedFlit, hused, Option.map_some, Option.getD_some, hn]
  simp

theorem blinkSensed_closed {s : State} {r : Ring} (slot : Nat)
    (h : (s.ring r).swOpen = false ∨ (s.ring r).outNoRetry = true) : s.blinkSensed r slot = s := by
  rcases h with h | h <;> simp [State.blinkSensed, h]

section
variable {s : State} {r : Ring} {slot : Nat} (hopen : (s.ring r).swOpen = true) (hretry : (s.ring r).outNoRetry = false)
include hopen hretry

theorem blinkSensed_owes {f : Flit} (hasked : (s.ring r).askedFlit slot = some f) (hblank : f.blank = false)
    (hctrl : f.cls ≠ 3) :
    s.blinkSensed r slot = s.setRing r { s.ring r with resend := (s.ring r).resend ++ [f] } := by
  unfold State.blinkSensed
  rw [if_neg (by simp [hopen, hretry]), hasked]
  exact if_neg (by simpa [hblank] using hctrl)

theorem blinkSensed_none (hasked : (s.ring r).askedFlit slot = none) : s.blinkSensed r slot = s := by
  unfold State.blinkSensed
  rw [if_neg (by simp [hopen, hretry]), hasked]
end

/-! ### The statement -/

theorem noneToGo_of_none_held {x : RingSt} (h : x.held = []) : x.noneToGo := fun f rest => by simp [h]

/-- The flit as a good one is judged: no copy, and as beat source marked with LAP (R117). -/
def State.seen (s : State) (f : Flit) : Flit := { f with retry := false, lap := f.lap || s.bar.beatsrc }

section
variable {s : State} {r : Ring} {f : Flit} (slot : BitVec 5)

theorem judged_past (hsrc : f.src ≠ (s.ring r).nodeId) (hlap : (s.bar.beatsrc && f.lap) = false) :
    (s.slotBegun r slot.toNat).judgeFlit r slot.toNat { f with retry := false } (fun _ => none) =
      if f.first then (s.slotBegun r slot.toNat).judgeFirst r slot.toNat (s.seen f)
      else (s.slotBegun r slot.toNat).judgeLater r (s.seen f) fun _ => none := by
  have hu := slotBegun_begins s r slot.toNat
  have hseen : (s.slotBegun r slot.toNat).marked { f with retry := false } = s.seen f := by
    rw [State.marked, hu.bar]
    rfl
  rw [judgeFlit_past (by rw [hu.nodeId]; exact hsrc) (by rw [hu.bar]; exact hlap), hseen]

theorem judged_first (hsrc : f.src ≠ (s.ring r).nodeId) (hlap : (s.bar.beatsrc && f.lap) = false)
    (hfirst : f.first = true) :
    (s.slotBegun r slot.toNat).judgeFlit r slot.toNat { f with retry := false } (fun _ => none) =
      (s.slotBegun r slot.toNat).judgeFirst r slot.toNat (s.seen f) :=
  (judged_past slot hsrc hlap).trans (if_pos hfirst)

theorem judged_later (hsrc : f.src ≠ (s.ring r).nodeId) (hlap : (s.bar.beatsrc && f.lap) = false)
    (hlater : f.first = false) :
    (s.slotBegun r slot.toNat).judgeFlit r slot.toNat { f with retry := false } (fun _ => none) =
      (s.slotBegun r slot.toNat).judgeLater r (s.seen f) fun _ => none :=
  (judged_past slot hsrc hlap).trans (if_neg (by simp [hlater]))

variable (hlen : f.content.length = 60) (hlisten : Listening s r) (hblank : f.blank = false)
include hlen hlisten hblank

/-- A good flit on a ring that listens does what it is judged to do, and its slot passes with what goes on. -/
theorem receive_judged (hcrc : crcGood f = true) (hcls : f.cls ≠ 0) (hctrl : f.cls ≠ 3) {o : Option Flit} {t : State}
    (hjudge : (s.slotBegun r slot.toNat).judgeFlit r slot.toNat { f with retry := false } (fun _ => none) = (o, t))
    (hheld : (t.ring r).held = []) :
    ∃ u, exec (.flitReceive r slot f) s = .next u ∧ Passed t r (o.getD (vacate f)) u := by
  obtain ⟨hopen, hnone, -⟩ := hlisten
  have hexec : exec (.flitReceive r slot f) s =
      .next ((s.slotBegun r slot.toNat).goodFlit r slot.toNat { f with retry := false }) :=
    (if_pos (by simpa [Instr.wf] using hlen)).trans
      (congrArg Host.Outcome.next (flitIn_good slot.toNat hopen hnone hblank hcrc))
  obtain ⟨htaken, honward⟩ := goodFlit_judged (f := { f with retry := false }) hcls hctrl
    ((slotBegun_begins s r slot.toNat).held.trans hnone) _ hjudge
  have hpassed (g : Flit) := passSlot_passed slot.toNat g (noneToGo_of_none_held hheld)
  cases o with
  | none => exact ⟨_, hexec.trans (congrArg Host.Outcome.next (htaken rfl)), hpassed _⟩
  | some g => exact ⟨_, hexec.trans (congrArg Host.Outcome.next (honward g rfl hheld)), hpassed _⟩

theorem receive_bad (hcrc : crcGood f = false) :
    exec (.flitReceive r slot f) s = .next ((s.slotBegun r slot.toNat).badFlit r slot.toNat f) :=
  (if_pos (by simpa [Instr.wf] using hlen)).trans
    (congrArg Host.Outcome.next (flitIn_bad slot.toNat hlisten.1 hblank hcrc))
end

/-- Settles O26: a good flit is judged by its class and its destination (`judgeFirst_header`, `judgeFirst_through`,
`judgeLater_taken`, `judgeFlit_own`), a bad one is asked for again (`badFlit_asks`); what the slot leaves is
`passSlot_passed`, and which copy a blink asks for is `askedFlit_eq`. -/
theorem flitsReceived : Obligations.FlitsReceived := by
  unfold Obligations.FlitsReceived
  refine ⟨fun s r slot f hlen => ?receive, fun s r => ?blink⟩
  case receive =>
    intro x rq seen ok past apart
    have hu := slotBegun_begins s r slot.toNat
    refine ⟨fun hclosed => ?closed, fun hok hcls hpast hapart hfirst hbroad hmine => ?header,
      fun o hok hcls hctrl hpast hapart hlater hone hopen hbytes => ?further,
      fun hok hcls hctrl hpast hapart hfirst hbroad hother hopen hflits hpipe => ?through,
      fun hok hcls hctrl hsrc hpipe => ?own, fun hlisten hblank hcrc hslot => ?bad,
      fun hlisten hblank hcrc hslot => ?badZero⟩
    case closed =>
      exact (if_pos (by simpa [Instr.wf] using hlen)).trans (congrArg Host.Outcome.next (flitIn_closed _ f hclosed))
    case header =>
      obtain ⟨hlisten, hblank, hcrc, hid, hrefused⟩ := hok
      obtain ⟨t, hexec, h⟩ := receive_judged slot hlen hlisten hblank hcrc (by simp [hcls]) (by simp [hcls])
        ((judged_first slot hpast.1 hpast.2 hfirst).trans (judgeFirst_header (by rw [hu.heads]; exact hapart) hrefused hcls
          (hu.hasId.trans hid) hbroad (by rw [hu.nodeId]; exact hmine)))
        (by rw [ring_setRing]; exact hu.held.trans hlisten.2.1)
      refine ⟨t, hexec, ?_, h.inflight.trans ?_, h.replies.trans ?_, ?_⟩
      · rw [h.heads, ring_setRing, hu.heads, hu.bar]
        rfl
      · rw [setRing_inflight, hu.inflight]
      · rw [setRing_replies, hu.replies]
      · exact sameStores_trans hu.stores (sameStores_trans (setRing_stores ..) h.stores)
    case further =>
      obtain ⟨hlisten, hblank, hcrc, hid, hrefused⟩ := hok
      obtain ⟨t, hexec, h⟩ := receive_judged slot hlen hlisten hblank hcrc hcls hctrl
        ((judged_later slot hpast.1 hpast.2 hlater).trans (judgeLater_taken (f := s.seen f)
          (by rw [hu.heads]; exact hapart) hrefused ((hu.openStream _ _).trans hopen)))
        (hu.held.trans hlisten.2.1)
      refine ⟨t, hexec, sameStores_trans hu.stores h.stores, h.replies.trans hu.replies, h.inflight.trans ?_⟩
      change updWhere _ _ (s.slotBegun r slot.toNat).inflight = _
      rw [hu.inflight, hone, hu.bar]
      simp [updWhere, State.seen, insertFlit_last _ hbytes]
    case through =>
      obtain ⟨hlisten, hblank, hcrc, hid, hrefused⟩ := hok
      obtain ⟨th, hjudge⟩ := judgeFirst_through (s := s.slotBegun r slot.toNat) (r := r) (slot := slot.toNat) (f := s.seen f)
        (by rw [hu.heads]; exact hapart) hrefused hbroad (by rw [hu.nodeId]; exact hother)
        ((hu.openStream _ _).trans hopen) hflits
      obtain ⟨t, hexec, h⟩ := receive_judged slot hlen hlisten hblank hcrc hcls hctrl
        ((judged_first slot hpast.1 hpast.2 hfirst).trans hjudge) (by rw [ring_setRing]; exact hu.held.trans hlisten.2.1)
      refine ⟨t, hexec, h.inflight.trans ?_, ?_, ?_, ?_⟩
      · rw [setRing_inflight, hu.inflight]
      · exact sameStores_trans hu.stores (sameStores_trans (setRing_stores ..) h.stores)
      · rw [h.pipe, ring_setRing, RingSt.entered, hu.pipe]
        rfl
      · rw [h.heads, ring_setRing, hu.heads]
    case own =>
      obtain ⟨hlisten, hblank, hcrc, hid, hrefused⟩ := hok
      obtain ⟨t, hexec, h⟩ := receive_judged slot hlen hlisten hblank hcrc hcls hctrl
        (judgeFlit_own (hu.hasId.trans hid) (by rw [hu.nodeId]; exact hsrc)) (hu.held.trans hlisten.2.1)
      refine ⟨t, vacate f, hexec, ?_, rfl, rfl, h.inflight.trans hu.inflight, sameStores_trans hu.stores h.stores⟩
      rw [h.pipe, RingSt.entered, hu.pipe, hpipe]
      rfl
    case bad =>
      have hpos : slot.toNat ≠ 0 := fun e => hslot (BitVec.eq_of_toNat_eq e)
      have h := badFlit_asks (f := f) hpos (hu.noRetry.trans hlisten.2.2) (hu.held.trans hlisten.2.1)
      refine ⟨_, (s.slotBegun r slot.toNat).streamsSeen r, receive_bad slot hlen hlisten hblank hcrc,
        h.held.trans ?_, ?_, h.retries.trans ?_, h.inflight.trans ?_, ?_⟩
      · rw [ring_setRing, RingSt.gapKept, RingSt.copySlot, hu.inHop]
        rfl
      · rw [h.blinkAt, ring_setRing]
        exact List.mem_append_right _ (List.mem_singleton_self _)
      · rw [ring_setRing]
        exact (Nat.min_comm _ _).trans (by rw [← hu.retries]; rfl)
      · rw [setRing_inflight, hu.inflight]
      · exact sameStores_trans hu.stores (sameStores_trans (setRing_stores ..) h.stores)
    case badZero =>
      obtain ⟨e, hbad⟩ := badFlit_slot_zero (s.slotBegun r slot.toNat) r f
      have h := passSlot_passed 0 e (noneToGo_of_none_held (hu.held.trans hlisten.2.1))
      subst hslot
      exact ⟨_, (receive_bad 0 hlen hlisten hblank hcrc).trans (congrArg Host.Outcome.next hbad),
        h.held.trans (hu.held.trans hlisten.2.1), h.retries.trans hu.retries, h.inflight.trans hu.inflight,
        sameStores_trans hu.stores h.stores⟩
  case blink =>
    intro x
    refine ⟨fun slot t q k hused hk hslot => ?_, fun slot h => congrArg Host.Outcome.next (blinkSensed_closed _ h)⟩
    have hasked := askedFlit_eq hused hk hslot
    refine ⟨fun f hopen hretry hcopy hblank hctrl => congrArg Host.Outcome.next ?_,
      fun hnone => congrArg Host.Outcome.next ?_⟩
    · exact blinkSensed_owes hopen hretry (hasked.trans hcopy) hblank hctrl
    · by_cases hopen : x.swOpen = true ∧ x.outNoRetry = false
      · exact blinkSensed_none hopen.1 hopen.2 (hasked.trans hnone)
      · exact blinkSensed_closed _ (by simpa [x, imp_iff_not_or] using hopen)

end Sys2Proof.Machine

/-! PROOFS. Enumeration and the roster (05 R124 to R128; 08 R210, R211): ENUM, SLOTMAP, ROSTER and FRESH_ENUM_RESTART. -/

namespace Sys2Proof.Machine

theorem forEach_forall {α σ : Type} {R : σ → σ → Prop} {f : α → σ → σ} (hrefl : ∀ s, R s s)
    (htrans : ∀ s t u, R s t → R t u → R s u) (h : ∀ x s, R s (f x s)) (l : List α) (s : σ) : R s (forEach f l s) := by
  induction l generalizing s with
  | nil => exact hrefl s
  | cons x xs ih => exact htrans s _ _ (h x s) (ih (f x s))

/-! ### What joining a ring keeps (04 R96; 03 R73) -/

/-- From `s` to `t` the device keeps its place on a ring and what is due there; events are only added, and every store
stays. -/
structure RingPlaceKept (r : Ring) (s t : State) : Prop where
  rosterIds : (t.ring r).rosterIds = (s.ring r).rosterIds
  joined : (s.ring r).joined = true → (t.ring r).joined = true
  hasId : (t.ring r).hasId = (s.ring r).hasId
  nodeId : (t.ring r).nodeId = (s.ring r).nodeId
  freshDue : (t.ring r).freshDue = (s.ring r).freshDue
  rebindDue : (t.ring r).rebindDue = (s.ring r).rebindDue
  events : ∀ i n, (s.ev i).bits.getLsbD n = true → (t.ev i).bits.getLsbD n = true
  stores : SameStores s t

/-- Besides, Kit 0's bindings and the requests in flight stay. -/
structure PlaceKept (r : Ring) (s t : State) : Prop extends RingPlaceKept r s t where
  beatsrc : t.bar.beatsrc = s.bar.beatsrc
  binds : (t.kit 0).binds = (s.kit 0).binds
  inflight : t.inflight = s.inflight

section
variable {r : Ring} {s t u : State}

theorem RingPlaceKept.of_ring (hring : t.ring r = s.ring r)
    (hev : ∀ i n, (s.ev i).bits.getLsbD n = true → (t.ev i).bits.getLsbD n = true) (hstores : SameStores s t) :
    RingPlaceKept r s t :=
  ⟨by rw [hring], by rw [hring]; exact id, by rw [hring], by rw [hring], by rw [hring], by rw [hring], hev, hstores⟩

theorem RingPlaceKept.trans (hst : RingPlaceKept r s t) (htu : RingPlaceKept r t u) : RingPlaceKept r s u where
  rosterIds := htu.rosterIds.trans hst.rosterIds
  joined h := htu.joined (hst.joined h)
  hasId := htu.hasId.trans hst.hasId
  nodeId := htu.nodeId.trans hst.nodeId
  freshDue := htu.freshDue.trans hst.freshDue
  rebindDue := htu.rebindDue.trans hst.rebindDue
  events i n h := htu.events i n (hst.events i n h)
  stores := sameStores_trans hst.stores htu.stores

theorem PlaceKept.of_ring (hring : t.ring r = s.ring r) (hsrc : t.bar.beatsrc = s.bar.beatsrc)
    (hbinds : (t.kit 0).binds = (s.kit 0).binds) (hfly : t.inflight = s.inflight)
    (hev : ∀ i n, (s.ev i).bits.getLsbD n = true → (t.ev i).bits.getLsbD n = true) (hstores : SameStores s t) :
    PlaceKept r s t :=
  ⟨.of_ring hring hev hstores, hsrc, hbinds, hfly⟩

theorem PlaceKept.refl (r : Ring) (s : State) : PlaceKept r s s :=
  .of_ring rfl rfl rfl rfl (fun _ _ h => h) (sameStores_of_eq rfl rfl rfl)

theorem PlaceKept.trans (hst : PlaceKept r s t) (htu : PlaceKept r t u) : PlaceKept r s u :=
  ⟨hst.toRingPlaceKept.trans htu.toRingPlaceKept, htu.beatsrc.trans hst.beatsrc, htu.binds.trans hst.binds,
    htu.inflight.trans hst.inflight⟩

end

theorem raise_placeKept (r : Ring) (s : State) (i : EvId) (mask : BitVec 8) : PlaceKept r s (s.raise i mask) :=
  .of_ring (raise_ring s i mask r) rfl rfl rfl (fun _ _ h => ev_raise_keeps s i mask h) (sameStores_of_eq rfl rfl rfl)

/-- Mirrors asked for are no part of the device's place. -/
theorem setMirrors_placeKept (s : State) (r : Ring) (remaps : List LaneRun) (mail : List (MailReq × Nat))
    (out : List MailReq) (gaveUp : BitVec 16) : PlaceKept r s
      (s.setRing r { s.ring r with remaps := remaps, mail := mail, mailOut := out, gaveUp := gaveUp }) where
  rosterIds := by simp
  joined h := by simpa using h
  hasId := by simp
  nodeId := by simp
  freshDue := by simp
  rebindDue := by simp
  beatsrc := by simp
  binds := by simp
  inflight := by simp
  events i n h := by simpa using h
  stores := setRing_stores ..

theorem startRemap_placeKept (r : Ring) (lane : BitVec 4) (tried : BitVec 2) (s : State) :
    PlaceKept r s (s.startRemap r lane tried) := by
  unfold State.startRemap
  extract_lets x
  split
  · exact setMirrors_placeKept s r _ _ _ _
  · split
    · exact .refl r s
    · exact (setMirrors_placeKept s r _ _ _ _).trans (raise_placeKept r _ _ _)

theorem askMirrors_placeKept (s : State) (r : Ring) : PlaceKept r s (s.askMirrors r) := by
  unfold State.askMirrors
  split
  · exact forEach_forall (.refl r) (fun _ _ _ => .trans) (fun l t => startRemap_placeKept r l 0 t) _ s
  · exact .refl r s

/-- What LEDGER_GRANT puts into force for a Kit leaves its bindings. -/
theorem granted_binds (l : List (Kit × Nat)) (v : Vector KitSt 16) :
    (forEach (fun (x : Kit × Nat) (v : Vector KitSt 16) =>
      v.set x.1 { v[x.1] with granted := x.2, rtresNow := v[x.1].rtres }) l v)[(0 : Kit)].binds = v[(0 : Kit)].binds := by
  refine forEach_forall (R := fun (v w : Vector KitSt 16) => w[(0 : Kit)].binds = v[(0 : Kit)].binds) (fun _ => rfl)
    (fun _ _ _ h k => k.trans h) (fun x v => ?_) l v
  by_cases hx : x.1.val = 0
  · simp [hx]
  · simp [hx]

theorem ledgerGrant_placeKept (s : State) (r : Ring) : PlaceKept r s s.ledgerGrant := by
  unfold State.ledgerGrant
  extract_lets gs kits stk t
  have ht : PlaceKept r s t := .of_ring (by cases r <;> rfl) rfl (granted_binds ..) rfl (fun _ _ h => h)
    (sameStores_of_eq rfl rfl rfl)
  split
  · exact ht
  · exact ht.trans (raise_placeKept r t _ _)

theorem bMoves_placeKept (r : Ring) (s : State) : PlaceKept r s s.bMoves :=
  .of_ring (bMoves_ring s r) rfl rfl rfl (fun _ _ h => h) (bMoves_stores s)

theorem strictLapse_placeKept (r : Ring) (s : State) : PlaceKept r s s.strictLapse := by
  unfold State.strictLapse
  split
  · refine .trans ?_ (raise_placeKept r { s with gen := { s.gen with active := false } } .tempo 0x04)
    exact .of_ring (by cases r <;> rfl) rfl rfl rfl (fun _ _ h => h) (sameStores_of_eq rfl rfl rfl)
  · exact .refl r s

theorem setSeqs_placeKept (r : Ring) (s : State) (l : List (Ring × Node × Nat)) :
    PlaceKept r s { s with devSeq := l } :=
  .of_ring (by cases r <;> rfl) rfl rfl rfl (fun _ _ h => h) (sameStores_of_eq rfl rfl rfl)

theorem setEcc_placeKept (r : Ring) (s : State) (x : Ecc) : PlaceKept r s { s with ecc := x } :=
  .of_ring (by cases r <;> rfl) rfl rfl rfl (fun _ _ h => h) (sameStores_of_eq rfl rfl rfl)

/-- Everything of `joins` behind the mark that the ring is joined. -/
theorem joins_placeKept (s : State) (r : Ring) :
    PlaceKept r (s.setRing r { s.ring r with joined := true }) (s.joins r) := by
  unfold State.joins
  split
  case isTrue hj =>
    have e : s.setRing r { s.ring r with joined := true } = s := by
      conv_rhs => rw [← setRing_self s r]
      rw [← hj]
    rw [e]
    exact .refl r s
  case isFalse =>
    extract_lets x s0 s1 g ecc s2
    have h1 : PlaceKept r s0 s1 := (setSeqs_placeKept r s0 _).trans (askMirrors_placeKept _ r)
    have h2 : PlaceKept r s1 s2 := by
      unfold s2
      split
      · exact (ledgerGrant_placeKept s1 r).trans (setEcc_placeKept r g _)
      · exact .refl r s1
    exact ((h1.trans h2).trans (bMoves_placeKept r s2)).trans (strictLapse_placeKept r _)

/-! ### Requests dropped without a reply (05 R127, R128) -/

/-- From `s` to `t` the service of requests ends: credits return; rings, events, pages, stores and counters stay. -/
structure ServiceEnds (s t : State) : Prop where
  ring : ∀ r, t.ring r = s.ring r
  evs : t.evs = s.evs
  pages : t.pages = s.pages
  bar : t.bar = s.bar
  orphaned : t.orphaned = s.orphaned
  kits : ∀ k, ∃ taken, t.kit k = { s.kit k with taken := taken }
  stores : SameStores s t

namespace ServiceEnds
variable {s t u : State}

/-- With the Kits as they were. -/
theorem of_kits (hring : ∀ r, t.ring r = s.ring r) (hevs : t.evs = s.evs) (hpages : t.pages = s.pages)
    (hbar : t.bar = s.bar) (horphaned : t.orphaned = s.orphaned) (hkits : t.kits = s.kits) (hstores : SameStores s t) :
    ServiceEnds s t :=
  ⟨hring, hevs, hpages, hbar, horphaned, fun k => ⟨(s.kit k).taken, by simp [State.kit, hkits]⟩, hstores⟩

theorem refl (s : State) : ServiceEnds s s :=
  .of_kits (fun _ => rfl) rfl rfl rfl rfl rfl (sameStores_of_eq rfl rfl rfl)

theorem trans (hst : ServiceEnds s t) (htu : ServiceEnds t u) : ServiceEnds s u where
  ring r := (htu.ring r).trans (hst.ring r)
  evs := htu.evs.trans hst.evs
  pages := htu.pages.trans hst.pages
  bar := htu.bar.trans hst.bar
  orphaned := htu.orphaned.trans hst.orphaned
  stores := sameStores_trans hst.stores htu.stores
  kits k := by
    obtain ⟨a, ha⟩ := hst.kits k
    obtain ⟨b, hb⟩ := htu.kits k
    exact ⟨b, by rw [hb, ha]⟩

theorem binds (h : ServiceEnds s t) (k : Kit) : (t.kit k).binds = (s.kit k).binds := by
  obtain ⟨a, ha⟩ := h.kits k
  rw [ha]

end ServiceEnds

theorem updReq_serviceEnds (s : State) (rid : Nat) (f : InFlight → InFlight) : ServiceEnds s (s.updReq rid f) :=
  .of_kits (fun r => by cases r <;> rfl) rfl rfl rfl rfl rfl (sameStores_of_eq rfl rfl rfl)

theorem setTaken_serviceEnds (s : State) (k : Kit) (n : Nat) :
    ServiceEnds s (s.setKit k { s.kit k with taken := n }) where
  ring r := by cases r <;> rfl
  evs := rfl
  pages := rfl
  bar := rfl
  orphaned := rfl
  stores := sameStores_of_eq rfl rfl rfl
  kits l := by
    by_cases h : k = l
    · subst h
      exact ⟨n, kit_setKit ..⟩
    · exact ⟨(s.kit l).taken, kit_setKit_of_ne s k l _ h⟩

theorem giveBack_serviceEnds (s : State) (rid : Nat) : ServiceEnds s (s.giveBack rid) := by
  unfold State.giveBack
  split
  · exact .refl s
  · next f _ =>
    extract_lets t
    refine .trans ?_ (updReq_serviceEnds t rid _)
    unfold t
    split
    · exact setTaken_serviceEnds s _ _
    · exact .refl s

theorem giveBack_inflight (s : State) (rid : Nat) : (s.giveBack rid).inflight =
    updWhere (fun x => x.rid == rid) (fun x => { x with credits := 0 }) s.inflight := by
  unfold State.giveBack
  split
  · next h =>
    exact (updReq_of_absent _ fun g hg e => by simpa [e] using List.find?_eq_none.mp h g hg).symm
  · next f _ => cases f.kit <;> rfl

/-- A zero sector's fill takes write-hold entries only. -/
theorem zeroChord_fills (o : Kit) (x : Nat) (s : State) :
    ServiceEnds s (State.zeroChord o x s) ∧ (State.zeroChord o x s).inflight = s.inflight := by
  unfold State.zeroChord
  split
  · exact ⟨.of_kits (fun r => by cases r <;> rfl) rfl rfl rfl rfl rfl (sameStores_of_eq rfl rfl rfl), rfl⟩
  · exact ⟨.refl s, rfl⟩

theorem zeroRest_fills (s : State) (p : WriteJob → Bool) :
    ServiceEnds s (s.zeroRest p) ∧ (s.zeroRest p).inflight = s.inflight := by
  have htrans (a b c : State) (h : ServiceEnds a b ∧ b.inflight = a.inflight)
      (k : ServiceEnds b c ∧ c.inflight = b.inflight) : ServiceEnds a c ∧ c.inflight = a.inflight :=
    ⟨h.1.trans k.1, k.2.trans h.2⟩
  exact forEach_forall (fun s => ⟨.refl s, rfl⟩) htrans
    (fun j t => forEach_forall (fun s => ⟨.refl s, rfl⟩) htrans (fun a u => zeroChord_fills j.kit a u) _ t) _ s

theorem abandon_serviceEnds (s : State) (rid : Nat) :
    ServiceEnds s (s.abandon rid) ∧ (s.abandon rid).inflight = s.inflight := by
  obtain ⟨h, hfly⟩ := zeroRest_fills s fun j => j.rid == rid
  exact ⟨h.trans (.of_kits (fun r => by cases r <;> rfl) rfl rfl rfl rfl rfl (sameStores_of_eq rfl rfl rfl)), hfly⟩

/-- What `orphan` does for one request that it drops. -/
theorem drop_serviceEnds (s : State) (rid : Nat) : ServiceEnds s ((s.giveBack rid).abandon rid) :=
  (giveBack_serviceEnds s rid).trans (abandon_serviceEnds _ rid).1

/-- A request without its credits, where it is one of those dropped. -/
def InFlight.stripped (gone : List InFlight) (x : InFlight) : InFlight :=
  if gone.any fun f => f.rid == x.rid then { x with credits := 0 } else x

theorem drop_inflight (gone : List InFlight) (s : State) :
    (forEach (fun (f : InFlight) (t : State) => (t.giveBack f.rid).abandon f.rid) gone s).inflight =
      s.inflight.map (InFlight.stripped gone) := by
  induction gone generalizing s with
  | nil => exact (List.map_id s.inflight).symm
  | cons f fs ih =>
    rw [forEach, ih, (abandon_serviceEnds _ _).2, giveBack_inflight, updWhere, List.map_map]
    refine List.map_congr_left fun x _ => ?_
    by_cases h : f.rid = x.rid
    · simp [InFlight.stripped, h]
    · simp [InFlight.stripped, h, Ne.symm h]

section
variable (s : State) (p : InFlight → Bool)

theorem orphan_serviceEnds : ServiceEnds { s with orphaned := up32 s.orphaned (s.inflight.filter p).length }
    (s.orphan p) := by
  have h : ServiceEnds s _ := forEach_forall .refl (fun _ _ _ => .trans)
    (fun f t => drop_serviceEnds t f.rid) (s.inflight.filter p) s
  exact ⟨h.ring, h.evs, h.pages, h.bar, congrArg (up32 · _) h.orphaned, h.kits, h.stores⟩

/-- Those that `p` does not mark stay as they were: no two in flight have one number. -/
theorem orphan_inflight (hp : ∀ x c, p { x with credits := c } = p x) (hnodup : (s.inflight.map fun f => f.rid).Nodup) :
    (s.orphan p).inflight = s.inflight.filter fun f => !p f := by
  have hstrip (x : InFlight) : p (x.stripped (s.inflight.filter p)) = p x := by
    unfold InFlight.stripped
    split
    · exact hp x 0
    · rfl
  have hkept : ∀ x ∈ s.inflight.filter fun f => !p f, x.stripped (s.inflight.filter p) = x := by
    intro x hx
    obtain ⟨hmem, hnot⟩ := List.mem_filter.mp hx
    refine if_neg fun hany => ?_
    obtain ⟨f, hf, hrid⟩ := List.any_eq_true.mp hany
    obtain ⟨hfmem, hpf⟩ := List.mem_filter.mp hf
    have e : f = x := List.inj_on_of_nodup_map hnodup hfmem hmem (by simpa using hrid)
    simp [e ▸ hpf] at hnot
  calc (s.orphan p).inflight
      = (s.inflight.map (InFlight.stripped (s.inflight.filter p))).filter fun f => !p f :=
        congrArg (List.filter fun f => !p f) (drop_inflight (s.inflight.filter p) s)
    _ = (s.inflight.filter fun f => !p f).map (InFlight.stripped (s.inflight.filter p)) := by
        rw [List.filter_map]
        exact congrArg (List.map _) (List.filter_congr fun x _ => by simp [hstrip])
    _ = s.inflight.filter fun f => !p f := List.map_congr_left hkept |>.trans (List.map_id _)

theorem orphan_all : (s.orphan fun _ => true).inflight = [] := List.filter_eq_nil_iff.mpr (by simp)

end

/-! ### A ROSTER (05 R127; 08 R210; 18 R442) -/

section
variable (x : RingSt) (master : Bool) (order : List Node)

@[simp] theorem takeRoster_rosterIds : (x.takeRoster master order).rosterIds = order := by cases master <;> rfl
@[simp] theorem takeRoster_hasId : (x.takeRoster master order).hasId = x.newId.isSome := by cases master <;> rfl
@[simp] theorem takeRoster_nodeId : (x.takeRoster master order).nodeId = x.newId.getD x.nodeId := by
  cases master <;> rfl
@[simp] theorem takeRoster_freshDue : (x.takeRoster master order).freshDue = x.freshDue := by cases master <;> rfl
@[simp] theorem takeRoster_rebindDue : (x.takeRoster master order).rebindDue = false := by cases master <;> rfl

end

theorem streamStops_placeKept (s : State) (r : Ring) (ids : List Node) : PlaceKept r s (s.streamStops r ids) := by
  unfold State.streamStops
  split
  · refine .trans ?_ (raise_placeKept r { s with tal := { s.tal with on := 1, node := 0x1F, ring := .a } } .tal 0x02)
    exact .of_ring (by cases r <;> rfl) rfl rfl rfl (fun _ _ h => h) (sameStores_of_eq rfl rfl rfl)
  · exact .refl r s

theorem bindHouse_placeKept (s : State) (r : Ring) (order : List Node) : RingPlaceKept r s (s.bindHouse order) :=
  .of_ring (by cases r <;> rfl) (fun _ _ h => h) (sameStores_of_eq rfl rfl rfl)

theorem bindHouse_binds {s : State} {order : List Node} {n : Node}
    (h : (if s.bar.beatsrc then order[1]? else order[0]?) = some n) :
    ((s.bindHouse order).kit 0).binds = [⟨n, 0, none⟩] := by
  simp [State.bindHouse, h]

theorem orphan_placeKept (s : State) (r : Ring) (p : InFlight → Bool) : RingPlaceKept r s (s.orphan p) := by
  have h := orphan_serviceEnds s p
  refine .of_ring ((h.ring r).trans (by cases r <;> rfl)) (fun i n hb => ?_) (sameStores_trans ?_ h.stores)
  · rw [State.ev, h.evs]
    exact hb
  · exact sameStores_of_eq rfl rfl rfl

theorem orphan_binds (s : State) (p : InFlight → Bool) (k : Kit) : ((s.orphan p).kit k).binds = (s.kit k).binds :=
  (orphan_serviceEnds s p).binds k

/-- A ring's ROSTER taken, with what the first one after an opening brings. -/
def State.rosterJoined (s : State) (r : Ring) (order : List Node) : State :=
  (s.setRing r ((s.ring r).takeRoster s.bar.beatsrc order)).joins r

/-- Kit 0 is bound where it may be, and a restart is reported. -/
def State.houseBound (s : State) (x : RingSt) (order : List Node) : State :=
  let s1 := if x.rebindDue then s.bindHouse order else s
  if x.freshRun then s1.raise .sw 0x01 else s1

/-- Whether a request came over a ring from a node that its ROSTER omits. -/
def InFlight.omitted (r : Ring) (order : List Node) (f : InFlight) : Bool :=
  f.rq.via == .ring r && !order.contains f.rq.src

theorem rostered_eq {s : State} {r : Ring} {epoch : BitVec 8} {order : List Node} (hring : s.mode.onRing = true)
    (hcomp : s.completing = false) (hopen : (s.ring r).swOpen = true) (hseen : (s.ring r).enumSeen = true)
    (hepoch : (s.ring r).epoch = epoch) :
    s.rostered r epoch order =
      (((s.rosterJoined r order).houseBound (s.ring r) order).orphan (InFlight.omitted r order)).streamStops r order := by
  rw [State.rostered, if_neg (by simp [hring, hcomp, hopen, hseen, hepoch])]
  rfl

theorem rosterJoined_placeKept (s : State) (r : Ring) (order : List Node) :
    PlaceKept r (s.setRing r { (s.ring r).takeRoster s.bar.beatsrc order with joined := true })
      (s.rosterJoined r order) := by
  have h := joins_placeKept (s.setRing r ((s.ring r).takeRoster s.bar.beatsrc order)) r
  rwa [ring_setRing, setRing_setRing] at h

section
variable (s : State) (x : RingSt) (order : List Node)

theorem houseBound_placeKept (r : Ring) : RingPlaceKept r s (s.houseBound x order) := by
  have h : RingPlaceKept r s (if x.rebindDue then s.bindHouse order else s) := by
    split
    · exact bindHouse_placeKept s r order
    · exact (PlaceKept.refl r s).toRingPlaceKept
  unfold State.houseBound
  extract_lets s1
  split
  · exact h.trans (raise_placeKept r s1 .sw 0x01).toRingPlaceKept
  · exact h

theorem houseBound_inflight : (s.houseBound x order).inflight = s.inflight := by
  unfold State.houseBound
  cases x.freshRun <;> cases x.rebindDue <;> rfl

theorem houseBound_kit (k : Kit) :
    (s.houseBound x order).kit k = (if x.rebindDue then s.bindHouse order else s).kit k := by
  unfold State.houseBound
  cases x.freshRun <;> rfl

theorem houseBound_reports (h : x.freshRun = true) : ((s.houseBound x order).ev .sw).bits.getLsbD 0 = true := by
  rw [State.houseBound, if_pos h, ev_raise_same]
  simp

end

theorem omitted_iff {r : Ring} {order : List Node} {f : InFlight} :
    (!f.omitted r order) = true ↔ ¬(f.rq.via = .ring r ∧ f.rq.src ∉ order) := by
  simp [InFlight.omitted, imp_iff_not_or]

/-- The state that a ROSTER leaves. -/
theorem rostered_settles {s : State} {r : Ring} {epoch : BitVec 8} (order : List Node) (hring : s.mode.onRing = true)
    (hcomp : s.completing = false) (hopen : (s.ring r).swOpen = true) (hseen : (s.ring r).enumSeen = true)
    (hepoch : (s.ring r).epoch = epoch) (hnodup : (s.inflight.map fun f => f.rid).Nodup) :
    let t := s.rostered r epoch order
    RingPlaceKept r (s.setRing r { (s.ring r).takeRoster s.bar.beatsrc order with joined := true }) t ∧
    t.inflight = (s.inflight.filter fun f => !f.omitted r order) ∧
    (∀ n, (s.ring r).rebindDue = true → (if s.bar.beatsrc then order[1]? else order[0]?) = some n →
      (t.kit 0).binds = [⟨n, 0, none⟩]) ∧
    ((s.ring r).rebindDue = false → (t.kit 0).binds = (s.kit 0).binds) ∧
    ((s.ring r).freshRun = true → (t.ev .sw).bits.getLsbD 0 = true) := by
  intro t
  have ht : t = _ := rostered_eq hring hcomp hopen hseen hepoch
  have hjoin := rosterJoined_placeKept s r order
  have hfly : ((s.rosterJoined r order).houseBound (s.ring r) order).inflight = s.inflight :=
    (houseBound_inflight ..).trans (hjoin.inflight.trans (setRing_inflight ..))
  have hhouse := houseBound_placeKept (s.rosterJoined r order) (s.ring r) order r
  have hbound := houseBound_kit (s.rosterJoined r order) (s.ring r) order 0
  have hreports := houseBound_reports (s.rosterJoined r order) (s.ring r) order
  generalize (s.rosterJoined r order).houseBound (s.ring r) order = v at *
  have horphan := orphan_placeKept v r (InFlight.omitted r order)
  have hstop := streamStops_placeKept (v.orphan (InFlight.omitted r order)) r order
  rw [← ht] at hstop
  have hbinds : (t.kit 0).binds = (v.kit 0).binds := hstop.binds.trans (orphan_binds v _ 0)
  refine ⟨((hjoin.toRingPlaceKept.trans hhouse).trans horphan).trans hstop.toRingPlaceKept, ?_, fun n hdue hn => ?_,
    fun hdue => ?_, fun hrun => hstop.events _ _ (horphan.events _ _ (hreports hrun))⟩
  · rw [hstop.inflight, orphan_inflight v _ (fun _ _ => rfl) (by rwa [hfly]), hfly]
  · rw [hbinds, hbound, if_pos hdue]
    exact bindHouse_binds (by rw [hjoin.beatsrc, setRing_bar]; exact hn)
  · rw [hbinds, hbound, if_neg (by simp [hdue]), hjoin.binds, setRing_kit]

/-! ### A restart (05 R128; 08 R211) -/

/-- With no write held, no merge open and no chord waiting, a completion has nothing to do. -/
theorem closeAll_of_empty {s : State} (hmerges : s.merges = []) : s.closeAll = s := by
  unfold State.closeAll
  extract_lets toks many t back
  have ht : t = { s with kits := s.kits.map many } := closeMerges_empty _ hmerges
  have hkits : Vector.ofFn back = s.kits := by
    ext i hi
    simp [back, ht, many, toks, State.kit]
  rw [hkits, ht]

theorem finishHolds_of_empty {s : State} (comp : CompOut) (hhold : s.hold = []) (hmerges : s.merges = [])
    (hchordq : s.chordq = []) : s.finishHolds comp = s := by
  have htable : s.tableFirst = s := by
    rw [State.tableFirst, hchordq]
    exact (congrArg (fun l => { s with chordq := l }) hchordq).symm
  rw [State.finishHolds, closeAll_of_empty hmerges, htable, hhold]
  rfl

/-- A live Kit other than Kit 0 loses its bindings and is suspended. -/
def State.suspendKit (s : State) (k : Kit) : State :=
  if k == 0 || !(s.kit k).live then s
  else (s.setKit k { s.kit k with binds := [], suspended := true }).raise (.kit k) 0x02

/-- Suspended Kits: nothing else changes but their events. -/
structure Suspends (s t : State) : Prop where
  ring : ∀ r, t.ring r = s.ring r
  house : t.kit 0 = s.kit 0
  inflight : t.inflight = s.inflight
  orphaned : t.orphaned = s.orphaned
  pages : t.pages = s.pages
  events : ∀ i n, (s.ev i).bits.getLsbD n = true → (t.ev i).bits.getLsbD n = true
  stores : SameStores s t

theorem Suspends.refl (s : State) : Suspends s s :=
  ⟨fun _ => rfl, rfl, rfl, rfl, rfl, fun _ _ h => h, sameStores_of_eq rfl rfl rfl⟩

theorem Suspends.trans {s t u : State} (hst : Suspends s t) (htu : Suspends t u) : Suspends s u :=
  ⟨fun r => (htu.ring r).trans (hst.ring r), htu.house.trans hst.house, htu.inflight.trans hst.inflight,
    htu.orphaned.trans hst.orphaned, htu.pages.trans hst.pages, fun i n h => htu.events i n (hst.events i n h),
    sameStores_trans hst.stores htu.stores⟩

theorem suspendKit_suspends (s : State) (k : Kit) : Suspends s (s.suspendKit k) := by
  unfold State.suspendKit
  split
  · exact .refl s
  · next h =>
    have hk : k ≠ 0 := by simp at h; exact h.1
    exact ⟨fun r => by cases r <;> rfl, kit_setKit_of_ne s k 0 _ hk, rfl, rfl, rfl,
      fun i n hb => ev_raise_keeps (s.setKit k _) (.kit k) 0x02 hb, sameStores_of_eq rfl rfl rfl⟩

theorem suspendKit_other (s : State) {k l : Kit} (h : k ≠ l) : (s.suspendKit k).kit l = s.kit l := by
  unfold State.suspendKit
  split
  · rfl
  · exact kit_setKit_of_ne s k l _ h

theorem suspendKit_self {s : State} {k : Kit} (hk : k ≠ 0) (hlive : (s.kit k).live = true) :
    (s.suspendKit k).kit k = { s.kit k with binds := [], suspended := true } ∧
    ((s.suspendKit k).ev (.kit k)).bits.getLsbD 1 = true := by
  rw [State.suspendKit, if_neg (by simp [hk, hlive])]
  exact ⟨kit_setKit .., by rw [ev_raise_same]; simp⟩

theorem suspendAll_suspends (l : List Kit) (s : State) : Suspends s (forEach (fun k t => t.suspendKit k) l s) :=
  forEach_forall .refl (fun _ _ _ => .trans) (fun k t => suspendKit_suspends t k) l s

theorem suspendAll_other {l : List Kit} {k : Kit} (s : State) (h : k ∉ l) :
    (forEach (fun k t => t.suspendKit k) l s).kit k = s.kit k := by
  induction l generalizing s with
  | nil => rfl
  | cons x xs ih =>
    exact (ih (s.suspendKit x) (List.not_mem_of_not_mem_cons h)).trans
      (suspendKit_other s (List.ne_of_not_mem_cons h).symm)

theorem suspendAll_mem {l : List Kit} {k : Kit} (s : State) (hnodup : l.Nodup) (hmem : k ∈ l) (hk : k ≠ 0)
    (hlive : (s.kit k).live = true) :
    (forEach (fun k t => t.suspendKit k) l s).kit k = { s.kit k with binds := [], suspended := true } ∧
    ((forEach (fun k t => t.suspendKit k) l s).ev (.kit k)).bits.getLsbD 1 = true := by
  induction l generalizing s with
  | nil => cases hmem
  | cons x xs ih =>
    obtain ⟨hx, hxs⟩ := List.nodup_cons.mp hnodup
    by_cases e : x = k
    · subst e
      obtain ⟨hkit, hev⟩ := suspendKit_self hk hlive
      exact ⟨(suspendAll_other _ hx).trans hkit, (suspendAll_suspends xs _).events _ _ hev⟩
    · have hkit := suspendKit_other s e
      have h := ih (s.suspendKit x) hxs ((List.mem_cons.mp hmem).resolve_left (Ne.symm e)) (by rw [hkit]; exact hlive)
      rwa [hkit] at h

theorem suspendKits_suspends (s : State) : Suspends s s.suspendKits := suspendAll_suspends allKits s

theorem suspendKits_live {s : State} {k : Kit} (hk : k ≠ 0) (hlive : (s.kit k).live = true) :
    s.suspendKits.kit k = { s.kit k with binds := [], suspended := true } ∧
    (s.suspendKits.ev (.kit k)).bits.getLsbD 1 = true :=
  suspendAll_mem s (List.nodup_finRange 16) (List.mem_finRange k) hk hlive

/-- A restart that is due: requests dropped and counted, Kits suspended. -/
theorem freshRestart_restarts {s : State} {r : Ring} (comp : CompOut) (hdue : (s.ring r).freshDue = true)
    (hcomp : s.completing = false) (hhold : s.hold = []) (hmerges : s.merges = []) (hchordq : s.chordq = []) :
    let t := s.freshRestart r comp
    t.inflight = [] ∧ (t.ring r).freshDue = false ∧ t.orphaned = min (s.orphaned + s.inflight.length) (2 ^ 32 - 1) ∧
    (∀ k, k ≠ 0 → (s.kit k).live = true → (t.kit k).suspended = true ∧ (t.kit k).binds = [] ∧
      (t.kit k).key = (s.kit k).key ∧ (t.kit k).wins = (s.kit k).wins ∧ (t.ev (.kit k)).bits.getLsbD 1 = true) ∧
    (t.kit 0).binds = (s.kit 0).binds ∧ t.pages = s.pages ∧ SameStores s t := by
  intro t
  have ht : t = (s.orphan fun _ => true).suspendKits.setRing r
      { (s.orphan fun _ => true).suspendKits.ring r with freshDue := false } := by
    unfold t State.freshRestart
    rw [finishHolds_of_empty comp hhold hmerges hchordq]
    exact if_neg (by simp [hdue, hcomp])
  have hdrop := orphan_serviceEnds s fun _ => true
  have hsusp := suspendKits_suspends (s.orphan fun _ => true)
  have hfly := orphan_all s
  refine ⟨?_, ?_, ?_, fun k hk hlive => ?_, ?_, ?_, ?_⟩
  · rw [ht, setRing_inflight, hsusp.inflight, hfly]
  · rw [ht, ring_setRing]
  · rw [ht, setRing_orphaned, hsusp.orphaned, hdrop.orphaned]
    simp [up32, satAdd, maxOf, Nat.min_comm]
  · obtain ⟨n, hn⟩ := hdrop.kits k
    obtain ⟨hk', hev⟩ := suspendKits_live (s := s.orphan fun _ => true) hk (by rw [hn]; exact hlive)
    rw [ht, setRing_kit, setRing_ev, hk', hn]
    exact ⟨rfl, rfl, rfl, rfl, hev⟩
  · rw [ht, setRing_kit, hsusp.house, hdrop.binds]
    rfl
  · rw [ht, setRing_pages, hsusp.pages, hdrop.pages]
  · rw [ht]
    refine sameStores_trans (sameStores_trans ?_ hdrop.stores) (sameStores_trans hsusp.stores (setRing_stores ..))
    exact sameStores_of_eq rfl rfl rfl

/-! ### ENUM (05 R126, R124, R128) -/

section
variable (x : RingSt) (master fresh : Bool) (epoch : BitVec 8) (pos : Nat) (order : List Node) (next : Node)

@[simp] theorem enumerate_nodeId : (x.enumerate master fresh epoch pos order next).nodeId = x.nodeId := by
  simp [RingSt.enumerate, RingSt.newUpstream, apply_ite RingSt.nodeId]

@[simp] theorem enumerate_hasId : (x.enumerate master fresh epoch pos order next).hasId = x.hasId := by
  simp [RingSt.enumerate, RingSt.newUpstream, apply_ite RingSt.hasId]

@[simp] theorem enumerate_freshDue : (x.enumerate master fresh epoch pos order next).freshDue = x.freshDue := by
  simp [RingSt.enumerate, RingSt.newUpstream, apply_ite RingSt.freshDue]

@[simp] theorem enumerate_rebindDue : (x.enumerate master fresh epoch pos order next).rebindDue = x.rebindDue := by
  simp [RingSt.enumerate, RingSt.newUpstream, apply_ite RingSt.rebindDue]

@[simp] theorem enumerate_owners : (x.enumerate master fresh epoch pos order next).owners = x.owners := by
  simp [RingSt.enumerate, RingSt.newUpstream, apply_ite RingSt.owners]

theorem enumerate_fresh_newId : (x.enumerate false true epoch pos order next).newId =
    if next.toNat < 30 then some next else none := by
  simp [RingSt.enumerate]

theorem enumerate_refresh_newId (h : x.hasId = true) :
    (x.enumerate false false epoch pos order next).newId = some x.nodeId := by
  simp [RingSt.enumerate, h]

end

@[simp] theorem strictLapse_ring (s : State) (r : Ring) : s.strictLapse.ring r = s.ring r := by
  unfold State.strictLapse
  split <;> cases r <;> rfl

/-- What a FRESH enumeration does to a ring besides its entry: positions lose their owners, Kit 0 may be bound again, and a
restart may be due. -/
def RingSt.freshened (y : RingSt) (restart : Bool) : RingSt :=
  { y with owners := List.replicate 8 0x1F, ownersNext := none, rebindDue := true,
           freshDue := y.freshDue || restart, freshRun := y.freshRun || restart }

section
variable {s : State} {r : Ring} {epoch : BitVec 8} (pos : Nat) (order : List Node) (next : Node)

/-- An epoch that was seen already. -/
theorem enumerated_seen (fresh : Bool) (hseen : (s.ring r).enumSeen = true) (hepoch : (s.ring r).epoch = epoch) :
    s.enumerated r fresh epoch pos order next = s :=
  if_pos (by simp [hseen, hepoch])

section
variable (hring : s.mode.onRing = true) (hcomp : s.completing = false) (hopen : (s.ring r).swOpen = true)
  (hsrc : s.bar.beatsrc = false) (hnew : (s.ring r).enumSeen = false ∨ (s.ring r).epoch ≠ epoch)
include hring hcomp hopen hnew

/-- The guard that lets an ENUM through. -/
theorem enumerated_guard :
    ¬(!s.mode.onRing || s.completing || !(s.ring r).swOpen ||
      ((s.ring r).enumSeen && (s.ring r).epoch == epoch)) = true := by
  simp only [hring, hcomp, hopen, Bool.not_true, Bool.false_or]
  rcases hnew with h | h <;> simp [h]

include hsrc

theorem enumerated_refresh (hid : (s.ring r).hasId = true) :
    s.enumerated r false epoch pos order next =
      (s.setRing r ((s.ring r).enumerate false false epoch pos order next)).bMoves := by
  rw [State.enumerated, if_neg (enumerated_guard hring hcomp hopen hnew)]
  simp [State.sendEnum, hsrc, enumerate_refresh_newId _ _ _ _ _ hid]

theorem enumerated_fresh :
    let y := (s.ring r).enumerate false true epoch pos order next
    let s1 := (s.setRing r (y.freshened (s.mode == .run || s.mode == .degraded))).bMoves
    s.enumerated r true epoch pos order next =
      (if y.newId.isSome then s1 else s1.raise .sw 0x02).strictLapse := by
  intro y s1
  rw [State.enumerated, if_neg (enumerated_guard hring hcomp hopen hnew)]
  simp only [State.sendEnum, setRing_bar, hsrc, Bool.false_eq_true, if_false, if_true, Bool.true_and]
  rfl

/-- The ring and the stores behind a FRESH entry, with or without the report that no ID was left. -/
theorem enumerated_fresh_ring :
    let t := s.enumerated r true epoch pos order next
    t.ring r = ((s.ring r).enumerate false true epoch pos order next).freshened
      (s.mode == .run || s.mode == .degraded) ∧ SameStores s t := by
  intro t
  have ht := enumerated_fresh pos order next hring hcomp hopen hsrc hnew
  extract_lets y s1 at ht
  have h1 : SameStores s s1 := sameStores_trans (setRing_stores ..) (bMoves_stores _)
  have h2 : PlaceKept r s1 (if y.newId.isSome then s1 else s1.raise .sw 0x02) := by
    split
    · exact .refl r s1
    · exact raise_placeKept r s1 _ _
  refine ⟨?_, ?_⟩
  · rw [show t = _ from ht, strictLapse_ring]
    split
    · rw [bMoves_ring, ring_setRing]
    · rw [raise_ring, bMoves_ring, ring_setRing]
  · rw [show t = _ from ht]
    exact sameStores_trans h1 (sameStores_trans h2.stores (strictLapse_placeKept r _).stores)

/-- With no ID left SW_EVENTS bit 1 says so. -/
theorem enumerated_noId (hnext : 30 ≤ next.toNat) :
    ((s.enumerated r true epoch pos order next).ev .sw).bits.getLsbD 1 = true := by
  rw [enumerated_fresh pos order next hring hcomp hopen hsrc hnew, enumerate_fresh_newId,
    if_neg (Nat.not_lt.mpr hnext)]
  refine (strictLapse_placeKept r _).events _ _ ?_
  rw [if_neg (by simp), ev_raise_same]
  simp

end
end

/-! ### The rows -/

theorem exec_enum {order : List Node} (s : State) (r : Ring) (fresh : Bool) (epoch : BitVec 8) (pos : BitVec 5)
    (next : Node) (h : order.length ≤ 30) :
    exec (.enum r fresh epoch pos order next) s = .next (s.enumerated r fresh epoch pos.toNat order next) :=
  if_pos (decide_eq_true h)

theorem exec_roster {order : List Node} (s : State) (r : Ring) (epoch : BitVec 8) (h : order.length ≤ 30) :
    exec (.roster r epoch order) s = .next (s.rostered r epoch order) :=
  if_pos (decide_eq_true h)

theorem exec_slotmap {owners : List Node} (s : State) (r : Ring) (h : owners.length = 8) :
    exec (.slotmap r owners) s = .next (s.slotMap r owners) :=
  if_pos (beq_iff_eq.mpr h)

section
variable {s : State} {r : Ring} (owners : List Node) (hring : s.mode.onRing = true) (hcomp : s.completing = false)
  (hopen : (s.ring r).swOpen = true)
include hring hcomp hopen

theorem slotMap_waits (hsrc : s.bar.beatsrc = false) :
    s.slotMap r owners = s.setRing r { s.ring r with ownersNext := some owners } := by
  simp [State.slotMap, hring, hcomp, hopen, hsrc]

theorem slotMap_sent (hsrc : s.bar.beatsrc = true) (hrate : s.bar.rateNext = none) :
    s.slotMap r owners = s.setRing r { s.ring r with ownersNext := some owners, msg := some (slotMsg owners) } := by
  simp [State.slotMap, State.say, hring, hcomp, hopen, hsrc, hrate]

end

theorem slotMap_closed {s : State} {r : Ring} (owners : List Node) (h : (s.ring r).swOpen = false) :
    s.slotMap r owners = s :=
  if_pos (by simp [h])

theorem rostered_ignored {s : State} {r : Ring} {epoch : BitVec 8} (order : List Node) (h : (s.ring r).epoch ≠ epoch) :
    s.rostered r epoch order = s :=
  if_pos (by simp [h])

theorem freshRestart_ignored {s : State} {r : Ring} (comp : CompOut) (h : (s.ring r).freshDue = false) :
    s.freshRestart r comp = s :=
  if_pos (by simp [h])

/-- Settles O46: an entry, a roster and a restart each as the composition of their steps, of which every one says what it
keeps of the device's place. -/
theorem enumerationAndRoster : Obligations.EnumerationAndRoster := by
  refine ⟨fun s r epoch pos order next => ?_, fun s r epoch order hlen => ?_⟩
  · intro x ok new
    refine ⟨?fresh, ?noId, ?refresh, ?seen, ?slotmap, ?closed⟩
    case fresh =>
      rintro ⟨hring, hcomp, hopen, hsrc, hlen⟩ hnew hnext
      obtain ⟨hx, hstores⟩ := enumerated_fresh_ring pos.toNat order next hring hcomp hopen hsrc hnew
      refine ⟨_, exec_enum s r true epoch pos next hlen, ?_⟩
      rw [hx]
      refine ⟨(enumerate_fresh_newId x epoch pos.toNat order next).trans (if_pos hnext), ?_, ?_, rfl, rfl, rfl, rfl, ?_, hstores⟩
      all_goals simp [RingSt.freshened, x]
    case noId =>
      rintro ⟨hring, hcomp, hopen, hsrc, hlen⟩ hnew hnext
      obtain ⟨hx, hstores⟩ := enumerated_fresh_ring pos.toNat order next hring hcomp hopen hsrc hnew
      refine ⟨_, exec_enum s r true epoch pos next hlen, ?_,
        enumerated_noId pos.toNat order next hring hcomp hopen hsrc hnew hnext, hstores⟩
      rw [hx]
      exact (enumerate_fresh_newId x epoch pos.toNat order next).trans (if_neg (Nat.not_lt.mpr hnext))
    case refresh =>
      rintro ⟨hring, hcomp, hopen, hsrc, hlen⟩ hnew hid
      refine ⟨_, (exec_enum s r false epoch pos next hlen).trans (congrArg Host.Outcome.next
        (enumerated_refresh pos.toNat order next hring hcomp hopen hsrc hnew hid)), ?_⟩
      rw [bMoves_ring, ring_setRing]
      exact ⟨enumerate_refresh_newId _ _ _ _ _ hid, enumerate_nodeId .., (enumerate_hasId ..).trans hid, rfl,
        enumerate_rebindDue .., enumerate_freshDue .., enumerate_owners .., setRing_evs .., setRing_kits ..,
        sameStores_trans (setRing_stores ..) (bMoves_stores _)⟩
    case seen =>
      intro fresh hlen hseen hepoch
      rw [exec_enum s r fresh epoch pos next hlen, enumerated_seen _ _ _ fresh hseen hepoch]
    case slotmap =>
      intro owners hlen hring hcomp hopen
      rw [exec_slotmap s r hlen]
      exact ⟨fun hsrc => congrArg Host.Outcome.next (slotMap_waits owners hring hcomp hopen hsrc),
        fun hsrc hrate => congrArg Host.Outcome.next (slotMap_sent owners hring hcomp hopen hsrc hrate)⟩
    case closed =>
      intro owners hlen hclosed
      rw [exec_slotmap s r hlen, slotMap_closed owners hclosed]
  · intro x
    refine ⟨fun hring hcomp hopen hseen hepoch hnodup => ?roster, fun h => ?otherEpoch,
      fun comp hdue hcomp hhold hmerges hchordq => ?restart, fun comp h => ?notDue⟩
    case roster =>
      obtain ⟨hplace, hfly, hbind, hkeep, hreport⟩ := rostered_settles order hring hcomp hopen hseen hepoch hnodup
      refine ⟨_, exec_roster s r epoch hlen, hplace.rosterIds.trans ?_, hplace.joined ?_, hplace.hasId.trans ?_,
        hplace.nodeId.trans ?_, hplace.freshDue.trans ?_, hplace.rebindDue.trans ?_, fun f => ?kept, hbind, hkeep, hreport,
        sameStores_trans (setRing_stores ..) hplace.stores⟩
      case kept => rw [hfly, List.mem_filter, omitted_iff]
      all_goals simp [x]
    case otherEpoch => rw [exec_roster s r epoch hlen, rostered_ignored order h]
    case restart =>
      exact ⟨_, rfl, freshRestart_restarts comp hdue hcomp hhold hmerges hchordq⟩
    case notDue => exact congrArg Host.Outcome.next (freshRestart_ignored comp h)

end Sys2Proof.Machine

/-! PROOFS. The bound of a request (06 R157, R158) and device packets that come back (06 R161). -/

namespace Sys2Proof.Machine

theorem exec_requestTimeout (rid : Nat) (s : State) : exec (.requestTimeout rid) s = .next (s.requestLate rid) := rfl

theorem exec_wedgeReply (rid : Nat) (s : State) : exec (.wedgeReply rid) s = .next (s.wedged rid) := rfl

theorem exec_devicePacketRefused (r : Ring) (n : Node) (q : BitVec 16) (s : State) :
    exec (.devicePacketRefused r n q) s = .next (s.devRefused r n q.toNat) := rfl

/-! ### REQUEST_TIMEOUT (06 R157) -/

/-- A request's block is one of the twelve ports of the switch (log 37). -/
theorem portOf_lt (o : Nat) : portOf o < 12 := by
  unfold portOf
  repeat' split
  all_goals decide

theorem findReq_updReq {s : State} {rid : Nat} {f : InFlight} {g : InFlight → InFlight} (hfind : s.findReq rid = some f)
    (hrid : ∀ x, (g x).rid = x.rid) : (s.updReq rid g).findReq rid = some (g f) := by
  have hsame : (fun x => x.rid == rid) ∘ (fun x => if x.rid == rid then g x else x) = fun x : InFlight => x.rid == rid := by
    funext x
    simp only [Function.comp_apply]
    split <;> simp [hrid]
  have hf : (f.rid == rid) = true := List.find?_some (p := fun x : InFlight => x.rid == rid) hfind
  change List.find? _ (List.map _ _) = _
  rw [List.find?_map, hsame]
  change Option.map _ (s.findReq rid) = _
  rw [hfind, Option.map_some, if_pos hf]

theorem updReq_ev (s : State) (rid : Nat) (g : InFlight → InFlight) (i : EvId) : (s.updReq rid g).ev i = s.ev i := rfl

theorem logRec_findReq (s : State) (code arg : Nat) (r : Option Nat) (rid : Nat) :
    (s.logRec code arg r).findReq rid = s.findReq rid := rfl

theorem raise_findReq (s : State) (i : EvId) (mask : BitVec 8) (rid : Nat) :
    (s.raise i mask).findReq rid = s.findReq rid := rfl

theorem logRec_queues {s : State} (code arg : Nat) (rid : Option Nat) (hroom : s.bel.logq.length < 64) :
    (s.logRec code arg rid).bel.logq = s.bel.logq ++ [⟨code, s.tb, s.logTime, arg % 2 ^ 32, rid⟩] := by
  have h : s.bel.room = true := decide_eq_true hroom
  simp [State.logRec, Bel.log, h]

theorem logRec_mem (s : State) (code arg : Nat) (rid : Option Nat) : (s.logRec code arg rid).bel.mem = s.bel.mem := by
  obtain ⟨q, n, l, f, h⟩ := logRec_eq s code arg rid
  rw [h]

/-- A request is found late: GEN_EVENTS.WEDGE is raised and a WEDGE record of its port logged. -/
def State.lateNoted (s : State) (f : InFlight) : State :=
  (((s.calRan 4).updReq f.rid fun x => { x with stage := .late }).raise .gen 0x01).logRec 0x0701 f.port (some f.rid)

theorem lateNoted_wedge (s : State) (f : InFlight) : ((s.lateNoted f).ev .gen).bits = (s.ev .gen).bits ||| 0x01 :=
  ev_raise_same ((s.calRan 4).updReq f.rid fun x => { x with stage := .late }) .gen 0x01

theorem lateNoted_findReq {s : State} {f : InFlight} (hfind : s.findReq f.rid = some f) :
    (s.lateNoted f).findReq f.rid = some { f with stage := .late } := by
  rw [State.lateNoted, logRec_findReq, raise_findReq]
  exact findReq_updReq (s := s.calRan 4) hfind fun _ => rfl

theorem lateNoted_stores (s : State) (f : InFlight) : SameStores s (s.lateNoted f) :=
  sameStores_of_eq rfl rfl (logRec_mem _ _ _ _)

theorem lateNoted_replies (s : State) (f : InFlight) : (s.lateNoted f).replies = s.replies := rfl

theorem lateNoted_pages (s : State) (f : InFlight) : (s.lateNoted f).pages = s.pages := rfl

theorem lateNoted_record (s : State) (f : InFlight) (hroom : s.bel.logq.length < 64) :
    ∃ x, (s.lateNoted f).bel.logq = s.bel.logq ++ [x] ∧ x.code = 0x0701 ∧ x.rid = some f.rid ∧
      x.arg = portOf f.rq.opc.toNat :=
  ⟨_, logRec_queues _ _ _ hroom, rfl, rfl, Nat.mod_eq_of_lt ((portOf_lt _).trans (by decide))⟩

theorem requestLate_within {s : State} {f : InFlight} (hfind : s.findReq f.rid = some f)
    (h : elapsed f.admBeat s.bar.beatno < s.gen.reqTo * 1024 + f.stood ∨ s.inBound f.rid = true) :
    s.requestLate f.rid = s := by
  rcases h with h | h <;> simp [State.requestLate, hfind, h]

section
variable {s : State} {f : InFlight} (hfind : s.findReq f.rid = some f) (hopen : f.stage ≠ .replied)
  (hfresh : f.stage ≠ .late) (htraffic : s.mode.traffic = true) (hcal : s.calMore 4 = true)
  (hbound : s.inBound f.rid = false) (hpast : s.gen.reqTo * 1024 + f.stood ≤ elapsed f.admBeat s.bar.beatno)
include hfind hopen hfresh htraffic hcal hbound hpast

/-- A WEDGE record that found no room in the queue is known as dropped at once (R384). -/
theorem requestLate_past : s.requestLate f.rid =
    if s.bel.room then s.lateNoted f
    else (s.lateNoted f).updReq f.rid fun x => { x with wedge := some (0, 2) } := by
  simp only [State.requestLate, hfind]
  rw [if_neg (by simp [hopen, hfresh, htraffic, hcal, hbound]; omega)]
  rfl

/-- A request past its bound is late, without a reply yet; a record with no room is known as dropped. -/
theorem requestLate_times_out :
    let t := s.requestLate f.rid
    ∃ g, (t.ev .gen).bits = (s.ev .gen).bits ||| 0x01 ∧ t.findReq f.rid = some g ∧ g.stage = .late ∧ g.rq = f.rq ∧
      (64 ≤ s.bel.logq.length → g.wedge = some (0, 2)) ∧ t.replies = s.replies ∧ SameStores s t ∧ t.pages = s.pages ∧
      (s.bel.logq.length < 64 → ∃ x, t.bel.logq = s.bel.logq ++ [x] ∧ x.code = 0x0701 ∧ x.rid = some f.rid ∧
        x.arg = portOf f.rq.opc.toNat) := by
  have hroom : s.bel.room = true ↔ s.bel.logq.length < 64 := decide_eq_true_iff
  rw [requestLate_past hfind hopen hfresh htraffic hcal hbound hpast]
  split
  case isTrue h =>
    exact ⟨_, lateNoted_wedge s f, lateNoted_findReq hfind, rfl, rfl, fun hfull => absurd (hroom.mp h) (Nat.not_lt.mpr hfull),
      lateNoted_replies s f, lateNoted_stores s f, lateNoted_pages s f, lateNoted_record s f⟩
  case isFalse h =>
    dsimp only
    rw [updReq_ev, updReq_replies, updReq_pages]
    exact ⟨_, lateNoted_wedge s f, findReq_updReq (lateNoted_findReq hfind) fun _ => rfl, rfl, rfl, fun _ => rfl,
      lateNoted_replies s f, sameStores_trans (lateNoted_stores s f) (updReq_countsOnly ..).stores, lateNoted_pages s f,
      fun hlt => absurd (hroom.mpr hlt) h⟩
end

/-! ### WEDGE_REPLY (06 R157, R158) -/

/-- A block that is served no more until a full reset (R158). -/
def State.portWedged (s : State) (port : Nat) : State :=
  { s with wedgedPorts := s.wedgedPorts ||| BitVec.ofNat 12 (2 ^ port) }

theorem portWedged_names (s : State) {port : Nat} (h : port < 12) :
    (s.portWedged port).wedgedPorts.getLsbD port = true := by
  rw [State.portWedged, BitVec.getLsbD_or, BitVec.getLsbD_ofNat, Nat.testBit_two_pow_self, Bool.and_true,
    decide_eq_true h, Bool.or_true]

theorem wedged_of_record {s : State} {f : InFlight} {num w : Nat} (hfind : s.findReq f.rid = some f)
    (hopen : f.stage ≠ .replied) (hwedge : f.wedge = some (num, w)) :
    s.wedged f.rid =
      ((s.portWedged f.port).giveBack f.rid).queueReply f.rid f.rq f.kit (ans 0x60 (detInternal f.port w num)) := by
  simp only [State.wedged, hfind, hwedge]
  rw [if_neg (by simp [hopen])]
  rfl

theorem wedged_of_no_record {s : State} {f : InFlight} (hfind : s.findReq f.rid = some f) (hwedge : f.wedge = none) :
    s.wedged f.rid = s := by
  simp only [State.wedged, hfind, hwedge]

/-- The late reply: INTERNAL with the port and the record's place, and the port's block is named. -/
theorem wedged_replies {s : State} {f : InFlight} {num w : Nat} (hfind : s.findReq f.rid = some f)
    (hopen : f.stage ≠ .replied) (hwedge : f.wedge = some (num, w)) :
    SameStores s (s.wedged f.rid) ∧
      Replied s (s.wedged f.rid) f.rid f.rq 0x60 (portOf f.rq.opc.toNat + 65536 * (num % 65536) + 2 ^ 32 * w) [] ∧
      (s.wedged f.rid).wedgedPorts.getLsbD (portOf f.rq.opc.toNat) = true := by
  rw [wedged_of_record hfind hopen hwedge]
  have hnamed : SameStores s (s.portWedged f.port) := sameStores_of_eq rfl rfl rfl
  have hanswered := (giveBack_countsOnly (s.portWedged f.port) f.rid).trans
    (queueReply_countsOnly _ f.rid f.rq f.kit (ans 0x60 (detInternal f.port w num)))
  refine ⟨sameStores_trans hnamed hanswered.stores, (queueReply_replied ..).since ?replies, ?port⟩
  case replies => exact giveBack_replies (s.portWedged f.port) f.rid
  case port =>
    rw [queueReply_wedgedPorts, giveBack_wedgedPorts]
    exact portWedged_names s (portOf_lt _)

/-! ### DEVICE_PACKET_REFUSED (06 R161) -/

/-- The refusals of a packet that comes back; the header of one whose flits still leave comes back once more. -/
def DevPkt.refusals (p : DevPkt) : Nat := if p.flitsOut == 0 then p.tries else p.tries + 1

/-- A packet that waits to be sent anew, whole, from the second Beat after `beat` on. -/
def DevPkt.again (p : DevPkt) (tries beat : Nat) : DevPkt :=
  { p with waiting := true, tries := tries, flitsOut := 0, strm := none, notBefore := (beat + 2) % 2 ^ 48 }

/-- The only packet is dropped and counted. -/
def State.devDropped (s : State) : State :=
  { s with devq := [], gen := { s.gen with txDrop := up32 s.gen.txDrop 1 } }

section
variable {s : State} {p : DevPkt}

/-- The header that comes back is that of the only packet, which was sent or is being sent. -/
theorem devRefused_takes (hq : s.devq = [p]) (hsent : p.waiting = false ∨ p.flitsOut ≠ 0) :
    takeFirst (fun x : DevPkt => (!x.waiting || x.flitsOut != 0) && x.ring == p.ring && x.dest == p.dest && x.seq == p.seq)
      s.devq = some (p, []) := by
  rw [hq]
  exact takeFirst_cons_of_pos _ (by simpa using hsent)

theorem devRefused_again (hq : s.devq = [p]) (hsent : p.waiting = false ∨ p.flitsOut ≠ 0) (hfew : p.refusals < 8) :
    s.devRefused p.ring p.dest p.seq = { s with devq := [p.again p.refusals s.bar.beatno] } := by
  simp only [State.devRefused, devRefused_takes hq hsent]
  exact if_pos hfew

theorem devRefused_last (hq : s.devq = [p]) (hsent : p.waiting = false ∨ p.flitsOut ≠ 0) (hmany : 8 ≤ p.refusals) :
    s.devRefused p.ring p.dest p.seq = if p.opc = 0x72 then s.devDropped.pushDropped p
      else if p.opc = 0x71 ∧ p.param.toNat % 65536 = 0x0500 then
        { s.devDropped with tal := { s.tal with streamLost := up32 s.tal.streamLost (p.payload.length / 16) } }
      else s.devDropped := by
  simp only [State.devRefused, devRefused_takes hq hsent]
  refine (if_neg (Nat.not_lt.mpr hmany)).trans ?_
  simp only [beq_iff_eq, Bool.and_eq_true]
  rfl

theorem devRefused_unknown (hq : s.devq = [p]) {n : Node} (hn : n ≠ p.dest) (q : Nat) : s.devRefused p.ring n q = s := by
  have hnone : takeFirst (fun x : DevPkt => (!x.waiting || x.flitsOut != 0) && x.ring == p.ring && x.dest == n && x.seq == q)
      s.devq = none := takeFirst_of_none (by simp [hq, hn.symm])
  simp only [State.devRefused, hnone]

theorem devDropped_txDrop (s : State) : s.devDropped.gen.txDrop = min (s.gen.txDrop + 1) (2 ^ 32 - 1) := Nat.min_comm ..

/-- Beside the packets that wait, a Kit event adds an EVENT at most. -/
theorem notifyKit_devq {s : State} {q : DevPkt} (k : Kit) (code arg : Nat) (h : q ∈ (s.notifyKit k code arg).devq) :
    q ∈ s.devq ∨ q.opc = 0x71 := by
  unfold State.notifyKit State.sendDev at h
  split at h
  · exact .inl h
  · split at h
    · exact .inl h
    · rcases List.mem_append.mp h with h | h
      · exact .inl h
      · exact .inr (by rw [List.mem_singleton.mp h]; rfl)

/-- A PUSH that is discarded sets PUSHDROP, and only its EVENT may wait (12 R320). -/
theorem pushDropped_reports (s : State) (p : DevPkt) :
    ((s.devDropped.pushDropped p).ev .rud).bits = (s.ev .rud).bits ||| 0x02 ∧
      (∀ q ∈ (s.devDropped.pushDropped p).devq, q.opc = 0x71) ∧ SameStores s (s.devDropped.pushDropped p) := by
  refine ⟨?bits, fun q hq => ?queue, ?stores⟩
  case bits =>
    rw [State.pushDropped, notifyKit_ev]
    exact ev_raise_same s.devDropped .rud 0x02
  case queue => exact (notifyKit_devq _ _ _ hq).resolve_left List.not_mem_nil
  case stores =>
    rw [State.pushDropped]
    exact sameStores_of_eq (notifyKit_mram ..) (congrArg Deep.nand (notifyKit_deep ..)) (congrArg Bel.mem (notifyKit_bel ..))

/-- With its eighth refusal a packet is discarded and counted; a PUSH is reported besides. -/
theorem devRefused_discards (hq : s.devq = [p]) (hsent : p.waiting = false ∨ p.flitsOut ≠ 0) (hmany : 8 ≤ p.refusals) :
    let t := s.devRefused p.ring p.dest p.seq
    t.gen.txDrop = min (s.gen.txDrop + 1) (2 ^ 32 - 1) ∧ (p.opc ≠ 0x72 → t.devq = []) ∧
      (p.opc = 0x72 → (t.ev .rud).bits = (s.ev .rud).bits ||| 0x02 ∧ ∀ q ∈ t.devq, q.opc = 0x71) ∧ SameStores s t := by
  have hstores : SameStores s s.devDropped := sameStores_of_eq rfl rfl rfl
  rw [devRefused_last hq hsent hmany]
  by_cases hpush : p.opc = 0x72
  case pos =>
    obtain ⟨hbits, hevent, hpushStores⟩ := pushDropped_reports s p
    rw [if_pos hpush]
    refine ⟨?_, fun hno => absurd hpush hno, fun _ => ⟨hbits, hevent⟩, hpushStores⟩
    rw [State.pushDropped, notifyKit_gen]
    exact devDropped_txDrop s
  case neg =>
    rw [if_neg hpush]
    split
    · exact ⟨devDropped_txDrop s, fun _ => rfl, fun h => absurd h hpush, hstores⟩
    · exact ⟨devDropped_txDrop s, fun _ => rfl, fun h => absurd h hpush, hstores⟩
end

/-! ### The statement -/

/-- Settles O29: past its bound a request is late (`requestLate_times_out`) and then answered INTERNAL (`wedged_replies`); a
packet that comes back waits again (`devRefused_again`) or is discarded (`devRefused_discards`). -/
theorem lateRequestsAndRefusedPackets : Obligations.LateRequestsAndRefusedPackets := by
  unfold Obligations.LateRequestsAndRefusedPackets
  refine ⟨fun s f hfind hopen => ?requests, fun s p hq hseq => ?packets⟩
  case requests =>
    simp only [exec_requestTimeout, exec_wedgeReply]
    refine ⟨fun hfresh htraffic hcal hbound hpast => ?late, fun h => congrArg Host.Outcome.next (requestLate_within hfind h),
      fun num w hwedge => ⟨_, rfl, wedged_replies hfind hopen hwedge⟩,
      fun hwedge => congrArg Host.Outcome.next (wedged_of_no_record hfind hwedge)⟩
    case late =>
      obtain ⟨g, hlate⟩ := requestLate_times_out hfind hopen hfresh htraffic hcal hbound hpast
      exact ⟨_, g, rfl, hlate⟩
  case packets =>
    have hown : (BitVec.ofNat 16 p.seq).toNat = p.seq := Nat.mod_eq_of_lt hseq
    simp only [exec_devicePacketRefused, hown]
    refine ⟨fun hsent hwhole hfew => ?whole, fun hpart hfew => ?part, fun hsent hwhole hmany => ?last, fun n q hn =>
      congrArg Host.Outcome.next (devRefused_unknown hq hn q.toNat)⟩
    case whole =>
      have hrefusals : p.refusals = p.tries := if_pos (beq_iff_eq.mpr hwhole)
      rw [devRefused_again hq (.inl hsent) (by rwa [hrefusals]), hrefusals]
      rfl
    case part =>
      have hrefusals : p.refusals = p.tries + 1 := if_neg (mt beq_iff_eq.mp hpart)
      rw [devRefused_again hq (.inr hpart) (by rwa [hrefusals]), hrefusals]
      rfl
    case last =>
      have hrefusals : p.refusals = p.tries := if_pos (beq_iff_eq.mpr hwhole)
      exact ⟨_, rfl, devRefused_discards hq (.inl hsent) (by rwa [hrefusals])⟩

end Sys2Proof.Machine

/-! PROOFS. Every command that a sender can form has a next state (06 R166). -/

namespace Sys2Proof.Machine

/-- A request row answers a next state, a GONG addressed to every node included. -/
theorem exec_request_answers {c : Instr} {rq : Req} {o : Nat} (s : State) (hreq : Laws.requestOf c = some (rq, o))
    (hwf : c.wf = true) : ∃ t, exec c s = .next t := by
  cases c
  case gong rq comp => exact ⟨_, if_pos hwf⟩
  all_goals
    cases hreq
  all_goals
    exact ⟨_, if_pos hwf⟩

/-- A row that carries no request answers a next state: the rows whose operands can be ill-formed by their check, the others
at once. -/
theorem exec_own_answers {c : Instr} (s : State) (hreq : Laws.requestOf c = none) (hwf : c.wf = true) :
    ∃ t, exec c s = .next t := by
  cases c
  case loop | br | waitu | waitbar | flitReceive | belfryRefreshStep | sensorSample | trainingComplete | enum | roster |
      slotmap | morningTollDone | eveningToll =>
    exact ⟨_, if_pos hwf⟩
  all_goals
    cases hreq
  all_goals
    exact ⟨_, rfl⟩

/-- Settles O2: by the two kinds of row. A row whose trigger is absent changes nothing and is no fault (the model's choice,
log 18). -/
theorem everyFormedCommandAnswers : Obligations.EveryFormedCommandAnswers := by
  unfold Obligations.EveryFormedCommandAnswers
  intro c s hwf
  cases hreq : Laws.requestOf c with
  | none => exact exec_own_answers s hreq hwf
  | some x => exact exec_request_answers s hreq hwf

end Sys2Proof.Machine

/-! PROOFS. The reply of a request that is served (06 R148), and what it leaves. -/

namespace Sys2Proof.Machine

/-! ### The reply of a request in service -/

theorem awaits_of_inflight {s t : State} (rid : Nat) (h : t.inflight = s.inflight) : t.awaits rid = s.awaits rid := by
  rw [State.awaits, State.awaits, h]

/-- A request taken up gets its one reply from any later state in which it is still in flight and nobody was answered. -/
theorem Job.answer_replied {s s1 t : State} {rq : Req} {j : Job} (a : Answer) (htaken : s.taken rq = some (j, s1))
    (hinflight : t.inflight = s1.inflight) (hreplies : t.replies = s1.replies) :
    Replied s1 (j.answer t a) j.rid rq a.status a.detail a.payload := by
  rw [Job.answer, taken_rq htaken]
  refine (Machine.answer_replied t j.rid rq (some j.kit) a ?_).since hreplies
  rw [awaits_of_inflight j.rid hinflight]
  exact taken_awaits htaken

theorem Job.reply_replied {s s1 t : State} {rq : Req} {j : Job} (status detail : Nat)
    (htaken : s.taken rq = some (j, s1)) (hinflight : t.inflight = s1.inflight) (hreplies : t.replies = s1.replies) :
    Replied s1 (j.reply t status detail) j.rid rq status detail [] :=
  Job.answer_replied (ans status detail) htaken hinflight hreplies

/-! ### What a reply leaves -/

theorem Job.answer_countsOnly (j : Job) (s : State) (a : Answer) : CountsOnly s (j.answer s a) :=
  Machine.answer_countsOnly s j.rid j.rq (some j.kit) a

theorem Job.reply_countsOnly (j : Job) (s : State) (status detail : Nat) : CountsOnly s (j.reply s status detail) :=
  Machine.answer_countsOnly s j.rid j.rq (some j.kit) (ans status detail)

/-- Outside Strict Tempo no reply is late for its release Beat. -/
theorem tempoMiss_of_loose {s : State} (kit : Option Kit) (a : Answer) (h : s.gen.active = false) :
    s.tempoMiss kit a = s := by
  unfold State.tempoMiss
  split
  · rw [h]
    rfl
  · rfl

theorem tempoMiss_evs_of_loose {s : State} (kit : Option Kit) (a : Answer) (h : s.gen.active = false) :
    (s.tempoMiss kit a).evs = s.evs := by
  rw [tempoMiss_of_loose kit a h]

theorem queueReply_evs_of_loose {s : State} (rid : Nat) (rq : Req) (kit : Option Kit) (a : Answer)
    (h : s.gen.active = false) : (s.queueReply rid rq kit a).evs = s.evs := by
  unfold State.queueReply
  cases kit <;> cases rq.via
  case none.ring => exact tempoMiss_evs_of_loose none { a with release := a.release.or (s.releaseOf rid rq none) } h
  case some.ring k r => exact tempoMiss_evs_of_loose (s := s.setKit k _) (some k) _ h
  all_goals rfl

theorem answer_evs_of_loose {s : State} (rid : Nat) (rq : Req) (kit : Option Kit) (a : Answer)
    (h : s.gen.active = false) : (s.answer rid rq kit a).evs = s.evs := by
  unfold State.answer
  split
  · exact queueReply_evs_of_loose rid rq kit a h
  · split
    · exact queueReply_evs_of_loose rid rq kit a h
    · rfl

theorem queueReply_kits (s : State) (rid : Nat) (rq : Req) (k : Kit) (a : Answer) :
    (s.queueReply rid rq (some k) a).kits = (s.setKit k ((s.kit k).countReply a.status)).kits := by
  unfold State.queueReply
  cases rq.via with
  | i3c => rfl
  | ring r => exact tempoMiss_kits _ _ _

/-- A reply counts in its own Kit, and there only what Table 8.2 counts. -/
theorem answer_kit_counts (s : State) (rid : Nat) (rq : Req) (o : Kit) (a : Answer) (k : Kit) :
    ∃ denied oow, (s.answer rid rq (some o) a).kit k = { s.kit k with denied := denied, oow := oow } := by
  have hqueued : ∃ denied oow, (s.queueReply rid rq (some o) a).kit k =
      { s.kit k with denied := denied, oow := oow } := by
    simp only [State.kit, queueReply_kits]
    by_cases h : o = k
    · subst h
      exact ⟨_, _, kit_setKit s o _⟩
    · exact ⟨_, _, kit_setKit_of_ne s o k _ h⟩
  unfold State.answer
  split
  · exact hqueued
  · split
    · exact hqueued
    · exact ⟨_, _, rfl⟩

theorem answer_kit_of_ne (s : State) (rid : Nat) (rq : Req) {o : Kit} (a : Answer) {k : Kit} (h : k ≠ o) :
    (s.answer rid rq (some o) a).kit k = s.kit k := by
  have hqueued : (s.queueReply rid rq (some o) a).kit k = s.kit k := by
    simp only [State.kit, queueReply_kits]
    exact kit_setKit_of_ne s o k _ (Ne.symm h)
  unfold State.answer
  split
  · exact hqueued
  · split
    · exact hqueued
    · rfl

theorem Job.reply_kit (j : Job) (s : State) (status detail : Nat) (k : Kit) :
    ∃ denied oow, (j.reply s status detail).kit k = { s.kit k with denied := denied, oow := oow } :=
  answer_kit_counts s j.rid j.rq j.kit (ans status detail) k

theorem Job.reply_kit_of_ne {j : Job} (s : State) (status detail : Nat) {k : Kit} (h : k ≠ j.kit) :
    (j.reply s status detail).kit k = s.kit k :=
  answer_kit_of_ne s j.rid j.rq (ans status detail) h

/-! ### A well-formed request row -/

/-- The payload of a request row has the length that its header announces (R143, R166). -/
theorem payload_length_of_is {rq : Req} {o : Nat} (h : rq.is o = true) : rq.payload.length = payloadLen o (lenOf rq) := by
  rw [Req.is, Bool.and_eq_true, beq_iff_eq, beq_iff_eq] at h
  exact h.2

theorem opc_of_is {rq : Req} {o : Nat} (h : rq.is o = true) : rq.opc.toNat = o := by
  rw [Req.is, Bool.and_eq_true, beq_iff_eq, beq_iff_eq] at h
  exact h.1

/-! ### The checks that a request in service has passed (06 R152) -/

theorem taken_check {s s1 : State} {rq : Req} {j : Job} (h : s.taken rq = some (j, s1)) :
    s1.check j.admBeat (some j.kit) rq = none := by
  unfold State.taken at h
  split at h
  · cases h
  · split at h
    · cases h
    · split at h
      · next hok =>
        simp only [Option.some.injEq, Prod.mk.injEq] at h
        obtain ⟨rfl, rfl⟩ := h
        rw [Bool.and_eq_true, Option.isNone_iff_eq_none] at hok
        exact hok.1
      · cases h

/-- What the checks of Table 6.5 settle of a request that passes them. -/
structure Passes (s : State) (rq : Req) : Prop where
  len : lenOf rq ≤ 4096
  lenRule : (lenRule rq.opc.toNat (selOf rq) (rq.via == .i3c) (lenOf rq)).1 = true
  params : s.paramBad rq = none

theorem check_passes {s : State} {beat : Nat} {k : Kit} {rq : Req} (h : s.check beat (some k) rq = none) :
    Passes s rq := by
  unfold State.check at h
  extract_lets len lr at h
  split at h
  · cases h
  · next hlen =>
    split at h
    · cases h
    · split at h
      · cases h
      · cases h
      · split at h
        · cases h
        · split at h
          · cases h
          · split at h
            · cases h
            · next hrule =>
              split at h
              · cases h
              · next hparams => exact ⟨Nat.le_of_not_lt hlen, by simpa using hrule, hparams⟩

theorem taken_passes {s s1 : State} {rq : Req} {j : Job} (h : s.taken rq = some (j, s1)) : Passes s1 rq :=
  check_passes (taken_check h)

/-! ### The statement on PING -/

theorem ping_payload_empty {rq : Req} (hwf : (Instr.ping rq).wf = true) (hlen : rq.len = 0) : rq.payload = [] := by
  have hn := payload_length_of_is hwf
  rw [lenOf, hlen] at hn
  exact List.eq_nil_of_length_eq_zero hn

/-- Settles O6: PING is its reply alone. -/
theorem pingReturnsItsPayload : Obligations.PingReturnsItsPayload := by
  unfold Obligations.PingReturnsItsPayload
  intro s s1 rq j htaken hwf
  have hleaves := j.answer_countsOnly s1
    { ansData j.rq.payload j.admBeat with release := some (s1.readRelease j.kit j.admBeat 0) }
  have hreply := Job.answer_replied
    { ansData j.rq.payload j.admBeat with release := some (s1.readRelease j.kit j.admBeat 0) } htaken rfl rfl
  rw [taken_rq htaken] at hleaves hreply
  refine ⟨s1.ping j, runReq_taken _ htaken hwf, ?_⟩
  rw [State.ping, taken_rq htaken]
  exact ⟨hreply, ping_payload_empty hwf, hleaves.pages, hleaves.engs, hleaves.bar, Machine.answer_hold ..,
    Machine.answer_evs_of_loose _ _ _ _, hleaves.stores⟩

end Sys2Proof.Machine

/-! PROOFS. Kits made, bound again and set (07 R186, R187, R191; 08 R220). -/

namespace Sys2Proof.Machine

/-! ### KIT_CREATE (R186) -/

/-- A Kit made by KIT_CREATE, before the reply: its record of Table 8.2 is clear and its wrapped key waits to be written. -/
def State.kitMade (s : State) (k : Kit) (rq : Req) : State :=
  ({ s.setKit k ((s.kit k).create rq s.bar.beatno s.free) with evs := s.evs.set (EvId.kit k).ix EvReg.zero }.spend 1).queueRec
    (.key k)

theorem kitCreate_of_none {s : State} {j : Job} (hfree : s.createKit (pb j.rq 8) = none) :
    s.kitCreate j = j.reply s 0x11 5 := by
  simp only [State.kitCreate, hfree]

section
variable {s : State} {j : Job} {k : Kit} (hfree : s.createKit (pb j.rq 8) = some k)
  (hledger : (s.setKit k ((s.kit k).create j.rq s.bar.beatno s.free)).ledgerOk s = true)
include hfree hledger

theorem kitCreate_unhealthy (hnoise : Config.noiseHealthy s.free = false) :
    s.kitCreate j = j.reply (s.spend 1) 0x60 2 := by
  simp only [State.kitCreate, hfree, hledger, hnoise, Bool.not_true, Bool.not_false, if_true, Bool.false_eq_true, if_false]

theorem kitCreate_healthy (hnoise : Config.noiseHealthy s.free = true) :
    s.kitCreate j = j.reply (s.kitMade k j.rq) 0x00 k.val := by
  simp only [State.kitCreate, hfree, hledger, hnoise, Bool.not_true, Bool.false_eq_true, if_false]
  rfl

end

theorem queueRec_kit (s : State) (r : RecId) (k : Kit) : (s.queueRec r).kit k = s.kit k := by
  obtain ⟨l, hl, -⟩ := queueRec_changes s r
  rw [hl]
  rfl

theorem kitMade_kit (s : State) (k : Kit) (rq : Req) :
    (s.kitMade k rq).kit k = (s.kit k).create rq s.bar.beatno s.free :=
  (queueRec_kit _ _ k).trans (kit_setKit s k _)

theorem kitMade_leaves (s : State) (k : Kit) (rq : Req) : (s.kitMade k rq).inflight = s.inflight ∧
    (s.kitMade k rq).replies = s.replies ∧ SameStores s (s.kitMade k rq) ∧ RecId.key k ∈ (s.kitMade k rq).bel.recq := by
  unfold State.kitMade
  obtain ⟨l, hl, hmem, -⟩ := queueRec_changes
    ({ s.setKit k ((s.kit k).create rq s.bar.beatno s.free) with evs := s.evs.set (EvId.kit k).ix EvReg.zero }.spend 1)
    (.key k)
  rw [hl]
  exact ⟨rfl, rfl, sameStores_of_eq rfl rfl rfl, hmem⟩

/-! ### KIT_CREATE with REBIND = 1 (R187) -/

/-- A Kit's record with the bindings and KIT_NOTIFY of a payload, suspended no more. -/
def KitSt.rebound (x : KitSt) (rq : Req) (now : Nat) : KitSt :=
  { x with binds := bindingsOf rq now, suspended := false, notify := BitVec.ofNat 5 (fieldAt rq.payload 2 1) }

/-- A Kit bound again, before the reply; the notice of a suspension that ends goes out (Table 8.2). -/
def State.kitRebound (s : State) (k : Kit) (rq : Req) : State :=
  if (s.kit k).suspended then (s.setKit k ((s.kit k).rebound rq s.bar.beatno)).notifyKit k 0x0101 0
  else s.setKit k ((s.kit k).rebound rq s.bar.beatno)

theorem kitRebind_eq (s : State) (j : Job) :
    s.kitRebind j = j.reply (s.kitRebound (kitIx (pb j.rq 8)) j.rq) 0x00 (kitIx (pb j.rq 8)).val := rfl

theorem kitRebound_leaves (s : State) (k : Kit) (rq : Req) : (s.kitRebound k rq).inflight = s.inflight ∧
    (s.kitRebound k rq).replies = s.replies ∧ (s.kitRebound k rq).pages = s.pages ∧ SameStores s (s.kitRebound k rq) ∧
    (s.kitRebound k rq).kits = s.kits.set k ((s.kit k).rebound rq s.bar.beatno) := by
  unfold State.kitRebound
  split
  · exact ⟨by simp, by simp, by simp, sameStores_of_eq (by simp) (by simp) (by simp), notifyKit_kits ..⟩
  · exact ⟨rfl, rfl, rfl, sameStores_of_eq rfl rfl rfl, rfl⟩

theorem kit_of_kits_set {s t : State} {k : Kit} {x : KitSt} (h : t.kits = s.kits.set k x) (o : Kit) :
    t.kit o = (s.setKit k x).kit o := congrArg (fun kits : Vector KitSt 16 => kits[o]) h

/-! ### STROKE_SET (R191) -/

/-- The ledger values set, before the reply: a reservation that changes waits for the next Downbeat's grant. -/
def State.strokesSet (s : State) (k : Kit) (p : List Byte) : State :=
  let s1 := s.strokeApply k p
  if (s1.kit k).kres == (s.kit k).kres then s1 else { s1 with stk := { s1.stk with dirty := true } }

theorem strokeSet_eq (s : State) (j : Job) :
    s.strokeSet j = j.reply (s.strokesSet (kitIx (pb j.rq 8)) j.rq.payload) 0x00 0 := rfl

theorem strokesSet_leaves (s : State) (k : Kit) (p : List Byte) : (s.strokesSet k p).inflight = s.inflight ∧
    (s.strokesSet k p).replies = s.replies ∧ SameStores s (s.strokesSet k p) ∧
    (s.strokesSet k p).kits = s.kits.set k ((s.kit k).stroke p) := by
  unfold State.strokesSet
  extract_lets s1
  split <;> exact ⟨rfl, rfl, sameStores_of_eq rfl rfl rfl, rfl⟩

theorem strokesSet_dirty {s : State} {k : Kit} {p : List Byte} (h : ((s.kit k).stroke p).kres ≠ (s.kit k).kres) :
    (s.strokesSet k p).stk.dirty = true := by
  unfold State.strokesSet
  extract_lets s1
  have hk : (s1.kit k) = (s.kit k).stroke p := kit_setKit s k _
  rw [hk, if_neg (by simpa using h)]

/-! ### The statement on Kits and ledgers -/

/-- Settles O13: KIT_CREATE by its three outcomes, REBIND and STROKE_SET by what they set and leave. That the reply does not
wait for the key record (log 128), and the DETAIL of a failed health test (log 132), are the model's choices. -/
theorem kitsAndLedgers : Obligations.KitsAndLedgers := by
  unfold Obligations.KitsAndLedgers
  refine ⟨fun s s1 rq j k htaken hwf hhouse hk hlive => ⟨fun hfree hledger => ?created, fun hfree => ?taken⟩,
    fun s s1 rq j htaken hwf => ?rebind, fun s s1 rq j htaken hwf => ?stroke⟩
  case created =>
    refine ⟨s1.kitCreate j, runReq_taken _ htaken hwf, ?_⟩
    obtain rfl := taken_rq htaken
    obtain ⟨hin, hrep, hstores, hkey⟩ := kitMade_leaves s1 k j.rq
    have hne : k ≠ j.kit := hhouse ▸ hk
    cases hnoise : Config.noiseHealthy s1.free with
    | true =>
      rw [kitCreate_healthy hfree hledger hnoise]
      refine ⟨sameStores_trans hstores (j.reply_countsOnly ..).stores, fun _ => ?_, fun h => nomatch h⟩
      rw [Job.reply_kit_of_ne _ _ _ hne, kitMade_kit]
      exact ⟨Job.reply_replied _ _ htaken hin hrep, rfl, rfl, rfl, rfl, rfl, rfl, rfl, rfl, rfl, rfl, rfl,
        by simpa [Job.reply] using hkey⟩
    | false =>
      rw [kitCreate_unhealthy hfree hledger hnoise]
      exact ⟨sameStores_trans (sameStores_of_eq rfl rfl rfl) (j.reply_countsOnly ..).stores, fun h => (nomatch h),
        fun _ => ⟨Job.reply_replied _ _ htaken rfl rfl, Job.reply_kit_of_ne _ _ _ hne⟩⟩
  case taken =>
    refine ⟨s1.kitCreate j, runReq_taken _ htaken hwf, ?_⟩
    obtain rfl := taken_rq htaken
    rw [kitCreate_of_none hfree]
    exact ⟨Job.reply_replied _ _ htaken rfl rfl, Job.reply_kit_of_ne _ _ _ (hhouse ▸ hk), (j.reply_countsOnly ..).stores⟩
  case rebind =>
    obtain rfl := taken_rq htaken
    intro k
    refine ⟨s1.kitRebind j, runReq_taken _ htaken hwf, ?_⟩
    rw [kitRebind_eq]
    obtain ⟨hin, hrep, hpages, hstores, hkits⟩ := kitRebound_leaves s1 k j.rq
    obtain ⟨denied, oow, hkit⟩ := j.reply_kit (s1.kitRebound k j.rq) 0x00 k.val k
    rw [kit_of_kits_set hkits, kit_setKit] at hkit
    refine ⟨Job.reply_replied _ _ htaken hin hrep, sameStores_trans hstores (j.reply_countsOnly ..).stores, ?_⟩
    rw [hkit]
    refine ⟨rfl, rfl, rfl, rfl, rfl, rfl, rfl, rfl, fun o hok hoj => ?_, (j.reply_countsOnly ..).pages.trans hpages⟩
    rw [Job.reply_kit_of_ne _ _ _ hoj, kit_of_kits_set hkits, kit_setKit_of_ne _ _ _ _ (Ne.symm hok)]
  case stroke =>
    obtain rfl := taken_rq htaken
    intro k m x
    refine ⟨s1.strokeSet j, runReq_taken _ htaken hwf, ?_⟩
    rw [strokeSet_eq]
    obtain ⟨hin, hrep, hstores, hkits⟩ := strokesSet_leaves s1 k j.rq.payload
    obtain ⟨denied, oow, hkit⟩ := j.reply_kit (s1.strokesSet k j.rq.payload) 0x00 0 k
    rw [kit_of_kits_set hkits, kit_setKit] at hkit
    refine ⟨Job.reply_replied _ _ htaken hin hrep, ?_⟩
    rw [hkit]
    refine ⟨rfl, rfl, rfl, rfl, rfl, rfl, rfl, fun hmask hne => ?_, fun o hok hoj => ?_,
      sameStores_trans hstores (j.reply_countsOnly ..).stores⟩
    · refine (congrArg Stk.dirty (answer_stk ..)).trans (strokesSet_dirty ?_)
      simpa [KitSt.stroke, m, hmask] using hne
    · rw [Job.reply_kit_of_ne _ _ _ hoj, kit_of_kits_set hkits, kit_setKit_of_ne _ _ _ _ (Ne.symm hok)]

end Sys2Proof.Machine

/-! PROOFS. FENCE and its end (07 R176; 11 R294, R295). -/

namespace Sys2Proof.Machine

/-! ### A FENCE that completes (R295) -/

/-- The reply of a FENCE with a status and a DETAIL: marked in the slot after, released from its last covered outcome on. -/
def State.fenceAns (s : State) (f : FenceJob) (status detail : Nat) : Answer :=
  { ans status detail with
    mark := s.markIn 1, release := some ((f.last + (s.kit f.kit).tempoWr) % Config.beatWrap) }

/-- The state without a FENCE that completes. -/
def State.fenceOut (s : State) (f : FenceJob) : State := { s with fences := s.fences.filter fun g => g.rid != f.rid }

theorem fenceDone_clean {s : State} {f : FenceJob} (h : (s.kit f.kit).kunrep = 0) :
    s.fenceDone f = (s.fenceOut f).answer f.rid f.rq (some f.kit) (s.fenceAns f 0x00 f.last) := by
  simp only [State.fenceDone, h, beq_self_eq_true, if_true]
  rfl

theorem fenceDone_recants {s : State} {f : FenceJob} (h : (s.kit f.kit).kunrep ≠ 0) :
    s.fenceDone f = ((s.fenceOut f).setKit f.kit { s.kit f.kit with krecant := (s.kit f.kit).kunrep, kunrep := 0 }).answer
      f.rid f.rq (some f.kit) (s.fenceAns f 0x42 (detAddr (s.kit f.kit).kfirst (s.kit f.kit).kunrep)) := by
  simp only [State.fenceDone, beq_iff_eq, h, if_false]
  rfl

/-- What becomes of the one FENCE in service when its covered writes are over: it is gone, and its reply is OK, or RECANTED
with what its Kit had unreported, which is then reported. -/
structure FenceEnds (s t : State) (f : FenceJob) : Prop where
  fences : t.fences = []
  stores : SameStores s t
  clean : (s.kit f.kit).kunrep = 0 → Replied s t f.rid f.rq 0x00 f.last []
  recants : (s.kit f.kit).kunrep ≠ 0 →
    Replied s t f.rid f.rq 0x42 (detAddr (s.kit f.kit).kfirst (s.kit f.kit).kunrep) [] ∧
      (t.kit f.kit).krecant = (s.kit f.kit).kunrep ∧ (t.kit f.kit).kunrep = 0

theorem fenceDone_ends {s : State} {f : FenceJob} (hone : s.fences = [f])
    (hawaits : s.awaits f.rid = true ∨ f.rq.via = .i3c) : FenceEnds s (s.fenceDone f) f := by
  have hout : (s.fenceOut f).fences = [] := by simp [State.fenceOut, hone]
  by_cases hunrep : (s.kit f.kit).kunrep = 0
  · rw [fenceDone_clean hunrep]
    exact {
      fences := (answer_fences ..).trans hout
      stores := (answer_countsOnly (s.fenceOut f) ..).stores
      clean := fun _ => answer_replied (s.fenceOut f) _ _ _ _ hawaits
      recants := fun h => absurd hunrep h }
  · rw [fenceDone_recants hunrep]
    obtain ⟨denied, oow, hkit⟩ := answer_kit_counts
      ((s.fenceOut f).setKit f.kit { s.kit f.kit with krecant := (s.kit f.kit).kunrep, kunrep := 0 }) f.rid f.rq f.kit
      (s.fenceAns f 0x42 (detAddr (s.kit f.kit).kfirst (s.kit f.kit).kunrep)) f.kit
    rw [kit_setKit] at hkit
    exact {
      fences := (answer_fences ..).trans hout
      stores := (answer_countsOnly ((s.fenceOut f).setKit f.kit _) ..).stores
      clean := fun h => absurd h hunrep
      recants := fun _ => ⟨answer_replied ((s.fenceOut f).setKit f.kit _) _ _ _ _ hawaits, by rw [hkit], by rw [hkit]⟩ }

/-! ### FENCE_COMPLETE and FENCE (R294) -/

theorem fencesOver_of_one {s : State} {f : FenceJob} (hone : s.fences = [f]) :
    s.fencesOver f.kit = if f.covers.all s.writeOver then s.fenceDone f else s := by
  simp [State.fencesOver, hone, forEach]

/-- A FENCE taken up: in service, with its barrier at the switch. -/
def State.fenceIn (s : State) (j : Job) : State :=
  { s with fences := s.fences ++ [⟨j.rid, j.rq, j.kit, s.openWrites j.kit j.rid, j.admBeat, j.admBeat⟩],
           barriers := s.barriers ++ [(j.kit, j.rid)] }

/-- A FENCE that finds no earlier write outstanding, and no merge entry open, completes at once. -/
theorem startFence_completes {s : State} {j : Job} (hfences : s.fences = []) (hwrites : s.openWrites j.kit j.rid = [])
    (hmerges : s.merges = []) :
    (s.fenceIn j).fences = [⟨j.rid, j.rq, j.kit, [], j.admBeat, j.admBeat⟩] ∧
      s.startFence j = (s.fenceIn j).fenceDone ⟨j.rid, j.rq, j.kit, [], j.admBeat, j.admBeat⟩ := by
  have hone : (s.fenceIn j).fences = [⟨j.rid, j.rq, j.kit, [], j.admBeat, j.admBeat⟩] := by
    simp [State.fenceIn, hfences, hwrites]
  refine ⟨hone, ?_⟩
  calc s.startFence j
      = ((s.fenceIn j).closeMerges fun m => m.kit == j.kit && m.rids.any fun r => r < j.rid).fencesOver j.kit := rfl
    _ = (s.fenceIn j).fencesOver j.kit := by rw [closeMerges_empty (s := s.fenceIn j) _ hmerges]
    _ = _ := (fencesOver_of_one hone).trans (if_pos rfl)

/-! ### The statement on FENCE -/

/-- Settles O11: both commands come to the end of the one FENCE in service (`fenceDone_ends`). -/
theorem fencesReportRecants : Obligations.FencesReportRecants := by
  unfold Obligations.FencesReportRecants
  refine ⟨fun s s1 rq j htaken hwf hfences hwrites hmerges => ?fence, fun s k f hk hone hawaits => ?complete⟩
  case fence =>
    obtain ⟨hone, hstart⟩ := startFence_completes hfences hwrites hmerges
    have hrun : exec (.fence rq) s = .next (s1.startFence j) := runReq_taken _ htaken hwf
    rw [hrun, hstart]
    have hends := fenceDone_ends hone (taken_rq htaken ▸ taken_awaits htaken : s1.awaits j.rid = true ∨ j.rq.via = .i3c)
    obtain rfl := taken_rq htaken
    refine ⟨fun h => ⟨_, rfl, hends.clean h, hends.fences, hends.stores⟩, fun h => ?_⟩
    obtain ⟨hreply, hcount, hzero⟩ := hends.recants h
    exact ⟨_, rfl, hreply, hcount, hzero, hends.fences, hends.stores⟩
  case complete =>
    subst hk
    have hrun : exec (.fenceComplete f.kit) s = .next (s.fencesOver f.kit) := rfl
    rw [hrun, fencesOver_of_one hone]
    refine ⟨fun hover => ?_, fun hopen => by rw [if_neg (by simp [hopen])]⟩
    rw [if_pos hover]
    have hends := fenceDone_ends hone (Or.symm hawaits)
    refine ⟨_, rfl, hends.fences, hends.stores, hends.clean, fun h => ?_⟩
    obtain ⟨hreply, hcount, hzero⟩ := hends.recants h
    exact ⟨hreply, hzero, hcount⟩

end Sys2Proof.Machine

/-! PROOFS. Access windows (07 R189, R190; 08 R213, R216). -/

namespace Sys2Proof.Machine

/-! ### Windows that go, requests that are answered -/

/-- From `s` to `t` windows have gone, events have been added and requests been answered: a window that was not in use is
not, an event that stood stands, and the records and stores are as they were. -/
structure WindowsGo (s t : State) : Prop where
  stores : SameStores s t
  pages : t.pages = s.pages
  near : t.near = s.near
  muffles : t.muffles = s.muffles
  stages : t.stages = s.stages
  copies : t.copies = s.copies
  recq : t.bel.recq = s.bel.recq
  engs : t.engs = s.engs
  wins : ∀ (k : Kit) (i : Fin 8), (s.kit k).wins[i] = none → (t.kit k).wins[i] = none
  events : ∀ i n, (s.ev i).bits.getLsbD n = true → (t.ev i).bits.getLsbD n = true

theorem WindowsGo.refl (s : State) : WindowsGo s s :=
  ⟨sameStores_of_eq rfl rfl rfl, rfl, rfl, rfl, rfl, rfl, rfl, rfl, fun _ _ h => h, fun _ _ h => h⟩

theorem WindowsGo.trans {s t u : State} (hst : WindowsGo s t) (htu : WindowsGo t u) : WindowsGo s u where
  stores := sameStores_trans hst.stores htu.stores
  pages := htu.pages.trans hst.pages
  near := htu.near.trans hst.near
  muffles := htu.muffles.trans hst.muffles
  stages := htu.stages.trans hst.stages
  copies := htu.copies.trans hst.copies
  recq := htu.recq.trans hst.recq
  engs := htu.engs.trans hst.engs
  wins k i h := htu.wins k i (hst.wins k i h)
  events i n h := htu.events i n (hst.events i n h)

theorem tempoMiss_events (s : State) (kit : Option Kit) (a : Answer) (i : EvId) (n : Nat)
    (h : (s.ev i).bits.getLsbD n = true) : ((s.tempoMiss kit a).ev i).bits.getLsbD n = true := by
  unfold State.tempoMiss
  split
  · split
    · rw [notifyKit_ev]
      exact ev_raise_keeps s _ _ h
    · exact h
  · exact h

theorem queueReply_events (s : State) (rid : Nat) (rq : Req) (kit : Option Kit) (a : Answer) (i : EvId) (n : Nat)
    (h : (s.ev i).bits.getLsbD n = true) : ((s.queueReply rid rq kit a).ev i).bits.getLsbD n = true := by
  unfold State.queueReply
  cases rq.via <;> cases kit
  case ring.none => exact tempoMiss_events s none _ i n h
  case ring.some r k => exact tempoMiss_events (s.setKit k _) (some k) _ i n h
  all_goals exact h

theorem answer_events (s : State) (rid : Nat) (rq : Req) (kit : Option Kit) (a : Answer) (i : EvId) (n : Nat)
    (h : (s.ev i).bits.getLsbD n = true) : ((s.answer rid rq kit a).ev i).bits.getLsbD n = true := by
  unfold State.answer
  split
  · exact queueReply_events s rid rq kit a i n h
  · split
    · exact queueReply_events s rid rq kit a i n h
    · exact h

theorem answer_windowsGo (s : State) (rid : Nat) (rq : Req) (o : Kit) (a : Answer) :
    WindowsGo s (s.answer rid rq (some o) a) where
  stores := (answer_countsOnly ..).stores
  pages := by simp
  near := by simp
  muffles := by simp
  stages := by simp
  copies := by simp
  recq := by simp
  engs := by simp
  wins k i h := by
    obtain ⟨_, _, hk⟩ := answer_kit_counts s rid rq o a k
    rwa [hk]
  events := answer_events s rid rq (some o) a

theorem drainsOver_windowsGo (s : State) (k : Kit) (w : Option (Fin 8)) : WindowsGo s (s.drainsOver k w) := by
  refine WindowsGo.trans (t := { s with drains := s.drains.filter fun d => !(d.2.2.1 == k && d.2.2.2 == w) })
    ?removed ?answered
  case removed =>
    exact ⟨sameStores_of_eq rfl rfl rfl, rfl, rfl, rfl, rfl, rfl, rfl, rfl, fun _ _ h => h, fun _ _ h => h⟩
  case answered =>
    exact forEach_forall .refl (fun _ _ _ => .trans) (fun (d : Nat × Req × Kit × Option (Fin 8)) t => answer_windowsGo t d.1 d.2.1 0 _) _ _

theorem drainsOver_countsOnly (s : State) (k : Kit) (w : Option (Fin 8)) : CountsOnly s (s.drainsOver k w) := by
  refine CountsOnly.trans (t := { s with drains := s.drains.filter fun d => !(d.2.2.1 == k && d.2.2.2 == w) })
    ⟨sameStores_of_eq rfl rfl rfl, rfl, rfl, rfl, rfl, same_counts s⟩ ?_
  exact forEach_forall .refl (fun _ _ _ => .trans) (fun (d : Nat × Req × Kit × Option (Fin 8)) t => answer_countsOnly t d.1 d.2.1 (some 0) _) _ _

/-! ### A sharing window that is cleared (08 R216) -/

/-- A Kit with one window cleared. -/
theorem setWins_windowsGo (s : State) (k : Kit) (i : Fin 8) :
    WindowsGo s (s.setKit k { s.kit k with wins := (s.kit k).wins.set i none }) where
  stores := sameStores_of_eq rfl rfl rfl
  pages := rfl
  near := rfl
  muffles := rfl
  stages := rfl
  copies := rfl
  recq := rfl
  engs := rfl
  wins l m h := by
    by_cases hl : k = l
    · subst hl
      by_cases hm : i.val = m.val
      · simp [hm]
      · simpa [hm] using h
    · rwa [kit_setKit_of_ne _ _ _ _ hl]
  events _ _ h := h

theorem clearSharer_windowsGo (s : State) (o : Kit) (x : Kit × Fin 8) : WindowsGo s (s.clearSharer o x) := by
  refine (setWins_windowsGo s x.1 x.2).trans ?_
  unfold State.clearSharer
  exact {
    stores := sameStores_of_eq (by simp) (by simp) (by simp)
    pages := by simp
    near := by simp
    muffles := by simp
    stages := by simp
    copies := by simp
    recq := by simp
    engs := by simp
    wins := fun l m h => by
      simp only [State.kit, notifyKit_kits, raise_kits]
      exact h
    events := fun i n h => by
      rw [notifyKit_ev]
      exact ev_raise_keeps _ _ _ h }

theorem clearSharer_clears (s : State) (o : Kit) (x : Kit × Fin 8) :
    ((s.clearSharer o x).kit x.1).wins[x.2] = none ∧ ((s.clearSharer o x).ev (.kit x.1)).bits.getLsbD 0 = true := by
  unfold State.clearSharer
  refine ⟨?_, ?_⟩
  · simp [State.kit, State.setKit]
  · rw [notifyKit_ev, ev_raise_same]
    simp

theorem clearSharers_windowsGo (s : State) (o : Kit) (l : List (Kit × Fin 8)) :
    WindowsGo s (forEach (fun x t => State.clearSharer t o x) l s) :=
  forEach_forall .refl (fun _ _ _ => .trans) (fun x t => clearSharer_windowsGo t o x) l s

/-- Every sharing window of a list is cleared, with its event. -/
theorem clearSharers_clears (o : Kit) {x : Kit × Fin 8} {l : List (Kit × Fin 8)} (s : State) (hx : x ∈ l) :
    ((forEach (fun x t => State.clearSharer t o x) l s).kit x.1).wins[x.2] = none ∧
      ((forEach (fun x t => State.clearSharer t o x) l s).ev (.kit x.1)).bits.getLsbD 0 = true := by
  induction l generalizing s with
  | nil => cases hx
  | cons y ys ih =>
    rcases List.mem_cons.1 hx with rfl | hys
    · have hgo := clearSharers_windowsGo (s.clearSharer o x) o ys
      obtain ⟨hwin, hev⟩ := clearSharer_clears s o x
      exact ⟨hgo.wins _ _ hwin, hgo.events _ _ hev⟩
    · exact ih (s.clearSharer o y) hys

/-! ### WINDOW_SET (07 R189, R190) -/

theorem testBit_zero_eq (v : Nat) : v.testBit 0 = (v % 2 == 1) := by
  rw [Nat.testBit_zero]
  rfl

theorem testBit_eq_bits (v n : Nat) : v.testBit n = (bits v n n == 1) := by
  rw [Nat.testBit_eq_decide_div_mod_eq, bits, Nat.sub_self]
  rfl

/-- A Kit with the window of a payload at an index, in force from the next Beat. -/
def State.windowed (s : State) (k : Kit) (n : Nat) (p : List Byte) : State :=
  s.setKit k { s.kit k with wins := (s.kit k).wins.set! n (some (winOf p s.bar.beatno)) }

theorem windowSet_eq (s : State) (j : Job) :
    s.windowSet j = j.reply (s.windowed (kitIx (pb j.rq 8)) (pb j.rq 9) j.rq.payload) 0x00 0 := rfl

theorem windowed_wins {n : Nat} (s : State) (k : Kit) (p : List Byte) (hn : n < 8) :
    ((s.windowed k n p).kit k).wins[(engIx n : Fin 8)] = some (winOf p s.bar.beatno) ∧
      ∀ l : Fin 8, l ≠ engIx n → ((s.windowed k n p).kit k).wins[l] = (s.kit k).wins[l] := by
  have hix : (engIx n).val = n := Nat.mod_eq_of_lt hn
  unfold State.windowed
  rw [kit_setKit]
  refine ⟨by simp [hix], fun l hl => ?_⟩
  have hne : n ≠ l.val := fun h => hl (Fin.ext (by rw [hix, h]))
  simp [hne]

theorem windowClear_unused {s : State} {j : Job} (h : (s.kit (kitIx (pb j.rq 8))).wins[(engIx (pb j.rq 9) : Fin 8)] = none) :
    s.windowClear j = j.reply s 0x00 0 := by
  simp only [State.windowClear, h]

/-- The drain of a window begun: it is marked, and the request waits. -/
def State.windowDrains (s : State) (j : Job) (k : Kit) (i : Fin 8) (w : Window) : State :=
  { s.setKit k { s.kit k with wins := (s.kit k).wins.set i (some { w with clearing := true }) } with
    drains := s.drains ++ [(j.rid, j.rq, k, some i)] }

theorem windowClear_used {s : State} {j : Job} {w : Window}
    (h : (s.kit (kitIx (pb j.rq 8))).wins[(engIx (pb j.rq 9) : Fin 8)] = some w) :
    s.windowClear j = s.windowDrains j (kitIx (pb j.rq 8)) (engIx (pb j.rq 9)) w := by
  simp only [State.windowClear, h]
  rfl

/-! ### WINDOW_CLEAR_DRAINED (07 R190) -/

theorem releasePages_pages (s : State) (k : Kit) (p : KPage → Bool) (x : Page) :
    x ∈ (s.releasePages k p).pages ↔ x ∈ s.pages ∧ ¬(x.kit = k ∧ p x.kp = true) := by
  refine List.mem_filter.trans (and_congr_right fun _ => ?_)
  rw [Bool.not_eq_true', ← Bool.not_eq_true, Bool.and_eq_true, beq_iff_eq]

theorem windowGone_waits {s : State} {k : Kit} {i : Fin 8} {w : Window} (hwin : (s.kit k).wins[i] = some w)
    (hidle : s.windowIdle (k, i) = false) : s.windowGone k i = s := by
  simp only [State.windowGone, hwin, hidle, Bool.not_false, Bool.or_true, Bool.true_or, if_true]

/-- The pages of a window released, with the window itself gone. -/
def State.windowOut (s : State) (k : Kit) (i : Fin 8) (w : Window) : State :=
  (s.setKit k { s.kit k with wins := (s.kit k).wins.set i none }).releasePages k fun kp =>
    w.base ≤ kp.toNat && kp.toNat < w.base + w.size

theorem windowGone_goes {s : State} {k : Kit} {i : Fin 8} {w : Window} (hwin : (s.kit k).wins[i] = some w)
    (hown : w.srcKit = none) (hclearing : w.clearing = true) (hidle : s.windowIdle (k, i) = true)
    (hsharers : (s.sharers k w.base w.size).all s.windowIdle = true) (hover : s.writesOver k w.base w.size = true) :
    s.windowGone k i = (forEach (fun x t => State.clearSharer t k x) (s.sharers k w.base w.size)
      (s.windowOut k i w)).drainsOver k (some i) := by
  simp only [State.windowGone, hwin, hown, hclearing, hidle, hsharers, hover, Option.isNone_none, if_true, Bool.not_true,
    Bool.or_false, Bool.false_eq_true, if_false]
  rfl

theorem windowOut_leaves (s : State) (k : Kit) (i : Fin 8) (w : Window) :
    SameStores s (s.windowOut k i w) ∧ ((s.windowOut k i w).kit k).wins[i] = none := by
  have hkit : (s.windowOut k i w).kit k = { s.kit k with wins := (s.kit k).wins.set i none } := kit_setKit s k _
  exact ⟨sameStores_of_eq rfl rfl rfl, by simp [hkit]⟩

theorem windowOut_pages (s : State) (k : Kit) (i : Fin 8) (w : Window) (p : Page) : p ∈ (s.windowOut k i w).pages ↔
    p ∈ s.pages ∧ ¬(p.kit = k ∧ w.base ≤ p.kp.toNat ∧ p.kp.toNat < w.base + w.size) := by
  rw [State.windowOut, releasePages_pages, Bool.and_eq_true, decide_eq_true_iff, decide_eq_true_iff]
  rfl

/-! ### The statement on windows -/

/-- Settles O15: WINDOW_SET by what it records, the end of a window's drain by its composition: the pages released
(`windowOut_pages`), the sharing windows cleared (`clearSharers_clears`), the waiting requests answered. -/
theorem accessWindows : Obligations.AccessWindows := by
  unfold Obligations.AccessWindows
  refine ⟨fun s s1 rq j htaken => ?requests, fun s k i w hwin hown hclearing => ?drained⟩
  case requests =>
    obtain rfl := taken_rq htaken
    intro k i
    refine ⟨fun hwf hn => ?set, fun hwf hunused => ?clearUnused, fun w hwf hused => ?clear⟩
    case set =>
      refine ⟨s1.windowSet j, winOf j.rq.payload s1.bar.beatno, runReq_taken _ htaken hwf, ?_⟩
      rw [windowSet_eq]
      obtain ⟨_, _, hkit⟩ := j.reply_kit (s1.windowed k (pb j.rq 9) j.rq.payload) 0x00 0 k
      have hleaves := j.reply_countsOnly (s1.windowed k (pb j.rq 9) j.rq.payload) 0x00 0
      obtain ⟨hset, hothers⟩ := windowed_wins s1 k j.rq.payload hn
      refine ⟨Job.reply_replied _ _ htaken rfl rfl, ?_⟩
      rw [hkit]
      exact ⟨hset, rfl, rfl, (testBit_zero_eq _).symm, (testBit_eq_bits _ 1).symm, (testBit_zero_eq _).symm,
        (testBit_eq_bits _ 1).symm, (testBit_eq_bits _ 2).symm, rfl, rfl, hothers, hleaves.pages, hleaves.stores⟩
    case clearUnused =>
      refine ⟨s1.windowClear j, runReq_taken _ htaken hwf, ?_⟩
      rw [windowClear_unused hunused]
      obtain ⟨_, _, hkit⟩ := j.reply_kit s1 0x00 0 k
      exact ⟨Job.reply_replied _ _ htaken rfl rfl, by rw [hkit], (j.reply_countsOnly s1 0x00 0).stores⟩
    case clear =>
      refine ⟨s1.windowClear j, runReq_taken _ htaken hwf, ?_⟩
      rw [windowClear_used hused]
      have hkit : (s1.windowDrains j k i w).kit k =
          { s1.kit k with wins := (s1.kit k).wins.set i (some { w with clearing := true }) } := kit_setKit s1 k _
      exact ⟨by rw [hkit]; simp, rfl, rfl, rfl, sameStores_of_eq rfl rfl rfl⟩
  case drained =>
    refine ⟨fun hidle hsharers hover => ⟨s.windowGone k i, rfl, ?_⟩, fun hidle => ?waits⟩
    · rw [windowGone_goes hwin hown hclearing hidle hsharers hover]
      obtain ⟨hstores, hgone⟩ := windowOut_leaves s k i w
      have hshare := clearSharers_windowsGo (s.windowOut k i w) k (s.sharers k w.base w.size)
      have hdrain := drainsOver_windowsGo
        (forEach (fun x t => State.clearSharer t k x) (s.sharers k w.base w.size) (s.windowOut k i w)) k (some i)
      have hgo := hshare.trans hdrain
      refine ⟨hgo.wins k i hgone, sameStores_trans hstores hgo.stores, ?_, ?_, fun x hx => ?_⟩
      · rw [hgo.pages]
        exact fun p hp => ((windowOut_pages s k i w p).1 hp).2
      · rw [hgo.pages]
        exact fun p hp hout => (windowOut_pages s k i w p).2 ⟨hp, hout⟩
      · obtain ⟨hnone, hev⟩ := clearSharers_clears k (s.windowOut k i w) hx
        exact ⟨hdrain.wins _ _ hnone, hdrain.events _ _ hev⟩
    case waits => exact congrArg Host.Outcome.next (windowGone_waits hwin hidle)

end Sys2Proof.Machine

/-! PROOFS. The end of a Kit (07 R188; 08 R221). -/

namespace Sys2Proof.Machine

/-! ### KIT_DESTROY (07 R188) -/

/-- A Kit without bindings, under KIT_DESTROY, with its drain begun. -/
def State.kitLeaves (s : State) (j : Job) (k : Kit) : State :=
  { s.setKit k { s.kit k with binds := [], destroying := true } with drains := s.drains ++ [(j.rid, j.rq, k, none)] }

theorem kitDestroy_of_no_merge {s : State} (j : Job) (h : s.merges = []) :
    s.kitDestroy j = s.kitLeaves j (kitIx (pb j.rq 8)) := by
  unfold State.kitDestroy
  extract_lets k x s1
  have hs1 : s1 = s.setKit k { s.kit k with binds := [], destroying := true } :=
    closeMerges_empty (s := s.setKit k { s.kit k with binds := [], destroying := true }) _ h
  rw [hs1]
  rfl

/-! ### KIT_DESTROY_DRAINED (07 R188; 08 R221) -/

theorem kitGone_waits {s : State} {k : Kit}
    (h : (s.kit k).destroying = false ∨ s.kitDrained k = false ∨ (s.kit k).wipe = .under) : s.kitGone k = s := by
  unfold State.kitGone
  split
  · rfl
  · next hgoes =>
    simp only [Bool.or_eq_true, Bool.not_eq_true', not_or, Bool.not_eq_false] at hgoes
    obtain ⟨hdestroying, hdrained⟩ := hgoes
    rcases h with h | h | h
    · rw [h] at hdestroying
      cases hdestroying
    · rw [h] at hdrained
      cases hdrained
    · rw [h]

/-- A drained Kit whose key copies are overwritten, without pages, Muffles, stages and store copies, its recant record
waiting to be written and its ledger values counted until the next Downbeat. -/
def State.kitEmptied (s : State) (k : Kit) : State :=
  let t := (s.queueRec (.recant k)).releasePages k fun _ => true
  { t with muffles := t.muffles.filter fun m => m.kit != k, stages := t.stages.filter fun x => x.kit != k,
           copies := t.copies.filter fun x => x.kit != k,
           stk := { t.stk with dirty := t.stk.dirty || (t.kit k).kres != 0, gone := t.stk.goneWith (t.kit k) } }

/-- The Kit number free again, its events cleared. -/
def State.kitEnded (s : State) (k : Kit) : State :=
  { s.setKit k (s.kit k).destroyed with evs := s.evs.set (EvId.kit k).ix EvReg.zero }

section
variable {s : State} {k : Kit} (hdestroying : (s.kit k).destroying = true) (hdrained : s.kitDrained k = true)
include hdestroying hdrained

theorem kitGone_wipes (hwipe : (s.kit k).wipe = .idle) (hport : s.updating (.key k) = false) :
    s.kitGone k = s.kitWipe k := by
  simp only [State.kitGone, hdestroying, hdrained, hwipe, hport, Bool.not_true, Bool.or_self, Bool.false_eq_true, if_false]

theorem kitGone_ends (hwipe : (s.kit k).wipe = .done) :
    s.kitGone k = ((forEach (fun x t => State.clearSharer t k x) (s.sharers k 0 (2 ^ 23))
      (s.kitEmptied k)).kitEnded k).drainsOver k none := by
  simp only [State.kitGone, hdestroying, hdrained, hwipe, Bool.not_true, Bool.or_self, Bool.false_eq_true, if_false]
  rfl

end

theorem stopEngines_eng (s : State) (k : Kit) (e : Engine) : (s.stopEngines k).eng e =
    if (s.eng e).kit == k && (s.eng e).state != .idle then
      { s.eng e with state := .stopped, fetches := [], streams := [], fifo := [] } else s.eng e := by
  simp [State.stopEngines, State.eng]

theorem stopEngines_stops (s : State) (k : Kit) (e : Engine) (h : ((s.stopEngines k).eng e).kit = k) :
    ((s.stopEngines k).eng e).busy = false := by
  rw [stopEngines_eng] at h ⊢
  split at h
  · next hbusy => rw [if_pos hbusy]; rfl
  · next hidle =>
    rw [if_neg hidle]
    simp only [h, beq_self_eq_true, Bool.true_and, bne_iff_ne, ne_eq, Decidable.not_not] at hidle
    rw [EngSt.busy, hidle]
    rfl

/-- What the start of the overwriting leaves and sets. -/
theorem kitWipe_leaves (s : State) (k : Kit) : ∃ l, RecId.key k ∈ l ∧ s.kitWipe k =
    { (s.stopEngines k).setKit k { s.kit k with wipe := .under } with bel := { s.bel with recq := l } } := by
  obtain ⟨l, hl, hmem, -⟩ := queueRec_changes ((s.stopEngines k).setKit k { s.kit k with wipe := .under }) (.key k)
  exact ⟨l, hmem, hl⟩

/-- What an emptied Kit leaves and loses. -/
structure Emptied (k : Kit) (s t : State) : Prop where
  stores : SameStores s t
  pages : ∀ p, p ∈ t.pages ↔ p ∈ s.pages ∧ p.kit ≠ k
  near : ∀ b ∈ t.near, b.kit ≠ k
  muffles : ∀ m ∈ t.muffles, m.kit ≠ k
  stages : ∀ x ∈ t.stages, x.kit ≠ k
  copies : ∀ x ∈ t.copies, x.kit ≠ k
  recq : RecId.recant k ∈ t.bel.recq
  engs : t.engs = s.engs

theorem kitEmptied_empties (s : State) (k : Kit) : Emptied k s (s.kitEmptied k) := by
  obtain ⟨l, hl, hmem, -⟩ := queueRec_changes s (.recant k)
  unfold State.kitEmptied
  rw [hl]
  exact {
    stores := sameStores_of_eq rfl rfl rfl
    pages := fun p => by simp [State.releasePages]
    near := fun b hb => by simpa using (List.mem_filter.1 hb).2
    muffles := fun m hm => by simpa using (List.mem_filter.1 hm).2
    stages := fun x hx => by simpa using (List.mem_filter.1 hx).2
    copies := fun x hx => by simpa using (List.mem_filter.1 hx).2
    recq := hmem
    engs := rfl }

/-- An emptied Kit stays so while sharing windows go and requests are answered. -/
theorem Emptied.go {k : Kit} {s t u : State} (hst : Emptied k s t) (htu : WindowsGo t u) : Emptied k s u where
  stores := sameStores_trans hst.stores htu.stores
  pages := by rw [htu.pages]; exact hst.pages
  near := by rw [htu.near]; exact hst.near
  muffles := by rw [htu.muffles]; exact hst.muffles
  stages := by rw [htu.stages]; exact hst.stages
  copies := by rw [htu.copies]; exact hst.copies
  recq := by rw [htu.recq]; exact hst.recq
  engs := htu.engs.trans hst.engs

theorem Emptied.ended {k : Kit} {s t : State} (h : Emptied k s t) : Emptied k s (t.kitEnded k) :=
  ⟨sameStores_trans h.stores (sameStores_of_eq rfl rfl rfl), h.pages, h.near, h.muffles, h.stages, h.copies, h.recq, h.engs⟩

theorem kitEnded_kit (s : State) (k : Kit) : (s.kitEnded k).kit k = (s.kit k).destroyed := kit_setKit s k _

/-! ### The statement on the end of a Kit -/

/-- Settles O14: KIT_DESTROY with no merge entry open, then the three states of a Kit's end: waiting, the key overwritten
(`kitWipe_leaves`), and everything of the Kit gone (`Emptied`). -/
theorem kitDestruction : Obligations.KitDestruction := by
  unfold Obligations.KitDestruction
  refine ⟨fun s s1 rq j htaken hwf hmerges => ?begins, fun s k => ⟨fun hdestroying hdrained hwipe hport => ?wipes,
    fun hdestroying hdrained hwipe => ?ends, fun h => congrArg Host.Outcome.next (kitGone_waits h)⟩⟩
  case begins =>
    obtain rfl := taken_rq htaken
    intro k
    refine ⟨s1.kitDestroy j, runReq_taken _ htaken hwf, ?_⟩
    rw [kitDestroy_of_no_merge j hmerges]
    have hkit : (s1.kitLeaves j k).kit k = { s1.kit k with binds := [], destroying := true } := kit_setKit s1 k _
    exact ⟨by rw [hkit], by rw [hkit], rfl, rfl, rfl, sameStores_of_eq rfl rfl rfl⟩
  case wipes =>
    refine ⟨s.kitGone k, rfl, ?_⟩
    obtain ⟨l, hmem, hl⟩ := kitWipe_leaves s k
    have hkit : (s.kitWipe k).kit k = { s.kit k with wipe := .under } := by
      rw [hl]
      exact kit_setKit (s.stopEngines k) k _
    have heng : ∀ e, (s.kitWipe k).eng e = (s.stopEngines k).eng e := by
      rw [hl]
      exact fun e => rfl
    rw [kitGone_wipes hdestroying hdrained hwipe hport]
    refine ⟨by rw [hkit], by rw [hkit], by rw [hkit], by rw [hl]; exact hmem, fun e he => ?_, fun e he => ?_, ?_⟩
    · rw [heng] at he ⊢
      exact stopEngines_stops s k e he
    · rw [heng, stopEngines_eng, if_neg (by simp [he])]
    · rw [hl]
      exact ⟨rfl, rfl, rfl, sameStores_of_eq rfl rfl rfl⟩
  case ends =>
    refine ⟨s.kitGone k, rfl, ?_⟩
    rw [kitGone_ends hdestroying hdrained hwipe]
    have hcleared := (kitEmptied_empties s k).go (clearSharers_windowsGo (s.kitEmptied k) k (s.sharers k 0 (2 ^ 23)))
    have hend := hcleared.ended.go (drainsOver_windowsGo _ k none)
    obtain ⟨_, _, _, hkit⟩ := (drainsOver_countsOnly ((forEach (fun x t => State.clearSharer t k x)
      (s.sharers k 0 (2 ^ 23)) (s.kitEmptied k)).kitEnded k) k none).kits k
    rw [kitEnded_kit] at hkit
    rw [hkit]
    exact ⟨rfl, rfl, rfl, rfl, fun p hp => ((hend.pages p).1 hp).2, hend.near, hend.muffles, hend.stages, hend.copies,
      hend.recq, hend.engs, fun p hp => ⟨fun h => ((hend.pages p).1 h).1, fun h => (hend.pages p).2 ⟨h, hp⟩⟩, hend.stores⟩

end Sys2Proof.Machine

/-! PROOFS. CSR_WRITE and the registers that rows of their own name (07 R192, R193; 19 R449 to R453). -/

namespace Sys2Proof.Machine

/-! ### Events registers by their offset (19 R453) -/

theorem evAt_offset (i : EvId) : evAt i.offset = some i := by
  cases i with
  | lnk r => cases r <;> decide
  | kit k => revert k; decide
  | _ => decide

theorem offset_of_evAt {off : Nat} {i : EvId} (h : evAt off = some i) : i.offset = off := by
  simpa using List.find?_some h

/-- The place of an events register among the 34, back to the register. -/
theorem mem_allEvents (i : EvId) : i ∈ allEvents := List.mem_of_find?_eq_some (evAt_offset i)

theorem ix_injective {i j : EvId} (h : i.ix.val = j.ix.val) : i = j := by
  have hall : ∀ x ∈ allEvents, ∀ y ∈ allEvents, x.ix.val = y.ix.val → x = y := by decide
  exact hall i (mem_allEvents i) j (mem_allEvents j) h

theorem clearEv_ev_same (s : State) (i : EvId) (v : Nat) :
    ((s.clearEv i v).ev i).bits = (s.ev i).bits &&& ~~~ (BitVec.ofNat 8 v &&& ~~~ (s.ev i).fresh) := by
  simp [State.clearEv, State.ev]

theorem clearEv_ev_other {i j : EvId} (s : State) (v : Nat) (h : j ≠ i) : (s.clearEv i v).ev j = s.ev j := by
  have hix : i.ix.val ≠ j.ix.val := fun e => h (ix_injective e.symm)
  simp [State.clearEv, State.ev, hix]

/-! ### What a register write leaves -/

/-- From `s` to `t` registers whose offsets satisfy `P` have been written: of what the statements speak of, only what those
offsets name has changed. -/
structure CsrFields (P : Nat → Prop) (s t : State) : Prop where
  stores : SameStores s t := by exact sameStores_of_eq rfl rfl rfl
  mode : t.mode = s.mode := by rfl
  active : t.gen.active = s.gen.active := by rfl
  reqTo : ¬ P 0x0018 → t.gen.reqTo = s.gen.reqTo := by exact fun _ => rfl
  waking : ¬ P 0x001C → t.gen.waking = s.gen.waking := by exact fun _ => rfl
  strict : ¬ P 0x0080 → t.gen.strict = s.gen.strict := by exact fun _ => rfl
  rate : t.bar.rate = s.bar.rate := by rfl
  srcRate : ¬ P 0x0424 → t.bar.srcRate = s.bar.srcRate := by exact fun _ => rfl
  srcNext : ¬ P 0x0424 → t.bar.srcNext = s.bar.srcNext := by exact fun _ => rfl
  split : t.tier.split = s.tier.split := by rfl
  splitNext : t.tier.splitNext = s.tier.splitNext := by rfl
  splitReq : ¬ P 0x3004 → t.tier.splitReq = s.tier.splitReq := by exact fun _ => rfl
  kprobe : ∀ k : Kit, ¬ P (0x3120 + 0x40 * k.val) → (t.kit k).kprobe = (s.kit k).kprobe := by exact fun _ _ => rfl
  kprobeDue : ∀ k : Kit, ¬ P (0x3120 + 0x40 * k.val) → (t.kit k).kprobeDue = (s.kit k).kprobeDue := by exact fun _ _ => rfl
  kprobed : ∀ k : Kit, (t.kit k).kprobed = (s.kit k).kprobed := by exact fun _ => rfl
  ev : ∀ i : EvId, ¬ P i.offset → t.ev i = s.ev i := by exact fun _ _ => rfl

/-- Besides, nobody was answered. -/
structure CsrKeeps (P : Nat → Prop) (s t : State) : Prop extends CsrFields P s t where
  inflight : t.inflight = s.inflight := by rfl
  replies : t.replies = s.replies := by rfl

section
variable {P Q : Nat → Prop} {s t u : State}

theorem CsrKeeps.refl (P : Nat → Prop) (s : State) : CsrKeeps P s s := {}

theorem CsrFields.trans (hst : CsrFields P s t) (htu : CsrFields P t u) : CsrFields P s u where
  stores := sameStores_trans hst.stores htu.stores
  mode := htu.mode.trans hst.mode
  active := htu.active.trans hst.active
  reqTo h := (htu.reqTo h).trans (hst.reqTo h)
  waking h := (htu.waking h).trans (hst.waking h)
  strict h := (htu.strict h).trans (hst.strict h)
  rate := htu.rate.trans hst.rate
  srcRate h := (htu.srcRate h).trans (hst.srcRate h)
  srcNext h := (htu.srcNext h).trans (hst.srcNext h)
  split := htu.split.trans hst.split
  splitNext := htu.splitNext.trans hst.splitNext
  splitReq h := (htu.splitReq h).trans (hst.splitReq h)
  kprobe k h := (htu.kprobe k h).trans (hst.kprobe k h)
  kprobeDue k h := (htu.kprobeDue k h).trans (hst.kprobeDue k h)
  kprobed k := (htu.kprobed k).trans (hst.kprobed k)
  ev i h := (htu.ev i h).trans (hst.ev i h)

theorem CsrKeeps.trans (hst : CsrKeeps P s t) (htu : CsrKeeps P t u) : CsrKeeps P s u where
  toCsrFields := hst.toCsrFields.trans htu.toCsrFields
  inflight := htu.inflight.trans hst.inflight
  replies := htu.replies.trans hst.replies

theorem CsrKeeps.mono (h : CsrKeeps P s t) (hPQ : ∀ off, P off → Q off) : CsrKeeps Q s t :=
  { h with
    reqTo := fun hn => h.reqTo fun hp => hn (hPQ _ hp)
    waking := fun hn => h.waking fun hp => hn (hPQ _ hp)
    strict := fun hn => h.strict fun hp => hn (hPQ _ hp)
    srcRate := fun hn => h.srcRate fun hp => hn (hPQ _ hp)
    srcNext := fun hn => h.srcNext fun hp => hn (hPQ _ hp)
    splitReq := fun hn => h.splitReq fun hp => hn (hPQ _ hp)
    kprobe := fun k hn => h.kprobe k fun hp => hn (hPQ _ hp)
    kprobeDue := fun k hn => h.kprobeDue k fun hp => hn (hPQ _ hp)
    ev := fun i hn => h.ev i fun hp => hn (hPQ _ hp) }

/-- A Kit's register other than TIER_KPROBE. -/
theorem setKit_csrKeeps {k : Kit} {x : KitSt} (P : Nat → Prop) (hprobe : x.kprobe = (s.kit k).kprobe)
    (hdue : x.kprobeDue = (s.kit k).kprobeDue) (hprobed : x.kprobed = (s.kit k).kprobed) : CsrKeeps P s (s.setKit k x) := by
  have hkit : ∀ l, ((s.setKit k x).kit l).kprobe = (s.kit l).kprobe ∧
      ((s.setKit k x).kit l).kprobeDue = (s.kit l).kprobeDue ∧ ((s.setKit k x).kit l).kprobed = (s.kit l).kprobed := by
    intro l
    by_cases hl : k = l
    · subst hl
      rw [kit_setKit]
      exact ⟨hprobe, hdue, hprobed⟩
    · rw [kit_setKit_of_ne _ _ _ _ hl]
      exact ⟨rfl, rfl, rfl⟩
  exact { kprobe := fun l _ => (hkit l).1, kprobeDue := fun l _ => (hkit l).2.1, kprobed := fun l => (hkit l).2.2 }

theorem clearEv_csrKeeps {off : Nat} {i : EvId} (s : State) (v : Nat) (h : i.offset = off) :
    CsrKeeps (· = off) s (s.clearEv i v) :=
  { ev := fun j hj => clearEv_ev_other s v fun e => hj (e ▸ h) }

end

theorem wake_csrKeeps (s : State) : CsrKeeps (· = 0x001C) s s.wake := by
  unfold State.wake
  split
  · exact { waking := fun h => absurd rfl h }
  · exact .refl _ s

theorem writeGen_csrKeeps (s : State) (off v : Nat) : CsrKeeps (· = off) s (s.writeGen off v) := by
  unfold State.writeGen
  split
  · exact { reqTo := fun h => absurd rfl h }
  · split
    · exact wake_csrKeeps s
    · exact .refl _ s
  · exact {}
  · split
    · exact .refl _ s
    · exact {}
  · refine CsrKeeps.trans (t := { s with gen := { s.gen with strict := bits v 0 0 == 1 } }) ?_ (clearEv_csrKeeps _ _ rfl)
    exact { strict := fun h => absurd rfl h }
  · exact .refl _ s

theorem writeStkKit_csrKeeps (P : Nat → Prop) (s : State) (k : Kit) (r v : Nat) :
    CsrKeeps P s (s.writeStkKit k r v) := by
  unfold State.writeStkKit
  extract_lets x
  split
  · exact .refl P s
  · split
    · refine CsrKeeps.trans (t := s.setKit k { x with kres := bits v 7 0 }) (setKit_csrKeeps P rfl rfl rfl) {}
    · exact setKit_csrKeeps P rfl rfl rfl
    · exact setKit_csrKeeps P rfl rfl rfl
    · exact setKit_csrKeeps P rfl rfl rfl
    · exact .refl P s

theorem writeKit_csrKeeps (P : Nat → Prop) (s : State) (k : Kit) (r v : Nat) : CsrKeeps P s (s.writeKit k r v) := by
  unfold State.writeKit
  extract_lets x
  split
  · exact .refl P s
  · split
    · exact setKit_csrKeeps P rfl rfl rfl
    · exact setKit_csrKeeps P rfl rfl rfl
    · exact setKit_csrKeeps P rfl rfl rfl
    · exact setKit_csrKeeps P rfl rfl rfl
    · exact .refl P s

theorem writeTier_csrKeeps (s : State) (off v : Nat) : CsrKeeps (· = off) s (s.writeTier off v) := by
  unfold State.writeTier
  split
  · exact {}
  · exact { splitReq := fun h => absurd rfl h }
  · exact {}
  · exact {}
  · exact {}
  · exact {}
  · exact .refl _ s

theorem writeTierKit_csrKeeps {off r : Nat} (s : State) (k : Kit) (v : Nat) (hoff : off = 0x3100 + 0x40 * k.val + r) :
    CsrKeeps (· = off) s (s.writeTierKit k r v) := by
  unfold State.writeTierKit
  extract_lets x
  split
  · exact setKit_csrKeeps _ rfl rfl rfl
  · split
    · next hprobe =>
      have hr : r = 0x20 := by simp_all
      have hother : ∀ l : Kit, ¬ 0x3120 + 0x40 * l.val = off → k ≠ l := fun l hl e => hl (by subst e; omega)
      exact {
        kprobe := fun l hl => by rw [kit_setKit_of_ne _ _ _ _ (hother l hl)]
        kprobeDue := fun l hl => by rw [kit_setKit_of_ne _ _ _ _ (hother l hl)]
        kprobed := fun l => by
          by_cases e : k = l
          · subst e
            rw [kit_setKit]
          · rw [kit_setKit_of_ne _ _ _ _ e] }
    · exact .refl _ s

theorem writeDeep_csrKeeps (P : Nat → Prop) (s : State) (off v : Nat) : CsrKeeps P s (s.writeDeep off v) := by
  unfold State.writeDeep
  extract_lets d
  split
  case h_8 => exact .refl P s
  all_goals exact {}

theorem writeRep_csrKeeps (P : Nat → Prop) (s : State) (off v : Nat) : CsrKeeps P s (s.writeRep off v) := by
  unfold State.writeRep
  extract_lets r
  split
  case h_4 => exact .refl P s
  all_goals exact {}

/-- Where a per-Kit register of the TIER_ block stands. -/
def TierKitAt (off : Nat) (c : CsrAt) : Prop := ∀ k r, c = .tierKit k r → off = 0x3100 + 0x40 * k.val + r

theorem csrAt_tierKitAt (off : Nat) : TierKitAt off (csrAt off) := by
  unfold csrAt
  repeat' refine iteInduction (motive := TierKitAt off) (fun _ => ?_) (fun _ => ?_)
  all_goals
    intro k r h
    cases h
  simp only [kitIx]
  omega

/-- A register write changes what its own offset names. -/
theorem writeCsr_csrKeeps (s : State) (off v : Nat) : CsrKeeps (· = off) s (s.writeCsr off v) := by
  unfold State.writeCsr
  split
  · exact writeGen_csrKeeps s off v
  · next k hev =>
    split
    · exact clearEv_csrKeeps s v (offset_of_evAt hev)
    · exact .refl _ s
  · next i _ _ hev => exact clearEv_csrKeeps s v (offset_of_evAt hev)
  · split
    case h_1 => exact writeGen_csrKeeps s off v
    case h_2 =>
      split
      · exact {}
      · split
        · next hrate => exact { srcRate := fun h => absurd (beq_iff_eq.1 hrate).symm h
                                srcNext := fun h => absurd (beq_iff_eq.1 hrate).symm h }
        · exact .refl _ s
    case h_3 =>
      split
      case h_4 => exact .refl _ s
      all_goals exact {}
    case h_4 => exact writeStkKit_csrKeeps _ s _ _ v
    case h_5 r _ _ =>
      split
      · cases r <;> exact {}
      · exact .refl _ s
    case h_6 => exact writeKit_csrKeeps _ s _ _ v
    case h_7 => exact writeTier_csrKeeps s off v
    case h_8 k r hat => exact writeTierKit_csrKeeps s k v (csrAt_tierKitAt off k r hat)
    case h_9 => exact writeDeep_csrKeeps _ s off v
    case h_10 =>
      split
      · exact setKit_csrKeeps _ rfl rfl rfl
      · exact .refl _ s
    case h_11 =>
      split
      · exact {}
      · exact .refl _ s
    case h_12 => exact writeRep_csrKeeps _ s off v
    case h_13 =>
      split
      · exact {}
      · split
        · exact {}
        · exact .refl _ s
    case h_14 =>
      split
      · exact {}
      · exact .refl _ s
    case h_15 =>
      split
      · exact {}
      · exact .refl _ s
    case h_16 => exact .refl _ s

theorem writeAll_csrKeeps {P : Nat → Prop} {ps : List (Nat × Nat)} (h : ∀ x ∈ ps, P x.1) (s : State) :
    CsrKeeps P s (s.writeAll ps) := by
  induction ps generalizing s with
  | nil => exact .refl P s
  | cons x xs ih =>
    have hfirst : CsrKeeps P s (s.writeCsr x.1 x.2) :=
      (writeCsr_csrKeeps s x.1 x.2).mono fun off hoff => hoff ▸ h x List.mem_cons_self
    exact hfirst.trans (ih (fun y hy => h y (List.mem_cons_of_mem x hy)) _)

/-! ### A write whose first register is known (07 R193) -/

/-- The registers of a write after its first one. -/
def csrLater (off : Nat) (p : List Byte) : List (Nat × Nat) :=
  (List.range (p.length / 4 - 1)).map fun i => (off + 4 * (i + 1), fieldAt p (4 * (i + 1)) 4)

theorem csrPairs_first {p : List Byte} (off : Nat) (h : 4 ≤ p.length) :
    csrPairs off p = (off, fieldAt p 0 4) :: csrLater off p := by
  have hn : p.length / 4 = (p.length / 4 - 1) + 1 := by omega
  rw [csrPairs, hn, List.range_succ_eq_map, List.map_cons, List.map_map]
  rfl

theorem csrLater_ascends {off : Nat} {p : List Byte} {x : Nat × Nat} (h : x ∈ csrLater off p) : off < x.1 := by
  obtain ⟨i, _, rfl⟩ := List.mem_map.1 h
  exact Nat.lt_add_of_pos_right (by omega)

theorem writeAll_first {p : List Byte} (s : State) (off : Nat) (h : 4 ≤ p.length) :
    CsrKeeps (off < ·) (s.writeCsr off (fieldAt p 0 4)) (s.writeAll (csrPairs off p)) := by
  rw [csrPairs_first off h]
  exact writeAll_csrKeeps (fun x hx => csrLater_ascends hx) _

/-! ### The reply of a CSR_WRITE -/

/-- A reply of an opcode that Table 8.6 gives no tempo misses none. -/
theorem tempoMiss_of_unreleased (s : State) (kit : Option Kit) {a : Answer} (h : a.release = none) :
    s.tempoMiss kit a = s := by
  unfold State.tempoMiss
  rw [h]
  split
  · next hsome => cases hsome
  · rfl

theorem releaseOf_csrWrite {rq : Req} (s : State) (rid : Nat) (kit : Option Kit) (h : rq.opc.toNat = 0x41) :
    s.releaseOf rid rq kit = none := by
  unfold State.releaseOf
  split
  · rw [h]
    rfl
  · rfl

theorem tempoMiss_evs_of_unreleased (s : State) (kit : Option Kit) {a : Answer} (h : a.release = none) :
    (s.tempoMiss kit a).evs = s.evs := by
  rw [tempoMiss_of_unreleased s kit h]

theorem reply_evs_csrWrite {j : Job} (s : State) (status detail : Nat) (h : j.rq.opc.toNat = 0x41) :
    (j.reply s status detail).evs = s.evs := by
  have hqueued : (s.queueReply j.rid j.rq (some j.kit) (ans status detail)).evs = s.evs := by
    unfold State.queueReply
    cases j.rq.via with
    | i3c => rfl
    | ring r =>
      refine tempoMiss_evs_of_unreleased (s.setKit j.kit _) (some j.kit) ?_
      exact (Option.none_or ..).trans (releaseOf_csrWrite (s.setKit j.kit _) j.rid (some j.kit) h)
  unfold Job.reply State.answer
  split
  · exact hqueued
  · split
    · exact hqueued
    · rfl

/-! ### A CSR_WRITE that is taken up -/

theorem csrWrite_payload {s s1 : State} {rq : Req} {j : Job} (htaken : s.taken rq = some (j, s1))
    (hwf : rq.is 0x41 = true) : rq.payload.length = lenOf rq := by
  rw [payload_length_of_is hwf, payloadLen, if_neg]
  simpa [readsLen] using (taken_passes htaken).len

theorem reply_csrFields {j : Job} (P : Nat → Prop) (s : State) (h : j.rq.opc.toNat = 0x41) :
    CsrFields P s (j.reply s 0x00 0) where
  stores := (j.reply_countsOnly s 0x00 0).stores
  mode := answer_mode ..
  active := congrArg Gen.active (answer_gen ..)
  reqTo _ := congrArg Gen.reqTo (answer_gen ..)
  waking _ := congrArg Gen.waking (answer_gen ..)
  strict _ := congrArg Gen.strict (answer_gen ..)
  rate := congrArg Bar.rate (answer_bar ..)
  srcRate _ := congrArg Bar.srcRate (answer_bar ..)
  srcNext _ := congrArg Bar.srcNext (answer_bar ..)
  split := congrArg Tier.split (answer_tier ..)
  splitNext := congrArg Tier.splitNext (answer_tier ..)
  splitReq _ := congrArg Tier.splitReq (answer_tier ..)
  kprobe k _ := by
    obtain ⟨_, _, hk⟩ := j.reply_kit s 0x00 0 k
    rw [hk]
  kprobeDue k _ := by
    obtain ⟨_, _, hk⟩ := j.reply_kit s 0x00 0 k
    rw [hk]
  kprobed k := by
    obtain ⟨_, _, hk⟩ := j.reply_kit s 0x00 0 k
    rw [hk]
  ev i _ := congrArg (fun evs : Vector EvReg 34 => evs[i.ix]) (reply_evs_csrWrite s 0x00 0 h)

section
variable {s s1 : State} {rq : Req} {j : Job} (htaken : s.taken rq = some (j, s1)) (hwf : rq.is 0x41 = true)
include htaken hwf

/-- A CSR_WRITE of at least one register leaves what it writes first as that write makes it: the later registers have higher
offsets. -/
theorem csrWrite_first (hlen : 4 ≤ lenOf rq) :
    CsrFields (csrOff rq < ·) (s1.writeCsr (csrOff rq) (fieldAt rq.payload 0 4)) (s1.csrWrite j) := by
  have hfirst := writeAll_first s1 (csrOff rq) (by rwa [csrWrite_payload htaken hwf] : 4 ≤ rq.payload.length)
  obtain rfl := taken_rq htaken
  exact hfirst.toCsrFields.trans (reply_csrFields _ _ (opc_of_is hwf))

theorem csrWrite_whole (hlen : 4 ≤ lenOf rq) : CsrFields (csrOff rq ≤ ·) s1 (s1.csrWrite j) := by
  have hfirst := (writeCsr_csrKeeps s1 (csrOff rq) (fieldAt rq.payload 0 4)).mono
    (Q := (csrOff rq ≤ ·)) fun off hoff => Nat.le_of_eq hoff.symm
  have hlater := writeAll_first s1 (csrOff rq) (by rwa [csrWrite_payload htaken hwf] : 4 ≤ rq.payload.length)
  obtain rfl := taken_rq htaken
  exact (hfirst.trans (hlater.mono fun off hoff => Nat.le_of_lt hoff)).toCsrFields.trans
    (reply_csrFields _ _ (opc_of_is hwf))

end

theorem writesAt_iff {rq : Req} {off : Nat} :
    rq.writesAt off = true ↔ rq.is 0x41 = true ∧ csrOff rq = off ∧ 4 ≤ lenOf rq := by
  rw [Req.writesAt, Bool.and_eq_true, Bool.and_eq_true, beq_iff_eq, decide_eq_true_iff, and_assoc]

/-! ### The registers that rows of their own name -/

theorem writeCsr_reqTo (s : State) (v : Nat) : (s.writeCsr 0x0018 v).gen.reqTo = v % 1024 := by
  have hev : evAt 0x0018 = none := by decide
  have hat : csrAt 0x0018 = .gen := by decide
  simp only [State.writeCsr, hev, hat, State.writeGen, bits]
  simp

theorem writeCsr_tempo (s : State) (v : Nat) : (s.writeCsr 0x0080 v).gen.strict = (v % 2 == 1) ∧
    ((s.writeCsr 0x0080 v).ev .tempo).bits =
      (s.ev .tempo).bits &&& ~~~ (BitVec.ofNat 8 (v % 8 / 4 * 4) &&& ~~~ (s.ev .tempo).fresh) := by
  have hev : evAt 0x0080 = some .tempo := evAt_offset .tempo
  have hwrite : s.writeCsr 0x0080 v =
      ({ s with gen := { s.gen with strict := bits v 0 0 == 1 } }).clearEv .tempo (v % 8 / 4 * 4) := by
    simp only [State.writeCsr, hev]
    rfl
  rw [hwrite]
  refine ⟨?_, clearEv_ev_same _ .tempo _⟩
  simp [State.clearEv, bits]

theorem writeCsr_restExit (s : State) (v : Nat) :
    (s.writeCsr 0x001C v).gen.waking = (s.gen.waking || (v % 2 == 1 && s.mode == .rest)) := by
  have hev : evAt 0x001C = none := by decide
  have hat : csrAt 0x001C = .gen := by decide
  simp only [State.writeCsr, hev, hat, State.writeGen, State.wake, bits]
  by_cases hv : v % 2 = 1 <;> by_cases hm : s.mode = .rest <;> simp [hv, hm]

theorem writeCsr_srcRate (s : State) (v : Nat) : (s.writeCsr 0x0424 v).bar.srcRate = v % 8 ∧
    (s.writeCsr 0x0424 v).bar.srcNext =
      if s.bar.beatsrc = true ∧ (s.ringA.swOpen = true ∨ s.ringB.swOpen = true) ∧ v % 8 ≠ s.bar.rate then some (v % 8)
      else none := by
  have hev : evAt 0x0424 = none := by decide
  have hat : csrAt 0x0424 = .bar := by decide
  simp only [State.writeCsr, hev, hat, bits]
  simp [and_assoc]

theorem writeCsr_split (s : State) (v : Nat) : (s.writeCsr 0x3004 v).tier.splitReq = v % 256 := by
  have hev : evAt 0x3004 = none := by decide
  have hat : csrAt 0x3004 = .tier := by decide
  simp only [State.writeCsr, hev, hat, State.writeTier, bits]
  simp

theorem evAt_kprobe (k : Kit) : evAt (0x3120 + 0x40 * k.val) = none := by
  revert k
  decide

theorem csrAt_kprobe (k : Kit) : csrAt (0x3120 + 0x40 * k.val) = .tierKit k 0x20 := by
  revert k
  decide

theorem writeCsr_kprobe {s : State} {k : Kit} (v : Nat) (hlive : (s.kit k).live = true) :
    ((s.writeCsr (0x3120 + 0x40 * k.val) v).kit k).kprobe = v % 2 ^ 23 ∧
      ((s.writeCsr (0x3120 + 0x40 * k.val) v).kit k).kprobeDue = true := by
  simp [State.writeCsr, evAt_kprobe, csrAt_kprobe, State.writeTierKit, hlive, bits]

/-- An events register other than TEMPO's clears the bits written 1 that were not set in this Beat. -/
theorem writeCsr_events {s : State} {i : EvId} (v : Nat) (htempo : i ≠ .tempo)
    (hlive : ∀ k, i = .kit k → (s.kit k).live = true) : s.writeCsr i.offset v = s.clearEv i v := by
  unfold State.writeCsr
  rw [evAt_offset]
  split
  · next h => exact absurd (Option.some.inj h) htempo
  · next k h =>
    obtain rfl := Option.some.inj h
    rw [if_pos (hlive k rfl)]
  · next h => rw [Option.some.inj h]
  · next h => cases h

/-- An events register of which only what is owed and sent changes keeps its events. -/
theorem set_bits {v : Vector EvReg 34} {j : EvId} {e : EvReg} (i : EvId) (h : e.bits = (v[j.ix]).bits) :
    ((v.set j.ix e)[i.ix]).bits = (v[i.ix]).bits := by
  by_cases hix : j.ix.val = i.ix.val
  · have hval : v[j.ix] = v[i.ix] := by simp [hix]
    simp [hix, h, ← hval]
  · simp [hix]

theorem alertOne_bits (s : State) (j i : EvId) : ((s.alertOne j).ev i).bits = (s.ev i).bits := by
  unfold State.alertOne
  extract_lets e
  split
  · split
    · split <;> exact set_bits i rfl
    · split
      · exact set_bits i rfl
      · rfl
  · rfl

/-- Sending the ALERTs that are owed leaves every event as it stands (R160). -/
theorem alertSend_bits (s : State) (i : EvId) : (s.alertSend.ev i).bits = (s.ev i).bits := by
  refine forEach_forall (R := fun s t : State => (t.ev i).bits = (s.ev i).bits) (fun _ => rfl) ?_ ?_ allEvents s
  · intro s t u hst htu
    exact Eq.trans htu hst
  · exact fun j t => alertOne_bits t j i

/-! ### The statement on register writes -/

/-- Settles O8: the general write is `writeAll` and its reply; each register of a row of its own takes its value by the lemma
on its write, and the later registers leave it (`csrWrite_first`). -/
theorem registerWrites : Obligations.RegisterWrites := by
  unfold Obligations.RegisterWrites
  intro s s1 rq j htaken v
  refine ⟨fun hwf => ?general, fun hwf hoff hlen => ?reqTo, fun hwf => ?tempo, fun hwf => ?restExit, fun hwf => ?srcRate,
    fun hwf => ?split, fun k hwf hoff hlive => ?kprobe, fun i hwf hoff htempo hlive => ?events, fun hwf hoff => ?tempoEvents⟩
  case general =>
    have hkeeps := writeAll_csrKeeps (P := fun _ => True) (ps := csrPairs (csrOff rq) rq.payload) (fun _ _ => trivial) s1
    obtain rfl := taken_rq htaken
    refine ⟨s1.csrWrite j, runReq_taken _ htaken hwf, ?_, answer_gen .., answer_bar .., answer_stk .., answer_tier .., answer_deep .., answer_ecc .., answer_rep ..,
      answer_bel .., answer_toll .., answer_pwr ..⟩
    exact (Job.reply_replied 0x00 0 htaken hkeeps.inflight hkeeps.replies).since hkeeps.replies.symm
  case reqTo =>
    have hfirst := csrWrite_first htaken hwf hlen
    have hwhole := csrWrite_whole htaken hwf hlen
    rw [hoff] at hfirst
    exact ⟨_, runReq_taken _ htaken hwf, (hfirst.reqTo (by decide)).trans (writeCsr_reqTo s1 v), hwhole.stores⟩
  case tempo =>
    obtain ⟨his, hoff, hlen⟩ := writesAt_iff.1 hwf
    have hfirst := csrWrite_first htaken his hlen
    have hwhole := csrWrite_whole htaken his hlen
    rw [hoff] at hfirst
    obtain ⟨hstrict, hevents⟩ := writeCsr_tempo s1 v
    refine ⟨_, runReq_taken _ htaken hwf, (hfirst.strict (by decide)).trans hstrict, hwhole.active, hwhole.stores, ?_⟩
    rw [hfirst.ev .tempo (by decide)]
    exact hevents
  case restExit =>
    obtain ⟨his, hoff, hlen⟩ := writesAt_iff.1 hwf
    have hfirst := csrWrite_first htaken his hlen
    have hwhole := csrWrite_whole htaken his hlen
    rw [hoff] at hfirst
    exact ⟨_, runReq_taken _ htaken hwf, hwhole.mode, (hfirst.waking (by decide)).trans (writeCsr_restExit s1 v),
      hwhole.stores⟩
  case srcRate =>
    obtain ⟨his, hoff, hlen⟩ := writesAt_iff.1 hwf
    have hfirst := csrWrite_first htaken his hlen
    rw [hoff] at hfirst
    obtain ⟨hrate, hnext⟩ := writeCsr_srcRate s1 v
    exact ⟨_, runReq_taken _ htaken hwf, (hfirst.srcRate (by decide)).trans hrate, (csrWrite_whole htaken his hlen).rate,
      (hfirst.srcNext (by decide)).trans hnext⟩
  case split =>
    obtain ⟨his, hoff, hlen⟩ := writesAt_iff.1 hwf
    have hfirst := csrWrite_first htaken his hlen
    have hwhole := csrWrite_whole htaken his hlen
    rw [hoff] at hfirst
    exact ⟨_, runReq_taken _ htaken hwf, (hfirst.splitReq (by decide)).trans (writeCsr_split s1 v), hwhole.split,
      hwhole.splitNext⟩
  case kprobe =>
    have hrow := hwf
    simp only [Instr.wf, Bool.and_eq_true, decide_eq_true_iff, beq_iff_eq] at hrow
    obtain ⟨⟨⟨⟨his, hlen⟩, -⟩, -⟩, -⟩ := hrow
    have hfirst := csrWrite_first htaken his hlen
    rw [hoff] at hfirst
    obtain ⟨hprobe, hdue⟩ := writeCsr_kprobe v hlive
    exact ⟨_, runReq_taken _ htaken hwf, (hfirst.kprobe k (Nat.lt_irrefl _)).trans hprobe,
      (hfirst.kprobeDue k (Nat.lt_irrefl _)).trans hdue, (csrWrite_whole htaken his hlen).kprobed k⟩
  case events =>
    have hrow := hwf
    simp only [Instr.wf, Bool.and_eq_true, decide_eq_true_iff] at hrow
    obtain ⟨⟨his, hlen⟩, -⟩ := hrow
    have hfirst := csrWrite_first htaken his hlen
    rw [hoff, writeCsr_events _ htempo hlive] at hfirst
    refine ⟨_, runReq_taken _ htaken hwf, ?_⟩
    rw [alertSend_bits, hfirst.ev i (Nat.lt_irrefl _)]
    exact clearEv_ev_same s1 i v
  case tempoEvents =>
    have hrow := hwf
    simp only [Instr.wf, Bool.and_eq_true, decide_eq_true_iff] at hrow
    obtain ⟨⟨his, hlen⟩, -⟩ := hrow
    have hfirst := csrWrite_first htaken his hlen
    rw [hoff] at hfirst
    refine ⟨_, runReq_taken _ htaken hwf, ?_⟩
    rw [alertSend_bits, hfirst.ev .tempo (Nat.lt_irrefl _)]
    exact (writeCsr_tempo s1 v).2

end Sys2Proof.Machine

/-! PROOFS. The page-range commands (07 R177 to R180; 09 R232, R240). -/

namespace Sys2Proof.Machine

/-! ### The one request that waits for its pages (07 R179) -/

/-- A request's wait for pages, as it is queued. -/
def Job.wait (j : Job) (pages : List KPage) (status detail : Nat) : WaitJob :=
  ⟨j.rid, j.rq, j.kit, pages, BitVec.ofNat 8 status, BitVec.ofNat 48 detail⟩

/-- The state in which a request alone waits. -/
def State.waiting (s : State) (w : WaitJob) : State := { s with waits := [w] }

/-- What a waiting request does of its pages before it is looked at: MIGRATE_NOW goes on with each. -/
def State.waitStep (s : State) (w : WaitJob) : State :=
  match w.rq.opc.toNat with
  | 0x1B => forEach (State.migrate w.kit (argOf w.rq)) w.pages s
  | _ => s

theorem waitOver_eq (s : State) (w : WaitJob) : s.waitOver w =
    if ((s.waitStep w).stillWaits w).isEmpty then
      ({ s.waitStep w with waits := (s.waitStep w).waits.filter fun x => x.rid != w.rid }).answer w.rid w.rq (some w.kit)
        (ans w.status.toNat w.detail.toNat)
    else { s.waitStep w with
      waits := updWhere (fun x => x.rid == w.rid) (fun x => { x with pages := (s.waitStep w).stillWaits w })
        (s.waitStep w).waits } := rfl

theorem waitFor_alone {s : State} (j : Job) (pages : List KPage) (status detail : Nat) (h : s.waits = []) :
    s.waitFor j pages status detail = (s.waiting (j.wait pages status detail)).waitOver (j.wait pages status detail) := by
  simp only [State.waitFor, h, List.nil_append]
  rfl

section
variable {s t : State} {j : Job} {pages : List KPage} {status detail : Nat} (hwaits : s.waits = [])
  (hstep : (s.waiting (j.wait pages status detail)).waitStep (j.wait pages status detail) =
    t.waiting (j.wait pages status detail))
include hwaits hstep

/-- With no page left to wait for the reply is given. -/
theorem waitFor_done
    (hleft : (t.waiting (j.wait pages status detail)).stillWaits (j.wait pages status detail) = []) :
    s.waitFor j pages status detail =
      j.reply { t with waits := [] } (BitVec.ofNat 8 status).toNat (BitVec.ofNat 48 detail).toNat := by
  have hnone : (t.waiting (j.wait pages status detail)).waits.filter (fun x => x.rid != j.rid) = [] := by
    simp [State.waiting, Job.wait]
  rw [waitFor_alone j pages status detail hwaits, waitOver_eq, hstep, hleft, List.isEmpty_nil, if_pos rfl]
  exact congrArg (fun l => j.reply { t with waits := l } (BitVec.ofNat 8 status).toNat (BitVec.ofNat 48 detail).toNat) hnone

theorem waitFor_waits {left : List KPage} (hopen : left ≠ [])
    (hleft : (t.waiting (j.wait pages status detail)).stillWaits (j.wait pages status detail) = left) :
    s.waitFor j pages status detail = t.waiting (j.wait left status detail) := by
  have hone : updWhere (fun x : WaitJob => x.rid == j.rid) (fun x => { x with pages := left })
      (t.waiting (j.wait pages status detail)).waits = [j.wait left status detail] := by
    simp [updWhere, State.waiting, Job.wait]
  rw [waitFor_alone j pages status detail hwaits, waitOver_eq, hstep, hleft, if_neg (by simpa using hopen)]
  exact congrArg (fun l => { t with waits := l }) hone

end

/-- A range request that is no MIGRATE_NOW takes no step while it waits. -/
theorem waitStep_of_range {w : WaitJob} (s : State) (h : w.rq.opc.toNat ≠ 0x1B) : s.waitStep w = s := by
  unfold State.waitStep
  split
  · next hop => exact absurd hop h
  · rfl

theorem stillWaits_of_range {w : WaitJob} (s : State) (h : w.rq.opc.toNat ≠ 0x1B) : s.stillWaits w =
    w.pages.filter fun kp => match s.findPage w.kit kp with | some p => !p.stable | none => false := by
  unfold State.stillWaits
  split
  · next hop => exact absurd hop h
  · rfl

theorem stillWaits_of_migrate {s : State} {j : Job} {kp : KPage} (h : j.rq.opc.toNat = 0x1B) :
    s.stillWaits (j.wait [kp] 0x00 0) = if s.migrated j.kit (argOf j.rq) kp then [] else [kp] := by
  have hop : (j.wait [kp] 0x00 0).rq.opc.toNat = 0x1B := h
  unfold State.stillWaits
  rw [hop]
  cases hm : s.migrated j.kit (argOf j.rq) kp <;> simp [Job.wait, hm]

theorem waitStep_of_migrate {w : WaitJob} (s : State) (h : w.rq.opc.toNat = 0x1B) :
    s.waitStep w = forEach (State.migrate w.kit (argOf w.rq)) w.pages s := by
  unfold State.waitStep
  rw [h]
  rfl

/-! ### A range of one page (07 R177, R179) -/

section
variable {s t : State} {j : Job} {kp : KPage} {f : KPage → State → Option State} (hpages : pagesOf j.rq = [kp])
include hpages

theorem rangeRequest_full (hfull : f kp s = none) : s.rangeRequest j f = s.waitFor j [] 0x04 (65536 * 3) := by
  simp [State.rangeRequest, hpages, State.eachPage, hfull, rangeStatus, detPartial]

/-- A page backed, or already so: it is waited for until its record is stable (09 R235). -/
theorem rangeRequest_backed {p : Page} (hbacked : f kp s = some t) (hfind : t.findPage j.kit kp = some p) :
    s.rangeRequest j f = t.waitFor j (if p.stable then [] else [kp]) 0x00 0 := by
  cases hs : p.stable <;>
    simp [State.rangeRequest, hpages, State.eachPage, hbacked, rangeStatus, hfind, hs]

end

section
variable {s : State} {j : Job} (hwaits : s.waits = []) (hop : j.rq.opc.toNat ≠ 0x1B)
include hwaits hop

theorem waitFor_of_no_page (status detail : Nat) : s.waitFor j [] status detail =
    j.reply { s with waits := [] } (BitVec.ofNat 8 status).toNat (BitVec.ofNat 48 detail).toNat :=
  waitFor_done (t := s) hwaits (waitStep_of_range _ hop) (stillWaits_of_range _ hop)

theorem waitFor_of_unstable {kp : KPage} {p : Page} (hfind : s.findPage j.kit kp = some p) (hstable : p.stable = false) :
    s.waitFor j [kp] 0x00 0 = s.waiting (j.wait [kp] 0x00 0) := by
  refine waitFor_waits (t := s) hwaits (waitStep_of_range _ hop) (by simp) ?_
  have hfind' : (s.waiting (j.wait [kp] 0x00 0)).findPage j.kit kp = some p := hfind
  rw [stillWaits_of_range _ hop]
  simp only [Job.wait] at hfind' ⊢
  simp [hfind', hstable]

end

/-! ### PLACE and PIN of one page (09 R232, R240) -/

theorem findPage_newPage {s : State} {k : Kit} {kp : KPage} (h : Home) (hnone : s.findPage k kp = none) :
    (s.backAt k kp h).findPage k kp = some (newPage k kp h s.bar.beatno) := by
  have hfind : (s.pages ++ [newPage k kp h s.bar.beatno]).find? (fun p => p.kit == k && p.kp == kp) =
      some (newPage k kp h s.bar.beatno) := by
    rw [List.find?_append, show s.pages.find? _ = none from hnone]
    simp [newPage]
  exact hfind

/-- What a PLACE of an unbacked page finds for it. -/
theorem placeOne_unbacked {s : State} {k : Kit} {kp : KPage} (arg : Nat) (hnone : s.findPage k kp = none) :
    State.placeOne k arg kp s = (if arg == 1 then s.homeChoice k else s.deepChoice k).map fun h => s.backAt k kp h := by
  simp only [State.placeOne, hnone]

section
variable {s : State} {k : Kit} {kp : KPage} {arg : Nat} {p : Page} (hfind : s.findPage k kp = some p)
include hfind

theorem backPage_backed : s.backPage k kp = some s := by
  simp only [State.backPage, hfind]

theorem pinOne_pinned (hpin : (if arg == 1 then p.nearPin else p.mainPin) = true) : State.pinOne k arg kp s = some s := by
  simp only [State.pinOne, backPage_backed hfind, Option.bind_some, hfind]
  split at hpin
  · next harg => rw [if_pos harg, if_pos hpin]
  · next harg => rw [if_neg harg, if_pos hpin]

/-- The page pinned in Main. -/
def State.mainPinned (s : State) (k : Kit) (kp : KPage) : State := s.updPage k kp fun q => { q with mainPin := true }

theorem pinOne_main (harg : arg = 2) (hframe : p.frame.isSome = true) (hmain : p.mainPin = false)
    (himplied : p.impliedPin = false) (hmay : s.mayPinMain k false = true) :
    State.pinOne k arg kp s = some (s.mainPinned k kp) := by
  have hdeep : p.deepPage = none := by
    unfold Page.frame at hframe
    unfold Page.deepPage
    cases hh : p.home <;> simp_all
  subst harg
  simp [State.pinOne, backPage_backed hfind, hfind, hdeep, hmain, himplied, hmay]
  rfl

theorem findPage_mainPinned : (s.mainPinned k kp).findPage k kp = some { p with mainPin := true } := by
  have hp := List.find?_some hfind
  have hmap : (updWhere (fun q => q.kit == k && q.kp == kp) (fun q : Page => { q with mainPin := true }) s.pages).find?
      (fun q => q.kit == k && q.kp == kp) = some { p with mainPin := true } := by
    rw [updWhere, List.find?_map]
    have hsame : ((fun q : Page => q.kit == k && q.kp == kp) ∘
        fun x => if (x.kit == k && x.kp == kp) = true then { x with mainPin := true } else x) =
        fun q => q.kit == k && q.kp == kp := by
      funext q
      simp only [Function.comp_apply]
      split <;> rfl
    rw [hsame, show s.pages.find? _ = some p from hfind]
    simp only [Option.map_some, hp, if_true]
  exact hmap

end

theorem updWhere_page (k : Kit) (kp : KPage) (f : Page → Page) (l : List Page) :
    updWhere (fun p => p.kit == k && p.kp == kp) f l = l.map fun p => if p.kit = k ∧ p.kp = kp then f p else p := by
  simp only [updWhere, Bool.and_eq_true, beq_iff_eq]

/-! ### MIGRATE_NOW of one page (09 R240) -/

theorem migrate_migrated {s : State} {k : Kit} {arg : Nat} {kp : KPage} (h : s.migrated k arg kp = true) :
    State.migrate k arg kp s = s := by
  simp only [State.migrate, h, if_true]

/-- A promotion into a slot that is free. -/
def promotion (s : State) (k : Kit) (kp : KPage) (p : Page) (n : Nat) : Move :=
  { mkMove k kp .promote n with reads := ~~~ p.zero, entry := s.entryLeft }

theorem migrate_promotes {s : State} {k : Kit} {kp : KPage} {p : Page} {n : Nat} (h : s.migrated k 1 kp = false)
    (hfind : s.findPage k kp = some p) (hmoving : s.moving k kp = false) (hslot : s.pickSlot k = some (n, none)) :
    State.migrate k 1 kp s = s.addMove (promotion s k kp p n) := by
  simp only [State.migrate, h, hfind, State.startPromote, hmoving, hslot, Bool.false_eq_true, if_false]
  rfl

/-! ### MUFFLE_DECLARE (07 R180) -/

theorem muffleOf_setMuffle (s : State) (m : Muffle) : (s.setMuffle m).muffleOf m.kit m.kp = some m := by
  have hfind : ((s.muffles.filter fun x => !(x.kit == m.kit && x.kp == m.kp)) ++ [m]).find?
      (fun x => x.kit == m.kit && x.kp == m.kp) = some m := by
    rw [List.find?_append, List.find?_eq_none.2, Option.none_or]
    · simp
    · intro x hx
      simpa [imp_iff_not_or] using (List.mem_filter.1 hx).2
  exact hfind

/-- A request for generated Muffles, as it begins. -/
def Job.muffles (j : Job) : MufJob := ⟨j.rid, j.rq, j.kit, pagesOf j.rq, [], none⟩

theorem declare_generates {s : State} {j : Job} (harg : argOf j.rq = 1 ∨ argOf j.rq = 2) (hjobs : s.mufJobs = []) :
    s.declare j = ({ s with mufJobs := [j.muffles] }).muffleStep j.rid ((pagesOf j.rq).length + 2) := by
  rcases harg with h | h <;> simp only [State.declare, h, hjobs, List.nil_append] <;> rfl

/-- A Muffle request stopped by its quota before its first page. -/
def Job.mufflesStopped (j : Job) : MufJob := { j.muffles with todo := [], stop := some 0 }

theorem muffleStep_stops {s : State} {j : Job} {kp : KPage} {rest : List KPage} (n : Nat) (hpages : pagesOf j.rq = kp :: rest)
    (hjobs : s.mufJobs = [j.muffles])
    (hquota : (s.kit j.kit).quota 6 < s.muffleUsed j.kit kp + muffleChords (argOf j.rq)) :
    s.muffleStep j.rid (n + 1) = ({ s with mufJobs := [j.mufflesStopped] }).muffleStep j.rid n := by
  have hcount : countOf j.rq = (kp :: rest).length := by
    rw [← hpages, pagesOf, List.length_map, List.length_range]
  have hdone : MufJob.done j.muffles = 0 := by
    rw [MufJob.done, Job.muffles, hcount, hpages, Nat.sub_self]
  have hmuf : j.muffles.todo = kp :: rest := hpages
  have hfind : s.mufJobs.find? (fun x => x.rid == j.rid) = some j.muffles := by simp [hjobs, Job.muffles]
  have hone : updWhere (fun x : MufJob => x.rid == j.rid) (fun _ => { j.muffles with todo := [], stop := some 0 })
      s.mufJobs = [j.mufflesStopped] := by
    simp [updWhere, hjobs, Job.muffles, Job.mufflesStopped]
  rw [State.muffleStep, hfind]
  simp only [hmuf]
  have hstop : (j.muffles.got.isEmpty && decide ((s.kit j.muffles.kit).quota 6 <
      s.muffleUsed j.muffles.kit kp + muffleChords (argOf j.muffles.rq))) = true := by
    rw [Bool.and_eq_true]
    exact ⟨rfl, decide_eq_true hquota⟩
  rw [if_pos hstop, hdone]
  exact congrArg (fun l => ({ s with mufJobs := l }).muffleStep j.rid n) hone

/-- The Muffles of no page done: nothing changes but the reply. -/
theorem muffleStep_replies {s : State} {j : Job} (n : Nat) (hjobs : s.mufJobs = [j.mufflesStopped])
    (hchords : s.stageJobs = []) : ∃ l, s.muffleStep j.rid (n + 1) =
      j.reply { s with mufJobs := [], stageJobs := [], muffles := l } 0x04 (65536 * 3) := by
  have hfind : s.mufJobs.find? (fun x => x.rid == j.rid) = some j.mufflesStopped := by
    simp [hjobs, Job.mufflesStopped, Job.muffles]
  have hnone : s.mufJobs.filter (fun x => x.rid != j.rid) = [] := by
    simp [hjobs, Job.mufflesStopped, Job.muffles]
  refine ⟨updWhere (fun m => m.kit == j.kit && ((pagesOf j.rq).take 0).contains m.kp)
    (fun m => { m with stored := true }) s.muffles, ?_⟩
  rw [State.muffleStep, hfind, ← hnone]
  have hover : s.muffleOver j.mufflesStopped = j.reply { s with
      mufJobs := s.mufJobs.filter fun x => x.rid != j.rid, stageJobs := [],
      muffles := updWhere (fun m => m.kit == j.kit && ((pagesOf j.rq).take 0).contains m.kp)
        (fun m => { m with stored := true }) s.muffles } 0x04 (65536 * 3) := by
    unfold State.muffleOver
    rw [hchords]
    rfl
  exact hover

/-! ### The statement on page-range commands -/

/-- Settles O12: a range of one page is `rangeRequest_full` or `rangeRequest_backed`, and what then waits is answered or not by
`waitFor_of_no_page` and `waitFor_of_unstable`; MIGRATE_NOW by the same wait; MUFFLE_DECLARE by its three forms. -/
theorem placePinMigrateMuffle : Obligations.PlacePinMigrateMuffle := by
  unfold Obligations.PlacePinMigrateMuffle
  refine ⟨fun s s1 rq j kp htaken hwaits hpages => ?ranges, fun s s1 rq j htaken hwf => ?muffles⟩
  case ranges =>
    obtain rfl := taken_rq htaken
    refine ⟨fun h hwf hnone hhome => ?place, fun hwf hnone hhome => ?placeFull, fun p hwf hfind hstable hpin => ?pinned,
      fun p hwf harg hfind hstable hframe hmain himplied hmay => ?pinMain, fun hwf => ?unpin, fun hwf hthere => ?migrated,
      fun p n hwf harg hnot hfind hmoving hslot => ?migrate⟩
    case place =>
      have hop : j.rq.opc.toNat ≠ 0x1B := by rw [opc_of_is hwf]; decide
      have hplace : State.placeOne j.kit (argOf j.rq) kp s1 = some (s1.backAt j.kit kp h) := by
        rw [placeOne_unbacked _ hnone, hhome]
        rfl
      have hrun : s1.rangeRequest j (State.placeOne j.kit (argOf j.rq)) =
          (s1.backAt j.kit kp h).waiting (j.wait [kp] 0x00 0) :=
        (rangeRequest_backed hpages hplace (findPage_newPage h hnone)).trans
          (waitFor_of_unstable (s := s1.backAt j.kit kp h) hwaits hop (findPage_newPage h hnone) rfl)
      exact ⟨_, _, _, (runReq_taken _ htaken hwf).trans (congrArg _ hrun), rfl, rfl, rfl, rfl, rfl, rfl, rfl, rfl, rfl,
        sameStores_of_eq rfl rfl rfl⟩
    case placeFull =>
      have hop : j.rq.opc.toNat ≠ 0x1B := by rw [opc_of_is hwf]; decide
      have hplace : State.placeOne j.kit (argOf j.rq) kp s1 = none := by
        rw [placeOne_unbacked _ hnone, hhome]
        rfl
      have hrun := (rangeRequest_full hpages hplace).trans (waitFor_of_no_page hwaits hop 0x04 (65536 * 3))
      exact ⟨_, (runReq_taken _ htaken hwf).trans (congrArg _ hrun), Job.reply_replied _ _ htaken rfl rfl,
        answer_pages .., (j.reply_countsOnly { s1 with waits := [] } _ _).stores⟩
    case pinned =>
      have hop : j.rq.opc.toNat ≠ 0x1B := by rw [opc_of_is hwf]; decide
      have hrun := (rangeRequest_backed hpages (pinOne_pinned hfind hpin) hfind).trans
        ((congrArg (s1.waitFor j · 0x00 0) (if_pos hstable)).trans (waitFor_of_no_page hwaits hop 0x00 0))
      exact ⟨_, (runReq_taken _ htaken hwf).trans (congrArg _ hrun), Job.reply_replied _ _ htaken rfl rfl,
        answer_pages .., (j.reply_countsOnly { s1 with waits := [] } _ _).stores⟩
    case pinMain =>
      have hop : j.rq.opc.toNat ≠ 0x1B := by rw [opc_of_is hwf]; decide
      have hrun := (rangeRequest_backed hpages (pinOne_main hfind harg hframe hmain himplied hmay)
        (findPage_mainPinned hfind)).trans ((congrArg ((s1.mainPinned j.kit kp).waitFor j · 0x00 0) (if_pos hstable)).trans
          (waitFor_of_no_page (s := s1.mainPinned j.kit kp) hwaits hop 0x00 0))
      exact ⟨_, (runReq_taken _ htaken hwf).trans (congrArg _ hrun), Job.reply_replied _ _ htaken rfl rfl,
        (j.reply_countsOnly { s1.mainPinned j.kit kp with waits := [] } _ _).stores,
        (answer_pages ..).trans (updWhere_page j.kit kp _ s1.pages)⟩
    case unpin =>
      have hrun : exec (.unpin j.rq) s = .next (j.reply (State.unpinOne j.kit (argOf j.rq) kp s1) 0x00 0) := by
        refine (runReq_taken _ htaken hwf).trans ?_
        rw [hpages]
        rfl
      exact ⟨_, hrun, Job.reply_replied _ _ htaken rfl rfl,
        (j.reply_countsOnly (State.unpinOne j.kit (argOf j.rq) kp s1) 0x00 0).stores,
        (answer_pages ..).trans (updWhere_page j.kit kp _ s1.pages)⟩
    case migrated =>
      have hop : j.rq.opc.toNat = 0x1B := opc_of_is hwf
      have hmig : (s1.waiting (j.wait [kp] 0x00 0)).migrated j.kit (argOf j.rq) kp = true := hthere
      have hstep : (s1.waiting (j.wait [kp] 0x00 0)).waitStep (j.wait [kp] 0x00 0) = s1.waiting (j.wait [kp] 0x00 0) :=
        (waitStep_of_migrate _ hop).trans (migrate_migrated hmig)
      have hleft : (s1.waiting (j.wait [kp] 0x00 0)).stillWaits (j.wait [kp] 0x00 0) = [] := by
        rw [stillWaits_of_migrate hop, hmig]
        rfl
      have hrun := (congrArg (s1.waitFor j · 0x00 0) hpages).trans (waitFor_done hwaits hstep hleft)
      exact ⟨_, (runReq_taken _ htaken hwf).trans (congrArg _ hrun), Job.reply_replied _ _ htaken rfl rfl, answer_pages ..,
        answer_moves .., (j.reply_countsOnly { s1 with waits := [] } _ _).stores⟩
    case migrate =>
      have hop : j.rq.opc.toNat = 0x1B := opc_of_is hwf
      have hstep : (s1.waiting (j.wait [kp] 0x00 0)).waitStep (j.wait [kp] 0x00 0) =
          (s1.addMove (promotion s1 j.kit kp p n)).waiting (j.wait [kp] 0x00 0) := by
        refine (waitStep_of_migrate _ hop).trans ?_
        rw [show (j.wait [kp] 0x00 0).rq = j.rq from rfl, harg]
        exact migrate_promotes (s := s1.waiting (j.wait [kp] 0x00 0)) hnot hfind hmoving hslot
      have hleft : ((s1.addMove (promotion s1 j.kit kp p n)).waiting (j.wait [kp] 0x00 0)).stillWaits (j.wait [kp] 0x00 0) =
          [kp] := by
        have hnotYet : ((s1.addMove (promotion s1 j.kit kp p n)).waiting (j.wait [kp] 0x00 0)).migrated j.kit 1 kp = false :=
          hnot
        rw [stillWaits_of_migrate hop, harg, hnotYet]
        rfl
      have hrun := (congrArg (s1.waitFor j · 0x00 0) hpages).trans (waitFor_waits hwaits hstep (by simp) hleft)
      exact ⟨_, _, _, (runReq_taken _ htaken hwf).trans (congrArg _ hrun), rfl, rfl, rfl, rfl, rfl, rfl, rfl, rfl, rfl, rfl,
        sameStores_of_eq rfl rfl rfl⟩
  case muffles =>
    obtain rfl := taken_rq htaken
    refine ⟨fun harg => ?drop, fun kp harg hpages => ?declared, fun kp rest harg hpages hjobs hchords hquota => ?full⟩
    case drop =>
      have hrun : s1.declare j = j.reply { s1 with
          muffles := s1.muffles.filter fun m => !(m.kit == j.kit && (pagesOf j.rq).contains m.kp) } 0x00 0 := by
        simp only [State.declare, harg]
      exact ⟨_, (runReq_taken _ htaken hwf).trans (congrArg _ hrun), Job.reply_replied _ _ htaken rfl rfl,
        (j.reply_countsOnly { s1 with muffles := _ } 0x00 0).stores, answer_muffles .., answer_pages ..⟩
    case declared =>
      have hrun : s1.declare j = j.reply (s1.setMuffle
          ⟨j.kit, kp, .declared (fieldAt j.rq.payload 0 5) (fieldAt j.rq.payload 5 2), true, false⟩) 0x00 0 := by
        simp only [State.declare, harg, hpages]
        rfl
      refine ⟨_, (runReq_taken _ htaken hwf).trans (congrArg _ hrun), Job.reply_replied _ _ htaken rfl rfl,
        (j.reply_countsOnly (s1.setMuffle _) 0x00 0).stores, answer_chordq .., ?_⟩
      exact (congrArg (List.find? fun m : Muffle => m.kit == j.kit && m.kp == kp) (answer_muffles ..)).trans
        (muffleOf_setMuffle s1 ⟨j.kit, kp, _, true, false⟩)
    case full =>
      have hstart := declare_generates harg hjobs
      rw [hpages] at hstart
      have hstop := muffleStep_stops (s := { s1 with mufJobs := [j.muffles] }) (rest.length + 2) hpages rfl hquota
      obtain ⟨l, hl⟩ := muffleStep_replies (s := { s1 with mufJobs := [j.mufflesStopped] }) (rest.length + 1) rfl hchords
      refine ⟨_, (runReq_taken _ htaken hwf).trans (congrArg _ (hstart.trans (hstop.trans hl))),
        Job.reply_replied _ _ htaken rfl rfl, (j.reply_countsOnly { s1 with mufJobs := [], stageJobs := [], muffles := l } _ _).stores,
        answer_pages ..⟩

end Sys2Proof.Machine

/-! PROOFS. TOLL_RUN and its end (07 R197; 16 R402, R404), and the Tally commands (07 R200; 18 R439, R442). -/

namespace Sys2Proof.Machine

/-! ### Records that enter the Toll ring (15 R376, R377; 16 R402) -/

/-- A chunk write of maintenance that ends nothing else. -/
def BelStep.plain (x : BelStep) : Bool := !x.house && x.fin.isNone

/-- From `s` to `t` chunk writes of maintenance were done or wait to be: the Belfry, the ledger's counts and the count of free
bytes alone have changed. -/
def BelWork (s t : State) : Prop := ∃ stk bel free, t = { s with stk := stk, bel := bel, free := free }

theorem BelWork.refl (s : State) : BelWork s s := ⟨_, _, _, rfl⟩

theorem BelWork.trans {s t u : State} (hst : BelWork s t) (htu : BelWork t u) : BelWork s u := by
  obtain ⟨_, _, _, rfl⟩ := hst
  obtain ⟨_, _, _, rfl⟩ := htu
  exact ⟨_, _, _, rfl⟩

theorem belNow_belWork {x : BelStep} (s : State) (hplain : x.plain = true) : BelWork s (s.belNow x) := by
  rw [BelStep.plain, Bool.and_eq_true, Bool.not_eq_true', Option.isNone_iff_eq_none] at hplain
  obtain ⟨hhouse, hfin⟩ := hplain
  simp only [State.belNow, hhouse, State.belWritten, hfin, State.belPuts]
  split <;> exact ⟨_, _, _, rfl⟩

theorem belStart_belWork {l : List BelStep} (s : State) (hplain : ∀ x ∈ l, x.plain = true) :
    BelWork s (s.belStart l) := by
  unfold State.belStart
  split
  · exact .refl s
  · split
    · exact ⟨_, _, _, rfl⟩
    · clear * - hplain
      induction l generalizing s with
      | nil => exact .refl s
      | cons x xs ih =>
        exact (belNow_belWork s (hplain x List.mem_cons_self)).trans
          (ih (s.belNow x) fun y hy => hplain y (List.mem_cons_of_mem x hy))

theorem belSettle_idle {s : State} (h : s.bel.run = none) : s.belSettle = s := by
  unfold State.belSettle
  rw [h]
  split <;> rfl

/-- Chunk writes of maintenance that arrive at an idle port. -/
theorem atPort_belWork {s : State} {l : List BelStep} (hport : s.bel.port = []) (hrun : s.bel.run = none)
    (hplain : ∀ x ∈ l, x.plain = true) : BelWork s (s.atPort (.steps l)) := by
  have hqueued : BelWork s { s with bel := { s.bel with port := s.bel.port ++ [.steps l] } } := ⟨_, _, _, rfl⟩
  refine hqueued.trans ?_
  unfold State.atPort State.portGoes
  split
  · rw [belSettle_idle (s := { s with bel := { s.bel with port := s.bel.port ++ [.steps l] } }) hrun]
    have hrun' : s.bel.run.isSome = false := by rw [hrun]; rfl
    simp only [hport, List.nil_append, List.length_singleton, State.portOn, hrun', Bool.false_eq_true, if_false]
    refine BelWork.trans ?_ (belStart_belWork _ hplain)
    exact ⟨_, _, _, rfl⟩
  · exact .refl _

theorem maintSteps_plain {cal : Bool} {a : Nat} {bs : List Byte} {x : BelStep} (h : x ∈ maintSteps cal a bs none) :
    x.plain = true := by
  obtain ⟨y, _, rfl⟩ := List.mem_map.1 h
  simp [BelStep.plain]

theorem tollSteps_plain {slot : Nat} {rs : List (List Byte)} {x : BelStep} (h : x ∈ tollSteps slot rs) :
    x.plain = true := by
  unfold tollSteps at h
  simp only [List.mem_append] at h
  rcases h with h | h <;>
  · split at h
    · cases h
    · exact maintSteps_plain h

theorem tollPut_belWork {s : State} (slot : Nat) (rs : List (List Byte)) (hport : s.bel.port = [])
    (hrun : s.bel.run = none) : BelWork s (s.tollPut slot rs) :=
  atPort_belWork hport hrun fun _ => tollSteps_plain

theorem logRecs_belWork {α : Type} (code arg : α → Nat) (xs : List α) (s : State) :
    BelWork s (forEach (fun x (t : State) => t.logRec (code x) (arg x)) xs s) := by
  obtain ⟨_, _, _, _, h⟩ := forEach_logRec_eq code arg xs s
  exact ⟨_, _, _, h⟩

/-- The registers of a TOLL_RUN that ends: the slot of its summary. -/
def State.tollEnded (s : State) : Toll :=
  { s.toll with summary := (s.tollNext + s.toll.recs.length) % tollSlots, part := 0 }

/-- The end of a TOLL_RUN's records works at the Belfry and sets the summary's slot. -/
theorem tollEnd_changes {s : State} (fatal : Bool) (us : Nat) (hport : s.bel.port = []) (hrun : s.bel.run = none) :
    BelWork { s with toll := s.tollEnded } (s.tollEnd 3 fatal us) := by
  unfold State.tollEnd
  extract_lets fs n count slot result recs s1 faults before t
  obtain ⟨stk, bel, free, hput⟩ : BelWork s s1 := tollPut_belWork _ _ hport hrun
  have htoll : t = s.tollEnded := by
    simp only [t, before, hput]
    rfl
  refine BelWork.trans ?_ (logRecs_belWork (fun _ => 0x0702) (fun i => (slot + i) % tollSlots) (List.range n) _)
  rw [htoll, hput]
  exact ⟨_, _, _, rfl⟩

/-! ### The dies that a Toll takes out (Table 14.2) -/

/-- From `s` to `t` dies went out: the repair state, the records that wait and the events have changed. -/
def DiesOut (s t : State) : Prop := ∃ rep bel evs, t = { s with rep := rep, bel := bel, evs := evs }

theorem DiesOut.refl (s : State) : DiesOut s s := ⟨_, _, _, rfl⟩

theorem DiesOut.trans {s t u : State} (hst : DiesOut s t) (htu : DiesOut t u) : DiesOut s u := by
  obtain ⟨_, _, _, rfl⟩ := hst
  obtain ⟨_, _, _, rfl⟩ := htu
  exact ⟨_, _, _, rfl⟩

theorem dieGoesOut_diesOut (s : State) (die : Fin 11) : DiesOut s (s.dieGoesOut die) := by
  unfold State.dieGoesOut
  extract_lets r roles second s1
  split
  · split
    · exact ⟨_, _, _, rfl⟩
    · exact .refl s
  · split
    · exact .refl s
    · have hs1 : DiesOut s s1 := by
        obtain ⟨_, _, _, hpair, -⟩ := repairPair_changes { s with rep := { r with rolesOut := r.rolesOut ||| roles } }
        simp only [s1, hpair]
        exact ⟨_, _, _, rfl⟩
      split
      · exact hs1.trans ⟨_, _, _, rfl⟩
      · exact hs1

theorem tollOuts_diesOut (s : State) (fs : List TollFail) : DiesOut s (s.tollOuts fs) := by
  refine forEach_forall .refl (fun _ _ _ => .trans) (fun f t => ?_) fs s
  split
  · exact dieGoesOut_diesOut t _
  · exact .refl t

/-! ### TOLL_RUN (07 R197) -/

theorem tollRun_busy {s : State} {j : Job} (h : s.toll.run ≠ none) : s.tollRun j = j.reply s 0x11 4 :=
  if_pos (Option.isSome_iff_ne_none.2 h)

/-- A TOLL_RUN begun. -/
def State.tollStarted (s : State) (j : Job) : State :=
  { s.tollBegin with toll := { s.tollBegin.toll with
      run := some (j.rid, j.rq, BitVec.ofNat 8 (pb j.rq 8)), part := firstPart (pb j.rq 8),
      sacLeft := if Nat.testBit (pb j.rq 8) 4 then 512 else 0 } }

theorem tollRun_starts {s : State} {j : Job} (h : s.toll.run = none) : s.tollRun j = s.tollStarted j :=
  if_neg (by simp [h])

/-! ### TOLL_RUN_DONE (07 R197; 16 R404) -/

/-- RUNFAIL where a part failed (19 R453). -/
def State.runFailed (s : State) (fs : List TollFail) : State := if fs.isEmpty then s else s.raise .toll 0x04

/-- The failing checker of a run. -/
def chkOf (fs : List TollFail) : Option TollFail := fs.find? fun f => f.part == 0x06

/-- A failing checker is a fatal cause (13 R350). -/
def State.chkFailed (s : State) (fs : List TollFail) : State :=
  match chkOf fs with
  | some f => (s.raise .ecc 0x02).fatal 0x02 f.value.toNat
  | none => s

/-- The records of a run in the Toll ring and the run over, the failing dies out. -/
def State.tollClosed (s : State) (fs : List TollFail) (us : Nat) : State :=
  let s2 := ((s.holdFails fs).tollEnd 3 (chkOf fs).isSome us).tollOuts fs
  { s2 with toll := { s2.toll with run := none } }

/-- The state at the end of a run, before the reply. -/
def State.tollOver (s : State) (fs : List TollFail) (us : Nat) : State := ((s.tollClosed fs us).runFailed fs).chkFailed fs

theorem tollRunDone_waits {s : State} {fs : List TollFail} (us : Nat) (h : s.toll.run = none ∨ s.toll.sacLeft ≠ 0) :
    s.tollRunDone fs us = s := by
  unfold State.tollRunDone
  split
  · rfl
  · next hrun =>
    rcases h with h | h
    · rw [h] at hrun
      cases hrun
    · exact if_pos (by simpa using h)

theorem tollRunDone_replies {s : State} {fs : List TollFail} {us rid : Nat} {rq : Req} {mask : BitVec 8} {f : InFlight}
    (hrun : s.toll.run = some (rid, rq, mask)) (hsac : s.toll.sacLeft = 0)
    (hfind : (s.tollOver fs us).findReq rid = some f) (hstage : f.stage ≠ .replied) :
    s.tollRunDone fs us = (s.tollOver fs us).answer rid rq f.kit
      (ans 0x00 ((s.holdFails fs).toll.recs.length + 2 ^ 16 * s.tollNext)) := by
  have hstep : s.tollRunDone fs us = (match (s.tollOver fs us).findReq rid with
      | some f => if f.stage == .replied then s.tollOver fs us else (s.tollOver fs us).answer rid rq f.kit
          (ans 0x00 ((s.holdFails fs).toll.recs.length + 2 ^ 16 * s.tollNext))
      | none => s.tollOver fs us) := by
    unfold State.tollRunDone
    rw [hrun]
    simp only [hsac]
    rfl
  rw [hstep, hfind]
  exact if_neg (by simpa using hstage)

/-- The failure records held for the ring (16 R402). -/
theorem holdFails_changes (s : State) (fs : List TollFail) : ∃ drop evs,
    s.holdFails fs = { s with toll := { s.toll with recs := (s.toll.recs ++ fs).take 64, recDrop := drop }, evs := evs } := by
  unfold State.holdFails
  extract_lets all before t s1
  split <;> exact ⟨_, _, rfl⟩

/-- What the end of a TOLL_RUN sets in its registers, and what it leaves of the rest. -/
structure TollCloses (s t : State) (fs : List TollFail) : Prop where
  run : t.toll.run = none
  lastRecs : t.toll.lastRecs = s.toll.lastRecs
  summary : t.toll.summary = (s.tollNext + ((s.toll.recs ++ fs).take 64).length) % tollSlots
  mram : t.mram = s.mram
  due : t.knl.due = s.knl.due
  inflight : t.inflight = s.inflight
  replies : t.replies = s.replies

theorem tollClosed_closes {s : State} (fs : List TollFail) (us : Nat) (hport : s.bel.port = []) (hrun : s.bel.run = none) :
    TollCloses s (s.tollClosed fs us) fs := by
  obtain ⟨drop, evs, hheld⟩ := holdFails_changes s fs
  have htoll : (s.holdFails fs).toll = { s.toll with recs := (s.toll.recs ++ fs).take 64, recDrop := drop } := by rw [hheld]
  have hbel : (s.holdFails fs).bel = s.bel := by rw [hheld]
  obtain ⟨_, _, _, hend⟩ := tollEnd_changes (s := s.holdFails fs) (chkOf fs).isSome us (by rw [hbel, hport])
    (by rw [hbel, hrun])
  obtain ⟨_, _, _, houts⟩ := tollOuts_diesOut ((s.holdFails fs).tollEnd 3 (chkOf fs).isSome us) fs
  have hnext : (s.holdFails fs).tollNext = s.tollNext := by rw [State.tollNext, htoll, State.tollNext]
  unfold State.tollClosed
  rw [houts, hend]
  exact {
    run := rfl
    lastRecs := (congrArg Toll.lastRecs htoll :)
    summary := by
      change ((s.holdFails fs).tollNext + (s.holdFails fs).toll.recs.length) % tollSlots = _
      rw [hnext, htoll]
    mram := (congrArg State.mram hheld :)
    due := (congrArg (fun t : State => t.knl.due) hheld :)
    inflight := (congrArg State.inflight hheld :)
    replies := (congrArg State.replies hheld :) }

theorem runFailed_leaves (s : State) (fs : List TollFail) : (s.runFailed fs).toll = s.toll ∧
    (s.runFailed fs).mram = s.mram ∧ (s.runFailed fs).knl = s.knl ∧ (s.runFailed fs).inflight = s.inflight ∧
    (s.runFailed fs).replies = s.replies := by
  unfold State.runFailed
  split <;> exact ⟨rfl, rfl, rfl, rfl, rfl⟩

theorem chkFailed_leaves (s : State) (fs : List TollFail) : (s.chkFailed fs).toll = s.toll ∧
    (s.chkFailed fs).mram = s.mram ∧ (s.chkFailed fs).inflight = s.inflight ∧ (s.chkFailed fs).replies = s.replies ∧
    (s.chkFailed fs).knl.due = s.knl.due ++ ((chkOf fs).map fun f => (0x02, f.value.toNat)).toList := by
  unfold State.chkFailed
  cases chkOf fs <;> simp [State.fatal]

/-- What the end of a TOLL_RUN makes of the registers and records before its reply. -/
theorem tollOver_closes {s : State} (fs : List TollFail) (us : Nat) (hport : s.bel.port = []) (hrun : s.bel.run = none) :
    (s.tollOver fs us).toll.run = none ∧ (s.tollOver fs us).toll.lastRecs = s.toll.lastRecs ∧
      (s.tollOver fs us).toll.summary = (s.tollNext + ((s.toll.recs ++ fs).take 64).length) % tollSlots ∧
      (s.tollOver fs us).mram = s.mram ∧ (s.tollOver fs us).inflight = s.inflight ∧
      (s.tollOver fs us).replies = s.replies ∧
      (s.tollOver fs us).knl.due = s.knl.due ++ ((chkOf fs).map fun f => (0x02, f.value.toNat)).toList := by
  have hclosed := tollClosed_closes fs us hport hrun
  obtain ⟨htoll, hmram, hknl, hfly, hreplies⟩ := runFailed_leaves (s.tollClosed fs us) fs
  obtain ⟨htoll', hmram', hfly', hreplies', hdue'⟩ := chkFailed_leaves ((s.tollClosed fs us).runFailed fs) fs
  unfold State.tollOver
  rw [htoll', htoll, hmram', hmram, hfly', hfly, hreplies', hreplies, hdue', hknl, hclosed.due]
  exact ⟨hclosed.run, hclosed.lastRecs, hclosed.summary, hclosed.mram, hclosed.inflight, hclosed.replies, rfl⟩

/-- A failed part stands in TOLL_EVENTS.RUNFAIL. -/
theorem tollOver_runFail {s : State} {fs : List TollFail} (us : Nat) (h : fs ≠ []) :
    ((s.tollOver fs us).ev .toll).bits.getLsbD 2 = true := by
  have hraised : (((s.tollClosed fs us).runFailed fs).ev .toll).bits.getLsbD 2 = true := by
    rw [State.runFailed, if_neg (by simpa using h), ev_raise_same]
    simp
  unfold State.tollOver State.chkFailed
  cases chkOf fs with
  | none => exact hraised
  | some f => exact ev_raise_keeps _ .ecc 0x02 hraised

/-! ### TALLY_CTL (07 R200; 18 R439) -/

theorem store_settings (t : Tal) (beat : Nat) (r : TalRec) : (t.store beat r).on = t.on ∧
    (t.store beat r).filter = t.filter ∧ (t.store beat r).node = t.node ∧ (t.store beat r).ring = t.ring ∧
    (t.store beat r).streamNext = t.streamNext := by
  unfold Tal.store
  split <;> exact ⟨rfl, rfl, rfl, rfl, rfl⟩

/-- A record stored leaves what TALLY_CTL sets. -/
theorem tally_settings (s : State) (typ : Nat) (kit : Option Kit) (arg : Nat) : (s.tally typ kit arg).tal.on = s.tal.on ∧
    (s.tally typ kit arg).tal.filter = s.tal.filter ∧ (s.tally typ kit arg).tal.node = s.tal.node ∧
    (s.tally typ kit arg).tal.ring = s.tal.ring ∧ (s.tally typ kit arg).tal.streamNext = s.tal.streamNext := by
  unfold State.tally State.tallyAt
  split
  · split <;> exact store_settings s.tal s.bar.beatno _
  · exact ⟨rfl, rfl, rfl, rfl, rfl⟩

/-- A TALLY_CTL that is done: its reply is OK, and outside Tally only its own Kit's record may have changed. -/
structure TallyDone (s t : State) (j : Job) : Prop where
  reply : Replied s (j.reply t 0x00 0) j.rid j.rq 0x00 0 []
  stores : SameStores s (j.reply t 0x00 0)
  kits : ∀ k, k ≠ j.kit → (j.reply t 0x00 0).kit k = s.kit k
  bar : (j.reply t 0x00 0).bar = s.bar
  tal : (j.reply t 0x00 0).tal = t.tal

theorem tallyDone_of_eq {s s1 t : State} {j : Job} (htaken : s.taken j.rq = some (j, s1)) (hfly : t.inflight = s1.inflight)
    (hreplies : t.replies = s1.replies) (hstores : SameStores s1 t) (hkits : ∀ k, k ≠ j.kit → t.kit k = s1.kit k)
    (hbar : t.bar = s1.bar) : TallyDone s1 t j where
  reply := Job.reply_replied 0x00 0 htaken hfly hreplies
  stores := sameStores_trans hstores (j.reply_countsOnly t 0x00 0).stores
  kits k hk := (Job.reply_kit_of_ne t 0x00 0 hk).trans (hkits k hk)
  bar := (answer_bar ..).trans hbar
  tal := answer_tal ..

/-- Tracing begun, for the carve-out or for a node of a ring, from the record on that is stored next. -/
def State.tracingOn (s : State) (on : Nat) (node : Node) (ring : Ring) (next : Nat) : State :=
  { s with tal := { s.tal with on := on, paused := s.mode == .rest, node := node, ring := ring, streamNext := next } }

/-- The same with its START record. -/
def State.tracingStarts (s : State) (on : Nat) (node : Node) (ring : Ring) (next : Nat) : State :=
  (s.tracingOn on node ring next).tally 0x60 none ((s.tracingOn on node ring next).startArg on)

theorem tallyDone_of_start {s s1 : State} {j : Job} (htaken : s.taken j.rq = some (j, s1)) (on : Nat) (node : Node)
    (ring : Ring) (next : Nat) : TallyDone s1 (s1.tracingStarts on node ring next) j :=
  tallyDone_of_eq htaken (tally_inflight ..) (tally_replies ..) (sameStores_of_eq (tally_mram ..)
    (congrArg (fun d => d.nand) (tally_deep ..)) (congrArg (fun b => b.mem) (tally_bel ..)))
    (fun k _ => congrArg (fun kits : Vector KitSt 16 => kits[k]) (tally_kits ..)) (tally_bar ..)

/-- Tracing stopped, after its STOP record. -/
def State.tracingStops (s : State) : State :=
  { s.tally 0x61 none 0 with
    tal := { (s.tally 0x61 none 0).tal with on := 0, paused := false, node := 0x1F, ring := .a } }

theorem tallyDone_of_stop {s s1 : State} {j : Job} (htaken : s.taken j.rq = some (j, s1)) :
    TallyDone s1 s1.tracingStops j :=
  tallyDone_of_eq htaken (tally_inflight ..) (tally_replies ..) (sameStores_of_eq (tally_mram ..)
    (congrArg (fun d => d.nand) (tally_deep ..)) (congrArg (fun b => b.mem) (tally_bel ..)))
    (fun k _ => congrArg (fun kits : Vector KitSt 16 => kits[k]) (tally_kits ..)) (tally_bar ..)

/-- The filter of record classes set. -/
def State.filtered (s : State) (filter : BitVec 6) : State := { s with tal := { s.tal with filter := filter } }

theorem tallyDone_of_filter {s s1 : State} {j : Job} (htaken : s.taken j.rq = some (j, s1)) (filter : BitVec 6) :
    TallyDone s1 (s1.filtered filter) j :=
  tallyDone_of_eq htaken rfl rfl (sameStores_of_eq rfl rfl rfl) (fun _ _ => rfl) rfl

/-- A Kit's consent set; the house kit has none (08 R222). -/
def State.consented (s : State) (j : Job) : State :=
  if j.kit == 0 then s else s.setKit j.kit { s.kit j.kit with consent := pb j.rq 9 == 1 }

theorem tallyConsent_eq (s : State) (j : Job) : s.tallyConsent j = j.reply (s.consented j) 0x00 0 := by
  unfold State.tallyConsent State.consented
  split <;> rfl

theorem tallyDone_of_consent {s s1 : State} {j : Job} (htaken : s.taken j.rq = some (j, s1)) :
    TallyDone s1 (s1.consented j) j := by
  unfold State.consented
  split
  · exact tallyDone_of_eq htaken rfl rfl (sameStores_of_eq rfl rfl rfl) (fun _ _ => rfl) rfl
  · exact tallyDone_of_eq htaken rfl rfl (sameStores_of_eq rfl rfl rfl)
      (fun k hk => kit_setKit_of_ne _ _ _ _ (Ne.symm hk)) rfl

theorem consented_tal (s : State) (j : Job) : (s.consented j).tal = s.tal := by
  unfold State.consented
  split <;> rfl

theorem consented_other {s : State} {j : Job} (h : j.kit ≠ 0) :
    ((s.consented j).kit j.kit).consent = (pb j.rq 9 == 1) := by
  rw [State.consented, if_neg (by simpa using h), kit_setKit]

theorem consented_house {s : State} {j : Job} (h : j.kit = 0) : s.consented j = s := if_pos (by simp [h])

/-! ### TALLY_STREAM_SEND (18 R442) -/

theorem catchUp_of_kept {t : Tal} (h : t.oldest ≤ t.streamNext) : t.catchUp = t := if_neg (Nat.not_lt.2 h)

theorem streamSend_idle {s : State} (h : s.tal.on ≠ 2 ∨ s.tal.index ≤ s.tal.streamNext) : s.streamSend = s := by
  unfold State.streamSend
  extract_lets t n old
  refine if_pos ?_
  rcases h with h | h
  · simp [h]
  · have hkept : s.tal.oldest ≤ s.tal.streamNext := (Nat.sub_le _ _).trans h
    have hn : n = 0 := by
      simp only [n, t, catchUp_of_kept hkept, Nat.sub_eq_zero_of_le h, Nat.min_zero]
    simp [hn]

theorem sendDev_sends {s : State} {p : DevPkt} (h : p.dest ≠ 0x1F) : s.sendDev p = { s with devq := s.devq ++ [p] } :=
  if_neg h

/-- The stream's next packet where four records wait. -/
def State.streamPkt (s : State) (body : List Byte) : DevPkt :=
  eventPkt 0 s.tal.ring s.tal.node 0x0500 (s.tal.streamNext % 2 ^ 32 + 2 ^ 32 * 4) body s.bar.beatno

theorem streamSend_four {s : State} {a b c d : TalRec} (hon : s.tal.on = 2) (hkept : s.tal.oldest ≤ s.tal.streamNext)
    (hfour : s.tal.streamNext + 4 ≤ s.tal.index) (ha : s.tal.recAt s.tal.streamNext = some a)
    (hb : s.tal.recAt (s.tal.streamNext + 1) = some b) (hc : s.tal.recAt (s.tal.streamNext + 2) = some c)
    (hd : s.tal.recAt (s.tal.streamNext + 3) = some d) : s.streamSend =
      ({ s with tal := { s.tal with streamNext := s.tal.streamNext + 4 } }).sendDev
        (s.streamPkt (a.bytes false ++ b.bytes false ++ c.bytes false ++ d.bytes false)) := by
  have hn : min 4 (s.tal.index - s.tal.streamNext) = 4 := by omega
  have hrange : List.range 4 = [0, 1, 2, 3] := by decide
  simp only [State.streamSend, catchUp_of_kept hkept, hn, hon]
  rw [if_neg (by simp), hrange]
  simp [ha, hb, hc, hd, State.streamPkt, List.append_assoc]

/-! ### The statement on Tolls and Tally -/

theorem awaits_of_findReq {s : State} {rid : Nat} {f : InFlight} (hfind : s.findReq rid = some f)
    (hreplied : f.stage ≠ .replied) (hlate : f.stage ≠ .late) : s.awaits rid = true := by
  have hrid : f.rid = rid := by simpa using List.find?_some hfind
  exact List.any_eq_true.2 ⟨f, List.mem_of_find?_eq_some hfind, by simp [hrid, hreplied, hlate]⟩

/-- Settles O54: a TOLL_RUN begins or is turned down, its end by `tollOver_closes` and its reply; TALLY_CTL by what each OP sets,
with `tally_settings` for the record it stores; the stream by `streamSend_four`. That CHKFAIL's DETAIL is the measured value
(log 79), and the forms behind the run's reply and its fatal cause (logs 69 and 23), are the model's choices. -/
theorem tollRunAndTallyControl : Obligations.TollRunAndTallyControl := by
  unfold Obligations.TollRunAndTallyControl
  refine ⟨⟨fun s s1 rq j htaken hwf => ⟨fun hrun => ?starts, fun hrun => ?busy⟩,
    fun s fs us => ⟨fun h => congrArg Host.Outcome.next (tollRunDone_waits us.toNat h),
      fun rid rq mask f hrun hsac hport hbel hfind hreplied hlate => ?ends⟩⟩,
    fun s s1 rq j htaken => ?tallyCtl, fun s => ⟨fun a b c d hon hnode hkept hfour ha hb hc hd => ?stream,
      fun h => congrArg Host.Outcome.next (streamSend_idle h)⟩⟩
  case starts =>
    obtain rfl := taken_rq htaken
    refine ⟨s1.tollRun j, runReq_taken _ htaken hwf, ?_⟩
    rw [tollRun_starts hrun]
    exact ⟨rfl, Nat.min_comm _ _, rfl, rfl, rfl, sameStores_of_eq rfl rfl rfl⟩
  case busy =>
    obtain rfl := taken_rq htaken
    refine ⟨s1.tollRun j, runReq_taken _ htaken hwf, ?_⟩
    rw [tollRun_busy hrun]
    exact ⟨Job.reply_replied _ _ htaken rfl rfl, answer_toll .., (j.reply_countsOnly ..).stores⟩
  case ends =>
    obtain ⟨hover, hlast, hsummary, hmram, hfly, hreplies, hdue⟩ := tollOver_closes fs us.toNat hport hbel
    have hfind' : (s.tollOver fs us.toNat).findReq rid = some f := by rw [State.findReq, hfly]; exact hfind
    refine ⟨s.tollRunDone fs us.toNat, rfl, ?_⟩
    rw [tollRunDone_replies hrun hsac hfind' hreplied, answer_toll, answer_mram, answer_knl]
    refine ⟨hover, hmram, hlast, fun hfs hrecs => ⟨?_, ?_⟩, fun hfs => answer_events _ _ _ _ _ _ _ (tollOver_runFail _ hfs),
      fun x hfs hpart => ?_, fun hparts => ?_⟩
    · rw [hsummary, hrecs, hfs]
      rfl
    · have hheld : (s.holdFails fs).toll.recs = [] := by
        obtain ⟨_, _, h⟩ := holdFails_changes s fs
        rw [h, hrecs, hfs]
        rfl
      have hanswer := (answer_replied (s.tollOver fs us.toNat) rid rq f.kit
        (ans 0x00 ((s.holdFails fs).toll.recs.length + 2 ^ 16 * s.tollNext))
        (.inl (awaits_of_findReq hfind' hreplied hlate))).since hreplies
      rw [hheld, List.length_nil, Nat.zero_add] at hanswer ⊢
      exact hanswer
    · rw [hdue, chkOf, hfs]
      simp [hpart]
    · have hnone : chkOf fs = none := List.find?_eq_none.2 fun x hx => by simpa using hparts x hx
      rw [hdue, hnone]
      exact List.append_nil _
  case tallyCtl =>
    obtain rfl := taken_rq htaken
    refine ⟨fun hwf => ?stop, fun hwf => ?record, fun hwf => ?streamOn, fun hwf => ?filter, fun hwf => ?consent⟩
    case stop =>
      have hdone := tallyDone_of_stop htaken
      obtain ⟨-, hfilter, -⟩ := tally_settings s1 0x61 none 0
      exact ⟨s1.tallyStop j, runReq_taken _ htaken hwf, hdone.reply,
        ⟨(congrArg Tal.on hdone.tal :), (congrArg Tal.filter hdone.tal :).trans hfilter⟩, hdone.stores, hdone.kits, hdone.bar⟩
    case record =>
      have hdone := tallyDone_of_start htaken 1 0x1F .a s1.tal.streamNext
      obtain ⟨hon, hfilter, -⟩ := tally_settings (s1.tracingOn 1 0x1F .a s1.tal.streamNext) 0x60 none
        ((s1.tracingOn 1 0x1F .a s1.tal.streamNext).startArg 1)
      exact ⟨s1.tallyRecord j, runReq_taken _ htaken hwf, hdone.reply,
        ⟨(congrArg Tal.on hdone.tal :).trans hon, (congrArg Tal.filter hdone.tal :).trans hfilter⟩, hdone.stores, hdone.kits,
        hdone.bar⟩
    case streamOn =>
      have hdone := tallyDone_of_start htaken 2 (BitVec.ofNat 5 (pb j.rq 9)) (ringNo (pb j.rq 10)) s1.tal.index
      obtain ⟨hon, -, hnode, hring, hnext⟩ := tally_settings
        (s1.tracingOn 2 (BitVec.ofNat 5 (pb j.rq 9)) (ringNo (pb j.rq 10)) s1.tal.index) 0x60 none
        ((s1.tracingOn 2 (BitVec.ofNat 5 (pb j.rq 9)) (ringNo (pb j.rq 10)) s1.tal.index).startArg 2)
      exact ⟨s1.tallyStream j, runReq_taken _ htaken hwf, hdone.reply,
        ⟨(congrArg Tal.on hdone.tal :).trans hon, (congrArg Tal.node hdone.tal :).trans hnode,
          (congrArg Tal.ring hdone.tal :).trans hring, (congrArg Tal.streamNext hdone.tal :).trans hnext⟩,
        hdone.stores, hdone.kits, hdone.bar⟩
    case filter =>
      have hdone := tallyDone_of_filter htaken (BitVec.ofNat 6 (prm j.rq / 2 ^ 32))
      exact ⟨s1.tallyFilter j, runReq_taken _ htaken hwf, hdone.reply, ⟨(congrArg Tal.filter hdone.tal :),
        (congrArg Tal.on hdone.tal :), (congrArg Tal.recs hdone.tal :)⟩, hdone.stores, hdone.kits, hdone.bar⟩
    case consent =>
      have hdone := tallyDone_of_consent htaken
      refine ⟨j.reply (s1.consented j) 0x00 0, (runReq_taken _ htaken hwf).trans (congrArg _ (tallyConsent_eq s1 j)),
        hdone.reply, ⟨hdone.tal.trans (consented_tal s1 j), fun hk => ?_, fun hk => ?_⟩, hdone.stores, hdone.kits, hdone.bar⟩
      · obtain ⟨_, _, hkit⟩ := j.reply_kit (s1.consented j) 0x00 0 j.kit
        rw [hkit]
        exact consented_other hk
      · obtain ⟨_, _, hkit⟩ := j.reply_kit (s1.consented j) 0x00 0 0
        rw [hkit, consented_house hk]
  case stream =>
    rw [show exec .tallyStreamSend s = .next s.streamSend from rfl, streamSend_four hon hkept hfour ha hb hc hd]
    refine ⟨_, s.streamPkt (a.bytes false ++ b.bytes false ++ c.bytes false ++ d.bytes false), rfl, ?_⟩
    rw [sendDev_sends (p := s.streamPkt _) hnode]
    exact ⟨rfl, rfl, rfl, rfl, rfl, rfl, rfl, sameStores_of_eq rfl rfl rfl⟩

end Sys2Proof.Machine

/-! PROOFS. REPAIR_QUERY and the actions of REPAIR_APPLY (07 R198, R199; 14 R355, R360 to R370). -/

namespace Sys2Proof.Machine

/-! ### What the checks of REPAIR_APPLY ask -/

theorem running_iff {s : State} {k : UnitKind} : s.running k = true ↔ ∃ t ∈ s.rep.runs, t.kind = k := by
  simp [State.running]

theorem rowRepaired_iff {recs : List FaultRec} {die bank row : Nat} :
    (recs.any fun x => x.kind == 4 && x.die == die && x.bank == bank && x.row == row) = true ↔
      ∃ f ∈ recs, f.kind = 4 ∧ f.die = die ∧ f.bank = bank ∧ f.row = row := by
  simp [and_assoc]

theorem columnRepaired_iff {recs : List FaultRec} {die bank grp lane : Nat} :
    (recs.any fun x => x.kind == 5 && x.die == die && x.bank == bank && x.colgrp == grp && x.lane == lane) = true ↔
      ∃ f ∈ recs, f.kind = 5 ∧ f.die = die ∧ f.bank = bank ∧ f.colgrp = grp ∧ f.lane = lane := by
  simp [and_assoc]

@[simp] theorem mapRoom_rowcol (r : Rep) : r.mapRoom true = decide (r.map < 120) := by simp [Rep.mapRoom]
@[simp] theorem mapRoom_other (r : Rep) : r.mapRoom false = decide (r.map < 128) := by
  simp [Rep.mapRoom, Config.mapPairs]

theorem ringNo_eq (n : Nat) : ringNo n = if n = 1 then .b else .a := by simp [ringNo]

/-! ### Their replies -/

section
variable {s s1 : State} {rq : Req} {j : Job}

/-- A REPAIR_APPLY that starts nothing is its reply. -/
theorem reply_same (status detail : Nat) (htaken : s.taken rq = some (j, s1)) :
    Replied s1 (j.reply s1 status detail) j.rid rq status detail [] ∧ (j.reply s1 status detail).rep = s1.rep ∧
      SameStores s1 (j.reply s1 status detail) :=
  ⟨Job.reply_replied _ _ htaken rfl rfl, answer_rep .., (j.reply_countsOnly s1 status detail).stores⟩

/-- One that starts a transfer adds it and replies OK. -/
theorem started_addRun (x : Transfer) (htaken : s.taken rq = some (j, s1)) :
    Replied s1 (j.started (s1.addRun x)) j.rid rq 0x00 0 [] ∧
      (j.started (s1.addRun x)).rep = { s1.rep with runs := s1.rep.runs ++ [x] } ∧
      SameStores s1 (j.started (s1.addRun x)) :=
  ⟨Job.reply_replied _ _ htaken rfl rfl, answer_rep ..,
    sameStores_trans (sameStores_of_eq rfl rfl rfl) (j.reply_countsOnly (s1.addRun x) 0x00 0).stores⟩

@[simp] theorem answer_ring (t : State) (n : Nat) (rq : Req) (k : Option Kit) (a : Answer) (r : Ring) :
    (t.answer n rq k a).ring r = t.ring r := by
  cases r
  · exact answer_ringA t n rq k a
  · exact answer_ringB t n rq k a

/-- One that works at a ring interface and replies OK leaves the interface as the work left it. -/
theorem started_ring {t : State} (r : Ring) (htaken : s.taken rq = some (j, s1)) (hwork : RingWork r s1 t)
    (hinflight : t.inflight = s1.inflight) (hreplies : t.replies = s1.replies) :
    Replied s1 (j.started t) j.rid rq 0x00 0 [] ∧ SameStores s1 (j.started t) ∧ (j.started t).ring r = t.ring r :=
  ⟨Job.reply_replied _ _ htaken hinflight hreplies,
    sameStores_trans hwork.stores (j.reply_countsOnly t 0x00 0).stores, answer_ring ..⟩

end

/-! ### REPAIR_QUERY (R198) -/

theorem freeBytes_length (c n : Nat) : (freeBytes c n).length = n := by
  induction n generalizing c with
  | zero => rfl
  | succ n ih => rw [freeBytes, List.length_cons, ih]

theorem faultRec_bytes_length {f : FaultRec} (free : Nat) (h : ∀ b, f.raw = some b → b.length = 16) :
    (f.bytes free).length = 16 := by
  unfold FaultRec.bytes
  split
  · next b hb => exact h b hb
  · simp [length_leBytes, freeBytes_length]

/-- The records that REPAIR_QUERY returns, one behind the other, free values numbered from `free` on. -/
def repairBytes (free : Nat) (l : List FaultRec) : List Byte :=
  (((List.range l.length).zip l).map fun x => x.2.bytes (free + 8 * x.1)).flatten

theorem repairBytes_length {l : List FaultRec} (free : Nat) (h : ∀ f ∈ l, ∀ b, f.raw = some b → b.length = 16) :
    (repairBytes free l).length = 16 * l.length := by
  have hall : ∀ x ∈ (List.range l.length).zip l, (x.2.bytes (free + 8 * x.1)).length = 16 := fun x hx =>
    faultRec_bytes_length _ (h x.2 (List.of_mem_zip hx).2)
  have hlens : ((List.range l.length).zip l).map (List.length ∘ fun x => x.2.bytes (free + 8 * x.1)) =
      ((List.range l.length).zip l).map fun _ => 16 := List.map_congr_left hall
  rw [repairBytes, List.length_flatten, List.map_map, hlens]
  simp [Nat.mul_comm]

/-- Records of a Toll are returned as they stand. -/
theorem repairBytes_raw {l : List FaultRec} (free : Nat) (h : ∀ f ∈ l, f.raw.isSome = true) :
    repairBytes free l = (l.map fun f => f.raw.getD []).flatten := by
  have hall : ∀ x ∈ (List.range l.length).zip l, x.2.bytes (free + 8 * x.1) = x.2.raw.getD [] := fun x hx => by
    obtain ⟨b, hb⟩ := Option.isSome_iff_exists.1 (h x.2 (List.of_mem_zip hx).2)
    rw [FaultRec.bytes, hb]
    rfl
  have hsnd : ((List.range l.length).zip l).map (fun x => x.2.raw.getD []) =
      (((List.range l.length).zip l).map Prod.snd).map fun f => f.raw.getD [] := by
    rw [List.map_map]
    rfl
  rw [repairBytes, List.map_congr_left hall, hsnd, List.map_snd_zip (by simp)]

theorem rep_view_eq (r : Rep) (v : Nat) :
    r.view v = if v = 0 then r.factory else if v = 1 then r.recs else r.faults := by
  simp [Rep.view]

/-- The records that a REPAIR_QUERY returns. -/
def Rep.queried (r : Rep) (rq : Req) : List FaultRec :=
  ((r.view (pb rq 8)).drop (pb rq 10 + 256 * pb rq 11)).take (rq.len.toNat / 16)

theorem repairQuery_eq (s : State) (j : Job) : s.repairQuery j =
    j.answer (s.spend (8 * (s.rep.queried j.rq).length))
      (ansData (repairBytes s.free (s.rep.queried j.rq)) (s.rep.queried j.rq).length) := rfl

/-! ### The transfers that start (R360, R364, R365) -/

theorem startUnit_row {s : State} {f : FaultRec} (hkind : f.kind = 4) (hlive : s.rep.noLive f.die f.bank = false) :
    s.startUnit f = s.addRun (mkRun .row f.die f.bank f.row 0 15 false s.bar.beatno) := by
  simp [State.startUnit, hlive, hkind]

theorem startUnit_column {s : State} {f : FaultRec} (hkind : f.kind = 5) (hlive : s.rep.noLive f.die f.bank = false) :
    s.startUnit f = s.addRun (mkRun .column f.die f.bank f.colgrp f.lane 15 false s.bar.beatno) := by
  simp [State.startUnit, hlive, hkind]

/-- A role's resilvering onto the hot spare: its cursor is 0, or the saved one of the role (R366). -/
def resilverRun (s : State) (d : Fin 11) (role : Nat) : Transfer :=
  { mkRun .die d.val 0 0 0 role true s.bar.beatno with
    cursor := match s.rep.savedRes with
      | some x => if x.1 == role then x.2 else 0
      | none => 0 }

theorem startResilver_spare {s : State} {d : Fin 11} (role : Nat) (h : s.rep.spare = some d) :
    s.startResilver role = s.addRun (resilverRun s d role) := by
  unfold State.startResilver
  rw [h]
  rfl

/-! ### Spare lanes and their return (R369, R370) -/

theorem laneRuns_eq_false {s : State} (h : s.laneRuns = false) (r : Ring) :
    (s.ring r).remaps = [] ∧ (s.ring r).rejoin = none := by
  rw [State.laneRuns, List.any_eq_false] at h
  simpa using h r (by cases r <;> simp [bothRings])

/-- The first spare is the one for a lane when it is free and its loopback passed. -/
theorem freeSpare_first {x : RingSt} (hremaps : x.remaps = []) (hactive : (x.rx[0]).active = false)
    (hloop : x.loopBad.getLsbD 16 = false) : x.freeSpare 0 = some false := by
  simpa [RingSt.freeSpare, spareOf, hremaps, hactive, b2n] using hloop

/-- A receiver that compares a lane with a spare, the mirror asked for. -/
def RingSt.comparing (x : RingSt) (lane : BitVec 4) (sp : Bool) (now : Nat) : RingSt :=
  { x with
    remaps := x.remaps ++ [⟨lane, sp, now, 0⟩], mail := x.mail ++ [(.lane lane sp true, now)],
    mailOut := x.mailOut ++ [.lane lane sp true] }

theorem startRemap_free {s : State} {r : Ring} {sp : Bool} (lane : BitVec 4) (h : (s.ring r).freeSpare 0 = some sp) :
    s.startRemap r lane 0 = s.setRing r ((s.ring r).comparing lane sp s.bar.beatno) := by
  unfold State.startRemap
  extract_lets x
  rw [h]
  rfl

/-! ### The statement -/

/-- Settles O42: each REPAIR_APPLY by the branch of its action that the checks lead to, REPAIR_QUERY by `repairQuery_eq`.
That a spare column takes the byte lane of the first open fault in its group is the model's reading (`faultLane`, log 60). -/
theorem repairRequests : Obligations.RepairRequests := by
  unfold Obligations.RepairRequests
  refine ⟨?query, ?units, ?rejoins⟩
  case query =>
    intro s s1 rq j htaken hwf view out hraw
    have hout : s1.rep.queried rq = out := by rw [Rep.queried, rep_view_eq]
    have hserve : s1.repairQuery j =
        j.answer (s1.spend (8 * out.length)) (ansData (repairBytes s1.free out) out.length) := by
      rw [repairQuery_eq, taken_rq htaken, hout]
    have hin : ∀ f ∈ out, f ∈ view := fun f hf => List.mem_of_mem_drop (List.mem_of_mem_take hf)
    exact ⟨_, _, (runReq_taken _ htaken hwf).trans (congrArg _ hserve), Job.answer_replied _ htaken rfl rfl,
      repairBytes_length s1.free fun f hf => hraw f (hin f hf), repairBytes_raw s1.free, answer_rep ..,
      sameStores_trans (sameStores_of_eq rfl rfl rfl) (j.answer_countsOnly _ _).stores⟩
  case units =>
    intro s s1 rq j htaken r die bank row grp has same starts rowIn colIn
    have hrq := taken_rq htaken
    subst hrq
    have hsame {i : Instr} {st det : Nat} (h : exec i s = .next (j.reply s1 st det)) : same i st det := by
      obtain ⟨hreply, hrep, hstores⟩ := reply_same st det htaken
      exact ⟨_, h, hreply, hrep, hstores⟩
    have hstarts {i : Instr} {p : Transfer → Prop} (x : Transfer) (h : exec i s = .next (j.started (s1.addRun x)))
        (hp : p x) (hphase : x.phase = 1) : starts i p := by
      obtain ⟨hreply, hrep, hstores⟩ := started_addRun x htaken
      exact ⟨_, x, h, hreply, by rw [hrep], hp, hphase, by rw [hrep], by rw [hrep], hstores⟩
    refine ⟨fun hwf => ?row, fun hwf => ?column, fun hwf => ?die⟩
    case row =>
      have hexec {t : State} (h : s1.applyRow j = t) : exec (.repairApplySpareRow j.rq) s = .next t :=
        (runReq_taken _ htaken hwf).trans (congrArg _ h)
      refine ⟨fun hin => hsame (hexec ?_), fun hnot hrun => hsame (hexec ?_), fun hnot hrun hfull => hsame (hexec ?_),
        fun hnot hrun hfree hmap hlive =>
          hstarts (mkRun .row die bank row 0 15 false s1.bar.beatno) (hexec ?_) ⟨rfl, rfl, rfl, rfl, rfl⟩ rfl⟩
      · exact if_pos (rowRepaired_iff.2 hin)
      · exact (if_neg (mt rowRepaired_iff.1 hnot)).trans (if_pos (running_iff.2 hrun))
      · refine (if_neg (mt rowRepaired_iff.1 hnot)).trans ((if_neg (mt running_iff.1 hrun)).trans (if_pos ?_))
        rw [Bool.or_eq_true, decide_eq_true_eq]
        exact hfull.imp_right fun h => by simpa using h
      · refine (if_neg (mt rowRepaired_iff.1 hnot)).trans ((if_neg (mt running_iff.1 hrun)).trans
          ((if_neg ?_).trans (congrArg _ (startUnit_row rfl hlive))))
        rw [Bool.or_eq_true, decide_eq_true_eq, not_or]
        exact ⟨Nat.not_le.2 hfree, by simpa using hmap⟩
    case column =>
      have hexec {t : State} (h : s1.applyColumn j = t) : exec (.repairApplySpareColumn j.rq) s = .next t :=
        (runReq_taken _ htaken hwf).trans (congrArg _ h)
      refine ⟨fun hin => hsame (hexec ?_), fun hnot hrun => hsame (hexec ?_), fun hnot hrun hfull => hsame (hexec ?_),
        fun hnot hrun hfree hmap hlive =>
          hstarts (mkRun .column die bank grp (r.faultLane die bank grp) 15 false s1.bar.beatno) (hexec ?_)
            ⟨rfl, rfl, rfl, rfl, rfl⟩ rfl⟩
      · exact if_pos (columnRepaired_iff.2 hin)
      · exact (if_neg (mt columnRepaired_iff.1 hnot)).trans (if_pos (running_iff.2 hrun))
      · refine (if_neg (mt columnRepaired_iff.1 hnot)).trans ((if_neg (mt running_iff.1 hrun)).trans (if_pos ?_))
        simpa using hfull
      · refine (if_neg (mt columnRepaired_iff.1 hnot)).trans ((if_neg (mt running_iff.1 hrun)).trans
          ((if_neg ?_).trans (congrArg _ (startUnit_column rfl hlive))))
        simpa using ⟨hfree, hmap⟩
    case die =>
      have hexec {t : State} (h : s1.applyDie j = t) : exec (.repairApplySpareDie j.rq) s = .next t :=
        (runReq_taken _ htaken hwf).trans (congrArg _ h)
      refine ⟨fun hin => hsame (hexec ?_), fun hnot hrun => hsame (hexec ?_), fun hnot hrun hfull => hsame (hexec ?_),
        fun d hnot hrun hspare hmap =>
          hstarts (resilverRun s1 d die) (hexec ?_) ⟨rfl, rfl, rfl, rfl⟩ rfl⟩
      · exact if_pos hin
      · exact (if_neg (Bool.eq_false_iff.1 hnot)).trans (if_pos (running_iff.2 hrun))
      · refine (if_neg (Bool.eq_false_iff.1 hnot)).trans ((if_neg (mt running_iff.1 hrun)).trans (if_pos ?_))
        simpa using hfull
      · refine (if_neg (Bool.eq_false_iff.1 hnot)).trans ((if_neg (mt running_iff.1 hrun)).trans
          ((if_neg ?_).trans (congrArg _ (startResilver_spare die hspare))))
        simpa [show s1.rep.spare = some d from hspare] using hmap
  case rejoins =>
    intro s s1 rq j htaken ok
    have hrq := taken_rq htaken
    subst hrq
    have hok {i : Instr} (h : exec i s = .next (j.started s1)) :
        ok i (j.started s1) ∧ (j.started s1).rep = s1.rep := by
      obtain ⟨hreply, hrep, hstores⟩ := reply_same 0x00 0 htaken
      exact ⟨⟨h, hreply, hstores⟩, hrep⟩
    have hstarts {i : Instr} (x : Transfer) (h : exec i s = .next (j.started (s1.addRun x))) :
        ok i (j.started (s1.addRun x)) ∧ (j.started (s1.addRun x)).rep.runs = s1.rep.runs ++ [x] := by
      obtain ⟨hreply, hrep, hstores⟩ := started_addRun x htaken
      exact ⟨⟨h, hreply, hstores⟩, by rw [hrep]⟩
    have hrings {i : Instr} (r : Ring) (x : RingSt) (h : exec i s = .next (j.started (s1.setRing r x))) :
        ok i (j.started (s1.setRing r x)) ∧ (j.started (s1.setRing r x)).ring r = x := by
      obtain ⟨hreply, hstores, hring⟩ := started_ring r htaken (setRing_ringWork s1 r x) (by simp) (by simp)
      exact ⟨⟨h, hreply, hstores⟩, by rw [hring, ring_setRing]⟩
    refine ⟨fun hwf => ?spareLane, fun hwf => ?laneRejoin, fun hwf => ?unitRejoin⟩
    case spareLane =>
      intro r lane
      have hr : ringNo (pb j.rq 9) = r := ringNo_eq _
      have hexec {t : State} (h : s1.applyLane j = t) : exec (.repairApplySpareLane j.rq) s = .next t :=
        (runReq_taken _ htaken hwf).trans (congrArg _ h)
      unfold State.applyLane at hexec
      rw [hr] at hexec
      refine ⟨fun hmapped => ⟨_, (hok (hexec (if_pos hmapped))).1, answer_ring ..⟩,
        fun hmapped hruns hmap hactive hloop => ?_, fun hmapped hruns hfull => ?_⟩
      · obtain ⟨hremaps, -⟩ := laneRuns_eq_false hruns r
        have hspare := freeSpare_first hremaps hactive hloop
        obtain ⟨hnext, hring⟩ := hrings r ((s1.ring r).comparing lane false s1.bar.beatno) (hexec (by
          rw [← startRemap_free lane hspare]
          refine (if_neg (Bool.eq_false_iff.1 hmapped)).trans ((if_neg (Bool.eq_false_iff.1 hruns)).trans (if_neg ?_))
          rw [hspare]
          simpa using hmap))
        refine ⟨_, hnext, ?_, by rw [hring]; rfl⟩
        rw [hring, RingSt.comparing, hremaps]
        rfl
      · obtain ⟨hreply, -, -⟩ := reply_same 0x31 8 htaken
        refine ⟨_, hexec ?_, hreply, answer_ring ..⟩
        refine (if_neg (Bool.eq_false_iff.1 hmapped)).trans ((if_neg (Bool.eq_false_iff.1 hruns)).trans (if_pos ?_))
        simpa using hfull
    case laneRejoin =>
      intro r lane
      have hr : ringNo (pb j.rq 10) = r := ringNo_eq _
      have hexec {t : State} (h : s1.applyLaneRejoin j = t) : exec (.repairApplyLaneRejoin j.rq) s = .next t :=
        (runReq_taken _ htaken hwf).trans (congrArg _ h)
      unfold State.applyLaneRejoin at hexec
      rw [hr] at hexec
      refine ⟨fun hmapped => ⟨_, (hok (hexec ?_)).1, answer_ring ..⟩, fun hmapped hruns hmap => ⟨_, hrings r _ (hexec ?_)⟩⟩
      · exact if_pos (by rw [hmapped]; rfl)
      · simp only [hmapped, hruns, hmap, mapRoom_other, lane]
        rfl
    case unitRejoin =>
      intro d b
      have hexec {t : State} (h : s1.applyRejoin j = t) : exec (.repairApplyShadowRejoin j.rq) s = .next t :=
        (runReq_taken _ htaken hwf).trans (congrArg _ h)
      unfold State.applyRejoin at hexec
      refine ⟨fun hkind hin => ⟨_, hok (hexec ?_)⟩, fun hkind hout hrun hmap => ?_,
        fun hkind hserves hin => ⟨_, hok (hexec ?_)⟩,
        fun hkind hserves hout hrun => ?_, fun hkind hserves hout hrun hmap => ?_⟩
      · simp [hkind, hin, d, b]
      · obtain ⟨hnext, hruns⟩ := hstarts (mkRun .bank d b 0 0 15 false s1.bar.beatno) (hexec (by
          simp [hkind, hout, hrun, hmap, d, b]))
        exact ⟨_, _, hnext, hruns, rfl, rfl, rfl, rfl⟩
      · simp [hkind, hserves, hin, d]
      · obtain ⟨hreply, hrep, -⟩ := reply_same 0x11 2 htaken
        exact ⟨_, hexec ((if_neg (by simp [hkind])).trans ((if_neg (by simpa using hserves)).trans
          ((if_neg (mt beq_iff_eq.1 hout)).trans (if_pos hrun)))), hreply, hrep⟩
      · obtain ⟨hnext, hruns⟩ := hstarts (mkRun .die d 0 0 0
          (((List.range 10).find? fun r => s1.rep.phys r == d).getD 0) false s1.bar.beatno)
          (hexec ((if_neg (by simp [hkind])).trans ((if_neg (by simpa using hserves)).trans
            ((if_neg (mt beq_iff_eq.1 hout)).trans ((if_neg (Bool.eq_false_iff.1 hrun)).trans
              (if_neg (by simpa using hmap)))))))
        exact ⟨_, _, hnext, hruns, rfl, rfl, rfl, rfl⟩

end Sys2Proof.Machine

/-! PROOFS. READ of one chord that comes from the array (07 R171, R172; 03 R79; 05 R136). -/

namespace Sys2Proof.Machine

/-! ### A READ under way beside what it reads -/

/-- A state whose READs and translation cache alone are others. -/
def State.withReads (s : State) (q : List ReadJob) (cache : List (Kit × KPage)) (misses : Nat) : State :=
  { s with reads := q, tier := { s.tier with xcache := cache, xcmiss := misses } }

section
variable (s : State) (q : List ReadJob) (cache : List (Kit × KPage)) (misses : Nat)

theorem withReads_kitToken {k : Kit} {t : State} (h : s.kitToken k = some t) :
    (s.withReads q cache misses).kitToken k = some (t.withReads q cache misses) := by
  unfold State.kitToken at h ⊢
  dsimp only at h ⊢
  split at h
  · next htok =>
    obtain rfl := Option.some.inj h
    exact if_pos htok
  · next htok =>
    split at h
    · cases h
    · next hloose =>
      split at h
      · next hfree =>
        obtain rfl := Option.some.inj h
        exact (if_neg htok).trans ((if_neg hloose).trans (if_pos hfree))
      · cases h

end

/-! ### An array read whose decode is clean -/

/-- From `s` to `t` a chord has been read: no request, READ or stored byte changes. -/
structure ChordRead (s t : State) : Prop where
  reads : t.reads = s.reads
  inflight : t.inflight = s.inflight
  replies : t.replies = s.replies
  bar : t.bar = s.bar
  stores : SameStores s t

theorem ChordRead.of_eq {s t : State} (hreads : t.reads = s.reads := by rfl)
    (hinflight : t.inflight = s.inflight := by rfl) (hreplies : t.replies = s.replies := by rfl)
    (hbar : t.bar = s.bar := by rfl) (hmram : t.mram = s.mram := by rfl) (hnand : t.deep.nand = s.deep.nand := by rfl)
    (hmem : t.bel.mem = s.bel.mem := by rfl) : ChordRead s t :=
  ⟨hreads, hinflight, hreplies, hbar, sameStores_of_eq hmram hnand hmem⟩

theorem ChordRead.trans {s t u : State} (hst : ChordRead s t) (htu : ChordRead t u) : ChordRead s u :=
  ⟨htu.reads.trans hst.reads, htu.inflight.trans hst.inflight, htu.replies.trans hst.replies, htu.bar.trans hst.bar,
    sameStores_trans hst.stores htu.stores⟩

theorem kitToken_chordRead {s t : State} {k : Kit} (h : s.kitToken k = some t) : ChordRead s t := by
  obtain rfl | rfl := kitToken_takes h <;> exact .of_eq

theorem accessed_chordRead (s : State) (k o : Kit) (a : Nat) : ChordRead s (s.accessed k o a) := by
  unfold State.accessed
  split <;> exact .of_eq

theorem nearFill_chordRead (s : State) (k : Kit) (a : Nat) (poison : Bool) (d : List Byte) :
    ChordRead s (s.nearFill k a poison d) := by
  unfold State.nearFill
  split
  · exact .of_eq
  · split <;> exact .of_eq

theorem decodeAt_unpoisoned {s : State} {o : Kit} {a c : Nat} {d : List Byte}
    (h : (s.decodeOf o a c).value = some d) : (s.decodeAt c).poisoned = false := by
  by_contra hp
  rw [Bool.not_eq_false] at hp
  simp [State.decodeOf, ChordOut.value, hp] at h

theorem decodeAt_marker {s : State} {c : Nat} (h : (s.decodeAt c).poisoned = false) : (s.decodeAt c).marker = false := by
  unfold ChordOut.poisoned State.decodeAt decodeChord at h
  unfold State.decodeAt decodeChord
  exact Bool.and_eq_false_imp.2 fun hcls => absurd (h.symm.trans hcls) (by decide)

/-- Where the chord is not poisoned, reading it counts in the ECC registers alone. -/
theorem readArray_chordRead {s : State} (src : Nat) {c : Nat} (h : (s.decodeAt c).poisoned = false) :
    ChordRead s (s.readArray src c) := by
  have hmarker := decodeAt_marker h
  unfold State.readArray
  simp only [h, hmarker, Bool.false_and]
  exact .of_eq

/-! ### The READ of one chord -/

/-- A READ that has taken one chord of the array. -/
def ReadJob.took (q : ReadJob) (raws : List (Nat × List Byte)) (a : Nat) (d : List Byte) (now : Nat) : ReadJob :=
  { q with got := q.got ++ [(a, some d)], todo := q.todo.filter fun y => y != a, allNear := false, raws := raws,
           fromMain := q.fromMain + 1, lastTok := now }

theorem findRead_rid {s : State} {rid : Nat} {q : ReadJob} (h : s.findRead rid = some q) : q.rid = rid := by
  simpa using List.find?_some h

theorem findRead_updRead {s : State} {rid : Nat} {q : ReadJob} {f : ReadJob → ReadJob} (hf : ∀ x, (f x).rid = x.rid)
    (h : s.findRead rid = some q) : (s.updRead rid f).findRead rid = some (f q) := by
  have hrid : q.rid = rid := findRead_rid h
  have hkeeps : ((fun x : ReadJob => x.rid == rid) ∘ fun x => if x.rid == rid then f x else x) =
      fun x : ReadJob => x.rid == rid := by
    funext x
    simp only [Function.comp_apply]
    split <;> simp [hf]
  unfold State.findRead at h ⊢
  simp only [State.updRead, updWhere, List.find?_map, hkeeps, h, Option.map_some, hrid, beq_self_eq_true, if_true]

section
variable {s t : State} {rid a c : Nat} {q : ReadJob} {o : Kit × Nat} {m : BitVec 64} {ov d : List Byte}
  (hfind : s.findRead rid = some q)
include hfind

theorem readFree_done (htodo : q.todo = []) : s.readFree rid = s := by
  simp [State.readFree, hfind, htodo, forEach]

theorem readToken_done (htodo : q.todo = []) : s.readToken rid = none := by
  simp [State.readToken, hfind, htodo]

variable (htodo : q.todo = [a]) (hlook : s.look q.kit a = (o, .array c m ov))
include htodo hlook

theorem readFree_array : s.readFree rid = s := by
  simp [State.readFree, hfind, htodo, forEach, hlook]

/-- A token and a clean decode give the chord. -/
theorem readToken_array (htoken : s.kitToken q.kit = some t) (hclean : (t.decodeOf o.1 o.2 c).corrected = false)
    (hvalue : (t.decodeOf o.1 o.2 c).value = some d) :
    ∃ u t2 raws, s.readToken rid = some (u.updRead rid t2) ∧ ChordRead s u ∧ (∀ x, (t2 x).rid = x.rid) ∧
      t2 q = q.took raws a (overlay m ov d) s.bar.beatno := by
  let read := (t.readArray 1 c).accessed q.kit o.1 o.2
  have hread : ChordRead s read := ((kitToken_chordRead htoken).trans
    (readArray_chordRead 1 (decodeAt_unpoisoned hvalue))).trans (accessed_chordRead _ q.kit o.1 o.2)
  simp only [State.readToken, hfind, htodo, List.findSome?_cons, hlook, htoken, Option.map_some, hvalue, hclean]
  refine ⟨_, _, _, rfl, ?_, fun x => rfl, rfl⟩
  split
  · exact hread.trans (nearFill_chordRead _ _ _ _ _)
  · exact hread

end

/-! ### Its reply -/

/-- The reply of a request that awaits it carries the answer's mark. -/
theorem answer_mark {s : State} {rid : Nat} {rq : Req} (kit : Option Kit) (a : Answer) {r : Ring} (hvia : rq.via = .ring r)
    (hawaits : s.awaits rid = true) : ∃ p ∈ (s.answer rid rq kit a).replies, p.rid = rid ∧ p.mark = a.mark := by
  have hqueued : s.answer rid rq kit a = s.queueReply rid rq kit a := by simp [State.answer, hvia, hawaits]
  rw [hqueued]
  unfold State.queueReply
  rw [hvia]
  exact ⟨_, List.mem_append_right _ (List.mem_singleton_self _), rfl, rfl⟩

/-- The answer of a READ whose chords are all there. -/
def State.readAnswer (s : State) (q : ReadJob) : Answer :=
  { status := q.result.1, detail := q.result.2, payload := q.bytes fun a => (q.value a).getD (zeros 64), mark := q.mark,
    release := some (s.readRelease q.kit (q.at_ / 32) q.fromMain) }

theorem finishRead_ready {s : State} {rid : Nat} {q : ReadJob} (hfind : s.findRead rid = some q) (htodo : q.todo = [])
    (hearly : q.early = 0) : s.finishRead rid =
      { s with reads := s.reads.filter fun x => x.rid != rid }.answer rid q.rq (some q.kit) (s.readAnswer q) := by
  simp [State.finishRead, hfind, htodo, hearly, State.readAnswer]

theorem readOn_takes {s t : State} {rid fuel : Nat} (h : (s.readFree rid).readToken rid = some t) :
    s.readOn rid (fuel + 1) = t.readOn rid fuel := by
  simp only [State.readOn, h]

theorem readOn_finishes {s : State} {rid fuel : Nat} (h : (s.readFree rid).readToken rid = none) :
    s.readOn rid (fuel + 1) = (s.readFree rid).finishRead rid := by
  simp only [State.readOn, h]

/-- A READ of one chord with a token and a clean decode replies in its Beat. -/
theorem readOn_one {s t : State} {rid a c : Nat} {q : ReadJob} {o : Kit × Nat} {m : BitVec 64} {ov d : List Byte}
    (hfind : s.findRead rid = some q) (htodo : q.todo = [a]) (hlook : s.look q.kit a = (o, .array c m ov))
    (htoken : s.kitToken q.kit = some t) (hclean : (t.decodeOf o.1 o.2 c).corrected = false)
    (hvalue : (t.decodeOf o.1 o.2 c).value = some d) (hearly : q.early = 0) :
    ∃ (u v : State) (raws : List (Nat × List Byte)), s.readOn rid 2 = v.answer rid q.rq (some q.kit)
        (u.readAnswer (q.took raws a (overlay m ov d) s.bar.beatno)) ∧
      v.inflight = s.inflight ∧ v.replies = s.replies ∧ SameStores s v := by
  obtain ⟨u, f, raws, htakes, hread, hrid, htook⟩ := readToken_array hfind htodo hlook htoken hclean hvalue
  have hfind' : (u.updRead rid f).findRead rid = some (q.took raws a (overlay m ov d) s.bar.beatno) := by
    rw [← htook]
    exact findRead_updRead hrid (by rw [State.findRead, hread.reads]; exact hfind)
  have hdone : (q.took raws a (overlay m ov d) s.bar.beatno).todo = [] := by simp [ReadJob.took, htodo]
  refine ⟨u.updRead rid f, { u.updRead rid f with reads := (u.updRead rid f).reads.filter fun x => x.rid != rid }, raws,
    ?_, hread.inflight, hread.replies, hread.stores⟩
  have hfree := readFree_array hfind htodo hlook
  have hfree' := readFree_done hfind' hdone
  rw [readOn_takes (by rw [hfree, htakes]), readOn_finishes (by rw [hfree', readToken_done hfind' hdone]), hfree',
    finishRead_ready hfind' hdone hearly]
  rfl

/-! ### The statement -/

/-- A READ that begins. -/
def Job.firstRead (j : Job) (a : Nat) (miss : Bool) : ReadJob :=
  { rid := j.rid, rq := j.rq, kit := j.kit, todo := [a], got := [], raws := [], corr := [], fromMain := 0, at_ := j.at_,
    allNear := true, xcmiss := miss, lastTok := j.admBeat, early := 0 }

/-- A READ of one chord begins with one look-up in the translation cache. -/
theorem startRead_one {s : State} {j : Job} {a : Nat} {o : Kit × Nat} {v : View} (hlen : j.rq.len.toNat ≠ 0)
    (hearly : j.rq.early = false) (hchords : chordsOf (addrOf j.rq) j.rq.len.toNat = [a]) (hlook : s.look j.kit a = (o, v)) :
    ∃ cache misses, s.startRead j = (s.withReads
      (s.reads ++ [j.firstRead a (!s.tier.xcache.contains (o.1, kpOf o.2))]) cache misses).readOn j.rid 2 := by
  refine ⟨(s.lookup o.1 (kpOf o.2)).2.tier.xcache, (s.lookup o.1 (kpOf o.2)).2.tier.xcmiss, ?_⟩
  unfold State.startRead
  simp only [lenOf, beq_eq_false_iff_ne.2 hlen, hearly, hchords, Bool.false_and, List.map_cons, List.map_nil, hlook]
  rfl

section
variable {j : Job} {a now : Nat} {miss : Bool} {raws : List (Nat × List Byte)} {d : List Byte}
  (hchords : chordsOf (addrOf j.rq) j.rq.len.toNat = [a])

theorem firstRead_value : ((j.firstRead a miss).took raws a d now).value a = some d := by
  simp [ReadJob.value, ReadJob.took, Job.firstRead]

include hchords

theorem firstRead_chords : ((j.firstRead a miss).took raws a d now).chords = [a] := hchords

/-- The chord taken is the whole READ: STATUS OK. -/
theorem firstRead_result : ((j.firstRead a miss).took raws a d now).result = (0x00, 0) := by
  have hclean : ((j.firstRead a miss).took raws a d now).corr = [] := rfl
  simp [ReadJob.result, firstRead_chords hchords, firstRead_value, hclean]

/-- Its answer is OK with the bytes of its range. -/
theorem firstRead_answer (s : State) :
    (s.readAnswer ((j.firstRead a miss).took raws a d now)).status = 0x00 ∧
      (s.readAnswer ((j.firstRead a miss).took raws a d now)).detail = 0 ∧
      (s.readAnswer ((j.firstRead a miss).took raws a d now)).payload =
        (d.drop (addrOf j.rq % 64)).take j.rq.len.toNat := by
  have hresult := firstRead_result (a := a) (now := now) (miss := miss) (raws := raws) (d := d) hchords
  refine ⟨congrArg Prod.fst hresult, congrArg Prod.snd hresult, ?_⟩
  unfold State.readAnswer
  simp only [ReadJob.bytes, firstRead_chords hchords, List.map_cons, List.map_nil, firstRead_value, Option.getD_some,
    List.flatten_cons, List.flatten_nil, List.append_nil]
  rfl

end

theorem elapsed_self (n : Nat) : elapsed n n = 0 := by
  unfold elapsed
  have hsum : n + Config.beatWrap - n % Config.beatWrap = (n / Config.beatWrap + 1) * Config.beatWrap := by
    have := Nat.div_add_mod n Config.beatWrap
    rw [Nat.add_mul, Nat.mul_comm (n / _)]
    omega
  rw [hsum, Nat.mul_mod_left]

/-- A token of the Beat of admission gives the mark of R136. -/
theorem firstRead_mark {j : Job} {a : Nat} {miss : Bool} {raws : List (Nat × List Byte)} {d : List Byte}
    (hslot : j.slot < 32) : ((j.firstRead a miss).took raws a d j.admBeat).mark = j.at_ + 96 + if miss then 64 else 0 := by
  have hbeat : j.at_ / 32 = j.admBeat := by
    unfold Job.at_
    omega
  have hwait : ((j.firstRead a miss).took raws a d j.admBeat).mark =
      j.at_ + 96 + 32 * elapsed (j.at_ / 32) j.admBeat + if miss then 64 else 0 := rfl
  rw [hwait, hbeat, elapsed_self]

/-- Settles O9: the READ takes its chord with the first token (`readOn_one`), and its answer is the chord's bytes with the
mark of its admission (`firstRead_answer`, `firstRead_mark`). -/
theorem readReturnsTheChord : Obligations.ReadReturnsTheChord := by
  unfold Obligations.ReadReturnsTheChord
  intro s s1 rq j htaken hwf
  have hrq := taken_rq htaken
  subst hrq
  have hawaits := taken_awaits htaken
  refine ⟨fun hlen => ?empty, ?chord⟩
  case empty =>
    have hserve : s1.startRead j = j.answer s1
        { ans 0x00 0 with mark := j.at_ + 40, release := some (s1.readRelease j.kit j.admBeat 0) } := by
      unfold State.startRead
      rw [lenOf, hlen]
      rfl
    exact ⟨_, (runReq_taken _ htaken hwf).trans (congrArg _ hserve), Job.answer_replied _ htaken rfl rfl,
      (j.answer_countsOnly _ _).stores⟩
  case chord =>
    intro a o c m ov d t0 hearly hnew hbeat hslot hchords hlook htoken hclean hvalue hlen
    obtain ⟨cache, misses, hstart⟩ := startRead_one hlen hearly hchords hlook
    let q := j.firstRead a (!s1.tier.xcache.contains (o.1, kpOf o.2))
    have hfind : (s1.withReads (s1.reads ++ [q]) cache misses).findRead j.rid = some q := by
      have hnew' : s1.reads.find? (fun x => x.rid == j.rid) = none := hnew
      simp [State.findRead, State.withReads, List.find?_append, hnew', q, Job.firstRead]
    obtain ⟨u, v, raws, hreads, hinflight, hreplies, hstores⟩ := readOn_one hfind rfl hlook
      (withReads_kitToken s1 _ cache misses htoken) hclean hvalue rfl
    have hawaits' : v.awaits j.rid = true ∨ j.rq.via = .i3c := by
      rw [awaits_of_inflight j.rid hinflight]
      exact hawaits
    have hbeat' : (s1.withReads (s1.reads ++ [q]) cache misses).bar.beatno = j.admBeat := hbeat.symm
    rw [hbeat'] at hreads
    have hanswered := answer_replied v j.rid j.rq (some j.kit)
      (u.readAnswer (q.took raws a (overlay m ov d) j.admBeat)) hawaits'
    obtain ⟨hstatus, hdetail, hpayload⟩ := firstRead_answer (now := j.admBeat)
      (miss := !s1.tier.xcache.contains (o.1, kpOf o.2)) (raws := raws) (d := overlay m ov d) hchords u
    refine ⟨_, (runReq_taken (fun j t => t.startRead j) htaken hwf).trans (congrArg _ (hstart.trans hreads)),
      sameStores_trans hstores (answer_countsOnly ..).stores, ?_, fun r hvia => ?_⟩
    · rw [hstatus, hdetail, hpayload] at hanswered
      exact hanswered.since (show v.replies = s1.replies from hreplies)
    · obtain ⟨p, hp, hrid, hpmark⟩ := answer_mark (some j.kit)
        (u.readAnswer (q.took raws a (overlay m ov d) j.admBeat)) hvia (hawaits'.resolve_right (by simp [hvia]))
      refine ⟨p, hp, hrid, hpmark.trans ((firstRead_mark hslot).trans ?_)⟩
      cases s1.tier.xcache.contains (o.1, kpOf o.2) <;> rfl

end Sys2Proof.Machine

/-! PROOFS. WRITE and WRITE_MASKED: a whole chord that is held, and the writes that store nothing (07 R173 to R175; 11 R281;
03 R83; 08 R219). -/

namespace Sys2Proof.Machine

/-! ### Requests whose credits are taken -/

theorem awaits_of_uncredited {s t : State} {rid : Nat} (n : Nat)
    (h : t.inflight = updWhere (fun x => x.rid == rid) (fun x => { x with credits := 0 }) s.inflight) :
    t.awaits n = s.awaits n := by
  rw [State.awaits, State.awaits, h, updWhere, List.any_map]
  congr 1
  funext x
  simp only [Function.comp_apply]
  split <;> rfl

/-- The state in which a write's admission credits have passed to its job. -/
theorem takeCredits_state (s : State) (rid : Nat) :
    (s.takeCredits rid).2 = s.updReq rid fun x => { x with credits := 0 } := by
  unfold State.takeCredits
  split
  · rfl
  · next h =>
    have hsame : updWhere (fun x => x.rid == rid) (fun x : InFlight => { x with credits := 0 }) s.inflight = s.inflight :=
      updReq_of_absent _ fun g hg e => by simpa [e] using List.find?_eq_none.mp h g hg
    rw [State.updReq, hsame]

/-- A request that executes nothing has its reply, and nothing is stored or held. -/
theorem Job.turnDown_ends {s s1 t : State} {rq : Req} {j : Job} (a : Answer) (htaken : s.taken rq = some (j, s1))
    (hinflight : t.inflight = s1.inflight) (hreplies : t.replies = s1.replies) (hwrites : SameWrites s1 t) :
    Replied s1 (t.turnDown j.rid j.rq (some j.kit) a) j.rid rq a.status a.detail a.payload ∧
      SameStores s1 (t.turnDown j.rid j.rq (some j.kit) a) ∧
      (t.turnDown j.rid j.rq (some j.kit) a).hold = s1.hold ∧ (t.turnDown j.rid j.rq (some j.kit) a).merge = s1.merge := by
  refine ⟨?_, sameStores_trans hwrites.stores (sameStores_of_eq (by simp) (by simp) (by simp)),
    (by simp [hwrites.hold]), by simp [hwrites.merge]⟩
  rw [taken_rq htaken]
  refine (turnDown_replied t j.rid rq (some j.kit) a ?_).since hreplies
  rw [awaits_of_inflight j.rid hinflight]
  exact taken_awaits htaken

/-! ### A write that begins -/

/-- The job of a write of one chord. -/
def Job.writeJob (j : Job) (u : WUnit) (credits now : Nat) : WriteJob :=
  { rid := j.rid, rq := j.rq, kit := j.kit, todo := [u], credits := credits, open_ := 0, lastAccept := now,
    lastOutcome := now, recanted := 0, firstRecant := none, recantBeat := 0, cutAt := none, zeroed := [],
    replied := false, plain := false, falling := true }

/-- The state in which a write of one chord waits for its acceptance. -/
def State.writeBegun (s : State) (j : Job) (u : WUnit) (credits taken : Nat) (cache : List (Kit × KPage))
    (misses : Nat) : State :=
  { (s.updReq j.rid fun x => { x with credits := 0 }).setKit j.kit { s.kit j.kit with taken := taken } with
    tier := { s.tier with xcache := cache, xcmiss := misses },
    jobs := s.jobs ++ [j.writeJob u credits s.bar.beatno] }

/-- A write of one whole chord begins with one look-up in the translation cache and is accepted if it can be. -/
theorem startWrite_one {s : State} {j : Job} {u : WUnit} (hlen : lenOf j.rq ≠ 0)
    (hkey : (s.kit j.kit).keylost = false) (hmask : u.mask = BitVec.allOnes 64) (hjobs : s.jobs = [])
    (hshare : s.shareFits j.kit (s.writeCost j.kit [u]) = true) : ∃ credits taken cache misses,
      s.startWrite j [u] = (s.writeBegun j u credits taken cache misses).acceptKit j.kit := by
  have hsome : (u.mask != 0) = true := by simp [hmask]
  let begun := (s.updReq j.rid fun x => { x with credits := 0 }).setKit j.kit
    { s.kit j.kit with taken := (s.kit j.kit).taken - min (s.takeCredits j.rid).1 0 }
  refine ⟨(s.takeCredits j.rid).1 - min (s.takeCredits j.rid).1 0,
    (s.kit j.kit).taken - min (s.takeCredits j.rid).1 0,
    (begun.lookup j.kit (kpOf u.kaddr)).2.tier.xcache, (begun.lookup j.kit (kpOf u.kaddr)).2.tier.xcmiss, ?_⟩
  unfold State.startWrite
  simp only [beq_eq_false_iff_ne.2 hlen, hkey, hshare, takeCredits_state, List.filter_cons, hsome, if_true,
    List.filter_nil, List.map_cons, List.map_nil, Bool.not_true, Bool.and_false, Bool.false_eq_true, if_false]
  split
  · have hone : (s.writeBegun j u ((s.takeCredits j.rid).1 - min (s.takeCredits j.rid).1 0)
      ((s.kit j.kit).taken - min (s.takeCredits j.rid).1 0)
      (begun.lookup j.kit (kpOf u.kaddr)).2.tier.xcache (begun.lookup j.kit (kpOf u.kaddr)).2.tier.xcmiss).jobs =
        [j.writeJob u ((s.takeCredits j.rid).1 - min (s.takeCredits j.rid).1 0) s.bar.beatno] := by
      simp [State.writeBegun, hjobs]
    exact (acceptKit_of_job hone (by simp [Job.writeJob])).symm
  · rfl

section
variable {s s1 : State} {rq : Req} {j : Job} {u : WUnit} {credits taken misses : Nat} {cache : List (Kit × KPage)}

theorem writeBegun_shareFits (k : Kit) (cost : Nat) :
    (s.writeBegun j u credits taken cache misses).shareFits k cost = s.shareFits k cost := by
  have hpshare : ((s.writeBegun j u credits taken cache misses).kit k).pshare = (s.kit k).pshare := by
    by_cases h : j.kit = k
    · subst h
      exact (congrArg KitSt.pshare (kit_setKit s j.kit { s.kit j.kit with taken := taken }) :)
    · exact (congrArg KitSt.pshare (kit_setKit_of_ne s j.kit k { s.kit j.kit with taken := taken } h) :)
  unfold State.shareFits
  rw [hpshare]
  rfl

theorem writeBegun_awaits (htaken : s.taken rq = some (j, s1)) :
    AwaitsReply (s1.writeBegun j u credits taken cache misses) j.rid j.rq := by
  have hawaits : (s1.writeBegun j u credits taken cache misses).awaits j.rid = s1.awaits j.rid :=
    awaits_of_uncredited j.rid rfl
  rw [AwaitsReply, hawaits, taken_rq htaken]
  exact (taken_awaits htaken).symm

end

/-- The entry of a chord that is accepted has had no pulse. -/
theorem wholeAccepted_unpulsed (s : State) (j : WriteJob) (u : WUnit) (c : Nat) :
    ∃ e : WEntry, (s.wholeAccepted j u c).hold = s.hold ++ [e] ∧ e.pulses = 0 := by
  have hcaptured : (((s.notePrior j.kit u.kaddr).redirty j.kit u.kaddr).capture j.kit u.kaddr).2.hold = s.hold :=
    (capture_sameWrites _ j.kit u.kaddr).hold
  refine ⟨_, (acceptedUnit_sameWrites _ j.rid j.kit u true).hold.trans (congrArg (· ++ [_]) hcaptured), rfl⟩

/-! ### The statement -/

/-- Settles O10: the write of one chord by `startWrite_one` and the acceptance of `acceptKit_holds`, the writes that store
nothing by the branches of `startWrite`. That POISONED counts the write's chords in its DETAIL is the model's reading
(log 27). -/
theorem writesAreHeldProvisionally : Obligations.WritesAreHeldProvisionally := by
  unfold Obligations.WritesAreHeldProvisionally
  refine ⟨?held, ?refused⟩
  case held =>
    intro s s1 rq j u p c htaken hsync hlen hkey hmask hjobs hown hpage hframe hzero hplace hmerges hshare hcost hfree good
    have hrq := taken_rq htaken
    subst hrq
    have hlen' : lenOf j.rq ≠ 0 := fun h => hlen (BitVec.eq_of_toNat_eq h)
    obtain ⟨credits, taken, cache, misses, hstart⟩ := startWrite_one hlen' hkey hmask hjobs hcost
    let t := s1.writeBegun j u credits taken cache misses
    have hone : t.jobs = [j.writeJob u credits s1.bar.beatno] := by simp [t, State.writeBegun, hjobs]
    have hfits : t.wholeFits (j.writeJob u credits s1.bar.beatno) u c = true := by
      rw [wholeFits_main (s := t) (j := j.writeJob u credits s1.bar.beatno) hpage hframe, Bool.and_eq_true]
      exact ⟨(writeBegun_shareFits j.kit (s1.chordCost c)).trans hshare, hfree⟩
    obtain ⟨e, he, hhold, hanswered, hstores⟩ := acceptKit_holds (s := t) hone rfl hmask hpage hframe hzero hplace hmerges
      hfits hsync rfl rfl hown (writeBegun_awaits htaken)
    obtain ⟨e', hhold', hpulses⟩ := wholeAccepted_unpulsed t (j.writeJob u credits s1.bar.beatno) u c
    have hsame : e = e' := by
      have hsettled := (settleJob_sameWrites j.rid (t.wholeAccepted (j.writeJob u credits s1.bar.beatno) u c)).hold
      have haccepts := acceptKit_accepts (s := t) hone rfl hmask hpage hframe hzero hplace hmerges hfits
      have hboth : t.hold ++ [e] = t.hold ++ [e'] :=
        hhold.symm.trans ((congrArg State.hold haccepts).trans (hsettled.trans hhold'))
      exact List.singleton_inj.1 (List.append_cancel_left hboth)
    have hgood {x : Instr} (hx : exec x s = .next (s1.startWrite j [u])) : good x :=
      ⟨_, e, hx.trans (congrArg _ hstart), hhold, he.kind, he.payer, he.data, he.kaddr, he.chord, he.accepted, he.phase,
        hsame ▸ hpulses, sameStores_trans (sameStores_of_eq rfl rfl rfl) hstores, hanswered.since rfl⟩
    exact ⟨fun hwf hunits => hgood ((runReq_taken _ htaken hwf).trans (by rw [hunits])),
      fun hwf hunits => hgood ((runReq_taken _ htaken hwf).trans (by rw [hunits]))⟩
  case refused =>
    intro s s1 rq j htaken us good
    have hrq := taken_rq htaken
    subst hrq
    have hexec {x : Instr} (hx : x = .write j.rq ∨ x = .writeMasked j.rq) (hwf : x.wf = true) :
        exec x s = .next (s1.startWrite j us) := by
      obtain rfl | rfl := hx
      · have hus : us = writeUnits j.rq := if_neg fun h => by simpa [h] using opc_of_is hwf
        rw [hus]
        exact runReq_taken _ htaken hwf
      · have hus : us = maskedUnits j.rq := if_pos (BitVec.eq_of_toNat_eq (opc_of_is (o := 0x12) hwf))
        rw [hus]
        exact runReq_taken _ htaken hwf
    have hgood {t : State} (a : Answer) (hstart : s1.startWrite j us = t.turnDown j.rid j.rq (some j.kit) a)
        (hpayload : a.payload = []) (hinflight : t.inflight = s1.inflight) (hreplies : t.replies = s1.replies)
        (hwrites : SameWrites s1 t) : good a.status a.detail := by
      obtain ⟨hreply, hrest⟩ := Job.turnDown_ends a htaken hinflight hreplies hwrites
      rw [hpayload] at hreply
      exact fun x hx hwf => ⟨_, (hexec hx hwf).trans (congrArg _ hstart), hreply, hrest⟩
    have hbytes (h : j.rq.len ≠ 0) : ¬ (lenOf j.rq == 0) = true := fun h0 => h (BitVec.eq_of_toNat_eq (beq_iff_eq.1 h0))
    refine ⟨fun hlen x hx hwf => ?_, fun hlen hkey => ?_, fun hlen hkey hnowait hfull => ?_⟩
    · have hstart : s1.startWrite j us = j.reply s1 0x00 0 := if_pos (by rw [lenOf, hlen]; rfl)
      exact ⟨_, (hexec hx hwf).trans (congrArg _ hstart), Job.reply_replied _ _ htaken rfl rfl,
        (j.reply_countsOnly _ _ _).stores, Machine.answer_hold .., Machine.answer_merge ..⟩
    · exact hgood (ans 0x40 (detAddr (chordBase (addrOf j.rq)) us.length))
        ((if_neg (hbytes hlen)).trans (if_pos hkey)) rfl rfl rfl (.refl s1)
    · refine hgood (ans 0x10 (s1.kitHeld j.kit + 65536 * (s1.kit j.kit).pshare))
        ((if_neg (hbytes hlen)).trans ((if_neg (Bool.eq_false_iff.1 hkey)).trans (if_pos ?_))) rfl ?_ ?_ ?_
      · rw [hnowait, hfull]
        rfl
      · simp
      · simp
      · exact (setKit_sameWrites (k := j.kit)
          (x := { s1.kit j.kit with backoff := up32 (s1.kit j.kit).backoff 1 }) rfl).trans (tally_sameWrites _ _ _ _)

end Sys2Proof.Machine

/-! PROOFS. Fields of byte lists (00 R3), and the block of RUD_QUERY (07 R185, Table 7.7). -/

namespace Sys2Proof.Machine

/-! ### Fields -/

theorem leNat_leBytes (n v : Nat) : leNat (leBytes n v) = v % 256 ^ n := by
  induction n generalizing v with
  | zero => simp [leBytes, leNat, Nat.mod_one]
  | succ n ih =>
    have hbyte : (BitVec.ofNat 8 v).toNat = v % 256 := BitVec.toNat_ofNat v 8
    rw [leBytes, leNat, ih, hbyte, Nat.pow_succ', Nat.mod_mul]

/-- A field that is the whole list. -/
theorem fieldAt_leBytes (n v : Nat) : fieldAt (leBytes n v) 0 n = v % 256 ^ n := by
  rw [fieldAt, List.drop_zero, List.take_of_length_le (length_leBytes n v).le, leNat_leBytes]

theorem fieldAt_append_left {x : List Byte} (y : List Byte) {k n : Nat} (h : k + n ≤ x.length) :
    fieldAt (x ++ y) k n = fieldAt x k n := by
  rw [fieldAt, fieldAt, List.drop_append_of_le_length (by omega), List.take_append_of_le_length (by simp; omega)]

theorem fieldAt_append_right {x : List Byte} (y : List Byte) {k n : Nat} (h : x.length ≤ k) :
    fieldAt (x ++ y) k n = fieldAt y (k - x.length) n := by
  rw [fieldAt, fieldAt, List.drop_append, List.drop_eq_nil_of_le h, List.nil_append]

/-- A field of a field. -/
theorem fieldAt_drop (x : List Byte) (k n : Nat) : fieldAt (x.drop k) 0 n = fieldAt x k n := by
  rw [fieldAt, fieldAt, List.drop_zero]

/-- Piece `i` of pieces of one length, one behind the other. -/
theorem flatten_piece {α : Type} {n : Nat} (l : List (List α)) (h : ∀ x ∈ l, x.length = n) {i : Nat} {x : List α}
    (hx : l[i]? = some x) : (l.flatten.drop (n * i)).take n = x := by
  induction l generalizing i with
  | nil => simp at hx
  | cons y l ih =>
    have hy : y.length = n := h y List.mem_cons_self
    cases i with
    | zero =>
      obtain rfl : y = x := by simpa using hx
      simp [← hy]
    | succ i =>
      have hskip : (y ++ l.flatten).drop (n * (i + 1)) = l.flatten.drop (n * i) := by
        rw [Nat.mul_succ, Nat.add_comm, ← List.drop_drop, ← hy, List.drop_left]
      rw [List.flatten_cons, hskip]
      exact ih (fun z hz => h z (List.mem_cons_of_mem y hz)) (by simpa using hx)

theorem flatten_length {α : Type} {n : Nat} (l : List (List α)) (h : ∀ x ∈ l, x.length = n) :
    l.flatten.length = n * l.length := by
  induction l with
  | nil => rfl
  | cons y l ih =>
    rw [List.flatten_cons, List.length_append, h y List.mem_cons_self, ih fun z hz => h z (List.mem_cons_of_mem y hz),
      List.length_cons, Nat.mul_succ, Nat.add_comm]

/-! ### The block of Table 7.7 -/

/-- The registers of an engine as bytes. -/
def EngSt.regBytes (g : EngSt) : List Byte := (g.g.toList.map fun w => leBytes 4 w.toNat).flatten
/-- The stall counters of an engine as bytes. -/
def EngSt.stallBytes (g : EngSt) : List Byte := (g.stall.toList.map fun n => leBytes 4 n).flatten

theorem regBytes_length (g : EngSt) : g.regBytes.length = 32 := by
  rw [EngSt.regBytes, flatten_length (n := 4) _ (by simp [length_leBytes])]
  simp

theorem stallBytes_length (g : EngSt) : g.stallBytes.length = 16 := by
  rw [EngSt.stallBytes, flatten_length (n := 4) _ (by simp [length_leBytes])]
  simp

theorem fieldAt_regBytes (g : EngSt) (i : GReg) : fieldAt g.regBytes (4 * i.val) 4 = (g.g[i]).toNat := by
  have hpiece : (g.g.toList.map fun w => leBytes 4 w.toNat)[i.val]? = some (leBytes 4 (g.g[i]).toNat) := by simp
  rw [fieldAt, EngSt.regBytes, flatten_piece _ (by simp [length_leBytes]) hpiece, leNat_leBytes]
  exact Nat.mod_eq_of_lt (g.g[i]).isLt

/-- The iterations left of an engine's loop. -/
def EngSt.loopCount (g : EngSt) : Nat := match g.loop with | some l => l.ctr | none => 0

/-- Bytes 0 to 7 of the block. -/
def EngSt.blockHead (g : EngSt) : List Byte := leBytes 1 g.state.code ++ (leBytes 1 g.kit.val ++ (leBytes 1 g.slot.val ++
  (leBytes 1 g.stack.length ++ (leBytes 2 g.pc ++ leBytes 2 g.loopCount))))
/-- Bytes 40 to 63 of the block. -/
def EngSt.blockTail (g : EngSt) : List Byte :=
  leBytes 6 (g.dl.getD 0) ++ (leBytes 1 (polCode g.pol) ++ (zeros 1 ++ g.stallBytes))

theorem block_eq (g : EngSt) : g.block = g.blockHead ++ (g.regBytes ++ g.blockTail) := by
  simp only [EngSt.block, EngSt.regBytes, EngSt.stallBytes, EngSt.blockHead, EngSt.blockTail, List.append_assoc]
  rfl

theorem blockHead_length (g : EngSt) : g.blockHead.length = 8 := by simp [EngSt.blockHead, length_leBytes]

theorem block_length (g : EngSt) : g.block.length = 64 := by
  simp [block_eq, blockHead_length, EngSt.blockTail, length_leBytes, regBytes_length, stallBytes_length, zeros]

theorem fieldAt_blockHead (g : EngSt) {k n : Nat} (h : k + n ≤ 8) : fieldAt g.block k n = fieldAt g.blockHead k n := by
  rw [block_eq, fieldAt_append_left _ (by rwa [blockHead_length])]

theorem stateCode_lt (e : EngState) : e.code < 256 := by cases e <;> decide

section
variable (g : EngSt)

theorem block_state : fieldAt g.block 0 1 = g.state.code := by
  simp [fieldAt_blockHead, EngSt.blockHead, fieldAt_append_left, length_leBytes, fieldAt_leBytes,
    Nat.mod_eq_of_lt (stateCode_lt g.state)]

theorem block_kit : fieldAt g.block 1 1 = g.kit.val := by
  rw [fieldAt_blockHead g (by decide)]
  simp [EngSt.blockHead, fieldAt_append_right, fieldAt_append_left, length_leBytes, fieldAt_leBytes]
  omega

theorem block_slot : fieldAt g.block 2 1 = g.slot.val := by
  rw [fieldAt_blockHead g (by decide)]
  simp [EngSt.blockHead, fieldAt_append_right, fieldAt_append_left, length_leBytes, fieldAt_leBytes]
  omega

theorem block_pc : fieldAt g.block 4 2 = g.pc % 65536 := by
  rw [fieldAt_blockHead g (by decide)]
  simp [EngSt.blockHead, fieldAt_append_right, fieldAt_append_left, length_leBytes, fieldAt_leBytes]

theorem block_reg (i : GReg) : fieldAt g.block (8 + 4 * i.val) 4 = (g.g[i]).toNat := by
  have hi : 8 + 4 * i.val - g.blockHead.length = 4 * i.val := by
    rw [blockHead_length]
    omega
  rw [block_eq, fieldAt_append_right _ (by rw [blockHead_length]; omega), hi,
    fieldAt_append_left _ (by rw [regBytes_length]; omega), fieldAt_regBytes]

theorem block_deadline : fieldAt g.block 40 6 = g.dl.getD 0 % 2 ^ 48 := by
  simp [block_eq, EngSt.blockTail, fieldAt_append_right, fieldAt_append_left, blockHead_length, length_leBytes,
    regBytes_length, fieldAt_leBytes]

end

end Sys2Proof.Machine

/-! PROOFS. RUD_LOAD, RUD_START, RUD_STOP and RUD_QUERY (07 R181 to R185; 12 R306, R307). -/

namespace Sys2Proof.Machine

/-! ### What work at a slot's array copy leaves -/

/-- From `s` to `t` chords of array copies were read or sent on their way: no request, engine, program in the store or stored
byte changes. -/
structure StageWork (s t : State) : Prop where
  stageJobs : t.stageJobs = s.stageJobs
  copies : t.copies = s.copies
  engs : t.engs = s.engs
  hold : t.hold = s.hold
  inflight : t.inflight = s.inflight
  replies : t.replies = s.replies
  stores : SameStores s t

theorem StageWork.refl (s : State) : StageWork s s := ⟨rfl, rfl, rfl, rfl, rfl, rfl, sameStores_of_eq rfl rfl rfl⟩

theorem StageWork.trans {s t u : State} (hst : StageWork s t) (htu : StageWork t u) : StageWork s u :=
  ⟨htu.stageJobs.trans hst.stageJobs, htu.copies.trans hst.copies, htu.engs.trans hst.engs, htu.hold.trans hst.hold,
    htu.inflight.trans hst.inflight, htu.replies.trans hst.replies, sameStores_trans hst.stores htu.stores⟩

theorem metaFails_stageWork (s : State) (c : Nat) : StageWork s (s.metaFails c) ∧ (s.metaFails c).chordq = s.chordq := by
  unfold State.metaFails
  split
  case h_5 => split <;> exact ⟨⟨rfl, rfl, rfl, rfl, rfl, rfl, sameStores_of_eq rfl rfl rfl⟩, rfl⟩
  all_goals exact ⟨⟨rfl, rfl, rfl, rfl, rfl, rfl, sameStores_of_eq rfl rfl rfl⟩, rfl⟩

theorem tally_stageWork (s : State) (typ : Nat) (kit : Option Kit) (arg : Nat) : StageWork s (s.tally typ kit arg) :=
  ⟨by simp, by simp, by simp, by simp, by simp, by simp, sameStores_of_eq (by simp) (by simp) (by simp)⟩

theorem readArray_stageWork (s : State) (src c : Nat) :
    StageWork s (s.readArray src c) ∧ (s.readArray src c).chordq = s.chordq := by
  unfold State.readArray
  extract_lets o counted fixed fresh marked t
  have ht : StageWork s t := ⟨rfl, rfl, rfl, rfl, rfl, rfl, sameStores_of_eq rfl rfl rfl⟩
  have htold : StageWork s (t.raise .ecc 0x01) := ⟨rfl, rfl, rfl, rfl, rfl, rfl, sameStores_of_eq rfl rfl rfl⟩
  split
  · obtain ⟨hwork, hqueue⟩ := metaFails_stageWork ((t.raise .ecc 0x01).tally 0x51 none (c + 2 ^ 32 * src)) c
    exact ⟨(htold.trans (tally_stageWork _ _ _ _)).trans hwork, by rw [hqueue, tally_chordq]; rfl⟩
  · split
    · obtain ⟨hwork, hqueue⟩ := metaFails_stageWork t c
      exact ⟨ht.trans hwork, hqueue⟩
    · exact ⟨ht, rfl⟩

/-- Where the chord is not poisoned, its slot stays staged. -/
theorem readArray_stages {s : State} (src : Nat) {c : Nat} (h : (s.decodeAt c).poisoned = false) :
    (s.readArray src c).stages = s.stages := by
  have hmarker := decodeAt_marker h
  unfold State.readArray
  simp only [h, hmarker, Bool.false_and]
  rfl

theorem stageComing_of_eq {s t : State} (hqueue : t.chordq = s.chordq) (hhold : t.hold = s.hold) (c : Nat) :
    t.stageComing c = s.stageComing c := by
  unfold State.stageComing
  rw [hqueue, hhold]

/-- A chord of an array copy is one on its way, one of the array, or zeros. -/
theorem stageRead_cases (s : State) (k : Kit) (slot : Fin 8) (i : Nat) :
    (∃ d, s.stageComing (stageChord k slot i) = some d ∧ s.stageRead k slot i = (some d, s)) ∨
      s.stageRead k slot i = ((s.decodeAt (stageChord k slot i)).value, s.readArray 1 (stageChord k slot i)) ∨
      s.stageRead k slot i = (some (zeros 64), s) := by
  unfold State.stageRead
  extract_lets c
  split
  · next d hd => exact .inl ⟨d, hd, rfl⟩
  · split
    · exact .inr (.inl rfl)
    · exact .inr (.inr rfl)

theorem stageRead_stageWork (s : State) (k : Kit) (slot : Fin 8) (i : Nat) :
    StageWork s (s.stageRead k slot i).2 ∧ (s.stageRead k slot i).2.chordq = s.chordq := by
  obtain ⟨d, -, h⟩ | h | h := stageRead_cases s k slot i <;> rw [h]
  · exact ⟨.refl s, rfl⟩
  · exact readArray_stageWork s 1 _
  · exact ⟨.refl s, rfl⟩

theorem unpoisoned_of_value {o : ChordOut} {d : List Byte} (h : o.value = some d) : o.poisoned = false ∧ o.data = d := by
  unfold ChordOut.value at h
  split at h
  · cases h
  · next hp => exact ⟨Bool.eq_false_iff.2 hp, Option.some.inj h⟩

theorem stageRead_stages {s : State} {k : Kit} {slot : Fin 8} {i : Nat} {d : List Byte}
    (hread : (s.stageRead k slot i).1 = some d) : (s.stageRead k slot i).2.stages = s.stages := by
  obtain ⟨d, -, h⟩ | h | h := stageRead_cases s k slot i
  · rw [h]
  · rw [h] at hread ⊢
    exact readArray_stages 1 (unpoisoned_of_value hread).1
  · rw [h]

theorem stageReads_stageWork (k : Kit) (slot : Fin 8) (n : Nat) (s : State) :
    StageWork s (s.stageReads k slot n).2 := by
  induction n with
  | zero => exact .refl s
  | succ n ih => exact ih.trans (stageRead_stageWork _ k slot n).1

theorem stageReads_stages {k : Kit} {slot : Fin 8} {n : Nat} {s : State} {bs : List Byte}
    (h : (s.stageReads k slot n).1 = some bs) : (s.stageReads k slot n).2.stages = s.stages := by
  induction n generalizing bs with
  | zero => rfl
  | succ n ih =>
    simp only [State.stageReads] at h ⊢
    split at h
    · next hfirst hlast => exact (stageRead_stages hlast).trans (ih hfirst)
    · cases h

/-! ### LOAD (R182, R306) -/

section
variable {s s1 t : State} {rq : Req} {j : Job}

/-- A RUD_LOAD that only replies after work at the array copies. -/
theorem stageWork_replied (status detail : Nat) (htaken : s.taken rq = some (j, s1)) (hwork : StageWork s1 t) :
    Replied s1 (j.reply t status detail) j.rid rq status detail [] ∧ (j.reply t status detail).copies = s1.copies ∧
      (j.reply t status detail).engs = s1.engs ∧ SameStores s1 (j.reply t status detail) :=
  ⟨Job.reply_replied _ _ htaken hwork.inflight hwork.replies, (answer_copies ..).trans hwork.copies,
    (answer_engs ..).trans hwork.engs, sameStores_trans hwork.stores (j.reply_countsOnly t status detail).stores⟩

theorem find?_first_bad {n i : Nat} {p : Nat → Bool} (hi : i < n) (hbad : p i = false) (hgood : ∀ k, k < i → p k = true) :
    ((List.range n).find? fun i => !p i) = some i := by
  rw [List.find?_range_eq_some]
  exact ⟨by simp [hbad], List.mem_range.2 hi, fun k hk => by simp [hgood k hk]⟩

theorem find?_none_bad {n : Nat} {p : Nat → Bool} (hgood : ∀ i, i < n → p i = true) :
    ((List.range n).find? fun i => !p i) = none := by
  simpa using hgood

/-- The store without a slot's program. -/
def State.withoutCopy (s : State) (k : Kit) (slot : Fin 8) : State :=
  { s with copies := s.copies.filter fun c => !(c.kit == k && c.slot == slot) }

theorem withoutCopy_storeRun {s t : State} (h : t.copies = s.copies) (k : Kit) (slot : Fin 8) (n : Nat) :
    (t.withoutCopy k slot).storeRun n = (s.withoutCopy k slot).storeRun n := by
  unfold State.storeRun State.storeUsed State.withoutCopy
  rw [h]

/-- A store with a slot's program at a unit. -/
def State.withCopy (s : State) (k : Kit) (slot : Fin 8) (u : Nat) (words : List Word) : State :=
  { s.withoutCopy k slot with copies := (s.withoutCopy k slot).copies ++ [⟨k, slot, u, words⟩] }

theorem withCopy_copyOf (s : State) (k : Kit) (slot : Fin 8) (u : Nat) (words : List Word) :
    (s.withCopy k slot u words).copyOf k slot = some ⟨k, slot, u, words⟩ := by
  have hnone : (s.withoutCopy k slot).copies.find? (fun c => c.kit == k && c.slot == slot) = none := by
    rw [List.find?_eq_none]
    intro c hc
    exact Bool.eq_false_iff.1 (Bool.not_eq_true' _ ▸ (List.mem_filter.1 hc).2)
  simp [State.copyOf, State.withCopy, List.find?_append, hnone]

/-- A RUD_LOAD that puts its program into the store after work at the array copies. -/
theorem withCopy_replied (slot : Fin 8) (u : Nat) (words : List Word) (htaken : s.taken rq = some (j, s1))
    (hwork : StageWork s1 t) (hstages : t.stages = s1.stages) :
    Replied s1 (j.reply (t.withCopy j.kit slot u words) 0x00 0) j.rid rq 0x00 0 [] ∧
      (j.reply (t.withCopy j.kit slot u words) 0x00 0).copyOf j.kit slot = some ⟨j.kit, slot, u, words⟩ ∧
      (j.reply (t.withCopy j.kit slot u words) 0x00 0).stages = s1.stages ∧
      (j.reply (t.withCopy j.kit slot u words) 0x00 0).engs = s1.engs ∧
      SameStores s1 (j.reply (t.withCopy j.kit slot u words) 0x00 0) := by
  have hstores : SameStores t (t.withCopy j.kit slot u words) := sameStores_of_eq rfl rfl rfl
  have hcopies : (j.reply (t.withCopy j.kit slot u words) 0x00 0).copies = (t.withCopy j.kit slot u words).copies :=
    answer_copies ..
  refine ⟨Job.reply_replied _ _ htaken hwork.inflight hwork.replies, ?_, (answer_stages ..).trans hstages,
    (answer_engs ..).trans hwork.engs, sameStores_trans hwork.stores
      (sameStores_trans hstores (j.reply_countsOnly _ 0x00 0).stores)⟩
  rw [State.copyOf, hcopies]
  exact withCopy_copyOf t j.kit slot u words

theorem rudStore_stores {slot : Fin 8} {words : List Word} {u : Nat}
    (hidle : ∀ e : Engine, (s.eng e).busy = true → (s.eng e).kit = j.kit → (s.eng e).slot ≠ slot)
    (hroom : (s.withoutCopy j.kit slot).storeRun (ceilDiv (4 * words.length) 256) = some u) :
    s.rudStore j slot words = j.reply (s.withCopy j.kit slot u words) 0x00 0 := by
  have hruns : (s.engs.toList.any fun g => g.busy && g.kit == j.kit && g.slot == slot) = false := by
    rw [List.any_eq_false]
    intro g hg
    obtain ⟨i, hi, rfl⟩ := List.mem_iff_getElem.1 hg
    have h := hidle ⟨i, by simpa using hi⟩
    simp only [State.eng] at h
    simp only [Bool.and_eq_true, beq_iff_eq, not_and, and_imp]
    simpa using h
  unfold State.rudStore
  extract_lets others runs
  have hfree : others.storeRun (ceilDiv (4 * words.length) 256) = some u := hroom
  rw [show runs = false from hruns, if_neg Bool.false_ne_true, hfree]
  rfl

end

section
variable {s : State} {j : Job} {bs : List Byte}

/-- A slot that counts as not staged. -/
def State.unstaged (s : State) (k : Kit) (slot : Fin 8) : State :=
  { s with stages := s.stages.filter fun c => !(c.kit == k && c.slot == slot) }

theorem unstaged_stageWork (s : State) (k : Kit) (slot : Fin 8) : StageWork s (s.unstaged k slot) :=
  ⟨rfl, rfl, rfl, rfl, rfl, rfl, sameStores_of_eq rfl rfl rfl⟩

theorem unstaged_stageOf (s : State) (k : Kit) (slot : Fin 8) : (s.unstaged k slot).stageOf k slot = none := by
  unfold State.stageOf State.unstaged
  rw [List.find?_eq_none]
  intro c hc
  exact Bool.eq_false_iff.1 (Bool.not_eq_true' _ ▸ (List.mem_filter.1 hc).2)

theorem rudLoad_unread (hstaged : s.isStaged j.kit (engIx (pb j.rq 9)) = true)
    (hread : (s.stageReads j.kit (engIx (pb j.rq 9)) (ceilDiv (pb j.rq 12 + 256 * pb j.rq 13) 16)).1 = none) :
    s.rudLoad j = j.reply ((s.stageReads j.kit (engIx (pb j.rq 9)) (ceilDiv (pb j.rq 12 + 256 * pb j.rq 13) 16)).2.unstaged
      j.kit (engIx (pb j.rq 9))) 0x31 9 := by
  unfold State.rudLoad
  simp only [hstaged, hread, Bool.not_true, Bool.false_eq_true, if_false]
  rfl

variable (hstaged : s.isStaged j.kit (engIx (pb j.rq 9)) = true)
  (hread : (s.stageReads j.kit (engIx (pb j.rq 9)) (ceilDiv (pb j.rq 12 + 256 * pb j.rq 13) 16)).1 = some bs)
include hstaged hread

theorem rudLoad_bad {i : Nat} (hbad : ((List.range (pb j.rq 12 + 256 * pb j.rq 13)).find? fun i =>
    !goodAt ((wordsOf (pb j.rq 12 + 256 * pb j.rq 13) bs).map Rud.decode) i) = some i) :
    s.rudLoad j =
      j.reply (s.stageReads j.kit (engIx (pb j.rq 9)) (ceilDiv (pb j.rq 12 + 256 * pb j.rq 13) 16)).2 0x31
        (detPay (4 * i)) := by
  unfold State.rudLoad
  simp only [hstaged, hread, hbad, Bool.not_true, Bool.false_eq_true, if_false]

theorem rudLoad_good (hgood : ((List.range (pb j.rq 12 + 256 * pb j.rq 13)).find? fun i =>
    !goodAt ((wordsOf (pb j.rq 12 + 256 * pb j.rq 13) bs).map Rud.decode) i) = none) :
    s.rudLoad j =
      (s.stageReads j.kit (engIx (pb j.rq 9)) (ceilDiv (pb j.rq 12 + 256 * pb j.rq 13) 16)).2.rudStore j
        (engIx (pb j.rq 9)) (wordsOf (pb j.rq 12 + 256 * pb j.rq 13) bs) := by
  unfold State.rudLoad
  simp only [hstaged, hread, hgood, Bool.not_true, Bool.false_eq_true, if_false]

end

/-! ### STAGE (R181) -/

/-- One chord of a STAGE. -/
def stageStep (k : Kit) (slot : Fin 8) (rid off n : Nat) (payload : List Byte) (i : Nat) (t : State) : State :=
  (t.stageRead k slot i).2.queueChord (.stage k slot) (some k) rid (stageChord k slot i)
    (stageOver ((t.stageRead k slot i).1.getD (zeros 64)) i off n payload)

/-- The chords of a slot's array copy are device chords. -/
theorem stageChord_lt {k : Kit} {slot : Fin 8} {i : Nat} (hi : i < 256) : stageChord k slot i < 2 ^ 28 := by
  have := k.isLt
  have := slot.isLt
  simp only [stageChord, Config.stageBase]
  omega

theorem stageChord_inj {k : Kit} {slot : Fin 8} {i i' : Nat} (h : stageChord k slot i = stageChord k slot i') : i = i' :=
  Nat.add_left_cancel h

theorem stageComing_queued (s : State) (k : Kit) (slot : Fin 8) (payer : Option Kit) (a : Nat) {c : Nat} (d : List Byte)
    (hc : c < 2 ^ 28) : (s.queueChord (.stage k slot) payer a c d).stageComing c = some d := by
  have hsame : (BitVec.ofNat 28 c).toNat = c := by rw [BitVec.toNat_ofNat, Nat.mod_eq_of_lt hc]
  simp only [State.stageComing, State.queueChord, List.filter_append, List.filter_cons, hsame, beq_self_eq_true,
    Bool.and_self, if_true, List.filter_nil, List.getLast?_append, List.getLast?_singleton, Option.some_or]

theorem stageComing_queued_other (s : State) (kind : WKind) (payer : Option Kit) (a : Nat) {c c' : Nat} (d : List Byte)
    (hc : c < 2 ^ 28) (hne : c ≠ c') : (s.queueChord kind payer a c d).stageComing c' = s.stageComing c' := by
  have hother : ((BitVec.ofNat 28 c).toNat == c') = false := by
    rw [BitVec.toNat_ofNat, Nat.mod_eq_of_lt hc, beq_eq_false_iff_ne]
    exact hne
  simp only [State.stageComing, State.queueChord, List.filter_append, List.filter_cons, hother, Bool.and_false,
    Bool.false_eq_true, if_false, List.filter_nil, List.append_nil]

/-- Chords of a slot that are on their way hold 64 bytes. -/
def StageWhole (s : State) (k : Kit) (slot : Fin 8) : Prop :=
  ∀ i d, s.stageComing (stageChord k slot i) = some d → d.length = 64

theorem decodeAt_length (s : State) (c : Nat) : (s.decodeAt c).data.length = 64 := by
  have hall : ∀ x ∈ (List.range 8).map fun k => ((List.range 8).map fun i =>
      decodeCw (s.outsAt c) ((s.seenChord c).map fun x => byteAt x i)).map fun c => BitVec.ofNat 8 (c.syms.getD k 0),
      x.length = 8 := by
    intro x hx
    obtain ⟨_, -, rfl⟩ := List.mem_map.1 hx
    simp
  exact (flatten_length _ hall).trans (by simp)

theorem stageRead_length {s : State} {k : Kit} {slot : Fin 8} {i : Nat} (hwhole : StageWhole s k slot) {d : List Byte}
    (hread : (s.stageRead k slot i).1 = some d) : d.length = 64 := by
  obtain ⟨d', hd, h⟩ | h | h := stageRead_cases s k slot i <;> rw [h] at hread
  · obtain rfl := Option.some.inj hread
    exact hwhole i d' hd
  · rw [← (unpoisoned_of_value hread).2]
    exact decodeAt_length s _
  · obtain rfl := Option.some.inj hread
    rfl

theorem stageRead_base_length {s : State} {k : Kit} {slot : Fin 8} (hwhole : StageWhole s k slot) (i : Nat) :
    ((s.stageRead k slot i).1.getD (zeros 64)).length = 64 := by
  cases h : (s.stageRead k slot i).1 with
  | none => rfl
  | some d => exact stageRead_length hwhole h

/-! #### The words of a staged chord -/

section
variable {base payload : List Byte} {i off n : Nat}

/-- Word `w` of a slot as a STAGE leaves it in chord `i`. -/
def stageWord (base : List Byte) (i off n : Nat) (payload : List Byte) (w : Nat) : List Byte :=
  if off ≤ 16 * i + w && 16 * i + w < off + n then (payload.drop (4 * (16 * i + w - off))).take 4
  else (base.drop (4 * w)).take 4

variable (hbase : base.length = 64) (hpayload : payload.length = 4 * n)
include hbase hpayload

theorem stageWord_length {w : Nat} (hw : w < 16) : (stageWord base i off n payload w).length = 4 := by
  unfold stageWord
  split
  · next h =>
    simp only [Bool.and_eq_true, decide_eq_true_eq] at h
    rw [List.length_take, List.length_drop]
    omega
  · rw [List.length_take, List.length_drop]
    omega

theorem stageOver_length : (stageOver base i off n payload).length = 64 := by
  have hall : ∀ x ∈ (List.range 16).map (stageWord base i off n payload), x.length = 4 := by
    intro x hx
    obtain ⟨w, hw, rfl⟩ := List.mem_map.1 hx
    exact stageWord_length hbase hpayload (List.mem_range.1 hw)
  exact (flatten_length _ hall).trans (by simp)

theorem fieldAt_stageOver {w : Nat} (hw : w < 16) :
    fieldAt (stageOver base i off n payload) (4 * w) 4 = leNat (stageWord base i off n payload w) := by
  have hall : ∀ x ∈ (List.range 16).map (stageWord base i off n payload), x.length = 4 := by
    intro x hx
    obtain ⟨w, hw, rfl⟩ := List.mem_map.1 hx
    exact stageWord_length hbase hpayload (List.mem_range.1 hw)
  have hpiece : ((List.range 16).map (stageWord base i off n payload))[w]? = some (stageWord base i off n payload w) := by
    simp [hw]
  exact congrArg leNat (flatten_piece _ hall hpiece)

/-- The payload's words. -/
theorem fieldAt_stageOver_in {w : Nat} (hw : w < 16) (hin : off ≤ 16 * i + w) (hend : 16 * i + w < off + n) :
    fieldAt (stageOver base i off n payload) (4 * w) 4 = fieldAt payload (4 * (16 * i + w - off)) 4 := by
  rw [fieldAt_stageOver hbase hpayload hw, stageWord, if_pos (by simp [hin, hend]), fieldAt]

/-- The words that the copy had. -/
theorem fieldAt_stageOver_out {w : Nat} (hw : w < 16) (hout : 16 * i + w < off ∨ off + n ≤ 16 * i + w) :
    fieldAt (stageOver base i off n payload) (4 * w) 4 = fieldAt base (4 * w) 4 := by
  have hnot : ¬ (off ≤ 16 * i + w && 16 * i + w < off + n) = true := by
    rw [Bool.and_eq_true, decide_eq_true_eq, decide_eq_true_eq]
    omega
  rw [fieldAt_stageOver hbase hpayload hw, stageWord, if_neg hnot, fieldAt]

end

/-! #### The chords of a STAGE -/

section
variable {k : Kit} {slot : Fin 8} {rid off n : Nat} {payload : List Byte}

theorem stageStep_stageWork (i : Nat) (s : State) : StageWork s (stageStep k slot rid off n payload i s) :=
  (stageRead_stageWork s k slot i).1.trans ⟨rfl, rfl, rfl, rfl, rfl, rfl, sameStores_of_eq rfl rfl rfl⟩

theorem stageStep_same {i : Nat} (s : State) (hi : i < 256) :
    (stageStep k slot rid off n payload i s).stageComing (stageChord k slot i) =
      some (stageOver ((s.stageRead k slot i).1.getD (zeros 64)) i off n payload) :=
  stageComing_queued _ k slot _ _ _ (stageChord_lt hi)

theorem stageStep_other {i i' : Nat} (s : State) (hi : i < 256) (hne : i ≠ i') :
    (stageStep k slot rid off n payload i s).stageComing (stageChord k slot i') =
      s.stageComing (stageChord k slot i') := by
  obtain ⟨hwork, hqueue⟩ := stageRead_stageWork s k slot i
  exact (stageComing_queued_other _ _ _ _ _ (stageChord_lt hi) fun h => hne (stageChord_inj h)).trans
    (stageComing_of_eq hqueue hwork.hold _)

theorem stageSteps_other {l : List Nat} {i' : Nat} (s : State) (hl : ∀ i ∈ l, i < 256) (hnot : i' ∉ l) :
    (forEach (stageStep k slot rid off n payload) l s).stageComing (stageChord k slot i') =
      s.stageComing (stageChord k slot i') := by
  induction l generalizing s with
  | nil => rfl
  | cons i l ih =>
    rw [List.mem_cons, not_or] at hnot
    exact (ih _ (fun x hx => hl x (List.mem_cons_of_mem i hx)) hnot.2).trans
      (stageStep_other s (hl i List.mem_cons_self) (Ne.symm hnot.1))

/-- The first chord of a STAGE is on its way with the payload's words over the copy's. -/
theorem stageSteps_first {l : List Nat} {i : Nat} (s : State) (hl : ∀ x ∈ i :: l, x < 256) (hnodup : (i :: l).Nodup) :
    (forEach (stageStep k slot rid off n payload) (i :: l) s).stageComing (stageChord k slot i) =
      some (stageOver ((s.stageRead k slot i).1.getD (zeros 64)) i off n payload) :=
  (stageSteps_other _ (fun x hx => hl x (List.mem_cons_of_mem i hx)) (List.nodup_cons.1 hnodup).1).trans
    (stageStep_same s (hl i List.mem_cons_self))

theorem stageSteps_stageWork (l : List Nat) (s : State) :
    StageWork s (forEach (stageStep k slot rid off n payload) l s) :=
  forEach_forall .refl (fun _ _ _ => .trans) stageStep_stageWork l s

variable (hpayload : payload.length = 4 * n)
include hpayload

theorem stageStep_whole {i : Nat} {s : State} (hi : i < 256) (hwhole : StageWhole s k slot) :
    StageWhole (stageStep k slot rid off n payload i s) k slot := by
  intro i' d hd
  by_cases h : i = i'
  · subst h
    rw [stageStep_same s hi] at hd
    obtain rfl := Option.some.inj hd
    exact stageOver_length (stageRead_base_length hwhole i) hpayload
  · rw [stageStep_other s hi h] at hd
    exact hwhole i' d hd

/-- Each chord of a STAGE is on its way with the payload's words over 64 bytes. -/
theorem stageSteps_coming {l : List Nat} {i' : Nat} {s : State} (hl : ∀ i ∈ l, i < 256) (hnodup : l.Nodup)
    (hin : i' ∈ l) (hwhole : StageWhole s k slot) : ∃ base, base.length = 64 ∧
      (forEach (stageStep k slot rid off n payload) l s).stageComing (stageChord k slot i') =
        some (stageOver base i' off n payload) := by
  induction l generalizing s with
  | nil => cases hin
  | cons i l ih =>
    have hi : i < 256 := hl i List.mem_cons_self
    have hl' : ∀ x ∈ l, x < 256 := fun x hx => hl x (List.mem_cons_of_mem i hx)
    rw [List.nodup_cons] at hnodup
    obtain rfl | hin := List.mem_cons.1 hin
    · exact ⟨_, stageRead_base_length hwhole i',
        (stageSteps_other _ hl' hnodup.1).trans (stageStep_same s hi)⟩
    · exact ih hl' hnodup.2 hin (stageStep_whole hpayload hi hwhole)

end

/-! ### What the checks of RUD_LOAD leave (R181, Table 7.6) -/

theorem rudLoad_params {s : State} {rq : Req} (his : rq.is 0x20 = true) (hpass : Passes s rq) : rudLoadBad rq = none := by
  have hparams := hpass.params
  unfold State.paramBad at hparams
  rwa [opc_of_is his] at hparams

/-- A STAGE that passed its checks lies in the slot and has whole words. -/
theorem stage_passes {s : State} {rq : Req} (hwf : (Instr.rudLoadStage rq).wf = true) (hpass : Passes s rq) :
    pb rq 10 + 256 * pb rq 11 + lenOf rq / 4 ≤ 4096 ∧ 1 ≤ lenOf rq / 4 ∧ rq.payload.length = 4 * (lenOf rq / 4) := by
  have hwf' : (rq.is 0x20 && pb rq 8 != 1) = true := hwf
  rw [Bool.and_eq_true, bne_iff_ne] at hwf'
  obtain ⟨his, hsel⟩ := hwf'
  have hparams := rudLoad_params his hpass
  have hrule := hpass.lenRule
  rw [opc_of_is his] at hrule
  unfold rudLoadBad at hparams
  extract_lets off len at hparams
  split at hparams
  · next hop =>
    have hfits : off + lenOf rq / 4 ≤ 4096 := by
      simp only [firstBad, Option.map_eq_none_iff, List.find?_eq_none, List.mem_cons, forall_eq_or_imp] at hparams
      simpa using hparams.2.1
    have hwords : 4 ≤ lenOf rq ∧ lenOf rq ≤ 4096 ∧ lenOf rq % 4 = 0 := by
      simpa [lenRule, selOf, opc_of_is his, hop, and_assoc] using hrule
    have hlength : rq.payload.length = lenOf rq := by
      rw [payload_length_of_is his, payloadLen, if_neg]
      simp [readsLen, hwords.2.1]
    exact ⟨hfits, by omega, by omega⟩
  · next hop => exact absurd hop hsel
  · cases hparams

/-! ### The chords that a STAGE touches -/

/-- The chords of a slot that `n` words from `off` on touch. -/
def stageChords (off n : Nat) : List Nat := (List.range ((off + n - 1) / 16 - off / 16 + 1)).map fun i => off / 16 + i

theorem mem_stageChords {off n i : Nat} : i ∈ stageChords off n ↔ off / 16 ≤ i ∧ i ≤ off / 16 + ((off + n - 1) / 16 - off / 16) := by
  simp only [stageChords, List.mem_map, List.mem_range]
  constructor
  · rintro ⟨x, hx, rfl⟩
    omega
  · rintro ⟨hlo, hhi⟩
    exact ⟨i - off / 16, by omega, by omega⟩

theorem stageChords_nodup (off n : Nat) : (stageChords off n).Nodup :=
  List.nodup_range.map fun _ _ => Nat.add_left_cancel

theorem stageChords_first (off n : Nat) : ∃ l, stageChords off n = off / 16 :: l := by
  unfold stageChords
  rw [List.range_succ_eq_map]
  exact ⟨_, rfl⟩

theorem stageChords_lt {off n : Nat} (h : off + n ≤ 4096) (hsome : 1 ≤ n) : ∀ i ∈ stageChords off n, i < 256 := by
  intro i hi
  rw [mem_stageChords] at hi
  omega

/-- A chord of a slot's array copy. -/
def State.stageData (s : State) (k : Kit) (slot : Fin 8) (i : Nat) : Option (List Byte) :=
  match s.stageComing (stageChord k slot i) with
  | some d => some d
  | none => if s.stageHas k slot i then (s.decodeAt (stageChord k slot i)).value else some (zeros 64)

theorem stageRead_fst (s : State) (k : Kit) (slot : Fin 8) (i : Nat) :
    (s.stageRead k slot i).1 = s.stageData k slot i := by
  unfold State.stageRead State.stageData
  dsimp only
  cases s.stageComing (stageChord k slot i) with
  | some d => rfl
  | none => exact apply_ite Prod.fst _ _ _

theorem stageRead_jobs (s : State) (l : List StageJob) (k : Kit) (slot : Fin 8) (i : Nat) :
    (({ s with stageJobs := l } : State).stageRead k slot i).1 = (s.stageRead k slot i).1 := by
  rw [stageRead_fst, stageRead_fst]
  rfl

/-! ### The statement -/

theorem stageWhole_of_eq {s t : State} {k : Kit} {slot : Fin 8} (hqueue : t.chordq = s.chordq) (hhold : t.hold = s.hold)
    (h : StageWhole s k slot) : StageWhole t k slot := fun i d hd =>
  h i d ((stageComing_of_eq hqueue hhold _).symm.trans hd)

/-- An engine that RUD_START may take. -/
def State.engFree (s : State) (j : Job) (e : Engine) : Bool :=
  (pb j.rq 9 == 15 || pb j.rq 9 == e.val) && (!(s.eng e).busy && s.engUsable j.kit e)

theorem engFree_iff {s : State} {j : Job} {e : Engine} : s.engFree j e = true ↔
    (pb j.rq 9 = 15 ∨ pb j.rq 9 = e.val) ∧ (s.eng e).busy = false ∧ s.engUsable j.kit e = true := by
  simp [State.engFree]

/-- The lowest engine with a property is found. -/
theorem find_lowest {p : Engine → Bool} {e : Engine} (he : p e = true) (hlow : ∀ o, o < e → p o = false) :
    allEngines.find? p = some e := by
  rw [List.find?_eq_some_iff_getElem]
  refine ⟨he, e.val, by simp [allEngines], by simp [allEngines], fun i hi => ?_⟩
  simpa [allEngines] using hlow ⟨i, by omega⟩ hi

/-- An engine that starts a slot. -/
def Job.startedEng (j : Job) (first : Nat) : EngSt :=
  { EngSt.reset with
    state := .running, kit := j.kit, slot := engIx (pb j.rq 8), next := first,
    g := EngSt.reset.g.set 0 (BitVec.ofNat 32 (prm j.rq / 2 ^ 32)) }

theorem rudStart_starts {s : State} {j : Job} {c : RudCopy} {e : Engine} (hcopy : s.copyOf j.kit (engIx (pb j.rq 8)) = some c)
    (hfind : allEngines.find? (s.engFree j) = some e) : s.rudStart j =
      j.reply (s.setEng e (j.startedEng ((j.admBeat + 1 + (pb j.rq 10 + 256 * pb j.rq 11)) % Config.beatWrap))) 0x00
        (e.val + 256 * ((j.admBeat + 1 + (pb j.rq 10 + 256 * pb j.rq 11)) % Config.beatWrap % 2 ^ 40)) := by
  unfold State.rudStart
  extract_lets slot want ok
  have hfind' : allEngines.find? (fun e => (want == 15 || want == e.val) && ok e) = some e := hfind
  rw [hcopy, hfind']
  rfl

theorem rudStart_busy {s : State} {j : Job} {c : RudCopy} (hcopy : s.copyOf j.kit (engIx (pb j.rq 8)) = some c)
    (hfind : allEngines.find? (s.engFree j) = none) : s.rudStart j = j.reply s 0x11 1 := by
  unfold State.rudStart
  extract_lets slot want ok
  have hfind' : allEngines.find? (fun e => (want == 15 || want == e.val) && ok e) = none := hfind
  rw [hcopy, hfind']

theorem rudStart_unloaded {s : State} {j : Job} (hcopy : s.copyOf j.kit (engIx (pb j.rq 8)) = none) :
    s.rudStart j = j.reply s 0x31 8 := by
  unfold State.rudStart
  extract_lets slot want ok
  rw [hcopy]
  rfl

theorem answer_eng (s : State) (n : Nat) (rq : Req) (k : Option Kit) (a : Answer) (e : Engine) :
    (s.answer n rq k a).eng e = s.eng e := by
  rw [State.eng, State.eng, answer_engs]

/-- Settles O16: a STAGE by `stageSteps_coming`, a LOAD by the branches of `rudLoad` and `rudStore_stores`, RUD_START by the
first engine that is free, RUD_QUERY by the fields of the block. -/
theorem rudimentRequests : Obligations.RudimentRequests := by
  unfold Obligations.RudimentRequests
  refine ⟨?load, ?start, ?engines⟩
  case load =>
    intro s s1 rq j htaken slot off n size
    have hrq := taken_rq htaken
    subst hrq
    have hexec {t : State} (hwf : (Instr.rudLoadLoad j.rq).wf = true) (h : s1.rudLoad j = t) :
        exec (.rudLoadLoad j.rq) s = .next t := (runReq_taken _ htaken hwf).trans (congrArg _ h)
    refine ⟨fun hwf hwhole => ?stage, fun hwf hstaged => ?never, fun hwf hstaged hread => ?unread,
      fun bs hwf hstaged hread => ⟨fun i hi hbad hfirst => ?badWord, fun u hgood hidle hroom => ?good⟩⟩
    case stage =>
      obtain ⟨hfits, hsome, hpayload⟩ : off + n ≤ 4096 ∧ 1 ≤ n ∧ j.rq.payload.length = 4 * n :=
        stage_passes hwf (taken_passes htaken)
      have hlt : ∀ i ∈ stageChords off n, i < 256 := stageChords_lt hfits hsome
      let begun : State := { s1 with stageJobs := s1.stageJobs ++ [⟨j.rid, j.rq, j.kit, (stageChords off n).length, 0, none⟩] }
      have hwhole' : StageWhole begun j.kit slot := stageWhole_of_eq rfl rfl hwhole
      have hwork := stageSteps_stageWork (k := j.kit) (slot := slot) (rid := j.rid) (off := off) (n := n)
        (payload := j.rq.payload) (stageChords off n) begun
      refine ⟨_, runReq_taken _ htaken hwf, fun i hi => ?_, fun w b hb hw hout => ?_, hwork.stageJobs.trans ?_, hwork.copies,
        hwork.replies, hwork.engs, hwork.stores⟩
      · obtain ⟨base, hbase, hcoming⟩ := stageSteps_coming (rid := j.rid) (off := off) hpayload hlt
          (stageChords_nodup off n) (i' := (off + i) / 16) (mem_stageChords.2 (by omega)) hwhole'
        have hword : 16 * ((off + i) / 16) + (off + i) % 16 = off + i := Nat.div_add_mod _ _
        refine ⟨_, hcoming, ?_⟩
        rw [fieldAt_stageOver_in hbase hpayload (Nat.mod_lt _ (by decide)) (by omega) (by omega), hword,
          Nat.add_sub_cancel_left]
      · obtain ⟨l, hl⟩ := stageChords_first off n
        have hcoming := stageSteps_first (k := j.kit) (slot := slot) (rid := j.rid) (off := off) (n := n)
          (payload := j.rq.payload) (l := l) begun (hl ▸ hlt) (hl ▸ stageChords_nodup off n)
        have hbase : b.length = 64 := stageRead_length hwhole hb
        rw [stageRead_jobs, hb, Option.getD_some, ← hl] at hcoming
        refine ⟨_, hcoming, ?_⟩
        rw [fieldAt_stageOver_out hbase hpayload (Nat.mod_lt _ (by decide)) (by omega), fieldAt_drop]
      · simp [begun, stageChords]
    case never =>
      obtain ⟨hreply, hcopies, -, hstores⟩ := stageWork_replied 0x31 9 htaken (.refl s1)
      exact ⟨_, hexec hwf (if_pos (by rw [hstaged]; rfl)), hreply, hcopies, hstores⟩
    case unread =>
      have hwork := (stageReads_stageWork j.kit slot (ceilDiv size 16) s1).trans (unstaged_stageWork _ j.kit slot)
      obtain ⟨hreply, hcopies, -, hstores⟩ := stageWork_replied 0x31 9 htaken hwork
      refine ⟨_, hexec hwf (rudLoad_unread hstaged hread), hreply, hcopies, ?_, hstores⟩
      exact (congrArg (List.find? _) (answer_stages ..)).trans (unstaged_stageOf _ j.kit slot)
    case badWord =>
      have hwork := stageReads_stageWork j.kit slot (ceilDiv size 16) s1
      obtain ⟨hreply, hcopies, -, hstores⟩ := stageWork_replied 0x31 (detPay (4 * i)) htaken hwork
      exact ⟨_, hexec hwf (rudLoad_bad hstaged hread (find?_first_bad hi hbad hfirst)), hreply, hcopies, hstores⟩
    case good =>
      have hwork := stageReads_stageWork j.kit slot (ceilDiv size 16) s1
      have hstages := stageReads_stages hread
      have hsize : (wordsOf size bs).length = size := by simp [wordsOf]
      have hidle' : ∀ e : Engine, ((s1.stageReads j.kit slot (ceilDiv size 16)).2.eng e).busy = true →
          ((s1.stageReads j.kit slot (ceilDiv size 16)).2.eng e).kit = j.kit →
          ((s1.stageReads j.kit slot (ceilDiv size 16)).2.eng e).slot ≠ slot := by
        simpa only [State.eng, hwork.engs] using hidle
      have hstore := rudStore_stores (words := wordsOf size bs) (u := u) hidle' (by
        rw [hsize]
        exact (withoutCopy_storeRun hwork.copies j.kit slot _).trans hroom)
      obtain ⟨hreply, hcopy, hkept, hengs, hstores⟩ := withCopy_replied slot u (wordsOf size bs) htaken hwork hstages
      exact ⟨_, _, hexec hwf ((rudLoad_good hstaged hread (find?_none_bad hgood)).trans hstore), hreply, hcopy, rfl, rfl,
        hkept, hengs, hstores⟩
  case start =>
    intro s s1 rq j htaken hwf slot free
    have hrq := taken_rq htaken
    subst hrq
    have hexec {t : State} (h : s1.rudStart j = t) : exec (.rudStart j.rq) s = .next t :=
      (runReq_taken _ htaken hwf).trans (congrArg _ h)
    refine ⟨fun hcopy => ?_, fun c e hcopy hfree hlow => ?_, fun c hcopy hnone => ?_⟩
    · obtain ⟨hreply, -, hengs, hstores⟩ := stageWork_replied 0x31 8 htaken (.refl s1)
      exact ⟨_, hexec (rudStart_unloaded hcopy), hreply, hengs, hstores⟩
    · have hfind : allEngines.find? (s1.engFree j) = some e := find_lowest (engFree_iff.2 hfree) fun o ho =>
        Bool.eq_false_iff.2 fun h => hlow o ho (engFree_iff.1 h)
      let first := (j.admBeat + 1 + (pb j.rq 10 + 256 * pb j.rq 11)) % Config.beatWrap
      have heng : (j.reply (s1.setEng e (j.startedEng first)) 0x00 (e.val + 256 * (first % 2 ^ 40))).eng e = j.startedEng first :=
        (answer_eng ..).trans (eng_setEng s1 e _)
      refine ⟨_, hexec (rudStart_starts hcopy hfind), Job.reply_replied _ _ htaken rfl rfl, ?_⟩
      rw [heng]
      refine ⟨rfl, rfl, rfl, rfl, rfl, ?_, fun i hi => ?_, rfl, rfl, rfl, rfl, fun o ho =>
        (answer_eng ..).trans (eng_setEng_of_ne s1 e o _ ho.symm),
        sameStores_trans (sameStores_of_eq rfl rfl rfl) (j.reply_countsOnly _ _ _).stores⟩
      · simp [Job.startedEng, prm]
      · have hi' : (0 : Nat) ≠ i.val := fun h => hi (Fin.ext h.symm)
        simp [Job.startedEng, EngSt.reset, hi']
    · have hfind : allEngines.find? (s1.engFree j) = none :=
        List.find?_eq_none.2 fun o _ h => hnone o (engFree_iff.1 h)
      obtain ⟨hreply, -, hengs, hstores⟩ := stageWork_replied 0x11 1 htaken (.refl s1)
      exact ⟨_, hexec (rudStart_busy hcopy hfind), hreply, hengs, hstores⟩
  case engines =>
    intro s s1 rq j htaken e g
    have hrq := taken_rq htaken
    subst hrq
    refine ⟨fun hwf => ?stop, fun hwf => ?query⟩
    case stop =>
      let g1 := if g.busy then { g with stopping := true, fifo := [], streams := [] } else g
      have heng : (s1.rudStop j).eng e = g1 := (answer_eng ..).trans (eng_setEng s1 e _)
      refine ⟨s1.rudStop j, runReq_taken _ htaken hwf, Job.reply_replied _ _ htaken rfl rfl, fun hbusy => ?_, fun hidle => ?_,
        fun o ho => (answer_eng ..).trans (eng_setEng_of_ne s1 e o _ ho.symm), answer_copies ..,
        sameStores_trans (sameStores_of_eq rfl rfl rfl) (j.reply_countsOnly _ _ _).stores⟩
      · rw [heng, show g1 = { g with stopping := true, fifo := [], streams := [] } from if_pos hbusy]
        exact ⟨rfl, rfl, rfl, rfl, rfl⟩
      · exact heng.trans (if_neg (Bool.eq_false_iff.1 hidle))
    case query =>
      exact ⟨_, g.block, runReq_taken _ htaken hwf, Job.answer_replied _ htaken rfl rfl, block_length g, block_state g,
        block_kit g, block_slot g, block_pc g, block_reg g, fun d hd => by rw [block_deadline, hd]; rfl, answer_engs ..,
        (j.answer_countsOnly _ _).stores⟩

end Sys2Proof.Machine

/-! PROOFS. The end of Free-wheel with a write half taken (02 R54; 09 R233; 11 R298). -/

namespace Sys2Proof.Machine

/-! ### The pulses of an entry that is brought to its outcome -/

/-- From `s` to `t` an entry was pulsed: what is stored, the repair state, the pins and the count of free bytes stay. -/
structure PulseWork (s t : State) : Prop where
  mram : t.mram = s.mram
  rep : t.rep = s.rep
  pins : t.pins = s.pins
  free : t.free = s.free

theorem PulseWork.refl (s : State) : PulseWork s s := ⟨rfl, rfl, rfl, rfl⟩

theorem PulseWork.trans {s t u : State} (hst : PulseWork s t) (htu : PulseWork t u) : PulseWork s u :=
  ⟨htu.mram.trans hst.mram, htu.rep.trans hst.rep, htu.pins.trans hst.pins, htu.free.trans hst.free⟩

theorem chargeEntry_pulseWork (s : State) (e : WEntry) (n : Nat) : PulseWork s (s.chargeEntry e n) := by
  unfold State.chargeEntry
  split <;> exact ⟨rfl, rfl, rfl, rfl⟩

theorem pulse_pulseWork (s : State) (ent : Nat) : PulseWork s (s.pulse ent) := by
  unfold State.pulse
  split <;> exact ⟨rfl, rfl, rfl, rfl⟩

theorem firstPulse_pulseWork (s : State) (e : WEntry) : PulseWork s (s.firstPulse e) := by
  unfold State.firstPulse
  split
  · exact (pulse_pulseWork s e.ent).trans (chargeEntry_pulseWork _ e _)
  · exact .refl s

theorem morePulses_pulseWork (s : State) (e : WEntry) (m : Slices) (n : Nat) : PulseWork s (s.morePulses e m n) := by
  have hcharged := chargeEntry_pulseWork (s.wearSlices e.chord.toNat m n 0) e (n * sliceCount m)
  exact ⟨hcharged.mram, hcharged.rep, hcharged.pins, hcharged.free⟩

theorem concluded_move_mram {e : WEntry} {k : Kit} {kp : KPage} (s : State) (good weak : Bool) (f : Slices)
    (hkind : e.kind = .move k kp) : (s.concluded e good weak f).mram = s.mram := by
  unfold State.concluded
  simp only [hkind]
  split
  · rfl
  · unfold State.queueMarker
    split <;> rfl

/-- A chord of a move stores its slices at its outcome. -/
theorem outcome_move_mram {e : WEntry} {k : Kit} {kp : KPage} (s : State) (f : Slices) (hkind : e.kind = .move k kp) :
    (s.outcome e f).mram = (s.storeEntry e f).mram := by
  unfold State.outcome
  extract_lets c ok weak good t marks ecc t1
  exact concluded_move_mram t1 good weak f hkind

/-- One held chord at the end of Free-wheel. -/
theorem finishHolds_one {s : State} {e : WEntry} (comp : CompOut) (hhold : s.hold = [e]) (hmerges : s.merges = [])
    (hchordq : s.chordq = []) (hphase : e.phase = .waiting) (hpulses : e.pulses = 0) : s.finishHolds comp =
      ((s.firstPulse e).morePulses e (s.endMask e (comp.getD 0 0)) 6).outcome e (s.endMask e (comp.getD 0 0)) := by
  have htable : s.tableFirst = s := by
    rw [State.tableFirst, hchordq]
    exact (congrArg (fun l => { s with chordq := l }) hchordq).symm
  rw [State.finishHolds, closeAll_of_empty hmerges, htable, hhold]
  simp [hphase, hpulses, forEach]

/-! ### Entry to Rest stores nothing (17 R415) -/

theorem intoRest_stores (s : State) (cause trig : Nat) : SameStores s (s.intoRest cause trig) := by
  have hstop : SameStores s (if s.closing.isSome then s.stopAll else s) := by
    split <;> exact sameStores_of_eq rfl rfl rfl
  unfold State.intoRest
  extract_lets s0 s1 s2 on
  have htold : SameStores s0 s1 := sameStores_of_eq (tally_mram ..) (congrArg Deep.nand (tally_deep ..))
    (congrArg Bel.mem (tally_bel ..))
  have hentered : SameStores s1 s2 := sameStores_of_eq (enter_mram ..) (congrArg Deep.nand (enter_deep ..))
    (congrArg Bel.mem (enter_bel ..))
  exact sameStores_trans (sameStores_trans hstop htold) (sameStores_trans hentered (sameStores_of_eq rfl rfl rfl))

theorem closeBoth_stores (s : State) : SameStores s s.closeBoth := by
  obtain ⟨-, -, -, hA⟩ := closeRing_leaves s .a true
  obtain ⟨-, -, -, hB⟩ := closeRing_leaves (s.closeRing .a true) .b true
  exact sameStores_trans hA hB

theorem withClosing_closeBoth_stores (s : State) (c : Option CloseJob) :
    SameStores s ({ s with closing := c } : State).closeBoth := by
  have hclosing : SameStores s { s with closing := c } := sameStores_of_eq rfl rfl rfl
  exact sameStores_trans hclosing (closeBoth_stores _)

theorem fwCloses_stores (s : State) (comp : CompOut) : SameStores (s.discard.finishHolds comp) (s.fwCloses comp) :=
  withClosing_closeBoth_stores (s.discard.finishHolds comp) _

/-- An expiry of Free-wheel that closes the switches stores what bringing the held writes to their outcome stores. -/
theorem fwExpires_stores {s : State} (comp : CompOut) (hmode : s.mode = .freewheel) (hbeat : s.bar.beatno % 1024 = 1023)
    (hbars : 256 ≤ s.bar.fwBars) (hcompleting : s.completing = false) (hclose : s.bar.fwclose = true) :
    SameStores ((s.raise .bar 0x02).discard.finishHolds comp) (s.fwExpires comp) := by
  have hexpires : (s.mode == .freewheel && s.beatIx == 1023 && Config.fwLimit ≤ s.bar.fwBars && !s.completing) = true := by
    simp [hmode, State.beatIx, hbeat, Config.fwLimit, hbars, hcompleting]
  unfold State.fwExpires
  rw [if_pos hexpires]
  extract_lets s1 s2 s3
  have hcloses : s2 = s1.fwCloses comp := if_pos hclose
  have hfw : SameStores (s1.discard.finishHolds comp) s2 := by
    rw [hcloses]
    exact fwCloses_stores s1 comp
  exact sameStores_trans hfw (sameStores_trans (intoRest_stores s2 2 0x15) (sameStores_of_eq rfl rfl rfl))

/-! ### The state of the counterexample -/

/-- A WRITE of one chord of Kit 0 whose intake goes on: it has filled its zero sector but for this chord (R233). -/
def halfWrite : WriteJob :=
  { rid := 0, rq := ⟨0x11, 0, false, false, false, false, 1, false, 0, 2, 0, 64, 0, zeros 64, .ring .a, 1⟩, kit := 0,
    todo := [⟨0, zeros 64, BitVec.allOnes 64⟩], credits := 0, open_ := 0, lastAccept := 0, lastOutcome := 0,
    recanted := 0, firstRecant := none, recantBeat := 0, cutAt := none, zeroed := [0], replied := false, plain := false,
    falling := true }

/-- The last Beat of Free-wheel, FWCLOSE set, with that write and no entry held; one byte of its chord reads `x`. -/
def halfWritten (x : Byte) : State :=
  { State.reset with
    mode := .freewheel, bar := { Bar.reset with beatno := 1023, fwBars := 256, fwclose := true }, jobs := [halfWrite],
    pages := [{ newPage 0 0 (.main 0) 0 with zero := 0 }], mram := cellSet [] (sliceAddr 9 0) x }

/-- The fill of the chord that the write will not bring (R233, log 126). -/
def fillEntry : WEntry := mkEntry (.move 0 0) (some 0) true 0 0 (zeros 64) 0x3FF 1023

theorem halfWritten_locate (x : Byte) : ((halfWritten x).raise .bar 0x02).locate 0 0 = .main 0 := rfl

theorem halfWritten_zeroRest (x : Byte) : ((halfWritten x).raise .bar 0x02).zeroRest (fun _ => true) =
    State.zeroChord 0 0 ((halfWritten x).raise .bar 0x02) := rfl

theorem halfWritten_zeroChord (x : Byte) : State.zeroChord 0 0 ((halfWritten x).raise .bar 0x02) =
    ((halfWritten x).raise .bar 0x02).pushEntry fillEntry := by
  unfold State.zeroChord
  rw [halfWritten_locate]
  rfl

/-- What `discard` leaves is that entry and an array as it was. -/
theorem halfWritten_discard (x : Byte) : ∃ u, ((halfWritten x).raise .bar 0x02).discard = u ∧ u.hold = [fillEntry] ∧
    u.merges = [] ∧ u.chordq = [] ∧ u.mram = (halfWritten x).mram ∧ u.rep = Rep.reset ∧ u.pins = State.reset.pins ∧
    u.free = 0 := by
  refine ⟨_, rfl, ?_⟩
  unfold State.discard
  rw [halfWritten_zeroRest, halfWritten_zeroChord]
  exact ⟨rfl, (by decide : State.reset.merges = []), rfl, rfl, rfl, rfl, rfl⟩

/-- The slices that fail: every one. -/
theorem fillEntry_endMask {u : State} (hrep : u.rep = Rep.reset) (hpins : u.pins = State.reset.pins) :
    u.endMask fillEntry 0x3FF = 0x3FF := by
  unfold State.endMask State.silentMask State.pulsable
  rw [hrep, hpins]
  decide

/-! ### What the fill stores -/

theorem storeSlices_append (rep : Rep) (skip : Nat → Bool) (c : Nat) (sl : List (List Byte)) (ps qs : List Nat)
    (m : List Host.Cell) : storeSlices rep skip c sl (ps ++ qs) m =
      storeSlices rep skip c sl qs (storeSlices rep skip c sl ps m) := by
  induction ps generalizing m with
  | nil => rfl
  | cons p ps ih =>
    rw [List.cons_append, storeSlices.eq_def, storeSlices.eq_def rep skip c sl (p :: ps)]
    dsimp only
    split
    · split <;> exact ih _
    · split <;> exact ih _

/-- A slice in service is written to its die. -/
theorem storeSlices_one {rep : Rep} {skip : Nat → Bool} {r : Nat} (c : Nat) (sl : List (List Byte)) (m : List Host.Cell)
    (hrole : r ≠ 10) (hin : skip r = false) : storeSlices rep skip c sl [r] m =
      cellsWrite m (sliceAddr (rep.physAt r c) c) ((sl.getD r []).take 8) := by
  simp [storeSlices, hrole, hin]

/-- The first byte of what was written. -/
theorem cellGet_write_head {m : List Host.Cell} (a : Nat) (b : Byte) (bs : List Byte) (h : cellsWf m = true) :
    cellGet (cellsWrite m a (b :: bs)) a = b := by
  have hread := cellsRead_write a (b :: bs) h
  rw [List.length_cons, cellsRead] at hread
  exact (List.cons.inj hread).1

/-- A slice that fails in the end holds free values. -/
theorem outcomeSlices_failing {sl : List (List Byte)} {failing : Slices} {r : Nat} (free : Nat) (hlen : sl.length = 10)
    (hr : r < 10) (hfail : failing.getLsbD r = true) :
    (outcomeSlices sl failing free).getD r [] = freeBytes (free + 8 * r) 8 := by
  have hpair : ((List.range 10).zip sl)[r]? = some (r, sl[r]) := by
    rw [List.getElem?_eq_some_iff]
    exact ⟨by simp [hlen, hr], by simp⟩
  simp [outcomeSlices, List.getD_eq_getElem?_getD, hpair, hfail]

theorem fillEntry_slices (s : State) : (s.entrySlices fillEntry).length = 10 := by
  simp [State.entrySlices, fillEntry, mkEntry, encodeChord]

/-- With every slice failing, the ninth die's slice of the chord holds free values. -/
theorem storeEntry_fill {v : State} (hrep : v.rep = Rep.reset) (hpins : v.pins = State.reset.pins) (hfree : v.free = 0)
    (hwf : cellsWf v.mram = true) :
    cellGet (v.storeEntry fillEntry 0x3FF).mram (sliceAddr 9 0) = Config.freeByte 72 := by
  have hmask : sliceList (v.fullMask 0) = [0, 1, 2, 3, 4, 5, 6, 7, 8] ++ [9] := by
    unfold State.fullMask State.chordCost
    rw [hrep]
    decide
  have hin : v.roleOut 0 9 = false := by
    unfold State.roleOut
    rw [hrep, hpins]
    decide
  have hdie : v.rep.physAt 9 0 = 9 := by
    rw [hrep]
    decide
  have hslice := outcomeSlices_failing (failing := 0x3FF) (r := 9) v.free (fillEntry_slices v) (by decide) (by decide)
  have hstored : (v.storeEntry fillEntry 0x3FF).mram = storeSlices v.rep (fun r => v.roleOut 0 r) 0
      (outcomeSlices (v.entrySlices fillEntry) 0x3FF v.free) (sliceList (v.fullMask 0)) v.mram := rfl
  rw [hstored, hmask, storeSlices_append, storeSlices_one 0 _ _ (by decide) hin, hdie, hslice, hfree]
  exact cellGet_write_head _ _ _ (cellsWf_storeSlices _ _ _ _ [0, 1, 2, 3, 4, 5, 6, 7, 8] hwf)

theorem halfWritten_expires (x : Byte) : cellGet ((halfWritten x).fwExpires [0x3FF]).mram (sliceAddr 9 0) =
    Config.freeByte 72 := by
  obtain ⟨u, hu, hhold, hmerges, hchordq, hmram, hrep, hpins, hfree⟩ := halfWritten_discard x
  obtain ⟨hkept, -, -⟩ := fwExpires_stores (s := halfWritten x) [0x3FF] rfl rfl (Nat.le_refl 256) rfl rfl
  have hmask : u.endMask fillEntry (([0x3FF] : CompOut).getD 0 0) = 0x3FF := fillEntry_endMask hrep hpins
  rw [hkept, hu, finishHolds_one [0x3FF] hhold hmerges hchordq rfl rfl, hmask, outcome_move_mram _ _ rfl]
  have hpulsed := (firstPulse_pulseWork u fillEntry).trans (morePulses_pulseWork (u.firstPulse fillEntry) fillEntry 0x3FF 6)
  refine storeEntry_fill (hpulsed.rep.trans hrep) (hpulsed.pins.trans hpins) (hpulsed.free.trans hfree) ?_
  rw [hpulsed.mram, hmram]
  exact cellsWf_set _ x rfl

/-! ### The statement -/

/-- Refutes O49: in its clause on the end of Free-wheel with FWCLOSE set. Nothing is held, but a write has filled its zero
sector but for the one chord that its intake still owes (`halfWrite`): as the traffic is lost, that chord is filled with zeros
after all (09 R233, 08 R217, log 126), takes an entry, and is brought to its outcome with the held writes, so the array is
written. Here the pulses of every slice fail, so that the chord holds free values (log 2) where another byte stood. The
clause asks that no stored byte changes; it would need `s.jobs = []` beside the empty hold. -/
theorem not_restAndOrderlyLeave : ¬ Obligations.RestAndOrderlyLeave := by
  unfold Obligations.RestAndOrderlyLeave
  rintro ⟨⟨-, hrest⟩, -⟩
  obtain ⟨-, -, -, -, -, -, -, -, hexpiry, -⟩ := hrest (halfWritten (Config.freeByte 72 + 1))
  obtain ⟨t, hnext, -, -, -, -, -, -, hmram, -, -⟩ := hexpiry [0x3FF] rfl rfl (Nat.le_refl 256) rfl rfl (by decide) rfl
  obtain rfl : (halfWritten (Config.freeByte 72 + 1)).fwExpires [0x3FF] = t := Host.Outcome.next.inj hnext
  have hbyte := (halfWritten_expires (Config.freeByte 72 + 1)).symm.trans (hmram (sliceAddr 9 0))
  have hbefore : cellGet (halfWritten (Config.freeByte 72 + 1)).mram (sliceAddr 9 0) = Config.freeByte 72 + 1 :=
    cellGet_set_same (lo := 0) _ _ rfl
  rw [hbefore] at hbyte
  simp at hbyte

end Sys2Proof.Machine

/-! PROOFS. The housekeeping of Deep: sectors packed for a program (10 R259), the scans (R268, R269), dies that stall and fail
(R265, R277), Muted (R273, R275) and the map at Join (R279). -/

namespace Sys2Proof.Machine

/-! ### Block records (10 R258, R268 to R271) -/

theorem blk_setBlk_same (d : Deep) (x : DeepBlk) : (d.setBlk x).blk x.blk = x := by
  have hbefore : (d.blks.filter fun y => y.blk < x.blk).find? (fun y => y.blk == x.blk) = none := by
    simp only [List.find?_eq_none, List.mem_filter, decide_eq_true_eq, beq_iff_eq]
    exact fun y hy => Nat.ne_of_lt hy.2
  simp [Deep.blk, Deep.setBlk, hbefore]

/-- A block's record carries its number. -/
@[simp] theorem blk_blk (d : Deep) (b : Nat) : (d.blk b).blk = b := by
  unfold Deep.blk
  cases hfind : d.blks.find? fun x => x.blk == b with
  | none => rfl
  | some x => simpa using List.find?_some hfind

theorem blk_updBlk_same {f : DeepBlk → DeepBlk} (d : Deep) (b : Nat) (hblk : ∀ x, (f x).blk = x.blk) :
    (d.updBlk b f).blk b = f (d.blk b) := by
  have hsame := blk_setBlk_same d (f (d.blk b))
  rwa [hblk, blk_blk] at hsame

theorem queueRefresh_changes (d : Deep) (now b : Nat) : ∃ bs r, d.queueRefresh now b =
    { d with blks := bs, refreshSeq := r } := by
  unfold Deep.queueRefresh
  extract_lets x
  split <;> exact ⟨_, _, rfl⟩

/-- A block that is not retired is queued for refresh, once (R269). -/
theorem queueRefresh_queues {d : Deep} {b : Nat} (now : Nat) (hretired : (d.blk b).retired = false) :
    ((d.queueRefresh now b).blk b).refresh ≠ none := by
  unfold Deep.queueRefresh
  extract_lets x
  split
  · next hkept =>
    have hqueued : (d.blk b).refresh.isSome = true := by simpa [x, hretired] using hkept
    exact Option.isSome_iff_ne_none.1 hqueued
  · have hset := blk_updBlk_same (f := fun x => { x with
      refresh := some d.refreshSeq, retiring := x.retiring || measureOf now - x.lastProg < 4096 }) d b fun _ => rfl
    exact fun hnone => Option.some_ne_none _ ((congrArg DeepBlk.refresh hset).symm.trans hnone)

theorem queueRetire_changes (d : Deep) (b : Nat) : ∃ bs r, d.queueRetire b = { d with blks := bs, refreshSeq := r } := by
  unfold Deep.queueRetire
  extract_lets x
  split <;> exact ⟨_, _, rfl⟩

theorem dieAlive_changes (d : Deep) (die : Nat) : ∃ ds, d.dieAlive die = { d with dies := ds } := by
  unfold Deep.dieAlive
  extract_lets x
  split <;> exact ⟨_, rfl⟩

/-! ### PACK_WAIT_EXPIRY (10 R259) -/

/-- The sectors of a Kit that wait to be packed. -/
def Deep.packOf (d : Deep) (k : Kit) : List (Kit × KPage × BitVec 4 × Nat) := d.pack.filter fun x => x.1 == k

/-- Whether a Kit's sector has waited PACK_WAIT × 16 Beats, told by the sectors that are the Kit's. -/
theorem packWaited_iff (s : State) (k : Kit) :
    (s.deep.pack.any fun x => x.1 == k && s.deep.packWait * 16 ≤ elapsed x.2.2.2 s.bar.beatno) = true ↔
      ∃ x ∈ s.deep.packOf k, s.deep.packWait * 16 ≤ elapsed x.2.2.2 s.bar.beatno := by
  simp [Deep.packOf, and_assoc]

theorem packExpired_early {s : State} {k : Kit}
    (hearly : ∀ x ∈ s.deep.packOf k, elapsed x.2.2.2 s.bar.beatno < s.deep.packWait * 16) : s.packExpired k = s := by
  refine if_neg fun hany => ?_
  obtain ⟨x, hx, hwaited⟩ := (packWaited_iff s k).1 hany
  exact absurd (hearly x hx) (Nat.not_lt.2 hwaited)

theorem packExpired_due {s : State} {k : Kit}
    (hdue : ∃ x ∈ s.deep.packOf k, s.deep.packWait * 16 ≤ elapsed x.2.2.2 s.bar.beatno) :
    s.packExpired k = s.packOne k := if_pos ((packWaited_iff s k).2 hdue)

/-- With no CLOSE under way the Kit pays for the program of its waiting sectors (09 R237). -/
theorem packOne_packs {s : State} {k : Kit} {die loc : Nat} (hclosing : s.closing = none) (hwaits : s.deep.packOf k ≠ [])
    (hplace : s.deep.nextPlace = some (die, loc)) : s.packOne k = { s with
      deep := ({ s.deep with pack := s.deep.pack.filter fun x => !((s.deep.packOf k).take 4).contains x } : Deep).queueAt
        s.bar.beatno die loc (.program (some k) (((s.deep.packOf k).take 4).map fun x => (x.1, x.2.1, x.2.2.1)) loc) } := by
  have hfour : (s.deep.packOf k).take 4 ≠ [] := by simpa using hwaits
  unfold State.packOne
  rw [hplace, hclosing]
  extract_lets mine
  split
  · next hnil => exact absurd hnil hfour
  · next hnone _ => cases hnone
  · next hsome _ =>
    cases hsome
    rfl

/-! ### DEEP_SCAN_STEP (10 R268; 02 R47) -/

/-- The reads that a scan step queues: three of each block that it picks. -/
def Deep.scanReads (d : Deep) : List Nat := (d.scanBlocks.1.eraseDups.map fun b => [b, b, b]).flatten

/-- Whether the scan step that waits has not begun: every block of it still waits for its three reads (log 47). -/
def Deep.scanUnbegun (d : Deep) : Bool :=
  d.scanQ.length != 0 && d.scanQ.all fun b => (d.scanQ.filter fun x => x == b).length == 3

/-- Whether a scan step is due: in Run and Degraded, at Beat 64 of each 64th Bar (R268). -/
def State.scanDue (s : State) : Prop :=
  (s.mode = .run ∨ s.mode = .degraded) ∧ s.bar.beatno / 1024 % 64 = 0 ∧ s.bar.beatno % 1024 = 64

theorem scanDue_iff (s : State) :
    ((s.mode == .run || s.mode == .degraded) && s.barNo % 64 == 0 && s.beatIx == 64) = true ↔ s.scanDue := by
  simp [State.scanDue, State.barNo, State.beatIx, and_assoc]

theorem scanStep_of_not_due {s : State} (h : ¬ s.scanDue) : s.scanStep = s := by
  rw [← scanDue_iff, Bool.not_eq_true] at h
  exact if_pos (by rw [h]; rfl)

theorem scanStep_of_due {s : State} (h : s.scanDue) : s.scanStep = { s with deep := { s.deep with
    scanQ := if s.deep.scanUnbegun then s.deep.scanReads else s.deep.scanQ ++ s.deep.scanReads,
    rotate := s.deep.scanBlocks.2, scanDrop := up32 s.deep.scanDrop (b2n s.deep.scanUnbegun) } } := by
  rw [← scanDue_iff] at h
  exact if_neg (by rw [h]; decide)

theorem scanUnbegun_of_none {d : Deep} (h : d.scanQ = []) : d.scanUnbegun = false := by
  simp [Deep.scanUnbegun, h]

theorem scanUnbegun_of_two {d : Deep} {b : Nat} (h : d.scanQ = [b, b]) : d.scanUnbegun = false := by
  simp [Deep.scanUnbegun, h]

theorem scanUnbegun_of_three {d : Deep} {b : Nat} (h : d.scanQ = [b, b, b]) : d.scanUnbegun = true := by
  simp [Deep.scanUnbegun, h]

/-! ### SCAN_READ_DONE (10 R268, R269) -/

theorem takeFirst_eq_erase {l : List Nat} {b : Nat} (h : b ∈ l) : takeFirst (fun x => x == b) l = some (b, l.erase b) := by
  induction l with
  | nil => cases h
  | cons x xs ih =>
    by_cases hx : x = b
    · simp [takeFirst, hx]
    · have htail : b ∈ xs := (List.mem_cons.1 h).resolve_left (Ne.symm hx)
      simp [takeFirst, hx, ih htail]

/-- Deep after a scan read of a block: the read is counted and leaves the block's reads; with the second of three the scan
of the block counts. -/
def Deep.scanTaken (d : Deep) (b retries : Nat) : Deep :=
  { d.countRead b retries 4 with
    scanQ := d.scanQ.erase b
    scans := up32 d.scans (b2n ((d.scanQ.filter fun x => x == b).length % 3 == 1)) }

theorem scanTaken_retired (d : Deep) (b retries : Nat) :
    ((d.scanTaken b retries).blk b).retired = (d.blk b).retired :=
  (congrArg DeepBlk.retired
    (blk_updBlk_same (f := fun x => { x with reads := satAdd 24 x.reads 1 }) d b fun _ => rfl) :)

/-- Deep after a scan read that could be corrected: a weak block is queued for refresh, and the die's stalls end. -/
def Deep.scanEnded (d : Deep) (now b corrected retries : Nat) : Deep :=
  (if d.refreshBer ≤ corrected || retries != 0 then (d.scanTaken b retries).queueRefresh now b
    else d.scanTaken b retries).dieAlive (b / 8192)

/-- What a scan read that could be corrected leaves. -/
theorem scanEnded_changes (d : Deep) (now b corrected retries : Nat) : ∃ bs r m n ds, d.scanEnded now b corrected retries =
    { d with blks := bs, refreshSeq := r, reads := up32 d.reads 1, measure := m, scanQ := d.scanQ.erase b, scans := n,
             dies := ds } := by
  unfold Deep.scanEnded
  split
  · obtain ⟨bs, r, hqueued⟩ := queueRefresh_changes (d.scanTaken b retries) now b
    obtain ⟨ds, halive⟩ := dieAlive_changes ((d.scanTaken b retries).queueRefresh now b) (b / 8192)
    rw [halive, hqueued]
    exact ⟨_, _, _, _, _, rfl⟩
  · obtain ⟨ds, halive⟩ := dieAlive_changes (d.scanTaken b retries) (b / 8192)
    rw [halive]
    exact ⟨_, _, _, _, _, rfl⟩

theorem dieAlive_blk (d : Deep) (die b : Nat) : (d.dieAlive die).blk b = d.blk b := by
  obtain ⟨ds, h⟩ := dieAlive_changes d die
  rw [h]
  rfl

theorem scanEnded_refreshes {d : Deep} {b corrected retries : Nat} (now : Nat)
    (hweak : d.refreshBer ≤ corrected ∨ retries ≠ 0) (hretired : (d.blk b).retired = false) :
    ((d.scanEnded now b corrected retries).blk b).refresh ≠ none := by
  unfold Deep.scanEnded
  rw [if_pos (by simpa using hweak), dieAlive_blk]
  exact queueRefresh_queues now ((scanTaken_retired d b retries).trans hretired)

/-- A read that ended after retry steps leaves a Tally record; no other change comes before the scan read is taken. -/
theorem scanRead_of_waiting {s : State} {b : Nat} (corrected retries : Nat) (h : b ∈ s.deep.scanQ) :
    ∃ u : State, u.deep = s.deep ∧ u.mram = s.mram ∧ u.bel = s.bel ∧
      s.scanRead b corrected retries false = { u with deep := s.deep.scanEnded s.bar.beatno b corrected retries } := by
  unfold State.scanRead
  extract_lets u left d weak q d1 d2 s1
  have hu : u.deep = s.deep ∧ u.mram = s.mram ∧ u.bel = s.bel ∧ u.bar = s.bar := by
    unfold u
    split
    · exact ⟨rfl, rfl, rfl, rfl⟩
    · exact ⟨tally_deep .., tally_mram .., tally_bel .., tally_bar ..⟩
  obtain ⟨hdeep, hmram, hbel, hbar⟩ := hu
  have hleft : (left != 0) = true := by simpa [left, hdeep] using h
  refine ⟨u, hdeep, hmram, hbel, ?_⟩
  rw [if_pos hleft]
  have hq : q = s.deep.scanQ.erase b := by
    have hscan : d.scanQ = s.deep.scanQ := (congrArg Deep.scanQ hdeep :)
    simp only [q, hscan, takeFirst_eq_erase h]
  have hd1 : d1 = s.deep.scanTaken b retries := by
    simp only [d1, hq, d, left, hdeep]
    rfl
  have hd2 : d2.dieAlive (b / 8192) = s.deep.scanEnded s.bar.beatno b corrected retries := by
    simp only [d2, hd1, weak, hdeep, hbar]
    rfl
  simp [s1, hd2]

/-! ### DIE_STALL (10 R265, R277) -/

/-- From `s` to `t` operations of Deep are queued again at other places, their blocks for retirement. -/
def Requeued (s t : State) : Prop := ∃ bs q n r, t = { s with
  deep := { s.deep with blks := bs, queue := q, nextDie := n, refreshSeq := r } }

theorem Requeued.refl (s : State) : Requeued s s := ⟨_, _, _, _, rfl⟩

theorem Requeued.trans (s t u : State) (hst : Requeued s t) (htu : Requeued t u) : Requeued s u := by
  obtain ⟨_, _, _, _, rfl⟩ := hst
  obtain ⟨_, _, _, _, rfl⟩ := htu
  exact ⟨_, _, _, _, rfl⟩

theorem programAgain_requeued (s : State) (op : DeepOp) (b : Nat) : Requeued s (s.programAgain op b) := by
  obtain ⟨bs, r, hretire⟩ := queueRetire_changes s.deep b
  unfold State.programAgain
  rw [hretire]
  extract_lets s1
  split <;> exact ⟨_, _, _, _, rfl⟩

theorem reserveFalls_changes (s : State) (n : Nat) : ∃ a b c v, s.reserveFalls n = { s with
    deep := { s.deep with reserve := a, retiredCt := b, noreloc := c }, evs := v } := by
  unfold State.reserveFalls
  extract_lets old new d s1
  split <;> exact ⟨_, _, _, _, rfl⟩

/-- The map after a die has failed: every sector on it is lost (R277). -/
def Deep.mapWithout (d : Deep) (die : Fin 4) : List DeepEnt :=
  d.map.map fun e => if e.loc / 2 ^ 25 == die.val then { e with poison := BitVec.allOnes 64 } else e

theorem mapWithout_poisoned {d : Deep} {die : Fin 4} {e : DeepEnt} (he : e ∈ d.mapWithout die)
    (hdie : e.loc / 2 ^ 25 = die.val) : e.poison = BitVec.allOnes 64 := by
  obtain ⟨e', -, rfl⟩ := List.mem_map.1 he
  by_cases hon : (e'.loc / 2 ^ 25 == die.val) = true
  · rw [if_pos hon]
  · rw [if_neg hon] at hdie
    exact absurd (beq_iff_eq.2 hdie) hon

/-- From `s` to `t` a die has failed: it is offline and its sectors are lost, DIEFAIL is set, and no byte of the array or of
NAND has changed (R277). -/
structure DieLost (s : State) (die : Fin 4) (t : State) : Prop where
  map : t.deep.map = s.deep.mapWithout die
  dies : t.deep.dies = s.deep.dies.set die { s.deep.dies[die] with
    failed := true, good := 0, online := false, busy := none, suspended := false }
  event : (t.ev .deep).bits.getLsbD 5 = true
  mram : t.mram = s.mram
  nand : t.deep.nand = s.deep.nand

theorem DieLost.raise {s t : State} {die : Fin 4} (h : DieLost s die t) (i : EvId) (mask : BitVec 8) :
    DieLost s die (t.raise i mask) := ⟨h.map, h.dies, ev_raise_keeps t i mask h.event, h.mram, h.nand⟩

theorem DieLost.belPut {s t : State} {die : Fin 4} (h : DieLost s die t) (a : Nat) (bs : List Byte) (n : Nat) :
    DieLost s die (t.belPut a bs n) := ⟨h.map, h.dies, h.event, h.mram, h.nand⟩

theorem DieLost.requeued {s t u : State} {die : Fin 4} (h : DieLost s die t) (htu : Requeued t u) : DieLost s die u := by
  obtain ⟨_, _, _, _, rfl⟩ := htu
  exact ⟨h.map, h.dies, h.event, h.mram, h.nand⟩

theorem deepDieFails_lost {s : State} {die : Fin 4} (hworks : (s.deep.dies[die]).failed = false) :
    DieLost s die (s.deepDieFails die) := by
  unfold State.deepDieFails
  extract_lets x lost map src d mine s1 gone s2 s3
  rw [if_neg (by simpa [x] using hworks)]
  have hs2 : DieLost s die s2 := by
    obtain ⟨a, b, c, v, hfalls⟩ := reserveFalls_changes s1 gone
    have hraised : DieLost s die ((s1.reserveFalls gone).raise .deep 0x20) := by
      refine ⟨?_, ?_, by simp [ev_raise_same], ?_, ?_⟩ <;> (rw [hfalls]; rfl)
    exact hraised.belPut _ _ _
  have hs3 : DieLost s die s3 := by
    unfold s3
    split
    · exact hs2
    · exact hs2.raise .deep 0x04
  refine hs3.requeued (forEach_forall Requeued.refl Requeued.trans (fun o t => ?_) mine s3)
  cases o with
  | erase b => exact .refl t
  | program k ss l => exact programAgain_requeued t _ _
  | relocate ss l => exact programAgain_requeued t _ _

theorem dieStalls_unchanged {s : State} {die : Fin 4} (h : (s.deep.dies[die]).failed = true ∨ s.waitsOn die = false) :
    s.dieStalls die = s := if_pos (by simpa using h)

theorem dieStalls_counts {s : State} {die : Fin 4} (hworks : (s.deep.dies[die]).failed = false)
    (hwaits : s.waitsOn die = true) (hfew : (s.deep.dies[die]).stalls < 2) : s.dieStalls die = { s with deep := { s.deep with
      dies := s.deep.dies.set die { s.deep.dies[die] with stalls := (s.deep.dies[die]).stalls + 1 } } } := by
  unfold State.dieStalls
  extract_lets x
  rw [if_neg (by simpa [x, hwaits] using hworks), if_neg (by simpa [x] using hfew)]

theorem dieStalls_third {s : State} {die : Fin 4} (hworks : (s.deep.dies[die]).failed = false)
    (hwaits : s.waitsOn die = true) (hmany : 2 ≤ (s.deep.dies[die]).stalls) : s.dieStalls die = s.deepDieFails die := by
  unfold State.dieStalls
  extract_lets x
  rw [if_neg (by simpa [x, hwaits] using hworks), if_pos (by simpa [x] using hmany)]

/-! ### MUTED_ENTRY and DEEP_MAP_READY (10 R273, R275, R279) -/

theorem mute_unchanged {s : State} (h : s.deep.muted = true ∨ s.deep.floor ≤ s.deep.reserve) : s.mute = s :=
  if_pos (by simpa using h)

/-- Below the floor Deep is Muted, with its event, its log record and the device-state record. -/
theorem mute_enters {s : State} (hmuted : s.deep.muted = false) (hlow : s.deep.reserve < s.deep.floor) :
    ∃ d n l q o i f, s.mute = { s.raise .deep 0x01 with
      deep := { s.deep with muted := true, drain := d, noreloc := n }
      bel := { s.bel with logq := l, logDrop := q, lostNow := o, recq := i }, free := f } ∧ RecId.deviceState ∈ i := by
  unfold State.mute
  rw [if_neg (by simpa [hmuted] using hlow)]
  extract_lets dirty src d
  obtain ⟨l, q, o, f, hlog⟩ := logRec_eq (({ s with deep := d } : State).raise .deep 0x01) 0x0402 s.deep.reserve none
  obtain ⟨i, hrec, hmem, -⟩ := queueRec_changes
    ((({ s with deep := d } : State).raise .deep 0x01).logRec 0x0402 s.deep.reserve) .deviceState
  rw [hrec, hlog]
  exact ⟨_, _, l, q, o, i, f, rfl, hmem⟩

theorem mapReady_in_join {s : State} (h : s.mode = .join) : s.mapReady = { s with
    deep := { s.deep with ready := true, dies := s.deep.dies.map fun x => { x with online := !x.failed } } } :=
  if_neg (by simp [h])

theorem mapReady_elsewhere {s : State} (h : s.mode ≠ .join) : s.mapReady = s := if_pos (by simpa using h)

/-! ### The statement -/

theorem exec_packWaitExpiry (k : Kit) (s : State) : exec (.packWaitExpiry k) s = .next (s.packExpired k) := rfl
theorem exec_dieStall (die : Fin 4) (s : State) : exec (.dieStall die) s = .next (s.dieStalls die) := rfl
theorem exec_mutedEntry (s : State) : exec .mutedEntry s = .next s.mute := rfl
theorem exec_deepMapReady (s : State) : exec .deepMapReady s = .next s.mapReady := rfl
theorem exec_deepScanStep (s : State) : exec .deepScanStep s = .next s.scanStep := rfl
theorem exec_scanReadDone (b : BitVec 15) (corr : BitVec 8) (retries : BitVec 3) (bad : Bool) (s : State) :
    exec (.scanReadDone b corr retries bad) s = .next (s.scanRead b.toNat corr.toNat retries.toNat bad) := rfl

theorem up32_one (x : Nat) : up32 x 1 = min (x + 1) (2 ^ 32 - 1) := Nat.min_comm _ _

/-- Settles O41: PACK_WAIT_EXPIRY by `packExpired_early` and `packOne_packs`, DIE_STALL by its three outcomes, of which the
third is `deepDieFails_lost`; Muted by `mute_enters`, the map at Join by `mapReady_in_join`. A scan step is
`scanStep_of_due` with what waits begun or not: that a step has begun once one of its blocks no longer waits for all three
reads is the model's reading (log 47). A scan read is `scanRead_of_waiting` with the rules of `Deep.scanEnded`. -/
theorem deepHousekeeping : Obligations.DeepHousekeeping := by
  unfold Obligations.DeepHousekeeping
  refine ⟨fun s k hclosing => ?packWait, fun s die => ?stall, fun s => ?mutedAndMap, fun s => ?scans⟩
  case packWait =>
    refine ⟨fun hearly => ?_, fun die loc hdue hplace => ?_⟩
    · rw [exec_packWaitExpiry, packExpired_early hearly]
    · have hwaits : s.deep.packOf k ≠ [] := hdue.elim fun _ hx => List.ne_nil_of_mem hx.1
      rw [exec_packWaitExpiry, packExpired_due hdue, packOne_packs hclosing hwaits hplace]
      exact ⟨_, rfl, rfl, rfl, rfl, sameStores_of_eq rfl rfl rfl⟩
  case stall =>
    refine ⟨fun h => ?_, fun hworks hwaits hfew => ?_, fun hworks hwaits hmany => ?_⟩
    · rw [exec_dieStall, dieStalls_unchanged h]
    · rw [exec_dieStall, dieStalls_counts hworks hwaits hfew]
    · obtain ⟨hmap, hdies, hevent, hmram, hnand⟩ := deepDieFails_lost hworks
      rw [exec_dieStall, dieStalls_third hworks hwaits hmany]
      refine ⟨_, rfl, by simp [hdies], by simp [hdies], hevent, fun e he => ?_, hmram, hnand⟩
      rw [hmap] at he
      exact mapWithout_poisoned he
  case mutedAndMap =>
    refine ⟨fun h => ?_, fun hmuted hlow => ?_, fun hjoin => ?_, fun helse => ?_⟩
    · rw [exec_mutedEntry, mute_unchanged h]
    · obtain ⟨d, n, l, q, o, i, f, hmute, hrec⟩ := mute_enters hmuted hlow
      have hevent : ((s.raise .deep 0x01).ev .deep).bits.getLsbD 0 = true := by simp [ev_raise_same]
      rw [exec_mutedEntry, hmute]
      exact ⟨_, rfl, rfl, hevent, hrec, rfl, sameStores_of_eq rfl rfl rfl⟩
    · rw [exec_deepMapReady, mapReady_in_join hjoin]
    · rw [exec_deepMapReady, mapReady_elsewhere helse]
  case scans =>
    refine ⟨fun h => ?_, fun hdue hnone => ?_, fun b hdue htwo => ?_, fun b hdue hthree => ?_,
      fun b corr retries hwaits => ?_⟩
    · rw [exec_deepScanStep, scanStep_of_not_due h]
    · rw [exec_deepScanStep, scanStep_of_due hdue, scanUnbegun_of_none hnone, hnone]
      exact ⟨_, rfl, rfl, rfl, rfl, sameStores_of_eq rfl rfl rfl⟩
    · rw [exec_deepScanStep, scanStep_of_due hdue, scanUnbegun_of_two htwo, htwo]
      exact ⟨_, rfl, rfl⟩
    · rw [exec_deepScanStep, scanStep_of_due hdue, scanUnbegun_of_three hthree]
      exact ⟨_, rfl, rfl, up32_one _⟩
    · obtain ⟨u, -, hmram, hbel, hread⟩ := scanRead_of_waiting corr.toNat retries.toNat hwaits
      obtain ⟨bs, r, m, n, ds, hended⟩ := scanEnded_changes s.deep s.bar.beatno b.toNat corr.toNat retries.toNat
      have hrefresh (hweak : s.deep.refreshBer ≤ corr.toNat ∨ retries ≠ 0) :=
        scanEnded_refreshes s.bar.beatno (b := b.toNat) (hweak.imp_right fun hne : retries ≠ 0 => by
          simpa [← BitVec.toNat_inj] using hne)
      rw [exec_scanReadDone, hread]
      refine ⟨_, rfl, ?queue, ?reads, ?map, hrefresh, sameStores_of_eq hmram ?nand (congrArg Bel.mem hbel)⟩
      case reads =>
        rw [hended]
        exact up32_one _
      all_goals rw [hended]

end Sys2Proof.Machine

/-! PROOFS. The work of NAND: sectors read for a promotion (10 R262, R264, R266), programs that write sectors back (R261, 09
R246, R247) and erases (R269, R271). -/

namespace Sys2Proof.Machine

/-! ### The map and the block records (10 R258, R259, R271) -/

theorem find_setEnt_same (d : Deep) (e : DeepEnt) : (d.setEnt e).find e.page e.sector = some e := by
  have hbefore : (d.map.filter fun y => y.key < e.key).find? (fun y => y.page == e.page && y.sector == e.sector) = none := by
    simp only [List.find?_eq_none, List.mem_filter, decide_eq_true_eq, Bool.and_eq_true, beq_iff_eq, not_and]
    rintro y ⟨-, hlt⟩ hpage hsector
    simp [DeepEnt.key, hpage, hsector] at hlt
  simp [Deep.find, Deep.setEnt, hbefore]

/-- A map entry names the page and the sector that it is found by. -/
theorem find_names {d : Deep} {page : Nat} {x : BitVec 4} {e : DeepEnt} (h : d.find page x = some e) :
    e.page = page ∧ e.sector = x := by
  simpa using List.find?_some h

theorem blk_setBlk_other {d : Deep} {x : DeepBlk} {b : Nat} (hne : b ≠ x.blk) : (d.setBlk x).blk b = d.blk b := by
  have hkept : ∀ (p : DeepBlk → Bool), (∀ y : DeepBlk, y.blk = b → p y = true) →
      (d.blks.filter p).find? (fun y => y.blk == b) = d.blks.find? fun y => y.blk == b := by
    intro p hp
    rw [List.find?_filter]
    congr 1
    funext y
    by_cases hy : y.blk = b <;> simp [hy, hp]
  have hgone : ∀ (p : DeepBlk → Bool), (∀ y : DeepBlk, y.blk = b → p y = false) →
      (d.blks.filter p).find? (fun y => y.blk == b) = none := by
    intro p hp
    simp only [List.find?_eq_none, List.mem_filter, beq_iff_eq]
    exact fun y hy hb => by simp [hp y hb] at hy
  have hmid : (x.blk == b) = false := by simpa using Ne.symm hne
  rcases Nat.lt_or_gt_of_ne hne with hlt | hgt
  · simp [Deep.blk, Deep.setBlk, hmid, hkept (fun y => y.blk < x.blk) fun y hy => by simpa [hy] using hlt,
      hgone (fun y => x.blk < y.blk) fun y hy => by simpa [hy] using hlt.le]
  · simp [Deep.blk, Deep.setBlk, hmid, hkept (fun y => x.blk < y.blk) fun y hy => by simpa [hy] using hgt,
      hgone (fun y => y.blk < x.blk) fun y hy => by simpa [hy] using hgt.le]

theorem queueRetire_retiring {d : Deep} {b : Nat} (hretired : (d.blk b).retired = false) :
    ((d.queueRetire b).blk b).retiring = true := by
  unfold Deep.queueRetire
  extract_lets x
  split
  · next hkept => simpa [x, hretired] using hkept
  · exact (congrArg DeepBlk.retiring (blk_updBlk_same (f := fun x => { x with
      retiring := true, refresh := x.refresh.or (some d.refreshSeq) }) d b fun _ => rfl) :)

/-- An operation that is queued at a place takes the place's NAND page; which blocks are to be retired stays. -/
theorem queueAt_retiring (d : Deep) (now die loc : Nat) (op : DeepOp) (b : Nat) :
    ((d.queueAt now die loc op).blk b).retiring = (d.blk b).retiring := by
  let x := { d.blk (blkOf loc) with fill := loc / 4 % 1024 + 1, lastProg := measureOf now }
  change ((d.setBlk x).blk b).retiring = _
  by_cases hb : b = x.blk
  · have hblk : x.blk = blkOf loc := blk_blk d (blkOf loc)
    rw [hb, blk_setBlk_same, hblk]
  · rw [blk_setBlk_other hb]

/-! ### Events recorded (18 R438) -/

/-- A retry record of each of some NAND pages changes Tally alone. -/
theorem forEach_retryRecord_changes (steps : Nat) (ps : List Nat) (s : State) : ∃ tal evs,
    forEach (fun (p : Nat) (t : State) => t.retryRecord (p / 1024) steps) ps s = { s with tal := tal, evs := evs } := by
  induction ps generalizing s with
  | nil => exact ⟨_, _, rfl⟩
  | cons p ps ih =>
    obtain ⟨tal, evs, hrecord⟩ : ∃ tal evs, s.retryRecord (p / 1024) steps = { s with tal := tal, evs := evs } :=
      tallyAt_changes ..
    obtain ⟨tal', evs', hrest⟩ := ih (s.retryRecord (p / 1024) steps)
    exact ⟨tal', evs', by rw [forEach, hrest, hrecord]⟩

/-! ### Chords on their way to a move's frame (10 R262, R266; 09 R252) -/

/-- A chord of a move's page, queued for a frame: its bytes, or a poison marker where it has none (R266). -/
def Move.queued (m : Move) (payer : Kit) (f i : Nat) (v : Option (List Byte)) :
    WKind × Option Kit × Nat × ChordIx × List Byte :=
  (if v.isSome then .move m.kit m.kp else .marker, some payer, m.addr i, BitVec.ofNat 28 (f * 1024 + i), v.getD (zeros 64))

/-- The 64 chords of a sector, queued for a frame in ascending order. -/
def Move.sectorQueued (m : Move) (payer : Kit) (f : Nat) (x : BitVec 4) (cs : List (Option (List Byte))) :
    List (WKind × Option Kit × Nat × ChordIx × List Byte) :=
  ((List.range 64).zip cs).map fun c => m.queued payer f (64 * x.toNat + c.1) c.2

theorem putChord_queues {s : State} {m : Move} {f : Nat} (hframe : s.moveFrame m = some f) (i : Nat)
    (v : Option (List Byte)) : s.putChord m i v = { s with chordq := s.chordq ++ [m.queued (s.movePayer m) f i v] } := by
  unfold State.putChord
  rw [hframe]
  cases v <;> rfl

theorem forEach_putChord_queues {m : Move} {f : Nat} (x : BitVec 4) (cs : List (Nat × Option (List Byte))) {s : State}
    (hframe : s.moveFrame m = some f) :
    forEach (fun (c : Nat × Option (List Byte)) (t : State) => t.putChord m (64 * x.toNat + c.1) c.2) cs s =
      { s with chordq := s.chordq ++ cs.map fun c => m.queued (s.movePayer m) f (64 * x.toNat + c.1) c.2 } := by
  induction cs generalizing s with
  | nil => simp [forEach]
  | cons c cs ih =>
    rw [forEach, putChord_queues hframe, ih (by exact hframe)]
    simp [State.movePayer, State.eng]

/-- A sector at hand goes to the frame of the one move under way and is read. -/
theorem sectorIn_of_one {s : State} {m : Move} {f : Nat} (x : BitVec 4) (cs : List (Option (List Byte))) (lost : Bool)
    (hmoves : s.moves = [m]) (hframe : s.moveFrame m = some f) : s.sectorIn m x cs lost = { s with
      chordq := s.chordq ++ m.sectorQueued (s.movePayer m) f x cs
      moves := [{ m with reads := m.reads &&& ~~~ BitVec.ofNat 16 (2 ^ x.toNat)
                         lost := if lost then m.lost ||| BitVec.ofNat 16 (2 ^ x.toNat) else m.lost }] } := by
  simp only [State.sectorIn, State.putSector, forEach_putChord_queues x _ hframe, State.updMove, hmoves, updWhere]
  simp [Move.sectorQueued]

theorem sectorQueued_length {m : Move} {payer : Kit} {f : Nat} {x : BitVec 4} {cs : List (Option (List Byte))}
    (h : cs.length = 64) : (m.sectorQueued payer f x cs).length = 64 := by
  simp [Move.sectorQueued, h]

theorem sectorQueued_markers {m : Move} {payer : Kit} {f : Nat} {x : BitVec 4} {n : Nat}
    {q : WKind × Option Kit × Nat × ChordIx × List Byte} (hq : q ∈ m.sectorQueued payer f x (List.replicate n none)) :
    q.1 = .marker := by
  obtain ⟨c, hc, rfl⟩ := List.mem_map.1 hq
  have hnone : c.2 = none := List.eq_of_mem_replicate (List.of_mem_zip (a := c.1) (b := c.2) hc).2
  simp [Move.queued, hnone]

/-- A chord without poison is queued in the clear, from where NAND holds it (R262; 08 R215). -/
theorem sectorQueued_opened {s : State} {m : Move} {payer : Kit} {f i : Nat} {k : Kit} {kp : KPage} {e : DeepEnt}
    (hpoison : e.poison = 0) (hi : i < 64) : (m.sectorQueued payer f e.sector (s.openSector k kp e))[i]? =
      some (.move m.kit m.kp, some payer, m.addr (64 * e.sector.toNat + i),
        BitVec.ofNat 28 (f * 1024 + (64 * e.sector.toNat + i)),
        s.opened k (kp.toNat * 65536 + 4096 * e.sector.toNat + 64 * i) (cellsRead s.deep.nand (e.loc * 4096 + 64 * i) 64)) := by
  simp [Move.sectorQueued, State.openSector, Deep.sectorChords, hpoison, hi, List.zip, Move.queued]

/-! ### What a NAND read leaves of Deep (10 R265, R269, R272) -/

/-- From `d` to `t` reads are counted: at their blocks, which may be queued for refresh, and at their dies. The map and the
medium stay. -/
def ReadCounted (d t : Deep) : Prop := ∃ bs r n q ds, t = { d with
  blks := bs, refreshSeq := r, reads := n, measure := q, dies := ds }

theorem ReadCounted.refl (d : Deep) : ReadCounted d d := ⟨_, _, _, _, _, rfl⟩

theorem ReadCounted.trans {d t u : Deep} (hdt : ReadCounted d t) (htu : ReadCounted t u) : ReadCounted d u := by
  obtain ⟨_, _, _, _, _, rfl⟩ := hdt
  obtain ⟨_, _, _, _, _, rfl⟩ := htu
  exact ⟨_, _, _, _, _, rfl⟩

theorem countRead_counted (d : Deep) (b retries codewords : Nat) : ReadCounted d (d.countRead b retries codewords) :=
  ⟨_, _, _, _, _, rfl⟩

theorem queueRefresh_counted (d : Deep) (now b : Nat) : ReadCounted d (d.queueRefresh now b) := by
  obtain ⟨_, _, h⟩ := queueRefresh_changes d now b
  exact ⟨_, _, _, _, _, h⟩

theorem dieAlive_counted (d : Deep) (die : Nat) : ReadCounted d (d.dieAlive die) := by
  obtain ⟨_, h⟩ := dieAlive_changes d die
  exact ⟨_, _, _, _, _, h⟩

theorem ReadCounted.map {d t : Deep} (h : ReadCounted d t) : t.map = d.map := by
  obtain ⟨_, _, _, _, _, rfl⟩ := h
  rfl

theorem ReadCounted.nand {d t : Deep} (h : ReadCounted d t) : t.nand = d.nand := by
  obtain ⟨_, _, _, _, _, rfl⟩ := h
  rfl

theorem ReadCounted.find {d t : Deep} (h : ReadCounted d t) (page : Nat) (x : BitVec 4) : t.find page x = d.find page x :=
  congrArg (List.find? _) h.map

theorem foldl_counted {f : Deep → Nat → Deep} (h : ∀ d p, ReadCounted d (f d p)) (ps : List Nat) (d : Deep) :
    ReadCounted d (ps.foldl f d) := by
  induction ps generalizing d with
  | nil => exact .refl d
  | cons p ps ih => exact (h d p).trans (ih (f d p))

theorem countPages_counts (s : State) (m : Move) (index : Nat) (rs : List (BitVec 4 × SectorRead)) :
    ∃ d tal evs, ReadCounted s.deep d ∧ s.countPages m index rs = { s with deep := d, tal := tal, evs := evs } := by
  unfold State.countPages
  extract_lets hits pages one ended
  obtain ⟨tal, evs, hrecords⟩ :=
    forEach_retryRecord_changes m.retries ended { s with deep := pages.foldl one s.deep }
  exact ⟨_, tal, evs, foldl_counted (fun d p => countRead_counted d _ _ _) pages s.deep, hrecords⟩

/-- Deep with a sector found uncorrectable: its map entry is poisoned and it is counted (R266). -/
def Deep.withLost (d : Deep) (e : DeepEnt) : Deep :=
  { d.setEnt { e with poison := BitVec.allOnes 64 } with uncorr := up32 d.uncorr 1 }

theorem find_withLost {d : Deep} {e : DeepEnt} {page : Nat} {x : BitVec 4} (h : d.find page x = some e) :
    (d.withLost e).find page x = some { e with poison := BitVec.allOnes 64 } := by
  obtain ⟨rfl, rfl⟩ := find_names h
  exact find_setEnt_same d { e with poison := BitVec.allOnes 64 }

theorem ReadCounted.withLost {d t : Deep} (h : ReadCounted d t) (e : DeepEnt) :
    ReadCounted (d.withLost e) (t.withLost e) := by
  obtain ⟨_, _, _, _, _, rfl⟩ := h
  exact ⟨_, _, _, _, _, rfl⟩

/-- A sector found uncorrectable leaves its block queued for retirement and its event set (R266). -/
theorem sectorLost_loses (s : State) (e : DeepEnt) : ∃ d, ReadCounted (s.deep.withLost e) d ∧
    s.sectorLost e = ({ s with deep := d } : State).raise .deep 0x04 := by
  obtain ⟨bs, r, hretire⟩ := queueRetire_changes (s.deep.setEnt { e with poison := BitVec.allOnes 64 }) (blkOf e.loc)
  rw [State.sectorLost, hretire]
  exact ⟨_, ⟨bs, r, _, _, _, rfl⟩, rfl⟩

/-! ### PROMOTION_READ_DONE (10 R262, R264, R266) -/

/-- Where no move of the page reads from Deep nothing changes. -/
theorem promotionRead_unread {s : State} {k : Kit} {kp : KPage} (rs : List (BitVec 4 × SectorRead))
    (h : s.reading k kp = none) : s.promotionRead k kp rs = s := by
  simp only [State.promotionRead, h]

section
variable {s : State} {m : Move} {p : Page} {x : BitVec 4} {e : DeepEnt}

theorem reading_of_one (hmoves : s.moves = [m]) (hentry : m.entry = true) (hreads : m.reads.getLsbD x.toNat = true) :
    s.reading m.kit m.kp = some m := by
  have hsome : m.reads ≠ 0#16 := fun hzero => by simp [hzero] at hreads
  simp [State.reading, hmoves, hentry, hsome]

variable (hmoves : s.moves = [m]) (hentry : m.entry = true) (hreads : m.reads.getLsbD x.toNat = true)
  (hpage : s.findPage m.kit m.kp = some p) (hfind : s.deep.find p.index x = some e)
include hmoves hentry hreads hpage hfind

/-- The read of one sector by the one move under way: the sector's own outcome, then the die's stalls and the move's retry
steps. -/
theorem promotionRead_one {r : SectorRead} {t : State}
    (ht : (s.countPages m p.index [(x, r)]).sectorRead m p.index (x, r) = t) : s.promotionRead m.kit m.kp [(x, r)] =
      ({ t with deep := t.deep.dieAlive (e.loc / 2 ^ 25) } : State).updMove m fun n =>
        { n with retries := if r == .retry then min 7 (n.retries + 1) else 0 } := by
  obtain ⟨d, tal, evs, -, hpages⟩ := countPages_counts s m p.index [(x, r)]
  have hsame : (s.countPages m p.index [(x, r)]).sameMove m = some m := by
    rw [hpages]
    simp [State.sameMove, hmoves]
  simp only [State.promotionRead, reading_of_one hmoves hentry hreads, hpage, forEach, hsame, ht]
  simp [hfind, hreads]

/-- A sector that decodes goes to the frame in the clear and is read (R262). -/
theorem promotionRead_good {f : Nat} (n : BitVec 8) (hframe : s.moveFrame m = some f) :
    ∃ d tal evs, ReadCounted s.deep d ∧ s.promotionRead m.kit m.kp [(x, .good n)] = { s with
      deep := d, tal := tal, evs := evs
      chordq := s.chordq ++ m.sectorQueued (s.movePayer m) f x (s.openSector m.kit m.kp e)
      moves := [{ m with reads := m.reads &&& ~~~ BitVec.ofNat 16 (2 ^ x.toNat), retries := 0 }] } := by
  obtain ⟨d, tal, evs, hcounted, hpages⟩ := countPages_counts s m p.index [(x, .good n)]
  obtain ⟨d', hcounted', hd'⟩ : ∃ d', ReadCounted d d' ∧
      (if d.refreshBer ≤ n.toNat then d.queueRefresh s.bar.beatno (blkOf e.loc) else d) = d' := by
    split
    · exact ⟨_, queueRefresh_counted .., rfl⟩
    · exact ⟨_, .refl d, rfl⟩
  have hsector : (s.countPages m p.index [(x, .good n)]).sectorRead m p.index (x, .good n) = { s with
      deep := d', tal := tal, evs := evs
      chordq := s.chordq ++ m.sectorQueued (s.movePayer m) f x (s.openSector m.kit m.kp e)
      moves := [{ m with reads := m.reads &&& ~~~ BitVec.ofNat 16 (2 ^ x.toNat) }] } := by
    have hfind' : d.find p.index x = some e := (hcounted.find p.index x).trans hfind
    rw [hpages, State.sectorRead]
    simp only [hreads, hfind', hd', Bool.not_true, Bool.false_eq_true, if_false]
    obtain ⟨_, _, _, _, _, rfl⟩ := hcounted
    exact sectorIn_of_one (f := f) x _ false hmoves hframe
  refine ⟨_, tal, evs, (hcounted.trans hcounted').trans (dieAlive_counted d' (e.loc / 2 ^ 25)), ?_⟩
  rw [promotionRead_one hmoves hentry hreads hpage hfind hsector]
  simp [State.updMove, updWhere]

/-- A sector whose hard decode failed is still to read, after one more retry step (R262, R264). -/
theorem promotionRead_retry : ∃ d tal evs, ReadCounted s.deep d ∧ s.promotionRead m.kit m.kp [(x, .retry)] = { s with
    deep := d, tal := tal, evs := evs, moves := [{ m with retries := min 7 (m.retries + 1) }] } := by
  obtain ⟨d, tal, evs, hcounted, hpages⟩ := countPages_counts s m p.index [(x, .retry)]
  have hsector : (s.countPages m p.index [(x, .retry)]).sectorRead m p.index (x, .retry) = { s with
      deep := d.queueRefresh s.bar.beatno (blkOf e.loc), tal := tal, evs := evs } := by
    have hfind' : d.find p.index x = some e := (hcounted.find p.index x).trans hfind
    rw [hpages, State.sectorRead]
    simp only [hreads, hfind', Bool.not_true, Bool.false_eq_true, if_false]
  refine ⟨_, tal, evs, (hcounted.trans (queueRefresh_counted d s.bar.beatno (blkOf e.loc))).trans
    (dieAlive_counted _ (e.loc / 2 ^ 25)), ?_⟩
  rw [promotionRead_one hmoves hentry hreads hpage hfind hsector]
  simp [State.updMove, updWhere, hmoves]

/-- An uncorrectable sector is lost, and 64 poison markers go to the frame (R266). -/
theorem promotionRead_uncorrectable {f : Nat} (hframe : s.moveFrame m = some f) : ∃ d tal evs,
    ReadCounted (s.deep.withLost e) d ∧ (evs[EvId.deep.ix]).bits.getLsbD 2 = true ∧
    s.promotionRead m.kit m.kp [(x, .uncorrectable)] = { s with
      deep := d, tal := tal, evs := evs
      chordq := s.chordq ++ m.sectorQueued (s.movePayer m) f x (List.replicate 64 none)
      moves := [{ m with reads := m.reads &&& ~~~ BitVec.ofNat 16 (2 ^ x.toNat)
                         lost := m.lost ||| BitVec.ofNat 16 (2 ^ x.toNat), retries := 0 }] } := by
  obtain ⟨d, tal, evs, hcounted, hpages⟩ := countPages_counts s m p.index [(x, .uncorrectable)]
  obtain ⟨d', hcounted', hlost⟩ := sectorLost_loses { s with deep := d, tal := tal, evs := evs } e
  have hevent : ((({ s with deep := d', tal := tal, evs := evs } : State).raise .deep 0x04).ev .deep).bits.getLsbD 2 =
      true := by
    simp [ev_raise_same]
  have hsector : (s.countPages m p.index [(x, .uncorrectable)]).sectorRead m p.index (x, .uncorrectable) =
      { ({ s with deep := d', tal := tal, evs := evs } : State).raise .deep 0x04 with
        chordq := s.chordq ++ m.sectorQueued (s.movePayer m) f x (List.replicate 64 none)
        moves := [{ m with reads := m.reads &&& ~~~ BitVec.ofNat 16 (2 ^ x.toNat)
                           lost := m.lost ||| BitVec.ofNat 16 (2 ^ x.toNat) }] } := by
    have hfind' : d.find p.index x = some e := (hcounted.find p.index x).trans hfind
    rw [hpages, State.sectorRead]
    simp only [hreads, hfind', hlost, Bool.not_true, Bool.false_eq_true, if_false]
    exact sectorIn_of_one (f := f) x _ true hmoves hframe
  refine ⟨_, tal, _, ((hcounted.withLost e).trans hcounted').trans (dieAlive_counted d' (e.loc / 2 ^ 25)), hevent, ?_⟩
  rw [promotionRead_one hmoves hentry hreads hpage hfind hsector]
  simp [State.updMove, updWhere, State.raise]

end

/-! ### NAND_PROGRAM_DONE (10 R261, R271; 09 R246, R247) -/

@[simp] theorem dieIdle_busy (s : State) (die : Fin 4) : ((s.dieIdle die).deep.dies[die]).busy = none := by
  simp [State.dieIdle]

theorem find_commit (d : Deep) (page : Nat) (x : BitVec 4) (loc : Nat) (cs : List (Option (List Byte))) :
    (d.commit page x loc cs).find page x = some ⟨page, x, loc, poisonMask cs⟩ :=
  find_setEnt_same _ ⟨page, x, loc, poisonMask cs⟩

/-- The page record of a sector written back: it is clean unless it was written since (09 R247). -/
def Page.writtenBack (p : Page) (x : BitVec 4) : Page :=
  { p with dirty := p.dirty &&& ~~~ (BitVec.ofNat 16 (2 ^ x.toNat) &&& ~~~ p.redirty) }

/-- The program of a sector that the one move under way writes back. -/
theorem sectorOut_writesBack {s : State} {m : Move} {x : BitVec 4} {why : Bool} (loc n : Nat) (hmoves : s.moves = [m])
    (hkind : m.kind = .writeBack why) (hprogs : m.progs.getLsbD x.toNat = true) : ∃ tier tal evs,
      s.sectorOut (m.kit, m.kp, x) loc n = { s with
        deep := s.deep.commit m.dest x loc (s.sealedSector m.kit m.kp x)
        moves := [{ m with progs := m.progs &&& ~~~ BitVec.ofNat 16 (2 ^ x.toNat) }]
        pages := updWhere (fun p => p.kit == m.kit && p.kp == m.kp) (·.writtenBack x) s.pages
        tier := tier, tal := tal, evs := evs } := by
  have hserves : s.progMove m.kit m.kp x = some m := by simp [State.progMove, hmoves, hprogs]
  have hupd (f : Move → Move) :
      updWhere (fun y : Move => y.kit == m.kit && y.kp == m.kp && y.kind == .writeBack why) f [m] = [f m] := by
    simp [updWhere, hkind]
  simp only [State.sectorOut, hserves, hkind, State.updMove, State.updPage, hmoves, hupd]
  obtain ⟨tal, evs, htally⟩ := tallyAt_changes _ _ _ _ _
  exact ⟨_, tal, evs, htally⟩

theorem programDone_good {s : State} {die : Fin 4} {payer : Option Kit} {y : Kit × KPage × BitVec 4} {loc : Nat}
    {t : State} (hbusy : (s.deep.dies[die]).busy = some (.program payer [y] loc))
    (ht : (s.dieIdle die).sectorOut y loc 1 = t) :
    s.programDone die true = { t with deep := { t.deep with programs := up32 t.deep.programs 1 } } := by
  subst ht
  rw [State.programDone, hbusy]
  rfl

theorem programDone_failed {s : State} {die : Fin 4} {payer : Option Kit} {ss : List (Kit × KPage × BitVec 4)} {loc : Nat}
    (hbusy : (s.deep.dies[die]).busy = some (.program payer ss loc)) :
    s.programDone die false = (s.dieIdle die).programAgain (.program payer ss loc) (blkOf loc) := by
  rw [State.programDone, hbusy]
  rfl

theorem programDone_idle {s : State} {die : Fin 4} (hbusy : (s.deep.dies[die]).busy = none) (good : Bool) :
    s.programDone die good = s := by
  simp only [State.programDone, hbusy]

/-- After a failed program the block is queued for retirement, wherever the sectors go next (R271). -/
theorem programAgain_retiring {s : State} {b : Nat} (op : DeepOp) (hretired : (s.deep.blk b).retired = false) :
    ((s.programAgain op b).deep.blk b).retiring = true := by
  have hqueued := queueRetire_retiring hretired
  unfold State.programAgain
  extract_lets s1
  split
  · exact hqueued
  · exact (queueAt_retiring ..).trans hqueued

/-! ### NAND_ERASE_DONE (10 R269, R271) -/

theorem eraseDone_good {s : State} {die : Fin 4} {b : Nat} (hbusy : (s.deep.dies[die]).busy = some (.erase b)) :
    s.eraseDone die true = { s.dieIdle die with deep := { (s.dieIdle die).deep.updBlk b (fun x => { x with
      reads := 0, erases := satAdd 16 x.erases 1, fill := 0, refresh := none }) with
        erases := up32 s.deep.erases 1 } } := by
  rw [State.eraseDone, hbusy]
  rfl

theorem eraseDone_failed {s : State} {die : Fin 4} {b : Nat} (hbusy : (s.deep.dies[die]).busy = some (.erase b)) :
    s.eraseDone die false = (s.dieIdle die).retireBlock b := by
  rw [State.eraseDone, hbusy]
  rfl

theorem eraseDone_idle {s : State} {die : Fin 4} (hbusy : (s.deep.dies[die]).busy = none) (good : Bool) :
    s.eraseDone die good = s := by
  simp only [State.eraseDone, hbusy]

theorem reserveFalls_reserve (s : State) (n : Nat) : (s.reserveFalls n).deep.reserve = s.deep.reserve - n := by
  unfold State.reserveFalls
  extract_lets old new d s1
  split <;> rfl

/-- A die's operation in progress stays when the count of its good blocks changes. -/
theorem busy_set_good (ds : Vector DeepDie 4) (i : Nat) (die : Fin 4) (good : Nat) :
    ((ds.set! i { ds.toList.getD i DeepDie.reset with good := good })[die]).busy = (ds[die]).busy := by
  by_cases hi : i = die.val <;> simp [hi]

/-- BLOCK_RETIRE takes a block out of use and the reserve (R271); only the Belfry's bitmap is written. -/
theorem retireBlock_retires {s : State} {b : Nat} (hretired : (s.deep.blk b).retired = false) :
    ((s.retireBlock b).deep.blk b).retired = true ∧ (s.retireBlock b).deep.reserve = s.deep.reserve - 1 ∧
      (∀ die : Fin 4, ((s.retireBlock b).deep.dies[die]).busy = (s.deep.dies[die]).busy) ∧
      (s.retireBlock b).deep.nand = s.deep.nand ∧ (s.retireBlock b).mram = s.mram := by
  unfold State.retireBlock
  extract_lets x dieIx dd d d1
  rw [if_neg (by simpa [x] using hretired)]
  have hreserve := reserveFalls_reserve { s with deep := d1 } 1
  obtain ⟨a, r, n, v, hfalls⟩ := reserveFalls_changes { s with deep := d1 } 1
  rw [hfalls] at hreserve ⊢
  refine ⟨?_, hreserve, fun die => busy_set_good s.deep.dies _ die _, rfl, rfl⟩
  exact (congrArg DeepBlk.retired (blk_updBlk_same (f := fun x => { x with
    retired := true, retiring := false, refresh := none }) s.deep b fun _ => rfl) :)

/-! ### The statement -/

theorem exec_promotionReadDone (k : Kit) (kp : KPage) (rs : List (BitVec 4 × SectorRead)) (s : State) :
    exec (.promotionReadDone k kp rs) s = .next (s.promotionRead k kp rs) := rfl
theorem exec_nandProgramDone (die : Fin 4) (good : Bool) (s : State) :
    exec (.nandProgramDone die good) s = .next (s.programDone die good) := rfl
theorem exec_nandEraseDone (die : Fin 4) (good : Bool) (s : State) :
    exec (.nandEraseDone die good) s = .next (s.eraseDone die good) := rfl

/-- Settles O40: a sector of a promotion read by `promotionRead_good`, `promotionRead_retry` and
`promotionRead_uncorrectable`; a write-back's program by `sectorOut_writesBack` or, failed, `programAgain_retiring`; an
erase by the block's record after it or, failed, `retireBlock_retires`. -/
theorem nandWork : Obligations.NandWork := by
  unfold Obligations.NandWork
  refine ⟨?promotion, ?program, fun s die => ⟨fun b hbusy => ?erase, fun hbusy => ?idle⟩⟩
  case promotion =>
    rintro s k kp m p x e hmoves rfl rfl hkind hentry hreads hpage hfind
    have hframe : s.moveFrame m = some (s.slotFrame m.dest) := by simp [State.moveFrame, hkind]
    obtain ⟨-, rfl⟩ := find_names hfind
    intro at_ left
    refine ⟨fun n hpoison => ?good, ?retry, ?uncorrectable, fun kq rs hother => ?unread⟩
    case good =>
      obtain ⟨d, tal, evs, hcounted, hread⟩ := promotionRead_good hmoves hentry hreads hpage hfind n hframe
      rw [exec_promotionReadDone, hread]
      refine ⟨_, _, rfl, rfl, rfl, sectorQueued_length (by simp [State.openSector, Deep.sectorChords]),
        fun i => sectorQueued_opened hpoison, hcounted.map, sameStores_of_eq rfl hcounted.nand rfl⟩
    case retry =>
      obtain ⟨d, tal, evs, hcounted, hread⟩ := promotionRead_retry hmoves hentry hreads hpage hfind
      rw [exec_promotionReadDone, hread]
      exact ⟨_, rfl, rfl, rfl, hcounted.map, sameStores_of_eq rfl hcounted.nand rfl⟩
    case uncorrectable =>
      obtain ⟨d, tal, evs, hcounted, hevent, hread⟩ :=
        promotionRead_uncorrectable hmoves hentry hreads hpage hfind hframe
      rw [exec_promotionReadDone, hread]
      refine ⟨_, _, rfl, rfl, rfl, sectorQueued_length List.length_replicate, fun q => sectorQueued_markers,
        (hcounted.find p.index e.sector).trans (find_withLost hfind), hevent, ?_, sameStores_of_eq rfl hcounted.nand rfl⟩
      obtain ⟨_, _, _, _, _, rfl⟩ := hcounted
      exact up32_one _
    case unread =>
      have hnone : s.reading m.kit kq = none := by simp [State.reading, hmoves, Ne.symm hother]
      rw [exec_promotionReadDone, promotionRead_unread rs hnone]
  case program =>
    rintro s die k kp x loc m payer hbusy hmoves rfl rfl hkind hprogs hwf cs bytes
    refine ⟨?programmed, fun hretired => ?programFailed⟩
    case programmed =>
      have hserved : m.progs.getLsbD x.toNat = true := by
        rw [hprogs, BitVec.getLsbD_ofNat, Nat.testBit_two_pow_self]
        simpa using x.isLt
      obtain ⟨tier, tal, evs, hout⟩ := sectorOut_writesBack (s := s.dieIdle die) loc 1 hmoves hkind hserved
      rw [exec_nandProgramDone, programDone_good hbusy hout]
      exact ⟨_, rfl, cellsRead_write _ _ hwf, fun a => cellGet_write_outside _ a _ hwf, find_commit ..,
        dieIdle_busy s die, by simp [hprogs], updWhere_page .., rfl, rfl⟩
    case programFailed =>
      have hretiring := programAgain_retiring (s := s.dieIdle die) (b := blkOf loc)
        (.program payer [(m.kit, m.kp, x)] loc) hretired
      obtain ⟨_, _, _, _, hagain⟩ :=
        programAgain_requeued (s.dieIdle die) (.program payer [(m.kit, m.kp, x)] loc) (blkOf loc)
      rw [exec_nandProgramDone, programDone_failed hbusy]
      rw [hagain] at hretiring ⊢
      exact ⟨_, rfl, rfl, hretiring, dieIdle_busy s die, rfl, sameStores_of_eq rfl rfl rfl⟩
  case erase =>
    refine ⟨?erased, fun hretired => ?eraseFailed⟩
    case erased =>
      have herased := blk_updBlk_same (f := fun x => { x with
        reads := 0, erases := satAdd 16 x.erases 1, fill := 0, refresh := none }) (s.dieIdle die).deep b fun _ => rfl
      rw [exec_nandEraseDone, eraseDone_good hbusy]
      exact ⟨_, rfl, congrArg DeepBlk.fill herased, congrArg DeepBlk.reads herased,
        (congrArg DeepBlk.erases herased).trans (Nat.min_comm _ _), congrArg DeepBlk.refresh herased, dieIdle_busy s die,
        up32_one _, sameStores_of_eq rfl rfl rfl⟩
    case eraseFailed =>
      obtain ⟨hgone, hreserve, hbusies, hnand, hmram⟩ := retireBlock_retires (s := s.dieIdle die) hretired
      rw [exec_nandEraseDone, eraseDone_failed hbusy]
      exact ⟨_, rfl, hgone, hreserve, (hbusies die).trans (dieIdle_busy s die), hnand, hmram⟩
  case idle =>
    rw [exec_nandEraseDone, eraseDone_idle hbusy, exec_nandProgramDone, programDone_idle hbusy]
    exact ⟨rfl, rfl⟩

end Sys2Proof.Machine

/-! PROOFS. READ of a chord whose value is at hand, with no token: what a pending write leaves its readers (11 R287, R288; 07
R171, R172). -/

namespace Sys2Proof.Machine

/-! ### What a pending write shows its readers (R287, R288) -/

section
variable {s : State} {k : Kit} {a : Nat} {w : Window}

theorem look_of_window (hwindow : s.windowAt k a = some w) (hkey : (s.kit (w.owner k a).1).keylost = false) :
    s.look k a = (w.owner k a, if (w.owner k a).1 == k then s.viewOwn (w.owner k a).1 (w.owner k a).2
      else s.viewOther (w.owner k a).1 (w.owner k a).2) := by
  simp [State.look, hwindow, hkey]

theorem look_own (hwindow : s.windowAt k a = some w) (hkey : (s.kit (w.owner k a).1).keylost = false)
    (hown : (w.owner k a).1 = k) : s.look k a = (w.owner k a, s.viewOwn (w.owner k a).1 (w.owner k a).2) :=
  (look_of_window hwindow hkey).trans (by rw [if_pos (beq_iff_eq.2 hown)])

theorem look_other (hwindow : s.windowAt k a = some w) (hkey : (s.kit (w.owner k a).1).keylost = false)
    (hother : (w.owner k a).1 ≠ k) : s.look k a = (w.owner k a, s.viewOther (w.owner k a).1 (w.owner k a).2) :=
  (look_of_window hwindow hkey).trans (by rw [if_neg (mt beq_iff_eq.1 hother)])

end

section
variable {s : State} {o : Kit} {a : Nat} {e : WEntry} (hentries : s.entriesOf o a = [e]) (hphase : e.phase ≠ .merging)
include hentries hphase

/-- After the Beat of its acceptance the Kit that writes sees the new bytes. -/
theorem viewOwn_entry (hmerge : s.mergeOf o a = none) (hprior : ∀ x ∈ s.priors, ¬ (x.1 = o ∧ x.2.1 = a)) :
    s.viewOwn o a = .val e.data := by
  have hnone : (s.priors.find? fun p => p.1 == o && p.2.1 == a) = none := by simpa using hprior
  simp [State.viewOwn, hnone, State.newest, hentries, hphase, hmerge, View.under]

/-- Every other Kit sees the pre-image. -/
theorem viewOther_preImage {d : List Byte} (hpre : e.pre = .have (some d)) : s.viewOther o a = .val d := by
  simp [State.viewOther, hentries, hphase, hpre]

theorem viewOther_poisoned (hpre : e.pre = .have none) : s.viewOther o a = .poison := by
  simp [State.viewOther, hentries, hphase, hpre]

end

/-- In the Beat of an acceptance the Kit that writes sees what the chord was before it. -/
theorem viewOwn_prior {s : State} {o : Kit} {a : Nat} {v : View} (hpriors : s.priors = [(o, a, v)]) : s.viewOwn o a = v := by
  simp [State.viewOwn, hpriors]

/-! ### The READ of a chord at hand (07 R171) -/

/-- The value of a view that needs no token and no waiting: bytes, or none where it is poisoned. -/
def View.atHand : View → Option (Option (List Byte))
  | .val d => some (some d)
  | .poison => some none
  | _ => none

/-- A READ that has taken one chord without a token. -/
def ReadJob.tookFree (q : ReadJob) (a : Nat) (x : Option (List Byte)) (near : Bool) : ReadJob :=
  { q with got := q.got ++ [(a, x)], todo := q.todo.filter fun y => y != a, allNear := q.allNear && near }

theorem accessed_hold (s : State) (k o : Kit) (a : Nat) : (s.accessed k o a).hold = s.hold := by
  unfold State.accessed
  split <;> rfl

section
variable {s : State} {k : Kit} {rid a : Nat} {q : ReadJob} {o : Kit × Nat} {v : View} {x : Option (List Byte)}
  (hhand : v.atHand = some x)
include hhand

theorem arrayChords_atHand {as : List Nat} (hlook : s.look k a = (o, v)) (hall : ∀ b ∈ as, b = a) :
    s.arrayChords k as = 0 := by
  unfold State.arrayChords
  rw [List.length_eq_zero_iff, List.filter_eq_nil_iff]
  intro b hb
  rw [hall b hb, hlook]
  cases v <;> simp [View.atHand] at hhand ⊢

/-- The chord at hand is taken, and no token asked for. -/
theorem readFree_atHand (hfind : s.findRead rid = some q) (htodo : q.todo = [a]) (hlook : s.look q.kit a = (o, v)) :
    s.readFree rid = s.readVal q o a x := by
  simp only [State.readFree, hfind, htodo, forEach, hlook]
  cases v <;> simp only [View.atHand, Option.some.injEq, reduceCtorEq] at hhand <;> subst hhand <;> rfl

/-- A READ of one chord at hand replies at once. -/
theorem readOn_atHand (fuel : Nat) (hfind : s.findRead rid = some q) (htodo : q.todo = [a])
    (hlook : s.look q.kit a = (o, v)) (hearly : q.early = 0) :
    ∃ (u t : State) (near : Bool), s.readOn rid (fuel + 1) =
        t.answer rid q.rq (some q.kit) (u.readAnswer (q.tookFree a x near)) ∧
      t.hold = s.hold ∧ t.inflight = s.inflight ∧ t.replies = s.replies ∧ SameStores s t := by
  let near := !s.readsZero o.1 o.2
  let u := s.readVal q o a x
  have hread : ChordRead s (s.accessed q.kit o.1 o.2) := accessed_chordRead s q.kit o.1 o.2
  have hfree : s.readFree rid = u := readFree_atHand hhand hfind htodo hlook
  have hfind' : u.findRead rid = some (q.tookFree a x near) := by
    have haccessed : (s.accessed q.kit o.1 o.2).findRead rid = some q := by
      rw [State.findRead, hread.reads]
      exact hfind
    have hrid : q.rid = rid := findRead_rid hfind
    subst hrid
    exact findRead_updRead (fun _ => rfl) haccessed
  have hdone : (q.tookFree a x near).todo = [] := by simp [ReadJob.tookFree, htodo]
  refine ⟨u, { u with reads := u.reads.filter fun y => y.rid != rid }, near, ?_, accessed_hold s q.kit o.1 o.2,
    hread.inflight, hread.replies, sameStores_trans hread.stores (sameStores_of_eq rfl rfl rfl)⟩
  rw [readOn_finishes (by rw [hfree, readToken_done hfind' hdone]), hfree, finishRead_ready hfind' hdone hearly]
  rfl

end

/-- A READ of one chord at hand begins with one look-up in the translation cache; its early form has no use (R300). -/
theorem startRead_atHand {s : State} {j : Job} {a : Nat} {o : Kit × Nat} {v : View} {x : Option (List Byte)}
    (hhand : v.atHand = some x) (hlen : j.rq.len.toNat ≠ 0) (hchords : chordsOf (addrOf j.rq) j.rq.len.toNat = [a])
    (hlook : s.look j.kit a = (o, v)) :
    ∃ cache misses, s.startRead j = (s.withReads
      (s.reads ++ [j.firstRead a (!s.tier.xcache.contains (o.1, kpOf o.2))]) cache misses).readOn j.rid 2 := by
  refine ⟨(s.lookup o.1 (kpOf o.2)).2.tier.xcache, (s.lookup o.1 (kpOf o.2)).2.tier.xcmiss, ?_⟩
  have hnone : s.arrayChords j.kit ([a].filter (s.earlyAt j.kit)) = 0 :=
    arrayChords_atHand hhand hlook fun b hb => List.mem_singleton.1 (List.mem_of_mem_filter hb)
  unfold State.startRead
  simp only [lenOf, beq_eq_false_iff_ne.2 hlen, hchords, hnone, List.map_cons, List.map_nil, hlook]
  simp only [bne_self_eq_false, Bool.and_false, Bool.false_and, Bool.false_eq_true, if_false]
  rfl

/-! ### Its reply (07 R172) -/

/-- STATUS and DETAIL of a READ of one chord at hand: OK, or POISONED with the chord and a count of 1. -/
def handResult (a : Nat) : Option (List Byte) → Nat × Nat
  | some _ => (0x00, 0)
  | none => (0x40, a % 2 ^ 39 + 2 ^ 40)

section
variable {j : Job} {a : Nat} {miss near : Bool} {x : Option (List Byte)}

theorem tookFree_value : ((j.firstRead a miss).tookFree a x near).value a = x := by
  simp [ReadJob.value, ReadJob.tookFree, Job.firstRead]

variable (hchords : chordsOf (addrOf j.rq) j.rq.len.toNat = [a])
include hchords

theorem tookFree_chords : ((j.firstRead a miss).tookFree a x near).chords = [a] := hchords

theorem tookFree_result : ((j.firstRead a miss).tookFree a x near).result = handResult a x := by
  have hclean : ((j.firstRead a miss).tookFree a x near).corr = [] := rfl
  cases x <;> simp [ReadJob.result, tookFree_chords hchords, tookFree_value, hclean, handResult, detAddr]

theorem tookFree_bytes :
    (((j.firstRead a miss).tookFree a x near).bytes fun b =>
      (((j.firstRead a miss).tookFree a x near).value b).getD (zeros 64)) =
      ((x.getD (zeros 64)).drop (addrOf j.rq % 64)).take j.rq.len.toNat := by
  simp only [ReadJob.bytes, tookFree_chords hchords, List.map_cons, List.map_nil, tookFree_value, List.flatten_cons,
    List.flatten_nil, List.append_nil]
  rfl

end

/-- A READ of one chord at hand: its reply, and what it leaves. -/
theorem execRead_atHand {s s1 : State} {rq : Req} {j : Job} {a : Nat} {o : Kit × Nat} {v : View}
    {x : Option (List Byte)} (htaken : s.taken rq = some (j, s1)) (hwf : (Instr.read rq).wf = true) (hlen : rq.len ≠ 0)
    (hchords : chordsOf (addrOf rq) rq.len.toNat = [a]) (hnew : s1.findRead j.rid = none)
    (hlook : s1.look j.kit a = (o, v)) (hhand : v.atHand = some x) :
    ∃ t, exec (.read rq) s = .next t ∧
      Replied s1 t j.rid rq (handResult a x).1 (handResult a x).2
        (((x.getD (zeros 64)).drop (addrOf rq % 64)).take rq.len.toNat) ∧
      t.hold = s1.hold ∧ SameStores s1 t := by
  have hrq := taken_rq htaken
  subst hrq
  have hlen' : j.rq.len.toNat ≠ 0 := fun h => hlen (BitVec.eq_of_toNat_eq h)
  obtain ⟨cache, misses, hstart⟩ := startRead_atHand hhand hlen' hchords hlook
  let q := j.firstRead a (!s1.tier.xcache.contains (o.1, kpOf o.2))
  have hfind : (s1.withReads (s1.reads ++ [q]) cache misses).findRead j.rid = some q := by
    have hnew' : s1.reads.find? (fun x => x.rid == j.rid) = none := hnew
    simp [State.findRead, State.withReads, List.find?_append, hnew', q, Job.firstRead]
  obtain ⟨u, t, near, hreads, hhold, hinflight, hreplies, hstores⟩ := readOn_atHand hhand 1 hfind rfl hlook rfl
  have hawaits : t.awaits j.rid = true ∨ j.rq.via = .i3c := by
    rw [awaits_of_inflight (s := s1) j.rid hinflight]
    exact taken_awaits htaken
  have hanswered := answer_replied t j.rid j.rq (some j.kit) (u.readAnswer (q.tookFree a x near)) hawaits
  have hresult : (q.tookFree a x near).result = handResult a x := tookFree_result hchords
  have hbytes : (u.readAnswer (q.tookFree a x near)).payload =
      ((x.getD (zeros 64)).drop (addrOf j.rq % 64)).take j.rq.len.toNat := tookFree_bytes hchords
  rw [← hresult]
  rw [hbytes] at hanswered
  exact ⟨_, (runReq_taken (fun j t => t.startRead j) htaken hwf).trans (congrArg _ (hstart.trans hreads)),
    hanswered.since hreplies, (answer_hold ..).trans hhold, sameStores_trans hstores (answer_countsOnly ..).stores⟩

/-! ### The statement -/

/-- Settles O34: each reader's view of the chord is at hand (`viewOwn_entry`, `viewOwn_prior`, `viewOther_preImage`,
`viewOther_poisoned`), and `execRead_atHand` gives the reply. -/
theorem readersOfAPendingWrite : Obligations.ReadersOfAPendingWrite := by
  unfold Obligations.ReadersOfAPendingWrite
  intro s s1 rq j a w e htaken hwf hlen hchords hnew hwindow o cut hkey hentries hphase hmerge
  refine ⟨fun hown hprior => ?own, fun d hown hpriors => ?prior, fun d hother hpre => ?preImage,
    fun hother hpre => ?poisoned⟩
  case own =>
    have hlook := (look_own hwindow hkey hown).trans
      (congrArg (Prod.mk o) (viewOwn_entry hentries hphase hmerge hprior))
    exact execRead_atHand htaken hwf hlen hchords hnew hlook rfl
  case prior =>
    have hlook := (look_own hwindow hkey hown).trans (congrArg (Prod.mk o) (viewOwn_prior hpriors))
    exact execRead_atHand htaken hwf hlen hchords hnew hlook rfl
  case preImage =>
    have hlook := (look_other hwindow hkey hother).trans
      (congrArg (Prod.mk o) (viewOther_preImage hentries hphase hpre))
    exact execRead_atHand htaken hwf hlen hchords hnew hlook rfl
  case poisoned =>
    have hlook := (look_other hwindow hkey hother).trans
      (congrArg (Prod.mk o) (viewOther_poisoned hentries hphase hpre))
    exact execRead_atHand htaken hwf hlen hchords hnew hlook rfl

end Sys2Proof.Machine

/-! PROOFS. CHORD_VERIFY of a data chord: confirmed, retried or recanted (11 R283 to R285; 08 R215). -/

namespace Sys2Proof.Machine

/-! ### Slices in the array -/

theorem cellsRead_congr {m m' : List Host.Cell} {a n : Nat} (h : ∀ x, a ≤ x → x < a + n → cellGet m x = cellGet m' x) :
    cellsRead m a n = cellsRead m' a n := by
  induction n generalizing a with
  | zero => rfl
  | succ n ih => rw [cellsRead, cellsRead, h a (by omega) (by omega), ih fun x hx hx' => h x (by omega) (by omega)]

/-- Slices of a chord on two dies do not overlap. -/
theorem sliceAddr_apart {d d' c : Nat} (_ : c < 2 ^ 28) (hne : d ≠ d') :
    sliceAddr d c + 8 ≤ sliceAddr d' c ∨ sliceAddr d' c + 8 ≤ sliceAddr d c := by
  unfold sliceAddr
  omega

section
variable {rep : Rep} {skip : Nat → Bool} {c : Nat} {sl : List (List Byte)} {ps : List Nat}

theorem storeSlices_cons {p : Nat} (m : List Host.Cell) (hp : p < 10) (hin : skip p = false) :
    storeSlices rep skip c sl (p :: ps) m =
      storeSlices rep skip c sl ps (cellsWrite m (sliceAddr (rep.physAt p c) c) ((sl.getD p []).take 8)) :=
  (storeSlices_append rep skip c sl [p] ps m).trans (by rw [storeSlices_one c sl m (by omega) hin])

variable (hroles : ∀ r ∈ ps, r < 10) (hin : ∀ r ∈ ps, skip r = false)
include hroles hin

/-- Storing slices leaves every byte outside them. -/
theorem cellGet_storeSlices_outside {m : List Host.Cell} {x : Nat} (hwf : cellsWf m = true)
    (hx : ∀ r ∈ ps, x < sliceAddr (rep.physAt r c) c ∨ sliceAddr (rep.physAt r c) c + 8 ≤ x) :
    cellGet (storeSlices rep skip c sl ps m) x = cellGet m x := by
  induction ps generalizing m with
  | nil => rfl
  | cons p ps ih =>
    simp only [List.mem_cons, forall_eq_or_imp] at hroles hin hx
    rw [storeSlices_cons m hroles.1 hin.1, ih hroles.2 hin.2 (cellsWf_write _ _ hwf) hx.2]
    have hlen := List.length_take_le 8 (sl.getD p [])
    exact cellGet_write_outside _ _ _ hwf (hx.1.imp_right fun h => by omega)

/-- Slices on distinct dies read back as stored. -/
theorem cellsRead_storeSlices {m : List Host.Cell} {r : Nat} (hc : c < 2 ^ 28) (hwf : cellsWf m = true)
    (hnodup : ps.Nodup) (hdies : ∀ p ∈ ps, ∀ q ∈ ps, rep.physAt p c = rep.physAt q c → p = q) (hr : r ∈ ps)
    (hlen : (sl.getD r []).length = 8) :
    cellsRead (storeSlices rep skip c sl ps m) (sliceAddr (rep.physAt r c) c) 8 = sl.getD r [] := by
  induction ps generalizing m with
  | nil => cases hr
  | cons p ps ih =>
    have hp := hroles p List.mem_cons_self
    have hinp := hin p List.mem_cons_self
    have hroles' : ∀ q ∈ ps, q < 10 := fun q hq => hroles q (List.mem_cons_of_mem p hq)
    have hin' : ∀ q ∈ ps, skip q = false := fun q hq => hin q (List.mem_cons_of_mem p hq)
    have hwf' := cellsWf_write (sliceAddr (rep.physAt p c) c) ((sl.getD p []).take 8) hwf
    obtain ⟨hfresh, hnodup'⟩ := List.nodup_cons.1 hnodup
    rw [storeSlices_cons m hp hinp]
    by_cases hpr : r = p
    · subst hpr
      have hkept : ∀ x, sliceAddr (rep.physAt r c) c ≤ x → x < sliceAddr (rep.physAt r c) c + 8 → ∀ q ∈ ps,
          x < sliceAddr (rep.physAt q c) c ∨ sliceAddr (rep.physAt q c) c + 8 ≤ x := by
        intro x hlo hhi q hq
        have hother : rep.physAt r c ≠ rep.physAt q c := fun h =>
          hfresh (hdies r List.mem_cons_self q (List.mem_cons_of_mem r hq) h ▸ hq)
        have hapart := sliceAddr_apart hc hother
        omega
      have hwhole : (sl.getD r []).take 8 = sl.getD r [] := List.take_of_length_le hlen.le
      rw [hwhole] at hwf' ⊢
      rw [cellsRead_congr fun x hlo hhi => cellGet_storeSlices_outside hroles' hin' hwf' (hkept x hlo hhi)]
      exact hlen ▸ cellsRead_write _ _ hwf
    · exact ih hroles' hin' hwf' hnodup'
        (fun q hq q' hq' => hdies q (List.mem_cons_of_mem p hq) q' (List.mem_cons_of_mem p hq'))
        ((List.mem_cons.1 hr).resolve_left hpr)

end

/-! ### The slices of a chord (13 R329, R330) -/

theorem encodeChord_length (d : List Byte) : (encodeChord d).length = 10 := by simp [encodeChord]

theorem xorBlock_length (a b : List Byte) : (xorBlock a b).length = 16 := by simp [xorBlock]

theorem sealed_length (s : State) (k : Kit) (a : Nat) (d : List Byte) : (s.sealed k a d).length = 64 :=
  (flatten_length (n := 16) _ (by simp [xorBlock_length])).trans (by simp)

theorem encodeChord_slice_length {d : List Byte} (hd : d.length = 64) {x : List Byte} (hx : x ∈ encodeChord d) :
    x.length = 8 := by
  simp only [encodeChord, List.mem_append, List.mem_map, List.mem_range, List.mem_cons, List.not_mem_nil, or_false] at hx
  obtain ⟨k, hk, rfl⟩ | rfl | rfl := hx
  · rw [dataSlice, List.length_take, List.length_drop]
    omega
  · simp
  · simp

theorem getD_slice_length {d : List Byte} (hd : d.length = 64) {r : Nat} (hr : r < 10) :
    ((encodeChord d).getD r []).length = 8 := by
  have hr' : r < (encodeChord d).length := by rwa [encodeChord_length]
  rw [List.getD_eq_getElem _ _ hr']
  exact encodeChord_slice_length hd (List.getElem_mem hr')

/-- With no failing slice an outcome stores the slices as they are. -/
theorem outcomeSlices_good {sl : List (List Byte)} (free : Nat) (hlen : sl.length = 10) : outcomeSlices sl 0 free = sl := by
  have hkeep : outcomeSlices sl 0 free = ((List.range 10).zip sl).map Prod.snd := by
    simp [outcomeSlices]
  rw [hkeep, List.map_snd_zip (by simp [hlen])]

/-! ### A chord that stands in the array (08 R215) -/

section
variable {s : State} {e : WEntry} {k : Kit} (hkind : e.kind = .data) (hpayer : e.payer = some k)
  (hmask : s.fullMask e.chord.toNat = 0x3FF)
include hkind hpayer hmask

theorem storeEntry_data_mram : (s.storeEntry e 0).mram = storeSlices s.rep (fun r => s.roleOut e.chord.toNat r)
    e.chord.toNat (encodeChord (s.sealed k e.kaddr e.data)) (List.range 10) s.mram := by
  have hslices : outcomeSlices (s.entrySlices e) 0 s.free = encodeChord (s.sealed k e.kaddr e.data) := by
    rw [State.entrySlices, hkind, hpayer]
    exact outcomeSlices_good _ (encodeChord_length _)
  have hroles : sliceList 0x3FF = List.range 10 := by decide
  have hstored : (s.storeEntry e 0).mram = storeSlices s.rep (fun r => s.roleOut e.chord.toNat r) e.chord.toNat
      (outcomeSlices (s.entrySlices e) 0 s.free) (sliceList (s.fullMask e.chord.toNat)) s.mram := rfl
  rw [hstored, hslices, hmask, hroles]

variable (hwf : cellsWf s.mram = true) (hin : ∀ r, r < 10 → s.roleOut e.chord.toNat r = false)
include hwf hin

/-- Every byte outside the chord's ten slices is as before. -/
theorem storeEntry_data_outside {x : Nat} (hx : ∀ r, r < 10 → x < sliceAddr (s.rep.physAt r e.chord.toNat) e.chord.toNat ∨
      sliceAddr (s.rep.physAt r e.chord.toNat) e.chord.toNat + 8 ≤ x) :
    cellGet (s.storeEntry e 0).mram x = cellGet s.mram x := by
  rw [storeEntry_data_mram hkind hpayer hmask]
  exact cellGet_storeSlices_outside (fun r hr => List.mem_range.1 hr) (fun r hr => hin r (List.mem_range.1 hr)) hwf
    fun r hr => hx r (List.mem_range.1 hr)

/-- Its ten slices are those of its data under the Kit's key. -/
theorem storeEntry_data_rawChord (hdies : ∀ r q, r < 10 → q < 10 →
      s.rep.physAt r e.chord.toNat = s.rep.physAt q e.chord.toNat → r = q) :
    (s.storeEntry e 0).rawChord e.chord.toNat = encodeChord (s.sealed k e.kaddr e.data) := by
  have hread : ∀ r ∈ List.range 10, (if s.roleOut e.chord.toNat r then zeros 8 else
      cellsRead (s.storeEntry e 0).mram (sliceAddr (s.rep.physAt r e.chord.toNat) e.chord.toNat) 8) =
      (encodeChord (s.sealed k e.kaddr e.data)).getD r [] := by
    intro r hr
    have hr10 := List.mem_range.1 hr
    rw [hin r hr10, if_neg Bool.false_ne_true, storeEntry_data_mram hkind hpayer hmask]
    exact cellsRead_storeSlices (fun q hq => List.mem_range.1 hq) (fun q hq => hin q (List.mem_range.1 hq))
      e.chord.isLt hwf List.nodup_range (fun p hp q hq => hdies p q (List.mem_range.1 hp) (List.mem_range.1 hq)) hr
      (getD_slice_length (sealed_length s k _ _) hr10)
  refine (List.map_congr_left hread).trans (List.ext_getElem (by simp [encodeChord_length]) fun i hi hi' => ?_)
  rw [List.getElem_map, List.getElem_range, List.getD_eq_getElem _ _ hi']

end

/-! ### Writes that are told an outcome (R293) -/

/-- From `s` to `t` writes were settled: the array, the repair state, the ECC and write counters and what waits stay, and no
event of the provisional writes is taken back. -/
structure SettleWork (s t : State) : Prop where
  mram : t.mram = s.mram
  rep : t.rep = s.rep
  pins : t.pins = s.pins
  ecc : t.ecc = s.ecc
  deep : t.deep = s.deep
  bel : t.bel = s.bel
  waits : t.waits = s.waits
  confirmed : t.provConfirmed = s.provConfirmed
  recanted : t.provRecanted = s.provRecanted
  events : ∀ n, (s.ev .prov).bits.getLsbD n = true → (t.ev .prov).bits.getLsbD n = true

/-- An update of other fields alone. -/
theorem SettleWork.of_eq {s t : State} (hmram : t.mram = s.mram := by rfl) (hrep : t.rep = s.rep := by rfl)
    (hpins : t.pins = s.pins := by rfl) (hecc : t.ecc = s.ecc := by rfl) (hdeep : t.deep = s.deep := by rfl)
    (hbel : t.bel = s.bel := by rfl) (hwaits : t.waits = s.waits := by rfl)
    (hconfirmed : t.provConfirmed = s.provConfirmed := by rfl) (hrecanted : t.provRecanted = s.provRecanted := by rfl)
    (hevents : t.ev .prov = s.ev .prov := by rfl) : SettleWork s t :=
  ⟨hmram, hrep, hpins, hecc, hdeep, hbel, hwaits, hconfirmed, hrecanted, fun n h => by rwa [hevents]⟩

theorem SettleWork.refl (s : State) : SettleWork s s := .of_eq

theorem SettleWork.trans {s t u : State} (hst : SettleWork s t) (htu : SettleWork t u) : SettleWork s u where
  mram := htu.mram.trans hst.mram
  rep := htu.rep.trans hst.rep
  pins := htu.pins.trans hst.pins
  ecc := htu.ecc.trans hst.ecc
  deep := htu.deep.trans hst.deep
  bel := htu.bel.trans hst.bel
  waits := htu.waits.trans hst.waits
  confirmed := htu.confirmed.trans hst.confirmed
  recanted := htu.recanted.trans hst.recanted
  events n h := htu.events n (hst.events n h)

theorem SettleWork.ite {s t u : State} {c : Prop} [Decidable c] (ht : SettleWork s t) (hu : SettleWork s u) :
    SettleWork s (if c then t else u) := by
  split
  · exact ht
  · exact hu

theorem setKit_settleWork (s : State) (k : Kit) (x : KitSt) : SettleWork s (s.setKit k x) := .of_eq

theorem updJob_settleWork (s : State) (rid : Nat) (f : WriteJob → WriteJob) : SettleWork s (s.updJob rid f) := .of_eq

theorem answer_settleWork (s : State) (rid : Nat) (rq : Req) (kit : Option Kit) (a : Answer) :
    SettleWork s (s.answer rid rq kit a) :=
  ⟨by simp, by simp, by simp, by simp, by simp, by simp, by simp, by simp, by simp, answer_events s rid rq kit a .prov⟩

theorem sendDev_settleWork (s : State) (p : DevPkt) : SettleWork s (s.sendDev p) :=
  .of_eq (by simp) (by simp) (by simp) (by simp) (by simp) (by simp) (by simp) (by simp) (by simp) (by simp [State.ev])

theorem tally_settleWork (s : State) (typ : Nat) (kit : Option Kit) (arg : Nat) : SettleWork s (s.tally typ kit arg) :=
  .of_eq (by simp) (by simp) (by simp) (by simp) (by simp) (by simp) (by simp) (by simp) (by simp)
    (tally_ev s typ kit arg (by decide))

theorem writeReply_settleWork (s : State) (j : WriteJob) : SettleWork s (s.writeReply j) := by
  unfold State.writeReply
  extract_lets wr cut rel _ noted
  have hnoted : SettleWork s noted := setKit_settleWork s j.kit _
  exact .ite (.ite (hnoted.trans (answer_settleWork noted _ _ _ _)) (answer_settleWork s _ _ _ _))
    (answer_settleWork s _ _ _ _)

theorem settleJob_settleWork (rid : Nat) (s : State) : SettleWork s (s.settleJob rid) := by
  unfold State.settleJob
  split
  · exact .refl s
  · extract_lets accepted resolved credited due replied told
    have hcredited : SettleWork s credited :=
      .ite ((setKit_settleWork s _ _).trans (updJob_settleWork _ _ _)) (.refl s)
    have hreplied : SettleWork s replied :=
      hcredited.trans (.ite ((writeReply_settleWork _ _).trans (updJob_settleWork _ _ _)) (.refl _))
    have htold : SettleWork s told := by
      refine hreplied.trans (.ite ?_ (.refl _))
      split
      · exact sendDev_settleWork _ _
      · exact .refl _
    exact .ite (htold.trans .of_eq) hreplied

theorem resolveJobs_settleWork (s : State) (rids : List Nat) (a : Nat) (recant : Bool) :
    SettleWork s (s.resolveJobs rids a recant) := by
  unfold State.resolveJobs
  extract_lets told
  have htold : SettleWork s told := .of_eq
  exact htold.trans (forEach_forall .refl (fun _ _ _ => .trans)
    (fun rid t => (updJob_settleWork t rid _).trans (settleJob_settleWork rid _)) rids told)

/-- The chord of a page that is re-homed goes to its destination through the queue of chords (09 R252). -/
theorem mirrorMove_queues (s : State) (o : Kit) (a : Nat) (v : Option (List Byte)) :
    ∃ q, s.mirrorMove o a v = { s with chordq := q } := by
  unfold State.mirrorMove
  split
  · split
    · exact ⟨_, rfl⟩
    · split <;> exact ⟨_, rfl⟩
  · exact ⟨_, rfl⟩

/-! ### The verify of a pulse (R283) -/

theorem waitsOver_none {s : State} (h : s.waits = []) : s.waitsOver = s := by
  rw [State.waitsOver, h]
  rfl

/-- With nothing that waits for its chords a verify is all that the row does. -/
theorem exec_chordVerify {ent : Nat} {failing : Slices} {s t : State} (hverify : s.verifyAt ent failing = t)
    (hwaits : t.waits = []) : exec (.chordVerify ent failing) s = .next t := by
  have hexec : exec (.chordVerify ent failing) s = .next (s.verifyAt ent failing).waitsOver := rfl
  rw [hexec, hverify, waitsOver_none hwaits]

section
variable {s : State} {e : WEntry} {p : Nat} {failing : Slices} (hhold : s.hold = [e]) (hphase : e.phase = .pulsed p)

section
variable (hrun : s.knl.running = false)
include hhold hphase hrun

theorem verifyAt_pulsed : s.verifyAt e.ent failing =
    if reached ((p + 2) % 2 ^ 48) s.bar.beatno then s.verifyEntry e failing else s := by
  simp only [State.verifyAt, hhold, List.find?_cons, beq_self_eq_true, hphase, hrun, Bool.false_and, Bool.false_or,
    Config.beatWrap]

theorem verifyAt_early (hdue : reached ((p + 2) % 2 ^ 48) s.bar.beatno = false) : s.verifyAt e.ent failing = s :=
  (verifyAt_pulsed hhold hphase hrun).trans (if_neg (Bool.eq_false_iff.1 hdue))

theorem verifyAt_due (hdue : reached ((p + 2) % 2 ^ 48) s.bar.beatno = true) :
    s.verifyAt e.ent failing = s.verifyEntry e failing :=
  (verifyAt_pulsed hhold hphase hrun).trans (if_pos hdue)

end

/-- The slices that a verify finds failing: of those pulsed, the ones that fail or give no answer (R283, 14 R359). -/
def State.badSlices (s : State) (e : WEntry) (failing : Slices) : Slices :=
  (failing ||| s.silentMask e.chord.toNat) &&& e.slices &&& s.pulsable e.chord.toNat

theorem verifyEntry_outcome (h : s.badSlices e failing = 0 ∨ 7 ≤ e.pulses) :
    s.verifyEntry e failing = s.outcome e (s.badSlices e failing) := by
  unfold State.verifyEntry
  exact if_pos (by simpa [State.badSlices] using h)

include hhold hphase in
/-- Before the seventh pulse the failing slices alone are retried. -/
theorem verifyEntry_retries (hbad : s.badSlices e failing ≠ 0) (hpulses : e.pulses < 7) :
    s.verifyEntry e failing =
      { s with hold := [{ e with slices := s.badSlices e failing, phase := .retry ((p + 3) % 2 ^ 48) }] } := by
  have hno : ¬ (s.badSlices e failing == 0 || decide (7 ≤ e.pulses)) = true := by
    simpa using ⟨hbad, hpulses⟩
  unfold State.verifyEntry
  refine (if_neg hno).trans ?_
  simp [hhold, hphase, updWhere, Config.beatWrap, State.badSlices]

end

/-! ### The outcome of a data chord (R284, R285) -/

theorem carryPre_empty {s : State} (h : s.hold = []) (o : Option Kit) (a : Nat) (v : Option (List Byte)) :
    { s with hold := carryPre s o a v } = s := by
  have hsame : carryPre s o a v = s.hold := by simp [carryPre, updWhere, h]
  rw [hsame]

theorem freeEntry_hold {s : State} {e : WEntry} (h : s.hold = [e]) : (s.freeEntry e).hold = [] := by
  simp [State.freeEntry, h]

section
variable {s : State} {e : WEntry} {k : Kit} (hkind : e.kind = .data) (hpayer : e.payer = some k)
include hkind hpayer

section
variable (hhold : s.hold = [])
include hhold

theorem concluded_confirmed (failing : Slices) : ∃ q, s.concluded e true false failing =
    { s with chordq := q }.resolveJobs e.rids e.kaddr false := by
  obtain ⟨q, hmirror⟩ := mirrorMove_queues s k e.kaddr (some e.data)
  refine ⟨q, ?_⟩
  simp only [State.concluded, hkind, hpayer, carryPre_empty hhold, hmirror, if_true, Bool.false_eq_true, if_false]

theorem concluded_recanted (weak : Bool) (failing : Slices) : ∃ (q : _) (sync : Bool) (arg : Nat),
    s.concluded e false weak failing = (({ s with chordq := q }.recantKit k e.kaddr e.chord.toNat sync).tally 0x11 (some k)
      arg).resolveJobs e.rids e.kaddr true := by
  obtain ⟨q, hmirror⟩ := mirrorMove_queues s k e.kaddr none
  refine ⟨q, { s with chordq := q }.allSync e.rids, e.kaddr % 2 ^ 40 + 2 ^ 40 * e.pulses, ?_⟩
  simp only [State.concluded, hkind, hpayer, carryPre_empty hhold, hmirror, Bool.false_eq_true, if_false]

end

variable (hhold : s.hold = [e])
include hhold

/-- With every slice good the chord is stored and counted, its entry free, and its writes are told. -/
theorem outcome_confirms : ∃ u : State, s.outcome e 0 = u.resolveJobs e.rids e.kaddr false ∧ u.hold = [] ∧
    u.mram = (s.storeEntry e 0).mram ∧ u.rep = s.rep ∧ u.pins = s.pins ∧ u.deep = s.deep ∧ u.bel = s.bel ∧
    u.waits = s.waits ∧ u.provConfirmed = up32 s.provConfirmed 1 := by
  unfold State.outcome
  extract_lets c ok weak good stored marks ecc confirmed
  have hfree : confirmed.hold = [] := freeEntry_hold (s := s.storeEntry e 0) hhold
  obtain ⟨q, hconcluded⟩ := concluded_confirmed hkind hpayer hfree 0
  exact ⟨{ confirmed with chordq := q }, hconcluded, hfree, rfl, rfl, rfl, rfl, rfl, rfl, rfl⟩

/-- With two slices failing, or a die out of service, the chord is recanted and its writes are told. -/
theorem outcome_recants {bad : Slices} (hbad : bad ≠ 0)
    (hmany : 2 ≤ sliceCount bad ∨ s.dieOutAt e.chord.toNat = true) : ∃ (u : State) (sync : Bool) (arg : Nat),
      s.outcome e bad =
        ((u.recantKit k e.kaddr e.chord.toNat sync).tally 0x11 (some k) arg).resolveJobs e.rids e.kaddr true ∧
      u.hold = [] ∧ u.kits = s.kits ∧ u.waits = s.waits ∧ u.provRecanted = s.provRecanted := by
  unfold State.outcome
  extract_lets c ok weak good stored marks ecc failed
  have hok : ok = false := beq_eq_false_iff_ne.2 hbad
  have hweak : weak = false := by
    obtain h | h := hmany
    · have hone : (sliceCount bad == 1) = false := beq_eq_false_iff_ne.2 (by omega)
      simp [weak, hone]
    · have hout : s.dieOutAt c = true := h
      simp [weak, hout]
  have hgood : good = false := by simp [good, hok, hweak]
  have hfree : failed.hold = [] := freeEntry_hold (s := s.storeEntry e bad) hhold
  obtain ⟨q, sync, arg, hconcluded⟩ := concluded_recanted hkind hpayer hfree weak bad
  rw [hgood, hconcluded]
  exact ⟨{ failed with chordq := q }, sync, arg, rfl, hfree, rfl, rfl, rfl⟩

end

/-! #### A recant (R285) -/

theorem queueMarker_changes (s : State) (c : Nat) :
    ∃ q, s.queueMarker c = { s with ecc := { s.ecc with markq := q } } ∧ BitVec.ofNat 28 c ∈ q := by
  unfold State.queueMarker
  split
  · next h => exact ⟨s.ecc.markq, rfl, by simpa using h⟩
  · exact ⟨_, rfl, by simp⟩

/-- The event, the poison marker and the count of a recant. -/
theorem recantKit_records (s : State) (k : Kit) (a c : Nat) (sync : Bool) :
    ((s.recantKit k a c sync).ev .prov).bits.getLsbD 0 = true ∧
      BitVec.ofNat 28 c ∈ (s.recantKit k a c sync).ecc.markq ∧
      (s.recantKit k a c sync).provRecanted = up32 s.provRecanted 1 ∧
      (s.recantKit k a c sync).waits = s.waits := by
  unfold State.recantKit
  extract_lets s1 ecc s2
  obtain ⟨q, hmarker, hmarked⟩ := queueMarker_changes ((s2.raise .prov 0x01).nearDrop k a) c
  obtain ⟨l, hrec, -⟩ := queueRec_changes (((s2.raise .prov 0x01).nearDrop k a).queueMarker c) (.recant k)
  have hevent : ((s2.raise .prov 0x01).ev .prov).bits.getLsbD 0 = true := by
    rw [ev_raise_same]
    simp
  rw [hrec, hmarker]
  exact ⟨hevent, hmarked, rfl, rfl⟩

theorem recantKit_krectot (s : State) (k : Kit) (a c : Nat) (sync : Bool) :
    ((s.recantKit k a c sync).kit k).krectot = up32 (s.kit k).krectot 1 :=
  ((recantKit_sameWrites s k a c sync).recants k).trans (by rw [kit_setKit, KitSt.recant])

/-! ### The statement -/

/-- Settles O37: confirmed by `outcome_confirms` with the chord stored (`storeEntry_data_rawChord`,
`storeEntry_data_outside`), retried by `verifyEntry_retries`, recanted by `outcome_recants` with its records
(`recantKit_records`). -/
theorem chordVerify : Obligations.ChordVerify := by
  unfold Obligations.ChordVerify
  intro s e k p failing hhold hkind hpayer hphase hrun hwaits _ hwf c bad at_
  refine ⟨fun hdue => ?early, fun hdue hgood hin hdies hmask => ?confirmed, fun hdue hbad hpulses => ?retried,
    fun hdue hbad hpulses hmany => ?recanted⟩
  case early =>
    exact exec_chordVerify (verifyAt_early hhold hphase hrun hdue) hwaits
  case confirmed =>
    have hall : s.badSlices e failing = 0 := hgood
    obtain ⟨u, houtcome, hfree, hmram, hrep, hpins, hdeep, hbel, hwaits', hcount⟩ := outcome_confirms hkind hpayer hhold
    have hverify : s.verifyAt e.ent failing = u.resolveJobs e.rids e.kaddr false := by
      rw [verifyAt_due hhold hphase hrun hdue, verifyEntry_outcome (.inl hall), hall, houtcome]
    have hsettled := resolveJobs_settleWork u e.rids e.kaddr false
    have hstored : (u.resolveJobs e.rids e.kaddr false).mram = (s.storeEntry e 0).mram := hsettled.mram.trans hmram
    refine ⟨_, exec_chordVerify hverify (hsettled.waits.trans (hwaits'.trans hwaits)),
      (resolveJobs_sameWrites u e.rids e.kaddr false).hold.trans hfree, ?_, fun x hx => ?_,
      (hsettled.confirmed.trans hcount).trans (up32_one _), congrArg Deep.nand (hsettled.deep.trans hdeep),
      congrArg Bel.mem (hsettled.bel.trans hbel)⟩
    · rw [← storeEntry_data_rawChord hkind hpayer hmask hwf hin hdies]
      unfold State.rawChord State.roleOut
      rw [hstored, hsettled.rep.trans hrep, hsettled.pins.trans hpins]
      rfl
    · rw [hstored]
      exact storeEntry_data_outside hkind hpayer hmask hwf hin hx
  case retried =>
    exact exec_chordVerify ((verifyAt_due hhold hphase hrun hdue).trans (verifyEntry_retries hhold hphase hbad hpulses))
      hwaits
  case recanted =>
    obtain ⟨u, sync, arg, houtcome, hfree, hkits, hwaits', hcount⟩ := outcome_recants hkind hpayer hhold hbad hmany
    let recanted := u.recantKit k e.kaddr c sync
    let told := recanted.tally 0x11 (some k) arg
    have hverify : s.verifyAt e.ent failing = told.resolveJobs e.rids e.kaddr true := by
      rw [verifyAt_due hhold hphase hrun hdue, verifyEntry_outcome (.inr hpulses)]
      exact houtcome
    obtain ⟨hevent, hmarked, hrecants, hwaiting⟩ := recantKit_records u k e.kaddr c sync
    have hsettled : SettleWork recanted (told.resolveJobs e.rids e.kaddr true) :=
      (tally_settleWork _ _ _ _).trans (resolveJobs_settleWork told _ _ _)
    have hkept : SameWrites recanted (told.resolveJobs e.rids e.kaddr true) :=
      (tally_sameWrites _ _ _ _).trans (resolveJobs_sameWrites told _ _ _)
    have hkit : (u.kit k).krectot = (s.kit k).krectot := by rw [State.kit, State.kit, hkits]
    refine ⟨_, exec_chordVerify hverify (hsettled.waits.trans (hwaiting.trans (hwaits'.trans hwaits))), ?_, ?_,
      hsettled.events 0 hevent, ?_, ?_⟩
    · exact (hkept.hold.trans (recantKit_sameWrites u k e.kaddr c sync).hold).trans hfree
    · rw [hkept.recants k, recantKit_krectot, hkit, up32_one]
    · rw [hsettled.ecc]
      exact (BitVec.ofNat_toNat 28 e.chord).trans (BitVec.setWidth_eq e.chord) ▸ hmarked
    · rw [hsettled.recanted, hrecants, hcount, up32_one]

end Sys2Proof.Machine

namespace Sys2Proof.Machine

/-! ### Instruction words (12 R307, R312) -/

theorem b2n_le_one (b : Bool) : b2n b ≤ 1 := by cases b <;> decide

theorem regBits_le (r : GReg) : Rud.regBits r ≤ 7 := Nat.le_of_lt_succ r.isLt

theorem ringBits_le_one (r : Ring) : Rud.ringBits r ≤ 1 := by cases r <;> decide

theorem tgtBits_le (t : Tgt) : Rud.tgtBits t ≤ 3 := by cases t <;> decide

theorem tgt3Bits_le (t : Tgt3) : Rud.tgt3Bits t ≤ 3 := by cases t <;> decide

/-! What the fields of a word hold, of an instruction with opcode `op` and fields `f`. The bounds are found by `omega` where a
field is read. -/

section
variable {i : RudInstr} {op f n : Nat} (hi : Rud.fields i = (op, f)) (lo : Nat)
include hi

theorem encode_opcode (hop : op < 64 := by omega) (hf : f < 2 ^ 26 := by omega) :
    (Rud.fld (Rud.encode i) 26 6).toNat = op := by
  rw [Rud.fld, BitVec.extractLsb'_toNat, Rud.encode, hi, BitVec.toNat_ofNat, Nat.shiftRight_eq_div_pow]
  simp only
  omega

theorem encode_fld (x : BitVec n) (hin : lo + n ≤ 26 := by omega)
    (hx : f / 2 ^ lo % 2 ^ n = x.toNat := by omega) : Rud.fld (Rud.encode i) lo n = x := by
  apply BitVec.eq_of_toNat_eq
  rw [← hx, Rud.fld, BitVec.extractLsb'_toNat, Rud.encode, hi, BitVec.toNat_ofNat, Nat.shiftRight_eq_div_pow]
  refine Nat.eq_of_testBit_eq fun k => ?_
  simp only [Nat.testBit_mod_two_pow, Nat.testBit_div_two_pow]
  by_cases hk : k < n
  · have hlow : k + lo < 26 := by omega
    have hword : k + lo < 32 := by omega
    have hbits : ((op * 2 ^ 26 + f) % 2 ^ 26).testBit (k + lo) = (f % 2 ^ 26).testBit (k + lo) := by
      rw [Nat.mul_add_mod_self_right]
    simp only [Nat.testBit_mod_two_pow, hlow, decide_true, Bool.true_and] at hbits
    simp only [hk, hword, decide_true, Bool.true_and, hbits]
  · simp [hk]

theorem encode_nat (n v : Nat) (hin : lo + n ≤ 26 := by omega) (hx : f / 2 ^ lo % 2 ^ n = v := by omega) :
    Rud.fld (Rud.encode i) lo n = BitVec.ofNat n v :=
  encode_fld hi lo _ hin (by rw [← hx, BitVec.toNat_ofNat, Nat.mod_mod])

theorem encode_reg (r : GReg) (hin : lo + 3 ≤ 26 := by omega)
    (hx : f / 2 ^ lo % 2 ^ 3 = Rud.regBits r := by omega) : Rud.reg (Rud.encode i) lo = r := by
  have hfld : Rud.fld (Rud.encode i) lo 3 = BitVec.ofFin r := encode_fld hi lo _ hin hx
  rw [Rud.reg, hfld]

theorem encode_flag (b : Bool) (hin : lo + 1 ≤ 26 := by omega) (hx : f / 2 ^ lo % 2 ^ 1 = b2n b := by omega) :
    Rud.flag (Rud.fld (Rud.encode i) lo 1) = b := by
  cases b
  · rw [encode_fld hi lo 0 hin hx]; rfl
  · rw [encode_fld hi lo 1 hin hx]; rfl

theorem encode_clear (hin : lo + 1 ≤ 26 := by omega) (hx : f / 2 ^ lo % 2 ^ 1 = 0 := by omega) :
    Rud.flag (Rud.fld (Rud.encode i) lo 1) = false := encode_flag hi lo false hin hx

theorem encode_set (hin : lo + 1 ≤ 26 := by omega) (hx : f / 2 ^ lo % 2 ^ 1 = 1 := by omega) :
    Rud.flag (Rud.fld (Rud.encode i) lo 1) = true := encode_flag hi lo true hin hx

theorem encode_ring (r : Ring) (hin : lo + 1 ≤ 26 := by omega)
    (hx : f / 2 ^ lo % 2 ^ 1 = Rud.ringBits r := by omega) : Rud.ring (Rud.fld (Rud.encode i) lo 1) = r := by
  cases r
  · rw [encode_fld hi lo 0 hin hx]; rfl
  · rw [encode_fld hi lo 1 hin hx]; rfl

theorem encode_tgt (t : Tgt) (hin : lo + 2 ≤ 26 := by omega)
    (hx : f / 2 ^ lo % 2 ^ 2 = Rud.tgtBits t := by omega) : Rud.tgt (Rud.fld (Rud.encode i) lo 2) = some t := by
  cases t
  · rw [encode_fld hi lo 1 hin hx]; rfl
  · rw [encode_fld hi lo 2 hin hx]; rfl

theorem encode_tgt3 (t : Tgt3) (hin : lo + 2 ≤ 26 := by omega)
    (hx : f / 2 ^ lo % 2 ^ 2 = Rud.tgt3Bits t := by omega) : Rud.tgt3 (Rud.fld (Rud.encode i) lo 2) = some t := by
  cases t
  · rw [encode_fld hi lo 1 hin hx]; rfl
  · rw [encode_fld hi lo 2 hin hx]; rfl
  · rw [encode_fld hi lo 3 hin hx]; rfl

end

section
-- one after another: the equations of `Rud.decode`, which every lemma here unfolds, are then worked out once
set_option Elab.async false
variable (rd ra rs : GReg) (t : BitVec 12) (c : BitVec 4)

theorem decode_encode_seti (hi : Bool) (imm : BitVec 16) :
    Rud.decode (Rud.encode (.seti rd hi imm)) = some (.seti rd hi imm) := by
  have hrd := regBits_le rd
  have hhi := b2n_le_one hi
  have hf : Rud.fields (.seti rd hi imm) = (_, _) := rfl
  simp [Rud.decode, Rud.need, encode_opcode hf, encode_nat hf 16 6 0, encode_reg hf 23 rd, encode_flag hf 22 hi,
    encode_fld hf 0 imm]

theorem decode_encode_addi (imm : BitVec 16) :
    Rud.decode (Rud.encode (.addi rd rs imm)) = some (.addi rd rs imm) := by
  have hrd := regBits_le rd
  have hrs := regBits_le rs
  have hf : Rud.fields (.addi rd rs imm) = (_, _) := rfl
  simp [Rud.decode, Rud.need, encode_opcode hf, encode_nat hf 16 4 0, encode_reg hf 23 rd, encode_reg hf 20 rs,
    encode_fld hf 0 imm]

theorem decode_encode_mov : Rud.decode (Rud.encode (.mov rd rs)) = some (.mov rd rs) := by
  have hrd := regBits_le rd
  have hrs := regBits_le rs
  have hf : Rud.fields (.mov rd rs) = (_, _) := rfl
  simp [Rud.decode, Rud.need, encode_opcode hf, encode_nat hf 0 20 0, encode_reg hf 23 rd, encode_reg hf 20 rs]

theorem decode_encode_loop (count : RegOrImm 12) {len : BitVec 10} (hlen : len ≠ 0) :
    Rud.decode (Rud.encode (.loop count len)) = some (.loop count len) := by
  cases count with
  | imm n =>
    have hf : Rud.fields (.loop (.imm n) len) = (_, _) := rfl
    simpa [Rud.decode, Rud.need, encode_opcode hf, encode_fld hf 12 len, encode_clear hf 25, encode_nat hf 22 3 0,
      encode_fld hf 0 n] using hlen
  | reg r =>
    have hr := regBits_le r
    have hf : Rud.fields (.loop (.reg r) len) = (_, _) := rfl
    simpa [Rud.decode, Rud.need, encode_opcode hf, encode_fld hf 12 len, encode_set hf 25, encode_nat hf 0 12 0,
      encode_reg hf 22 r] using hlen

theorem decode_encode_br (cond : BrCond) (hwf : (RudInstr.br cond rs t).wf = true) :
    Rud.decode (Rud.encode (.br cond rs t)) = some (.br cond rs t) := by
  have hrs := regBits_le rs
  cases cond with
  | always =>
    obtain rfl : rs = 0 := by simpa [RudInstr.wf] using hwf
    have hzero : Rud.regBits 0 = 0 := rfl
    have hf : Rud.fields (.br .always 0 t) = (_, _) := rfl
    simp [Rud.decode, Rud.need, encode_opcode hf, encode_nat hf 12 9 0, encode_nat hf 24 2 0, encode_nat hf 21 3 0,
      encode_fld hf 0 t]
  | zero =>
    have hf : Rud.fields (.br .zero rs t) = (_, _) := rfl
    simp [Rud.decode, encode_opcode hf, encode_nat hf 12 9 0, encode_nat hf 24 2 1, encode_reg hf 21 rs, encode_fld hf 0 t]
  | nonzero =>
    have hf : Rud.fields (.br .nonzero rs t) = (_, _) := rfl
    simp [Rud.decode, encode_opcode hf, encode_nat hf 12 9 0, encode_nat hf 24 2 2, encode_reg hf 21 rs, encode_fld hf 0 t]

theorem decode_encode_brs (neg cls : Bool) (status : BitVec 8) :
    Rud.decode (Rud.encode (.brs neg cls status t)) = some (.brs neg cls status t) := by
  have hneg := b2n_le_one neg
  have hcls := b2n_le_one cls
  have hf : Rud.fields (.brs neg cls status t) = (_, _) := rfl
  simp [Rud.decode, Rud.need, encode_opcode hf, encode_nat hf 12 4 0, encode_flag hf 25 neg, encode_flag hf 24 cls,
    encode_fld hf 16 status, encode_fld hf 0 t]

theorem decode_encode_call : Rud.decode (Rud.encode (.call t)) = some (.call t) := by
  have hf : Rud.fields (.call t) = (_, _) := rfl
  simp [Rud.decode, Rud.need, encode_opcode hf, encode_nat hf 12 14 0, encode_fld hf 0 t]

theorem decode_encode_waitb (count : RegOrImm 20) :
    Rud.decode (Rud.encode (.waitb count)) = some (.waitb count) := by
  cases count with
  | imm n =>
    have hf : Rud.fields (.waitb (.imm n)) = (_, _) := rfl
    simp [Rud.decode, Rud.need, encode_opcode hf, encode_nat hf 20 2 0, encode_clear hf 25, encode_nat hf 22 3 0,
      encode_fld hf 0 n]
  | reg r =>
    have hr := regBits_le r
    have hf : Rud.fields (.waitb (.reg r)) = (_, _) := rfl
    simp [Rud.decode, Rud.need, encode_opcode hf, encode_nat hf 20 2 0, encode_set hf 25, encode_nat hf 0 20 0,
      encode_reg hf 22 r]

theorem decode_encode_waitu (m : Bool) (u : BitVec 10) (hwf : (RudInstr.waitu m u).wf = true) :
    Rud.decode (Rud.encode (.waitu m u)) = some (.waitu m u) := by
  have hm := b2n_le_one m
  have hf : Rud.fields (.waitu m u) = (_, _) := rfl
  simpa [Rud.decode, Rud.need, encode_opcode hf, encode_nat hf 10 15 0, encode_flag hf 25 m, encode_fld hf 0 u,
    RudInstr.wf, imp_iff_not_or] using hwf

theorem decode_encode_waitbar {n : BitVec 16} (hn : n ≠ 0) :
    Rud.decode (Rud.encode (.waitbar n)) = some (.waitbar n) := by
  have hf : Rud.fields (.waitbar n) = (_, _) := rfl
  simpa [Rud.decode, Rud.need, encode_opcode hf, encode_nat hf 16 10 0, encode_fld hf 0 n] using hn

theorem decode_encode_fetch (tgt : Tgt) (dl : Bool) :
    Rud.decode (Rud.encode (.fetch ra tgt c dl)) = some (.fetch ra tgt c dl) := by
  have hra := regBits_le ra
  have htgt := tgtBits_le tgt
  have hdl := b2n_le_one dl
  have hf : Rud.fields (.fetch ra tgt c dl) = (_, _) := rfl
  simp [Rud.decode, Rud.need, encode_opcode hf, encode_tgt hf 21 tgt, encode_nat hf 0 16 0, encode_reg hf 23 ra,
    encode_fld hf 17 c, encode_flag hf 16 dl]

theorem decode_encode_stream (rb : GReg) (node : Node) (ring : Ring) (dl : Bool) :
    Rud.decode (Rud.encode (.stream ra rb node ring c dl)) = some (.stream ra rb node ring c dl) := by
  have hra := regBits_le ra
  have hrb := regBits_le rb
  have hring := ringBits_le_one ring
  have hdl := b2n_le_one dl
  have hf : Rud.fields (.stream ra rb node ring c dl) = (_, _) := rfl
  simp [Rud.decode, Rud.need, encode_opcode hf, encode_nat hf 0 9 0, encode_reg hf 23 ra, encode_reg hf 20 rb,
    encode_fld hf 15 node, encode_ring hf 14 ring, encode_fld hf 10 c, encode_flag hf 9 dl]

theorem decode_encode_pin (tgt : Tgt) : Rud.decode (Rud.encode (.pin ra tgt c)) = some (.pin ra tgt c) := by
  have hra := regBits_le ra
  have htgt := tgtBits_le tgt
  have hf : Rud.fields (.pin ra tgt c) = (_, _) := rfl
  simp [Rud.decode, Rud.need, encode_opcode hf, encode_tgt hf 21 tgt, encode_nat hf 0 17 0, encode_reg hf 23 ra,
    encode_fld hf 17 c]

theorem decode_encode_unpin (tgt : Tgt3) : Rud.decode (Rud.encode (.unpin ra tgt c)) = some (.unpin ra tgt c) := by
  have hra := regBits_le ra
  have htgt := tgt3Bits_le tgt
  have hf : Rud.fields (.unpin ra tgt c) = (_, _) := rfl
  simp [Rud.decode, Rud.need, encode_opcode hf, encode_tgt3 hf 21 tgt, encode_nat hf 0 17 0, encode_reg hf 23 ra,
    encode_fld hf 17 c]

theorem decode_encode_hintEvict (tgt : Tgt3) :
    Rud.decode (Rud.encode (.hintEvict ra tgt c)) = some (.hintEvict ra tgt c) := by
  have hra := regBits_le ra
  have htgt := tgt3Bits_le tgt
  have hf : Rud.fields (.hintEvict ra tgt c) = (_, _) := rfl
  simp [Rud.decode, Rud.need, encode_opcode hf, encode_tgt3 hf 21 tgt, encode_nat hf 0 17 0, encode_reg hf 23 ra,
    encode_fld hf 17 c]

theorem decode_encode_deadline (m : DlMode) : Rud.decode (Rud.encode (.deadline m)) = some (.deadline m) := by
  cases m with
  | imm n =>
    have hf : Rud.fields (.deadline (.imm n)) = (_, _) := rfl
    simp [Rud.decode, Rud.need, encode_opcode hf, encode_nat hf 20 1 0, encode_nat hf 24 2 0, encode_nat hf 21 3 0,
      encode_fld hf 0 n]
  | reg r =>
    have hr := regBits_le r
    have hf : Rud.fields (.deadline (.reg r)) = (_, _) := rfl
    simp [Rud.decode, Rud.need, encode_opcode hf, encode_nat hf 20 1 0, encode_nat hf 24 2 1, encode_nat hf 0 20 0,
      encode_reg hf 21 r]
  | clear => decide

theorem decode_encode_policy (full : Bool) (pol : Policy) :
    Rud.decode (Rud.encode (.policy full pol)) = some (.policy full pol) := by
  cases full <;> cases pol <;> decide

theorem decode_encode_signal (node : Node) (ring : Ring) (code : BitVec 8) :
    Rud.decode (Rud.encode (.signal node ring rs code)) = some (.signal node ring rs code) := by
  have hrs := regBits_le rs
  have hring := ringBits_le_one ring
  have hf : Rud.fields (.signal node ring rs code) = (_, _) := rfl
  simp [Rud.decode, Rud.need, encode_opcode hf, encode_nat hf 8 9 0, encode_fld hf 21 node, encode_ring hf 20 ring,
    encode_reg hf 17 rs, encode_fld hf 0 code]

end

/-- Every instruction that Table 12.2 allows reads back from its word. -/
theorem decode_encode (i : RudInstr) (hwf : i.wf = true) : Rud.decode (Rud.encode i) = some i := by
  cases i with
  | halt => decide
  | nop => decide
  | seti rd hi imm => exact decode_encode_seti rd hi imm
  | addi rd rs imm => exact decode_encode_addi rd rs imm
  | mov rd rs => exact decode_encode_mov rd rs
  | loop count len => exact decode_encode_loop count (by simpa [RudInstr.wf] using hwf)
  | br cond rs t => exact decode_encode_br rs t cond hwf
  | brs neg cls status t => exact decode_encode_brs t neg cls status
  | call t => exact decode_encode_call t
  | ret => decide
  | waitb n => exact decode_encode_waitb n
  | waitu m u => exact decode_encode_waitu m u hwf
  | waitbar n => exact decode_encode_waitbar (by simpa [RudInstr.wf] using hwf)
  | fetch ra tgt c dl => exact decode_encode_fetch ra c tgt dl
  | stream ra rb node ring c dl => exact decode_encode_stream ra c rb node ring dl
  | pin ra tgt c => exact decode_encode_pin ra c tgt
  | unpin ra tgt c => exact decode_encode_unpin ra c tgt
  | hintEvict ra tgt c => exact decode_encode_hintEvict ra c tgt
  | deadline m => exact decode_encode_deadline m
  | policy full pol => exact decode_encode_policy full pol
  | signal node ring rs code => exact decode_encode_signal rs node ring code

/-! ### Packet headers (06 R139) -/

/-- A one-bit field read as a flag. -/
theorem flag_of_bit {n : Nat} {b : Bool} (h : n = b2n b) : (n == 1) = b := by
  subst h; cases b <;> decide

/-- The header of a request as a number. -/
theorem hdrOf_toNat (rq : Req) : (hdrOf rq).toNat =
    rq.opc.toNat + 2 ^ 8 * b2n rq.early + 2 ^ 9 * b2n rq.nowait + 2 ^ 10 * b2n rq.sync + 2 ^ 11 * b2n rq.reply
      + 2 ^ 12 * rq.ktag.toNat + 2 ^ 16 * rq.snode.toNat + 2 ^ 21 * b2n rq.ringBit + 2 ^ 22 * rq.prio.toNat
      + 2 ^ 24 * rq.dnode.toNat + 2 ^ 32 * rq.seq.toNat + 2 ^ 48 * rq.len.toNat + 2 ^ 64 * rq.param.toNat := by
  have hearly := b2n_le_one rq.early
  have hnowait := b2n_le_one rq.nowait
  have hsync := b2n_le_one rq.sync
  have hreply := b2n_le_one rq.reply
  have hring := b2n_le_one rq.ringBit
  rw [hdrOf, hdrNat, prm, BitVec.toNat_ofNat]
  omega

/-- Every packet header reads back from its sixteen bytes. -/
theorem reqOfBytes_hdrOf (rq : Req) :
    reqOfBytes (leBytes 16 (hdrOf rq).toNat) rq.via rq.src = { rq with payload := [] } := by
  have hvalue : leNat ((leBytes 16 (hdrOf rq).toNat).take 16) = (hdrOf rq).toNat := by
    rw [List.take_of_length_le (length_leBytes _ _).le, leNat_leBytes]
    exact Nat.mod_eq_of_lt (hdrOf rq).isLt
  have hearly := b2n_le_one rq.early
  have hnowait := b2n_le_one rq.nowait
  have hsync := b2n_le_one rq.sync
  have hreply := b2n_le_one rq.reply
  have hring := b2n_le_one rq.ringBit
  rw [reqOfBytes, hvalue, hdrOf_toNat]
  simp only [Req.mk.injEq, and_true]
  refine ⟨?opc, ?ktag, flag_of_bit (by omega), flag_of_bit (by omega), flag_of_bit (by omega), flag_of_bit (by omega), ?snode,
    flag_of_bit (by omega), ?prio, ?dnode, ?seq, ?len, ?param⟩
  all_goals
    apply BitVec.eq_of_toNat_eq
    rw [BitVec.toNat_ofNat]
    omega

/-- Settles O60: words by `decode_encode`, case by instruction, and headers by `reqOfBytes_hdrOf`. -/
theorem wordsReadBack : Obligations.WordsReadBack := ⟨decode_encode, reqOfBytes_hdrOf⟩

end Sys2Proof.Machine

namespace Sys2Proof.Machine

/-! ### The field of the chord code (13 R328) -/

/-- A doubling is a shift, reduced where it carries. -/
theorem gfDouble_shift : ∀ x < 256, gfDouble x = x <<< 1 ^^^ (if x.testBit 7 then 0x11D else 0) := by decide +kernel

theorem gfDouble_lt : ∀ x < 256, gfDouble x < 256 := by decide +kernel

theorem gfDouble_xor {a b : Nat} (ha : a < 256) (hb : b < 256) : gfDouble (a ^^^ b) = gfDouble a ^^^ gfDouble b := by
  have hab : a ^^^ b < 256 := Nat.xor_lt_two_pow (n := 8) ha hb
  rw [gfDouble_shift _ hab, gfDouble_shift a ha, gfDouble_shift b hb, Nat.shiftLeft_xor_distrib, Nat.testBit_xor]
  cases a.testBit 7 <;> cases b.testBit 7 <;> simp [Nat.xor_assoc, Nat.xor_left_comm, Nat.xor_comm]

theorem gfShift_lt {x : Nat} (n : Nat) (hx : x < 256) : gfShift n x < 256 := by
  induction n generalizing x with
  | zero => exact hx
  | succ n ih => exact ih (gfDouble_lt x hx)

theorem gfShift_zero (n : Nat) : gfShift n 0 = 0 := by
  induction n with
  | zero => rfl
  | succ n ih => exact ih

theorem gfShift_xor {a b : Nat} (n : Nat) (ha : a < 256) (hb : b < 256) :
    gfShift n (a ^^^ b) = gfShift n a ^^^ gfShift n b := by
  induction n generalizing a b with
  | zero => rfl
  | succ n ih => rw [gfShift, gfDouble_xor ha hb, ih (gfDouble_lt a ha) (gfDouble_lt b hb), ← gfShift, ← gfShift]

theorem gfMul_lt {a : Nat} (b : Nat) (ha : a < 256) : gfMul a b < 256 := by
  have hbits : ∀ n a b, a < 256 → gfMulBits n a b < 256 := by
    intro n
    induction n with
    | zero => exact fun a b _ => Nat.zero_lt_succ _
    | succ n ih =>
      intro a b ha
      refine Nat.xor_lt_two_pow (n := 8) ?_ (ih _ _ (gfDouble_lt a ha))
      split
      · exact ha
      · decide
  exact hbits 8 a b ha

/-- Of the powers that a position can have, one moves a syndrome to a given place. -/
theorem find_position : ∀ r < 10, ∀ e < 256, e ≠ 0 →
    (List.range 10).find? (fun l => gfShift (9 - l) e == gfShift (9 - r) e) = some r := by decide +kernel

/-! ### Syndromes (R331) -/

/-- One step of the second syndrome. -/
def horner (a x : Nat) : Nat := gfDouble a ^^^ x

theorem syndromes_eq (c : List Nat) : syndromes c = (c.foldl (fun a x => a ^^^ x) 0, c.foldl horner 0) := rfl

theorem horner_lt {a x : Nat} (ha : a < 256) (hx : x < 256) : horner a x < 256 :=
  Nat.xor_lt_two_pow (n := 8) (gfDouble_lt a ha) hx

theorem foldl_horner_lt {c : List Nat} {a : Nat} (ha : a < 256) (hc : ∀ x ∈ c, x < 256) : c.foldl horner a < 256 := by
  induction c generalizing a with
  | nil => exact ha
  | cons x xs ih =>
    exact ih (horner_lt ha (hc x List.mem_cons_self)) fun y hy => hc y (List.mem_cons_of_mem x hy)

theorem foldl_xor (c : List Nat) (a e : Nat) :
    c.foldl (fun a x => a ^^^ x) (a ^^^ e) = c.foldl (fun a x => a ^^^ x) a ^^^ e := by
  induction c generalizing a with
  | nil => rfl
  | cons x xs ih => rw [List.foldl_cons, List.foldl_cons, ← ih, Nat.xor_assoc, Nat.xor_assoc, Nat.xor_comm e]

/-- A difference in what stands before some symbols is shifted past them. -/
theorem foldl_horner_xor {c : List Nat} {a e : Nat} (ha : a < 256) (he : e < 256) (hc : ∀ x ∈ c, x < 256) :
    c.foldl horner (a ^^^ e) = c.foldl horner a ^^^ gfShift c.length e := by
  induction c generalizing a e with
  | nil => rfl
  | cons x xs ih =>
    have hstep : horner (a ^^^ e) x = horner a x ^^^ gfDouble e := by
      rw [horner, horner, gfDouble_xor ha he, Nat.xor_assoc, Nat.xor_comm (gfDouble e), ← Nat.xor_assoc]
    rw [List.foldl_cons, List.foldl_cons, hstep,
      ih (horner_lt ha (hc x List.mem_cons_self)) (gfDouble_lt e he) fun y hy => hc y (List.mem_cons_of_mem x hy)]
    rfl

/-- What one wrong symbol does to the syndromes. -/
theorem syndromes_set {w : List Nat} {r x : Nat} (hlen : w.length = 10) (hr : r < 10) (hx : x < 256)
    (hw : ∀ y ∈ w, y < 256) (hgood : syndromes w = (0, 0)) :
    syndromes (w.set r x) = (w.getD r 0 ^^^ x, gfShift (9 - r) (w.getD r 0 ^^^ x)) := by
  have hin : r < w.length := by omega
  generalize hold : w.getD r 0 = y
  rw [List.getD_eq_getElem _ _ hin] at hold
  have hy : y < 256 := hold ▸ hw _ (List.getElem_mem hin)
  generalize he : y ^^^ x = e
  have hxe : x = y ^^^ e := by rw [← he, Nat.xor_xor_cancel_left]
  have hlt : e < 256 := he ▸ Nat.xor_lt_two_pow (n := 8) hy hx
  have hsplit : w = w.take r ++ y :: w.drop (r + 1) := by rw [← hold]; simp
  have hset : w.set r x = w.take r ++ x :: w.drop (r + 1) := List.set_eq_take_append_cons_drop.trans (if_pos hin)
  have hbefore : (w.take r).foldl horner 0 < 256 :=
    foldl_horner_lt (by decide) fun z hz => hw z (List.mem_of_mem_take hz)
  have hafter : ∀ z ∈ w.drop (r + 1), z < 256 := fun z hz => hw z (List.mem_of_mem_drop hz)
  have hpast : (w.drop (r + 1)).length = 9 - r := by rw [List.length_drop, hlen]; omega
  rw [syndromes_eq, Prod.mk.injEq, hsplit] at hgood
  simp only [List.foldl_append, List.foldl_cons] at hgood
  obtain ⟨hs0, hs1⟩ := hgood
  rw [syndromes_eq, hset]
  simp only [List.foldl_append, List.foldl_cons]
  have hstep : horner ((w.take r).foldl horner 0) x = horner ((w.take r).foldl horner 0) y ^^^ e := by
    rw [hxe, horner, horner, Nat.xor_assoc]
  rw [hstep, foldl_horner_xor (horner_lt hbefore hy) hlt hafter, hs1, hxe, ← Nat.xor_assoc, foldl_xor, hs0, hpast,
    Nat.zero_xor, Nat.zero_xor]

/-! ### Check symbols (R330) -/

/-- Pairs of check contributions, each of which brings both syndromes of its symbol to 0. -/
def PairsGood : List (Nat × Nat) → Prop
  | [] => True
  | p :: ps => (∀ x < 256, x ^^^ gfMul x p.1 ^^^ gfMul x p.2 = 0 ∧
      gfShift (ps.length + 2) x ^^^ gfDouble (gfMul x p.1) ^^^ gfMul x p.2 = 0) ∧ PairsGood ps

theorem checkPairs_good : PairsGood checkPairs := by
  simp only [checkPairs, PairsGood, and_true]
  decide +kernel

/-- One symbol's contribution to the check symbols. -/
def checkStep (acc : Nat × Nat) (p : Nat × Nat × Nat) : Nat × Nat :=
  (acc.1 ^^^ gfMul p.1 p.2.1, acc.2 ^^^ gfMul p.1 p.2.2)

theorem checkSyms_eq (m : List Nat) : checkSyms m = (m.zip checkPairs).foldl checkStep (0, 0) := rfl

/-- Symbols and their check contributions keep both sums at 0. -/
theorem checkStep_cancels {ps : List (Nat × Nat)} {m : List Nat} (hps : PairsGood ps) (hlen : m.length = ps.length)
    (hm : ∀ x ∈ m, x < 256) {sum h : Nat} {acc : Nat × Nat} (hh : h < 256) (hacc : acc.1 < 256 ∧ acc.2 < 256)
    (h0 : sum ^^^ acc.1 ^^^ acc.2 = 0) (h1 : gfShift (ps.length + 2) h ^^^ gfDouble acc.1 ^^^ acc.2 = 0) :
    let r := (m.zip ps).foldl checkStep acc
    m.foldl (fun a x => a ^^^ x) sum ^^^ r.1 ^^^ r.2 = 0 ∧
      gfShift 2 (m.foldl horner h) ^^^ gfDouble r.1 ^^^ r.2 = 0 ∧ r.1 < 256 ∧ r.2 < 256 := by
  induction ps generalizing m sum h acc with
  | nil =>
    obtain rfl : m = [] := List.length_eq_zero_iff.1 hlen
    exact ⟨h0, h1, hacc⟩
  | cons p ps ih =>
    cases m with
    | nil => simp at hlen
    | cons x xs =>
      obtain ⟨hp, hps'⟩ := hps
      have hx := hm x List.mem_cons_self
      obtain ⟨hp0, hp1⟩ := hp x hx
      have ha := gfMul_lt p.1 hx
      have hb := gfMul_lt p.2 hx
      refine ih hps' (Nat.succ.inj hlen) (fun y hy => hm y (List.mem_cons_of_mem x hy)) (horner_lt hh hx)
        ⟨Nat.xor_lt_two_pow (n := 8) hacc.1 ha, Nat.xor_lt_two_pow (n := 8) hacc.2 hb⟩ ?_ ?_
      · calc (sum ^^^ x) ^^^ (acc.1 ^^^ gfMul x p.1) ^^^ (acc.2 ^^^ gfMul x p.2)
            = (sum ^^^ acc.1 ^^^ acc.2) ^^^ (x ^^^ gfMul x p.1 ^^^ gfMul x p.2) := by ac_rfl
          _ = 0 := by rw [h0, hp0, Nat.xor_self]
      · have hsplit : gfShift (ps.length + 2) (horner h x) =
            gfShift (ps.length + 3) h ^^^ gfShift (ps.length + 2) x := gfShift_xor _ (gfDouble_lt h hh) hx
        calc gfShift (ps.length + 2) (horner h x) ^^^ gfDouble (acc.1 ^^^ gfMul x p.1) ^^^ (acc.2 ^^^ gfMul x p.2)
            = (gfShift (ps.length + 3) h ^^^ gfDouble acc.1 ^^^ acc.2) ^^^
                (gfShift (ps.length + 2) x ^^^ gfDouble (gfMul x p.1) ^^^ gfMul x p.2) := by
              rw [hsplit, gfDouble_xor hacc.1 ha]; ac_rfl
          _ = 0 := by rw [hp1, Nat.xor_zero]; exact h1

/-- A codeword: eight data symbols and their check symbols (R330). -/
def codeword (m : List Nat) : List Nat := m ++ [(checkSyms m).1, (checkSyms m).2]

section
variable {m : List Nat} (hlen : m.length = 8) (hm : ∀ x ∈ m, x < 256)
include hlen hm

theorem checkSyms_lt : (checkSyms m).1 < 256 ∧ (checkSyms m).2 < 256 :=
  (checkStep_cancels checkPairs_good hlen hm (sum := 0) (h := 0) (acc := (0, 0)) (by decide) (by decide) (by decide)
    (by decide)).2.2

theorem codeword_lt : ∀ x ∈ codeword m, x < 256 := by
  obtain ⟨h1, h2⟩ := checkSyms_lt hlen hm
  simp only [codeword, List.mem_append, List.mem_cons, List.not_mem_nil, or_false]
  rintro x (hx | rfl | rfl)
  · exact hm x hx
  · exact h1
  · exact h2

/-- A codeword as written has both syndromes 0. -/
theorem syndromes_codeword : syndromes (codeword m) = (0, 0) := by
  have hdata : m.foldl horner 0 < 256 := foldl_horner_lt (by decide) hm
  obtain ⟨h0, h1, hr, -⟩ := checkStep_cancels checkPairs_good hlen hm (sum := 0) (h := 0) (acc := (0, 0)) (by decide)
    (by decide) (by decide) (by decide)
  rw [← checkSyms_eq] at h0 h1 hr
  rw [syndromes_eq, codeword, List.foldl_append, List.foldl_append]
  refine Prod.ext h0 ?_
  have hlast : horner (horner (m.foldl horner 0) (checkSyms m).1) (checkSyms m).2 =
      gfShift 2 (m.foldl horner 0) ^^^ gfDouble (checkSyms m).1 ^^^ (checkSyms m).2 := by
    rw [horner, horner, gfDouble_xor (gfDouble_lt _ hdata) hr]
    rfl
  exact hlast.trans h1

end

/-! ### One codeword (R331, Table 13.3) -/

theorem take_codeword {m : List Nat} (hlen : m.length = 8) : (codeword m).take 8 = m := by simp [codeword, ← hlen]

/-- The difference found in one symbol puts it right. -/
theorem fixSym_set {w : List Nat} {r x : Nat} (hr : r < w.length) : fixSym (w.set r x) r (w.getD r 0 ^^^ x) = w := by
  have hold : w.getD r 0 = w[r] := List.getD_eq_getElem _ _ hr
  have hnew : (w.set r x).getD r 0 = x := by
    rw [List.getD_eq_getElem _ _ (by rwa [List.length_set]), List.getElem_set_self]
  rw [fixSym, hnew, List.set_set, hold, Nat.xor_comm, Nat.xor_xor_cancel_right, List.set_getElem_self]

theorem fixSym_zero (w : List Nat) (r : Nat) : fixSym w r 0 = w := by
  rw [fixSym, Nat.xor_zero]
  by_cases hr : r < w.length
  · rw [List.getD_eq_getElem _ _ hr, List.set_getElem_self]
  · exact List.set_eq_of_length_le (by omega)

/-- A codeword that decodes to its data. -/
def Decodes (outs w m : List Nat) : Prop := (decodeCw outs w).syms = m ∧ (decodeCw outs w).cls ≠ .uncorr

theorem decodes_of_eq {outs w m : List Nat} {cls : CClass} {pos : Option Nat} (h : decodeCw outs w = ⟨cls, m, pos⟩)
    (hcls : cls ≠ .uncorr) : Decodes outs w m := by
  rw [Decodes, h]
  exact ⟨rfl, hcls⟩

section
variable {m : List Nat} (hlen : m.length = 8) (hm : ∀ x ∈ m, x < 256)
include hlen hm

theorem decodeCw_codeword : decodeCw [] (codeword m) = ⟨.clean, m, none⟩ := by
  simp [decodeCw, syndromes_codeword hlen hm, take_codeword hlen]

section
variable {r : Nat} (hr : r < 10)
include hr

theorem syndromes_one_wrong {x : Nat} (hx : x < 256) : syndromes ((codeword m).set r x) =
    ((codeword m).getD r 0 ^^^ x, gfShift (9 - r) ((codeword m).getD r 0 ^^^ x)) :=
  syndromes_set (by simp [codeword, hlen]) hr hx (codeword_lt hlen hm) (syndromes_codeword hlen hm)

/-- Whatever stands in one symbol, the codeword decodes to its data. -/
theorem decodes_one_wrong {x : Nat} (hx : x < 256) : Decodes [] ((codeword m).set r x) m := by
  have hin : r < (codeword m).length := by simp [codeword, hlen, hr]
  have hfix := fixSym_set (x := x) hin
  have hsyn := syndromes_one_wrong hlen hm hr hx
  have hlt : (codeword m).getD r 0 ^^^ x < 256 := by
    rw [List.getD_eq_getElem _ _ hin]
    exact Nat.xor_lt_two_pow (n := 8) (codeword_lt hlen hm _ (List.getElem_mem hin)) hx
  generalize (codeword m).getD r 0 ^^^ x = e at hfix hsyn hlt
  by_cases he : e = 0
  · have hsame : (codeword m).set r x = codeword m := by rwa [he, fixSym_zero] at hfix
    rw [hsame]
    exact decodes_of_eq (decodeCw_codeword hlen hm) (by decide)
  · have hfind := find_position r hr e hlt he
    by_cases h8 : r < 8
    · have hout : decodeCw [] ((codeword m).set r x) = ⟨.data, m, some r⟩ := by
        simp [decodeCw, hsyn, he, hfind, h8, hfix, take_codeword hlen]
      exact decodes_of_eq hout (by decide)
    · have htake : ((codeword m).set r x).take 8 = m := by
        rw [List.take_set, List.set_eq_of_length_le (by rw [take_codeword hlen]; omega), take_codeword hlen]
      have hout : decodeCw [] ((codeword m).set r x) = ⟨.check, m, some r⟩ := by
        simp [decodeCw, hsyn, he, hfind, h8, htake]
      exact decodes_of_eq hout (by decide)

/-- With one symbol missing the codeword decodes to its data. -/
theorem decodes_one_out : Decodes [r] ((codeword m).set r 0) m := by
  have hin : r < (codeword m).length := by simp [codeword, hlen, hr]
  have hfix := fixSym_set (x := 0) hin
  have hsyn := syndromes_one_wrong hlen hm hr (x := 0) (by decide)
  generalize (codeword m).getD r 0 ^^^ 0 = e at hfix hsyn
  by_cases he : e = 0
  · have hsame : (codeword m).set r 0 = codeword m := by rwa [he, fixSym_zero] at hfix
    have hout : decodeCw [r] ((codeword m).set r 0) = ⟨.clean, m, none⟩ := by
      simp [decodeCw, hsame, syndromes_codeword hlen hm, gfShift_zero, take_codeword hlen]
    exact decodes_of_eq hout (by decide)
  · have hout : decodeCw [r] ((codeword m).set r 0) = ⟨.erased, m, none⟩ := by
      simp [decodeCw, hsyn, he, hfix, take_codeword hlen]
    exact decodes_of_eq hout (by decide)

end

end

/-! ### A chord (R329, R332) -/

/-- The data symbols of codeword `i` of a chord. -/
def dataSyms (d : List Byte) (i : Nat) : List Nat := (List.range 8).map fun k => byteAt d (8 * k + i)

theorem byteAt_lt (l : List Byte) (i : Nat) : byteAt l i < 256 := (l.getD i 0).isLt

theorem dataSyms_lt (d : List Byte) (i : Nat) : ∀ x ∈ dataSyms d i, x < 256 := by
  simp only [dataSyms, List.mem_map]
  rintro x ⟨k, -, rfl⟩
  exact byteAt_lt d _

theorem byteAt_dataSlice (d : List Byte) (k : Nat) {i : Nat} (hi : i < 8) :
    byteAt (dataSlice d k) i = byteAt d (8 * k + i) := by
  simp [byteAt, dataSlice, List.getD_eq_getElem?_getD, hi, List.getElem?_drop]

/-- Each codeword of an encoded chord is one of its data and check symbols. -/
theorem symbols_encodeChord (d : List Byte) {i : Nat} (hi : i < 8) :
    (encodeChord d).map (fun x => byteAt x i) = codeword (dataSyms d i) := by
  obtain ⟨h1, h2⟩ := checkSyms_lt (m := dataSyms d i) (by simp [dataSyms]) (dataSyms_lt d i)
  simp only [encodeChord, codeword, List.map_append, List.map_map, List.map_cons, List.map_nil]
  congr 1
  · exact List.map_congr_left fun k _ => byteAt_dataSlice d k hi
  · simp only [byteAt, List.getD_eq_getElem?_getD, List.getElem?_map, List.getElem?_range hi, Option.map_some,
      Option.getD_some, List.cons.injEq, and_true]
    exact ⟨Nat.mod_eq_of_lt h1, Nat.mod_eq_of_lt h2⟩

/-- The bytes of a chord, codeword by codeword. -/
theorem data_of_symbols {d : List Byte} (hd : d.length = 64) :
    ((List.range 8).map fun k => (List.range 8).map fun i => BitVec.ofNat 8 ((dataSyms d i).getD k 0)).flatten = d := by
  have hbyte : ∀ k ∈ List.range 8, ∀ i, BitVec.ofNat 8 ((dataSyms d i).getD k 0) = d.getD (8 * k + i) 0 := by
    intro k hk i
    simp [dataSyms, byteAt, List.getD_eq_getElem?_getD, List.mem_range.1 hk]
  calc ((List.range 8).map fun k => (List.range 8).map fun i => BitVec.ofNat 8 ((dataSyms d i).getD k 0)).flatten
      = (((List.range 8).map fun k => (List.range 8).map fun i => 8 * k + i).flatten).map fun n => d.getD n 0 := by
        rw [List.map_flatten, List.map_map]
        refine congrArg List.flatten (List.map_congr_left fun k hk => ?_)
        simp only [hbyte k hk, Function.comp_apply, List.map_map]
        rfl
    _ = (List.range 64).map fun n => d.getD n 0 := rfl
    _ = d := by
        refine List.ext_getElem (by simp [hd]) fun n hn hn' => ?_
        rw [List.getElem_map, List.getElem_range, List.getD_eq_getElem _ _ hn']

theorem max_ne_uncorr {a b : CClass} (ha : a ≠ .uncorr) (hb : b ≠ .uncorr) : a.max b ≠ .uncorr := by
  unfold CClass.max
  split
  · exact hb
  · exact ha

theorem foldl_max_ne_uncorr {cws : List CwOut} (h : ∀ c ∈ cws, c.cls ≠ .uncorr) {a : CClass} (ha : a ≠ .uncorr) :
    cws.foldl (fun a c => a.max c.cls) a ≠ .uncorr := by
  induction cws generalizing a with
  | nil => exact ha
  | cons c cs ih =>
    exact ih (fun x hx => h x (List.mem_cons_of_mem c hx)) (max_ne_uncorr ha (h c List.mem_cons_self))

/-- A chord whose codewords all decode to its data is not poisoned, and reads as its data. -/
theorem value_of_decodes {d : List Byte} {outs : List Nat} {sl : List (List Byte)} (hd : d.length = 64)
    (h : ∀ i, i < 8 → Decodes outs (sl.map fun x => byteAt x i) (dataSyms d i)) :
    (decodeChord outs sl).value = some d := by
  have hcls : (decodeChord outs sl).cls ≠ .uncorr := by
    refine foldl_max_ne_uncorr (fun c hc => ?_) (by decide)
    obtain ⟨i, hi, rfl⟩ := List.mem_map.1 hc
    exact (h i (List.mem_range.1 hi)).2
  have hdata : (decodeChord outs sl).data = d := by
    refine Eq.trans ?_ (data_of_symbols hd)
    simp only [decodeChord, List.map_map]
    refine congrArg List.flatten (List.map_congr_left fun k _ => List.map_congr_left fun i hi => ?_)
    simp only [Function.comp, (h i (List.mem_range.1 hi)).1]
  have hpoison : (decodeChord outs sl).poisoned = false := beq_eq_false_iff_ne.2 hcls
  rw [ChordOut.value, hpoison, if_neg Bool.false_ne_true, hdata]

theorem decodeChord_encodeChord (d : List Byte) : (decodeChord [] (encodeChord d)).cls = .clean := by
  have hcws : ((List.range 8).map fun i => decodeCw [] ((encodeChord d).map fun x => byteAt x i)) =
      (List.range 8).map fun i => ⟨.clean, dataSyms d i, none⟩ :=
    List.map_congr_left fun i hi => by
      rw [symbols_encodeChord d (List.mem_range.1 hi), decodeCw_codeword (by simp [dataSyms]) (dataSyms_lt d i)]
  simp only [decodeChord, hcws]
  rfl

section
variable {d : List Byte} (hd : d.length = 64)
include hd

theorem value_encodeChord : (decodeChord [] (encodeChord d)).value = some d := by
  refine value_of_decodes hd fun i hi => ?_
  rw [symbols_encodeChord d hi]
  exact decodes_of_eq (decodeCw_codeword (by simp [dataSyms]) (dataSyms_lt d i)) (by decide)

theorem value_one_wrong (x : List Byte) {r : Nat} (hr : r < 10) :
    (decodeChord [] ((encodeChord d).set r x)).value = some d := by
  refine value_of_decodes hd fun i hi => ?_
  rw [List.map_set, symbols_encodeChord d hi]
  exact decodes_one_wrong (by simp [dataSyms]) (dataSyms_lt d i) hr (byteAt_lt x i)

theorem value_one_out {r : Nat} (hr : r < 10) :
    (decodeChord [r] ((encodeChord d).set r (zeros 8))).value = some d := by
  refine value_of_decodes hd fun i hi => ?_
  have hzero : byteAt (zeros 8) i = 0 := by
    rw [byteAt, zeros, List.getD_replicate _ hi]
    rfl
  rw [List.map_set, symbols_encodeChord d hi, hzero]
  exact decodes_one_out (by simp [dataSyms]) (dataSyms_lt d i) hr

end

/-- Settles O38: a chord as written by `decodeChord_encodeChord`, one wrong slice by `value_one_wrong`, one missing by
`value_one_out`; each rests on what one symbol does to the syndromes (`syndromes_set`). -/
theorem chordCodeCorrectsOneSlice : Obligations.ChordCodeCorrectsOneSlice := by
  refine ⟨fun d hd => ⟨decodeChord_encodeChord d, value_encodeChord hd⟩,
    fun d x r hd _ hr => ⟨value_one_wrong hd x hr, value_one_out hd hr⟩, ?_, ?_⟩
  · decide +kernel
  · decide +kernel

/-! ### The poison marker (R336) -/

/-- A chord is recognized as the marker when it does not decode and every visible slice is the marker's. -/
theorem marker_iff (outs : List Nat) (sl : List (List Byte)) : (decodeChord outs sl).marker = true ↔
    (decodeChord outs sl).cls = .uncorr ∧ ∀ p, p < 10 → p ∉ outs → sl.getD p [] = markerSlices.getD p [] := by
  have hmarker : (decodeChord outs sl).marker = ((decodeChord outs sl).cls == .uncorr &&
      (List.range 10).all fun p => outs.contains p || sl.getD p [] == markerSlices.getD p []) := rfl
  simp only [hmarker, Bool.and_eq_true, beq_iff_eq, List.all_eq_true, List.mem_range, Bool.or_eq_true,
    List.contains_iff_mem, or_iff_not_imp_left]

/-- Settles O39: the marker's slices and syndromes are closed facts, its recognition is `marker_iff`. -/
theorem poisonMarkerIsRecognized : Obligations.PoisonMarkerIsRecognized := by
  refine ⟨by decide, by decide, by decide, by decide, by decide +kernel, by decide +kernel, by decide +kernel, marker_iff⟩

end Sys2Proof.Machine

namespace Sys2Proof.Machine

/-! ### The queue and the reset state -/

/-- Settles O1: each branch is that of `step`. -/
theorem stepRunsTheFront : Obligations.StepRunsTheFront :=
  ⟨fun _ _ _ => rfl, fun s h => by simp [step, h]⟩

theorem reset_engine_idle : ∀ e : Engine, (State.reset.eng e).busy = false := by decide +kernel

theorem reset_house_kit_alone : ∀ k : Kit, k ≠ 0 → (State.reset.kit k).live = false := by decide +kernel

theorem reset_ev (i : EvId) : State.reset.ev i = EvReg.zero := by
  have hreg : ∀ n : Fin 34, State.reset.evs[n] = EvReg.zero := by decide +kernel
  exact hreg i.ix

/-- Settles O57: field by field from `State.reset`, the register values from `readCsr`. -/
theorem resetLeaves : Obligations.ResetLeaves := by
  unfold Obligations.ResetLeaves
  refine ⟨rfl, rfl, rfl, rfl, rfl, rfl, rfl, rfl, rfl, rfl, rfl, rfl, rfl, rfl, rfl, by decide +kernel, rfl, rfl, reset_engine_idle,
    rfl, reset_house_kit_alone, fun i => by rw [reset_ev]; rfl, ?registers, memWf_reset⟩
  case registers => decide +kernel

end Sys2Proof.Machine

namespace Sys2Proof.Machine

/-! ### The PC and the loop (12 R314) -/

theorem onward_eq (g : EngSt) : g.onward = { g with pc := (pcOnward g).1, loop := (pcOnward g).2 } := by
  unfold EngSt.onward pcOnward
  obtain hl | ⟨l, hl⟩ := Option.eq_none_or_eq_some g.loop
  · simp [hl]
  · by_cases hlast : g.pc = l.last
    · by_cases hmore : 1 < l.ctr
      · simp [hl, hlast, hmore]
      · simp [hl, hlast, hmore]
    · simp [hl, hlast]

theorem jump_eq (g : EngSt) (t : Nat) : g.jump t = { g with pc := (pcJump g t).1, loop := (pcJump g t).2 } := by
  unfold EngSt.jump pcJump
  cases g.loop <;> simp

/-! ### Issue (12 R308 to R311) -/

section
variable {s : State} {e : Engine}

theorem waitDone_idle (h : s.mayIssue e = false ∨ (s.eng e).waiting = false) : s.waitDone e = s := by
  unfold State.waitDone
  obtain h | h := h <;> simp [h]

/-- An engine that issues does its instruction in the next Beat's place, or is held at a wait. -/
theorem issueBy_issues (h : Issues s e) (wait : Bool) (f : EngSt → State → State) : s.issueBy e wait f =
    if wait && s.waitsHeld e then s.setEng e { s.eng e with state := .held }
    else f { s.eng e with next := (s.bar.beatno + 1) % 2 ^ 48 } (s.calRan 9) := by
  obtain ⟨hmay, hwait⟩ := h
  simp [State.issueBy, waitDone_idle (.inr hwait), hmay, Config.beatWrap]

theorem issueBy_goes (h : Issues s e) (f : EngSt → State → State) :
    s.issueBy e false f = f { s.eng e with next := (s.bar.beatno + 1) % 2 ^ 48 } (s.calRan 9) := by
  simp [issueBy_issues h]

/-- An engine that may not issue in this Beat does nothing. -/
theorem issueBy_idle (h : s.mayIssue e = false) (wait : Bool) (f : EngSt → State → State) : s.issueBy e wait f = s := by
  simp [State.issueBy, waitDone_idle (.inl h), h]

theorem standsAt_in {g : EngSt} (hp : InProgram s e g.pc) : s.standsAt e g = s.setEng e g := by
  obtain ⟨p, hp, hpc⟩ := hp
  simp [State.standsAt, hp, Nat.not_le.2 hpc]

theorem standsAt_past {g : EngSt} {p : List Word} (hp : s.program e = some p) (hpc : p.length ≤ g.pc) :
    s.standsAt e g = s.halt e g 3 := by
  simp [State.standsAt, hp, hpc]

theorem retire_in {g : EngSt} (hp : InProgram s e g.pc) :
    s.retire e g = s.setEng e { g with issued := min (g.issued + 1) (2 ^ 32 - 1), state := .running } := by
  rw [State.retire, up32_one]
  exact standsAt_in hp

end

/-- An instruction whose engine goes on to a PC in its program changes that engine alone. -/
theorem issueBy_retires {s : State} {e : Engine} {g : EngSt} {f : EngSt → State → State} (h : Issues s e)
    (hf : f { s.eng e with next := (s.bar.beatno + 1) % 2 ^ 48 } (s.calRan 9) = (s.calRan 9).retire e g)
    (hp : InProgram s e g.pc) : s.issueBy e false f =
      (s.calRan 9).setEng e { g with issued := min (g.issued + 1) (2 ^ 32 - 1), state := .running } := by
  rw [issueBy_goes h, hf]
  exact retire_in (s := s.calRan 9) hp

theorem plain_issues {s : State} {e : Engine} {f : EngSt → EngSt} (h : Issues s e) {g : EngSt}
    (hf : (f { s.eng e with next := (s.bar.beatno + 1) % 2 ^ 48 }).onward = g) (hp : InProgram s e g.pc) :
    s.plain e f = (s.calRan 9).setEng e { g with issued := min (g.issued + 1) (2 ^ 32 - 1), state := .running } :=
  issueBy_retires h (congrArg _ hf) hp

/-! ### The instructions that only go on (12 R312) -/

theorem append_low (imm : BitVec 16) (w : Word) :
    imm ++ w.extractLsb' 0 16 = BitVec.ofNat 32 (imm.toNat * 65536 + w.toNat % 65536) := by
  apply BitVec.eq_of_toNat_eq
  have hlow : w.toNat % 2 ^ 16 < 2 ^ 16 := Nat.mod_lt _ (by decide)
  have himm := imm.isLt
  rw [BitVec.toNat_append, BitVec.extractLsb'_toNat, Nat.shiftRight_zero, ← Nat.shiftLeft_add_eq_or_of_lt hlow,
    Nat.shiftLeft_eq, BitVec.toNat_ofNat]
  omega

theorem add_signExtend (imm : BitVec 16) (w : Word) : w + imm.signExtend 32 = BitVec.ofInt 32 (w.toNat + imm.toInt) := by
  rw [BitVec.ofInt_add, BitVec.ofInt_natCast, BitVec.ofNat_toNat, BitVec.setWidth_eq]
  rfl

/-- A plain instruction changes its engine alone: by `x`, and on to the next PC. -/
theorem exec_plain {s : State} {e : Engine} {c : Instr} {f : EngSt → EngSt} (hc : exec c s = .next (s.plain e f))
    (h : Issues s e) (hp : InProgram s e (pcOnward (s.eng e)).1) (x : EngSt)
    (hf : f { s.eng e with next := (s.bar.beatno + 1) % 2 ^ 48 } = x) (hpc : x.pc = (s.eng e).pc := by rfl)
    (hloop : x.loop = (s.eng e).loop := by rfl) (hissued : x.issued = (s.eng e).issued := by rfl) :
    exec c s = .next ((s.calRan 9).setEng e { x with
      state := .running, pc := (pcOnward (s.eng e)).1, loop := (pcOnward (s.eng e)).2,
      issued := min ((s.eng e).issued + 1) (2 ^ 32 - 1) }) := by
  have hto : pcOnward x = pcOnward (s.eng e) := by rw [pcOnward, pcOnward, hpc, hloop]
  rw [hc, plain_issues h ((congrArg _ hf).trans (onward_eq x)) (by rw [hto]; exact hp), hto, hissued]

/-- Settles O17: each is `plain` of its change to the engine (`exec_plain`). -/
theorem rudimentPlainInstructions : Obligations.RudimentPlainInstructions := by
  unfold Obligations.RudimentPlainInstructions
  intro s e h hp g b g1 u
  let g' : EngSt := { g with next := (b + 1) % 2 ^ 48 }
  exact ⟨exec_plain rfl h hp g' rfl,
    fun rd imm => exec_plain rfl h hp (g'.setR rd _) (congrArg (g'.setR rd) (BitVec.ofNat_toNat 32 imm).symm),
    fun rd imm => exec_plain rfl h hp (g'.setR rd _) (congrArg (g'.setR rd) (append_low imm (g.g[rd]))),
    fun rd rs imm => exec_plain rfl h hp (g'.setR rd _) (congrArg (g'.setR rd) (add_signExtend imm (g.g[rs]))),
    fun rd rs => exec_plain rfl h hp (g'.setR rd _) rfl, fun n => exec_plain rfl h hp { g' with dl := _ } rfl,
    fun r => exec_plain rfl h hp { g' with dl := _ } rfl, exec_plain rfl h hp { g' with dl := _ } rfl,
    fun full pol => exec_plain rfl h hp { g' with full := full, pol := pol } rfl⟩

end Sys2Proof.Machine

namespace Sys2Proof.Machine

/-! ### Jumps, calls and loops (12 R312, R314) -/

section
variable {s : State} {e : Engine}

/-- An instruction that only moves its engine changes that engine alone. -/
theorem exec_retires {c : Instr} {f : EngSt → State → State} (hc : exec c s = .next (s.issueBy e false f))
    (h : Issues s e) (x : EngSt)
    (hf : f { s.eng e with next := (s.bar.beatno + 1) % 2 ^ 48 } (s.calRan 9) = (s.calRan 9).retire e x)
    (hp : InProgram s e x.pc) (hissued : x.issued = (s.eng e).issued := by rfl) :
    exec c s = .next ((s.calRan 9).setEng e { x with
      state := .running, issued := min ((s.eng e).issued + 1) (2 ^ 32 - 1) }) := by
  rw [hc, issueBy_retires h hf hp, hissued]

/-- Where a branch leads. -/
theorem branch_eq (g : EngSt) (t : Nat) {taken : Bool} {P : Prop} [Decidable P] (h : taken = true ↔ P) :
    (if taken then g.jump t else g.onward) = { g with
      pc := (if P then pcJump g t else pcOnward g).1, loop := (if P then pcJump g t else pcOnward g).2 } := by
  by_cases hP : P
  · simp only [h.2 hP, hP, if_true]
    exact jump_eq g t
  · simp only [mt h.1 hP, hP, if_false]
    exact onward_eq g

/-- A branch takes its engine to the PC and the loop that its condition gives. -/
theorem exec_branch {c : Instr} {t : Nat} {taken : EngSt → Bool} {P : Prop} [Decidable P]
    (hc : exec c s = .next (s.issueBy e false fun g u => u.retire e (if taken g then g.jump t else g.onward)))
    (htaken : taken { s.eng e with next := (s.bar.beatno + 1) % 2 ^ 48 } = true ↔ P) (h : Issues s e)
    (hp : InProgram s e (if P then pcJump (s.eng e) t else pcOnward (s.eng e)).1) :
    exec c s = .next ((s.calRan 9).setEng e
      (issuedAt (s.eng e) s.bar.beatno (if P then pcJump (s.eng e) t else pcOnward (s.eng e)))) :=
  exec_retires hc h _ (congrArg _ (branch_eq _ t htaken)) hp

end

/-- Settles O18: the branches by `exec_branch` with their conditions, CALL, RET and LOOP by `exec_retires`. -/
theorem rudimentJumps : Obligations.RudimentJumps := by
  unfold Obligations.RudimentJumps
  intro s e h g b u go at_
  let g' : EngSt := { g with next := (b + 1) % 2 ^ 48 }
  refine ⟨fun rs t hwf hp => ?always, fun rs t => ?zero, fun rs t => ?nonzero, fun neg st t => ?status,
    fun neg st t => ?statusClass, fun t hroom hp => ?call, fun p rest hstack hp => ?ret, fun c len hlen => ?loop⟩
  case always =>
    exact exec_branch (P := True) (taken := fun _ => true) (if_pos hwf) (by simp) h (by simpa using hp)
  case zero =>
    intro p hp
    exact exec_branch (taken := fun g => g.r rs == 0) (P := g.g[rs] = 0) rfl beq_iff_eq h hp
  case nonzero =>
    intro p hp
    exact exec_branch (taken := fun g => g.r rs != 0) (P := g.g[rs] ≠ 0) rfl bne_iff_ne h hp
  case status =>
    intro p hp
    refine exec_branch rfl ?_ h hp
    cases neg <;> simp [g]
  case statusClass =>
    intro p hp
    refine exec_branch rfl ?_ h hp
    cases neg <;> simp [g]
  case call =>
    exact exec_retires rfl h { g' with stack := (g.pc + 1, g.loop) :: g.stack, loop := none, pc := t.toNat }
      (if_neg (Nat.not_le.2 hroom)) hp
  case ret =>
    refine exec_retires rfl h { g' with stack := rest, loop := p.2, pc := p.1 } ?_ hp
    simp only [show (s.eng e).stack = p :: rest from hstack]
    rfl
  case loop =>
    intro n p hp
    have hcount : g'.val c % 65536 = n := by
      cases c with
      | imm v => exact Nat.mod_eq_of_lt (by have := v.isLt; simp only [EngSt.val]; omega)
      | reg r => rfl
    have hwf : (Instr.loop e c len).wf = true := by simpa [Instr.wf, RudInstr.wf] using hlen
    have hexec : exec (.loop e c len) s = .next (s.iLoop e c len) := if_pos hwf
    refine exec_retires hexec h { g' with pc := p.1, loop := p.2 } ?_ hp
    have hgoes : (if g'.val c % 65536 == 0 then { g' with pc := g.pc + 1 + len.toNat }
        else { g' with pc := g.pc + 1, loop := some ⟨g'.val c % 65536, g.pc + 1, g.pc + len.toNat⟩ }) =
        { g' with pc := p.1, loop := p.2 } := by
      rw [hcount]
      by_cases hn : n = 0
      · simp [hn, p, g']
      · simp [hn, p]
    exact congrArg ((s.calRan 9).retire e) hgoes

end Sys2Proof.Machine

namespace Sys2Proof.Machine

/-! ### Halts and engines that may not issue (12 R308, R311) -/

section
variable {s : State} {e : Engine}

theorem halt_eng (g : EngSt) (fault : Nat) : (s.halt e g fault).eng e = { g with state := .halted, fault := fault } := by
  unfold State.halt
  split
  · exact eng_setEng s e _
  · rw [State.eng, notifyKit_engs, raise_engs]
    exact eng_setEng s e _

/-- A fault sets RUD_EVENTS.FAULT. -/
theorem halt_reports (g : EngSt) {fault : Nat} (hfault : fault ≠ 0) :
    ((s.halt e g fault).ev .rud).bits.getLsbD 0 = true := by
  have hraised : (s.halt e g fault).ev .rud = ((s.setEng e { g with state := .halted, fault := fault }).raise .rud 0x01).ev .rud := by
    simp [State.halt, hfault, State.ev]
  rw [hraised, ev_raise_same]
  simp

theorem plain_eq (t : State) (e : Engine) (f : EngSt → EngSt) :
    t.plain e f = t.issueBy e false fun g u => u.retire e (f g).onward := rfl

theorem waitTo_eq (t : State) (e : Engine) (target : EngSt → Nat → Nat) : t.waitTo e target =
    t.issueBy e true fun g u => u.setEng e { g with
      issued := up32 g.issued 1, state := .running, waiting := true, next := target g u.bar.beatno % Config.beatWrap } := rfl

/-- An instruction is an issue of what its operands, the engine's registers and the Beat make of it. -/
theorem issue_issueBy (s : State) (e : Engine) (i : RudInstr) : ∃ wait f, ∀ t : State, (t.eng e).g = (s.eng e).g →
    t.bar = s.bar → t.issue e i = t.issueBy e wait f := by
  cases i with
  | waitb n =>
    have hval : ∀ t : State, (t.eng e).g = (s.eng e).g → (t.eng e).val n = (s.eng e).val n := fun t hg => by
      cases n with
      | imm v => rfl
      | reg r => rw [EngSt.val, EngSt.val, EngSt.r, EngSt.r, hg]
    by_cases hzero : (s.eng e).val n = 0
    · exact ⟨_, _, fun t hg _ => (if_pos (beq_iff_eq.2 ((hval t hg).trans hzero))).trans (plain_eq t e id)⟩
    · exact ⟨_, _, fun t hg _ =>
        (if_neg fun h => hzero ((hval t hg).symm.trans (beq_iff_eq.1 h))).trans (waitTo_eq t e fun g b => b + 1 + g.val n)⟩
  | deadline m =>
    have hdeadline : ∃ f, ∀ t : State, t.bar = s.bar → t.iDeadline e m = t.plain e f :=
      ⟨_, fun t hbar => by rw [State.iDeadline, hbar]⟩
    obtain ⟨f, hf⟩ := hdeadline
    exact ⟨_, _, fun t _ hbar => (hf t hbar).trans (plain_eq t e f)⟩
  | nop => exact ⟨_, _, fun t _ _ => plain_eq t e id⟩
  | seti | addi | mov | policy => exact ⟨_, _, fun t _ _ => by rw [State.issue]; exact plain_eq t e _⟩
  | waitu | waitbar => exact ⟨_, _, fun t _ _ => by rw [State.issue]; exact waitTo_eq t e _⟩
  | halt | loop | br | brs | call | ret | fetch | stream | pin | unpin | hintEvict | signal =>
    exact ⟨_, _, fun t _ _ => by rw [State.issue]; exact rfl⟩

/-- A Rudiment instruction of an engine that may not issue in this Beat changes nothing. -/
theorem issue_idle (h : s.mayIssue e = false) (i : RudInstr) : s.issue e i = s := by
  obtain ⟨wait, f, hissue⟩ := issue_issueBy s e i
  exact (hissue s rfl rfl).trans (issueBy_idle h wait f)

end

/-- Settles O20: each is `halt` after the issue (`issueBy_goes`), whose effect is `halt_eng` and `halt_reports`. -/
theorem rudimentHalts : Obligations.RudimentHalts := by
  unfold Obligations.RudimentHalts
  refine ⟨fun s e h => ?_, fun s e i hmay => issue_idle hmay i⟩
  intro g
  let g' : EngSt := { g with next := (s.bar.beatno + 1) % 2 ^ 48 }
  have hends : ∀ (c : Instr) (f : EngSt → State → State) (x : EngSt) (n : Nat),
      exec c s = .next (s.issueBy e false f) → f g' (s.calRan 9) = (s.calRan 9).halt e x n → n ≠ 0 →
      ∃ t, exec c s = .next t ∧ (t.eng e).state = .halted ∧ (t.eng e).fault = n ∧
        (t.ev .rud).bits.getLsbD 0 = true := by
    intro c f x n hc hf hn
    refine ⟨_, hc.trans (congrArg _ ((issueBy_goes h f).trans hf)), ?_, ?_, halt_reports x hn⟩
    · rw [halt_eng]
    · rw [halt_eng]
  refine ⟨?halt, fun x hfull => ?call, fun hempty => ?ret, fun p hp hpast => ?runsOff⟩
  case halt =>
    refine ⟨(s.calRan 9).halt e { g' with issued := up32 g.issued 1 } 0,
      congrArg Host.Outcome.next (issueBy_goes h _), ?_, ?_, rfl, rfl⟩
    · rw [halt_eng]
    · rw [halt_eng]
  case call =>
    exact hends _ _ { g' with issued := up32 g.issued 1 } 1 rfl (if_pos hfull) (by decide)
  case ret =>
    refine hends _ _ { g' with issued := up32 g.issued 1 } 2 rfl ?_ (by decide)
    simp only [show g'.stack = [] from hempty]
    rfl
  case runsOff =>
    refine hends _ (fun g t => t.retire e (id g).onward)
      { g'.onward with issued := up32 g'.onward.issued 1, state := .running } 3 rfl ?_ (by decide)
    exact standsAt_past hp (by rw [onward_eq]; exact hpast)

end Sys2Proof.Machine

namespace Sys2Proof.Machine

/-! ### Waits (12 R310, R313) -/

section
variable {s : State} {e : Engine}

theorem waitsHeld_iff : s.waitsHeld e = true ↔ s.mode = .freewheel ∨ (s.kit (s.eng e).kit).suspended = true := by
  simp [State.waitsHeld]

/-- A wait that is not held stands until its target. -/
theorem waitTo_stands (h : Issues s e) (hgo : s.waitsHeld e = false) (target : EngSt → Nat → Nat) :
    s.waitTo e target = (s.calRan 9).setEng e { s.eng e with
      state := .running, waiting := true, issued := min ((s.eng e).issued + 1) (2 ^ 32 - 1),
      next := target { s.eng e with next := (s.bar.beatno + 1) % 2 ^ 48 } s.bar.beatno % 2 ^ 48 } := by
  rw [waitTo_eq, issueBy_issues h, hgo, Bool.and_false, if_neg Bool.false_ne_true]
  simp only [up32_one]
  rfl

theorem waitTo_held (h : Issues s e) (hheld : s.waitsHeld e = true) (target : EngSt → Nat → Nat) :
    s.waitTo e target = s.setEng e { s.eng e with state := .held } := by
  rw [waitTo_eq, issueBy_issues h, hheld, Bool.and_true, if_pos rfl]

theorem exec_waitb {n : RegOrImm 20} (hn : (s.eng e).val n ≠ 0) :
    exec (.waitb e n) s = .next (s.waitTo e fun g b => b + 1 + g.val n) :=
  congrArg Host.Outcome.next (if_neg fun h => hn (beq_iff_eq.1 h))

theorem exec_waitb_zero {n : RegOrImm 20} (hn : (s.eng e).val n = 0) : exec (.waitb e n) s = exec (.rudNop e) s :=
  congrArg Host.Outcome.next (if_pos (beq_iff_eq.2 hn))

theorem exec_waitu {m : Bool} {u : BitVec 10} (hwf : (RudInstr.waitu m u).wf = true) :
    exec (.waitu e m u) s = .next (s.waitTo e fun _ b => nextU m u.toNat b) := if_pos hwf

theorem exec_waitbar {n : BitVec 16} (hn : n ≠ 0) :
    exec (.waitbar e n) s = .next (s.waitTo e fun _ b => (b / 1024 + n.toNat) * 1024) := if_pos (bne_iff_ne.2 hn)

end

/-- The Beat of WAITU: the next in which BEATNO[9:0] is U. -/
theorem nextU_at (u : BitVec 10) (b : Nat) : ∃ d, 1 ≤ d ∧ d ≤ 1024 ∧ (b + d) % 1024 = u.toNat ∧
    nextU false u.toNat b = b + d := by
  have hu := u.isLt
  refine ⟨1 + (u.toNat + 1024 - (b + 1) % 1024) % 1024, by omega, by omega, by omega, ?_⟩
  simp only [nextU, Bool.false_eq_true, if_false]
  omega

/-- No multiple lies between a number and the least multiple from it on. -/
theorem ceilDiv_mul_least {u i x : Nat} (hu : 0 < u) (hi : i ≤ x) (hx : x < ceilDiv i u * u) : x % u ≠ 0 := by
  intro hmod
  have hdvd : u * (x / u) = x := Nat.mul_div_cancel' (Nat.dvd_of_mod_eq_zero hmod)
  have hle : ceilDiv i u ≤ x / u := by
    rw [ceilDiv, Nat.div_le_iff_le_mul_add_pred hu]
    omega
  have := Nat.mul_le_mul_right u hle
  rw [Nat.mul_comm (x / u)] at this
  omega

theorem le_ceilDiv_mul {u : Nat} (i : Nat) (hu : 0 < u) : i ≤ ceilDiv i u * u := by
  have hdiv := Nat.div_add_mod (i + u - 1) u
  have hmod := Nat.mod_lt (i + u - 1) hu
  rw [ceilDiv, Nat.mul_comm]
  omega

/-- The Beat of WAITU with MOD: the next in which BEATNO[9:0] is a multiple of U. -/
theorem nextU_multiple {u : BitVec 10} (hu : u ≠ 0) (b : Nat) : ∃ d, 1 ≤ d ∧ ((b + d) % 1024) % u.toNat = 0 ∧
    (∀ x, 1 ≤ x → x < d → ((b + x) % 1024) % u.toNat ≠ 0) ∧ nextU true u.toNat b = b + d := by
  have hpos : 0 < u.toNat := Nat.pos_of_ne_zero fun h => hu (BitVec.eq_of_toNat_eq (by simpa using h))
  have hle := le_ceilDiv_mul ((b + 1) % 1024) hpos
  have hleast : ∀ y, (b + 1) % 1024 ≤ y → y < ceilDiv ((b + 1) % 1024) u.toNat * u.toNat → y % u.toNat ≠ 0 :=
    fun y => ceilDiv_mul_least hpos
  have hmul : ceilDiv ((b + 1) % 1024) u.toNat * u.toNat % u.toNat = 0 := Nat.mul_mod_left _ _
  simp only [nextU, if_true]
  generalize ceilDiv ((b + 1) % 1024) u.toNat * u.toNat = m at hle hleast hmul
  by_cases hm : m < 1024
  · refine ⟨1 + (m - (b + 1) % 1024), by omega, ?_, fun x hx hxd => ?_, by rw [if_pos hm]; omega⟩
    · have hbeat : (b + (1 + (m - (b + 1) % 1024))) % 1024 = m := by omega
      rw [hbeat, hmul]
    · exact hleast _ (by omega) (by omega)
  · refine ⟨1 + (1024 - (b + 1) % 1024), by omega, ?_, fun x hx hxd => ?_, by rw [if_neg hm]; omega⟩
    · have hbeat : (b + (1 + (1024 - (b + 1) % 1024))) % 1024 = 0 := by omega
      rw [hbeat, Nat.zero_mod]
    · exact hleast _ (by omega) (by omega)

/-- At the target of its wait an engine goes on, and issues its next instruction in the same Beat. -/
theorem issue_after_wait {s : State} {e : Engine} (i : RudInstr) (hmay : s.mayIssue e = true)
    (hwait : (s.eng e).waiting = true) (hp : InProgram s e (pcOnward (s.eng e)).1) : s.issue e i = (s.setEng e { s.eng e with
      pc := (pcOnward (s.eng e)).1, loop := (pcOnward (s.eng e)).2, waiting := false }).issue e i := by
  have hdone : s.waitDone e = s.setEng e { s.eng e with
      pc := (pcOnward (s.eng e)).1, loop := (pcOnward (s.eng e)).2, waiting := false } := by
    rw [State.waitDone, hmay, hwait, Bool.and_true, if_pos rfl, onward_eq]
    exact standsAt_in hp
  obtain ⟨wait, f, hissue⟩ := issue_issueBy s e i
  refine (hissue s rfl rfl).trans (Eq.trans ?_ (hissue (s.setEng e _) (by rw [eng_setEng]) rfl).symm)
  rw [State.issueBy, State.issueBy, hdone, waitDone_idle (.inr (by rw [eng_setEng]))]

/-- Settles O19: each wait is `waitTo` its target, held (`waitTo_held`) or not (`waitTo_stands`); the targets of WAITU are
`nextU_at` and `nextU_multiple`; the wait ends by `issue_after_wait`. That the PC stands at the wait until its target comes,
and that an engine in Free-wheel holds at a wait without issuing it (logs 129 and 46), are the model's choices. -/
theorem rudimentWaits : Obligations.RudimentWaits := by
  unfold Obligations.RudimentWaits
  refine ⟨fun s e h => ?_, fun s e i hmay hwait hp => issue_after_wait i hmay hwait hp⟩
  intro g b n on held
  refine ⟨fun hmode hsusp => ?stands, ⟨exec_waitb_zero rfl, fun r hr => exec_waitb_zero hr⟩, fun hheld => ?held⟩
  case stands =>
    have hgo : s.waitsHeld e = false := by
      rw [← Bool.not_eq_true, waitsHeld_iff]
      simp [hmode, hsusp, g]
    have hstands : ∀ target : EngSt → Nat → Nat, (.next (s.waitTo e target) : Host.Outcome State Fault Refusal) =
        .next (on (target { g with next := (b + 1) % 2 ^ 48 } b)) := fun target =>
      congrArg Host.Outcome.next (waitTo_stands h hgo target)
    refine ⟨fun v hv => (exec_waitb (n := .imm v) ?_).trans (hstands _), fun r hr => (exec_waitb (n := .reg r) hr).trans (hstands _),
      fun v hv => (exec_waitbar hv).trans (hstands _), fun u => ?_, fun u hu => ?_⟩
    · exact fun h => hv (BitVec.eq_of_toNat_eq h)
    · obtain ⟨d, hlow, hhigh, hbeat, htarget⟩ := nextU_at u b
      refine ⟨d, hlow, hhigh, hbeat, (exec_waitu rfl).trans ((hstands _).trans ?_)⟩
      simp only [htarget]
    · obtain ⟨d, hlow, hbeat, hfirst, htarget⟩ := nextU_multiple hu b
      refine ⟨d, hlow, hbeat, hfirst, (exec_waitu ?_).trans ((hstands _).trans ?_)⟩
      · simpa [RudInstr.wf] using hu
      · simp only [htarget]
  case held =>
    have hstays : ∀ target, (.next (s.waitTo e target) : Host.Outcome State Fault Refusal) = .next held := fun target =>
      congrArg Host.Outcome.next (waitTo_held h (waitsHeld_iff.2 hheld) target)
    exact ⟨fun v hv => (exec_waitb (n := .imm v) fun h => hv (BitVec.eq_of_toNat_eq h)).trans (hstays _),
      fun r hr => (exec_waitb (n := .reg r) hr).trans (hstays _), fun v hv => (exec_waitbar hv).trans (hstays _),
      fun m u hwf => (exec_waitu hwf).trans (hstays _)⟩

/-! ### The engines in ascending order (12 R308) -/

theorem forEach_eq_foldl {α σ : Type} (f : α → σ → σ) (l : List α) (s : σ) : forEach f l s = l.foldl (fun t x => f x t) s := by
  induction l generalizing s with
  | nil => rfl
  | cons x xs ih => exact ih (f x s)

/-- In a list without repetition, where one item alone has an effect, the whole is that effect. -/
theorem forEach_one {α σ : Type} {f : α → σ → σ} {l : List α} {x : α} {s : σ} (hmem : x ∈ l) (hnodup : l.Nodup)
    (hbefore : ∀ y, y ≠ x → f y s = s) (hafter : ∀ y, y ≠ x → f y (f x s) = f x s) : forEach f l s = f x s := by
  induction l with
  | nil => cases hmem
  | cons y ys ih =>
    obtain ⟨hy, hys⟩ := List.nodup_cons.1 hnodup
    by_cases hyx : y = x
    · subst hyx
      have hrest : ∀ zs : List α, y ∉ zs → forEach f zs (f y s) = f y s := by
        intro zs hzs
        induction zs with
        | nil => rfl
        | cons z zs ihz =>
          rw [List.mem_cons, not_or] at hzs
          rw [forEach, hafter z (Ne.symm hzs.1), ihz hzs.2]
      exact hrest ys hy
    · rw [forEach, hbefore y hyx]
      exact ih ((List.mem_cons.1 hmem).resolve_left (Ne.symm hyx)) hys

section
variable {s : State} {e : Engine}

theorem issueAt_idle (h : s.mayIssue e = false) : State.issueAt e s = s := by
  simp [State.issueAt, waitDone_idle (.inl h), h]

theorem issueAt_issues (h : Issues s e) {p : List Word} {w : Word} {i : RudInstr} (hp : s.program e = some p)
    (hw : p[(s.eng e).pc]? = some w) (hi : Rud.decode w = some i) : State.issueAt e s = s.issue e i := by
  obtain ⟨hmay, hwait⟩ := h
  simp [State.issueAt, waitDone_idle (.inr hwait), hmay, hp, hw, hi]

/-- The issue of one engine leaves whether another may. -/
theorem mayIssue_other {o : Engine} (hne : o ≠ e) (hmore : s.calMore 9 = true) (g : EngSt) :
    ((s.calRan 9).setEng e g).mayIssue o = s.mayIssue o := by
  have heng : ((s.calRan 9).setEng e g).eng o = s.eng o := eng_setEng_of_ne _ _ _ _ hne.symm
  have hcal : ((s.calRan 9).setEng e g).calMore 9 = s.calMore 9 := hmore.symm
  simp only [State.mayIssue, State.waitsHeld, heng, hcal]
  rfl

end

/-- Settles O25: the order is that of `issueAll`; with one engine able to issue, `forEach_one`. -/
theorem rudimentIssueInOrder : Obligations.RudimentIssueInOrder := by
  unfold Obligations.RudimentIssueInOrder
  refine ⟨fun s => congrArg Host.Outcome.next (forEach_eq_foldl _ _ _), fun s e p w i h hp hw hi => issueAt_issues h hp hw hi,
    fun s e hmay => issueAt_idle hmay, fun s e p halone hwait hp hnop hpc => ?_⟩
  have h : Issues s e := ⟨(halone e).2 rfl, hwait⟩
  have hissue : State.issueAt e s = s.iNop e := issueAt_issues (i := .nop) h hp hnop (by decide)
  have hexec : exec (.rudNop e) s = .next ((s.calRan 9).setEng e (issuedAt (s.eng e) s.bar.beatno (pcOnward (s.eng e)))) :=
    (rudimentPlainInstructions s e h ⟨p, hp, hpc⟩).1
  have hnext : s.iNop e = (s.calRan 9).setEng e (issuedAt (s.eng e) s.bar.beatno (pcOnward (s.eng e))) :=
    Host.Outcome.next.inj hexec
  have hmore : s.calMore 9 = true := by
    have hmay := h.1
    simp only [State.mayIssue, Bool.and_eq_true] at hmay
    exact hmay.1.1.1.2
  have hidle : ∀ o, o ≠ e → s.mayIssue o = false := fun o ho => Bool.eq_false_iff.2 fun h => ho ((halone o).1 h)
  have hafter : ∀ o, o ≠ e → State.issueAt o (State.issueAt e s) = State.issueAt e s := fun o ho => by
    rw [hissue, hnext]
    exact issueAt_idle ((mayIssue_other ho hmore _).trans (hidle o ho))
  have hall : s.issueAll = State.issueAt e s :=
    forEach_one (List.mem_finRange e) (List.nodup_finRange 8) (fun o ho => issueAt_idle (hidle o ho)) hafter
  exact congrArg Host.Outcome.next (hall.trans (hissue.trans hnext))

end Sys2Proof.Machine

namespace Sys2Proof.Machine

/-! ### Tally's record classes and what TALLY_READ shows (18 R439 to R443) -/

theorem tally_eq (s : State) (typ : Nat) (kit : Option Kit) (arg : Nat) :
    s.tally typ kit arg =
      if s.tracing && (talClass typ == 6 || s.tal.filter.getLsbD (talClass typ)) then
        if 8 ≤ s.tal.inBeat then
          { s with tal := s.tal.store s.bar.beatno ⟨s.bar.beatno, typ, kit, false, s.extrap, BitVec.ofNat 64 arg⟩,
                   evs := s.evs.set EvId.tal.ix ((s.evs[EvId.tal.ix]).raise 0 1) }
        else
          { s with tal := s.tal.store s.bar.beatno ⟨s.bar.beatno, typ, kit, false, s.extrap, BitVec.ofNat 64 arg⟩ }
      else s := rfl

theorem tracing_iff (s : State) : s.tracing = true ↔ s.tal.on ≠ 0 ∧ s.tal.paused = false ∧ s.mode.traffic = true := by
  simp [State.tracing, and_assoc]

theorem tally_off {s : State} (typ : Nat) (kit : Option Kit) (arg : Nat) (h : s.tracing = false) :
    s.tally typ kit arg = s := by
  rw [tally_eq, h, Bool.false_and]
  rfl

theorem tally_masked {s : State} {typ : Nat} (kit : Option Kit) (arg : Nat)
    (h : ¬ (typ / 16 = 6 ∨ s.tal.filter.getLsbD (typ / 16) = true)) : s.tally typ kit arg = s := by
  rw [tally_eq, if_neg]
  simpa [talClass] using fun _ => not_or.1 h

theorem tally_stores {s : State} {typ : Nat} (kit : Option Kit) (arg : Nat) (htrace : s.tracing = true)
    (h : typ / 16 = 6 ∨ s.tal.filter.getLsbD (typ / 16) = true) : (s.tally typ kit arg).tal =
      s.tal.store s.bar.beatno ⟨s.bar.beatno, typ, kit, false, s.extrap, BitVec.ofNat 64 arg⟩ := by
  rw [tally_eq, if_pos (by simpa [talClass, htrace] using h)]
  split <;> rfl

theorem store_dropped {t : Tal} (beat : Nat) (r : TalRec) (h : 8 ≤ t.inBeat) :
    t.store beat r = { t with drop := up32 t.drop 1, dropNow := t.dropNow + 1 } := if_pos h

theorem store_head {t : Tal} (beat : Nat) (r : TalRec) (h : t.inBeat < 8) :
    (t.store beat r).recs.head? = some r ∧ (t.store beat r).drop = t.drop := by
  rw [Tal.store, if_neg (Nat.not_le.2 h)]
  exact ⟨rfl, rfl⟩

/-- Settles O56: which class a record falls in decides with the filter whether it is stored (`tally_masked`, `tally_stores`); the
ninth of a Beat is counted instead (`store_dropped`). -/
theorem tallyFilter : Obligations.TallyFilter := by
  unfold Obligations.TallyFilter
  refine ⟨rfl, fun s s1 rq j htaken hwf => ?set, fun s typ kit arg hon hpaused hmode => ?_, fun s typ kit arg hoff =>
    tally_off typ kit arg ?off⟩
  case set =>
    obtain rfl := taken_rq htaken
    have hdone := tallyDone_of_filter htaken (BitVec.ofNat 6 (prm j.rq / 2 ^ 32))
    refine ⟨s1.tallyFilter j, runReq_taken _ htaken hwf, hdone.reply, fun n hn => ?_⟩
    have hset : (s1.tallyFilter j).tal.filter = BitVec.ofNat 6 (prm j.rq / 2 ^ 32) := (congrArg Tal.filter hdone.tal :)
    rw [hset, BitVec.getLsbD_ofNat, Nat.testBit_div_two_pow]
    simp [hn, prm, Nat.add_comm]
  case off =>
    rw [← Bool.not_eq_true, tracing_iff]
    rintro ⟨hon, hpaused, hmode⟩
    simp_all
  have htrace : s.tracing = true := (tracing_iff s).2 ⟨hon, hpaused, hmode⟩
  refine ⟨tally_masked kit arg, fun henabled hroom => ?_, fun henabled hfull => ?_⟩
  · rw [tally_stores kit arg htrace henabled]
    obtain ⟨hhead, hdrop⟩ := store_head s.bar.beatno
      ⟨s.bar.beatno, typ, kit, false, s.extrap, BitVec.ofNat 64 arg⟩ hroom
    exact ⟨_, hhead, rfl, rfl, rfl, rfl, hdrop⟩
  · rw [tally_stores kit arg htrace henabled, store_dropped _ _ hfull]
    exact ⟨rfl, up32_one _⟩

/-! ### TALLY_READ (18 R441, R443) -/

theorem recordBytes_length (r : TalRec) (red : Bool) : (r.bytes red).length = 16 := by
  simp [TalRec.bytes, length_leBytes]

/-- The record of an index as TALLY_READ gives it to a reader. -/
def State.readRecord (s : State) (reader : Kit) (i : Nat) : List Byte :=
  match s.tal.recAt i with
  | some r => r.bytes (!s.mayTrace reader r)
  | none => zeros 16

theorem readRecord_length (s : State) (reader : Kit) (i : Nat) : (s.readRecord reader i).length = 16 := by
  unfold State.readRecord
  split
  · exact recordBytes_length ..
  · exact List.length_replicate ..

theorem readRecord_some {s : State} (reader : Kit) {i : Nat} {r : TalRec} (h : s.tal.recAt i = some r) :
    s.readRecord reader i = r.bytes (!s.mayTrace reader r) := by
  rw [State.readRecord, h]

theorem tallyRead_eq (s : State) (j : Job) : s.tallyRead j = j.answer s (ansData
    ((List.range (min (lenOf j.rq / 16) (s.tal.index - prm j.rq % 2 ^ 32))).map
      fun i => s.readRecord j.kit (prm j.rq % 2 ^ 32 + i)).flatten) := rfl

/-- Byte 7 of a record names its Kit, 16 for none. -/
def TalRec.kitNo (r : TalRec) : Nat := match r.kit with | some k => k.val | none => 16

theorem kitNo_le (r : TalRec) : r.kitNo ≤ 16 := by
  unfold TalRec.kitNo
  split <;> omega

theorem recordBytes_eq (r : TalRec) (red : Bool) : r.bytes red = leBytes 6 r.beat ++ (leBytes 1 r.typ ++
    (leBytes 1 (r.kitNo + 32 * b2n red + 64 * b2n r.drop + 128 * b2n r.x) ++
      leBytes 8 (if red then 0 else r.arg.toNat))) := by
  simp only [TalRec.bytes, List.append_assoc]
  rfl

theorem recordBytes_fields (r : TalRec) (red : Bool) : fieldAt (r.bytes red) 0 6 = r.beat % 2 ^ 48 ∧
    fieldAt (r.bytes red) 6 1 = r.typ % 256 ∧
    fieldAt (r.bytes red) 7 1 = r.kitNo + 32 * b2n red + (64 * b2n r.drop + 128 * b2n r.x) ∧
    fieldAt (r.bytes red) 8 8 = if red then 0 else r.arg.toNat := by
  have hk := kitNo_le r
  have hred := b2n_le_one red
  have hdrop := b2n_le_one r.drop
  have hx := b2n_le_one r.x
  have harg : (if red then 0 else r.arg.toNat) < 256 ^ 8 := by
    split
    · decide
    · exact r.arg.isLt
  refine ⟨?_, ?_, ?_, ?_⟩ <;>
    simp [recordBytes_eq, fieldAt_append_left, fieldAt_append_right, length_leBytes, fieldAt_leBytes]
  · omega
  · exact harg

theorem mayTrace_iff (s : State) (reader : Kit) (r : TalRec) : s.mayTrace reader r = true ↔
    r.typ = 0 ∨ s.gen.dbg.getLsbD 0 = true ∨ r.kit = none ∨ r.kit = some reader ∨ reader = 0 ∨
      ∃ k, r.kit = some k ∧ k ≠ 0 ∧ (s.kit k).consent = true := by
  unfold State.mayTrace
  cases hkit : r.kit with
  | none => simp
  | some k => simp [or_assoc]

/-- Settles O55: each record that the reply holds is `readRecord`, redacted as `mayTrace_iff` says. That a record of TYPE 0
reads unredacted, as zeros (log 32), is the model's choice. -/
theorem tallyReadRedacts : Obligations.TallyReadRedacts := by
  unfold Obligations.TallyReadRedacts
  intro s s1 rq j htaken hwf first n
  obtain rfl := taken_rq htaken
  have hall : ∀ x ∈ (List.range n).map fun i => s1.readRecord j.kit (first + i), x.length = 16 := by
    simp [readRecord_length]
  refine ⟨s1.tallyRead j, ((List.range n).map fun i => s1.readRecord j.kit (first + i)).flatten,
    runReq_taken _ htaken hwf, Job.answer_replied (ansData _) htaken rfl rfl, ?length, answer_tal .., (j.answer_countsOnly ..).stores,
    fun i r hi hr => ?_⟩
  case length =>
    rw [flatten_length _ hall, List.length_map, List.length_range]
  intro d kit rest open_
  have hd : d = r.bytes (!s1.mayTrace j.kit r) := by
    rw [← readRecord_some j.kit hr]
    exact flatten_piece _ hall (by simp [hi])
  obtain ⟨hbeat, htyp, hkit, harg⟩ := recordBytes_fields r (!s1.mayTrace j.kit r)
  rw [hd]
  refine ⟨hbeat, htyp, fun hopen => ?_, fun hclosed => ?_⟩
  · have hsees : s1.mayTrace j.kit r = true := (mayTrace_iff s1 j.kit r).2 hopen
    rw [hkit, harg, hsees]
    exact ⟨rfl, rfl⟩
  · have hsees : s1.mayTrace j.kit r = false := by
      rw [← Bool.not_eq_true, mayTrace_iff]
      exact hclosed
    rw [hkit, harg, hsees]
    exact ⟨rfl, rfl⟩

end Sys2Proof.Machine

namespace Sys2Proof.Machine

/-! ### SENSOR_SAMPLE (20 R478 to R482) -/

/-- A maximum is above a threshold where one of its members is. -/
theorem lt_foldl_max (thr a : Nat) (l : List Nat) : thr < l.foldl max a ↔ thr < a ∨ ∃ x ∈ l, thr < x := by
  induction l generalizing a with
  | nil => simp
  | cons y l ih => simp [ih, or_assoc]

theorem foldl_larger (l : List (Nat × Nat)) (b : Nat × Nat) :
    (l.foldl (fun b x => if b.2 < x.2 then x else b) b).2 = (l.map Prod.snd).foldl max b.2 := by
  induction l generalizing b with
  | nil => rfl
  | cons y l ih =>
    rw [List.foldl_cons, ih, List.map_cons, List.foldl_cons]
    split
    · rw [Nat.max_eq_right (by omega)]
    · rw [Nat.max_eq_left (by omega)]

theorem argMax_largest (l : List Nat) : (argMax l).2 = l.foldl max 0 := by
  rw [argMax, foldl_larger, List.map_snd_zip (by simp)]

theorem lt_dieField {xs : List (BitVec 12)} (thr : Nat) (hlen : xs.length = 4) :
    thr < dieField 0 xs ↔ ∃ v ∈ xs, thr < v.toNat := by
  rw [dieField, lt_foldl_max]
  simp only [Nat.not_lt_zero, false_or, List.mem_map, List.mem_range, exists_exists_and_eq_and]
  constructor
  · rintro ⟨i, hi, hv⟩
    exact ⟨xs[i], List.getElem_mem _, by simpa [hi, hlen] using hv⟩
  · rintro ⟨v, hv, hthr⟩
    obtain ⟨i, hi, rfl⟩ := List.getElem_of_mem hv
    exact ⟨i, hlen ▸ hi, by simpa [hi] using hthr⟩

/-- The readings of the eleven dies with no sensor out of use. -/
theorem fields_in_use {p : Pwr} (xs : List (List (BitVec 12))) (h : ∀ d : Fin 11, p.fieldExcl[d] = 0) :
    p.fields xs = (List.finRange 11).map fun i => dieField 0 (xs.getD i.val []) := by
  simp [Pwr.fields, h]

/-- The largest field reading of a sample. -/
def Pwr.top (p : Pwr) (xs : List (List (BitVec 12))) : Nat := (argMax (p.fields xs)).2

theorem lt_top {p : Pwr} {xs : List (List (BitVec 12))} (thr : Nat) (h : ∀ d : Fin 11, p.fieldExcl[d] = 0)
    (hlen : xs.length = 11) (hfour : ∀ l ∈ xs, l.length = 4) :
    thr < p.top xs ↔ ∃ l ∈ xs, ∃ v ∈ l, thr < v.toNat := by
  rw [Pwr.top, argMax_largest, lt_foldl_max, fields_in_use xs h]
  simp only [Nat.not_lt_zero, false_or, List.mem_map, List.mem_finRange, true_and, exists_exists_eq_and]
  constructor
  · rintro ⟨i, hi⟩
    have hin : i.val < xs.length := by omega
    rw [List.getD_eq_getElem _ _ hin, lt_dieField thr (hfour _ (List.getElem_mem hin))] at hi
    exact ⟨xs[i.val], List.getElem_mem hin, hi⟩
  · rintro ⟨l, hl, hv⟩
    obtain ⟨i, hi, rfl⟩ := List.getElem_of_mem hl
    refine ⟨⟨i, hlen ▸ hi⟩, ?_⟩
    rw [List.getD_eq_getElem _ _ hi]
    exact (lt_dieField thr (hfour _ hl)).2 hv

theorem top_le {p : Pwr} {xs : List (List (BitVec 12))} {thr : Nat} (h : ∀ d : Fin 11, p.fieldExcl[d] = 0)
    (hlen : xs.length = 11) (hfour : ∀ l ∈ xs, l.length = 4) (hall : ∀ l ∈ xs, ∀ v ∈ l, v.toNat ≤ thr) :
    p.top xs ≤ thr := by
  refine Nat.not_lt.1 fun hlt => ?_
  obtain ⟨l, hl, v, hv, hthr⟩ := (lt_top thr h hlen hfour).1 hlt
  exact absurd hthr (Nat.not_lt.2 (hall l hl v hv))

/-! ### What each part of a sample sets -/

theorem sampleField_pwr (s : State) (xs : List (List (BitVec 12))) :
    (s.sampleField xs).pwr = { s.pwr with
      field := Vector.ofFn fun (i : Fin 11) => BitVec.ofNat 12 ((s.pwr.fields xs).getD i.val 0)
      fieldValid := true
      peak := if s.pwr.peak.1.toNat < s.pwr.top xs then
        (BitVec.ofNat 12 (s.pwr.top xs), BitVec.ofNat 4 (argMax (s.pwr.fields xs)).1) else s.pwr.peak
      wrholdNext := (calm (s.pwr.wrhold || s.pwr.wrholdNext) s.pwr.calmW (s.pwr.top xs ≤ 380)).1 || 420 < s.pwr.top xs
      wrhold := s.pwr.wrhold &&
        ((calm (s.pwr.wrhold || s.pwr.wrholdNext) s.pwr.calmW (s.pwr.top xs ≤ 380)).1 || 420 < s.pwr.top xs)
      calmW := (calm (s.pwr.wrhold || s.pwr.wrholdNext) s.pwr.calmW (s.pwr.top xs ≤ 380)).2
      rdfield := (calm s.pwr.rdfield s.pwr.calmR (s.pwr.top xs ≤ 1130)).1 || 1170 < s.pwr.top xs
      calmR := (calm s.pwr.rdfield s.pwr.calmR (s.pwr.top xs ≤ 1130)).2 } := by
  unfold State.sampleField
  extract_lets
  split <;> rfl

/-- A part of a sample keeps the stored bytes, the count of Beats and the held writes. -/
structure SampleKeeps (s t : State) : Prop where
  stores : SameStores s t
  bar : t.bar = s.bar
  hold : t.hold = s.hold
  mode : t.mode = s.mode

theorem SampleKeeps.of_raise {s t : State} {b : Bool} {i : EvId} {m : BitVec 8} (h : SampleKeeps s t) :
    SampleKeeps s (if b then t.raise i m else t) := by
  split
  · exact ⟨h.stores, h.bar, h.hold, h.mode⟩
  · exact h

theorem sampleField_keeps (s : State) (xs : List (List (BitVec 12))) : SampleKeeps s (s.sampleField xs) :=
  .of_raise ⟨sameStores_of_eq rfl rfl rfl, rfl, rfl, rfl⟩

/-- Write hold that ends starts the scrub boost. -/
theorem sampleField_ecc (s : State) (xs : List (List (BitVec 12))) : (s.sampleField xs).ecc = { s.ecc with
    boostTo := if (s.pwr.wrhold || s.pwr.wrholdNext) && !(s.sampleField xs).pwr.wrholdNext then
      some ((s.barNo + 1024) % 2 ^ 38) else s.ecc.boostTo } := by
  rw [sampleField_pwr]
  unfold State.sampleField
  extract_lets
  split <;> rfl

theorem sampleField_events (s : State) (xs : List (List (BitVec 12))) (hcalm : s.pwr.rdfield = false)
    (hset : (s.sampleField xs).pwr.rdfield = true) : ((s.sampleField xs).ev .pwr).bits.getLsbD 1 = true := by
  rw [sampleField_pwr] at hset
  unfold State.sampleField
  extract_lets fs top w r on rd ended p s1
  have hrd : rd = true := hset
  rw [if_pos (by simp [hrd, hcalm]), ev_raise_same]
  simp

theorem sampleTemp_pwr (s : State) (ts : List (BitVec 12)) : (s.sampleTemp ts).pwr = { s.pwr with
      temp := Vector.ofFn fun (i : Fin 16) => if s.pwr.tempExcl.getLsbD i.val then s.pwr.temp[i] else ts.getD i.val 0
      tempValid := ~~~ s.pwr.tempExcl
      temphi := (calm s.pwr.temphi s.pwr.calmT (!((s.pwr.temps ts).any fun t => 840 < t) &&
        !((s.pwr.temps ts).any fun t => t < -320))).1 || (s.pwr.temps ts).any fun t => 840 < t
      templo := (calm s.pwr.templo s.pwr.calmT (!((s.pwr.temps ts).any fun t => 840 < t) &&
        !((s.pwr.temps ts).any fun t => t < -320))).1 || (s.pwr.temps ts).any fun t => t < -320
      calmT := (calm s.pwr.temphi s.pwr.calmT (!((s.pwr.temps ts).any fun t => 840 < t) &&
        !((s.pwr.temps ts).any fun t => t < -320))).2 } := by
  unfold State.sampleTemp
  extract_lets
  split <;> rfl

theorem sampleTemp_keeps (s : State) (ts : List (BitVec 12)) :
    SampleKeeps s (s.sampleTemp ts) ∧ (s.sampleTemp ts).ecc = s.ecc := by
  unfold State.sampleTemp
  extract_lets
  split <;> exact ⟨⟨sameStores_of_eq rfl rfl rfl, rfl, rfl, rfl⟩, rfl⟩

theorem ev_raise_keeps_bit {s : State} {i : EvId} {m : BitVec 8} {n : Nat} (h : (s.ev i).bits.getLsbD n = true) :
    ((s.raise i m).ev i).bits.getLsbD n = true := by
  rw [ev_raise_same, BitVec.getLsbD_or, h, Bool.true_or]

theorem sampleTemp_events {s : State} {n : Nat} (ts : List (BitVec 12)) (h : (s.ev .pwr).bits.getLsbD n = true) :
    ((s.sampleTemp ts).ev .pwr).bits.getLsbD n = true := by
  unfold State.sampleTemp
  extract_lets ts' hi lo hh l p
  split
  · exact ev_raise_keeps_bit (s := { s with pwr := p }) h
  · exact h

theorem sampleTemp_hot {s : State} {ts : List (BitVec 12)} (hcool : s.pwr.temphi = false)
    (hhot : ((s.pwr.temps ts).any fun t => 840 < t) = true) : ((s.sampleTemp ts).ev .pwr).bits.getLsbD 2 = true := by
  unfold State.sampleTemp
  extract_lets ts' hi lo hh l p
  have hhi : hi = true := hhot
  rw [if_pos (by simp [hhi, hcool]), ev_raise_same]
  simp

theorem temps_hot {p : Pwr} {ts : List (BitVec 12)} (hexcl : p.tempExcl = 0) (hlen : ts.length = 16)
    (h : ∃ v ∈ ts, 840 < v.toInt) : ((p.temps ts).any fun t => 840 < t) = true := by
  obtain ⟨v, hv, hhot⟩ := h
  obtain ⟨i, hi, rfl⟩ := List.getElem_of_mem hv
  simp only [Pwr.temps, hexcl, List.any_filterMap, List.any_eq_true, List.mem_range]
  exact ⟨i, hlen ▸ hi, by simpa [hi] using hhot⟩

theorem sample_due {s : State} (ts : List (BitVec 12)) (xs : List (List (BitVec 12))) (hdue : s.sampleDue = true)
    (htimed : s.mode.timed = true) : s.sample ts xs = ((s.calRan 3).sampleField xs).sampleTemp ts := by
  simp [State.sample, hdue, htimed]

/-- A loud sample calls for write hold. -/
theorem sampleField_loud {s : State} {xs : List (List (BitVec 12))} (h : 420 < s.pwr.top xs) :
    (s.sampleField xs).pwr.wrholdNext = true ∧ (s.sampleField xs).pwr.wrhold = s.pwr.wrhold := by
  simp [sampleField_pwr, h]

/-- The sixteenth calm sample in a row ends write hold. -/
theorem sampleField_sixteenth {s : State} {xs : List (List (BitVec 12))} (h : s.pwr.top xs ≤ 380)
    (hcount : s.pwr.calmW = 15) :
    (s.sampleField xs).pwr.wrholdNext = false ∧ (s.sampleField xs).pwr.wrhold = false := by
  have hquiet : ¬ 420 < s.pwr.top xs := by omega
  simp [sampleField_pwr, h, hcount, hquiet, calm]

/-- An earlier calm sample only counts. -/
theorem sampleField_calm {s : State} {xs : List (List (BitVec 12))} (h : s.pwr.top xs ≤ 380)
    (hheld : s.pwr.wrholdNext = true) (hcount : s.pwr.calmW < 15) :
    (s.sampleField xs).pwr.wrholdNext = true ∧ (s.sampleField xs).pwr.wrhold = s.pwr.wrhold ∧
      (s.sampleField xs).pwr.calmW = s.pwr.calmW + 1 := by
  have hmin : min 16 (s.pwr.calmW + 1) = s.pwr.calmW + 1 := by omega
  have hne : s.pwr.calmW ≠ 15 := by omega
  simp [sampleField_pwr, h, hheld, calm, hmin, hne]

/-- Settles O32: a sample is `sampleField`, then `sampleTemp`; `lt_top` compares the largest reading with each threshold. -/
theorem sensorSample : Obligations.SensorSample := by
  unfold Obligations.SensorSample
  intro s ts xs htemps hfields hfour
  have hexec : exec (.sensorSample ts xs) s = .next (s.sample ts xs) := if_pos (by
    simpa [Instr.wf, htemps, hfields] using hfour)
  refine ⟨fun hdue => ?idle, fun htimed hbeat hhold honce hexcl hdies => ?_⟩
  case idle =>
    rw [hexec, State.sample, hdue]
    rfl
  have hdue : s.sampleDue = true := by simp [State.sampleDue, htimed, hbeat, hhold, honce]
  rw [hexec, sample_due ts xs hdue htimed]
  have hfield := sampleField_keeps (s.calRan 3) xs
  obtain ⟨htemp, hecc⟩ := sampleTemp_keeps ((s.calRan 3).sampleField xs) ts
  have hpwr := sampleTemp_pwr ((s.calRan 3).sampleField xs) ts
  have hloud (thr : Nat) := lt_top (p := (s.calRan 3).pwr) thr hdies hfields hfour
  have hquiet (h : ∀ l ∈ xs, ∀ v ∈ l, v.toNat ≤ 380) := top_le (p := (s.calRan 3).pwr) hdies hfields hfour h
  have hsame : ((s.calRan 3).sampleField xs).pwr.tempExcl = 0 := by rw [sampleField_pwr]; exact hexcl
  have hcool : ((s.calRan 3).sampleField xs).pwr.temphi = s.pwr.temphi := by rw [sampleField_pwr]; rfl
  refine ⟨_, rfl, sameStores_trans hfield.stores htemp.stores, htemp.bar.trans hfield.bar, htemp.hold.trans hfield.hold, ?_⟩
  rw [hpwr, hsame]
  refine ⟨?valid, rfl, fun i => ?readings, fun h => sampleField_loud ((hloud 420).2 h), fun h => ?reads, fun h hheld hcount => ?ends,
    fun h hheld hcount => sampleField_calm (hquiet h) hheld hcount, fun h => ?hot⟩
  case valid => rw [sampleField_pwr]
  case readings => simp
  case reads =>
    have hset : ((s.calRan 3).sampleField xs).pwr.rdfield = true := by simp [sampleField_pwr, (hloud 1170).2 h]
    exact ⟨hset, fun hfirst => sampleTemp_events ts (sampleField_events (s.calRan 3) xs hfirst hset)⟩
  case ends =>
    obtain ⟨hnext, hnow⟩ := sampleField_sixteenth (hquiet h) hcount
    refine ⟨hnext, hnow, ?_⟩
    rw [hecc, sampleField_ecc, hnext]
    exact if_pos (by simp [State.calRan, hheld])
  case hot =>
    have hany := temps_hot hsame htemps h
    exact ⟨by simp [hany], fun hfirst => sampleTemp_hot (hcool.trans hfirst) hany⟩

end Sys2Proof.Machine

namespace Sys2Proof.Machine

/-! ### LS, and a page behind its own window (12 R315; 08 R215) -/

section
variable {s : State} {e : Engine}

theorem setLs_in {g : EngSt} (ls : Nat) (hp : InProgram s e (pcOnward g).1) : s.setLs e g ls = s.setEng e { g with
    state := .running, pc := (pcOnward g).1, loop := (pcOnward g).2, issued := min (g.issued + 1) (2 ^ 32 - 1),
    ls := BitVec.ofNat 8 ls } := by
  rw [State.setLs, onward_eq]
  exact retire_in hp

/-- An instruction that only sets LS and goes on. -/
theorem exec_setLs {c : Instr} {f : EngSt → State → State} {ls : Nat} (hc : exec c s = .next (s.issueBy e false f))
    (h : Issues s e) (hp : InProgram s e (pcOnward (s.eng e)).1)
    (hf : f { s.eng e with next := (s.bar.beatno + 1) % 2 ^ 48 } (s.calRan 9) =
      (s.calRan 9).setLs e { s.eng e with next := (s.bar.beatno + 1) % 2 ^ 48 } ls) :
    exec c s = .next ((s.calRan 9).setEng e
      { issuedAt (s.eng e) s.bar.beatno (pcOnward (s.eng e)) with ls := BitVec.ofNat 8 ls }) := by
  rw [hc, issueBy_goes h, hf]
  exact congrArg Host.Outcome.next (setLs_in (s := s.calRan 9) ls hp)

theorem kpOf_page (kp : KPage) : kpOf (kp.toNat * 65536) = kp := by
  rw [kpOf, Nat.mul_div_cancel _ (by decide), BitVec.ofNat_toNat, BitVec.setWidth_eq]

theorem ownerPage_own {k : Kit} {kp : KPage} {w : Window} (hw : s.windowAt k (kp.toNat * 65536) = some w)
    (hsrc : w.srcKit = none) : s.ownerPage k kp = (k, kp) := by
  simp [State.ownerPage, hw, Window.owner, hsrc, kpOf_page]

theorem deepPage_of_frame {p : Page} (h : p.frame.isSome = true) : p.deepPage = none := by
  unfold Page.frame at h
  unfold Page.deepPage
  cases hh : p.home <;> simp [hh] at h ⊢

/-- The checks of R316 on one page behind its own window. -/
theorem rangeBad_own {k : Kit} {kp : KPage} {ra : Word} {w : Window} (hra : ra.toNat = kp.toNat)
    (hw : s.windowAt k (kp.toNat * 65536) = some w) (hrd : w.rd = true) (hsrc : w.srcKit = none) (shared : Bool) :
    s.rangeBad k ra 1 shared = none := by
  have hkp := kp.isLt
  simp [State.rangeBad, hra, hw, hrd, hsrc, List.range_one, Nat.not_le.2 hkp, Nat.not_lt.2 (Nat.succ_le_of_lt hkp)]

/-! ### STREAM (12 R318, R319) -/

/-- The STREAM that an engine begins without a deadline. -/
def EngSt.newStream (g : EngSt) (ra rb : GReg) (node : Node) (r : Ring) (count sid : Nat) : StreamSt :=
  { kp := (g.r ra).toNat, count := count, rb := (g.r rb).toNat, node := node, ring := r, dl := none, pol := (g.pol, g.full),
    done := false, judged := false, late := [], follow := [], sid := sid, counted := false }

theorem exec_stream_begins {ra rb : GReg} {node : Node} {r : Ring} {n : BitVec 4} (h : Issues s e)
    (hidle : (s.eng e).issuing = none)
    (hgood : s.streamBad (s.eng e).kit ((s.eng e).r ra) ((s.eng e).r rb) node r (n.toNat + 1) = none) :
    exec (.stream e ra rb node r n false) s = .next
      (((s.calRan 9).streamFetches e ((s.eng e).newStream ra rb node r (n.toNat + 1) s.bar.beatno)).tryStream e
        ((s.eng e).newStream ra rb node r (n.toNat + 1) s.bar.beatno)) := by
  refine congrArg Host.Outcome.next ((issueBy_goes h _).trans ?_)
  generalize hg : ({ s.eng e with next := (s.bar.beatno + 1) % 2 ^ 48 } : EngSt) = g
  have hidle' : g.issuing = none := hg ▸ hidle
  have hgood' : (s.calRan 9).streamBad g.kit (g.r ra) (g.r rb) node r (n.toNat + 1) = none := hg ▸ hgood
  simp only [hidle', hgood']
  subst hg
  rfl

theorem exec_stream_bad {ra rb : GReg} {node : Node} {r : Ring} {n : BitVec 4} {dl : Bool} {ls : Nat} (h : Issues s e)
    (hp : InProgram s e (pcOnward (s.eng e)).1) (hidle : (s.eng e).issuing = none)
    (hbad : s.streamBad (s.eng e).kit ((s.eng e).r ra) ((s.eng e).r rb) node r (n.toNat + 1) = some ls) :
    exec (.stream e ra rb node r n dl) s = .next ((s.calRan 9).setEng e
      { issuedAt (s.eng e) s.bar.beatno (pcOnward (s.eng e)) with ls := BitVec.ofNat 8 ls }) := by
  refine exec_setLs rfl h hp ?_
  generalize hg : ({ s.eng e with next := (s.bar.beatno + 1) % 2 ^ 48 } : EngSt) = g
  have hidle' : g.issuing = none := hg ▸ hidle
  have hbad' : (s.calRan 9).streamBad g.kit (g.r ra) (g.r rb) node r (n.toNat + 1) = some ls := hg ▸ hbad
  simp only [hidle', hbad']

/-- An engine whose STREAM takes effect, before it goes on. -/
def EngSt.streamed (g : EngSt) (pkts : List PushPkt) (st : StreamSt) (now : Nat) : EngSt :=
  let follow := if st.pol.2 && st.pol.1 != .stall then st.late else []
  { g with
    fifo := g.fifo ++ pkts
    muffled := up32 g.muffled (pkts.filter fun p => p.muffle && p.part % 16 == 0).length
    streams := (g.streams.filter fun x => x.done) ++
      (if st.dl.isSome || !follow.isEmpty then [{ st with done := true, follow := follow }] else [])
    next := (now + 1) % 2 ^ 48 }

/-- A STREAM that takes effect queues its packets, sets LS and goes on. -/
theorem tryStream_goes {st : StreamSt} {pkts : List PushPkt} (hpkts : s.inPlacePkts (s.eng e).kit st = pkts)
    (hgoes : s.streamGoes e st pkts = true) (hp : InProgram s e (pcOnward (s.eng e)).1) :
    ∃ tal evs, s.tryStream e st = ({ s with tal := tal, evs := evs }).setEng e
      { (s.eng e).streamed pkts st s.bar.beatno with
        state := .running, pc := (pcOnward (s.eng e)).1, loop := (pcOnward (s.eng e)).2,
        issued := min ((s.eng e).issued + 1) (2 ^ 32 - 1),
        ls := BitVec.ofNat 8 (s.streamLs (s.eng e).kit st pkts) } := by
  obtain ⟨tal, evs, htally⟩ := tallyAt_changes s s.bar.beatno 0x40 (some (s.eng e).kit)
    (e.val + 2 ^ 8 * s.streamLs (s.eng e).kit st pkts + 2 ^ 16 * (s.eng e).pc + 2 ^ 32 * (st.dl.getD 0 % 2 ^ 32))
  refine ⟨tal, evs, ?_⟩
  unfold State.tryStream
  simp only [hpkts, hgoes, State.tally, htally]
  exact setLs_in (s := { s with tal := tal, evs := evs }) (g := (s.eng e).streamed pkts st s.bar.beatno) _ hp

/-- A page homed in Main is ready for a STREAM and needs no FETCH. -/
theorem pageReady_main {k : Kit} {kp : KPage} {p : Page} (howner : s.ownerPage k kp = (k, kp))
    (hfind : s.findPage k kp = some p) (hframe : p.frame.isSome = true) : s.pageReady k kp = true := by
  simp [State.pageReady, howner, State.inPlace, hfind, hframe]

theorem mustFetch_main {k : Kit} {kp : KPage} {p : Page} (howner : s.ownerPage k kp = (k, kp))
    (hfind : s.findPage k kp = some p) (hframe : p.frame.isSome = true) : s.mustFetch k kp = false := by
  simp [State.mustFetch, howner, hfind, deepPage_of_frame hframe]

/-- A STREAM of one page that needs no FETCH starts none. -/
theorem streamFetches_one {st : StreamSt} (hone : st.count = 1) (hno : s.mustFetch (s.eng e).kit (st.page 0) = false) :
    s.streamFetches e st = s := by
  simp [State.streamFetches, StreamSt.positions, hone, List.range_one, forEach, hno]

/-- The packets of a STREAM of one page that is ready. -/
theorem inPlacePkts_one {k : Kit} {st : StreamSt} (hone : st.count = 1) (hlate : st.late = []) :
    s.inPlacePkts k st = st.fullPage 0 0x00 s.bar.beatno := by
  simp [State.inPlacePkts, StreamSt.positions, hone, hlate, List.range_one]

theorem streamBad_node {k : Kit} {ra rb : Word} {node : Node} {r : Ring} {n : Nat} (hrange : s.rangeBad k ra n true = none)
    (h : node ∉ (s.ring r).rosterIds ∨ (s.ring r).joined = false ∨ 29 < node.toNat) :
    s.streamBad k ra rb node r n = some 0x31 := by
  simp only [State.streamBad, hrange]
  refine if_pos ?_
  rcases h with h | h | h <;> simp [h]

theorem streamBad_good {k : Kit} {ra rb : Word} {node : Node} {r : Ring} {n : Nat} (hrange : s.rangeBad k ra n true = none)
    (hjoined : (s.ring r).joined = true) (hnode : node ∈ (s.ring r).rosterIds) (hid : node.toNat ≤ 29)
    (hoff : rb.toNat * 256 + n * 65536 ≤ 2 ^ 40) : s.streamBad k ra rb node r n = none := by
  simp only [State.streamBad, hrange]
  have hfits : ¬ 2 ^ 40 < rb.toNat * 256 + n * 65536 := Nat.not_lt.2 hoff
  exact if_neg (by simpa [hjoined, hnode, hid] using hfits)

theorem fullPage_length (st : StreamSt) (p status now : Nat) : (st.fullPage p status now).length = 16 := by
  rw [StreamSt.fullPage, List.length_map, List.length_range]

/-- The packets of a full page, in order. -/
theorem fullPage_packet {st : StreamSt} {p status now i : Nat} {x : PushPkt} (h : (st.fullPage p status now)[i]? = some x) :
    x = st.packet p i 64 false status (.kit ((st.page p).toNat * 65536 + 4096 * i)) now := by
  obtain ⟨hi, hx⟩ := List.getElem?_eq_some_iff.1 h
  simpa [StreamSt.fullPage] using hx.symm

/-! ### SIGNAL (12 R321) -/

/-- The packet of a SIGNAL. -/
def State.signalPkt (s : State) (e : Engine) (r : Ring) (dst : Node) (rs : GReg) (code : BitVec 8) : DevPkt :=
  eventPkt (BitVec.ofNat 4 (s.eng e).kit.val) r dst (0x0200 + code.toNat) (e.val + 65536 * ((s.eng e).r rs).toNat) []
    s.bar.beatno

theorem signalPkt_param (r : Ring) (dst : Node) (rs : GReg) (code : BitVec 8) : (s.signalPkt e r dst rs code).param =
    BitVec.ofNat 64 (0x0200 + code.toNat + 65536 * (e.val + 65536 * ((s.eng e).g[rs]).toNat)) := by
  have hcode := code.isLt
  have he := e.isLt
  have hreg := ((s.eng e).g[rs]).isLt
  have hfits : e.val + 65536 * ((s.eng e).g[rs]).toNat < 2 ^ 48 := by omega
  have hlow : 0x0200 + code.toNat < 65536 := by omega
  rw [State.signalPkt, EngSt.r]
  simp only [eventPkt, Nat.mod_eq_of_lt hfits, Nat.mod_eq_of_lt hlow]

end

/-- Settles O22: a STREAM that fails a check is `exec_stream_bad`, one of a page in Main takes effect at once
(`exec_stream_begins`, `tryStream_goes`); a SIGNAL sets LS, and where its node is named sends `signalPkt`. -/
theorem rudimentStreams : Obligations.RudimentStreams := by
  unfold Obligations.RudimentStreams
  refine ⟨fun s e ra rb kp node r h hp hidle hra ⟨w, hw, hrd, hsrc⟩ => ?stream, fun s e node r rs code h hp => ?signal⟩
  case stream =>
    intro g
    have hrange : s.rangeBad g.kit (g.r ra) 1 true = none := rangeBad_own hra hw hrd hsrc true
    refine ⟨fun p hjoined hnode hid hoff hroom hfind hframe => ?_,
      fun hbad dl => exec_stream_bad (n := 0) h hp hidle (streamBad_node hrange hbad)⟩
    have howner := ownerPage_own hw hsrc
    let u := s.calRan 9
    let st := g.newStream ra rb node r 1 s.bar.beatno
    have hpage : st.page 0 = kp := by
      have : (g.r ra).toNat = kp.toNat := hra
      simp [st, StreamSt.page, EngSt.newStream, this]
    have hready : u.pageReady g.kit kp = true := pageReady_main (s := u) howner hfind hframe
    have hfetch : u.streamFetches e st = u :=
      streamFetches_one rfl (by rw [hpage]; exact mustFetch_main (s := u) howner hfind hframe)
    have hpkts : u.inPlacePkts g.kit st = st.fullPage 0 0x00 s.bar.beatno := inPlacePkts_one rfl rfl
    have hgoes : u.streamGoes e st (st.fullPage 0 0x00 s.bar.beatno) = true := by
      have hno : u.notReady g.kit st = [] := by
        rw [State.notReady, StreamSt.positions, show st.count = 1 from rfl, List.range_one, List.filter_singleton, hpage, hready]
        rfl
      refine Bool.and_eq_true_iff.2 ⟨?_, decide_eq_true ?_⟩
      · rw [show u.notReady (u.eng e).kit st = [] from hno]
        exact Bool.or_true _
      · rw [fullPage_length]
        exact hroom
    obtain ⟨tal, evs, htry⟩ := tryStream_goes (s := u) hpkts hgoes hp
    have hrun := exec_stream_begins (n := 0) h hidle (streamBad_good hrange hjoined hnode hid hoff)
    refine ⟨_, st.fullPage 0 0x00 s.bar.beatno,
      hrun.trans (congrArg Host.Outcome.next ((congrArg (·.tryStream e st) hfetch).trans htry)), ?_⟩
    rw [eng_setEng]
    refine ⟨rfl, fullPage_length .., fun i x hx => ?packets, ?ls, rfl, rfl, fun o ho => eng_setEng_of_ne _ _ _ _ ho.symm,
      rfl, rfl, sameStores_of_eq rfl rfl rfl⟩
    case packets =>
      obtain rfl := fullPage_packet hx
      exact ⟨by simp [StreamSt.packet], hpage, by simp [StreamSt.packet, st, EngSt.newStream, EngSt.r],
        rfl, rfl, rfl, rfl, rfl, rfl⟩
    case ls =>
      show BitVec.ofNat 8 (u.streamLs _ st _) = 0x00 ∨ BitVec.ofNat 8 (u.streamLs _ st _) = 0x40
      unfold State.streamLs
      split
      · exact .inr rfl
      · exact .inl rfl
  case signal =>
    intro g k dst ok
    refine ⟨fun hno => exec_setLs rfl h hp ?unnamed, fun hhouse hoff => exec_setLs rfl h hp ?off,
      fun hhouse hnode hon hsusp => exec_setLs rfl h hp ?suspended, fun hnode hdst hgo =>
        ⟨s.signalPkt e r dst rs code, ?sent, rfl, rfl, rfl, rfl, rfl, rfl, rfl, signalPkt_param ..⟩⟩
    case unnamed =>
      dsimp only
      by_cases hn : node = 0x1F
      · have hnamed : k.notify ∉ (s.ring r).rosterIds := (if_pos hn : dst = k.notify) ▸ hno
        have hbad : (k.notify == 0x1F || !(s.ring r).rosterIds.contains k.notify) = true := by simp [hnamed]
        rw [if_pos (by simp [hn])]
        exact if_pos hbad
      · have hnamed : node ∉ (s.ring r).rosterIds := (if_neg hn : dst = node) ▸ hno
        have hbad : (!(s.ring r).rosterIds.contains node) = true := by simp [hnamed]
        rw [if_neg (by simpa using hn)]
        exact if_pos hbad
    case off =>
      have hbad : (k.notify == 0x1F || !(s.ring r).rosterIds.contains k.notify) = true := by simp [hoff]
      dsimp only
      rw [if_pos (by simp [hhouse])]
      exact if_pos hbad
    case suspended =>
      have hnamed : k.notify ∈ (s.ring r).rosterIds := (if_pos hhouse : dst = k.notify) ▸ hnode
      have hgood : ¬ (k.notify == 0x1F || !(s.ring r).rosterIds.contains k.notify) = true := by
        simpa [hnamed] using hon
      dsimp only
      rw [if_pos (by simp [hhouse])]
      exact (if_neg hgood).trans (if_pos hsusp)
    case sent =>
      refine congrArg Host.Outcome.next ((issueBy_goes h _).trans ?_)
      have hls := setLs_in (s := s.calRan 9) (g := { g with next := (s.bar.beatno + 1) % 2 ^ 48 }) 0x00 hp
      have hsend := sendDev_sends (s := ok 0x00) (p := s.signalPkt e r dst rs code) hdst
      dsimp only
      refine Eq.trans ?_ ((congrArg (·.sendDev (s.signalPkt e r dst rs code)) hls).trans hsend)
      by_cases hn : node = 0x1F
      · have hto : dst = k.notify := if_pos hn
        have hgoes : ¬ k.suspended = true := by simpa using hgo.resolve_left (not_not.2 hn)
        rw [hto] at hnode hdst ⊢
        have hgood : ¬ (k.notify == 0x1F || !(s.ring r).rosterIds.contains k.notify) = true := by
          simpa [hnode] using hdst
        rw [if_pos (by simp [hn])]
        exact (if_neg hgood).trans (if_neg hgoes)
      · have hto : dst = node := if_neg hn
        rw [hto] at hnode ⊢
        have hgood : ¬ (!(s.ring r).rosterIds.contains node) = true := by simp [hnode]
        rw [if_neg (by simpa using hn)]
        exact if_neg hgood

end Sys2Proof.Machine

namespace Sys2Proof.Machine

/-! ### What ends a FETCH (12 R317) -/

section
variable {s : State} {e : Engine}

theorem setEng_eng (s : State) (e : Engine) : s.setEng e (s.eng e) = s := by
  simp [State.setEng, State.eng]

theorem fetchComplete_one {f : FetchSt} {kp : KPage} (hone : (s.eng e).fetches = [f]) (hpages : f.pages = [kp]) :
    s.fetchComplete e kp = if s.fetchDone (s.eng e).kit f.near kp then s.setEng e { s.eng e with fetches := [] } else s := by
  unfold State.fetchComplete
  by_cases hdone : s.fetchDone (s.eng e).kit f.near kp = true
  · simp [hone, hpages, hdone]
  · have hsame : ({ s.eng e with fetches := [f] } : EngSt) = s.eng e := by rw [← hone]
    simp [hone, hpages, hdone, hsame, setEng_eng]

/-! ### What follows a full page (12 R322) -/

theorem issuing_of_done {g : EngSt} {st : StreamSt} (hone : g.streams = [st]) (hdone : st.done = true) : g.issuing = none := by
  simp [EngSt.issuing, hone, hdone]

/-- The follow-up of a late page that is ready. -/
theorem fullPageReady_goes {st : StreamSt} {pos : Nat} (hone : (s.eng e).streams = [st]) (hdone : st.done = true)
    (hfollow : st.follow = [pos]) (hready : s.pageReady (s.eng e).kit (st.page pos) = true)
    (hroom : (s.eng e).fifo.length + 16 ≤ 512) : s.fullPageReady e pos = s.setEng e { s.eng e with
      fifo := (s.eng e).fifo ++ st.fullPage pos 0x41 s.bar.beatno, streams := [{ st with follow := [] }] } := by
  unfold State.fullPageReady
  simp [hone, hdone, hfollow, hready, hroom, Config.pushFifo, updWhere]

theorem fullPageReady_waits {st : StreamSt} {pos : Nat} (hone : (s.eng e).streams = [st]) (hdone : st.done = true)
    (hready : s.pageReady (s.eng e).kit (st.page pos) = false) : s.fullPageReady e pos = s := by
  unfold State.fullPageReady
  simp [hone, hready, issuing_of_done hone hdone]

/-! ### STREAM_DEADLINE (12 R322, R323) -/

/-- Late pages told to Tally change Tally and events alone. -/
theorem tellLate_changes (s : State) (e : Engine) (st : StreamSt) (late : List Nat) :
    ∃ tal evs, s.tellLate e st late = { s with tal := tal, evs := evs } := by
  unfold State.tellLate
  refine forEach_forall (R := fun s t => ∃ tal evs, t = { s with tal := tal, evs := evs }) (fun s => ⟨s.tal, s.evs, rfl⟩)
    ?_ ?_ late s
  · rintro s t u ⟨_, _, rfl⟩ ⟨tal, evs, rfl⟩
    exact ⟨tal, evs, rfl⟩
  · exact fun p t => tallyAt_changes t _ _ _ _

/-- Packets sent one after another to a node. -/
theorem forEach_sendDev {α : Type} (pkt : α → Nat → DevPkt) (l : List α) (s : State) (h : ∀ x b, (pkt x b).dest ≠ 0x1F) :
    forEach (fun x (t : State) => t.sendDev (pkt x t.bar.beatno)) l s =
      { s with devq := s.devq ++ l.map fun x => pkt x s.bar.beatno } := by
  induction l generalizing s with
  | nil => simp [forEach]
  | cons x l ih =>
    rw [forEach, sendDev_sends (h x _), ih]
    simp

/-- A STREAM once its late pages are judged. -/
def State.judged (s : State) (e : Engine) (st : StreamSt) : StreamSt :=
  { st with judged := true, late := s.notReady (s.eng e).kit st }

/-- An engine whose STREAM has been judged counts the late pages. -/
def State.lateCounted (s : State) (e : Engine) (st : StreamSt) : EngSt :=
  { s.eng e with late := up32 (s.eng e).late (s.notReady (s.eng e).kit st).length }

/-- Under STALL late pages are counted, and nothing is sent. -/
theorem judge_stall {st : StreamSt} (hpol : st.pol.1 = .stall) : ∃ tal evs, s.judge e st =
    (({ s with tal := tal, evs := evs }).setEng e (s.lateCounted e st), s.judged e st) := by
  obtain ⟨tal, evs, htell⟩ := tellLate_changes s e st (s.notReady (s.eng e).kit st)
  refine ⟨tal, evs, ?_⟩
  have hnone : (s.notReady (s.eng e).kit st).filter (fun p => st.pol.1 == .late ||
      (st.pol.1 == .muffle && (s.usableMuffle (s.eng e).kit (st.page p)).isNone)) = [] := by
    rw [hpol]
    exact List.filter_false ..
  unfold State.judge
  simp only [hnone, htell]
  rfl

/-- RUD_LATE of a late page. -/
def State.latePkt (s : State) (e : Engine) (st : StreamSt) (p : Nat) : DevPkt :=
  eventPkt (BitVec.ofNat 4 (s.eng e).kit.val) st.ring st.node 0x0301
    (e.val + 256 * p + 65536 * (st.dl.getD 0 % 2 ^ 32)) [] s.bar.beatno

/-- Under LATE each late page is told to the node. -/
theorem judge_late {st : StreamSt} (hpol : st.pol.1 = .late) (hnode : st.node ≠ 0x1F) : ∃ tal evs, s.judge e st =
    ({ ({ s with tal := tal, evs := evs }).setEng e (s.lateCounted e st) with
        devq := s.devq ++ (s.notReady (s.eng e).kit st).map (s.latePkt e st) }, s.judged e st) := by
  obtain ⟨tal, evs, htell⟩ := tellLate_changes s e st (s.notReady (s.eng e).kit st)
  refine ⟨tal, evs, ?_⟩
  have hall : (s.notReady (s.eng e).kit st).filter (fun p => st.pol.1 == .late ||
      (st.pol.1 == .muffle && (s.usableMuffle (s.eng e).kit (st.page p)).isNone)) = s.notReady (s.eng e).kit st := by
    rw [hpol]
    exact List.filter_true ..
  unfold State.judge
  simp only [hall, htell]
  rw [forEach_sendDev (fun p b => eventPkt (BitVec.ofNat 4 (s.eng e).kit.val) st.ring st.node 0x0301
    (e.val + 256 * p + 65536 * (st.dl.getD 0 % 2 ^ 32)) [] b) _ _ fun _ _ => hnode]
  rfl

variable {st : StreamSt} {d : Nat} (hone : (s.eng e).streams = [st]) (hdone : st.done = false) (hdl : st.dl = some d)
  (hjudged : st.judged = false)
include hone hdone

theorem issuing_one : (s.eng e).issuing = some st := by simp [EngSt.issuing, hone, hdone]

include hdl

theorem streamDeadline_waits (h : reached d s.bar.beatno = false ∨ s.mode.traffic = false) : s.streamDeadline e = s := by
  simp only [State.streamDeadline, issuing_one hone hdone, hdl]
  exact if_pos (by rcases h with h | h <;> simp [h])

include hjudged

theorem streamDeadline_judges (hreached : reached d s.bar.beatno = true) (htraffic : s.mode.traffic = true)
    (hcal : s.calMore 4 = true) : s.streamDeadline e =
      if st.pol.1 = .stall then ((s.calRan 4).judge e st).1.setEng e
        ((((s.calRan 4).judge e st).1.eng e).setStream (s.judged e st))
      else ((s.calRan 4).judge e st).1.tryStream e (s.judged e st) := by
  simp only [State.streamDeadline, issuing_one hone hdone, hdl]
  rw [if_neg (by simp [hreached, htraffic, hcal, hjudged])]
  simp only [beq_iff_eq]
  rfl

end

/-- Under LATE a STREAM with no page ready takes effect without a packet. -/
theorem inPlacePkts_late {s : State} {k : Kit} {st : StreamSt} (hpol : st.pol.1 = .late) (hall : st.late = st.positions) :
    s.inPlacePkts k st = [] := by
  rw [State.inPlacePkts, List.flatten_eq_nil_iff]
  intro l hl
  obtain ⟨p, hp, rfl⟩ := List.mem_map.1 hl
  simp [hall, hp, hpol]

theorem streamLs_late {s : State} {k : Kit} {st : StreamSt} (hpol : st.pol.1 = .late) (hlate : st.late ≠ []) :
    s.streamLs k st [] = 0x41 := by
  simp [State.streamLs, hpol, hlate]

theorem program_congr {s t : State} {e : Engine} (hcopies : t.copies = s.copies) (hkit : (t.eng e).kit = (s.eng e).kit)
    (hslot : (t.eng e).slot = (s.eng e).slot) : t.program e = s.program e := by
  simp only [State.program, State.copyOf, hcopies, hkit, hslot]

/-- Settles O23: a FETCH's page by `fetchComplete_one`, a follow-up by `fullPageReady_goes`; a deadline reached is judged
(`streamDeadline_judges`), under STALL by `judge_stall`, under LATE by `judge_late` and `tryStream_goes`. -/
theorem fetchesAndDeadlines : Obligations.FetchesAndDeadlines := by
  unfold Obligations.FetchesAndDeadlines
  refine ⟨fun s e => ⟨fun f kp hone hpages hdone => ?complete, fun f kp hone hpages hdone => ?incomplete,
    fun st pos hone hdone hfollow hready hroom => ?follow, fun st pos hone hdone hready => ?notYet⟩,
    fun s e st d hone hdone hdl hjudged => ⟨fun h => ?before, fun hreached htraffic hcal hpol => ?stall,
      fun hreached htraffic hcal hpol hlate hcount hnode hroom hp => ?late⟩⟩
  case complete => exact congrArg Host.Outcome.next ((fetchComplete_one hone hpages).trans (if_pos hdone))
  case incomplete => exact congrArg Host.Outcome.next ((fetchComplete_one hone hpages).trans (if_neg (by simp [hdone])))
  case follow =>
    refine ⟨_, st.fullPage pos.toNat 0x41 s.bar.beatno,
      congrArg Host.Outcome.next (fullPageReady_goes hone hdone hfollow hready hroom), ?_⟩
    rw [eng_setEng]
    refine ⟨rfl, fullPage_length .., fun i x hx => ?_, by simp, rfl, sameStores_of_eq rfl rfl rfl⟩
    obtain rfl := fullPage_packet hx
    exact ⟨rfl, rfl, rfl, rfl, rfl, rfl, rfl⟩
  case notYet => exact congrArg Host.Outcome.next (fullPageReady_waits hone hdone hready)
  case before => exact congrArg Host.Outcome.next (streamDeadline_waits hone hdone hdl h)
  case stall =>
    obtain ⟨tal, evs, hjudge⟩ := judge_stall (s := s.calRan 4) (e := e) hpol
    refine ⟨_, congrArg Host.Outcome.next ((streamDeadline_judges hone hdone hdl hjudged hreached htraffic hcal).trans
      (if_pos hpol)), ?_⟩
    rw [hjudge, eng_setEng, eng_setEng]
    refine ⟨?_, Nat.min_comm _ _, rfl, rfl, rfl, rfl, sameStores_of_eq rfl rfl rfl⟩
    have hnone : (s.eng e).streams.filter (fun x => x.done) = [] := by simp [hone, hdone]
    exact congrArg (· ++ [s.judged e st]) hnone
  case late =>
    obtain ⟨tal, evs, hjudge⟩ := judge_late (s := s.calRan 4) (e := e) hpol hnode
    have hnotReady : s.notReady (s.eng e).kit st = List.range st.count := hlate
    have hpkts (t : State) (k : Kit) : t.inPlacePkts k (s.judged e st) = [] := inPlacePkts_late hpol hnotReady
    have hsome : (s.judged e st).late ≠ [] := by
      rw [show (s.judged e st).late = List.range st.count from hnotReady]
      simpa using Nat.ne_of_gt hcount
    let u := ((s.calRan 4).judge e st).1
    have hu : u.eng e = s.lateCounted e st := by
      simp only [u, hjudge]
      exact eng_setEng ..
    have hgoes : u.streamGoes e (s.judged e st) [] = true := by
      rw [State.streamGoes, hu]
      simpa [State.judged, State.lateCounted, hpol, Config.pushFifo] using hroom
    have hpu : InProgram u e (pcOnward (u.eng e)).1 := by
      have hcopies : u.copies = s.copies := by simp only [u, hjudge]; rfl
      obtain ⟨p, hprog, hpc⟩ := hp
      rw [hu]
      exact ⟨p, (program_congr hcopies (by rw [hu]; rfl) (by rw [hu]; rfl)).trans hprog, hpc⟩
    obtain ⟨tal', evs', htry⟩ := tryStream_goes (s := u) (hpkts _ _) hgoes hpu
    refine ⟨_, congrArg Host.Outcome.next ((streamDeadline_judges hone hdone hdl hjudged hreached htraffic hcal).trans
      ((if_neg (by simp [hpol])).trans htry)), ?_⟩
    have hcounted : s.lateCounted e st = { s.eng e with late := min ((s.eng e).late + st.count) (2 ^ 32 - 1) } := by
      rw [State.lateCounted, hnotReady, List.length_range, up32, satAdd, Nat.min_comm]
      rfl
    rw [eng_setEng, streamLs_late (st := s.judged e st) hpol hsome, hu, hcounted]
    have hdevq : u.devq = s.devq ++ (s.notReady (s.eng e).kit st).map (s.latePkt e st) := by simp only [u, hjudge]; rfl
    have hstores : SameStores s u := by simp only [u, hjudge]; exact sameStores_of_eq rfl rfl rfl
    refine ⟨rfl, List.append_nil _, rfl, rfl, hdevq.trans ?_, sameStores_trans hstores (sameStores_of_eq rfl rfl rfl)⟩
    rw [hnotReady]
    refine congrArg (s.devq ++ ·) (List.map_congr_left fun p _ => ?_)
    rw [State.latePkt, hdl]
    rfl

end Sys2Proof.Machine

namespace Sys2Proof.Machine

/-! ### The checks of a page range (12 R316) -/

section
variable {s : State} {k : Kit} {ra : Word} {n : Nat}

theorem rangeBad_past (shared : Bool) (h : 2 ^ 23 < ra.toNat + n) : s.rangeBad k ra n shared = some 0x31 := by
  unfold State.rangeBad
  exact if_pos (by simp only [Bool.or_eq_true, decide_eq_true_eq]; exact .inr h)

variable (hin : ra.toNat + (n + 1) ≤ 2 ^ 23)
include hin

theorem rangeBad_unmapped {i : Nat} (shared : Bool) (hi : i < n + 1)
    (hnone : s.windowAt k ((ra.toNat + i) * 65536) = none) : s.rangeBad k ra (n + 1) shared = some 0x22 := by
  have hany : (((List.range (n + 1)).map fun i => (ra.toNat + i) * 65536).any fun a => (s.windowAt k a).isNone) = true :=
    List.any_eq_true.2 ⟨_, List.mem_map_of_mem (List.mem_range.2 hi), by simp [hnone]⟩
  unfold State.rangeBad
  exact (if_neg (by simp only [Bool.or_eq_true, decide_eq_true_eq]; omega)).trans (if_pos hany)

theorem rangeBad_denied {i : Nat} {w : Window} (hi : i < n + 1)
    (hall : ∀ l, l < n + 1 → s.windowAt k ((ra.toNat + l) * 65536) ≠ none)
    (hw : s.windowAt k ((ra.toNat + i) * 65536) = some w) (hbad : w.rd = false ∨ w.srcKit ≠ none) :
    s.rangeBad k ra (n + 1) false = some 0x20 := by
  have hnone : ¬ (((List.range (n + 1)).map fun i => (ra.toNat + i) * 65536).any fun a => (s.windowAt k a).isNone) = true := by
    simpa using hall
  have hbad' : (!w.rd || (!false && w.srcKit.isSome)) = true := by
    rcases hbad with h | h <;> simp [h, Option.isSome_iff_ne_none]
  unfold State.rangeBad
  refine (if_neg (by simp only [Bool.or_eq_true, decide_eq_true_eq]; omega)).trans ((if_neg hnone).trans (if_pos ?_))
  exact List.any_eq_true.2 ⟨_, List.mem_map_of_mem (List.mem_range.2 hi), by simpa only [hw] using hbad'⟩

end

section
variable {s : State} {e : Engine} {ra : GReg}

/-- FETCH, PIN, UNPIN and HINT_EVICT of a range that fails a check set LS and go on. -/
theorem range_refused {n : BitVec 4} {ls : Nat} (h : Issues s e) (hp : InProgram s e (pcOnward (s.eng e)).1)
    (hroom : (s.eng e).fetches.length < 8)
    (hbad : s.rangeBad (s.eng e).kit ((s.eng e).r ra) (n.toNat + 1) false = some ls) :
    let t := (s.calRan 9).setEng e { issuedAt (s.eng e) s.bar.beatno (pcOnward (s.eng e)) with ls := BitVec.ofNat 8 ls }
    (∀ tgt dl, exec (.fetch e ra tgt n dl) s = .next t) ∧ (∀ tgt, exec (.rudPin e ra tgt n) s = .next t) ∧
      (∀ tgt, exec (.rudUnpin e ra tgt n) s = .next t) ∧ (∀ tgt, exec (.hintEvict e ra tgt n) s = .next t) := by
  generalize hg : ({ s.eng e with next := (s.bar.beatno + 1) % 2 ^ 48 } : EngSt) = g
  have hroom' : ¬ 8 ≤ g.fetches.length := by subst hg; exact Nat.not_le.2 hroom
  have hbad' : (s.calRan 9).rangeBad g.kit (g.r ra) (n.toNat + 1) false = some ls := hg ▸ hbad
  refine ⟨fun tgt dl => exec_setLs rfl h hp ?_, fun tgt => exec_setLs rfl h hp ?_, fun tgt => exec_setLs rfl h hp ?_,
    fun tgt => exec_setLs rfl h hp ?_⟩ <;> rw [hg] <;> simp only [hroom', hbad', if_false]

/-! ### A range of one page (12 R316) -/

/-- A page that an engine may name is in the range of one page from its register. -/
theorem rangePages_own {kp : KPage} {w : Word} (hra : w.toNat = kp.toNat) : rangePages w 1 = [kp] := by
  simp [rangePages, List.range_one, hra]

theorem rangeBad_page {kp : KPage} (hown : OwnPage s e ra kp) (shared : Bool) :
    s.rangeBad (s.eng e).kit ((s.eng e).r ra) 1 shared = none := by
  obtain ⟨hra, w, hw, hrd, hsrc⟩ := hown
  exact rangeBad_own hra hw hrd hsrc shared

/-- What an engine that issues finds for the page that it names. -/
theorem page_range {kp : KPage} (hown : OwnPage s e ra kp) {g : EngSt}
    (hg : { s.eng e with next := (s.bar.beatno + 1) % 2 ^ 48 } = g) :
    (s.calRan 9).rangeBad g.kit (g.r ra) ((0 : BitVec 4).toNat + 1) false = none ∧
      rangePages (g.r ra) ((0 : BitVec 4).toNat + 1) = [kp] := by
  subst hg
  exact ⟨rangeBad_page hown false, rangePages_own hown.1⟩

theorem ownerPage_page {kp : KPage} (hown : OwnPage s e ra kp) : s.ownerPage (s.eng e).kit kp = ((s.eng e).kit, kp) := by
  obtain ⟨hra, w, hw, hrd, hsrc⟩ := hown
  exact ownerPage_own hw hsrc

/-- An engine that has fetched a page into a state. -/
def EngSt.fetching (g : EngSt) (t : State) (kp : KPage) (near : Bool) (d : Option Nat) : EngSt :=
  { g with fetches := if t.fetchDone g.kit near kp then g.fetches else g.fetches ++ [⟨[kp], near, d⟩] }

theorem fetching_done {g : EngSt} {t : State} {kp : KPage} {near : Bool} (d : Option Nat)
    (h : t.fetchDone g.kit near kp = true) : g.fetching t kp near d = g := by
  rw [EngSt.fetching, if_pos h]

theorem fetching_left {g : EngSt} {t : State} {kp : KPage} {near : Bool} (d : Option Nat)
    (h : t.fetchDone g.kit near kp = false) : g.fetching t kp near d =
      { g with fetches := g.fetches ++ [⟨[kp], near, d⟩] } := by
  rw [EngSt.fetching, if_neg (by simp [h])]

section
variable {kp : KPage} (h : Issues s e) (hown : OwnPage s e ra kp)
include h hown

theorem exec_fetch_main {dl : Bool} {t : State} {g : EngSt} (hg : { s.eng e with next := (s.bar.beatno + 1) % 2 ^ 48 } = g)
    (hroom : (s.eng e).fetches.length < 8) (hopen : s.fetchMuted (s.eng e).kit [kp] = false)
    (hone : State.fetchOne g.kit false (e, g.deadlineFor dl) kp (s.calRan 9) = some t) :
    exec (.fetch e ra .main 0 dl) s = .next (t.setLs e (g.fetching t kp false (g.deadlineFor dl)) 0x00) := by
  refine congrArg Host.Outcome.next ((issueBy_goes h _).trans ?_)
  have hroom' : ¬ 8 ≤ g.fetches.length := by subst hg; exact Nat.not_le.2 hroom
  obtain ⟨hgood, hpages⟩ := page_range hown hg
  have hopen' : (s.calRan 9).fetchMuted g.kit [kp] = false := hg ▸ hopen
  have hnear : (Tgt.main == Tgt.near) = false := rfl
  rw [hg]
  simp only [hroom', hgood, hpages, hopen', State.eachPage, hnear, hone, if_false, EngSt.fetching]
  cases hdone : t.fetchDone g.kit false kp <;> simp [hdone]

theorem exec_fetch_done {dl : Bool} {t : State} {g : EngSt} (hg : { s.eng e with next := (s.bar.beatno + 1) % 2 ^ 48 } = g)
    (hroom : (s.eng e).fetches.length < 8) (hopen : s.fetchMuted (s.eng e).kit [kp] = false)
    (hone : State.fetchOne g.kit false (e, g.deadlineFor dl) kp (s.calRan 9) = some t)
    (hdone : t.fetchDone g.kit false kp = true) : exec (.fetch e ra .main 0 dl) s = .next (t.setLs e g 0x00) :=
  (exec_fetch_main h hown hg hroom hopen hone).trans
    (congrArg (fun x => Host.Outcome.next (t.setLs e x 0x00)) (fetching_done _ hdone))

theorem exec_fetch_left {dl : Bool} {t : State} {g : EngSt} (hg : { s.eng e with next := (s.bar.beatno + 1) % 2 ^ 48 } = g)
    (hroom : (s.eng e).fetches.length < 8) (hopen : s.fetchMuted (s.eng e).kit [kp] = false)
    (hone : State.fetchOne g.kit false (e, g.deadlineFor dl) kp (s.calRan 9) = some t)
    (hleft : t.fetchDone g.kit false kp = false) : exec (.fetch e ra .main 0 dl) s = .next
      (t.setLs e { g with fetches := g.fetches ++ [⟨[kp], false, g.deadlineFor dl⟩] } 0x00) :=
  (exec_fetch_main h hown hg hroom hopen hone).trans
    (congrArg (fun x => Host.Outcome.next (t.setLs e x 0x00)) (fetching_left _ hleft))

theorem exec_fetch_muted {dl : Bool} (tgt : Tgt) (hp : InProgram s e (pcOnward (s.eng e)).1)
    (hroom : (s.eng e).fetches.length < 8) (hmuted : s.fetchMuted (s.eng e).kit [kp] = true) :
    exec (.fetch e ra tgt 0 dl) s = .next ((s.calRan 9).setEng e
      { issuedAt (s.eng e) s.bar.beatno (pcOnward (s.eng e)) with ls := 0x20 }) := by
  refine exec_setLs (ls := 0x20) rfl h hp ?_
  generalize hg : ({ s.eng e with next := (s.bar.beatno + 1) % 2 ^ 48 } : EngSt) = g
  have hroom' : ¬ 8 ≤ g.fetches.length := by subst hg; exact Nat.not_le.2 hroom
  obtain ⟨hgood, hpages⟩ := page_range hown hg
  have hmuted' : (s.calRan 9).fetchMuted g.kit [kp] = true := hg ▸ hmuted
  simp only [hroom', hgood, hpages, hmuted', if_false, if_true]

theorem exec_pin_one {t : State} (tgt : Tgt)
    (hone : State.pinOne (s.eng e).kit (tgtArg tgt) kp (s.calRan 9) = some t) :
    exec (.rudPin e ra tgt 0) s = .next (t.setLs e { s.eng e with next := (s.bar.beatno + 1) % 2 ^ 48 } 0x00) := by
  refine congrArg Host.Outcome.next ((issueBy_goes h _).trans ?_)
  generalize hg : ({ s.eng e with next := (s.bar.beatno + 1) % 2 ^ 48 } : EngSt) = g
  obtain ⟨hgood, hpages⟩ := page_range hown hg
  have hone' : State.pinOne g.kit (tgtArg tgt) kp (s.calRan 9) = some t := hg ▸ hone
  simp only [hgood, hpages, State.eachPage, hone']
  rfl

theorem exec_unpin_one (tgt : Tgt3) : exec (.rudUnpin e ra tgt 0) s = .next
    ((State.unpinOne (s.eng e).kit (tgt3Arg tgt) kp (s.calRan 9)).setLs e
      { s.eng e with next := (s.bar.beatno + 1) % 2 ^ 48 } 0x00) := by
  refine congrArg Host.Outcome.next ((issueBy_goes h _).trans ?_)
  generalize hg : ({ s.eng e with next := (s.bar.beatno + 1) % 2 ^ 48 } : EngSt) = g
  obtain ⟨hgood, hpages⟩ := page_range hown hg
  have hkit : (s.eng e).kit = g.kit := by subst hg; rfl
  simp only [hgood, hpages, hkit]
  rfl

theorem exec_hint_one (tgt : Tgt3) : exec (.hintEvict e ra tgt 0) s = .next
    ((State.hintOne (s.eng e).kit (tgt3Arg tgt) kp (s.calRan 9)).setLs e
      { s.eng e with next := (s.bar.beatno + 1) % 2 ^ 48 } 0x00) := by
  refine congrArg Host.Outcome.next ((issueBy_goes h _).trans ?_)
  generalize hg : ({ s.eng e with next := (s.bar.beatno + 1) % 2 ^ 48 } : EngSt) = g
  obtain ⟨hgood, hpages⟩ := page_range hown hg
  have hkit : (s.eng e).kit = g.kit := by subst hg; rfl
  simp only [hgood, hpages, hkit]
  rfl

end

end

/-! ### What a FETCH does with its page (12 R316, R317) -/

/-- A page without a frame is homed in Deep. -/
theorem deepPage_of_no_frame {p : Page} (hframe : p.frame = none) : p.deepPage.isSome = true := by
  unfold Page.frame at hframe
  unfold Page.deepPage
  cases hh : p.home <;> simp [hh] at hframe ⊢

section
variable {s : State} {k : Kit} {kp : KPage} {p : Page} (howner : s.ownerPage k kp = (k, kp))
  (hfind : s.findPage k kp = some p)
include howner hfind

theorem fetchOne_here (tag : Engine × Option Nat) (hmain : p.frame.isSome = true ∨ p.slot.isSome = true) :
    State.fetchOne k false tag kp s = some s := by
  have hstays : (p.deepPage.isSome && p.slot.isNone) = false := by
    rcases hmain with h | h
    · simp [deepPage_of_frame h]
    · simp [Option.isNone_eq_false_iff.2 h]
  simp only [State.fetchOne, backPage_backed hfind, State.fetchGo, howner, hfind, hstays, Option.map_some]
  rfl

theorem fetchDone_here (hmain : p.frame.isSome = true ∨ p.slot.isSome = true) : s.fetchDone k false kp = true := by
  simpa [State.fetchDone, howner, State.inMain, hfind] using .inl hmain

variable (hframe : p.frame = none) (hslot : p.slot = none) (hmoving : s.moving k kp = false)
include hframe hslot hmoving

theorem fetchOne_promotes {n : Nat} (tag : Engine × Option Nat) (hpick : s.pickSlot k = some (n, none)) :
    State.fetchOne k false tag kp s = some (s.addMove { promotion s k kp p n with fetch := some tag }) := by
  simp [State.fetchOne, backPage_backed hfind, State.fetchGo, howner, hfind, deepPage_of_no_frame hframe, hslot,
    State.startPromote, hmoving, hpick, promotion]
  rfl

/-- A page whose promotion has just begun is not complete. -/
theorem fetchDone_promoting {m : Move} (hkit : m.kit = k) (hkp : m.kp = kp) (hkind : m.kind = .promote) (hreads : m.reads ≠ 0) :
    (s.addMove m).fetchDone k false kp = false := by
  have howner' : (s.addMove m).ownerPage k kp = (k, kp) := howner
  have hfind' : (s.addMove m).findPage k kp = some p := hfind
  have hnew : (s.addMove m).inbound k kp = some m := by
    have hold : s.moves.find? (fun m => m.kit == k && m.kp == kp && (m.kind == .promote || m.kind == .rehome)) = none := by
      rw [List.find?_eq_none]
      intro x hx
      have := List.any_eq_false.1 hmoving x hx
      simp_all
    rw [State.inbound, State.addMove, List.find?_append, hold]
    simp [hkit, hkp, hkind]
  have hno : (m.reads == 0) = false := by simpa using hreads
  simp only [State.fetchDone, howner', State.inMain, hfind', hframe, hslot, State.pulsedIn, hnew, hno]
  rfl

end

/-- A page with data that is not in place has a sector to read from Deep. -/
theorem reads_of_not_inPlace {s : State} {k : Kit} {kp : KPage} {p : Page} (hfind : s.findPage k kp = some p)
    (h : s.inPlace k kp = false) : ~~~ p.zero ≠ 0 := by
  intro hzero
  simp [State.inPlace, hfind, hzero, sectors] at h

theorem fetchMuted_backed {s : State} {k : Kit} {kp : KPage} {p : Page} (hfind : s.findPage k kp = some p) :
    s.fetchMuted k [kp] = false := by
  simp [State.fetchMuted, hfind]

theorem fetchMuted_unbacked {s : State} {k : Kit} {kp : KPage} (hnone : s.findPage k kp = none) (hmuted : s.deep.muted = true)
    (hhome : s.autoAt k kp = false ∨ s.tier.newhome = false ∨ s.homeChoice k = none) : s.fetchMuted k [kp] = true := by
  rcases hhome with h | h | h <;> simp [State.fetchMuted, hnone, hmuted, h]

/-! ### What HINT_EVICT does with its page (12 R316) -/

/-- The slot stamp of a page that is not pinned in Main. -/
theorem updPage_unpinned (s : State) (k : Kit) (kp : KPage) (age : Nat) :
    (s.updPage k kp fun p => if p.mainPin || p.impliedPin then p else { p with age := age }) = { s with
      pages := s.pages.map fun q => if (q.kit = k ∧ q.kp = kp) ∧ q.mainPin = false ∧ q.impliedPin = false then
        { q with age := age } else q } := by
  rw [State.updPage, updWhere_page]
  refine congrArg (fun l => { s with pages := l }) (List.map_congr_left fun q _ => ?_)
  by_cases hmine : q.kit = k ∧ q.kp = kp
  · by_cases hmain : q.mainPin = true <;> by_cases himplied : q.impliedPin = true <;> simp [hmine, hmain, himplied]
  · simp only [hmine, false_and, if_false]

/-- A page's blocks and slot, unless they are pinned, made the oldest as TGT asks. -/
def State.hinted (s : State) (k : Kit) (kp : KPage) (tgt : Tgt3) : State := { s with
  pages := s.pages.map fun q => if (q.kit = k ∧ q.kp = kp) ∧ tgt ≠ .near ∧ q.mainPin = false ∧ q.impliedPin = false then
    { q with age := s.oldest } else q
  near := s.near.map fun b => if b.kit = k ∧ b.kp = kp ∧ tgt ≠ .main ∧ s.nearPinned k kp = false then
    { b with age := s.oldest } else b }

theorem hintOne_eq {s : State} {k : Kit} {kp : KPage} (tgt : Tgt3) (hmoving : s.moving k kp = false)
    (hbusy : s.busyPage k kp = false) : State.hintOne k (tgt3Arg tgt) kp s = s.hinted k kp tgt := by
  unfold State.hintOne State.hinted
  simp only [updPage_unpinned]
  cases tgt <;> by_cases hpin : s.nearPinned k kp = true <;> simp [tgt3Arg, hmoving, hbusy, hpin, updWhere]

/-- Settles O21: a range that fails a check by `range_refused`; one page by `exec_fetch_one`, `exec_pin_one`, `exec_unpin_one` and
`exec_hint_one`, with what each does to its page. That HINT_EVICT makes a page oldest of all, whichever share holds it (log 49),
and that a Muted Deep denies the FETCH of a page that it would back (log 12), are the model's choices. -/
theorem rudimentPages : Obligations.RudimentPages := by
  unfold Obligations.RudimentPages
  refine ⟨fun s e ra n h hp hroom => ?range, fun s e ra kp dl h hown hp hroom => ?fetch, fun s e ra kp h hown hp => ?pins⟩
  case range =>
    intro g base all
    refine ⟨fun hpast => range_refused h hp hroom (rangeBad_past false hpast), fun hin => ⟨fun i hi hnone => ?_,
      fun i w hi hall hw hbad => ?_⟩⟩
    · exact range_refused h hp hroom (rangeBad_unmapped hin false (Nat.lt_succ_of_le hi) hnone)
    · exact range_refused h hp hroom
        (rangeBad_denied hin (Nat.lt_succ_of_le hi) (fun l hl => hall l (Nat.le_of_lt_succ hl)) hw hbad)
  case fetch =>
    intro g g1 d
    have howner : (s.calRan 9).ownerPage g.kit kp = (g.kit, kp) := ownerPage_page hown
    refine ⟨fun p hfind hmain => ?here, fun p n hfind hframe hslot hplace hmoving hpick => ?promotes,
      fun hnone hmuted hhome tgt => exec_fetch_muted h hown tgt hp hroom (fetchMuted_unbacked hnone hmuted hhome)⟩
    case here =>
      have hone := fetchOne_here (s := s.calRan 9) howner hfind (e, d) hmain
      have hdone : (s.calRan 9).fetchDone g.kit false kp = true := fetchDone_here howner hfind hmain
      have hrun := exec_fetch_done h hown rfl hroom (fetchMuted_backed hfind) hone hdone
      exact hrun.trans (congrArg Host.Outcome.next (setLs_in (s := s.calRan 9) 0x00 hp))
    case promotes =>
      let m : Move := { promotion (s.calRan 9) g.kit kp p n with fetch := some (e, d) }
      have hone := fetchOne_promotes (s := s.calRan 9) howner hfind hframe hslot hmoving (e, d) hpick
      have hleft : ((s.calRan 9).addMove m).fetchDone g.kit false kp = false :=
        fetchDone_promoting (s := s.calRan 9) howner hfind hframe hslot hmoving rfl rfl rfl (reads_of_not_inPlace hfind hplace)
      have hrun := exec_fetch_left h hown rfl hroom (fetchMuted_backed hfind) hone hleft
      exact ⟨_, m, hrun.trans (congrArg Host.Outcome.next (setLs_in (s := (s.calRan 9).addMove m) 0x00 hp)), rfl, rfl, rfl, rfl,
        rfl, rfl, rfl, eng_setEng .., sameStores_of_eq rfl rfl rfl⟩
  case pins =>
    intro g g1 mine old
    refine ⟨fun p tgt hfind hpin => ?pinned, fun p hfind hframe hmain himplied hmay => ?pinMain, fun tgt => ?unpin,
      fun tgt hmoving hbusy => ?hint⟩
    case pinned =>
      have hone : State.pinOne g.kit (tgtArg tgt) kp (s.calRan 9) = some (s.calRan 9) :=
        pinOne_pinned (s := s.calRan 9) hfind (by cases tgt <;> exact hpin)
      exact (exec_pin_one h hown tgt hone).trans (congrArg Host.Outcome.next (setLs_in (s := s.calRan 9) 0x00 hp))
    case pinMain =>
      have hone := pinOne_main (s := s.calRan 9) hfind rfl hframe hmain himplied hmay
      refine ⟨_, (exec_pin_one h hown .main hone).trans
        (congrArg Host.Outcome.next (setLs_in (s := (s.calRan 9).mainPinned g.kit kp) 0x00 hp)), eng_setEng .., ?_, rfl, rfl,
        sameStores_of_eq rfl rfl rfl⟩
      exact updWhere_page g.kit kp _ s.pages
    case unpin =>
      refine ⟨_, (exec_unpin_one h hown tgt).trans
        (congrArg Host.Outcome.next (setLs_in (s := State.unpinOne g.kit (tgt3Arg tgt) kp (s.calRan 9)) 0x00 hp)),
        eng_setEng .., rfl, rfl, sameStores_of_eq rfl rfl rfl, ?_⟩
      refine (updWhere_page g.kit kp _ s.pages).trans ?_
      cases tgt <;> rfl
    case hint =>
      have hint := hintOne_eq (s := s.calRan 9) (k := g.kit) (kp := kp) tgt hmoving hbusy
      have hrun := exec_hint_one h hown tgt
      rw [hint] at hrun
      exact ⟨_, hrun.trans (congrArg Host.Outcome.next (setLs_in (s := (s.calRan 9).hinted g.kit kp tgt) 0x00 hp)), eng_setEng ..,
        rfl, sameStores_of_eq rfl rfl rfl, rfl, rfl⟩

end Sys2Proof.Machine

namespace Sys2Proof.Machine

/-! ### A repair's record and event (14 R355, R372) -/

/-- REP_EVENTS bits that are set in `s` are set in `t`. -/
def RepEventsKept (s t : State) : Prop :=
  ∀ n, (s.ev .rep).bits.getLsbD n = true → (t.ev .rep).bits.getLsbD n = true

theorem raise_repEventsKept (s : State) (m : BitVec 8) : RepEventsKept s (s.raise .rep m) := fun _ => ev_raise_keeps_bit

theorem repairPair_repEventsKept (s : State) : RepEventsKept s s.repairPair := by
  unfold State.repairPair
  split
  · extract_lets n rep t
    obtain ⟨l, hl, -, -⟩ := queueRec_changes { s with rep := { s.rep with map := n + 1 } } (.repairPair (BitVec.ofNat 7 n))
    have ht : t = { s with rep := { s.rep with map := n + 1 }, bel := { s.bel with recq := l } } := hl
    rw [ht]
    split
    · exact raise_repEventsKept { s with rep := { s.rep with map := n + 1 }, bel := { s.bel with recq := l } } 0x20
    · exact fun _ h => h
  · exact fun _ h => h

/-- An event of a repair changes events, packets and Tally alone. -/
theorem repairEvent_rep (s : State) (done : Bool) (f : FaultRec) : (s.repairEvent done f).rep = s.rep := by
  simp [State.repairEvent]

theorem repairEvent_ev (s : State) (done : Bool) (f : FaultRec) : ((s.repairEvent done f).ev .rep).bits =
    (s.ev .rep).bits ||| (if done then 0x04 else 0x08) := by
  rw [State.repairEvent, tally_ev _ _ _ _ (by decide), notifyKit_ev, ev_raise_same]

/-- A repair that is complete: its record, its spare, and the faults that it covers. -/
structure RepairDone (s t : State) (f : FaultRec) : Prop where
  event : (t.ev .rep).bits.getLsbD 2 = true
  rep : ∃ n, t.rep = { s.rep.useSpare f with
    recs := s.rep.recs ++ [f], faults := s.rep.faults.filter fun x => !f.covers x, map := n }
  mram : t.mram = s.mram
  nand : t.deep.nand = s.deep.nand
  bel : t.bel.mem = s.bel.mem

theorem repairDone_done (s : State) (f : FaultRec) : RepairDone s (s.repairDone f) f := by
  unfold State.repairDone
  extract_lets r rep
  obtain ⟨n, l, v, hpair, -⟩ := repairPair_counts { s with rep := rep }
  refine ⟨by simp [repairEvent_ev], ⟨n, ?_⟩, ?_, ?_, ?_⟩
  · rw [repairEvent_rep, hpair]
  all_goals simp [State.repairEvent, hpair]

/-- The switch back to Run, where it comes, leaves the repair and what is stored. -/
theorem backToRun_keeps {s t : State} {f : FaultRec} (h : RepairDone s t f) : RepairDone s t.backToRun f := by
  unfold State.backToRun
  split
  · have hev : (t.enter .run 0x12).ev .rep = t.ev .rep := enter_ev _ _ _ (by decide)
    exact ⟨by rw [hev]; exact h.event, by simpa using h.rep, by simpa using h.mram, by simpa using h.nand, by simpa using h.bel⟩
  · exact h

/-! ### DIE_OUT (14 R359, R368) -/

section
variable {s : State} {d : Fin 11}

theorem dieGoesOut_serving (hroles : s.rep.rolesOf d.val ≠ 0) (hin : s.rep.rolesOut &&& s.rep.rolesOf d.val = 0) :
    (s.dieGoesOut d).rep.rolesOut = s.rep.rolesOut ||| s.rep.rolesOf d.val ∧
      ((s.dieGoesOut d).ev .rep).bits.getLsbD 0 = true ∧
      (s.rep.rolesOut ≠ 0 → ((s.dieGoesOut d).ev .rep).bits.getLsbD 4 = true) ∧ (s.dieGoesOut d).rep.role = s.rep.role := by
  unfold State.dieGoesOut
  extract_lets r roles second s1
  obtain ⟨n, l, v, hpair, -⟩ := repairPair_counts { s with rep := { r with rolesOut := r.rolesOut ||| roles } }
  have hrep : s1.rep = { r with rolesOut := r.rolesOut ||| roles, map := n } := by simp [s1, hpair]
  have hbit : (s1.ev .rep).bits.getLsbD 0 = true := by simp [s1, ev_raise_same]
  rw [if_neg (by simpa [roles] using hroles), if_neg (by simpa [r, roles] using hin)]
  split
  · exact ⟨by simp [hrep, r, roles], ev_raise_keeps_bit hbit, fun _ => by simp [ev_raise_same], by simp [hrep, r]⟩
  · next hsecond => exact ⟨by simp [hrep, r, roles], hbit, fun h => absurd (by simpa [second, r] using Or.inl h) hsecond, by simp [hrep, r]⟩

theorem dieGoesOut_out (hroles : s.rep.rolesOf d.val ≠ 0) (hout : s.rep.rolesOut &&& s.rep.rolesOf d.val ≠ 0) :
    s.dieGoesOut d = s := by
  unfold State.dieGoesOut
  exact (if_neg (by simpa using hroles)).trans (if_pos (by simpa using hout))

theorem dieGoesOut_idle (hroles : s.rep.rolesOf d.val = 0) (hspare : s.rep.spare ≠ some d) : s.dieGoesOut d = s := by
  unfold State.dieGoesOut
  exact (if_pos (by simpa using hroles)).trans (if_neg (by simpa using hspare))

theorem dieGoesOut_spare (hroles : s.rep.rolesOf d.val = 0) (hspare : s.rep.spare = some d) : s.dieGoesOut d =
    { s with rep := { s.rep with spare := none, spareFailed := true, runs := s.rep.runs.filter fun t => !t.resilver } } := by
  unfold State.dieGoesOut
  exact (if_pos (by simpa using hroles)).trans (if_pos (by simpa using hspare))

/-- A die that goes out leaves the banks and what is stored, and events are only added. -/
theorem dieGoesOut_keeps (s : State) (d : Fin 11) : (s.dieGoesOut d).rep.banks = s.rep.banks ∧
    RepEventsKept s (s.dieGoesOut d) ∧ SameStores s (s.dieGoesOut d) := by
  unfold State.dieGoesOut
  extract_lets r roles second s1
  obtain ⟨n, l, v, hpair, -⟩ := repairPair_counts { s with rep := { r with rolesOut := r.rolesOut ||| roles } }
  have hbanks : s1.rep.banks = s.rep.banks := by simp [s1, hpair, r]
  have hevs : RepEventsKept s s1 := fun n h =>
    raise_repEventsKept _ _ n (repairPair_repEventsKept { s with rep := { r with rolesOut := r.rolesOut ||| roles } } n h)
  have hstores : SameStores s s1 := by
    simp only [s1, hpair]
    exact sameStores_of_eq rfl rfl rfl
  split
  · split <;> exact ⟨rfl, fun _ h => h, sameStores_of_eq rfl rfl rfl⟩
  · split
    · exact ⟨rfl, fun _ h => h, sameStores_of_eq rfl rfl rfl⟩
    · split
      · exact ⟨hbanks, fun n h => raise_repEventsKept _ _ n (hevs n h), sameStores_trans hstores (sameStores_of_eq rfl rfl rfl)⟩
      · exact ⟨hbanks, hevs, hstores⟩

theorem bankGoesOut_out {b : Nat} (hout : s.rep.bankOut d.val b = true) : s.bankGoesOut d b = s := if_pos hout

theorem bankGoesOut_goes {b : BitVec 5} (hin : s.rep.bankOut d.val b.toNat = false) :
    (s.bankGoesOut d b.toNat).rep.bankOut d.val b.toNat = true ∧
      ((s.bankGoesOut d b.toNat).ev .rep).bits.getLsbD 1 = true ∧ SameStores s (s.bankGoesOut d b.toNat) := by
  unfold State.bankGoesOut
  extract_lets bs rep s1
  obtain ⟨n, l, v, hpair, -⟩ := repairPair_counts { s with rep := { s.rep with banks := s.rep.banks.set d bs } }
  have hbit : (s1.ev .rep).bits.getLsbD 1 = true := by simp [s1, ev_raise_same]
  have hbanks : s1.rep.banks = s.rep.banks.set d bs := by simp [s1, hpair, rep]
  have hstores : SameStores s s1 := by
    have hs1 : s1 = ({ s with rep := { s.rep with banks := s.rep.banks.set d bs } }).repairPair.raise .rep 0x02 := rfl
    rw [hs1, hpair]
    exact sameStores_of_eq rfl rfl rfl
  have hset (t : State) (h : t.rep.banks = s.rep.banks.set d bs) : t.rep.bankOut d.val b.toNat = true := by
    have hb := b.isLt
    have hbit : bs.getLsbD b.toNat = true := by
      rw [BitVec.getLsbD_or, BitVec.getLsbD_ofNat, Nat.testBit_two_pow_self, decide_eq_true hb]
      exact Bool.or_true _
    have hbank : (s.rep.banks.set d bs).toList.getD d.val 0 = bs := by simp
    rw [Rep.bankOut, h, hbank, hbit]
  rw [if_neg (by simp [hin])]
  split
  · obtain ⟨hkept, hevs, hsame⟩ := dieGoesOut_keeps s1 d
    exact ⟨hset _ (hkept.trans hbanks), hevs 1 hbit, sameStores_trans hstores hsame⟩
  · exact ⟨hset _ hbanks, hbit, hstores⟩

end

/-! ### The unit that takes the decoded symbols (14 R360) -/

/-- A step that settles a property on one member of a list, which no step undoes, settles it. -/
theorem foldl_settles {α β : Type} {W P : β → Prop} {f : β → α → β} {l : List α} {x : α} {m : β} (hx : x ∈ l) (hm : W m)
    (hwf : ∀ m y, W m → W (f m y)) (hset : ∀ m, W m → P (f m x)) (hkeep : ∀ m y, y ∈ l → W m → P m → P (f m y)) :
    P (l.foldl f m) := by
  have hkept (k : List α) (hk : ∀ y ∈ k, y ∈ l) (m : β) (hm : W m) (hP : P m) : P (k.foldl f m) := by
    induction k generalizing m with
    | nil => exact hP
    | cons y k ih =>
      exact ih (fun z hz => hk z (List.mem_cons_of_mem y hz)) _ (hwf m y hm) (hkeep m y (hk y List.mem_cons_self) hm hP)
  obtain ⟨a, b, rfl⟩ := List.append_of_mem hx
  rw [List.foldl_append, List.foldl_cons]
  have ha : W (a.foldl f m) := List.foldlRecOn a f hm fun m hm y _ => hwf m y hm
  exact hkept b (fun y hy => List.mem_append_right a (List.mem_cons_of_mem x hy)) _ (hwf _ x ha) (hset _ ha)

/-- A fold whose every step keeps a property keeps it. -/
theorem foldl_keeps {α β : Type} {P : β → Prop} {f : β → α → β} {l : List α} {m : β} (hm : P m)
    (h : ∀ m x, x ∈ l → P m → P (f m x)) : P (l.foldl f m) := by
  induction l generalizing m with
  | nil => exact hm
  | cons y l ih => exact ih (h m y List.mem_cons_self hm) fun m x hx => h m x (List.mem_cons_of_mem y hx)

theorem slices_length (o : ChordOut) (hd : o.data.length = 64) {r : Nat} (hr : r < 10) : (o.slices.getD r []).length = 8 := by
  unfold ChordOut.slices
  split
  · have hmarker : ∀ r, r < 10 → (markerSlices.getD r []).length = 8 := by decide
    exact hmarker r hr
  · exact getD_slice_length hd hr

theorem decodeChord_data_length (outs : List Nat) (sl : List (List Byte)) : (decodeChord outs sl).data.length = 64 :=
  (flatten_length (n := 8) _ (by simp)).trans (by simp)

/-- The listed chords of a unit. -/
def State.unitChords (s : State) (t : Transfer) : List Nat :=
  ((s.mram.map fun x => x.1 % 2 ^ 31 / 8).filter fun c => t.touches s.rep c).eraseDups

/-- The roles that the unit's die carries. -/
def State.unitRoles (s : State) (t : Transfer) : List Nat := (List.range 10).filter fun r => s.rep.phys r == t.die

/-- A chord of a unit with the decoded symbols of the unit's die. -/
def State.unitWrite (s : State) (t : Transfer) (m : List Host.Cell) (c : Nat) : List Host.Cell :=
  (s.unitRoles t).foldl (fun m r => cellsWrite m (sliceAddr t.die c + (t.part ((s.decodeAt c).slices.getD r [])).1)
    (t.part ((s.decodeAt c).slices.getD r [])).2) m

theorem rewriteUnit_eq (s : State) (t : Transfer) :
    s.rewriteUnit t = { s with mram := (s.unitChords t).foldl (s.unitWrite t) s.mram } := rfl

theorem mem_unitChords {s : State} {t : Transfer} {c : Nat} :
    c ∈ s.unitChords t ↔ (∃ y ∈ s.mram, y.1 % 2 ^ 31 / 8 = c) ∧ t.touches s.rep c = true := by
  rw [State.unitChords, List.mem_eraseDups, List.mem_filter, List.mem_map]

theorem mem_unitRoles {s : State} {t : Transfer} {r : Nat} : r ∈ s.unitRoles t ↔ r < 10 ∧ s.rep.phys r = t.die := by
  simp [State.unitRoles]

theorem unitWrite_wf (s : State) (t : Transfer) {m : List Host.Cell} (c : Nat) (h : cellsWf m = true) :
    cellsWf (s.unitWrite t m c) = true := 
  foldl_keeps (P := fun m => cellsWf m = true) h fun _ _ _ h => cellsWf_write _ _ h

section
variable {s : State} {t : Transfer} (hrow : t.kind ≠ .column)
include hrow

theorem part_whole (slice : List Byte) : t.part slice = (0, slice) := if_neg (by simpa using hrow)

theorem unitWrite_whole (m : List Host.Cell) (c : Nat) : s.unitWrite t m c =
    (s.unitRoles t).foldl (fun m r => cellsWrite m (sliceAddr t.die c) ((s.decodeAt c).slices.getD r [])) m := by
  simp only [State.unitWrite, part_whole hrow, Nat.add_zero]

/-- A chord of a unit keeps every byte outside its slice on the unit's die. -/
theorem unitWrite_outside {m : List Host.Cell} {c x : Nat} (hm : cellsWf m = true)
    (hx : s.unitRoles t ≠ [] → x < sliceAddr t.die c ∨ sliceAddr t.die c + 8 ≤ x) :
    cellGet (s.unitWrite t m c) x = cellGet m x := by
  rw [unitWrite_whole hrow]
  refine (foldl_keeps (P := fun m' => cellsWf m' = true ∧ cellGet m' x = cellGet m x) ⟨hm, rfl⟩ fun m' r hr hm' => ?_).2
  have hlen := slices_length (s.decodeAt c) (decodeChord_data_length _ _) (mem_unitRoles.1 hr).1
  refine ⟨cellsWf_write _ _ hm'.1, (cellGet_write_outside _ _ _ hm'.1 ?_).trans hm'.2⟩
  rw [hlen]
  exact hx (List.ne_nil_of_mem hr)

/-- A chord of a unit whose die carries one role takes that role's slice. -/
theorem unitWrite_inside {m : List Host.Cell} {c r : Nat} (hm : cellsWf m = true) (hr : r ∈ s.unitRoles t)
    (hone : ∀ q ∈ s.unitRoles t, q = r) :
    cellsRead (s.unitWrite t m c) (sliceAddr t.die c) 8 = (s.decodeAt c).slices.getD r [] := by
  have hwrites {m : List Host.Cell} (hm : cellsWf m = true) :
      cellsRead (cellsWrite m (sliceAddr t.die c) ((s.decodeAt c).slices.getD r [])) (sliceAddr t.die c) 8 =
        (s.decodeAt c).slices.getD r [] := by
    have hread := cellsRead_write (sliceAddr t.die c) ((s.decodeAt c).slices.getD r []) hm
    rwa [slices_length (s.decodeAt c) (decodeChord_data_length _ _) (mem_unitRoles.1 hr).1] at hread
  rw [unitWrite_whole hrow]
  refine foldl_settles (W := fun m => cellsWf m = true)
    (P := fun m => cellsRead m (sliceAddr t.die c) 8 = (s.decodeAt c).slices.getD r []) hr hm
    (fun m q h => cellsWf_write _ _ h) (fun m h => hwrites h) fun m q hq h _ => ?_
  rw [hone q hq]
  exact hwrites h

/-- A unit rewritten keeps every byte outside the slices of its chords. -/
theorem rewriteUnit_outside {x : Nat} (hm : cellsWf s.mram = true)
    (hx : ∀ c, t.touches s.rep c = true → s.unitRoles t ≠ [] → x < sliceAddr t.die c ∨ sliceAddr t.die c + 8 ≤ x) :
    cellGet (s.rewriteUnit t).mram x = cellGet s.mram x := by
  rw [rewriteUnit_eq]
  refine (foldl_keeps (P := fun m => cellsWf m = true ∧ cellGet m x = cellGet s.mram x) ⟨hm, rfl⟩ fun m c hc h => ?_).2
  exact ⟨unitWrite_wf s t c h.1, (unitWrite_outside hrow h.1 (hx c (mem_unitChords.1 hc).2)).trans h.2⟩

/-- A listed chord of a rewritten unit holds its decoded symbols. -/
theorem rewriteUnit_inside {c r : Nat} (hm : cellsWf s.mram = true) (hlisted : ∃ y ∈ s.mram, y.1 % 2 ^ 31 / 8 = c)
    (htouch : t.touches s.rep c = true) (hr : r ∈ s.unitRoles t) (hone : ∀ q ∈ s.unitRoles t, q = r) :
    cellsRead (s.rewriteUnit t).mram (sliceAddr t.die c) 8 = (s.decodeAt c).slices.getD r [] := by
  rw [rewriteUnit_eq]
  refine foldl_settles (W := fun m => cellsWf m = true)
    (P := fun m => cellsRead m (sliceAddr t.die c) 8 = (s.decodeAt c).slices.getD r []) (mem_unitChords.2 ⟨hlisted, htouch⟩) hm
    (fun m y h => unitWrite_wf s t y h) (fun m h => unitWrite_inside hrow h hr hone) fun m y _ h hread => ?_
  by_cases hy : y = c
  · exact hy ▸ unitWrite_inside hrow h hr hone
  · rw [← hread]
    refine cellsRead_congr fun x hlo hhi => unitWrite_outside hrow h fun _ => ?_
    unfold sliceAddr at hlo hhi ⊢
    omega

end

/-! ### Switchover and failure (14 R360, R363, R365) -/

theorem rec_die (t : Transfer) : t.rec_.die = t.die := by
  unfold Transfer.rec_
  split <;> rfl

theorem rec_bank (t : Transfer) : t.rec_.bank = t.bank := by
  unfold Transfer.rec_
  split <;> rfl

theorem rec_kind_row {t : Transfer} (h : t.kind = .row) : t.rec_.kind = 4 := by simp [Transfer.rec_, h]

theorem usedRows_useSpare {r : Rep} {f : FaultRec} (h : f.kind = 4) :
    (r.useSpare f).usedRows f.die f.bank = r.usedRows f.die f.bank + 1 := by
  rw [Rep.useSpare, if_pos (by simp [h])]
  simp [Rep.usedRows]

/-- A row's record counts one spare row of its bank. -/
theorem usedRows_row {r : Rep} {t : Transfer} (h : t.kind = .row) :
    (r.useSpare t.rec_).usedRows t.die t.bank = r.usedRows t.die t.bank + 1 := by
  have hused := usedRows_useSpare (r := r) (rec_kind_row h)
  rwa [rec_die, rec_bank] at hused

/-- A spare used changes the counts of spares alone. -/
theorem useSpare_changes (r : Rep) (f : FaultRec) : ∃ rows cols used, r.useSpare f =
    { r with rowsUsed := rows, colsUsed := cols, used := used } := by
  unfold Rep.useSpare
  split
  · exact ⟨_, _, _, rfl⟩
  · split <;> exact ⟨_, _, _, rfl⟩

/-- The spare in a role once its resilvering is over. -/
def State.resilvered (s : State) (x : Transfer) (d : Fin 11) : State := { s with rep := { s.rep with
  runs := [], role := s.rep.role.set! x.role d, spare := none, savedRes := none,
  rolesOut := s.rep.rolesOut &&& ~~~ BitVec.ofNat 10 (2 ^ x.role),
  resilBeats := min (2 ^ 32 - 1) (elapsed x.start s.bar.beatno),
  faults := s.rep.faults.filter fun f => f.die != s.rep.phys x.role } }

/-- A row whose new unit is bad: one more spare row used, and the next tried while there is one. -/
def State.rowFails (s : State) (x : Transfer) : State := { s with rep := { s.rep.useSpare x.rec_ with
  runs := if (s.rep.useSpare x.rec_).usedRows x.die x.bank < 64 ∧ x.tries < 2 then
    [{ x with phase := 1, cursor := 0, late := [], tries := x.tries + 1, start := s.bar.beatno }] else [] } }

/-- The spare of a resilvering is bad. -/
def State.spareFails (s : State) : State :=
  { s with rep := { s.rep with runs := [], spare := none, spareFailed := true, savedRes := none } }

section
variable {s : State} {x : Transfer} (hone : s.rep.runs = [x])
include hone

theorem runOf_one : s.runOf x.kind = some x := by simp [State.runOf, hone]

theorem endRun_one : (s.endRun x.kind).rep = { s.rep with runs := [] } := by simp [State.endRun, hone]

theorem switchover_early (hphase : x.phase ≠ 4) : s.switchover x.kind = s := by
  simp only [State.switchover, runOf_one hone]
  exact if_pos (by simp [hphase])

theorem resilverOver_early (hphase : x.phase ≠ 4) : s.resilverOver = s := by
  unfold State.resilverOver Rep.resilver
  cases hres : x.resilver <;> simp [hone, hres, hphase]

theorem switchover_row (hkind : x.kind = .row) (hphase : x.phase = 4) (hplain : x.resilver = false)
    (hdown : s.atDownbeat = true) : s.switchover .row = ((s.rewriteUnit x).endRun .row).repairDone x.rec_ := by
  have hrun : s.runOf .row = some x := hkind ▸ runOf_one hone
  simp [State.switchover, hrun, hphase, hplain, hkind, hdown]

theorem switchover_die {d : Fin 11} (hkind : x.kind = .die) (hrole : x.role = 15) (hphase : x.phase = 4)
    (hplain : x.resilver = false) (hdie : x.die = d.val) : s.switchover .die =
      ({ s with rep := { s.rep with runs := [], spare := some d, spareFailed := false } }).repairDone x.rec_ := by
  have hrun : s.runOf .die = some x := hkind ▸ runOf_one hone
  have hend : (s.endRun .die).rep = { s.rep with runs := [] } := hkind ▸ endRun_one hone
  simp [State.switchover, hrun, hphase, hplain, hkind, hrole, hdie, hend, Nat.mod_eq_of_lt d.isLt]

theorem resilverOver_goes {d : Fin 11} (hresilver : x.resilver = true) (hphase : x.phase = 4) (hdie : x.die = d.val)
    (hdown : s.atDownbeat = true) : s.resilverOver = ((s.resilvered x d).repairDone x.rec_).backToRun := by
  have hend : (s.endRun x.kind).rep = { s.rep with runs := [] } := endRun_one hone
  simp [State.resilverOver, Rep.resilver, hone, hresilver, hphase, hdown, hdie, hend, Nat.mod_eq_of_lt d.isLt, State.resilvered]

/-- A row whose verify fails takes the next spare row, at most twice. -/
theorem transferFails_row (hkind : x.kind = .row) (hphase : x.phase = 3) (hplain : x.resilver = false) :
    s.transferFails .row = (s.rowFails x).repairEvent false x.rec_ := by
  have hrun : s.runOf .row = some x := hkind ▸ runOf_one hone
  have hruns : (s.rep.useSpare x.rec_).runs = [x] := by
    obtain ⟨rows, cols, used, h⟩ := useSpare_changes s.rep x.rec_
    rw [h, hone]
  unfold State.rowFails
  by_cases hmore : (s.rep.useSpare x.rec_).usedRows x.die x.bank < 64 ∧ x.tries < 2
  · simp [State.transferFails, hrun, hphase, hplain, spareRows, hmore, State.updRun, updWhere, hruns, hkind]
  · rw [if_neg hmore]
    rcases not_and_or.1 hmore with h | h <;>
      simp [State.transferFails, hrun, hphase, hplain, spareRows, h, State.endRun, hruns, hkind]

theorem transferFails_resilver (hkind : x.kind = .die) (hphase : x.phase = 3) (hresilver : x.resilver = true) :
    s.transferFails .die = s.spareFails.repairEvent false x.rec_ := by
  have hrun : s.runOf .die = some x := hkind ▸ runOf_one hone
  have hend : (s.endRun .die).rep = { s.rep with runs := [] } := hkind ▸ endRun_one hone
  simp [State.transferFails, hrun, hphase, hresilver, hend, State.spareFails]

end

theorem transferFails_none {s : State} {k : UnitKind} (hlane : k ≠ .lane) (h : s.running k = false) : s.transferFails k = s := by
  have hrun : s.runOf k = none := List.find?_eq_none.2 (by simpa [State.running] using h)
  cases k
  case lane => exact absurd rfl hlane
  all_goals simp only [State.transferFails, hrun]

theorem resilver_isSome (s : State) : s.rep.resilver.isSome = true ↔ ∃ x ∈ s.rep.runs, x.resilver = true := by
  rw [Rep.resilver, List.find?_isSome]

theorem resilverLate_runs {s : State} (h : ∃ x ∈ s.rep.runs, x.resilver = true) : s.resilverLate = s.raise .rep 0x80 := by
  rw [State.resilverLate, if_pos ((resilver_isSome s).2 h)]

theorem resilverLate_idle {s : State} (h : ∀ x ∈ s.rep.runs, x.resilver = false) : s.resilverLate = s := by
  rw [State.resilverLate, if_neg]
  rw [resilver_isSome]
  rintro ⟨x, hx, hr⟩
  simp [h x hx] at hr

/-- A failed verify reports itself, and leaves what is stored. -/
theorem repairEvent_fails (s : State) (f : FaultRec) : ((s.repairEvent false f).ev .rep).bits.getLsbD 3 = true := by
  simp [repairEvent_ev]

/-- Settles O43: what goes out is `dieGoesOut_serving` and its like; a switchover ends in `repairDone_done`, a row's after
`rewriteUnit_inside`; a failed verify in `repairEvent`. That the new unit takes its content at the switchover (log 62), and that a
die that passes its checks becomes the spare through SHADOW_SWITCHOVER (log 52), are the model's choices. -/
theorem unitsGoOutAndReturn : Obligations.UnitsGoOutAndReturn := by
  unfold Obligations.UnitsGoOutAndReturn
  refine ⟨fun s d => ?out, fun s x hone => ?switch, fun s => ?fail⟩
  case out =>
    intro roles
    refine ⟨fun hroles hin => ?serving, fun hroles hout => congrArg Host.Outcome.next (dieGoesOut_out hroles hout),
      fun hroles hspare => congrArg Host.Outcome.next (dieGoesOut_idle hroles hspare), fun hroles hspare => ?spare,
      fun b hout => congrArg Host.Outcome.next (bankGoesOut_out hout), fun b hin => ⟨_, rfl, bankGoesOut_goes hin⟩⟩
    case serving =>
      obtain ⟨hset, hevent, hsecond, hrole⟩ := dieGoesOut_serving hroles hin
      exact ⟨_, rfl, hset, hevent, hsecond, hrole, (dieGoesOut_keeps s d).2.2⟩
    case spare =>
      exact ⟨_, congrArg Host.Outcome.next (dieGoesOut_spare hroles hspare), rfl, rfl, rfl, sameStores_of_eq rfl rfl rfl⟩
  case switch =>
    intro done
    refine ⟨fun hphase => ⟨congrArg Host.Outcome.next (switchover_early hone (by omega)),
      congrArg Host.Outcome.next (resilverOver_early hone (by omega))⟩,
      fun hkind hphase hplain hdown hwf => ?row, fun d hkind hrole hphase hplain hdie => ?die,
      fun d r hkind hresilver hphase hdie hrole hdown => ?resilver⟩
    case row =>
      intro slice
      obtain ⟨⟨hmram, hnand⟩, hbel⟩ : (cellsWf s.mram = true ∧ cellsWf s.deep.nand = true) ∧ cellsWf s.bel.mem = true := by
        simpa [State.memWf] using hwf
      have hrow : x.kind ≠ .column := by simp [hkind]
      let u := (s.rewriteUnit x).endRun .row
      have hdone := repairDone_done u x.rec_
      obtain ⟨n, hrep⟩ := hdone.rep
      obtain ⟨rows, cols, used, hused⟩ := useSpare_changes u.rep x.rec_
      have hruns : u.rep.runs = [] := by
        have hend := endRun_one hone
        rw [hkind] at hend
        exact congrArg Rep.runs hend
      have hrows : (u.rep.useSpare x.rec_).usedRows x.die x.bank = u.rep.usedRows x.die x.bank + 1 := usedRows_row hkind
      refine ⟨_, congrArg Host.Outcome.next (switchover_row hone hkind hphase hplain hdown), ⟨?_, hdone.event, ?_⟩, ?_, ?_,
        hdone.nand, hdone.bel, fun a hout => ?_, fun c r hslice honly hlisted => ?_⟩
      · rw [hrep, hused]
        exact hruns
      · rw [hrep]
        rfl
      · rw [hrep]
        rfl
      · rw [hrep]
        exact hrows
      · rw [hdone.mram]
        refine rewriteUnit_outside hrow hmram fun c htouch hroles => ?_
        obtain ⟨r, hr⟩ := List.exists_mem_of_ne_nil _ hroles
        obtain ⟨hr10, hphys⟩ := mem_unitRoles.1 hr
        exact hout c r ⟨htouch, hr10, hphys⟩
      · obtain ⟨htouch, hr10, hphys⟩ := hslice
        rw [hdone.mram]
        exact rewriteUnit_inside hrow hmram hlisted htouch (mem_unitRoles.2 ⟨hr10, hphys⟩) fun q hq =>
          honly q ⟨htouch, mem_unitRoles.1 hq⟩
    case die =>
      have hdone := repairDone_done { s with rep := { s.rep with runs := [], spare := some d, spareFailed := false } } x.rec_
      obtain ⟨n, hrep⟩ := hdone.rep
      obtain ⟨rows, cols, used, hused⟩ := useSpare_changes
        { s.rep with runs := [], spare := some d, spareFailed := false } x.rec_
      refine ⟨_, congrArg Host.Outcome.next (switchover_die hone hkind hrole hphase hplain hdie), ⟨?_, hdone.event, ?_⟩, ?_, ?_,
        sameStores_of_eq hdone.mram hdone.nand hdone.bel⟩ <;> rw [hrep] <;> simp only [hused]
    case resilver =>
      have hdone := backToRun_keeps (repairDone_done (s.resilvered x d) x.rec_)
      obtain ⟨n, hrep⟩ := hdone.rep
      obtain ⟨rows, cols, used, hused⟩ := useSpare_changes (s.resilvered x d).rep x.rec_
      refine ⟨_, congrArg Host.Outcome.next (resilverOver_goes hone hresilver hphase hdie hdown), ⟨?_, hdone.event, ?_⟩, ?_,
        fun q hq => ?_, ?_, ?_, sameStores_of_eq hdone.mram hdone.nand hdone.bel⟩ <;> rw [hrep, hused]
      · rfl
      · rfl
      · simp [State.resilvered, hrole]
      · have hne : r.val ≠ q.val := fun h => hq (Fin.ext h.symm)
        simp [State.resilvered, hrole, hne]
      · rfl
      · rw [← hrole]
        rfl
  case fail =>
    refine ⟨fun k hlane h => congrArg Host.Outcome.next (transferFails_none hlane h),
      fun x hone hkind hphase hplain => ?row, fun x hone hkind hphase hresilver => ?resilver,
      fun h => congrArg Host.Outcome.next (resilverLate_runs h), fun h => congrArg Host.Outcome.next (resilverLate_idle h)⟩
    case row =>
      obtain ⟨rows, cols, used, hused⟩ := useSpare_changes s.rep x.rec_
      have hrows : (s.rowFails x).rep.usedRows x.die x.bank = s.rep.usedRows x.die x.bank + 1 := usedRows_row hkind
      have hrecs : (s.rowFails x).rep.recs = s.rep.recs := by rw [State.rowFails, hused]
      have hstores := sameStores_trans (sameStores_of_eq rfl rfl rfl : SameStores s (s.rowFails x))
        (repairEvent_stores (s.rowFails x) false x.rec_)
      refine ⟨_, congrArg Host.Outcome.next (transferFails_row hone hkind hphase hplain), ?_⟩
      rw [repairEvent_rep]
      exact ⟨repairEvent_fails _ _, hrows, hrecs, hstores, fun hmore htries => if_pos ⟨hrows ▸ hmore, htries⟩,
        fun htries => if_neg fun h => by omega⟩
    case resilver =>
      refine ⟨_, congrArg Host.Outcome.next (transferFails_resilver hone hkind hphase hresilver), ?_⟩
      rw [repairEvent_rep]
      exact ⟨repairEvent_fails _ _, rfl, rfl, rfl, rfl,
        sameStores_trans (sameStores_of_eq rfl rfl rfl) (repairEvent_stores s.spareFails false x.rec_)⟩

end Sys2Proof.Machine

namespace Sys2Proof.Machine

/-! ### What a completion leaves as it is (11 R298, R299)

A completion ends held writes, merge entries and repair-map records. With no write job left, as once requests are gone, it
settles nothing: the mode, the requests and replies, the engines, the supplies, the rings and whether a Knell runs stay. -/

/-- What a completion does not touch. -/
def State.outer (s : State) :
    Mode × List InFlight × List Reply × List WriteJob × Vector EngSt 8 × Pwr × RingSt × RingSt × EvReg × Bool :=
  (s.mode, s.inflight, s.replies, s.jobs, s.engs, s.pwr, s.ringA, s.ringB, s.evs[EvId.knl.ix], s.knl.running)

theorem ite_outer (c : Prop) [Decidable c] (s t : State) :
    (if c then s else t).outer = if c then s.outer else t.outer := apply_ite State.outer c s t

theorem jobs_of_outer {s t : State} (h : t.outer = s.outer) (hjobs : s.jobs = []) : t.jobs = [] :=
  (congrArg (fun x => x.2.2.2.1) h).trans hjobs

theorem forEach_outer {α : Type} {f : α → State → State} (l : List α) {s : State} (hjobs : s.jobs = [])
    (h : ∀ x s, s.jobs = [] → (f x s).outer = s.outer) : (forEach f l s).outer = s.outer := by
  induction l generalizing s with
  | nil => rfl
  | cons x xs ih => rw [forEach, ih (jobs_of_outer (h x s hjobs) hjobs), h x s hjobs]

theorem foldl_outer {α : Type} {f : State → α → State} (h : ∀ s x, (f s x).outer = s.outer) (l : List α) (s : State) :
    (l.foldl f s).outer = s.outer := by
  induction l generalizing s with
  | nil => rfl
  | cons x xs ih => rw [List.foldl_cons, ih, h]

theorem forEach_kept {α : Type} {f : α → State → State} (h : ∀ x s, (f x s).outer = s.outer) (l : List α) (s : State) :
    (forEach f l s).outer = s.outer := by
  rw [forEach_eq_foldl]
  exact foldl_outer (fun s x => h x s) l s

section
variable (s : State) (k : Kit) (kp : KPage) (a c n : Nat) (r : RecId) (e : WEntry)

@[simp] theorem tally_outer (typ : Nat) (kit : Option Kit) : (s.tally typ kit a).outer = s.outer := by
  have hev : (s.tally typ kit a).evs[EvId.knl.ix] = s.evs[EvId.knl.ix] := tally_ev _ _ _ _ (by decide)
  simp [State.outer, hev]

@[simp] theorem queueRec_outer : (s.queueRec r).outer = s.outer := by
  unfold State.queueRec
  split <;> rfl

theorem raise_outer {i : EvId} (m : BitVec 8) (h : i.ix.val ≠ EvId.knl.ix.val) : (s.raise i m).outer = s.outer := by
  have hev : (s.raise i m).evs[EvId.knl.ix] = s.evs[EvId.knl.ix] := ev_raise_other s m h
  simp [State.outer, hev]

@[simp] theorem raise_prov_outer (m : BitVec 8) : (s.raise .prov m).outer = s.outer := raise_outer s m (by decide)
@[simp] theorem raise_rep_outer (m : BitVec 8) : (s.raise .rep m).outer = s.outer := raise_outer s m (by decide)
@[simp] theorem raise_ecc_outer (m : BitVec 8) : (s.raise .ecc m).outer = s.outer := raise_outer s m (by decide)

@[simp] theorem repairPair_outer : s.repairPair.outer = s.outer := by
  unfold State.repairPair
  simp only
  repeat' split
  all_goals simp only [raise_rep_outer, queueRec_outer] <;> rfl

@[simp] theorem dieGoesOut_outer (die : Fin 11) : (s.dieGoesOut die).outer = s.outer := by
  unfold State.dieGoesOut
  simp only [ite_outer, raise_rep_outer, repairPair_outer]
  repeat' split
  all_goals rfl

@[simp] theorem bankGoesOut_outer (die : Fin 11) (bank : Nat) : (s.bankGoesOut die bank).outer = s.outer := by
  unfold State.bankGoesOut
  simp only [ite_outer, dieGoesOut_outer, raise_rep_outer, repairPair_outer]
  repeat' split
  all_goals rfl

@[simp] theorem queueMarker_outer : (s.queueMarker c).outer = s.outer := by
  unfold State.queueMarker
  split <;> rfl

@[simp] theorem setKit_outer (x : KitSt) : (s.setKit k x).outer = s.outer := rfl
@[simp] theorem nearDrop_outer : (s.nearDrop k a).outer = s.outer := rfl
@[simp] theorem fatal_outer (cause detail : Nat) : (s.fatal cause detail).outer = s.outer := rfl

@[simp] theorem recantKit_outer (sync : Bool) : (s.recantKit k a c sync).outer = s.outer := by
  simp only [State.recantKit, queueRec_outer, queueMarker_outer, nearDrop_outer, raise_prov_outer]
  rfl

@[simp] theorem moveRecord_outer (m : Move) (p : Page) (ch : PtChange) : (s.moveRecord m p ch).outer = s.outer := by
  simp only [State.moveRecord, ite_outer, tally_outer, ite_self]

@[simp] theorem mirrorMove_outer (o : Kit) (v : Option (List Byte)) : (s.mirrorMove o a v).outer = s.outer := by
  unfold State.mirrorMove
  repeat' split
  all_goals rfl

theorem kitToken_outer {s t : State} {k : Kit} (h : s.kitToken k = some t) : t.outer = s.outer := by
  unfold State.kitToken at h
  simp only at h
  repeat' split at h
  all_goals cases h
  all_goals rfl

@[simp] theorem capture_outer (o : Kit) : (s.capture o a).2.outer = s.outer := by
  unfold State.capture
  repeat' split
  all_goals first | rfl | exact kitToken_outer ‹_›

@[simp] theorem commitPt_outer (ch : PtChange) : (s.commitPt k kp ch).outer = s.outer := by
  unfold State.commitPt
  simp only
  repeat' split
  all_goals try rw [moveRecord_outer]
  all_goals rfl

@[simp] theorem pushData_outer (rids : List Nat) (d : List Byte) : (s.pushData k rids a c d).outer = s.outer :=
  capture_outer s a k

@[simp] theorem nearWrite_outer (d : List Byte) : (s.nearWrite k a d).outer = s.outer := rfl

@[simp] theorem metaFails_outer : (s.metaFails c).outer = s.outer := by
  unfold State.metaFails
  split
  case h_1 => rfl
  case h_2 => rfl
  case h_5 => simp only [ite_outer, fatal_outer, raise_ecc_outer, ite_self]
  all_goals exact raise_ecc_outer ..

@[simp] theorem readArray_outer (src : Nat) : (s.readArray src c).outer = s.outer := by
  unfold State.readArray
  extract_lets o counted fixed fresh marked t
  simp only [ite_outer, metaFails_outer, tally_outer, raise_ecc_outer, ite_self]
  rfl

@[simp] theorem zeroChord_outer : (State.zeroChord k a s).outer = s.outer := by
  unfold State.zeroChord
  split <;> rfl

@[simp] theorem pulse_outer (ent : Nat) : (s.pulse ent).outer = s.outer := by
  unfold State.pulse
  split <;> rfl

@[simp] theorem chargeEntry_outer : (s.chargeEntry e n).outer = s.outer := by
  unfold State.chargeEntry
  split <;> rfl

@[simp] theorem firstPulse_outer : (s.firstPulse e).outer = s.outer := by
  unfold State.firstPulse
  split
  · rw [chargeEntry_outer, pulse_outer]
  · rfl

@[simp] theorem morePulses_outer (m : Slices) : (s.morePulses e m n).outer = s.outer :=
  chargeEntry_outer ..

theorem putRec_changes (body : List Byte) : ∃ bel, s.putRec r body = { s with bel := bel } := by
  unfold State.putRec State.belPut
  exact ⟨_, rfl⟩

theorem putRecFree_changes : ∃ bel free, s.putRecFree r = { s with bel := bel, free := free } := by
  obtain ⟨bel, h⟩ := putRec_changes s r (freeBytes s.free ((recPlace r).2.2 - 3))
  exact ⟨bel, _, by rw [State.putRecFree, h, State.spend]⟩

theorem putRecTwo_changes : ∃ bel free, s.putRecTwo r = { s with bel := bel, free := free } := by
  obtain ⟨bel, free, h⟩ := putRecFree_changes s r
  exact ⟨_, free, by rw [State.putRecTwo, h]⟩

theorem putRecFree_hold : (s.putRecFree r).hold = s.hold := by
  obtain ⟨bel, free, h⟩ := putRecFree_changes s r
  rw [h]

theorem chargeMaint_outer : (s.chargeMaint n).outer = s.outer := rfl

theorem putRecFree_outer : (s.putRecFree r).outer = s.outer := by
  obtain ⟨bel, free, h⟩ := putRecFree_changes s r
  rw [h]
  rfl

theorem logNow_outer (rs : List LogRec) : (s.logNow n rs).outer = s.outer := by
  induction n, rs, s using State.logNow.induct with
  | case1 rs s => rfl
  | case2 n s => cases n <;> rfl
  | case3 n rs s hrs two pad seq bytes s1 ih =>
    rw [State.logNow, ih]
    · simp [State.outer, s1]
    · exact hrs

end

/-! With no write job left, as once requests are gone, an outcome settles nothing. -/

section
variable {s : State} (hjobs : s.jobs = []) (rids : List Nat) (a : Nat)
include hjobs

theorem settleJob_outer (rid : Nat) : (s.settleJob rid).outer = s.outer := by
  rw [State.settleJob, State.findJob, hjobs]
  rfl

theorem resolveJobs_outer (recant : Bool) : (s.resolveJobs rids a recant).outer = s.outer := by
  refine forEach_outer (s := { s with fences := _ }) rids hjobs fun rid t ht => ?_
  have hupd : (t.updJob rid fun j => j.resolve s.bar.beatno a recant).outer = t.outer := by
    simp [State.outer, State.updJob, ht, updWhere]
  rw [settleJob_outer (jobs_of_outer hupd ht), hupd]

theorem resolveJobs_kept {t : State} (ht : t.outer = s.outer) (recant : Bool) :
    (t.resolveJobs rids a recant).outer = s.outer :=
  (resolveJobs_outer (jobs_of_outer ht hjobs) ..).trans ht

theorem recantNarrow_outer (k : Kit) (c : Nat) : (s.recantNarrow k rids a c).outer = s.outer := by
  refine resolveJobs_kept hjobs _ _ ?_ _
  rw [tally_outer, recantKit_outer]

theorem closeMerge_outer (i : Fin 64) : (s.closeMerge i).outer = s.outer := by
  unfold State.closeMerge
  split
  · rfl
  next m _ =>
    extract_lets c full later source s0 push es base
    have hs0 : s0.outer = s.outer := rfl
    have hpush : ∀ t d, (push t d).outer = t.outer := fun t d => pushData_outer t m.kit m.kaddr c m.rids d
    have hlater : later.outer = s.outer := rfl
    have hjobs0 : s0.jobs = [] := hjobs
    clear_value s0 push later base
    split
    · rw [hpush, hs0]
    · split
      · rw [hpush, hs0]
      · rw [recantNarrow_outer hjobs0, hs0]
      · split
        · exact hlater
        next t htoken =>
          have hread : ∀ c, (t.readArray 1 c).outer = s0.outer := fun c =>
            (readArray_outer t c 1).trans (kitToken_outer htoken)
          split
          · rw [hpush, hread, hs0]
          · rw [recantNarrow_outer (jobs_of_outer (hread _) hjobs0), hread, hs0]
      · exact hlater

theorem closeMerges_outer (p : MEntry → Bool) : (s.closeMerges p).outer = s.outer := by
  refine forEach_outer _ hjobs fun i t ht => ?_
  split
  · split
    · exact closeMerge_outer ht i
    · rfl
  · rfl

theorem concluded_outer (e : WEntry) (good weak : Bool) (failing : Slices) :
    (s.concluded e good weak failing).outer = s.outer := by
  unfold State.concluded
  cases e.kind with
  | data =>
    dsimp only
    split
    · rfl
    next k =>
      split
      · refine resolveJobs_kept hjobs _ _ ?_ _
        simp only [ite_outer, tally_outer, ite_self]
        exact mirrorMove_outer ..
      · refine resolveJobs_kept hjobs _ _ ?_ _
        simp only [tally_outer, recantKit_outer]
        exact mirrorMove_outer ..
  | pageTable k kp ch =>
    dsimp only
    split
    · exact commitPt_outer ..
    · rfl
  | move k kp =>
    dsimp only
    split
    · rfl
    · exact queueMarker_outer ..
  | muffle k kp =>
    dsimp only
    split
    · rfl
    · exact queueMarker_outer ..
  | stage k slot =>
    dsimp only
    split
    · rfl
    · exact queueMarker_outer ..
  | marker =>
    dsimp only
    split
    · rfl
    · exact foldl_outer (fun t r => bankGoesOut_outer ..) _ s
  | fix =>
    dsimp only
    split
    · exact tally_outer ..
    · rfl
  | shadow slots =>
    simp only [ite_outer, fatal_outer, ite_self]
  | knell copy ix =>
    simp only [ite_outer]
    exact ite_self _

theorem outcome_outer (e : WEntry) (failing : Slices) : (s.outcome e failing).outer = s.outer := by
  refine (concluded_outer ?_ ..).trans ?_
  · exact hjobs
  · rfl

theorem completeOne_outer (e : WEntry) (f : Slices) (rs : Recants) :
    (State.completeOne e f (s, rs)).1.outer = s.outer := by
  have hpulses : ((s.firstPulse e).morePulses e (s.lastPulses e f).1 1).outer = s.outer :=
    (morePulses_outer ..).trans (firstPulse_outer s e)
  have hdone := (outcome_outer (jobs_of_outer hpulses hjobs) e (s.lastPulses e f).2).trans hpulses
  unfold State.completeOne
  dsimp only
  generalize (s.firstPulse e).morePulses e (s.lastPulses e f).1 1 = t at hpulses hdone ⊢
  split
  · split
    · exact hdone
    · simp only [nearDrop_outer, raise_prov_outer, setKit_outer]
      have hstored : ((t.storeEntry e (s.lastPulses e f).2).freeEntry e).outer = s.outer := hpulses
      generalize (t.storeEntry e (s.lastPulses e f).2).freeEntry e = u at hstored ⊢
      exact hstored
  · exact hdone

theorem closeAll_outer : s.closeAll.outer = s.outer := by
  have hmerges := closeMerges_outer (s := { s with kits := s.kits.map fun x => { x with tok := 128 } }) hjobs fun _ => true
  unfold State.closeAll
  simp only
  generalize State.closeMerges _ _ = t at hmerges ⊢
  exact hmerges

theorem tableFirst_outer : s.tableFirst.outer = s.outer := by
  unfold State.tableFirst
  have hfirst := forEach_outer (f := fun (q : WKind × Option Kit × Nat × ChordIx × List Byte) (t : State) =>
    match q.1 with
    | .pageTable k kp ch => match ch.ends with
      | none => t.commitPt k kp ch
      | some _ => t
    | _ => t) s.chordq hjobs fun q t _ => by
      repeat' split
      all_goals simp only [commitPt_outer]
  exact hfirst

end

theorem recantRecords_outer (s : State) (rs : Recants) : (s.recantRecords rs).outer = s.outer := by
  unfold State.recantRecords
  split
  · rfl
  · extract_lets w listed recs s1 s2
    have hkits : s1.outer = s.outer := forEach_kept (fun k t => putRecFree_outer t (.recant k)) allKits s
    have hlog : s2.outer = s.outer := ((chargeMaint_outer ..).trans (logNow_outer ..)).trans hkits
    clear_value s2
    simpa only [State.outer] using hlog

theorem logNow_hold (n : Nat) (rs : List LogRec) (s : State) : (s.logNow n rs).hold = s.hold := by
  induction n, rs, s using State.logNow.induct with
  | case1 rs s => rfl
  | case2 n s => cases n <;> rfl
  | case3 n rs s hrs two pad seq bytes s1 ih =>
    rw [State.logNow, ih]
    · simp [s1]
    · exact hrs

theorem recantRecords_hold (s : State) (rs : Recants) : (s.recantRecords rs).hold = s.hold := by
  unfold State.recantRecords
  split
  · rfl
  · extract_lets w listed recs s1 s2
    have hkits : s1.hold = s.hold :=
      forEach_forall (R := fun (s t : State) => t.hold = s.hold) (fun _ => rfl) (fun _ _ _ h1 h2 => h2.trans h1)
        (fun k t => putRecFree_hold t (.recant k)) ..
    have hlog : s2.hold = s.hold := (logNow_hold 32 recs s1).trans hkits
    clear_value s2
    exact hlog

theorem onlyAccepted_outer (s : State) : s.onlyAccepted.outer = s.outer := rfl

/-- Each held write in turn reaches its outcome. -/
theorem completions_outer (comp : CompOut) (l : List (Nat × WEntry)) {x : State × Recants} (hjobs : x.1.jobs = []) :
    (forEach (fun (e : Nat × WEntry) (y : State × Recants) => State.completeOne e.2 (comp.getD e.1 0) y) l x).1.outer =
      x.1.outer := by
  induction l generalizing x with
  | nil => rfl
  | cons e es ih =>
    have hone := completeOne_outer hjobs e.2 (comp.getD e.1 0) x.2
    rw [forEach]
    exact (ih (jobs_of_outer hone hjobs)).trans hone

theorem provisional_outer {s : State} (hjobs : s.jobs = []) (comp : CompOut) : (s.provisional comp).outer = s.outer := by
  have hclosed := closeAll_outer hjobs
  have htable := (tableFirst_outer (jobs_of_outer hclosed hjobs)).trans hclosed
  unfold State.provisional
  extract_lets s1 es r s2
  have hs1 : s1.outer = s.outer := (onlyAccepted_outer _).trans htable
  have hdone : r.1.outer = s.outer :=
    (completions_outer comp _ (x := (s1, [])) (jobs_of_outer hs1 hjobs)).trans hs1
  clear_value r
  exact (recantRecords_outer ..).trans hdone

theorem provisional_hold (s : State) (comp : CompOut) : (s.provisional comp).hold = [] := recantRecords_hold ..

theorem zeroRest_outer (s : State) (p : WriteJob → Bool) : (s.zeroRest p).outer = s.outer :=
  forEach_kept (fun (j : WriteJob) (t : State) => forEach_kept (fun a t => zeroChord_outer t j.kit a) _ t) _ s

/-- What is gone with the requests: they, their replies and their jobs. -/
theorem discard_keeps (s : State) : s.discard.mode = s.mode ∧ s.discard.inflight = [] ∧ s.discard.replies = [] ∧
    s.discard.pwr = s.pwr ∧ s.discard.ringA.swOpen = s.ringA.swOpen ∧ s.discard.ringB.swOpen = s.ringB.swOpen ∧
    s.discard.knl.running = s.knl.running := by
  have hkept := zeroRest_outer s fun _ => true
  simp only [State.outer, Prod.mk.injEq] at hkept
  obtain ⟨hmode, -, -, -, -, hpwr, hA, hB, -, hknl⟩ := hkept
  exact ⟨hmode, rfl, rfl, hpwr, (congrArg RingSt.swOpen hA :), (congrArg RingSt.swOpen hB :), hknl⟩

/-! ### A full reset (17 R423) -/

theorem resetBlocks_kit (s : State) {k : Kit} (hk : k ≠ 0) : s.resetBlocks.kit k = (s.kit k).afterReset false := by
  have hhouse : (k.val == 0) = false := beq_eq_false_iff_ne.2 fun h => hk (Fin.ext h)
  simp only [State.kit, State.resetBlocks, Fin.getElem_fin, Vector.getElem_ofFn, hhouse]
  rfl

/-- The Kits of a full reset: as `resetBlocks` leaves them. -/
theorem resetBlocks_kits (s t : State) (hkits : t.kits = s.resetBlocks.kits) (k : Kit) (hk : k ≠ 0) :
    (t.kit k).live = (s.kit k).live ∧ (t.kit k).suspended = (s.kit k).live ∧ (t.kit k).binds = [] ∧
      (t.kit k).key = (s.kit k).key := by
  have hkit : t.kit k = (s.kit k).afterReset false := (congrArg (fun v : Vector KitSt 16 => v[k]) hkits).trans (resetBlocks_kit s hk)
  rw [hkit]
  exact ⟨rfl, Bool.and_true _, rfl, rfl⟩

theorem resetBlocks_engs (t : State) (hengs : t.engs = State.reset.engs) (e : Engine) : (t.eng e).busy = false := by
  rw [State.eng, hengs]
  simp [State.reset, EngSt.busy, EngSt.reset]

theorem fullReset_fullyReset (s : State) (cause : Nat) (m : Mode) (trig : Nat) :
    FullyReset s (s.fullReset cause m trig) m := by
  unfold State.fullReset
  refine ⟨enter_mode .., ?_, ?_, ?_, ?_, ?_, ?_, ?_, ?_, ?_, ?_, ?_, resetBlocks_engs _ ?_, resetBlocks_kits s _ ?_, fun a => ?_, fun a => ?_, ?_⟩
  all_goals simp only [enter_bar, enter_inflight, enter_replies, enter_hold, enter_near, enter_copies, enter_ringA, enter_ringB,
    enter_completing, enter_triggers, enter_engs, enter_kits, enter_mram, enter_deep, enter_pending]
  all_goals rfl

theorem off_fullyReset (s : State) : FullyReset s s.off .off := by
  refine ⟨rfl, rfl, rfl, rfl, rfl, rfl, rfl, rfl, rfl, rfl, rfl, rfl, resetBlocks_engs _ rfl, resetBlocks_kits s _ rfl, fun a => rfl,
    fun a => rfl, rfl⟩

theorem fullyReset_of_same {s u t : State} {m : Mode} (h : FullyReset u t m) (hkits : u.kits = s.kits)
    (hpending : u.pending = s.pending) (hstores : SameStores s u) : FullyReset s t m := by
  obtain ⟨hmode, hbeat, hcounted, hinflight, hreplies, hhold, hnear, hcopies, hringA, hringB, hcompleting, htriggers, hengs, hrest, hmram,
    hnand, hqueue⟩ := h
  have hkit : ∀ k, u.kit k = s.kit k := fun k => congrArg (fun v : Vector KitSt 16 => v[k]) hkits
  refine ⟨hmode, hbeat, hcounted, hinflight, hreplies, hhold, hnear, hcopies, hringA, hringB, hcompleting, htriggers, hengs, fun k hk => ?_,
    fun a => (hmram a).trans (hstores.1 a), fun a => (hnand a).trans (hstores.2.1 a), hqueue.trans hpending⟩
  rw [← hkit k]
  exact hrest k hk

/-! ### Where a trigger leads (17 R424) -/

theorem closeRing_kits (s : State) (r : Ring) (unplanned : Bool) : (s.closeRing r unplanned).kits = s.kits := by
  unfold State.closeRing
  repeat' split
  all_goals cases r <;> rfl

theorem closeRing_pending (s : State) (r : Ring) (unplanned : Bool) : (s.closeRing r unplanned).pending = s.pending := by
  unfold State.closeRing
  repeat' split
  all_goals cases r <;> rfl

theorem closeBoth_kits (s : State) : s.closeBoth.kits = s.kits := by
  rw [State.closeBoth, closeRing_kits, closeRing_kits]

theorem closeBoth_pending (s : State) : s.closeBoth.pending = s.pending := by
  rw [State.closeBoth, closeRing_pending, closeRing_pending]

theorem fullyReset_of_closeBoth {s t : State} {m : Mode} (h : FullyReset s.closeBoth t m) : FullyReset s t m :=
  fullyReset_of_same h (closeBoth_kits s) (closeBoth_pending s) (closeBoth_stores s)

/-- The Toll as its beginning leaves it (16 R390, R391, R402). -/
def Toll.begun (t : Toll) : Toll :=
  let fast := t.mayFast
  { t with
    fast := fast, epass := t.ordValid && t.ordPass, msince := if fast then t.ordMsince else 0, ordValid := false, part := 0x09,
    fatal := none, coreOk := true,
    startLvl := if fast then t.ordStart else Vector.ofFn fun (d : Fin 11) => Config.startTrim d.val,
    startBars := if fast then 0 else 16, recs := [], recDrop := 0, count := up32 t.count 1 }

theorem tollStart_changes (s : State) : ∃ stk bel free, s.tollStart =
    { s with toll := s.toll.begun, stk := stk, bel := bel, free := free } := by
  unfold State.tollStart
  obtain ⟨bel, free, h⟩ := putRecTwo_changes
    { s with
      toll := { s.toll with
        fast := s.toll.mayFast, epass := s.toll.ordValid && s.toll.ordPass, ordValid := false, part := 0x09, fatal := none,
        msince := if s.toll.mayFast then s.toll.ordMsince else 0, coreOk := true,
        startLvl := if s.toll.mayFast then s.toll.ordStart else Vector.ofFn fun (d : Fin 11) => Config.startTrim d.val,
        startBars := if s.toll.mayFast then 0 else 16 }
      stk := { s.stk with firstUse := !s.toll.mayFast }, bel := { s.bel with seq := s.bel.logHead } } .deviceState
  dsimp only
  rw [h]
  exact ⟨_, _, _, rfl⟩

theorem tollStart_fullyReset {s t : State} {m : Mode} (h : FullyReset s t m) : FullyReset s t.tollStart m := by
  obtain ⟨stk, bel, free, ht⟩ := tollStart_changes t
  rw [ht]
  exact h

theorem fullReset_pins (s : State) (cause : Nat) (m : Mode) (trig : Nat) : (s.fullReset cause m trig).pins = s.pins := by
  unfold State.fullReset
  rw [enter_pins]
  rfl

theorem fullReset_cause (s : State) (cause : Nat) (m : Mode) (trig : Nat) :
    (s.fullReset cause m trig).gen.resetCause = BitVec.ofNat 4 cause := by
  unfold State.fullReset
  rw [enter_gen]

/-- Where each trigger leads; the array, NAND, the Kits and the queue are those of before. -/
theorem arriveAt_resets (s : State) : FullyReset s (s.arriveAt .vstby) .off ∧ (s.arriveAt .vstby).pins = { s.pins with vstby := false } ∧
    (s.arriveAt .vstby).history = [] ∧ FullyReset s (s.arriveAt .pwrgood) .held ∧ FullyReset s (s.arriveAt .resetN) .held ∧
    FullyReset s (s.arriveAt .i3c) .morningToll ∧ FullyReset s (s.arriveAt .gong) .morningToll :=
  ⟨off_fullyReset s, rfl, rfl, fullyReset_of_closeBoth (fullReset_fullyReset ..), fullyReset_of_closeBoth (fullReset_fullyReset ..),
    tollStart_fullyReset (fullyReset_of_closeBoth (fullReset_fullyReset ..)),
    tollStart_fullyReset (fullyReset_of_closeBoth (fullReset_fullyReset ..))⟩

theorem tollStart_gen (s : State) : s.tollStart.gen = s.gen := by
  obtain ⟨stk, bel, free, h⟩ := tollStart_changes s
  rw [h]

/-- The cause of GEN_RESET that each trigger leaves (Table 18.4). -/
theorem arriveAt_cause (s : State) : (s.arriveAt .pwrgood).gen.resetCause = 1 ∧ (s.arriveAt .resetN).gen.resetCause = 2 ∧
    (s.arriveAt .gong).gen.resetCause = 3 ∧ (s.arriveAt .i3c).gen.resetCause = 4 :=
  ⟨fullReset_cause .., fullReset_cause .., (congrArg Gen.resetCause (tollStart_gen _)).trans (fullReset_cause ..),
    (congrArg Gen.resetCause (tollStart_gen _)).trans (fullReset_cause ..)⟩

theorem closeRing_idle (s : State) (r : Ring) (unplanned : Bool) : (s.closeRing r unplanned).completing = s.completing ∧
    (s.closeRing r unplanned).knl = s.knl := by
  unfold State.closeRing
  repeat' split
  all_goals cases r <;> exact ⟨rfl, rfl⟩

theorem closeBoth_mode (s : State) : s.closeBoth.mode = s.mode :=
  (closeRing_leaves _ .b true).2.1.trans (closeRing_leaves s .a true).2.1

theorem closeBoth_completing (s : State) : s.closeBoth.completing = s.completing :=
  (closeRing_idle _ .b true).1.trans (closeRing_idle s .a true).1

theorem closeBoth_knl (s : State) : s.closeBoth.knl = s.knl :=
  (closeRing_idle _ .b true).2.trans (closeRing_idle s .a true).2

theorem closeBoth_swB (s : State) : s.closeBoth.ringB.swOpen = false := closeRing_swOpen (s.closeRing .a true) .b true

theorem closeBoth_swA (s : State) : s.closeBoth.ringA.swOpen = false := by
  have hA := (closeRing_leaves (s.closeRing .a true) .b true).1 .a (by decide)
  exact (congrArg RingSt.swOpen hA).trans (closeRing_swOpen s .a true)

theorem closeRing_pins (s : State) (r : Ring) (unplanned : Bool) : (s.closeRing r unplanned).pins = s.pins := by
  unfold State.closeRing
  repeat' split
  all_goals cases r <;> rfl

theorem closeBoth_pins (s : State) : s.closeBoth.pins = s.pins := by
  rw [State.closeBoth, closeRing_pins, closeRing_pins]

theorem arriveAt_pins (s : State) : (s.arriveAt .pwrgood).pins = s.pins ∧ (s.arriveAt .resetN).pins = s.pins :=
  ⟨(fullReset_pins ..).trans (closeBoth_pins s), (fullReset_pins ..).trans (closeBoth_pins s)⟩

/-! ### Triggers (17 R420, R422, R424) -/

theorem resetBy_atOnce {s : State} (h : AtOnce s) (x : Trigger) (comp : CompOut) : s.resetBy x comp = s.arriveAt x := by
  obtain ⟨hmode, hcompleting, hknell⟩ := h
  have htimed : s.mode.timed = false := by
    obtain h | h | h | h | h := hmode <;> rw [h] <;> rfl
  simp [State.resetBy, hknell, hcompleting, htimed]

/-- A fall of PWRGOOD is counted as its completion begins (20 R471). -/
def State.pfailCounted (s : State) (x : Trigger) : State :=
  if x = .pwrgood then { s with pwr := { s.pwr with pfail := up16 s.pwr.pfail 1 } } else s

/-- In ring time a trigger begins a completion; a fall of PWRGOOD counts it. -/
theorem resetBy_timed {s : State} (htimed : s.mode.timed = true) (hcompleting : s.completing = false) (hknell : s.knl.running = false)
    (x : Trigger) (comp : CompOut) : CompletionBegun s (s.resetBy x comp) x ∧
      (s.resetBy x comp).pwr.pfail = (if x = .pwrgood then up16 s.pwr.pfail 1 else s.pwr.pfail) ∧
      (s.resetBy x comp).ringA.swOpen = s.ringA.swOpen ∧ (s.resetBy x comp).ringB.swOpen = s.ringB.swOpen ∧
      (s.resetBy x comp).knl.running = false := by
  have hreset : s.resetBy x comp =
      { ((s.pfailCounted x).discard.belCut).provisional comp with completing := true, triggers := [x] } := by
    simp [State.resetBy, State.completing_, State.pfailCounted, hknell, hcompleting, htimed]
  have hcounted : (s.pfailCounted x).mode = s.mode ∧ (s.pfailCounted x).ringA = s.ringA ∧ (s.pfailCounted x).ringB = s.ringB ∧
      (s.pfailCounted x).knl = s.knl ∧
      (s.pfailCounted x).pwr.pfail = (if x = .pwrgood then up16 s.pwr.pfail 1 else s.pwr.pfail) := by
    by_cases hx : x = .pwrgood <;> simp [State.pfailCounted, hx]
  rw [hreset]
  generalize s.pfailCounted x = u at hcounted
  obtain ⟨hmode1, hA1, hB1, hknl1, hpfail1⟩ := hcounted
  obtain ⟨hmodeD, hinflightD, -, hpwrD, hAD, hBD, hknlD⟩ := discard_keeps u
  have hkept := provisional_outer (s := u.discard.belCut) rfl comp
  have hhold := provisional_hold u.discard.belCut comp
  generalize u.discard.belCut.provisional comp = t at *
  simp only [State.outer, Prod.mk.injEq] at hkept
  obtain ⟨hmode, hinflight, -, -, -, hpwr, hA, hB, -, hknl⟩ := hkept
  refine ⟨⟨rfl, rfl, ?_, hinflight.trans hinflightD, hhold⟩, ?_, ?_, ?_, ?_⟩
  · exact (hmode.trans hmodeD).trans hmode1
  · exact (congrArg Pwr.pfail (hpwr.trans hpwrD)).trans hpfail1
  · exact (congrArg RingSt.swOpen hA).trans (hAD.trans (congrArg RingSt.swOpen hA1))
  · exact (congrArg RingSt.swOpen hB).trans (hBD.trans (congrArg RingSt.swOpen hB1))
  · exact (hknl.trans hknlD).trans ((congrArg Knl.running hknl1).trans hknell)

/-- Of the triggers that join a completion the highest-ranked leads. -/
theorem topTrigger_least {l : List Trigger} {x : Trigger} (hx : x ∈ l) :
    ∃ y, topTrigger l = some y ∧ y ∈ l ∧ ∀ z ∈ l, y.rank ≤ z.rank := by
  cases l with
  | nil => simp at hx
  | cons t ts =>
    refine ⟨_, rfl, ?_⟩
    clear hx
    induction ts generalizing t with
    | nil => simp
    | cons u us ih =>
      rw [List.foldl_cons]
      obtain ⟨hmem, hleast⟩ := ih (if u.rank < t.rank then u else t)
      generalize us.foldl _ _ = y at *
      have hstart := hleast _ List.mem_cons_self
      constructor
      · rcases List.mem_cons.1 hmem with h | h
        · rw [h]; split <;> simp
        · simp [h]
      · intro z hz
        rcases List.mem_cons.1 hz with rfl | hz
        · split at hstart <;> omega
        · rcases List.mem_cons.1 hz with rfl | hz
          · split at hstart <;> omega
          · exact hleast z (List.mem_cons_of_mem _ hz)

theorem topTrigger_eq {l : List Trigger} {x : Trigger} (hx : x ∈ l) (hleast : ∀ y ∈ l, y ≠ x → x.rank < y.rank) :
    topTrigger l = some x := by
  obtain ⟨y, htop, hy, hrank⟩ := topTrigger_least hx
  by_cases hyx : y = x
  · rw [htop, hyx]
  · have hlt := hleast y hy hyx
    have hle := hrank x hx
    omega

theorem completionEnds_arrives {s : State} {x : Trigger} (hcompleting : s.completing = true) (hknell : s.knl.running = false)
    (htop : topTrigger s.triggers = some x) : s.completionEnds = s.arriveAt x := by
  simp [State.completionEnds, hcompleting, hknell, htop]

/-! ### Held is left (17 R409) -/

theorem holdEnds_keeps (s : State) : s.holdEnds.toll = s.toll ∧ s.holdEnds.pins = s.pins := by
  unfold State.holdEnds
  split
  · exact ⟨rfl, rfl⟩
  · dsimp only
    split
    · exact ⟨logRec_toll .., logRec_pins ..⟩
    · exact ⟨rfl, rfl⟩

theorem heldExit_starts {s : State} (b : Bool) (hmode : s.mode = .held) (hvstby : s.pins.vstby = true) :
    (s.heldExit b).mode = .morningToll ∧ (s.heldExit b).bar.beatsrc = b ∧ (s.heldExit b).pins.resetN = true ∧
      (s.heldExit b).pins.pwrgood = true ∧ (s.heldExit b).toll = s.toll.begun := by
  obtain ⟨htoll, -⟩ := holdEnds_keeps s
  unfold State.heldExit
  rw [if_neg (by simp [hmode, hvstby])]
  extract_lets trig s1 pins bar s2
  obtain ⟨stk, bel, free, h⟩ := tollStart_changes (s2.enter .morningToll trig)
  rw [h]
  refine ⟨enter_mode .., ?_, ?_, ?_, ?_⟩
  · simp only [enter_bar]; rfl
  · simp only [enter_pins]; rfl
  · simp only [enter_pins]; rfl
  · simp only [enter_toll]
    exact congrArg Toll.begun htoll

theorem mayFast_iff (t : Toll) : t.mayFast = true ↔
    t.ordValid = true ∧ t.ordPass = true ∧ t.ordFull = false ∧ t.ordMsince < 64 := by
  simp [Toll.mayFast, and_assoc]

theorem begun_startLvl {t : Toll} (h : t.begun.fast = true) : t.begun.startLvl = t.ordStart := if_pos h

/-! ### Which modes a trigger finds -/

theorem modes_of_atOnce {s : State} (h : AtOnce s) : s.mode ≠ .off ∧ s.mode ≠ .hibernate ∧ s.mode ≠ .held := by
  obtain ⟨h | h | h | h | h, -, -⟩ := h <;> rw [h] <;> decide

theorem modes_of_timed {m : Mode} (h : m.timed = true) : m ≠ .off ∧ m ≠ .hibernate ∧ m ≠ .held := by
  refine ⟨?_, ?_, ?_⟩ <;> rintro rfl <;> cases h

section
variable {s : State} (hoff : s.mode ≠ .off) (hhib : s.mode ≠ .hibernate) (comp : CompOut)
include hoff

theorem vstbyGone_resets : ∃ pins : Pins,
    s.vstbyGone comp = ({ s.closeBoth with pins := pins } : State).resetBy .vstby comp := by
  unfold State.vstbyGone
  split
  · contradiction
  · exact ⟨_, rfl⟩

include hhib

theorem resetNLow_resets : ∃ pins : Pins, pins.resetN = false ∧
    s.resetNLow comp = ({ s with pins := pins } : State).resetBy .resetN comp := by
  unfold State.resetNLow
  split
  · contradiction
  · contradiction
  · exact ⟨_, rfl, rfl⟩

theorem pwrgoodLow_resets : ∃ pins : Pins, pins.pwrgood = false ∧
    s.pwrgoodLow comp = ({ s with pins := pins } : State).resetBy .pwrgood comp := by
  unfold State.pwrgoodLow
  split
  · contradiction
  · contradiction
  · exact ⟨_, rfl, rfl⟩

theorem i3cResets_resets (hheld : s.mode ≠ .held) : s.i3cResets comp = s.resetBy .i3c comp := by
  unfold State.i3cResets
  split
  · contradiction
  · contradiction
  · contradiction
  · rfl

end

/-! ### The Beat after a GONG's reply (17 R420; DESIGN CHOICE, log 84) -/

theorem countBeat_begun {s t : State} {x : Trigger} (h : CompletionBegun s t x) (marked osc : Bool) :
    CompletionBegun s (t.countBeat marked osc) x := by
  unfold State.countBeat
  dsimp only
  split
  · refine ⟨?_, ?_, ?_, ?_, ?_⟩
    all_goals simp only [State.wraps, tally_completing, tally_triggers, tally_mode, tally_inflight, tally_hold]
    · exact h.1
    · exact h.2.1
    · exact h.2.2.1
    · exact h.2.2.2.1
    · exact h.2.2.2.2
  · exact h

theorem beatBoundary_begun {s t : State} {x : Trigger} (h : CompletionBegun s t x) (hknell : t.knl.running = false)
    (base : BeatBase) (m : Option Marker) : CompletionBegun s (t.beatBoundary base m) x := by
  unfold State.beatBoundary
  extract_lets down
  split
  · exact h
  · unfold State.beat
    rw [if_pos h.1, hknell]
    split
    · contradiction
    · split
      · exact h
      · exact countBeat_begun h ..

/-! ### The obligation, row by row -/

theorem vstbyUp_resets {s : State} (a : BitVec 2) (hmode : s.mode = .off) : FullyReset s (s.vstbyUp a) .held ∧
    (s.vstbyUp a).pins.vstby = true ∧ (s.vstbyUp a).pins.pwrgood = false ∧ (s.vstbyUp a).pins.sbAddr = a ∧
    (s.vstbyUp a).gen.resetCause = 0 := by
  have hup : s.vstbyUp a =
      ({ s with pins := { s.pins with vstby := true, pwrgood := false, sbAddr := a } } : State).fullReset 0 .held 0x00 := by
    simp [State.vstbyUp, hmode]
  rw [hup, fullReset_pins, fullReset_cause]
  exact ⟨fullyReset_of_same (fullReset_fullyReset ..) rfl rfl (sameStores_of_eq rfl rfl rfl), rfl, rfl, rfl, rfl⟩

theorem fullyReset_of_pins {s t : State} {m : Mode} {pins : Pins} (h : FullyReset ({ s with pins := pins } : State) t m) :
    FullyReset s t m := h

section
variable {s : State} (h : AtOnce s) (comp : CompOut)
include h

theorem resetNLow_atOnce : FullyReset s (s.resetNLow comp) .held ∧ (s.resetNLow comp).gen.resetCause = 2 ∧
    (s.resetNLow comp).pins.resetN = false := by
  obtain ⟨hoff, hhib, -⟩ := modes_of_atOnce h
  obtain ⟨pins, hlow, heq⟩ := resetNLow_resets hoff hhib comp
  rw [heq, resetBy_atOnce (s := { s with pins := pins }) h]
  obtain ⟨-, -, -, -, hreset, -, -⟩ := arriveAt_resets { s with pins := pins }
  obtain ⟨-, hcause, -, -⟩ := arriveAt_cause { s with pins := pins }
  obtain ⟨-, hpins⟩ := arriveAt_pins { s with pins := pins }
  exact ⟨fullyReset_of_pins hreset, hcause, (congrArg Pins.resetN hpins).trans hlow⟩

theorem pwrgoodLow_atOnce : FullyReset s (s.pwrgoodLow comp) .held ∧ (s.pwrgoodLow comp).gen.resetCause = 1 ∧
    (s.pwrgoodLow comp).pins.pwrgood = false := by
  obtain ⟨hoff, hhib, -⟩ := modes_of_atOnce h
  obtain ⟨pins, hlow, heq⟩ := pwrgoodLow_resets hoff hhib comp
  rw [heq, resetBy_atOnce (s := { s with pins := pins }) h]
  obtain ⟨-, -, -, hreset, -, -, -⟩ := arriveAt_resets { s with pins := pins }
  obtain ⟨hcause, -, -, -⟩ := arriveAt_cause { s with pins := pins }
  obtain ⟨hpins, -⟩ := arriveAt_pins { s with pins := pins }
  exact ⟨fullyReset_of_pins hreset, hcause, (congrArg Pins.pwrgood hpins).trans hlow⟩

theorem vstbyGone_atOnce : FullyReset s (s.vstbyGone comp) .off ∧ (s.vstbyGone comp).pins.vstby = false ∧
    (s.vstbyGone comp).history = [] := by
  obtain ⟨hoff, -, -⟩ := modes_of_atOnce h
  obtain ⟨pins, heq⟩ := vstbyGone_resets hoff comp
  have hclosed : AtOnce ({ s.closeBoth with pins := pins } : State) := by
    unfold AtOnce
    simp only [closeBoth_mode, closeBoth_completing, closeBoth_knl]
    exact h
  rw [heq, resetBy_atOnce hclosed]
  obtain ⟨hreset, hpins, hhistory, -, -, -, -⟩ := arriveAt_resets { s.closeBoth with pins := pins }
  exact ⟨fullyReset_of_closeBoth (fullyReset_of_pins hreset), congrArg Pins.vstby hpins, hhistory⟩

theorem i3cResets_atOnce : FullyReset s (s.i3cResets comp) .morningToll ∧ (s.i3cResets comp).gen.resetCause = 4 := by
  obtain ⟨hoff, hhib, hheld⟩ := modes_of_atOnce h
  rw [i3cResets_resets hoff hhib comp hheld, resetBy_atOnce h]
  obtain ⟨-, -, -, -, -, hreset, -⟩ := arriveAt_resets s
  obtain ⟨-, -, -, hcause⟩ := arriveAt_cause s
  exact ⟨hreset, hcause⟩

end

section
variable {s : State} (htimed : s.mode.timed = true) (hcompleting : s.completing = false) (hknell : s.knl.running = false) (comp : CompOut)
include htimed hcompleting hknell

theorem resetNLow_timed : CompletionBegun s (s.resetNLow comp) .resetN := by
  obtain ⟨hoff, hhib, -⟩ := modes_of_timed htimed
  obtain ⟨pins, -, heq⟩ := resetNLow_resets hoff hhib comp
  rw [heq]
  exact (resetBy_timed (s := { s with pins := pins }) htimed hcompleting hknell .resetN comp).1

theorem pwrgoodLow_timed : CompletionBegun s (s.pwrgoodLow comp) .pwrgood ∧
    (s.pwrgoodLow comp).pwr.pfail = min (s.pwr.pfail + 1) 65535 := by
  obtain ⟨hoff, hhib, -⟩ := modes_of_timed htimed
  obtain ⟨pins, -, heq⟩ := pwrgoodLow_resets hoff hhib comp
  rw [heq]
  obtain ⟨hbegun, hpfail, -⟩ := resetBy_timed (s := { s with pins := pins }) htimed hcompleting hknell .pwrgood comp
  exact ⟨hbegun, hpfail.trans (Nat.min_comm ..)⟩

theorem vstbyGone_timed : CompletionBegun s (s.vstbyGone comp) .vstby ∧ (s.vstbyGone comp).ringA.swOpen = false ∧
    (s.vstbyGone comp).ringB.swOpen = false := by
  obtain ⟨hoff, -, -⟩ := modes_of_timed htimed
  obtain ⟨pins, heq⟩ := vstbyGone_resets hoff comp
  rw [heq]
  obtain ⟨⟨hc, ht, hmode, hinflight, hhold⟩, -, hA, hB, -⟩ := resetBy_timed (s := { s.closeBoth with pins := pins })
    ((congrArg Mode.timed (closeBoth_mode s)).trans htimed) ((closeBoth_completing s).trans hcompleting)
    ((congrArg Knl.running (closeBoth_knl s)).trans hknell) .vstby comp
  exact ⟨⟨hc, ht, hmode.trans (closeBoth_mode s), hinflight, hhold⟩, hA.trans (closeBoth_swA s), hB.trans (closeBoth_swB s)⟩

theorem i3cResets_timed : CompletionBegun s (s.i3cResets comp) .i3c := by
  obtain ⟨hoff, hhib, hheld⟩ := modes_of_timed htimed
  rw [i3cResets_resets hoff hhib comp hheld]
  exact (resetBy_timed htimed hcompleting hknell .i3c comp).1

end

/-! ### Where nothing is under way, or nothing powered -/

section
variable {s : State} (comp : CompOut)

theorem resetNLow_hibernate (hmode : s.mode = .hibernate) : FullyReset s (s.resetNLow comp) .held ∧
    (s.resetNLow comp).gen.resetCause = 2 := by
  have heq : ∃ pins : Pins, s.resetNLow comp = ({ s with pins := pins } : State).fullReset 2 .held 0x02 := by
    unfold State.resetNLow
    rw [hmode]
    exact ⟨_, rfl⟩
  obtain ⟨pins, heq⟩ := heq
  rw [heq]
  exact ⟨fullyReset_of_pins (fullReset_fullyReset ..), fullReset_cause ..⟩

theorem pwrgoodLow_unpowered (hmode : s.mode = .off ∨ s.mode = .hibernate) :
    s.pwrgoodLow comp = { s with pins := { s.pins with pwrgood := false } } := by
  unfold State.pwrgoodLow
  obtain h | h := hmode <;> rw [h]

theorem vstbyGone_off (hmode : s.mode = .off) : s.vstbyGone comp = s := by
  unfold State.vstbyGone
  rw [hmode]

theorem wakeNLow_hibernate (hmode : s.mode = .hibernate) : s.wakeNLow = s.fullReset 5 .held 0x05 := by
  unfold State.wakeNLow
  rw [hmode]

theorem wakeNLow_rest (hmode : s.mode = .rest) : s.wakeNLow = s.wake := by
  unfold State.wakeNLow
  rw [hmode]

theorem wakeNLow_else (hrest : s.mode ≠ .rest) (hhib : s.mode ≠ .hibernate) : s.wakeNLow = s := by
  unfold State.wakeNLow
  split
  · contradiction
  · contradiction
  · rfl

theorem i3cResets_unheard (hmode : s.mode = .off ∨ s.mode = .hibernate ∨ s.mode = .held) : s.i3cResets comp = s := by
  unfold State.i3cResets
  obtain h | h | h := hmode <;> rw [h]

end

/-! ### The end of a completion (17 R424) -/

theorem completionEnd_leads {s : State} (hcompleting : s.completing = true) (hknell : s.knl.running = false) :
    (.vstby ∈ s.triggers → ∃ t, exec .completionEnd s = .next t ∧ FullyReset s t .off) ∧
    (.vstby ∉ s.triggers → .pwrgood ∈ s.triggers → ∃ t, exec .completionEnd s = .next t ∧ FullyReset s t .held ∧
      t.gen.resetCause = 1) ∧
    (.vstby ∉ s.triggers → .pwrgood ∉ s.triggers → .resetN ∈ s.triggers → ∃ t, exec .completionEnd s = .next t ∧
      FullyReset s t .held ∧ t.gen.resetCause = 2) ∧
    (∀ x, s.triggers = [x] → (x = .i3c ∨ x = .gong) → ∃ t, exec .completionEnd s = .next t ∧
      FullyReset s t .morningToll ∧ t.gen.resetCause = (if x = .i3c then 4 else 3)) := by
  obtain ⟨hoff, -, -, hpwr, hreset, hi3c, hgong⟩ := arriveAt_resets s
  obtain ⟨hpwrCause, hresetCause, hgongCause, hi3cCause⟩ := arriveAt_cause s
  refine ⟨fun hv => ⟨_, rfl, ?_⟩, fun hv hp => ⟨_, rfl, ?_⟩, fun hv hp hr => ⟨_, rfl, ?_⟩, fun x htriggers hx => ⟨_, rfl, ?_⟩⟩
  · have htop : topTrigger s.triggers = some .vstby :=
      topTrigger_eq hv fun y _ hy => by cases y <;> simp [Trigger.rank] at hy ⊢
    rw [completionEnds_arrives hcompleting hknell htop]
    exact hoff
  · have htop : topTrigger s.triggers = some .pwrgood :=
      topTrigger_eq hp fun y hmem hy => by cases y <;> simp_all [Trigger.rank]
    rw [completionEnds_arrives hcompleting hknell htop]
    exact ⟨hpwr, hpwrCause⟩
  · have htop : topTrigger s.triggers = some .resetN :=
      topTrigger_eq hr fun y hmem hy => by cases y <;> simp_all [Trigger.rank]
    rw [completionEnds_arrives hcompleting hknell htop]
    exact ⟨hreset, hresetCause⟩
  · have htop : topTrigger s.triggers = some x := by rw [htriggers]; rfl
    rw [completionEnds_arrives hcompleting hknell htop]
    obtain rfl | rfl := hx
    · exact ⟨hi3c, hi3cCause⟩
    · exact ⟨hgong, hgongCause⟩

/-! ### GONG (07 R205) -/

section
variable {s : State} {rq : Req} {comp : CompOut}

theorem exec_gong (hwf : (Instr.gong rq comp).wf = true) : exec (.gong rq comp) s = .next (s.gong rq comp) := if_pos hwf

theorem gong_broadcast (hdnode : rq.dnode = 31) :
    s.gong rq comp = if s.heedsGong rq then s.resetBy .gong comp else s := if_pos (by simp [hdnode])

theorem gong_taken {s1 : State} {j : Job} (hdnode : rq.dnode ≠ 31) (htaken : s.taken rq = some (j, s1)) :
    s.gong rq comp = j.reply { s1 with gongDue := some (j.rid, comp) } 0x00 0 :=
  (gong_addressed hdnode).trans (serve_taken _ htaken)

theorem gongFires_resets {g : Nat × CompOut} (hg : s.gongDue = some g) (hgone : ∀ x ∈ s.replies, x.rid ≠ g.1) :
    s.gongFires = s.resetBy .gong g.2 := by
  unfold State.gongFires
  rw [hg]
  exact if_neg (by simpa using hgone)

/-- A GONG is heeded in ring time alone. -/
theorem timed_of_heedsGong (h : s.heedsGong rq = true) : s.mode.timed = true := by
  unfold State.heedsGong at h
  split at h
  · simp only [Bool.and_eq_true] at h
    exact h.1.1.1.1
  · cases h

end

/-- Settles O47: a trigger outside ring time arrives at once (`arriveAt_resets`, `fullReset_fullyReset`), in ring time it begins
a completion (`resetBy_timed`) whose outcomes leave what is outside them (`provisional_outer`), and COMPLETION_END leads where
`topTrigger` says. That GONG's trigger is taken in the next Beat once its reply has left (log 84), that TOLL_COUNT counts a
Toll as it starts (log 69) and the start levels that a fast path takes over (log 20) are the model's choices. -/
theorem powerResetAndTriggers : Obligations.PowerResetAndTriggers := by
  unfold Obligations.PowerResetAndTriggers
  refine ⟨fun s comp => ?_, fun s hcompleting hknell => ?_, fun s hcompleting => ?_, fun s s1 rq j comp hwf => ?_,
    fun s g b m hg hgone htimed hcompleting hknell => ?_⟩
  · intro timed
    refine ⟨fun a hmode => ⟨_, rfl, vstbyUp_resets a hmode⟩, fun a hmode => ?vstbyElse, fun b hmode hvstby => ⟨_, rfl, ?held⟩,
      fun b hmode => ?heldElse, fun h => ⟨_, rfl, resetNLow_atOnce h comp⟩,
      fun ⟨htimed, hcompleting, hknell, _⟩ => ⟨_, rfl, resetNLow_timed htimed hcompleting hknell comp⟩, fun hmode => ⟨_, rfl, ?resetHib⟩,
      fun h => ⟨_, rfl, pwrgoodLow_atOnce h comp⟩,
      fun ⟨htimed, hcompleting, hknell, _⟩ => ⟨_, rfl, pwrgoodLow_timed htimed hcompleting hknell comp⟩, fun hmode => ?pwrElse,
      fun _ h => ⟨_, rfl, vstbyGone_atOnce h comp⟩,
      fun _ ⟨htimed, hcompleting, hknell, _⟩ => ⟨_, rfl, vstbyGone_timed htimed hcompleting hknell comp⟩, fun _ hmode => ?vstbyOff,
      fun hmode => ⟨_, rfl, ?wakeHib⟩, fun hmode => ?wakeRest, fun hrest hhib => ?wakeElse,
      fun h => ⟨_, rfl, i3cResets_atOnce h comp⟩,
      fun ⟨htimed, hcompleting, hknell, _⟩ => ⟨_, rfl, i3cResets_timed htimed hcompleting hknell comp⟩, fun hmode => ?i3cElse⟩
    case vstbyElse => exact congrArg Host.Outcome.next (if_pos (by simpa using hmode))
    case held =>
      obtain ⟨hmode, hsrc, hresetN, hpwrgood, htoll⟩ := heldExit_starts b hmode hvstby
      refine ⟨hmode, hsrc, hresetN, hpwrgood, ?_, ?_, ?_, ?_⟩ <;> rw [htoll]
      · rfl
      · exact Nat.min_comm ..
      · exact mayFast_iff s.toll
      · exact begun_startLvl
    case heldElse => exact congrArg Host.Outcome.next (if_pos (by simp [hmode]))
    case resetHib => exact resetNLow_hibernate comp hmode
    case pwrElse => exact congrArg Host.Outcome.next (pwrgoodLow_unpowered comp hmode)
    case vstbyOff => exact congrArg Host.Outcome.next (vstbyGone_off comp hmode)
    case wakeHib =>
      rw [wakeNLow_hibernate hmode]
      exact ⟨fullReset_fullyReset .., fullReset_cause ..⟩
    case wakeRest => exact congrArg Host.Outcome.next ((wakeNLow_rest hmode).trans (wake_of_rest hmode))
    case wakeElse => exact congrArg Host.Outcome.next (wakeNLow_else hrest hhib)
    case i3cElse => exact congrArg Host.Outcome.next (i3cResets_unheard comp hmode)
  · exact completionEnd_leads hcompleting hknell
  · exact congrArg Host.Outcome.next (if_pos (by simp [hcompleting]))
  · refine ⟨fun hdnode htaken => ?_, fun hdnode hheeds hcompleting hknell => ?_, fun hdnode hheeds => ?_⟩
    · refine ⟨_, (exec_gong hwf).trans (congrArg Host.Outcome.next (gong_taken hdnode htaken)), ?_⟩
      have hleft := Job.reply_countsOnly j { s1 with gongDue := some (j.rid, comp) } 0x00 0
      exact ⟨Job.reply_replied 0x00 0 htaken rfl rfl, answer_gongDue .., hleft.mode, hleft.stores⟩
    · rw [exec_gong hwf, gong_broadcast hdnode, if_pos hheeds]
      exact ⟨_, rfl, (resetBy_timed (timed_of_heedsGong hheeds) hcompleting hknell .gong comp).1⟩
    · rw [exec_gong hwf, gong_broadcast hdnode, hheeds]
      rfl
  · obtain ⟨hbegun, -, -, -, hstill⟩ := resetBy_timed htimed hcompleting hknell .gong g.2
    refine ⟨_, rfl, ?_⟩
    rw [gongFires_resets hg hgone]
    exact beatBoundary_begun hbegun hstill b m

end Sys2Proof.Machine

namespace Sys2Proof.Machine

/-! ### The summary (18 R433) -/

/-- Writing the summary changes the Belfry, the Strokes and the summary that is kept. -/
theorem putSummary_changes (s : State) (x : Summary) (body : List Byte) (n : Nat) : ∃ bel stk bytes, s.putSummary x body n =
    { s with bel := bel, stk := stk, knl := { s.knl with summary := some { x with bytes := bytes } } } := by
  obtain ⟨bel, h⟩ := putRec_changes s .knellSummary body
  unfold State.putSummary
  rw [h]
  exact ⟨_, _, _, rfl⟩

theorem editSummary_changes (s : State) (x : Summary) : ∃ bel stk bytes, s.editSummary x =
    { s with bel := bel, stk := stk, knl := { s.knl with summary := some { x with bytes := bytes } } } :=
  putSummary_changes s x _ 2

/-! ### A Knell begins (18 R428) -/

theorem stopAll_live (s : State) (e : Engine) : (s.stopAll.eng e).live = false := by
  simp only [State.eng, State.stopAll, Vector.getElem_map, Fin.getElem_fin]
  split
  · rfl
  · exact eq_false_of_ne_true ‹_›

theorem knellAlert_outer (r : Ring) (s : State) : (State.knellAlert r s).outer = s.outer := by
  unfold State.knellAlert
  simp only [ite_outer]
  exact ite_self _

/-- The state in which a Knell's completion finds the device: requests gone, engines stopped, NEW set and told. -/
def State.knellSilent (s : State) : State :=
  let t := forEach State.knellAlert bothRings ((((s.stopAll).discard).belCut).raise .knl 0x01)
  { t with tal := t.tal.off }

theorem knellStops_eq (s : State) (comp : CompOut) :
    s.knellStops comp = if s.mode.timed then s.knellSilent.provisional comp else s.knellSilent := rfl

theorem knellSilent_outer (s : State) : s.knellSilent.outer = (((s.stopAll).discard.belCut).raise .knl 0x01).outer :=
  forEach_kept knellAlert_outer bothRings _

theorem knellStops_outer (s : State) (comp : CompOut) :
    (s.knellStops comp).outer = (((s.stopAll).discard.belCut).raise .knl 0x01).outer := by
  have hsilent := knellSilent_outer s
  rw [knellStops_eq]
  split
  · exact (provisional_outer (jobs_of_outer hsilent rfl) comp).trans hsilent
  · exact hsilent

theorem discard_engs (s : State) : s.discard.engs = s.engs := by
  have hkept := zeroRest_outer s fun _ => true
  simp only [State.outer, Prod.mk.injEq] at hkept
  exact hkept.2.2.2.2.1

/-- Steps 1 to 3: the mode stays; requests, replies and running engines are gone; NEW is set. -/
theorem knellStops_stops (s : State) (comp : CompOut) : (s.knellStops comp).mode = s.mode ∧ (s.knellStops comp).inflight = [] ∧
    (s.knellStops comp).replies = [] ∧ (∀ e : Engine, ((s.knellStops comp).eng e).live = false) ∧
    ((s.knellStops comp).ev .knl).bits.getLsbD 0 = true := by
  have hkept := knellStops_outer s comp
  obtain ⟨hmodeD, hinflightD, hrepliesD, -⟩ := discard_keeps s.stopAll
  have hengsD := discard_engs s.stopAll
  generalize s.knellStops comp = t at hkept ⊢
  generalize s.stopAll.discard = u at *
  simp only [State.outer, Prod.mk.injEq] at hkept
  obtain ⟨hmode, hinflight, hreplies, -, hengs, -, -, -, hev, -⟩ := hkept
  refine ⟨hmode.trans hmodeD, hinflight.trans hinflightD, hreplies.trans hrepliesD, fun e => ?_, ?_⟩
  · rw [State.eng, hengs.trans hengsD]
    exact stopAll_live s e
  · rw [State.ev, hev]
    have hraise := ev_raise_same u.belCut .knl 0x01
    rw [State.ev] at hraise
    rw [hraise, BitVec.getLsbD_or]
    simp

/-- What a Knell that begins shows. -/
structure KnellBegun (s t : State) (code detail : Nat) (x : Summary) : Prop where
  running : t.knl.running = true
  completing : t.completing = true
  triggers : t.triggers = [.knell]
  mode : t.mode = s.mode
  inflight : t.inflight = []
  replies : t.replies = []
  stopped : ∀ e : Engine, (t.eng e).live = false
  told : (t.ev .knl).bits.getLsbD 0 = true
  summary : t.knl.summary = some x
  cause : x.cause = (code, 0)
  detail : x.detail = BitVec.ofNat 32 detail
  seq : x.seq = (s.knl.seq + 1) % 2 ^ 32
  atMode : x.mode = s.mode
  pending : x.recstate = 8
  unwritten : t.knl.confirmed = (0, 0)

theorem knellBegins_begins (s : State) (code detail : Nat) (comp : CompOut) :
    ∃ x, KnellBegun s (s.knellBegins code detail comp) code detail x := by
  obtain ⟨hmode, hinflight, hreplies, hengs, hnew⟩ := knellStops_stops s comp
  unfold State.knellBegins
  extract_lets seq record s1 done x s2 s3
  obtain ⟨bel, stk, bytes, h⟩ := putSummary_changes s2 x (summaryBody s x done) 32
  have hs3 : s3 = { s2 with bel := bel, stk := stk, knl := { s2.knl with summary := some { x with bytes := bytes } } } := h
  clear_value s3
  subst hs3
  exact ⟨_, rfl, rfl, rfl, hmode, hinflight, hreplies, hengs, hnew, rfl, rfl, rfl, rfl, rfl, rfl, rfl⟩

/-! ### Which causes are taken (18 R427) -/

theorem causeDetail_due {s : State} {c : KnellCause} {code d : Nat} (given : Nat) (hcode : code = causeCode c)
    (hdue : s.knl.due = [(code, d)]) : s.causeDetail c given = some d := by
  simp [State.causeDetail, hdue, hcode]

theorem causeDetail_given {s : State} {c : KnellCause} (given : Nat) (hdue : s.knl.due = []) (hfound : causeFound c = false)
    (hfill : s.mode ≠ .fill) : s.causeDetail c given = some given := by
  simp [State.causeDetail, hdue, hfound, hfill]

theorem causeDetail_absent {s : State} {c : KnellCause} (given : Nat) (hdue : s.knl.due = []) (hfound : causeFound c = true) :
    s.causeDetail c given = none := by
  simp [State.causeDetail, hdue, hfound]

/-- The code given by an assertion of the control core is always there outside Fill. -/
theorem causeDetail_assert {s : State} (given : Nat) (hfill : s.mode ≠ .fill) : ∃ d, s.causeDetail .assert given = some d := by
  unfold State.causeDetail
  split
  · exact ⟨_, rfl⟩
  · exact ⟨given, if_neg (by simp [causeFound, hfill])⟩

section
variable {s : State} {c : KnellCause} {given d : Nat} (comp : CompOut)

theorem knellCause_unheard (hmode : s.mode.knells = false) : s.knellCause c given comp = s := by
  simp [State.knellCause, hmode]

theorem knellCause_absent (habsent : s.causeDetail c given = none) : s.knellCause c given comp = s := by
  simp [State.knellCause, habsent]

variable (hmode : s.mode.knells = true) (hdetail : s.causeDetail c given = some d)
include hmode hdetail

theorem knellCause_begins (hknell : s.knl.running = false) (hcompleting : s.completing = false) :
    ∃ x, KnellBegun s (s.knellCause c given comp) (causeCode c) d x := by
  have heq : s.knellCause c given comp = (s.causeTaken c).knellBegins (causeCode c) d comp := by
    simp [State.knellCause, State.causeTaken, hmode, hdetail, hknell, hcompleting]
  obtain ⟨x, hbegun⟩ := knellBegins_begins (s.causeTaken c) (causeCode c) d comp
  rw [heq]
  exact ⟨x, hbegun.running, hbegun.completing, hbegun.triggers, hbegun.mode, hbegun.inflight, hbegun.replies, hbegun.stopped,
    hbegun.told, hbegun.summary, hbegun.cause, hbegun.detail, hbegun.seq, hbegun.atMode, hbegun.pending, hbegun.unwritten⟩

theorem knellCause_second {x : Summary} (hknell : s.knl.running = true) (hsummary : s.knl.summary = some x)
    (hfirst : x.cause.2 = 0) : ∃ y, (s.knellCause c given comp).knl.summary = some y ∧ y.cause = (x.cause.1, causeCode c) ∧
      y.seq = x.seq ∧ y.recstate = x.recstate ∧ (s.knellCause c given comp).knl.running = true ∧
      (s.knellCause c given comp).knl.recLeft = s.knl.recLeft ∧ (s.knellCause c given comp).hold = s.hold ∧
      (s.knellCause c given comp).mode = s.mode ∧ (s.knellCause c given comp).mram = s.mram := by
  have heq : s.knellCause c given comp = (s.causeTaken c).editSummary { x with cause := (x.cause.1, causeCode c) } := by
    simp [State.knellCause, State.causeTaken, State.secondCause, hmode, hdetail, hknell, hsummary, hfirst]
  obtain ⟨bel, stk, bytes, hedit⟩ := editSummary_changes (s.causeTaken c) { x with cause := (x.cause.1, causeCode c) }
  rw [heq, hedit]
  exact ⟨_, rfl, rfl, rfl, rfl, hknell, rfl, rfl, rfl, rfl⟩

theorem knellCause_joins (hknell : s.knl.running = false) (hcompleting : s.completing = true) :
    s.knellCause c given comp = { s.causeTaken c with triggers := s.triggers ++ [.knell] } := by
  simp [State.knellCause, State.causeTaken, hmode, hdetail, hknell, hcompleting]

end

/-! ### A Knell ends (18 R428 steps 6 and 7) -/

theorem knellEnds_waits {s : State} (h : s.knl.recLeft ≠ [] ∨ s.hold ≠ []) : s.knellEnds = s := by
  unfold State.knellEnds
  rw [if_pos]
  simpa [or_iff_not_imp_left] using h

theorem closeRing_triggers (s : State) (r : Ring) (unplanned : Bool) : (s.closeRing r unplanned).triggers = s.triggers := by
  unfold State.closeRing
  repeat' split
  all_goals cases r <;> rfl

theorem closeBoth_triggers (s : State) : s.closeBoth.triggers = s.triggers := by
  rw [State.closeBoth, closeRing_triggers, closeRing_triggers]

theorem knellEnds_ends {s : State} {x : Summary} (hleft : s.knl.recLeft = []) (hhold : s.hold = []) (hsummary : s.knl.summary = some x) :
    ∃ y, s.knellEnds.mode = .knelled ∧ s.knellEnds.completing = false ∧ s.knellEnds.triggers = [] ∧
      s.knellEnds.knl.running = false ∧ s.knellEnds.ringA.swOpen = false ∧ s.knellEnds.ringB.swOpen = false ∧
      s.knellEnds.knl.summary = some y ∧ y.cause = x.cause ∧
      y.recstate = b2n s.knl.trailer.1 + 2 * b2n s.knl.trailer.2 ∧ ∀ a, cellGet s.knellEnds.mram a = cellGet s.mram a := by
  obtain ⟨bel, stk, bytes, hedit⟩ := editSummary_changes s { x with recstate := b2n s.knl.trailer.1 + 2 * b2n s.knl.trailer.2 }
  unfold State.knellEnds
  rw [if_neg (by simp [hleft, hhold]), hsummary]
  simp only [hedit]
  refine ⟨{ x with recstate := b2n s.knl.trailer.1 + 2 * b2n s.knl.trailer.2, bytes := bytes }, enter_mode .., ?_, ?_, ?_, ?_, ?_,
    ?_, rfl, rfl, fun a => ?_⟩
  all_goals simp only [enter_completing, enter_triggers, enter_knl, enter_ringA, enter_ringB, enter_mram, closeBoth_completing,
    closeBoth_triggers, closeBoth_knl, closeBoth_swA, closeBoth_swB]
  exact (closeBoth_stores _).1 a

theorem completionEnds_knell {s : State} (hcompleting : s.completing = true) (hknell : s.knl.running = true) :
    s.completionEnds = s.knellEnds := by
  simp [State.completionEnds, hcompleting, hknell]

/-! ### KNELL_READ (07 R202) -/

theorem knellRead_replies {s s1 : State} {rq : Req} {j : Job} (htaken : s.taken rq = some (j, s1))
    (hwf : (Instr.knellRead rq).wf = true) :
    let off := prm rq % 2 ^ 32
    let b := if pb rq 13 == 1 then s1.knellSummary off (lenOf rq) else s1.knellMain (pb rq 12) off (lenOf rq)
    ∃ t, exec (.knellRead rq) s = .next t ∧ Replied s1 t j.rid rq 0x00 0 b ∧ t.knl = s1.knl ∧ SameStores s1 t := by
  intro off b
  refine ⟨s1.knellRead j, runReq_taken _ htaken hwf, ?_, answer_knl .., (Job.answer_countsOnly ..).stores⟩
  have hreplied := Job.answer_replied (ansData b) htaken rfl rfl
  unfold State.knellRead
  rw [taken_rq htaken]
  exact hreplied

/-- A whole chord of the Main record. -/
theorem knellMain_chord {s : State} {copy off : Nat} {d : List Byte} (hkept : s.knl.summary ≠ none) (hoff : off % 64 = 0)
    (hvalue : (s.decodeAt (Config.knellBase + copy * Config.knellCopyChords + off / 64)).value = some d) (hlength : d.length = 64) :
    s.knellMain copy off 64 = d := by
  have hsome : s.knl.summary.isNone = false := by simpa [Option.ne_none_iff_isSome] using hkept
  have hchords : (off + 64 + 63) / 64 - off / 64 = 1 := by omega
  unfold State.knellMain
  have htake : d.take 64 = d := List.take_of_length_le hlength.le
  simp [hsome, hchords, hoff, State.knellChord, hvalue, htake]

/-- Settles O51: a cause begins a Knell (`knellBegins_begins`), whose completion leaves what `provisional_outer` says, is the
second one (`knellCause_second`) or joins a completion (`knellCause_joins`); the end is `knellEnds_ends`. That the step which
finds a cause queues it for KNELL (log 23) and that KNELL takes steps 1 to 4 at once (log 77) are the model's choices. -/
theorem knellSequence : Obligations.KnellSequence := by
  unfold Obligations.KnellSequence
  refine ⟨fun s detail comp => ?_, fun s => ?_, fun s s1 rq j htaken hwf => ?_⟩
  · intro mode begins found
    have hknells : mode → s.mode.knells = true ∧ s.mode ≠ .fill := by
      rintro (h | h | h | h | h | h) <;> rw [h] <;> decide
    have hbegins : ∀ {c code d given}, code = causeCode c → mode → s.knl.running = false → s.completing = false →
        s.causeDetail c given = some d → ∀ i, exec i s = .next (s.knellCause c given comp) → begins i code d := by
      intro c code d given hcode hmode hknell hcompleting hdetail i hexec
      obtain ⟨x, hbegun⟩ := knellCause_begins comp (hknells hmode).1 hdetail hknell hcompleting
      exact ⟨_, x, hexec, hbegun.running, hbegun.completing, hbegun.triggers, hbegun.mode, hbegun.inflight, hbegun.replies,
        hbegun.stopped, hbegun.told, hbegun.summary, hcode ▸ hbegun.cause, hbegun.detail, hbegun.seq, hbegun.atMode, hbegun.pending,
        hbegun.unwritten⟩
    refine ⟨fun hmode hknell hcompleting c code d hc hdue => ?due, fun hmode hknell hcompleting hdue => ⟨?_, ?_, ?_⟩,
      fun c code hc hdue => ?absent, fun x hmode hknell hsummary hfirst => ?second, fun hmode hknell hcompleting => ?joins,
      fun c hmode => ?unheard⟩
    case due =>
      simp only [List.mem_cons, List.not_mem_nil, or_false, Prod.mk.injEq, found] at hc
      obtain ⟨rfl, rfl⟩ | ⟨rfl, rfl⟩ | ⟨rfl, rfl⟩ | ⟨rfl, rfl⟩ | ⟨rfl, rfl⟩ := hc
      · exact hbegins rfl hmode hknell hcompleting (causeDetail_due (c := .sramded) _ rfl hdue) _ rfl
      · exact hbegins rfl hmode hknell hcompleting (causeDetail_due (c := .toll) _ rfl hdue) _ rfl
      · exact hbegins rfl hmode hknell hcompleting (causeDetail_due (c := .chkfail) _ rfl hdue) _ rfl
      · exact hbegins rfl hmode hknell hcompleting (causeDetail_due (c := .metafail) _ rfl hdue) _ rfl
      · exact hbegins rfl hmode hknell hcompleting (causeDetail_due (c := .logmain) _ rfl hdue) _ rfl
    case absent =>
      simp only [List.mem_cons, List.not_mem_nil, or_false, Prod.mk.injEq, found] at hc
      refine congrArg Host.Outcome.next (knellCause_absent comp (causeDetail_absent _ hdue ?_))
      obtain ⟨rfl, -⟩ | ⟨rfl, -⟩ | ⟨rfl, -⟩ | ⟨rfl, -⟩ := hc <;> rfl
    case second =>
      obtain ⟨hknell', hfill⟩ := hknells hmode
      obtain ⟨d, hdetail⟩ := causeDetail_assert detail.toNat hfill
      obtain ⟨y, hsummary', hcause, hseq, hstate, hrunning, hleft, hhold, hmode', hmram⟩ :=
        knellCause_second comp hknell' hdetail hknell hsummary hfirst
      exact ⟨_, y, rfl, hsummary', hcause, hseq, hstate, hrunning, hleft, hhold, hmode', fun a => by rw [hmram]⟩
    case joins =>
      obtain ⟨hknell', hfill⟩ := hknells hmode
      obtain ⟨d, hdetail⟩ := causeDetail_assert detail.toNat hfill
      exact ⟨_, congrArg Host.Outcome.next (knellCause_joins comp hknell' hdetail hknell hcompleting), rfl, hknell,
        sameStores_of_eq rfl rfl rfl⟩
    case unheard =>
      have hdeaf : s.mode.knells = false := by
        obtain h | h | h | h | h := hmode <;> rw [h] <;> rfl
      exact ⟨congrArg Host.Outcome.next (knellCause_unheard comp hdeaf), congrArg Host.Outcome.next (knellCause_unheard comp hdeaf)⟩
    · exact hbegins rfl hmode hknell hcompleting (causeDetail_given (c := .sramded) _ hdue rfl (hknells hmode).2) _ rfl
    · exact hbegins rfl hmode hknell hcompleting (causeDetail_given (c := .assert) _ hdue rfl (hknells hmode).2) _ rfl
    · exact hbegins rfl hmode hknell hcompleting (causeDetail_given (c := .watchdog) _ hdue rfl (hknells hmode).2) _ rfl
  · refine ⟨fun hknell => congrArg Host.Outcome.next (if_pos hknell), fun hknell => congrArg Host.Outcome.next (if_neg (by simp [hknell])),
      fun x hcompleting hknell hleft hhold hsummary => ?_, fun hcompleting hknell hleft => ?_⟩
    · obtain ⟨y, hmode, hdone, htriggers, hrunning, hA, hB, hsummary', hcause, hstate, hmram⟩ := knellEnds_ends hleft hhold hsummary
      exact ⟨_, y, congrArg Host.Outcome.next (completionEnds_knell hcompleting hknell), hmode, hdone, htriggers, hrunning, hA, hB,
        hsummary', hcause, hstate, by rw [State.alertNLow, hmode], hmram⟩
    · exact congrArg Host.Outcome.next ((completionEnds_knell hcompleting hknell).trans (knellEnds_waits hleft))
  · intro off n good
    have hread := knellRead_replies htaken hwf
    have hgood : ∀ {b}, (if pb rq 13 == 1 then s1.knellSummary off n else s1.knellMain (pb rq 12) off n) = b → good b := by
      rintro _ rfl
      exact hread
    refine ⟨fun hsrc hsummary => hgood ?_, fun x hsrc hsummary => hgood ?_, fun hsrc hseq hsummary => hgood ?_,
      fun d hsrc hsummary hoff hn hlim hvalue hlength => hgood ?_⟩
    · simp [hsrc, State.knellSummary, hsummary, zeros]
    · simp [hsrc, State.knellSummary, hsummary]
    · simp [hsrc, State.knellMain, hseq, hsummary, zeros]
    · rw [if_neg (by simpa using hsrc), hn]
      exact knellMain_chord hsummary hoff hvalue hlength

end Sys2Proof.Machine

namespace Sys2Proof.Machine

/-- The three byte stores hold what they held, and the device is in the mode it was in. -/
abbrev Still (s t : State) : Prop :=
  t.mram = s.mram ∧ t.deep.nand = s.deep.nand ∧ t.bel.mem = s.bel.mem ∧ t.mode = s.mode

theorem Still.refl (s : State) : Still s s := ⟨rfl, rfl, rfl, rfl⟩

theorem Still.trans {s t u : State} (hst : Still s t) (htu : Still t u) : Still s u :=
  ⟨htu.1.trans hst.1, htu.2.1.trans hst.2.1, htu.2.2.1.trans hst.2.2.1, htu.2.2.2.trans hst.2.2.2⟩

@[simp] theorem ite_mram (c : Prop) [Decidable c] (s t : State) :
    (if c then s else t).mram = if c then s.mram else t.mram := apply_ite State.mram c s t

@[simp] theorem ite_deep (c : Prop) [Decidable c] (s t : State) :
    (if c then s else t).deep = if c then s.deep else t.deep := apply_ite State.deep c s t

@[simp] theorem ite_bel (c : Prop) [Decidable c] (s t : State) :
    (if c then s else t).bel = if c then s.bel else t.bel := apply_ite State.bel c s t

@[simp] theorem ite_nand (c : Prop) [Decidable c] (d e : Deep) :
    (if c then d else e).nand = if c then d.nand else e.nand := apply_ite Deep.nand c d e

@[simp] theorem ite_mem (c : Prop) [Decidable c] (d e : Bel) :
    (if c then d else e).mem = if c then d.mem else e.mem := apply_ite Bel.mem c d e

@[simp] theorem forEach_still {α : Type} {f : α → State → State} (h : ∀ x s, Still s (f x s)) (l : List α)
    (s : State) : Still s (forEach f l s) :=
  forEach_forall (R := Still) Still.refl (fun _ _ _ => Still.trans) h l s

theorem foldl_still {α : Type} {f : State → α → State} (h : ∀ s x, Still s (f s x)) (l : List α) (s : State) :
    Still s (l.foldl f s) := by
  induction l generalizing s with
  | nil => exact Still.refl s
  | cons x xs ih => exact (h s x).trans (ih _)

/-! ### Deep's block records, map and queues (10 R260 to R280) -/

section
variable (d : Deep) (b n m c : Nat) (e : DeepEnt)

@[simp] theorem setBlk_nand (x : DeepBlk) : (d.setBlk x).nand = d.nand := rfl
@[simp] theorem updBlk_nand (f : DeepBlk → DeepBlk) : (d.updBlk b f).nand = d.nand := rfl
@[simp] theorem setEnt_nand : (d.setEnt e).nand = d.nand := rfl
@[simp] theorem dropPage_nand : (d.dropPage n).nand = d.nand := rfl
@[simp] theorem queueAt_nand (op : DeepOp) : (d.queueAt n m b op).nand = d.nand := rfl
@[simp] theorem queueRefresh_nand : (d.queueRefresh n b).nand = d.nand := by simp [Deep.queueRefresh]
@[simp] theorem queueRetire_nand : (d.queueRetire b).nand = d.nand := by simp [Deep.queueRetire]
@[simp] theorem countRead_nand : (d.countRead b n m).nand = d.nand := rfl
@[simp] theorem dieAlive_nand : (d.dieAlive n).nand = d.nand := by simp [Deep.dieAlive]
@[simp] theorem wlBegin_nand : (d.wlBegin b n).nand = d.nand := rfl

@[simp] theorem foldl_nand {α : Type} {f : Deep → α → Deep} (h : ∀ d x, (f d x).nand = d.nand) (l : List α) (d : Deep) :
    (l.foldl f d).nand = d.nand := by
  induction l generalizing d with
  | nil => rfl
  | cons x xs ih => rw [List.foldl_cons, ih, h]

end

@[simp] theorem log_mem (b : Bel) (r : LogRec) : (b.log r).mem = b.mem := by simp [Bel.log]

@[simp] theorem logRec_still (s : State) (code arg : Nat) (rid : Option Nat) : Still s (s.logRec code arg rid) :=
  ⟨rfl, rfl, log_mem .., rfl⟩

@[simp] theorem Job.answer_still (j : Job) (s : State) (a : Answer) : Still s (j.answer s a) := by
  simp [Still, Job.answer]

@[simp] theorem Job.reply_still (j : Job) (s : State) (status detail : Nat) : Still s (j.reply s status detail) := by
  simp [Still, Job.reply]

/-! ### The operations that every family shares -/

@[simp] theorem calRan_still (s : State) (order : Nat) : Still s (s.calRan order) := by simp [Still, State.calRan]

@[simp] theorem tallyLosses_still (s : State) : Still s s.tallyLosses := by simp [Still, State.tallyLosses]

@[simp] theorem tallyAt_still (s : State) (beat typ : Nat) (kit : Option Kit) (arg : Nat) :
    Still s (s.tallyAt beat typ kit arg) := by
  simp [Still, State.tallyAt]

@[simp] theorem fatal_still (s : State) (cause detail : Nat) : Still s (s.fatal cause detail) := by
  simp [Still, State.fatal]

@[simp] theorem alertOne_still (i : EvId) (s : State) : Still s (s.alertOne i) := by
  simp only [Still, State.alertOne]
  repeat' split
  all_goals simp

@[simp] theorem alertSend_still (s : State) : Still s s.alertSend := by simp [Still, State.alertSend]

@[simp] theorem alertBar_still (s : State) : Still s s.alertBar := by simp [Still, State.alertBar]

@[simp] theorem freshClear_still (s : State) : Still s s.freshClear := by simp [Still, State.freshClear]

/-! ### The main array -/

@[simp] theorem queueRec_still (s : State) (r : RecId) : Still s (s.queueRec r) := by simp [Still, State.queueRec]

@[simp] theorem repairPair_still (s : State) : Still s s.repairPair := by simp [Still, State.repairPair]

@[simp] theorem dieGoesOut_still (s : State) (die : Fin 11) : Still s (s.dieGoesOut die) := by
  simp [Still, State.dieGoesOut]

@[simp] theorem bankGoesOut_still (s : State) (die : Fin 11) (bank : Nat) : Still s (s.bankGoesOut die bank) := by
  simp [Still, State.bankGoesOut]

@[simp] theorem silentDies_still (s : State) : Still s s.silentDies := by simp [Still, State.silentDies]

@[simp] theorem saveProgress_still (s : State) (role cursor : Nat) : Still s (s.saveProgress role cursor) := by
  simp only [Still, State.saveProgress]
  repeat' split
  all_goals simp

@[simp] theorem corrTriggers_still (s : State) : Still s s.corrTriggers := by simp [Still, State.corrTriggers]

@[simp] theorem metaFails_still (s : State) (c : Nat) : Still s (s.metaFails c) := by
  simp only [Still, State.metaFails]
  repeat' split
  all_goals simp

@[simp] theorem readArray_still (s : State) (src c : Nat) : Still s (s.readArray src c) := by
  simp [Still, State.readArray]

/-! ### One range -/

@[simp] theorem updPage_still (s : State) (k : Kit) (kp : KPage) (f : Page → Page) : Still s (s.updPage k kp f) := by
  simp [Still, State.updPage]

@[simp] theorem nearFill_still (s : State) (k : Kit) (a : Nat) (poison : Bool) (d : List Byte) :
    Still s (s.nearFill k a poison d) := by
  simp only [Still, State.nearFill]
  repeat' split
  all_goals simp

@[simp] theorem nearWrite_still (s : State) (k : Kit) (a : Nat) (d : List Byte) : Still s (s.nearWrite k a d) := by
  simp [Still, State.nearWrite]

@[simp] theorem nearDrop_still (s : State) (k : Kit) (a : Nat) : Still s (s.nearDrop k a) := by
  simp [Still, State.nearDrop]

@[simp] theorem nearRelease_still (s : State) (k : Kit) (kp : KPage) : Still s (s.nearRelease k kp) := by
  simp [Still, State.nearRelease]

@[simp] theorem touch_still (s : State) (k : Kit) (a : Nat) : Still s (s.touch k a) := by simp [Still, State.touch]

@[simp] theorem heat_still (s : State) (k : Kit) (a n : Nat) : Still s (s.heat k a n) := by simp [Still, State.heat]

@[simp] theorem notePrior_still (s : State) (o : Kit) (a : Nat) : Still s (s.notePrior o a) := by
  simp [Still, State.notePrior]

/-! ### The stroke ledger (03) -/

@[simp] theorem ledgerGrant_still (s : State) : Still s s.ledgerGrant := by simp [Still, State.ledgerGrant]

theorem kitToken_still (s : State) (k : Kit) {u : State} (h : (s.kitToken k) = some u) : Still s u := by
  simp only [State.kitToken] at h
  repeat' split at h
  all_goals cases h
  all_goals simp [Still]

theorem maintToken_still (s : State) {u : State} (h : s.maintToken = some u) : Still s u := by
  simp only [State.maintToken] at h
  repeat' split at h
  all_goals cases h
  all_goals simp [Still]

@[simp] theorem refillTokens_still (s : State) : Still s s.refillTokens := by simp [Still, State.refillTokens]

@[simp] theorem shareOut_still (s : State) (want : Kit → Nat) (keep : Nat) : Still s (s.shareOut want keep) := by
  simp [Still, State.shareOut]

/-! ### Provisional writes (11) -/

@[simp] theorem queueChord_still (s : State) (kind : WKind) (payer : Option Kit) (a c : Nat) (d : List Byte) :
    Still s (s.queueChord kind payer a c d) := by
  simp [Still, State.queueChord]

@[simp] theorem backAt_still (s : State) (k : Kit) (kp : KPage) (h : Home) : Still s (s.backAt k kp h) := by
  simp [Still, State.backAt]

@[simp] theorem zeroSector_still (s : State) (o : Kit) (a : Nat) : Still s (s.zeroSector o a) := by
  simp [Still, State.zeroSector]

@[simp] theorem capture_still (s : State) (o : Kit) (a : Nat) : Still s (s.capture o a).2 := by
  unfold State.capture
  split
  · exact .refl s
  · split
    · exact .refl s
    · split
      · exact .refl s
      · exact .refl s
      · split
        · next t h => exact (kitToken_still s o h :)
        · exact .refl s

@[simp] theorem captureToken_still (x : WEntry) (s : State) : Still s (s.captureToken x) := by
  unfold State.captureToken
  split
  · split
    · next t h => exact (kitToken_still s _ h :)
    · exact .refl s
  · exact .refl s

@[simp] theorem capturesGoOn_still (s : State) : Still s s.capturesGoOn := by simp [Still, State.capturesGoOn]

@[simp] theorem pushEntry_still (s : State) (e : WEntry) : Still s (s.pushEntry e) := by simp [Still, State.pushEntry]

@[simp] theorem zeroChord_still (o : Kit) (x : Nat) (s : State) : Still s (s.zeroChord o x) := by
  simp only [Still, State.zeroChord]
  repeat' split
  all_goals simp

@[simp] theorem zeroFill_still (s : State) (o : Kit) (a : Nat) (touched : List Nat) :
    Still s (s.zeroFill o a touched) := by
  simp [Still, State.zeroFill]

@[simp] theorem updJob_still (s : State) (rid : Nat) (f : WriteJob → WriteJob) : Still s (s.updJob rid f) := by
  simp [Still, State.updJob]

@[simp] theorem writeReply_still (s : State) (j : WriteJob) : Still s (s.writeReply j) := by
  simp [Still, State.writeReply]

@[simp] theorem returnCredits_still (s : State) (j : WriteJob) : Still s (s.returnCredits j) := by
  simp [Still, State.returnCredits]

@[simp] theorem settleJob_still (rid : Nat) (s : State) : Still s (s.settleJob rid) := by
  simp only [Still, State.settleJob]
  repeat' split
  all_goals simp

@[simp] theorem resolveJobs_still (s : State) (rids : List Nat) (a : Nat) (recant : Bool) :
    Still s (s.resolveJobs rids a recant) := by
  simp [Still, State.resolveJobs]

@[simp] theorem queueMarker_still (s : State) (c : Nat) : Still s (s.queueMarker c) := by
  simp [Still, State.queueMarker]

@[simp] theorem recantKit_still (s : State) (k : Kit) (a c : Nat) (sync : Bool) :
    Still s (s.recantKit k a c sync) := by
  simp [Still, State.recantKit]

@[simp] theorem moveRecord_still (s : State) (m : Move) (p : Page) (ch : PtChange) :
    Still s (s.moveRecord m p ch) := by
  simp [Still, State.moveRecord]

@[simp] theorem commitPt_still (s : State) (k : Kit) (kp : KPage) (ch : PtChange) : Still s (s.commitPt k kp ch) := by
  unfold State.commitPt
  dsimp only
  repeat' split
  all_goals simp [Still]

@[simp] theorem mirrorMove_still (s : State) (o : Kit) (a : Nat) (v : Option (List Byte)) :
    Still s (s.mirrorMove o a v) := by
  simp only [Still, State.mirrorMove]
  repeat' split
  all_goals simp

@[simp] theorem freeEntry_still (s : State) (e : WEntry) : Still s (s.freeEntry e) := by simp [Still, State.freeEntry]

@[simp] theorem stageDone_still (s : State) (rids : List Nat) (c : Nat) (bad : Bool) :
    Still s (s.stageDone rids c bad) := by
  simp [Still, State.stageDone]

@[simp] theorem staged_still (s : State) (k : Kit) (slot : Fin 8) (i : Nat) : Still s (s.staged k slot i) := by
  simp [Still, State.staged]

@[simp] theorem concluded_still (s : State) (e : WEntry) (good weak : Bool) (failing : Slices) :
    Still s (s.concluded e good weak failing) := by
  unfold State.concluded
  dsimp only
  split
  case h_1 => split <;> simp [Still]
  case h_6 =>
    split
    · exact ⟨rfl, rfl, rfl, rfl⟩
    · exact foldl_still (fun t r => bankGoesOut_still ..) _ s
  all_goals simp [Still]

@[simp] theorem wearSlices_still (s : State) (c : Nat) (m : Slices) (n first : Nat) :
    Still s (s.wearSlices c m n first) := by
  simp [Still, State.wearSlices]

@[simp] theorem pulse_still (s : State) (ent : Nat) : Still s (s.pulse ent) := by
  simp only [Still, State.pulse]
  repeat' split
  all_goals simp

@[simp] theorem setMerge_still (s : State) (i : Fin 64) (m : Option MEntry) : Still s (s.setMerge i m) := by
  simp [Still, State.setMerge]

@[simp] theorem pushData_still (s : State) (k : Kit) (rids : List Nat) (a c : Nat) (d : List Byte) :
    Still s (s.pushData k rids a c d) := by
  simp [Still, State.pushData]

@[simp] theorem recantNarrow_still (s : State) (k : Kit) (rids : List Nat) (a c : Nat) :
    Still s (s.recantNarrow k rids a c) := by
  simp [Still, State.recantNarrow]

@[simp] theorem closeMerge_still (i : Fin 64) (s : State) : Still s (s.closeMerge i) := by
  unfold State.closeMerge
  split
  · exact ⟨rfl, rfl, rfl, rfl⟩
  · dsimp only
    split
    · simp [Still]
    · split
      · simp [Still]
      · simp [Still]
      · split
        · simp [Still]
        · next t h => split <;> simp [Still, kitToken_still _ _ h]
      · simp [Still]

@[simp] theorem closeMerges_still (s : State) (p : MEntry → Bool) : Still s (s.closeMerges p) := by
  unfold State.closeMerges
  apply forEach_still
  intro i t
  split
  · split <;> simp [Still]
  · exact .refl t

@[simp] theorem mergesGoOn_still (s : State) : Still s s.mergesGoOn := by simp [Still, State.mergesGoOn]

@[simp] theorem mergeRoom_still (s : State) (k : Kit) : Still s (s.mergeRoom k) := by
  simp only [Still, State.mergeRoom]
  repeat' split
  all_goals simp

@[simp] theorem creditBack_still (s : State) (rid : Nat) (k : Kit) : Still s (s.creditBack rid k) := by
  simp [Still, State.creditBack]

@[simp] theorem acceptedUnit_still (s : State) (rid : Nat) (k : Kit) (u : WUnit) (whole : Bool) :
    Still s (s.acceptedUnit rid k u whole) := by
  simp [Still, State.acceptedUnit]

@[simp] theorem zeroRest_still (s : State) (p : WriteJob → Bool) : Still s (s.zeroRest p) := by
  simp [Still, State.zeroRest]

@[simp] theorem addMove_still (s : State) (m : Move) : Still s (s.addMove m) := by simp [Still, State.addMove]

@[simp] theorem startWriteBack_still (s : State) (k : Kit) (kp : KPage) (release : Bool) :
    Still s (s.startWriteBack k kp release) := by
  simp only [Still, State.startWriteBack]
  repeat' split
  all_goals simp

@[simp] theorem evict_still (s : State) (q : Page) : Still s (s.evict q) := by simp [Still, State.evict]

@[simp] theorem startPromote_still (s : State) (k : Kit) (kp : KPage) (near : Bool) (fetch : Option
    (Engine × Option Nat)) :
    Still s (s.startPromote k kp near fetch) := by
  simp only [Still, State.startPromote]
  repeat' split
  all_goals simp

@[simp] theorem pushDirty_still (s : State) (k : Kit) (a : Nat) : Still s (s.pushDirty k a) := by
  simp only [Still, State.pushDirty]
  repeat' split
  all_goals simp

@[simp] theorem redirty_still (s : State) (k : Kit) (a : Nat) : Still s (s.redirty k a) := by
  simp [Still, State.redirty]

@[simp] theorem closeFor_still (s : State) (j : WriteJob) (u : WUnit) (c : Nat) : Still s (s.closeFor j u c) := by
  simp [Still, State.closeFor]

theorem acceptMerge_still (s : State) (j : WriteJob) (u : WUnit) (c : Nat) {t : State}
    (h : s.acceptMerge j u c = some t) : Still s t := by
  unfold State.acceptMerge at h
  dsimp only at h
  split at h
  · split at h
    · split at h <;> cases h
      simp [Still]
    · cases h
  · split at h
    · cases h
    · split at h
      · cases h
      · split at h <;> cases h
        simp [Still]

/-- A page that is ready, or will be, leaves the stores and the mode. -/
theorem readyPage_still (s : State) (j : WriteJob) (a : Nat) {t : State}
    (h : s.readyPage j a = .wait t ∨ ∃ c, s.readyPage j a = .ready t c) : Still s t := by
  unfold State.readyPage at h
  extract_lets k s1? at h
  generalize hback : s1? = page at h
  cases page with
  | none => simp at h
  | some s1 =>
    dsimp only at h
    have hs1 : Still s s1 := by
      unfold s1? at hback
      split at hback
      · cases hback
        exact .refl s
      · obtain ⟨u, -, rfl⟩ := Option.map_eq_some_iff.mp hback
        exact backAt_still ..
    refine hs1.trans ?_
    split at h
    · simp at h
    · next p hfind =>
      split at h
      · simp only [PageReady.wait.injEq, reduceCtorEq, exists_false, or_false] at h
        subst h
        exact startPromote_still ..
      · have hs2 : Still s1 (if p.deepPage.isSome && p.slot.isNone then s1.startPromote k (kpOf a) false none else s1) := by
          simp [Still]
        generalize (if p.deepPage.isSome && p.slot.isNone then s1.startPromote k (kpOf a) false none else s1) = s2 at h hs2
        refine hs2.trans ?_
        split at h
        · simp at h
        · split at h
          · simp only [PageReady.wait.injEq, reduceCtorEq, exists_false, or_false] at h
            subst h
            exact .refl s2
          · split at h
            · simp only [reduceCtorEq, PageReady.ready.injEq, false_or, exists_and_left, exists_eq', and_true] at h
              subst h
              simp [Still]
            · simp only [PageReady.wait.injEq, reduceCtorEq, exists_false, or_false] at h
              subst h
              simp [Still]

theorem acceptUnit_still (s : State) (j : WriteJob) (u : WUnit) {t : State} (h : s.acceptUnit j u = some t) :
    Still s t := by
  unfold State.acceptUnit at h
  split at h
  · cases h
    exact .refl s
  · cases h
  · next s1 c hready =>
    have hs1 : Still s s1 := (readyPage_still (s.notePrior j.kit u.kaddr) j u.kaddr (.inr ⟨c, hready⟩) :)
    refine hs1.trans ?_
    extract_lets full table extra more dirtied closed s3 base e at h
    split at h
    · have hdirtied : Still s1 (dirtied.redirty j.kit u.kaddr) := by simp [Still, dirtied]
      clear_value dirtied more
      split at h
      · cases h
      · exact hdirtied.trans (acceptMerge_still _ _ _ _ h)
    · split at h
      · cases h
      · split at h
        · cases h
        · have hs3 : Still s1 s3 := by simp [Still, s3, closed]
          clear_value closed
          split at h <;> cases h
          · exact hs3.trans (by simp [Still])
          · exact hs3.trans (by simp [Still])

@[simp] theorem acceptJob_still (rid n : Nat) (s : State) : Still s (s.acceptJob rid n) := by
  induction n generalizing s with
  | zero => exact settleJob_still rid s
  | succ n ih =>
    unfold State.acceptJob
    split
    · exact .refl s
    · split
      · exact settleJob_still rid s
      · next j hfind u us htodo =>
        split
        · next t h => exact (acceptUnit_still _ _ _ h).trans (ih t)
        · split
          · next t h => exact readyPage_still _ _ _ (.inl h)
          · exact closeFor_still ..
          · exact .refl s

@[simp] theorem acceptKit_still (k : Kit) (s : State) : Still s (s.acceptKit k) := by
  refine forEach_still (fun rid t => ?_) ..
  dsimp only
  split
  · split <;> simp [Still]
  · exact ⟨rfl, rfl, rfl, rfl⟩

theorem takeMarker_still (s : State) {u : State} (h : s.takeMarker = some u) : Still s u := by
  simp only [State.takeMarker] at h
  repeat' split at h
  all_goals cases h
  all_goals simp [Still]

@[simp] theorem dropFixes_still (s : State) : Still s s.dropFixes := by simp [Still, State.dropFixes]

theorem takeFix_still (s : State) {u : State} (h : s.takeFix = some u) : Still s u := by
  simp only [State.takeFix] at h
  repeat' split at h
  all_goals cases h
  all_goals simp [Still]

@[simp] theorem takeChord_still (q : WKind × Option Kit × Nat × ChordIx × List Byte) (s : State) :
    Still s (s.takeChord q) := by
  simp [Still, State.takeChord]

@[simp] theorem takeChords_still (s : State) : Still s s.takeChords := by simp [Still, State.takeChords]

theorem fillEntries_still {f : State → Option State} (hf : ∀ s t, f s = some t → Still s t) (n : Nat)
    (s : State) : Still s (fillEntries f n s) := by
  induction n generalizing s with
  | zero => exact ⟨rfl, rfl, rfl, rfl⟩
  | succ n ih =>
    unfold fillEntries
    split
    next t h => exact (hf s t h).trans (ih t)
    · exact ⟨rfl, rfl, rfl, rfl⟩

@[simp] theorem maintFill_still (s : State) : Still s s.maintFill :=
  ((fillEntries_still (fun s _ => takeMarker_still s) 16 s).trans (dropFixes_still _)).trans
    ((fillEntries_still (fun s _ => takeFix_still s) 64 _).trans (takeChords_still _))

/-! ### The CSR space (19 and the register table of every chapter) -/

@[simp] theorem wake_still (s : State) : Still s s.wake := by simp [Still, State.wake]

@[simp] theorem clearEv_still (s : State) (i : EvId) (v : Nat) : Still s (s.clearEv i v) := by
  simp [Still, State.clearEv]

@[simp] theorem writeGen_still (s : State) (off v : Nat) : Still s (s.writeGen off v) := by
  simp only [Still, State.writeGen]
  repeat' split
  all_goals simp

@[simp] theorem writeStkKit_still (s : State) (k : Kit) (r v : Nat) : Still s (s.writeStkKit k r v) := by
  simp only [Still, State.writeStkKit]
  repeat' split
  all_goals simp

@[simp] theorem writeKit_still (s : State) (k : Kit) (r v : Nat) : Still s (s.writeKit k r v) := by
  simp only [Still, State.writeKit]
  repeat' split
  all_goals simp

@[simp] theorem writeTier_still (s : State) (off v : Nat) : Still s (s.writeTier off v) := by
  simp only [Still, State.writeTier]
  repeat' split
  all_goals simp

@[simp] theorem writeTierKit_still (s : State) (k : Kit) (r v : Nat) : Still s (s.writeTierKit k r v) := by
  simp [Still, State.writeTierKit]

@[simp] theorem writeDeep_still (s : State) (off v : Nat) : Still s (s.writeDeep off v) := by
  simp only [Still, State.writeDeep]
  repeat' split
  all_goals simp

@[simp] theorem writeRep_still (s : State) (off v : Nat) : Still s (s.writeRep off v) := by
  simp only [Still, State.writeRep]
  repeat' split
  all_goals simp

@[simp] theorem writeCsr_still (s : State) (off v : Nat) : Still s (s.writeCsr off v) := by
  simp only [Still, State.writeCsr]
  repeat' split
  all_goals simp

@[simp] theorem writeAll_still (s : State) (ps : List (Nat × Nat)) : Still s (s.writeAll ps) := by
  simp [Still, State.writeAll]

@[simp] theorem csrLatch_still (s : State) (off len : Nat) : Still s (s.csrLatch off len) := by
  simp [Still, State.csrLatch]

/-! ### Moves under traffic (09 R244 -/

@[simp] theorem packOne_still (s : State) (k : Kit) : Still s (s.packOne k) := by
  unfold State.packOne
  dsimp only
  repeat' split
  all_goals exact ⟨rfl, rfl, rfl, rfl⟩

@[simp] theorem packFull_still (k : Kit) (n : Nat) (s : State) : Still s (s.packFull k n) := by
  induction n generalizing s with
  | zero => exact ⟨rfl, rfl, rfl, rfl⟩
  | succ n ih => simp [State.packFull, Still, ih]

@[simp] theorem updMove_still (s : State) (m : Move) (f : Move → Move) : Still s (s.updMove m f) := by
  simp [Still, State.updMove]

@[simp] theorem endMove_still (s : State) (m : Move) : Still s (s.endMove m) := by simp [Still, State.endMove]

@[simp] theorem putChord_still (s : State) (m : Move) (i : Nat) (v : Option (List Byte)) :
    Still s (s.putChord m i v) := by
  simp only [Still, State.putChord]
  repeat' split
  all_goals simp

theorem tryFill_still (s : State) (k : Kit) (a : Nat) (poison : Bool) (d : List Byte) {u : State} (h :
    (s.tryFill k a poison d) = some u) :
    Still s u := by
  simp only [State.tryFill] at h
  repeat' split at h
  all_goals cases h
  all_goals simp [Still]

theorem copyChord_still (s : State) (m : Move) (i : Nat) {t : State} (h : s.copyChord m i = some t) :
    Still s t := by
  unfold State.copyChord at h
  dsimp only at h
  split at h
  · cases h
  · split at h
    · split at h
      · cases h
        exact .refl s
      · split at h
        · exact tryFill_still _ _ _ _ _ h
        · exact tryFill_still _ _ _ _ _ h
        · obtain ⟨u, hu, hfill⟩ := Option.bind_eq_some_iff.mp h
          exact ((kitToken_still s _ hu).trans (readArray_still ..)).trans (tryFill_still _ _ _ _ _ hfill)
        · cases h
    · split at h
      · split at h
        · cases h
          exact putChord_still ..
        · cases h
          exact putChord_still ..
        · obtain ⟨u, hu, rfl⟩ := Option.map_eq_some_iff.mp h
          exact ((kitToken_still s _ hu).trans (readArray_still ..)).trans (putChord_still ..)
      · cases h
        exact .refl s

@[simp] theorem copyChords_still (m : Move) (is : List Nat) (s : State) : Still s (s.copyChords m is).1 := by
  induction is generalizing s with
  | nil => exact ⟨rfl, rfl, rfl, rfl⟩
  | cons i is ih =>
    unfold State.copyChords
    split
    next t h => exact (copyChord_still s m i h).trans (ih t)
    · exact ih s

@[simp] theorem tableMove_still (s : State) (m : Move) : Still s (s.tableMove m) := by
  simp only [Still, State.tableMove]
  repeat' split
  all_goals simp

@[simp] theorem beginMove_still (s : State) (m : Move) : Still s (s.beginMove m) := by
  simp only [Still, State.beginMove]
  repeat' split
  all_goals simp

@[simp] theorem redoDemote_still (s : State) (m : Move) : Still s (s.redoDemote m) := by
  simp only [Still, State.redoDemote]
  repeat' split
  all_goals simp

@[simp] theorem moveBeat_still (m : Move) (s : State) : Still s (s.moveBeat m) := by
  unfold State.moveBeat
  split
  · exact .refl s
  · extract_lets begun
    have hbegun : Still s begun := by
      unfold begun
      split
      · split
        · exact redoDemote_still ..
        · exact beginMove_still ..
      · exact .refl s
    clear_value begun
    split
    · exact hbegun
    · extract_lets e r copied new _ packed
      have hpacked : Still s packed := (hbegun.trans (copyChords_still ..) :)
      clear_value packed
      split
      · exact hpacked
      · refine hpacked.trans ?_
        simp [Still]

@[simp] theorem bringPinned_still (s : State) : Still s s.bringPinned := by simp [Still, State.bringPinned]

@[simp] theorem bringNear_still (s : State) (k : Kit) (kp : KPage) (fetch : Option (Engine × Option Nat)) :
    Still s (s.bringNear k kp fetch) := by
  simp only [Still, State.bringNear]
  repeat' split
  all_goals simp

@[simp] theorem migrate_still (k : Kit) (arg : Nat) (kp : KPage) (s : State) : Still s (s.migrate k arg kp) := by
  simp only [Still, State.migrate]
  repeat' split
  all_goals simp

@[simp] theorem waitOver_still (w : WaitJob) (s : State) : Still s (s.waitOver w) := by
  unfold State.waitOver
  repeat' split
  all_goals simp [Still]

@[simp] theorem waitsOver_still (s : State) : Still s s.waitsOver := by simp [Still, State.waitsOver]

@[simp] theorem movesGoOn_still (s : State) : Still s s.movesGoOn := by simp [Still, State.movesGoOn]

/-! ### The Deep tier (10) -/

@[simp] theorem reserveFalls_still (s : State) (n : Nat) : Still s (s.reserveFalls n) := by
  simp [Still, State.reserveFalls]

@[simp] theorem sectorLost_still (s : State) (e : DeepEnt) : Still s (s.sectorLost e) := by
  simp [Still, State.sectorLost]

@[simp] theorem putSector_still (s : State) (m : Move) (x : BitVec 4) (cs : List (Option (List Byte))) :
    Still s (s.putSector m x cs) := by
  simp [Still, State.putSector]

@[simp] theorem sectorIn_still (s : State) (m : Move) (x : BitVec 4) (cs : List (Option (List Byte))) (lost : Bool) :
    Still s (s.sectorIn m x cs lost) := by
  simp [Still, State.sectorIn]

@[simp] theorem sectorRead_still (m : Move) (index : Nat) (r : BitVec 4 × SectorRead) (s : State) :
    Still s (s.sectorRead m index r) := by
  simp only [Still, State.sectorRead]
  repeat' split
  all_goals simp

@[simp] theorem retryRecord_still (s : State) (b steps : Nat) : Still s (s.retryRecord b steps) := by
  simp [Still, State.retryRecord]

@[simp] theorem countPages_still (s : State) (m : Move) (index : Nat) (rs : List (BitVec 4 × SectorRead)) :
    Still s (s.countPages m index rs) := by
  unfold State.countPages
  extract_lets hits pages one ended deep
  have hcounted : Still s { s with deep := pages.foldl one s.deep } :=
    ⟨rfl, foldl_nand (fun d p => countRead_nand ..) _ _, rfl, rfl⟩
  exact hcounted.trans (forEach_still (fun p t => retryRecord_still ..) _ _)

@[simp] theorem promotionRead_still (s : State) (k : Kit) (kp : KPage) (rs : List (BitVec 4 × SectorRead)) :
    Still s (s.promotionRead k kp rs) := by
  unfold State.promotionRead
  split
  · extract_lets s1 dies retried deep
    have hread : Still s s1 := by
      refine (countPages_still s _ _ rs).trans (forEach_still (fun r t => ?_) rs _)
      split
      · exact sectorRead_still ..
      · exact .refl t
    have halive : Still s1 { s1 with deep := dies.foldl Deep.dieAlive s1.deep } :=
      ⟨rfl, foldl_nand (fun d n => dieAlive_nand ..) _ _, rfl, rfl⟩
    exact (hread.trans halive :)
  · exact .refl s

@[simp] theorem deadReads_still (s : State) : Still s s.deadReads := by
  refine forEach_still (fun m t => ?_) s.moves s
  split
  · exact .refl t
  · split
    · exact .refl t
    · refine forEach_still (fun x u => ?_) (sectors m.reads) t
      split
      · split <;> simp [Still]
      · exact .refl u

@[simp] theorem startDeep_still (s : State) (op : DeepOp) : Still s (s.startDeep op) := by
  simp [Still, State.startDeep]

@[simp] theorem programAgain_still (s : State) (op : DeepOp) (b : Nat) : Still s (s.programAgain op b) := by
  simp only [Still, State.programAgain]
  repeat' split
  all_goals simp

@[simp] theorem dieIdle_still (s : State) (die : Fin 4) : Still s (s.dieIdle die) := by simp [Still, State.dieIdle]

@[simp] theorem packExpired_still (s : State) (k : Kit) : Still s (s.packExpired k) := by
  simp [Still, State.packExpired]

@[simp] theorem relocateFrom_still (s : State) (b : Nat) : Still s (s.relocateFrom b) := by
  unfold State.relocateFrom
  dsimp only
  repeat' split
  all_goals exact ⟨rfl, rfl, rfl, rfl⟩

@[simp] theorem holdBacks_still (s : State) : Still s s.holdBacks := by simp [Still, State.holdBacks]

@[simp] theorem clean_still (s : State) : Still s s.clean := by
  simp only [Still, State.clean]
  repeat' split
  all_goals simp

@[simp] theorem drainOver_still (s : State) : Still s s.drainOver := by simp [Still, State.drainOver]

@[simp] theorem suspends_still (s : State) : Still s s.suspends := by simp [Still, State.suspends]

@[simp] theorem wearLevel_still (s : State) : Still s s.wearLevel := by
  unfold State.wearLevel
  dsimp only
  repeat' split
  all_goals exact ⟨rfl, rfl, rfl, rfl⟩

@[simp] theorem scanStep_still (s : State) : Still s s.scanStep := by simp [Still, State.scanStep]

@[simp] theorem lostOnPage_still (s : State) (es : List DeepEnt) : Still s (s.lostOnPage es) := by
  simp only [Still, State.lostOnPage]
  repeat' split
  all_goals simp

@[simp] theorem scanRead_still (s0 : State) (b corrected retries : Nat) (bad : Bool) :
    Still s0 (s0.scanRead b corrected retries bad) := by
  simp [Still, State.scanRead]

@[simp] theorem mute_still (s : State) : Still s s.mute := by simp [Still, State.mute]

@[simp] theorem mapReady_still (s : State) : Still s s.mapReady := by simp [Still, State.mapReady]

/-! ### The checks of a request in the order of Table 6.5 (06 R152) -/

@[simp] theorem strokeApply_still (s : State) (k : Kit) (p : List Byte) : Still s (s.strokeApply k p) := by
  simp [Still, State.strokeApply]

/-! ### A request from its header to its execution -/

@[simp] theorem admitReq_still (s : State) (rq : Req) (kit : Option Kit) (stream : BitVec 3) (beat slot delay : Nat)
    (stage : Stage) (bytes : List Byte) :
    Still s (s.admitReq rq kit stream beat slot delay stage bytes) := by
  simp only [Still, State.admitReq]
  repeat' split
  all_goals simp

@[simp] theorem crcFail_still (s : State) (f : InFlight) (cause : Nat) : Still s (s.crcFail f cause) := by
  simp [Still, State.crcFail]

@[simp] theorem noteQueue_still (s : State) (v : Via) : Still s (s.noteQueue v) := by simp [Still, State.noteQueue]

@[simp] theorem ready_still (s : State) (rid : Nat) (rq : Req) : Still s (s.ready rid rq) := by
  simp [Still, State.ready]

@[simp] theorem admitWhole_still (s : State) (rq : Req) : Still s (s.admitWhole rq) := by
  simp [Still, State.admitWhole]

@[simp] theorem unclaimed_still (s : State) (rq : Req) : Still s (s.unclaimed rq) := by
  simp only [Still, State.unclaimed]
  repeat' split
  all_goals simp

theorem deliver_still (s : State) (f : InFlight) {c : Claim} (h : s.deliver f = some c) : Still s c.st := by
  unfold State.deliver at h
  split at h <;> cases h
  simp [Still]

theorem claim_still {s : State} {rq : Req} {c : Claim} (h : s.claim rq = some c) : Still s c.st := by
  unfold State.claim at h
  dsimp only at h
  split at h
  · split at h <;> cases h
    exact .refl s
  · split at h
    · exact deliver_still s _ h
    · split at h
      · split at h
        · exact (admitWhole_still s rq).trans (deliver_still _ _ h)
        · cases h
      · cases h

theorem serve_still {body : Job → State → State} (hbody : ∀ j s, Still s (body j s)) (rq : Req) (s : State) :
    Still s (s.serve rq body) := by
  unfold State.serve
  split
  · simp [Still]
  · next c h =>
    refine (claim_still h).trans ?_
    split
    · simp [Still]
    · split
      · exact .refl _
      · split
        · simp [Still]
        · exact hbody ..

@[simp] theorem reply_still (j : Job) (s : State) (status detail : Nat) : Still s (Job.reply j s status detail) := by
  simp [Still, Job.reply]

/-! ### The memory commands (07 R171 to R176) and the steps of provisional writes (11) -/

@[simp] theorem lookup_still (s : State) (o : Kit) (kp : KPage) : Still s (s.lookup o kp).2 := by
  simp [Still, State.lookup]

@[simp] theorem accessed_still (s : State) (k o : Kit) (a : Nat) : Still s (s.accessed k o a) := by
  simp [Still, State.accessed]

@[simp] theorem updRead_still (s : State) (rid : Nat) (f : ReadJob → ReadJob) : Still s (s.updRead rid f) := by
  simp [Still, State.updRead]

@[simp] theorem readVal_still (s : State) (j : ReadJob) (o : Kit × Nat) (a : Nat) (v : Option (List Byte)) :
    Still s (s.readVal j o a v) := by
  simp [Still, State.readVal]

@[simp] theorem readFree_still (s : State) (rid : Nat) : Still s (s.readFree rid) := by
  unfold State.readFree
  split
  · exact .refl s
  · refine forEach_still (fun a t => ?_) _ s
    dsimp only
    split <;> simp [Still]

theorem readToken_still (s : State) (rid : Nat) {t : State} (h : s.readToken rid = some t) : Still s t := by
  unfold State.readToken at h
  split at h
  · cases h
  · obtain ⟨a, -, ha⟩ := List.exists_of_findSome?_eq_some h
    dsimp only at ha
    split at ha
    · obtain ⟨u, hu, rfl⟩ := Option.map_eq_some_iff.mp ha
      refine (kitToken_still s _ hu).trans ?_
      simp [Still]
    · cases ha

@[simp] theorem answerEarly_still (s : State) (j : ReadJob) : Still s (s.answerEarly j) := by
  simp [Still, State.answerEarly]

@[simp] theorem finishRead_still (s : State) (rid : Nat) : Still s (s.finishRead rid) := by
  simp only [Still, State.finishRead]
  repeat' split
  all_goals simp

@[simp] theorem readOn_still (rid n : Nat) (s : State) : Still s (s.readOn rid n) := by
  induction n generalizing s with
  | zero => exact finishRead_still s rid
  | succ n ih =>
    unfold State.readOn
    dsimp only
    split
    next t h => exact ((readFree_still s rid).trans (readToken_still _ rid h)).trans (ih t)
    · simp [Still]

@[simp] theorem startRead_still (s : State) (j : Job) : Still s (s.startRead j) := by
  unfold State.startRead
  split
  · exact Job.answer_still ..
  · extract_lets as pages n early x job
    split
    · exact Job.reply_still ..
    · have hlooked : Still s x.2 := by
        have hfold : ∀ (ps : List (Kit × KPage)) (y : Bool × State), Still s y.2 →
            Still s (ps.foldl (fun y p => let z := y.2.lookup p.1 p.2; (y.1 || z.1, z.2)) y).2 := by
          intro ps
          induction ps with
          | nil => exact fun y hy => hy
          | cons p ps ih => exact fun y hy => ih _ (hy.trans (lookup_still ..))
        exact hfold pages (false, s) (.refl s)
      exact Still.trans (t := { x.2 with reads := x.2.reads ++ [job] }) hlooked (readOn_still ..)

theorem readVisit_still (s : State) (k : Kit) {t : State} (h : s.readVisit k = some t) : Still s t := by
  obtain ⟨rid, -, hrid⟩ := List.exists_of_findSome?_eq_some h
  obtain ⟨u, hu, rfl⟩ := Option.map_eq_some_iff.mp hrid
  exact ((readFree_still s rid).trans (readToken_still _ _ hu)).trans (finishRead_still ..)

@[simp] theorem readSome_still (k : Kit) (n : Nat) (s : State) : Still s (s.readSome k n) := by
  induction n generalizing s with
  | zero => exact ⟨rfl, rfl, rfl, rfl⟩
  | succ n ih =>
    unfold State.readSome
    split
    next t h => exact (readVisit_still s k h).trans (ih t)
    · exact ⟨rfl, rfl, rfl, rfl⟩

@[simp] theorem readRound_still (n : Nat) (s : State) : Still s (s.readRound n) := by
  induction n generalizing s with
  | zero => exact ⟨rfl, rfl, rfl, rfl⟩
  | succ n ih => simp [State.readRound, Still, ih]

@[simp] theorem readsGoOn_still (s : State) : Still s s.readsGoOn := by simp [Still, State.readsGoOn]

@[simp] theorem takeCredits_still (s : State) (rid : Nat) : Still s (s.takeCredits rid).2 := by
  simp only [Still, State.takeCredits]
  repeat' split
  all_goals simp

@[simp] theorem startWrite_still (s : State) (j : Job) (us : List WUnit) : Still s (s.startWrite j us) := by
  unfold State.startWrite
  split
  · exact Job.reply_still ..
  · split
    · simp [Still]
    · split
      · simp [Still]
      · extract_lets todo c back pages house s0 s1 job s2
        have hs0 : Still s s0 := (takeCredits_still s j.rid :)
        have hs1 : Still s0 s1 := foldl_still (fun t p => lookup_still ..) pages s0
        have hs2 : Still s s2 := (hs0.trans hs1 :)
        split
        · exact hs2.trans (acceptJob_still ..)
        · exact hs2.trans (acceptKit_still ..)

@[simp] theorem fenceDone_still (s : State) (f : FenceJob) : Still s (s.fenceDone f) := by
  simp [Still, State.fenceDone]

@[simp] theorem fencesOver_still (s : State) (k : Kit) : Still s (s.fencesOver k) := by
  refine forEach_still (fun f t => ?_) _ s
  split
  · split
    · exact fenceDone_still ..
    · exact .refl t
  · exact .refl t

@[simp] theorem startFence_still (s : State) (j : Job) : Still s (s.startFence j) := by simp [Still, State.startFence]

@[simp] theorem captureEntry_still (s : State) (ent : Nat) : Still s (s.captureEntry ent) := by
  simp only [Still, State.captureEntry]
  repeat' split
  all_goals simp

@[simp] theorem rmwAccept_still (s0 : State) (e : WEntry) (k : Kit) (d : List Byte) :
    Still s0 (s0.rmwAccept e k d) := by
  simp [Still, State.rmwAccept]

@[simp] theorem rmwPoison_still (s : State) (e : WEntry) (k : Kit) : Still s (s.rmwPoison e k) := by
  simp [Still, State.rmwPoison]

@[simp] theorem mergeEntry_still (s : State) (ent : Nat) : Still s (s.mergeEntry ent) := by
  unfold State.mergeEntry
  split
  · exact .refl s
  · split
    · exact .refl s
    · split
      · exact .refl s
      · split
        · exact rmwAccept_still ..
        · exact rmwPoison_still ..
        · split
          · exact .refl s
          · next t h =>
            split
            · exact ((kitToken_still s _ h).trans (readArray_still ..)).trans (rmwAccept_still ..)
            · exact ((kitToken_still s _ h).trans (readArray_still ..)).trans (rmwPoison_still ..)
        · exact .refl s

@[simp] theorem mergeLate_still (s : State) (i : Fin 64) : Still s (s.mergeLate i) := by
  simp only [Still, State.mergeLate]
  repeat' split
  all_goals simp

/-! ### The page-range commands (07 R177 to R180 -/

theorem backPage_still (s : State) (k : Kit) (kp : KPage) {t : State} (h : s.backPage k kp = some t) : Still s t := by
  unfold State.backPage at h
  split at h
  · cases h
    exact .refl s
  · obtain ⟨u, -, rfl⟩ := Option.map_eq_some_iff.mp h
    exact backAt_still ..

theorem eachPage_still {f : KPage → State → Option State} (hf : ∀ kp s t, f kp s = some t → Still s t)
    (kps : List KPage) (n : Nat) (s : State) : Still s (s.eachPage f kps n).2.2 := by
  induction kps generalizing n s with
  | nil => exact ⟨rfl, rfl, rfl, rfl⟩
  | cons kp kps ih =>
    unfold State.eachPage
    split
    next t h => exact (hf kp s t h).trans (ih (n + 1) t)
    · exact ⟨rfl, rfl, rfl, rfl⟩

theorem placeOne_still (k : Kit) (arg : Nat) (kp : KPage) (s : State) {t : State} (h : State.placeOne k arg kp s = some t) :
    Still s t := by
  unfold State.placeOne at h
  extract_lets kind other home at h
  clear_value kind other home
  split at h
  · obtain ⟨u, -, rfl⟩ := Option.map_eq_some_iff.mp h
    exact backAt_still ..
  · extract_lets there at h
    split at h
    · cases h
      exact .refl s
    · obtain ⟨u, -, rfl⟩ := Option.map_eq_some_iff.mp h
      exact addMove_still ..

theorem pinOne_still (k : Kit) (arg : Nat) (kp : KPage) (s : State) {t : State} (h : State.pinOne k arg kp s = some t) :
    Still s t := by
  obtain ⟨u, hu, hpin⟩ := Option.bind_eq_some_iff.mp h
  refine (backPage_still s k kp hu).trans ?_
  split at hpin
  · cases hpin
  · dsimp only at hpin
    split at hpin
    · split at hpin
      · cases hpin
        exact .refl _
      · split at hpin <;> cases hpin
        simp [Still]
    · split at hpin
      · cases hpin
        exact .refl _
      · split at hpin <;> cases hpin
        simp [Still]

@[simp] theorem unpinOne_still (k : Kit) (arg : Nat) (kp : KPage) (s : State) : Still s (s.unpinOne k arg kp) := by
  simp [Still, State.unpinOne]

@[simp] theorem waitFor_still (s : State) (j : Job) (pages : List KPage) (status detail : Nat) :
    Still s (s.waitFor j pages status detail) := by
  simp [Still, State.waitFor]

theorem rangeRequest_still {f : KPage → State → Option State} (hf : ∀ kp s t, f kp s = some t → Still s t) (s : State)
    (j : Job) : Still s (s.rangeRequest j f) :=
  (eachPage_still hf ..).trans (waitFor_still ..)

@[simp] theorem setMuffle_still (s : State) (m : Muffle) : Still s (s.setMuffle m) := by simp [Still, State.setMuffle]

@[simp] theorem storeMuffle_still (s : State) (j : MufJob) (kp : KPage) (chords : List (Option (List Byte))) :
    Still s (s.storeMuffle j kp chords) := by
  simp [Still, State.storeMuffle]

@[simp] theorem readPageFor_still (s : State) (k : Kit) (kp : KPage) (n : Nat) (got : List (Option (List Byte))) :
    Still s (s.readPageFor k kp n got).2 := by
  induction n generalizing got s with
  | zero => exact ⟨rfl, rfl, rfl, rfl⟩
  | succ n ih =>
    unfold State.readPageFor
    dsimp only
    split
    · exact ih _ _
    · split
      · exact ih _ _
      · exact ih _ _
      · split
        · next t h => simp [Still, ih, kitToken_still _ _ h]
        · exact ⟨rfl, rfl, rfl, rfl⟩
      · exact startPromote_still ..
      · exact ⟨rfl, rfl, rfl, rfl⟩

@[simp] theorem updMuf_still (s : State) (j : MufJob) : Still s (s.updMuf j) := by simp [Still, State.updMuf]

@[simp] theorem muffleOver_still (s : State) (j : MufJob) : Still s (s.muffleOver j) := by
  simp [Still, State.muffleOver]

@[simp] theorem muffleStep_still (rid n : Nat) (s : State) : Still s (s.muffleStep rid n) := by
  induction n generalizing s with
  | zero => exact ⟨rfl, rfl, rfl, rfl⟩
  | succ n ih =>
    unfold State.muffleStep
    repeat' split
    all_goals simp [Still, ih]

@[simp] theorem mufflesGoOn_still (s : State) : Still s s.mufflesGoOn := by simp [Still, State.mufflesGoOn]

@[simp] theorem declare_still (s : State) (j : Job) : Still s (s.declare j) := by
  unfold State.declare
  repeat' split
  all_goals simp [Still]

/-! ### Rudiments (12 -/

@[simp] theorem stageRead_still (s : State) (k : Kit) (slot : Fin 8) (i : Nat) :
    Still s (s.stageRead k slot i).2 := by
  simp only [Still, State.stageRead]
  repeat' split
  all_goals simp

@[simp] theorem stageReads_still (k : Kit) (slot : Fin 8) (n : Nat) (s : State) :
    Still s (s.stageReads k slot n).2 := by
  induction n with
  | zero => exact ⟨rfl, rfl, rfl, rfl⟩
  | succ n ih => exact ih.trans (stageRead_still ..)

@[simp] theorem rudStage_still (s : State) (j : Job) : Still s (s.rudStage j) := by simp [Still, State.rudStage]

@[simp] theorem stagesOver_still (s : State) : Still s s.stagesOver := by simp [Still, State.stagesOver]

@[simp] theorem rudStore_still (s : State) (j : Job) (slot : Fin 8) (words : List Word) :
    Still s (s.rudStore j slot words) := by
  simp only [Still, State.rudStore]
  repeat' split
  all_goals simp

@[simp] theorem rudLoad_still (s : State) (j : Job) : Still s (s.rudLoad j) := by
  simp only [Still, State.rudLoad]
  repeat' split
  all_goals simp

@[simp] theorem rudStart_still (s : State) (j : Job) : Still s (s.rudStart j) := by
  simp only [Still, State.rudStart]
  repeat' split
  all_goals simp

@[simp] theorem rudStop_still (s : State) (j : Job) : Still s (s.rudStop j) := by simp [Still, State.rudStop]

@[simp] theorem stopDue_still (s : State) : Still s s.stopDue := by simp [Still, State.stopDue]

@[simp] theorem rudQuery_still (s : State) (j : Job) : Still s (s.rudQuery j) := by simp [Still, State.rudQuery]

@[simp] theorem halt_still (s : State) (e : Engine) (g : EngSt) (fault : Nat) : Still s (s.halt e g fault) := by
  simp [Still, State.halt]

@[simp] theorem standsAt_still (s : State) (e : Engine) (g : EngSt) : Still s (s.standsAt e g) := by
  simp only [Still, State.standsAt]
  repeat' split
  all_goals simp

@[simp] theorem retire_still (s : State) (e : Engine) (g : EngSt) : Still s (s.retire e g) := by
  simp [Still, State.retire]

@[simp] theorem waitDone_still (s : State) (e : Engine) : Still s (s.waitDone e) := by simp [Still, State.waitDone]

@[simp] theorem issueBy_still {f : EngSt → State → State} (hf : ∀ g s, Still s (f g s)) (s : State) (e : Engine) (wait : Bool) :
    Still s (s.issueBy e wait f) := by
  refine (waitDone_still s e).trans ?_
  unfold State.issueBy
  dsimp only
  split
  · exact .refl _
  · split
    · simp [Still]
    · exact (calRan_still _ 9).trans (hf ..)

@[simp] theorem plain_still (s : State) (e : Engine) (f : EngSt → EngSt) : Still s (s.plain e f) := by
  simp [Still, State.plain]

@[simp] theorem iHalt_still (s : State) (e : Engine) : Still s (s.iHalt e) := by simp [Still, State.iHalt]

@[simp] theorem iNop_still (s : State) (e : Engine) : Still s (s.iNop e) := by simp [Still, State.iNop]

@[simp] theorem iSeti_still (s : State) (e : Engine) (rd : GReg) (hi : Bool) (imm : BitVec 16) :
    Still s (s.iSeti e rd hi imm) := by
  simp [Still, State.iSeti]

@[simp] theorem iAddi_still (s : State) (e : Engine) (rd rs : GReg) (imm : BitVec 16) :
    Still s (s.iAddi e rd rs imm) := by
  simp [Still, State.iAddi]

@[simp] theorem iMov_still (s : State) (e : Engine) (rd rs : GReg) : Still s (s.iMov e rd rs) := by
  simp [Still, State.iMov]

@[simp] theorem iLoop_still (s : State) (e : Engine) (count : RegOrImm 12) (len : BitVec 10) :
    Still s (s.iLoop e count len) := by
  simp [Still, State.iLoop]

@[simp] theorem iBr_still (s : State) (e : Engine) (cond : BrCond) (rs : GReg) (target : BitVec 12) :
    Still s (s.iBr e cond rs target) := by
  simp [Still, State.iBr]

@[simp] theorem iBrs_still (s : State) (e : Engine) (neg cls : Bool) (status : BitVec 8) (target : BitVec 12) :
    Still s (s.iBrs e neg cls status target) := by
  simp [Still, State.iBrs]

@[simp] theorem iCall_still (s : State) (e : Engine) (target : BitVec 12) : Still s (s.iCall e target) := by
  simp [Still, State.iCall]

@[simp] theorem iRet_still (s : State) (e : Engine) : Still s (s.iRet e) := by
  unfold State.iRet
  apply issueBy_still
  intro g t
  split <;> simp [Still]

@[simp] theorem waitTo_still (s : State) (e : Engine) (target : EngSt → Nat → Nat) : Still s (s.waitTo e target) := by
  simp [Still, State.waitTo]

@[simp] theorem iWaitb_still (s : State) (e : Engine) (n : RegOrImm 20) : Still s (s.iWaitb e n) := by
  simp [Still, State.iWaitb]

@[simp] theorem iWaitu_still (s : State) (e : Engine) (mod : Bool) (u : BitVec 10) : Still s (s.iWaitu e mod u) := by
  simp [Still, State.iWaitu]

@[simp] theorem iWaitbar_still (s : State) (e : Engine) (n : BitVec 16) : Still s (s.iWaitbar e n) := by
  simp [Still, State.iWaitbar]

@[simp] theorem iDeadline_still (s : State) (e : Engine) (m : DlMode) : Still s (s.iDeadline e m) := by
  simp [Still, State.iDeadline]

@[simp] theorem iPolicy_still (s : State) (e : Engine) (full : Bool) (pol : Policy) :
    Still s (s.iPolicy e full pol) := by
  simp [Still, State.iPolicy]

@[simp] theorem setLs_still (s : State) (e : Engine) (g : EngSt) (ls : Nat) : Still s (s.setLs e g ls) := by
  simp [Still, State.setLs]

@[simp] theorem fetchGo_still (s : State) (k : Kit) (near : Bool) (tag : Engine × Option Nat) (kp : KPage) :
    Still s (s.fetchGo k near tag kp) := by
  simp only [Still, State.fetchGo]
  repeat' split
  all_goals simp

theorem fetchOne_still (k : Kit) (near : Bool) (tag : Engine × Option Nat) (kp : KPage) (s : State) {t : State}
    (h : State.fetchOne k near tag kp s = some t) : Still s t := by
  obtain ⟨u, hu, rfl⟩ := Option.map_eq_some_iff.mp h
  exact (backPage_still s k kp hu).trans (fetchGo_still ..)

@[simp] theorem iFetch_still (s : State) (e : Engine) (ra : GReg) (tgt : Tgt) (count1 : BitVec 4) (dl : Bool) :
    Still s (s.iFetch e ra tgt count1 dl) := by
  unfold State.iFetch
  apply issueBy_still
  intro g t
  dsimp only
  split
  · exact .refl t
  · split
    · exact setLs_still ..
    · split
      · exact setLs_still ..
      · exact (eachPage_still (fun kp s u => fetchOne_still _ _ _ kp s) ..).trans (setLs_still ..)

@[simp] theorem iPin_still (s : State) (e : Engine) (ra : GReg) (tgt : Tgt) (count1 : BitVec 4) :
    Still s (s.iPin e ra tgt count1) := by
  unfold State.iPin
  apply issueBy_still
  intro g t
  dsimp only
  split
  · exact setLs_still ..
  · exact (eachPage_still (fun kp s u => pinOne_still _ _ kp s) ..).trans (setLs_still ..)

@[simp] theorem iUnpin_still (s : State) (e : Engine) (ra : GReg) (tgt : Tgt3) (count1 : BitVec 4) :
    Still s (s.iUnpin e ra tgt count1) := by
  unfold State.iUnpin
  apply issueBy_still
  intro g t
  dsimp only
  split <;> simp [Still]

@[simp] theorem hintOne_still (k : Kit) (arg : Nat) (kp : KPage) (s : State) : Still s (s.hintOne k arg kp) := by
  simp [Still, State.hintOne]

@[simp] theorem iHint_still (s : State) (e : Engine) (ra : GReg) (tgt : Tgt3) (count1 : BitVec 4) :
    Still s (s.iHint e ra tgt count1) := by
  unfold State.iHint
  apply issueBy_still
  intro g t
  dsimp only
  split <;> simp [Still]

@[simp] theorem iSignal_still (s : State) (e : Engine) (node : Node) (ring : Ring) (rs : GReg) (code : BitVec 8) :
    Still s (s.iSignal e node ring rs code) := by
  simp [Still, State.iSignal]

@[simp] theorem fetchComplete_still (s : State) (e : Engine) (kp : KPage) : Still s (s.fetchComplete e kp) := by
  simp [Still, State.fetchComplete]

@[simp] theorem fetchesGoOn_still (s : State) : Still s s.fetchesGoOn := by
  unfold State.fetchesGoOn
  iterate 3
    apply forEach_still
    intro _ _
  simp [Still]

@[simp] theorem tellLate_still (s : State) (e : Engine) (st : StreamSt) (late : List Nat) :
    Still s (s.tellLate e st late) := by
  simp [Still, State.tellLate]

@[simp] theorem judge_still (s : State) (e : Engine) (st : StreamSt) : Still s (s.judge e st).1 := by
  simp [Still, State.judge]

@[simp] theorem tryStream_still (s : State) (e : Engine) (st : StreamSt) : Still s (s.tryStream e st) := by
  simp [Still, State.tryStream]

@[simp] theorem streamFetches_still (s : State) (e : Engine) (st : StreamSt) : Still s (s.streamFetches e st) := by
  simp [Still, State.streamFetches]

@[simp] theorem iStream_still (s : State) (e : Engine) (ra rb : GReg) (node : Node) (ring : Ring) (count1 : BitVec 4)
    (dl : Bool) : Still s (s.iStream e ra rb node ring count1 dl) := by
  unfold State.iStream
  apply issueBy_still
  intro g t
  dsimp only
  split
  · simp [Still]
  · split
    · simp [Still]
    · split <;> simp [Still]

@[simp] theorem streamDeadline_still (s : State) (e : Engine) : Still s (s.streamDeadline e) := by
  simp only [Still, State.streamDeadline]
  repeat' split
  all_goals simp

@[simp] theorem fullPageReady_still (s : State) (e : Engine) (pos : Nat) : Still s (s.fullPageReady e pos) := by
  simp only [Still, State.fullPageReady]
  repeat' split
  all_goals simp

@[simp] theorem readPush_still (k : Kit) (n : Nat) (p : PushPkt) (s : State) : Still s (s.readPush k n p).2 := by
  induction n generalizing p s with
  | zero => exact ⟨rfl, rfl, rfl, rfl⟩
  | succ n ih =>
    unfold State.readPush
    split
    · exact ⟨rfl, rfl, rfl, rfl⟩
    · split
      · dsimp only
        split
        · next t h => simp [Still, ih, kitToken_still _ _ h]
        · exact ⟨rfl, rfl, rfl, rfl⟩
      · dsimp only
        split
        · exact ih _ _
        · split
          · exact ih _ _
          · exact ih _ _
          · split
            · next t h => simp [Still, ih, kitToken_still _ _ h]
            · exact ⟨rfl, rfl, rfl, rfl⟩
          · exact startPromote_still ..
          · exact ⟨rfl, rfl, rfl, rfl⟩

@[simp] theorem readFifo_still (k : Kit) (ps : List PushPkt) (s : State) : Still s (s.readFifo k ps).2 := by
  induction ps generalizing s with
  | nil => exact ⟨rfl, rfl, rfl, rfl⟩
  | cons p ps ih => exact (readPush_still ..).trans (ih _)

@[simp] theorem pushesGoOn_still (s : State) : Still s s.pushesGoOn := by simp [Still, State.pushesGoOn]

@[simp] theorem countStalls_still (s : State) : Still s s.countStalls := by simp [Still, State.countStalls]

@[simp] theorem issue_still (s : State) (e : Engine) (i : RudInstr) : Still s (s.issue e i) := by
  cases i <;> simp [Still, State.issue]

@[simp] theorem issueAt_still (e : Engine) (s0 : State) : Still s0 (s0.issueAt e) := by
  simp only [Still, State.issueAt]
  repeat' split
  all_goals simp

@[simp] theorem issueAll_still (s : State) : Still s s.issueAll := by simp [Still, State.issueAll]

/-! ### The lanes of a ring interface -/

@[simp] theorem startRemap_still (s : State) (r : Ring) (lane : BitVec 4) (tried : BitVec 2) :
    Still s (s.startRemap r lane tried) := by
  simp only [Still, State.startRemap]
  repeat' split
  all_goals simp

@[simp] theorem askMirrors_still (s : State) (r : Ring) : Still s (s.askMirrors r) := by
  simp [Still, State.askMirrors]

@[simp] theorem laneBad_still (s : State) (r : Ring) (lane : BitVec 4) : Still s (s.laneBad r lane) := by
  simp [Still, State.laneBad]

@[simp] theorem lanesBad_still (s : State) (r : Ring) (m : BitVec 16) : Still s (s.lanesBad r m) := by
  simp [Still, State.lanesBad]

@[simp] theorem laneCount_still (s : State) (r : Ring) (lane : BitVec 4) (n : Nat) :
    Still s (s.laneCount r lane n) := by
  simp [Still, State.laneCount]

@[simp] theorem attributeOne_still (s : State) (r : Ring) (meant got : Flit) :
    Still s (s.attributeOne r meant got) := by
  simp [Still, State.attributeOne]

@[simp] theorem attribute_still (s : State) (r : Ring) (failed : List BadCopy) (good : Flit) :
    Still s (s.attribute r failed good) := by
  simp [Still, State.attribute]

/-! ### The Out side of a ring interface (05 R112 -/

@[simp] theorem passSlot_still (s : State) (r : Ring) (slot : Nat) (into : Flit) :
    Still s (s.passSlot r slot into) := by
  simp [Still, State.passSlot]

@[simp] theorem announceRate_still (s : State) : Still s s.announceRate := by
  simp only [Still, State.announceRate]
  repeat' split
  all_goals simp

@[simp] theorem masterTrains_still (s : State) : Still s s.masterTrains := by
  simp only [Still, State.masterTrains]
  repeat' split
  all_goals simp

@[simp] theorem masterBeats_still (s : State) : Still s s.masterBeats := by simp [Still, State.masterBeats]

/-! ### Flits that arrive (05 R114 to R122) -/

@[simp] theorem frameError_still (s : State) : Still s s.frameError := by simp [Still, State.frameError]

@[simp] theorem cutStream_still (s : State) (r : Ring) (src : Node) (stream : BitVec 3) :
    Still s (s.cutStream r src stream) := by
  simp only [Still, State.cutStream]
  repeat' split
  all_goals simp

@[simp] theorem admitHeader_still (s : State) (r : Ring) (slot beat : Nat) (f : Flit) :
    Still s (s.admitHeader r slot beat f) := by
  simp only [Still, State.admitHeader]
  repeat' split
  all_goals simp

@[simp] theorem admitNext_still (s : State) (r : Ring) : Still s (s.admitNext r) := by
  simp only [Still, State.admitNext]
  repeat' split
  all_goals simp

@[simp] theorem admitFor_still (s : State) (r : Ring) (f : Flit) : Still s (s.admitFor r f) := by
  simp [Still, State.admitFor]

@[simp] theorem judgeLater_still (s0 : State) (r : Ring) (f : Flit) (place : Nat → Option Nat) :
    Still s0 (s0.judgeLater r f place).2 := by
  simp only [Still, State.judgeLater]
  repeat' split
  all_goals simp

@[simp] theorem judgeFirst_still (s0 : State) (r : Ring) (slot : Nat) (f : Flit) :
    Still s0 (s0.judgeFirst r slot f).2 := by
  simp only [Still, State.judgeFirst]
  repeat' split
  all_goals simp

@[simp] theorem judgeFlit_still (s : State) (r : Ring) (slot : Nat) (f : Flit) (place : Nat → Option Nat) :
    Still s (s.judgeFlit r slot f place).2 := by
  simp only [Still, State.judgeFlit]
  repeat' split
  all_goals simp

@[simp] theorem settleHeld_still (s : State) (r : Ring) : Still s (s.settleHeld r) := by
  unfold State.settleHeld
  extract_lets x pre one q
  have hone : ∀ (e : HeldEnt) (p : List HeldEnt × State), Still p.2 (one e p).2 := by
    intro e p
    unfold one
    split
    · next f =>
      have hjudge := judgeLater_still p.2 r f fun _ => none
      split <;> next h => rwa [h] at hjudge
    · exact .refl p.2
  have hq : Still s q.2 :=
    forEach_forall (R := fun (a b : List HeldEnt × State) => Still a.2 b.2) (fun p => .refl p.2)
      (fun _ _ _ => Still.trans) hone pre ([], s)
  exact hq.trans (by simp [Still])

@[simp] theorem dropGap_still (s : State) (r : Ring) (i : Nat) : Still s (s.dropGap r i) := by
  simp [Still, State.dropGap]

@[simp] theorem copyFails_still (s : State) (r : Ring) (i slot : Nat) (got : Option Flit) :
    Still s (s.copyFails r i slot got) := by
  simp only [Still, State.copyFails]
  repeat' split
  all_goals simp

@[simp] theorem copyGood_still (s : State) (r : Ring) (i slot : Nat) (f : Flit) :
    Still s (s.copyGood r i slot f) := by
  simp only [Still, State.copyGood]
  repeat' split
  all_goals simp

@[simp] theorem badFlit_still (s : State) (r : Ring) (slot : Nat) (f : Flit) : Still s (s.badFlit r slot f) := by
  simp only [Still, State.badFlit]
  repeat' split
  all_goals simp

@[simp] theorem goodFlit_still (s : State) (r : Ring) (slot : Nat) (f : Flit) : Still s (s.goodFlit r slot f) := by
  simp only [Still, State.goodFlit]
  repeat' split
  all_goals simp

@[simp] theorem copyMissed_still (s : State) (r : Ring) (slot : Nat) : Still s (s.copyMissed r slot) := by
  simp only [Still, State.copyMissed]
  repeat' split
  all_goals simp

@[simp] theorem flitIn_still (s0 : State) (r : Ring) (slot : Nat) (f : Flit) : Still s0 (s0.flitIn r slot f) := by
  simp only [Still, State.flitIn]
  repeat' split
  all_goals simp

@[simp] theorem blinkSensed_still (s : State) (r : Ring) (slot : Nat) : Still s (s.blinkSensed r slot) := by
  simp only [Still, State.blinkSensed]
  repeat' split
  all_goals simp

@[simp] theorem packetDone_still (s : State) (r : Ring) (src : Node) (stream : BitVec 3) :
    Still s (s.packetDone r src stream) := by
  simp only [Still, State.packetDone]
  repeat' split
  all_goals simp

@[simp] theorem streamLate_still (s : State) (r : Ring) (src : Node) (stream : BitVec 3) :
    Still s (s.streamLate r src stream) := by
  simp only [Still, State.streamLate]
  repeat' split
  all_goals simp

/-! ### What the device sends (05 R123) -/

@[simp] theorem replyGone_still (s : State) (r : Ring) (p : Reply) : Still s (s.replyGone r p) := by
  simp [Still, State.replyGone]

@[simp] theorem sendReply_still (s : State) (r : Ring) (slot : Nat) (p : Reply) (strm : BitVec 3) :
    Still s (s.sendReply r slot p strm) := by
  simp [Still, State.sendReply]

@[simp] theorem release_still (s : State) (r : Ring) (slot : Nat) (strict : Bool) :
    Still s (s.release r slot strict) := by
  simp only [Still, State.release]
  repeat' split
  all_goals simp

@[simp] theorem releaseReply_still (s : State) (r : Ring) (slot : Nat) : Still s (s.releaseReply r slot) := by
  simp [Still, State.releaseReply]

@[simp] theorem releaseStrict_still (s : State) (r : Ring) (slot : Nat) : Still s (s.releaseStrict r slot) := by
  simp [Still, State.releaseStrict]

@[simp] theorem sendTrailer_still (s : State) (r : Ring) : Still s (s.sendTrailer r) := by
  simp only [Still, State.sendTrailer]
  repeat' split
  all_goals simp

@[simp] theorem takeSeq_still (s : State) (r : Ring) (n : Node) : Still s (s.takeSeq r n).2 := by
  simp only [Still, State.takeSeq]
  repeat' split
  all_goals simp

@[simp] theorem begin_still (s : State) (p : DevPkt) : Still s (s.begin_ p).2 := by
  simp only [Still, State.begin_]
  repeat' split
  all_goals simp

@[simp] theorem emit_still (s : State) (slot : Nat) (p : DevPkt) (rest : List DevPkt) (strm : BitVec 3) :
    Still s (s.emit slot p rest strm) := by
  simp only [Still, State.emit]
  repeat' split
  all_goals simp

@[simp] theorem takePush_still (s : State) (r : Ring) (e : Engine) (p : PushPkt) : Still s (s.takePush r e p).2 := by
  simp [Still, State.takePush]

@[simp] theorem injectReq_still (s : State) (r : Ring) (slot : Nat) : Still s (s.injectReq r slot) := by
  simp only [Still, State.injectReq]
  repeat' split
  all_goals simp

@[simp] theorem pushDropped_still (s : State) (p : DevPkt) : Still s (s.pushDropped p) := by
  simp [Still, State.pushDropped]

@[simp] theorem devRefused_still (s : State) (r : Ring) (dest : Node) (seq : Nat) :
    Still s (s.devRefused r dest seq) := by
  simp only [Still, State.devRefused]
  repeat' split
  all_goals simp

@[simp] theorem abandon_still (s0 : State) (rid : Nat) : Still s0 (s0.abandon rid) := by simp [Still, State.abandon]

@[simp] theorem requestLate_still (s : State) (rid : Nat) : Still s (s.requestLate rid) := by
  simp only [Still, State.requestLate]
  repeat' split
  all_goals simp

@[simp] theorem wedged_still (s : State) (rid : Nat) : Still s (s.wedged rid) := by
  simp only [Still, State.wedged]
  repeat' split
  all_goals simp

/-! ### The Belfry store (15 -/

@[simp] theorem chargeKit_still (s : State) (k : Kit) (n : Nat) : Still s (s.chargeKit k n) := by
  simp [Still, State.chargeKit]

@[simp] theorem chargeMaint_still (s : State) (n : Nat) : Still s (s.chargeMaint n) := by
  simp [Still, State.chargeMaint]

@[simp] theorem belAnswer_still (s : State) (rid : Nat) (rq : Req) (k : Kit) (a : Answer) :
    Still s (s.belAnswer rid rq k a) := by
  simp only [Still, State.belAnswer]
  repeat' split
  all_goals simp

@[simp] theorem belRead_still (s : State) (rid : Nat) (rq : Req) : Still s (s.belRead rid rq) := by
  simp [Still, State.belRead]

@[simp] theorem belSeal_still (s : State) (rid : Nat) (rq : Req) : Still s (s.belSeal rid rq) := by
  simp [Still, State.belSeal]

@[simp] theorem belWriteEnds_still (s : State) (j : BelJob) : Still s (s.belWriteEnds j) := by
  simp [Still, State.belWriteEnds]

@[simp] theorem recordGone_still (s : State) (rid num where_ : Nat) : Still s (s.recordGone rid num where_) := by
  simp only [Still, State.recordGone]
  repeat' split
  all_goals simp

@[simp] theorem belWriteFails_still (s : State) (rid a : Nat) : Still s (s.belWriteFails rid a) := by
  simp [Still, State.belWriteFails]

@[simp] theorem keyLost_still (s : State) (k : Kit) : Still s (s.keyLost k) := by simp [Still, State.keyLost]

@[simp] theorem absentRec_still (s : State) (r : RecId) : Still s (s.absentRec r) := by
  unfold State.absentRec
  repeat' split
  all_goals simp [Still]

@[simp] theorem recBad_still (s : State) (r : RecId) : Still s (s.recBad r) := by simp [Still, State.recBad]

@[simp] theorem fixCopy_still (s : State) (cal : Bool) (r : RecId) (second : Bool) :
    Still s (s.fixCopy cal r second) := by
  simp [Still, State.fixCopy]

@[simp] theorem readRec_still (s : State) (cal : Bool) (r : RecId) : Still s (s.readRec cal r) := by
  simp [Still, State.readRec]

@[simp] theorem logFails_still (s : State) (page : Nat) : Still s (s.logFails page) := by simp [Still, State.logFails]

@[simp] theorem refreshEnds_still (s : State) (page : Nat) (still : BitVec 8) :
    Still s (s.refreshEnds page still) := by
  simp [Still, State.refreshEnds]

@[simp] theorem keyCopy_still (s : State) (r : RecId) (second : Bool) : Still s (s.keyCopy r second) := by
  simp only [Still, State.keyCopy]
  repeat' split
  all_goals simp

@[simp] theorem updateLost_still (s : State) (r : RecId) : Still s (s.updateLost r) := by
  simp only [Still, State.updateLost]
  repeat' split
  all_goals simp

@[simp] theorem belEnds_still (s : State) (e : BelEnd) : Still s (s.belEnds e) := by
  unfold State.belEnds
  repeat' split
  all_goals simp [Still]

@[simp] theorem takeRecs_still (s : State) (n : Nat) : Still s (s.takeRecs n) := by simp [Still, State.takeRecs]

@[simp] theorem lostTold_still (s : State) : Still s s.lostTold := by simp [Still, State.lostTold]

theorem shadowBase_still (s : State) (ch : Nat) {d : Option (List Byte)} {t : State} (h : s.shadowBase ch = some (d, t)) :
    Still s t := by
  have hread {x : Option (Option (List Byte) × State)} (hx : x = s.maintToken.map fun u =>
      ((u.decodeAt (Config.shadowBase + ch)).value, u.readArray 3 (Config.shadowBase + ch))) (hd : x = some (d, t)) :
      Still s t := by
    obtain ⟨u, hu, hpair⟩ := Option.map_eq_some_iff.mp (hx.symm.trans hd)
    cases hpair
    exact (maintToken_still s hu).trans (readArray_still ..)
  unfold State.shadowBase at h
  split at h
  · split at h
    · cases h
      exact .refl s
    · exact hread rfl h
  · exact hread rfl h

@[simp] theorem shadowWrite_still (s : State) : Still s s.shadowWrite := by
  unfold State.shadowWrite
  extract_lets h ch c
  split
  · exact .refl s
  · split
    · exact .refl s
    · next s1 hbase =>
      refine (shadowBase_still s ch hbase).trans ?_
      simp [Still]
    · next base s1 hbase =>
      refine (shadowBase_still s ch hbase).trans ?_
      simp [Still]

@[simp] theorem refreshFalls_still (s : State) : Still s s.refreshFalls := by simp [Still, State.refreshFalls]

/-! ### Repair -/

@[simp] theorem updRun_still (s : State) (k : UnitKind) (f : Transfer → Transfer) : Still s (s.updRun k f) := by
  simp [Still, State.updRun]

@[simp] theorem endRun_still (s : State) (k : UnitKind) : Still s (s.endRun k) := by simp [Still, State.endRun]

@[simp] theorem addRun_still (s : State) (t : Transfer) : Still s (s.addRun t) := by simp [Still, State.addRun]

@[simp] theorem repairEvent_still (s : State) (done : Bool) (f : FaultRec) : Still s (s.repairEvent done f) := by
  simp [Still, State.repairEvent]

@[simp] theorem repairDone_still (s : State) (f : FaultRec) : Still s (s.repairDone f) := by
  simp [Still, State.repairDone]

@[simp] theorem startUnit_still (s : State) (f : FaultRec) : Still s (s.startUnit f) := by
  simp [Still, State.startUnit]

@[simp] theorem startResilver_still (s : State) (role : Nat) : Still s (s.startResilver role) := by
  simp only [Still, State.startResilver]
  repeat' split
  all_goals simp

@[simp] theorem tryQueued_still (f : FaultRec) (s : State) : Still s (s.tryQueued f) := by
  simp [Still, State.tryQueued]

@[simp] theorem autoRepairs_still (s : State) : Still s s.autoRepairs := by simp [Still, State.autoRepairs]

@[simp] theorem runsStart_still (s : State) : Still s s.runsStart := by simp [Still, State.runsStart]

@[simp] theorem abandonRuns_still (s : State) : Still s s.abandonRuns := by simp [Still, State.abandonRuns]

@[simp] theorem verifyOne_still (s : State) : Still s s.verifyOne := by
  unfold State.verifyOne
  split
  · exact .refl s
  · split
    · exact .refl s
    · split
      · exact .refl s
      · next u h =>
        refine (maintToken_still s h).trans ?_
        simp [Still]

@[simp] theorem verifySome_still (n : Nat) (s : State) : Still s (verifySome n s) := by
  induction n generalizing s with
  | zero => exact ⟨rfl, rfl, rfl, rfl⟩
  | succ n ih => simp [verifySome, Still, ih]

@[simp] theorem phasesGoOn_still (s : State) : Still s s.phasesGoOn := by simp [Still, State.phasesGoOn]

@[simp] theorem transferFails_still (s : State) (k : UnitKind) : Still s (s.transferFails k) := by
  unfold State.transferFails
  split
  · refine forEach_still (fun r t => ?_) bothRings s
    dsimp only
    split
    · simp [Still]
    · exact .refl t
  · split
    · exact .refl s
    · dsimp only
      split
      · exact .refl s
      · split
        · simp [Still]
        · simp [Still]

@[simp] theorem resilverLate_still (s : State) : Still s s.resilverLate := by simp [Still, State.resilverLate]

@[simp] theorem unitOut_still (s : State) (u : OutUnit) : Still s (s.unitOut u) := by
  simp only [Still, State.unitOut]
  repeat' split
  all_goals simp

@[simp] theorem repairQuery_still (s : State) (j : Job) : Still s (s.repairQuery j) := by
  simp [Still, State.repairQuery]

@[simp] theorem started_still (j : Job) (s : State) : Still s (Job.started j s) := by simp [Still, Job.started]

@[simp] theorem busy_still (j : Job) (s : State) : Still s (Job.busy j s) := by simp [Still, Job.busy]

@[simp] theorem noSpare_still (j : Job) (s : State) : Still s (Job.noSpare j s) := by simp [Still, Job.noSpare]

@[simp] theorem applyRow_still (s : State) (j : Job) : Still s (s.applyRow j) := by simp [Still, State.applyRow]

@[simp] theorem applyColumn_still (s : State) (j : Job) : Still s (s.applyColumn j) := by
  simp [Still, State.applyColumn]

@[simp] theorem applyDie_still (s : State) (j : Job) : Still s (s.applyDie j) := by simp [Still, State.applyDie]

@[simp] theorem applyLane_still (s : State) (j : Job) : Still s (s.applyLane j) := by simp [Still, State.applyLane]

@[simp] theorem applyRejoin_still (s : State) (j : Job) : Still s (s.applyRejoin j) := by
  simp [Still, State.applyRejoin]

@[simp] theorem applyLaneRejoin_still (s : State) (j : Job) : Still s (s.applyLaneRejoin j) := by
  simp [Still, State.applyLaneRejoin]

@[simp] theorem remapSwitch_still (s : State) (r : Ring) (lane : BitVec 4) (passed : Bool) :
    Still s (s.remapSwitch r lane passed) := by
  simp only [Still, State.remapSwitch]
  repeat' split
  all_goals simp

@[simp] theorem rejoinSwitch_still (s : State) (r : Ring) : Still s (s.rejoinSwitch r) := by
  simp only [Still, State.rejoinSwitch]
  repeat' split
  all_goals simp

@[simp] theorem laneAsked_still (s : State) (r : Ring) (lane : BitVec 4) (spare start : Bool) :
    Still s (s.laneAsked r lane spare start) := by
  simp [Still, State.laneAsked]

@[simp] theorem mailAgain_still (s : State) (r : Ring) : Still s (s.mailAgain r) := by simp [Still, State.mailAgain]

/-! ### Tolls (16) -/

@[simp] theorem holdFails_still (s : State) (fs : List TollFail) : Still s (s.holdFails fs) := by
  simp [Still, State.holdFails]

@[simp] theorem tollBegin_still (s : State) : Still s s.tollBegin := by simp [Still, State.tollBegin]

@[simp] theorem tollOuts_still (s : State) (fs : List TollFail) : Still s (s.tollOuts fs) := by
  simp [Still, State.tollOuts]

@[simp] theorem tollRun_still (s : State) (j : Job) : Still s (s.tollRun j) := by simp [Still, State.tollRun]

@[simp] theorem tallyStop_still (s : State) (j : Job) : Still s (s.tallyStop j) := by simp [Still, State.tallyStop]

@[simp] theorem tallyRecord_still (s : State) (j : Job) : Still s (s.tallyRecord j) := by
  simp [Still, State.tallyRecord]

@[simp] theorem tallyStream_still (s : State) (j : Job) : Still s (s.tallyStream j) := by
  simp [Still, State.tallyStream]

@[simp] theorem tallyFilter_still (s : State) (j : Job) : Still s (s.tallyFilter j) := by
  simp [Still, State.tallyFilter]

@[simp] theorem tallyConsent_still (s : State) (j : Job) : Still s (s.tallyConsent j) := by
  simp [Still, State.tallyConsent]

@[simp] theorem tallyRead_still (s : State) (j : Job) : Still s (s.tallyRead j) := by simp [Still, State.tallyRead]

@[simp] theorem streamStops_still (s : State) (r : Ring) (ids : List Node) : Still s (s.streamStops r ids) := by
  simp [Still, State.streamStops]

@[simp] theorem knellRead_still (s : State) (j : Job) : Still s (s.knellRead j) := by simp [Still, State.knellRead]

/-! ### The Beat's budget (03 R65) -/

@[simp] theorem stopAll_still (s : State) : Still s s.stopAll := by simp [Still, State.stopAll]

@[simp] theorem splitClean_still (s : State) : Still s s.splitClean := by simp [Still, State.splitClean]

@[simp] theorem snapSpend_still (s : State) (c : CloseJob) (n : Nat) : Still s (s.snapSpend c n) := by
  simp [Still, State.snapSpend]

@[simp] theorem closeReply_still (s : State) (c : CloseJob) : Still s (s.closeReply c) := by
  simp [Still, State.closeReply]

@[simp] theorem askLeave_still (s : State) (c : CloseJob) : Still s (s.askLeave c) := by simp [Still, State.askLeave]

@[simp] theorem closeStep_still (s : State) : Still s s.closeStep := by
  simp only [Still, State.closeStep]
  repeat' split
  all_goals simp

@[simp] theorem closeGoesOn_still (s : State) : Still s s.closeGoesOn := by simp [Still, State.closeGoesOn]

@[simp] theorem close_still (s : State) (j : Job) : Still s (s.close j) := by simp [Still, State.close]

@[simp] theorem restAsked_still (s : State) (j : Job) : Still s (s.restAsked j) := by simp [Still, State.restAsked]

theorem knellTake_still (s : State) {u : State} (h : s.knellTake = some u) : Still s u := by
  simp only [State.knellTake] at h
  repeat' split at h
  all_goals cases h
  all_goals simp [Still]

@[simp] theorem knellFill_still (n : Nat) (s : State) : Still s (s.knellFill n) := by
  induction n generalizing s with
  | zero => exact ⟨rfl, rfl, rfl, rfl⟩
  | succ n ih =>
    unfold State.knellFill
    split
    next t h => exact (knellTake_still s h).trans (ih t)
    · exact ⟨rfl, rfl, rfl, rfl⟩

@[simp] theorem knellIssue_still (es : List WEntry) (n : Nat) (s : State) : Still s (knellIssue es n s) := by
  induction es generalizing n s with
  | nil => exact ⟨rfl, rfl, rfl, rfl⟩
  | cons e es ih => simp [knellIssue, Still, ih]

@[simp] theorem knellPeriod_still (s : State) : Still s s.knellPeriod := by simp [Still, State.knellPeriod]

/-! ### SEC-DED in the base-die SRAMs -/

@[simp] theorem tallyLost_still (s : State) (i : Nat) : Still s (s.tallyLost i) := by simp [Still, State.tallyLost]

@[simp] theorem nearLost_still (s : State) (blk line : Nat) : Still s (s.nearLost blk line) := by
  simp [Still, State.nearLost]

@[simp] theorem blockLost_still (s : State) (blk : Nat) : Still s (s.blockLost blk) := by
  simp [Still, State.blockLost]

@[simp] theorem tagLost_still (s : State) (blk : Nat) : Still s (s.tagLost blk) := by
  simp only [Still, State.tagLost]
  repeat' split
  all_goals simp

@[simp] theorem intakeLost_still (s : State) (rid a : Nat) : Still s (s.intakeLost rid a) := by
  simp only [Still, State.intakeLost]
  repeat' split
  all_goals simp

@[simp] theorem preLost_still (s : State) (ent : Nat) : Still s (s.preLost ent) := by simp [Still, State.preLost]

@[simp] theorem mergeLost_still (s : State) (i : Fin 64) : Still s (s.mergeLost i) := by
  simp only [Still, State.mergeLost]
  repeat' split
  all_goals simp

@[simp] theorem sectorAgain_still (s : State) (k : Kit) (kp : KPage) (x : BitVec 4) :
    Still s (s.sectorAgain k kp x) := by
  simp only [Still, State.sectorAgain]
  repeat' split
  all_goals simp

@[simp] theorem redoAgain_still (s : State) (rid unit : Nat) : Still s (s.redoAgain rid unit) := by
  simp only [Still, State.redoAgain]
  repeat' split
  all_goals simp

@[simp] theorem storeLost_still (s : State) (k : Kit) (slot : Fin 8) : Still s (s.storeLost k slot) := by
  simp [Still, State.storeLost]

@[simp] theorem nearFaulty_still (w : SramWord) (s : State) : Still s (s.nearFaulty w) := by
  simp only [Still, State.nearFaulty]
  repeat' split
  all_goals simp

/-! ### Ring time (02) -/

@[simp] theorem nowInForce_still (s : State) : Still s s.nowInForce := by simp [Still, State.nowInForce]

@[simp] theorem closeBeat_still (s : State) : Still s s.closeBeat := by simp [Still, State.closeBeat]

@[simp] theorem holdTick_still (s : State) : Still s s.holdTick := by simp [Still, State.holdTick]

@[simp] theorem wearChord_still (s : State) : Still s s.wearChord := by simp [Still, State.wearChord]

@[simp] theorem snapOne_still (s : State) (cost : Nat) : Still s (s.snapOne cost) := by
  simp only [Still, State.snapOne]
  repeat' split
  all_goals simp

@[simp] theorem sacOne_still (s : State) : Still s s.sacOne := by simp [Still, State.sacOne]

@[simp] theorem countStarved_still (s : State) (al : Alloc) (ds : List KDem) : Still s (s.countStarved al ds) := by
  simp [Still, State.countStarved]

@[simp] theorem scrubPast_still (s : State) : Still s s.scrubPast := by simp [Still, State.scrubPast]

theorem scrubOne_still (s : State) {t : State} (h : s.scrubOne = some t) : Still s t := by
  unfold State.scrubOne at h
  split at h
  · cases h
  · split at h
    · cases h
      simp [Still]
    · obtain ⟨u, hu, rfl⟩ := Option.map_eq_some_iff.mp h
      refine (maintToken_still s hu).trans ?_
      simp [Still]

@[simp] theorem scrubSome_still (n : Nat) (s : State) : Still s (s.scrubSome n) := by
  induction n generalizing s with
  | zero => exact ⟨rfl, rfl, rfl, rfl⟩
  | succ n ih =>
    unfold State.scrubSome
    split
    next t h => exact (scrubOne_still s h).trans (ih t)
    · exact ⟨rfl, rfl, rfl, rfl⟩

@[simp] theorem scrubOn_still (s : State) : Still s s.scrubOn := by simp [Still, State.scrubOn]

@[simp] theorem scrubPart_still (s : State) : Still s s.scrubPart := by simp [Still, State.scrubPart]

@[simp] theorem scrubStep_still (s : State) : Still s s.scrubStep := by simp [Still, State.scrubStep]

@[simp] theorem tokens_still (s : State) : Still s s.tokens := by simp [Still, State.tokens]

@[simp] theorem probesFollow_still (s : State) : Still s s.probesFollow := by simp [Still, State.probesFollow]

@[simp] theorem warmUp_still (s : State) : Still s s.warmUp := by simp [Still, State.warmUp]

@[simp] theorem adaptStart_still (s : State) : Still s s.adaptStart := by simp [Still, State.adaptStart]

@[simp] theorem barStarts_still (s : State) (marked : Bool) : Still s (s.barStarts marked) := by
  simp [Still, State.barStarts]

@[simp] theorem barMeasured_still (s : State) (permille : Nat) : Still s (s.barMeasured permille) := by
  simp [Still, State.barMeasured]

@[simp] theorem heldFalls_still (s : State) : Still s s.heldFalls := by simp [Still, State.heldFalls]

@[simp] theorem barBegins_still (s0 : State) (marked : Bool) : Still s0 (s0.barBegins marked) := by
  simp [Still, State.barBegins]

@[simp] theorem wraps_still (s : State) : Still s s.wraps := by simp [Still, State.wraps]

@[simp] theorem waitingChanges_still (s : State) : Still s s.waitingChanges := by simp [Still, State.waitingChanges]

@[simp] theorem strictDown_still (s : State) : Still s s.strictDown := by simp [Still, State.strictDown]

@[simp] theorem downChanges_still (s : State) : Still s s.downChanges := by simp [Still, State.downChanges]

@[simp] theorem shorten_still (s : State) : Still s s.shorten := by simp [Still, State.shorten]

@[simp] theorem tick_still (s : State) (marked osc : Bool) (permille : Nat) :
    Still s (s.tick marked osc permille) := by
  simp [Still, State.tick]

@[simp] theorem countBeat_still (s : State) (marked osc : Bool) : Still s (s.countBeat marked osc) := by
  simp [Still, State.countBeat]

@[simp] theorem knellBeat_still (s : State) (marked osc : Bool) : Still s (s.knellBeat marked osc) := by
  simp [Still, State.knellBeat]

@[simp] theorem sourceIdle_still (s : State) : Still s s.sourceIdle := by simp [Still, State.sourceIdle]

@[simp] theorem realign_still (s : State) (m : Marker) (permille : Nat) : Still s (s.realign m permille) := by
  simp [Still, State.realign]

@[simp] theorem realigned_still (s : State) (before slip : Nat) : Still s (s.realigned before slip) := by
  simp [Still, State.realigned]

@[simp] theorem retrainAt_still (s : State) (mbar : BitVec 32) : Still s (s.retrainAt mbar) := by
  simp only [Still, State.retrainAt]
  repeat' split
  all_goals simp

@[simp] theorem joinDown_still (s : State) : Still s s.joinDown := by simp [Still, State.joinDown]

@[simp] theorem ringBDown_still (s : State) (m : Marker) (given : BitVec 16) : Still s (s.ringBDown m given) := by
  simp [Still, State.ringBDown]

@[simp] theorem ringBLost_still (s : State) : Still s s.ringBLost := by simp [Still, State.ringBLost]

@[simp] theorem bMoves_still (s : State) : Still s s.bMoves := by simp [Still, State.bMoves]

@[simp] theorem alertEvery_still (s : State) (i : EvId) : Still s (s.alertEvery i) := by
  simp [Still, State.alertEvery]

@[simp] theorem sampleField_still (s : State) (fields : List (List (BitVec 12))) :
    Still s (s.sampleField fields) := by
  simp [Still, State.sampleField]

@[simp] theorem sampleTemp_still (s : State) (temps : List (BitVec 12)) : Still s (s.sampleTemp temps) := by
  simp [Still, State.sampleTemp]

@[simp] theorem sample_still (s : State) (temps : List (BitVec 12)) (fields : List (List (BitVec 12))) :
    Still s (s.sample temps fields) := by
  simp [Still, State.sample]

@[simp] theorem passKit_still (k : Kit) (ps : List Page) (n : Nat) (s : State) : Still s (s.passKit k ps n) := by
  induction ps generalizing n s with
  | nil => exact ⟨rfl, rfl, rfl, rfl⟩
  | cons p ps ih =>
    unfold State.passKit
    repeat' split
    all_goals simp [Still, ih]

@[simp] theorem migrationPass_still (s : State) : Still s s.migrationPass := by simp [Still, State.migrationPass]

@[simp] theorem decay_still (s : State) : Still s s.decay := by simp [Still, State.decay]

@[simp] theorem wearEnds_still (s : State) : Still s s.wearEnds := by simp [Still, State.wearEnds]

@[simp] theorem deepWearEnds_still (s : State) : Still s s.deepWearEnds := by simp [Still, State.deepWearEnds]

@[simp] theorem weakEnds_still (s : State) : Still s s.weakEnds := by simp [Still, State.weakEnds]

@[simp] theorem cursorsSaved_still (s : State) : Still s s.cursorsSaved := by
  simp only [Still, State.cursorsSaved]
  repeat' split
  all_goals simp

@[simp] theorem measureEnds_still (s : State) : Still s s.measureEnds := by simp [Still, State.measureEnds]

/-! ### Link -/

@[simp] theorem ping_still (s : State) (j : Job) : Still s (s.ping j) := by simp [Still, State.ping]

@[simp] theorem statusQuery_still (s : State) (j : Job) : Still s (s.statusQuery j) := by
  simp [Still, State.statusQuery]

@[simp] theorem csrRead_still (s : State) (j : Job) : Still s (s.csrRead j) := by simp [Still, State.csrRead]

@[simp] theorem csrWrite_still (s : State) (j : Job) : Still s (s.csrWrite j) := by simp [Still, State.csrWrite]

@[simp] theorem kitCreate_still (s : State) (j : Job) : Still s (s.kitCreate j) := by
  simp only [Still, State.kitCreate]
  repeat' split
  all_goals simp

@[simp] theorem kitRebind_still (s : State) (j : Job) : Still s (s.kitRebind j) := by simp [Still, State.kitRebind]

@[simp] theorem clearSharer_still (s : State) (o : Kit) (x : Kit × Fin 8) : Still s (s.clearSharer o x) := by
  simp [Still, State.clearSharer]

@[simp] theorem releasePages_still (s : State) (k : Kit) (p : KPage → Bool) : Still s (s.releasePages k p) := by
  simp [Still, State.releasePages]

@[simp] theorem drainsOver_still (s : State) (k : Kit) (w : Option (Fin 8)) : Still s (s.drainsOver k w) := by
  simp [Still, State.drainsOver]

@[simp] theorem windowSet_still (s : State) (j : Job) : Still s (s.windowSet j) := by simp [Still, State.windowSet]

@[simp] theorem windowClear_still (s : State) (j : Job) : Still s (s.windowClear j) := by
  simp only [Still, State.windowClear]
  repeat' split
  all_goals simp

@[simp] theorem windowGone_still (s : State) (k : Kit) (i : Fin 8) : Still s (s.windowGone k i) := by
  unfold State.windowGone
  repeat' split
  all_goals simp [Still]

@[simp] theorem kitDestroy_still (s : State) (j : Job) : Still s (s.kitDestroy j) := by simp [Still, State.kitDestroy]

@[simp] theorem stopEngines_still (s : State) (k : Kit) : Still s (s.stopEngines k) := by
  simp [Still, State.stopEngines]

@[simp] theorem kitWipe_still (s : State) (k : Kit) : Still s (s.kitWipe k) := by simp [Still, State.kitWipe]

@[simp] theorem kitGone_still (s : State) (k : Kit) : Still s (s.kitGone k) := by
  unfold State.kitGone
  repeat' split
  all_goals simp [Still]

@[simp] theorem strokeSet_still (s : State) (j : Job) : Still s (s.strokeSet j) := by simp [Still, State.strokeSet]

/-! ### Completion of provisional writes (11 R298 -/

@[simp] theorem closeRing_still (s : State) (r : Ring) (unplanned : Bool) : Still s (s.closeRing r unplanned) := by
  simp [Still, State.closeRing]

@[simp] theorem closeBoth_still (s : State) : Still s s.closeBoth := by simp [Still, State.closeBoth]

@[simp] theorem belCut_still (s : State) : Still s s.belCut := by simp [Still, State.belCut]

@[simp] theorem discard_still (s : State) : Still s s.discard := (zeroRest_still s fun _ => true :)

@[simp] theorem closeAll_still (s : State) : Still s s.closeAll := by simp [Still, State.closeAll]

@[simp] theorem tableFirst_still (s : State) : Still s s.tableFirst := by
  refine (forEach_still (fun q t => ?_) s.chordq s :)
  split
  · split
    · exact commitPt_still ..
    · exact .refl t
  · exact .refl t

@[simp] theorem onlyAccepted_still (s : State) : Still s s.onlyAccepted := by simp [Still, State.onlyAccepted]

@[simp] theorem chargeEntry_still (s : State) (e : WEntry) (n : Nat) : Still s (s.chargeEntry e n) := by
  simp only [Still, State.chargeEntry]
  repeat' split
  all_goals simp

@[simp] theorem firstPulse_still (s : State) (e : WEntry) : Still s (s.firstPulse e) := by
  simp [Still, State.firstPulse]

@[simp] theorem morePulses_still (s : State) (e : WEntry) (m : Slices) (n : Nat) : Still s (s.morePulses e m n) := by
  simp [Still, State.morePulses]

/-! ### Ring control -/

@[simp] theorem trainedOn_still (s : State) (r : Ring) (rate us : Nat) (bad : BitVec 16) :
    Still s (s.trainedOn r rate us bad) := by
  simp [Still, State.trainedOn]

@[simp] theorem say_still (s : State) (r : Ring) (m : List Byte) : Still s (s.say r m) := by simp [Still, State.say]

@[simp] theorem announceWindow_still (s : State) (r : Ring) (join : Bool) (node : Node) (w : BitVec 10)
    (mbar : BitVec 32) :
    Still s (s.announceWindow r join node w mbar) := by
  simp [Still, State.announceWindow]

@[simp] theorem phaseStep_still (s : State) (r : Ring) : Still s (s.phaseStep r) := by simp [Still, State.phaseStep]

@[simp] theorem rateAnnounced_still (s : State) (code : Nat) (mbar : BitVec 32) :
    Still s (s.rateAnnounced code mbar) := by
  simp [Still, State.rateAnnounced]

@[simp] theorem newRate_still (s : State) (code : Nat) : Still s (s.newRate code) := by simp [Still, State.newRate]

@[simp] theorem retrained_still (s : State) (badA badB : BitVec 16) : Still s (s.retrained badA badB) := by
  simp [Still, State.retrained]

@[simp] theorem ownResume_still (s : State) (code : Nat) : Still s (s.ownResume code).2 := by
  simp [Still, State.ownResume]

@[simp] theorem strictLapse_still (s : State) : Still s s.strictLapse := by simp [Still, State.strictLapse]

@[simp] theorem slotMap_still (s : State) (r : Ring) (owners : List Node) : Still s (s.slotMap r owners) := by
  simp [Still, State.slotMap]

@[simp] theorem sendEnum_still (s : State) (r : Ring) (fresh : Bool) (epoch : BitVec 8) (next : Node) :
    Still s (s.sendEnum r fresh epoch next) := by
  simp [Still, State.sendEnum]

@[simp] theorem enumerated_still (s : State) (r : Ring) (fresh : Bool) (epoch : BitVec 8) (pos : Nat)
    (order : List Node) (next : Node) :
    Still s (s.enumerated r fresh epoch pos order next) := by
  simp [Still, State.enumerated]

@[simp] theorem orphan_still (s : State) (p : InFlight → Bool) : Still s (s.orphan p) := by simp [Still, State.orphan]

@[simp] theorem suspendKits_still (s : State) : Still s s.suspendKits := by simp [Still, State.suspendKits]

@[simp] theorem bindHouse_still (s : State) (order : List Node) : Still s (s.bindHouse order) := by
  simp [Still, State.bindHouse]

@[simp] theorem joins_still (s : State) (r : Ring) : Still s (s.joins r) := by simp [Still, State.joins]

@[simp] theorem rostered_still (s : State) (r : Ring) (epoch : BitVec 8) (order : List Node) :
    Still s (s.rostered r epoch order) := by
  simp [Still, State.rostered]

/-! ### The Knell (18 R427 to R436) -/

@[simp] theorem causeTaken_still (s : State) (c : KnellCause) : Still s (s.causeTaken c) := by
  simp [Still, State.causeTaken]

@[simp] theorem knellAlert_still (r : Ring) (s : State) : Still s (s.knellAlert r) := by
  simp [Still, State.knellAlert]

@[simp] theorem knellBound_still (s : State) : Still s s.knellBound := by simp [Still, State.knellBound]

/-! ### Modes (17) -/

@[simp] theorem morningRing_still (s : State) (r : Ring) (fail pass tested : BitVec 19) (eyes : List
    (BitVec 8 × BitVec 8)) :
    Still s (s.morningRing r fail pass tested eyes) := by
  simp [Still, State.morningRing]

@[simp] theorem nearRow_still (f : FaultRec) (s : State) : Still s (s.nearRow f) := by simp [Still, State.nearRow]

@[simp] theorem nearRows_still (s : State) (fs : List FaultRec) : Still s (s.nearRows fs) := by
  simp [Still, State.nearRows]

@[simp] theorem morningSensors_still (s : State) (f : MorningFind) : Still s (s.morningSensors f) := by
  simp [Still, State.morningSensors]

@[simp] theorem faultsAgain_still (s : State) : Still s s.faultsAgain := by simp [Still, State.faultsAgain]

@[simp] theorem patchLoad_still (s : State) (f : FillFind) : Still s (s.patchLoad f) := by
  simp [Still, State.patchLoad]

@[simp] theorem unwrap_still (f : FillFind) (k : Kit) (s : State) : Still s (s.unwrap f k) := by
  simp [Still, State.unwrap]

@[simp] theorem markRecants_still (s : State) : Still s s.markRecants := by simp [Still, State.markRecants]

@[simp] theorem masterOpens_still (s : State) : Still s s.masterOpens := by simp [Still, State.masterOpens]

@[simp] theorem mendKey_still (k : Kit) (s : State) : Still s (s.mendKey k) := by simp [Still, State.mendKey]

@[simp] theorem joinLate_still (s : State) : Still s s.joinLate := by simp [Still, State.joinLate]

@[simp] theorem restWakes_still (s : State) : Still s s.restWakes := by simp [Still, State.restWakes]

@[simp] theorem rewrap_still (s : State) : Still s s.rewrap := by simp [Still, State.rewrap]

@[simp] theorem sacrifice_still (s : State) (f : EveningFind) : Still s (s.sacrifice f) := by
  simp [Still, State.sacrifice]

@[simp] theorem holdEnds_still (s : State) : Still s s.holdEnds := by simp [Still, State.holdEnds]

@[simp] theorem i3cRefuse_still (s : State) (rq : Req) (status detail : Nat) :
    Still s (s.i3cRefuse rq status detail) := by
  simp [Still, State.i3cRefuse]

@[simp] theorem i3cRead_still (s : State) (dest : BitVec 7) (stopAfter : Option Nat) :
    Still s (s.i3cRead dest stopAfter) := by
  simp only [Still, State.i3cRead]
  repeat' split
  all_goals simp

@[simp] theorem i3cAddress_still (s : State) (addr : BitVec 7) : Still s (s.i3cAddress addr) := by
  simp [Still, State.i3cAddress]

@[simp] theorem i3cFromStatic_still (s : State) (static addr : BitVec 7) : Still s (s.i3cFromStatic static addr) := by
  simp [Still, State.i3cFromStatic]

@[simp] theorem i3cForget_still (s : State) : Still s s.i3cForget := by simp [Still, State.i3cForget]

@[simp] theorem tapLoad_still (s : State) (t : TapInstr) : Still s (s.tapLoad t) := by
  simp only [Still, State.tapLoad]
  repeat' split
  all_goals simp

@[simp] theorem tapTakes_still (s : State) (t : TapInstr) : Still s (s.tapTakes t) := by simp [Still, State.tapTakes]

@[simp] theorem railsAre_still (s : State) (rails : BitVec 6) : Still s (s.railsAre rails) := by
  simp [Still, State.railsAre]

/-! ### One step -/

@[simp] theorem withFetchWord_still (s : State) (nbits w : Nat) : Still s (s.withFetchWord nbits w) := by
  simp only [Still, State.withFetchWord]
  repeat' split
  all_goals simp

end Sys2Proof.Machine

namespace Sys2Proof.Machine

/-! ### The form of the three byte stores -/

/-- The three byte stores are canonical: what `State.memWf` says, store by store. -/
abbrev Formed (s : State) : Prop := cellsWf s.mram = true ∧ cellsWf s.deep.nand = true ∧ cellsWf s.bel.mem = true

theorem memWf_iff (s : State) : s.memWf = true ↔ Formed s := by simp [State.memWf, and_assoc]

theorem Still.formed {s t : State} (hstill : Still s t) (h : Formed s) : Formed t := by
  obtain ⟨hmram, hnand, hmem, -⟩ := hstill
  simpa [Formed, hmram, hnand, hmem] using h

@[simp] theorem ite_cellsWf (c : Prop) [Decidable c] (m n : List Host.Cell) :
    cellsWf (if c then m else n) = if c then cellsWf m else cellsWf n := apply_ite cellsWf c m n

@[simp] theorem cellsWf_nil : cellsWf [] = true := rfl

theorem forEach_formed {α : Type} {f : α → State → State} (hf : ∀ x s, Formed s → Formed (f x s)) (l : List α) (s : State)
    (h : Formed s) : Formed (forEach f l s) :=
  forEach_forall (R := fun s t => Formed s → Formed t) (fun _ => id) (fun _ _ _ hst htu h => htu (hst h)) hf l s h

/-! ### The operations that every family shares: the form kept -/

@[simp] theorem belPut_formed (s : State) (a : Nat) (bs : List Byte) (n : Nat) (h : Formed s) : Formed (s.belPut a bs n) :=
  (memWf_iff _).1 (memWf_belPut a bs n ((memWf_iff s).2 h))

@[simp] theorem enter_formed (s : State) (m : Mode) (trig : Nat) (h : Formed s) : Formed (s.enter m trig) := by
  simp [Formed, State.enter, h]

/-! ### The main array: the form kept -/

@[simp] theorem store_formed (s : State) (c : Nat) (sl : List (List Byte)) (mask : Slices) (h : Formed s) :
    Formed (s.store c sl mask) :=
  (memWf_iff _).1 (memWf_store c sl mask ((memWf_iff s).2 h))

/-! ### Provisional writes (11): the form kept -/

@[simp] theorem storeEntry_formed (s : State) (e : WEntry) (failing : Slices) (h : Formed s) :
    Formed (s.storeEntry e failing) := by
  simp [Formed, State.storeEntry, h]

@[simp] theorem outcome_formed (s : State) (e : WEntry) (failing : Slices) (h : Formed s) :
    Formed (s.outcome e failing) := by
  simp [Formed, State.outcome, h]

@[simp] theorem verifyEntry_formed (s : State) (e : WEntry) (failing : Slices) (h : Formed s) :
    Formed (s.verifyEntry e failing) := by
  simp [Formed, State.verifyEntry, h]

/-! ### The Deep tier (10): the form kept -/

@[simp] theorem retireBit_formed (s : State) (b : Nat) (h : Formed s) :
    Formed (s.retireBit b) := belPut_formed s _ _ _ h

@[simp] theorem retireBlock_formed (s : State) (b : Nat) (h : Formed s) : Formed (s.retireBlock b) := by
  simp [Formed, State.retireBlock, h]

@[simp] theorem commit_formed {d : Deep} (page : Nat) (x : BitVec 4) (loc : Nat) (cs : List (Option (List Byte)))
    (h : cellsWf d.nand = true) : cellsWf (d.commit page x loc cs).nand = true := cellsWf_commit page x loc cs h

@[simp] theorem sectorOut_formed (s : State) (y : Kit × KPage × BitVec 4) (loc n : Nat) (h : Formed s) :
    Formed (s.sectorOut y loc n) := by
  unfold State.sectorOut
  split
  · exact h
  · dsimp only
    split <;> simp [Formed, h]

@[simp] theorem relocated_formed (s : State) (y : Nat × BitVec 4) (loc : Nat) (h : Formed s) :
    Formed (s.relocated y loc) := by
  unfold State.relocated
  split
  · exact h
  · exact ⟨h.1, cellsWf_commit _ _ _ _ h.2.1, h.2.2⟩

@[simp] theorem programDone_formed (s : State) (die : Fin 4) (good : Bool) (h : Formed s) :
    Formed (s.programDone die good) := by
  have hidle : Formed (s.dieIdle die) := (dieIdle_still s die).formed h
  unfold State.programDone
  split
  · split
    · exact (forEach_formed (fun y t ht => sectorOut_formed _ _ _ _ ht) _ _ hidle :)
    · exact (programAgain_still ..).formed hidle
  · split
    · exact (forEach_formed (fun y t ht => relocated_formed _ _ _ ht) _ _ hidle :)
    · exact (programAgain_still ..).formed hidle
  · exact h

@[simp] theorem eraseDone_formed (s : State) (die : Fin 4) (good : Bool) (h : Formed s) :
    Formed (s.eraseDone die good) := by
  simp only [State.eraseDone]
  repeat' split
  all_goals simp [Formed, h]

@[simp] theorem emptyBlocks_formed (s : State) (h : Formed s) : Formed s.emptyBlocks := by
  unfold State.emptyBlocks
  refine forEach_formed (fun x t ht => ?_) _ s h
  simp [Formed, ht]

@[simp] theorem deepGoesOn_formed (s : State) (h : Formed s) : Formed s.deepGoesOn := by
  simp [Formed, State.deepGoesOn, h]

@[simp] theorem deepDieFails_formed (s : State) (die : Fin 4) (h : Formed s) : Formed (s.deepDieFails die) := by
  unfold State.deepDieFails
  extract_lets x lost map before d mine s1 gone s2 s3
  split
  · exact h
  · have hs2 : Formed s2 := belPut_formed _ _ _ _ (by simp [Formed, s1, d, before, h])
    have hs3 : Formed s3 := by simp [Formed, s3, hs2]
    refine forEach_formed (fun o t ht => ?_) mine s3 hs3
    split
    · exact ht
    all_goals exact (programAgain_still ..).formed ht

@[simp] theorem dieStalls_formed (s : State) (die : Fin 4) (h : Formed s) : Formed (s.dieStalls die) := by
  simp [Formed, State.dieStalls, h]

/-! ### The memory commands (07 R171 to R176) and the steps of provisional writes (11): the form kept -/

@[simp] theorem verifyAt_formed (s : State) (ent : Nat) (failing : Slices) (h : Formed s) :
    Formed (s.verifyAt ent failing) := by
  simp only [State.verifyAt]
  repeat' split
  all_goals simp [Formed, h]

/-! ### The Belfry store (15: the form kept -/

@[simp] theorem belPuts_formed (s : State) (p : BelPut) (h : Formed s) : Formed (s.belPuts p) := by
  simp only [State.belPuts]
  repeat' split
  all_goals simp [Formed, h]

@[simp] theorem belWritten_formed (s : State) (x : BelStep) (h : Formed s) : Formed (s.belWritten x) := by
  simp only [State.belWritten]
  repeat' split
  all_goals simp [Formed, h]

@[simp] theorem belNow_formed (x : BelStep) (s : State) (h : Formed s) : Formed (s.belNow x) := by
  simp [Formed, State.belNow, h]

@[simp] theorem belStart_formed (s : State) (l : List BelStep) (h : Formed s) : Formed (s.belStart l) := by
  unfold State.belStart
  split
  · exact h
  · split
    · exact h
    · exact forEach_formed (fun x t => belNow_formed x t) l s h

@[simp] theorem belSettle_formed (s : State) (h : Formed s) : Formed s.belSettle := by
  unfold State.belSettle
  split
  · exact h
  · split
    · exact forEach_formed (fun x t => belNow_formed x t) _ _ h
    · exact h

@[simp] theorem portOn_formed (n : Nat) (s : State) (h : Formed s) : Formed (s.portOn n) := by
  induction n generalizing s with
  | zero => exact h
  | succ n ih =>
    unfold State.portOn
    split
    · exact h
    · dsimp only
      split
      · exact ih _ ((belRead_still ..).formed h)
      · exact ih _ (belStart_formed _ _ h)
      · exact ih _ (belStart_formed _ _ h)
      · exact h

@[simp] theorem portGoes_formed (s : State) (h : Formed s) : Formed s.portGoes := by
  simp [Formed, State.portGoes, h]

@[simp] theorem atPort_formed (s : State) (op : BelOp) (h : Formed s) : Formed (s.atPort op) := by
  simp [Formed, State.atPort, h]

@[simp] theorem belNext_formed (s : State) (h : Formed s) : Formed s.belNext := by
  simp only [State.belNext]
  repeat' split
  all_goals simp [Formed, h]

@[simp] theorem portBeat_formed (s : State) (h : Formed s) : Formed s.portBeat := by
  simp [Formed, State.portBeat, h]

@[simp] theorem belWrite_formed (s : State) (j : Job) (h : Formed s) : Formed (s.belWrite j) := by
  simp [Formed, State.belWrite, h]

@[simp] theorem chunkWrite_formed (s : State) (tries : Nat) (good : Bool) (h : Formed s) :
    Formed (s.chunkWrite tries good) := by
  simp only [State.chunkWrite]
  repeat' split
  all_goals simp [Formed, h]

@[simp] theorem putRec_formed (s : State) (r : RecId) (body : List Byte) (h : Formed s) :
    Formed (s.putRec r body) := by
  simp [Formed, State.putRec, h]

@[simp] theorem putRecFree_formed (s : State) (r : RecId) (h : Formed s) : Formed (s.putRecFree r) := by
  simp [Formed, State.putRecFree, h]

@[simp] theorem updateRec_formed (s : State) (r : RecId) (body : List Byte) (copyAGood : Bool) (h : Formed s) :
    Formed (s.updateRec r body copyAGood) := by
  simp [Formed, State.updateRec, h]

@[simp] theorem logWrite_formed (s : State) (good : Bool) (h : Formed s) : Formed (s.logWrite good) := by
  simp [Formed, State.logWrite, h]

@[simp] theorem refreshStep_formed (s : State) (weak stillWeak : BitVec 8) (h : Formed s) :
    Formed (s.refreshStep weak stillWeak) := by
  simp only [State.refreshStep]
  repeat' split
  all_goals simp [Formed, h]

@[simp] theorem recsLater_formed (s : State) (h : Formed s) : Formed s.recsLater :=
  portGoes_formed _ ((forEach_still (fun r t => readRec_still t false r) _ _).formed h)

/-! ### Repair: the form kept -/

@[simp] theorem rebuildChord_formed (s : State) (t : Transfer) (c : Nat) (h : Formed s) :
    Formed (s.rebuildChord t c) := by
  unfold State.rebuildChord
  extract_lets o s1 die stk
  have hs1 : Formed s1 := (readArray_still ..).formed h
  clear_value s1
  split
  · exact hs1
  · split
    · exact ⟨cellsWf_write _ _ hs1.1, hs1.2⟩
    · exact hs1

@[simp] theorem rebuildOne_formed (s : State) (h : Formed s) : Formed s.rebuildOne := by
  unfold State.rebuildOne
  split
  · exact h
  · split
    · exact h
    · next u hu => exact (updRun_still ..).formed (rebuildChord_formed u _ _ ((maintToken_still s hu).formed h))

@[simp] theorem transfersGoOn_formed (s : State) (n : Nat) (h : Formed s) : Formed (s.transfersGoOn n) := by
  unfold State.transfersGoOn
  split
  · exact h
  · exact (verifySome_still ..).formed (forEach_formed (fun _ t => rebuildOne_formed t) _ s h)

@[simp] theorem backToRun_formed (s : State) (h : Formed s) : Formed s.backToRun := by
  simp [Formed, State.backToRun, h]

@[simp] theorem rewriteUnit_formed (s : State) (t : Transfer) (h : Formed s) : Formed (s.rewriteUnit t) :=
  (memWf_iff _).1 (memWf_rewriteUnit t ((memWf_iff s).2 h))

@[simp] theorem switchover_formed (s : State) (k : UnitKind) (h : Formed s) : Formed (s.switchover k) := by
  simp only [State.switchover]
  repeat' split
  all_goals simp [Formed, h]

@[simp] theorem resilverOver_formed (s : State) (h : Formed s) : Formed s.resilverOver := by
  simp only [State.resilverOver]
  repeat' split
  all_goals simp [Formed, h]

/-! ### Tolls (16): the form kept -/

@[simp] theorem tollPut_formed (s : State) (slot : Nat) (rs : List (List Byte)) (h : Formed s) :
    Formed (s.tollPut slot rs) := by
  simp [Formed, State.tollPut, h]

@[simp] theorem tollEnd_formed (s : State) (src : Nat) (fatal : Bool) (us : Nat) (h : Formed s) :
    Formed (s.tollEnd src fatal us) := by
  unfold State.tollEnd
  extract_lets fs n count slot result recs s1 faults before t
  have hs1 : Formed s1 := tollPut_formed _ _ _ h
  exact (forEach_still (fun i t => logRec_still ..) _ _).formed hs1

@[simp] theorem tollRunDone_formed (s : State) (fs : List TollFail) (us : Nat) (h : Formed s) :
    Formed (s.tollRunDone fs us) := by
  simp only [State.tollRunDone]
  repeat' split
  all_goals simp [Formed, h]

@[simp] theorem streamSend_formed (s : State) (h : Formed s) : Formed s.streamSend := by
  simp [Formed, State.streamSend, h]

/-! ### SEC-DED in the base-die SRAMs: the form kept -/

@[simp] theorem holdLost_formed (s : State) (ent : Nat) (h : Formed s) : Formed (s.holdLost ent) := by
  simp only [State.holdLost]
  repeat' split
  all_goals simp [Formed, h]

@[simp] theorem sramLost_formed (s : State) (w : SramWord) (h : Formed s) : Formed (s.sramLost w) := by
  simp only [State.sramLost]
  repeat' split
  all_goals simp [Formed, h]

@[simp] theorem sramMet_formed (x : SramErr) (s : State) (h : Formed s) : Formed (s.sramMet x) := by
  simp [Formed, State.sramMet, h]

@[simp] theorem sramErrors_formed (s : State) (h : Formed s) : Formed s.sramErrors :=
  forEach_formed (fun x t => sramMet_formed x t) s.soft _ h

/-! ### Ring time (02): the form kept -/

@[simp] theorem issueGrp_formed (q : List DeepOp) (g : Grp) (s : State) (h : Formed s) : Formed (s.issueGrp q g) := by
  simp only [State.issueGrp]
  repeat' split
  all_goals simp [Formed, h]

@[simp] theorem spendBeat_formed (s : State) (h : Formed s) : Formed s.spendBeat := by
  unfold State.spendBeat
  extract_lets b al q all s1 s2 s3 s4 before stk s5
  have hs1 : Formed s1 := (countStarved_still ..).formed h
  have hs2 : Formed s2 := forEach_formed (fun g t => issueGrp_formed q g t) all s1 hs1
  have hs3 : Formed s3 := (forEach_still (fun x t => chargeKit_still ..) al.kits s2).formed hs2
  have hs5 : Formed s5 := (hs3 :)
  split
  · exact transfersGoOn_formed s5 _ hs5
  · exact hs5

@[simp] theorem degrades_formed (s : State) (h : Formed s) : Formed s.degrades := by
  simp [Formed, State.degrades, h]

@[simp] theorem trafficBeat_formed (s : State) (h : Formed s) : Formed s.trafficBeat := by
  simp [Formed, State.trafficBeat, h]

@[simp] theorem runBeat_formed (s : State) (h : Formed s) : Formed s.runBeat := by
  unfold State.runBeat
  extract_lets s1 s2 s3 s4
  have hs1 : Formed s1 := by simp [Formed, s1, h]
  clear_value s1
  have hs2 : Formed s2 := by simp [Formed, s2, hs1]
  clear_value s2
  have hs3 : Formed s3 := by simp [Formed, s3, hs2]
  clear_value s3
  have hs4 : Formed s4 := by simp [Formed, s4, hs3]
  simp [Formed, hs4]

@[simp] theorem beat_formed (s : State) (base : BeatBase) (m : Option Marker) (h : Formed s) :
    Formed (s.beat base m) := by
  simp [Formed, State.beat, h]

@[simp] theorem beatBoundary_formed (s : State) (base : BeatBase) (m : Option Marker) (h : Formed s) :
    Formed (s.beatBoundary base m) := by
  simp [Formed, State.beatBoundary, h]

@[simp] theorem downMode_formed (s : State) (h : Formed s) : Formed s.downMode := by
  simp [Formed, State.downMode, h]

theorem downGo_formed {enterMode : State → State} (hf : ∀ s, Formed s → Formed (enterMode s)) (s : State) (m : Marker)
    (permille : Nat) (h : Formed s) : Formed (s.downGo m permille enterMode) := by
  unfold State.downGo
  extract_lets slip s1 s2
  have hs1 : Formed s1 := hf _ (by simp [Formed, h])
  clear_value s1
  simp [Formed, s2, hs1]

@[simp] theorem downbeat_formed (s : State) (m : Marker) (permille : Nat) (h : Formed s) :
    Formed (s.downbeat m permille) := by
  unfold State.downbeat
  split
  · exact h
  · split
    · dsimp only
      repeat' split
      all_goals simp [Formed, h]
    · split
      · simp [Formed, h]
      · split
        · exact h
        · split
          · exact h
          · exact downGo_formed downMode_formed s m permille h

@[simp] theorem freewheels_formed (s : State) (h : Formed s) : Formed s.freewheels := by
  simp [Formed, State.freewheels, h]

/-! ### Completion of provisional writes (11 R298: the form kept -/

@[simp] theorem completeOne_formed (e : WEntry) (f : Slices) (x : State × Recants) (h : Formed x.1) :
    Formed (State.completeOne e f x).1 := by
  unfold State.completeOne
  extract_lets s p s1 bad weak s2 ecc s3
  have hs1 : Formed s1 := by simp [Formed, s1, s, h]
  clear_value s1
  split
  · split
    · exact outcome_formed _ _ _ hs1
    · have hs3 : Formed s3 := by simp [Formed, s3, s2, hs1]
      clear_value s3
      simp [Formed, hs3]
  · exact outcome_formed _ _ _ hs1

@[simp] theorem logNow_formed (n : Nat) (rs : List LogRec) (s : State) (h : Formed s) : Formed (s.logNow n rs) := by
  induction n generalizing rs s with
  | zero => exact h
  | succ n ih =>
    cases rs with
    | nil => exact h
    | cons r rs =>
      unfold State.logNow
      extract_lets two pad seq bytes s1
      have hs1 : Formed s1 := by simp [Formed, s1, h]
      clear_value s1
      refine ih _ _ ?_
      exact hs1

@[simp] theorem recantRecords_formed (s : State) (rs : Recants) (h : Formed s) : Formed (s.recantRecords rs) := by
  unfold State.recantRecords
  split
  · exact h
  · extract_lets w listed recs s1 s2
    have hs1 : Formed s1 := forEach_formed (fun k t ht => putRecFree_formed _ _ ht) _ s h
    have hs2 : Formed s2 := (logNow_formed _ _ _ hs1 :)
    exact hs2

theorem completeAll_formed (comp : CompOut) (l : List (Nat × WEntry)) (x : State × Recants) (h : Formed x.1) :
    Formed (forEach (fun (e : Nat × WEntry) (y : State × Recants) => State.completeOne e.2 (comp.getD e.1 0) y) l x).1 := by
  induction l generalizing x with
  | nil => exact h
  | cons e l ih => exact ih _ (completeOne_formed e.2 (comp.getD e.1 0) x h)

@[simp] theorem provisional_formed (s : State) (comp : CompOut) (h : Formed s) : Formed (s.provisional comp) := by
  unfold State.provisional
  extract_lets s1 es r done s2
  have hs1 : Formed s1 := by simp [Formed, s1, h]
  clear_value s1
  have hr : Formed r.1 := completeAll_formed comp _ (s1, []) hs1
  clear_value r
  have hs2 : Formed s2 := hr
  exact recantRecords_formed s2 _ hs2

@[simp] theorem finishHolds_formed (s : State) (comp : CompOut) (h : Formed s) : Formed (s.finishHolds comp) := by
  unfold State.finishHolds
  extract_lets s1 es
  have hs1 : Formed s1 := by simp [Formed, s1, h]
  clear_value s1
  refine forEach_formed (fun x t ht => ?_) _ s1 hs1
  exact outcome_formed _ _ _ (by simp [Formed, ht])

@[simp] theorem resetBlocks_formed (s : State) (h : Formed s) : Formed s.resetBlocks :=
  ((abandonRuns_still s).formed h :)

@[simp] theorem fullReset_formed (s : State) (cause : Nat) (m : Mode) (trig : Nat) (h : Formed s) :
    Formed (s.fullReset cause m trig) := by
  simp [Formed, State.fullReset, h]

@[simp] theorem off_formed (s : State) (h : Formed s) : Formed s.off := by simp [Formed, State.off, h]

@[simp] theorem arrive_formed (s : State) (t : Trigger) (h : Formed s) : Formed (s.arrive t) := by
  simp only [State.arrive]
  repeat' split
  all_goals simp [Formed, h]

@[simp] theorem completing_formed (s : State) (t : Trigger) (comp : CompOut) (h : Formed s) :
    Formed (s.completing_ t comp) := by
  simp [Formed, State.completing_, h]

/-! ### Ring control: the form kept -/

@[simp] theorem windowOver_formed (s : State) (r : Ring) (hop inHop : Option (BitVec 4)) (opening step : Bool)
    (h : Formed s) :
    Formed (s.windowOver r hop inHop opening step) := by
  simp [Formed, State.windowOver, h]

@[simp] theorem joinWindow_formed (s : State) (r : Ring) (w : BitVec 10) (mbar : BitVec 32) (hop inHop : Option
    (BitVec 4)) (step : Bool) (h : Formed s) :
    Formed (s.joinWindow r w mbar hop inHop step) := by
  simp [Formed, State.joinWindow, h]

@[simp] theorem leaves_formed (s : State) (r : Ring) (comp : CompOut) (h : Formed s) : Formed (s.leaves r comp) := by
  simp [Formed, State.leaves, h]

@[simp] theorem leaveWindow_formed (s : State) (r : Ring) (node : Node) (w : BitVec 10) (mbar : BitVec 32)
    (hop inHop : Option (BitVec 4)) (comp : CompOut) (h : Formed s) :
    Formed (s.leaveWindow r node w mbar hop inHop comp) := by
  simp [Formed, State.leaveWindow, h]

@[simp] theorem leaveLate_formed (s : State) (r : Ring) (comp : CompOut) (h : Formed s) :
    Formed (s.leaveLate r comp) := by
  simp only [State.leaveLate]
  repeat' split
  all_goals simp [Formed, h]

@[simp] theorem rateResumes_formed (s : State) (m : Marker) (permille : Nat) (badA badB : BitVec 16) (h : Formed s) :
    Formed (s.rateResumes m permille badA badB) := by
  unfold State.rateResumes
  split
  · exact h
  · extract_lets p t
    have hp : Formed p.2 := by
      unfold p
      split <;> simp [Formed, h]
    have ht : Formed t := by simp [Formed, t, h]
    clear_value p t
    split
    · exact h
    · split
      · exact downGo_formed downMode_formed _ _ _ (by simp [Formed, hp])
      · split
        · split <;> simp [Formed, ht]
        · exact h

@[simp] theorem freshRestart_formed (s : State) (r : Ring) (comp : CompOut) (h : Formed s) :
    Formed (s.freshRestart r comp) := by
  simp [Formed, State.freshRestart, h]

/-! ### The Knell (18 R427 to R436): the form kept -/

@[simp] theorem putSummary_formed (s : State) (x : Summary) (body : List Byte) (n : Nat) (h : Formed s) :
    Formed (s.putSummary x body n) := by
  simp [Formed, State.putSummary, h]

@[simp] theorem editSummary_formed (s : State) (x : Summary) (h : Formed s) : Formed (s.editSummary x) := by
  simp [Formed, State.editSummary, h]

@[simp] theorem knellStops_formed (s : State) (comp : CompOut) (h : Formed s) : Formed (s.knellStops comp) := by
  unfold State.knellStops
  extract_lets s1 s2 s3
  have hs1 : Formed s1 := by simp [Formed, s1, h]
  clear_value s1
  have hs3 : Formed s3 := ((forEach_still (fun r t => knellAlert_still ..) bothRings s1).formed hs1 :)
  split
  · exact provisional_formed s3 comp hs3
  · exact hs3

@[simp] theorem knellBegins_formed (s : State) (cause detail : Nat) (comp : CompOut) (h : Formed s) :
    Formed (s.knellBegins cause detail comp) := by
  simp [Formed, State.knellBegins, h]

@[simp] theorem secondCause_formed (s : State) (cause : Nat) (h : Formed s) : Formed (s.secondCause cause) := by
  simp only [State.secondCause]
  repeat' split
  all_goals simp [Formed, h]

@[simp] theorem knellCause_formed (s : State) (c : KnellCause) (given : Nat) (comp : CompOut) (h : Formed s) :
    Formed (s.knellCause c given comp) := by
  simp only [State.knellCause]
  repeat' split
  all_goals simp [Formed, h]

@[simp] theorem knellEnds_formed (s : State) (h : Formed s) : Formed s.knellEnds := by
  simp only [State.knellEnds]
  repeat' split
  all_goals simp [Formed, h]

@[simp] theorem knellCut_formed (s : State) (comp : CompOut) (h : Formed s) : Formed (s.knellCut comp) := by
  simp [Formed, State.knellCut, h]

@[simp] theorem summaryOnly_formed (s : State) (detail : Nat) (h : Formed s) : Formed (s.summaryOnly detail) := by
  simp [Formed, State.summaryOnly, h]

/-! ### Modes (17): the form kept -/

@[simp] theorem putRecTwo_formed (s : State) (r : RecId) (h : Formed s) : Formed (s.putRecTwo r) := by
  simp [Formed, State.putRecTwo, h]

@[simp] theorem tollStart_formed (s : State) (h : Formed s) : Formed s.tollStart := by
  simp [Formed, State.tollStart, h]

@[simp] theorem flushLog_formed (s : State) (h : Formed s) : Formed s.flushLog := by
  simp [Formed, State.flushLog, h]

@[simp] theorem morningParts_formed (s : State) (f : MorningFind) (failA failB : BitVec 19) (h : Formed s) :
    Formed (s.morningParts f failA failB) := by
  unfold State.morningParts
  extract_lets s1 s2 s3 s4 s5 s6 s7
  have hs1 : Formed s1 := by simp [Formed, s1, h]
  have hs2 : Formed s2 := forEach_formed (fun d t ht => by split <;> simp [Formed, ht]) _ s1 hs1
  have hs3 : Formed s3 := forEach_formed (fun d t ht => by split <;> simp [Formed, ht]) _ s2 hs2
  clear_value s3
  simp [Formed, s7, s6, s5, s4, hs3]

@[simp] theorem morningDone_formed (s : State) (f : MorningFind) (h : Formed s) : Formed (s.morningDone f) := by
  unfold State.morningDone
  split
  · exact h
  · extract_lets failA failB failing us s1 s2 toll t s3
    have hs1 : Formed s1 := morningParts_formed _ _ _ _ h
    clear_value s1
    have hlogged : Formed (s1.tollEnd (b2n s.toll.fast) (morningFatal f) us).flushLog := by simp [Formed, hs1]
    have hs3 : Formed s3 := ((faultsAgain_still _).formed hlogged :)
    clear_value s3
    split <;> simp [Formed, hs3]

@[simp] theorem fillDone_formed (s : State) (f : FillFind) (h : Formed s) : Formed (s.fillDone f) := by
  unfold State.fillDone
  split
  · exact h
  · split
    · dsimp only
      repeat' split
      all_goals simp [Formed, h]
    · split
      · exact h
      · simp [Formed, Still, h]

@[simp] theorem snapRestore_formed (s : State) (crcGood : Bool) (h : Formed s) : Formed (s.snapRestore crcGood) := by
  simp only [State.snapRestore]
  repeat' split
  all_goals simp [Formed, h]

@[simp] theorem firstBeat_formed (s : State) (h : Formed s) : Formed s.firstBeat := by
  have hlater : Formed s.recsLater := recsLater_formed s h
  unfold State.firstBeat
  simp [Formed, Still, hlater]

@[simp] theorem restOver_formed (trig slip : Nat) (s : State) (h : Formed s) : Formed (s.restOver trig slip) := by
  simp [Formed, State.restOver, h]

@[simp] theorem runEntry_formed (s : State) (given : Marker) (permille : Nat) (h : Formed s) :
    Formed (s.runEntry given permille) := by
  unfold State.runEntry
  extract_lets m ringA s1 s2
  split
  · exact h
  · split
    · exact firstBeat_formed _ (downGo_formed (restOver_formed _ _) _ _ _ h)
    · have hs1 : Formed s1 := by simp [Formed, s1, h]
      clear_value s1
      have hs2 : Formed s2 := by simp [Formed, s2, hs1]
      exact firstBeat_formed _ (by simp [Formed, hs2])

@[simp] theorem intoRest_formed (s : State) (cause trig : Nat) (h : Formed s) : Formed (s.intoRest cause trig) := by
  simp [Formed, State.intoRest, h]

@[simp] theorem restEntry_formed (s : State) (h : Formed s) : Formed s.restEntry := by
  simp [Formed, State.restEntry, h]

@[simp] theorem fwCloses_formed (s : State) (comp : CompOut) (h : Formed s) : Formed (s.fwCloses comp) := by
  simp [Formed, State.fwCloses, h]

@[simp] theorem fwExpires_formed (s : State) (comp : CompOut) (h : Formed s) : Formed (s.fwExpires comp) := by
  simp only [State.fwExpires]
  repeat' split
  all_goals simp [Formed, h]

@[simp] theorem restExit_formed (s : State) (m : Marker) (permille : Nat) (h : Formed s) :
    Formed (s.restExit m permille) := by
  unfold State.restExit
  split
  · exact firstBeat_formed _ (downGo_formed (restOver_formed _ _) _ _ _ h)
  · exact h

@[simp] theorem restRejoin_formed (s : State) (m : Marker) (h : Formed s) : Formed (s.restRejoin m) := by
  simp [Formed, State.restRejoin, h]

@[simp] theorem saveScrub_formed (s : State) (h : Formed s) : Formed s.saveScrub := by
  simp [Formed, State.saveScrub, h]

@[simp] theorem eveningToll_formed (s : State) (f : EveningFind) (h : Formed s) : Formed (s.eveningToll f) := by
  unfold State.eveningToll
  split
  · split
    · exact h
    · extract_lets fails tal s1 s2 s3 toll s4
      have hs1 : Formed s1 := by simp [Formed, s1, h]
      clear_value s1
      have hs2 : Formed s2 := by simp [Formed, s2, hs1]
      clear_value s2
      have hs4 : Formed s4 := by simp [Formed, s4, s3, hs2]
      split
      · exact (fatal_still ..).formed hs4
      · exact hs4
  · exact h

@[simp] theorem eveningDone_formed (s : State) (h : Formed s) : Formed s.eveningDone := by
  simp only [State.eveningDone]
  repeat' split
  all_goals simp [Formed, h]

@[simp] theorem arriveAt_formed (s : State) (t : Trigger) (h : Formed s) : Formed (s.arriveAt t) := by
  simp only [State.arriveAt]
  repeat' split
  all_goals simp [Formed, h]

@[simp] theorem resetBy_formed (s : State) (t : Trigger) (comp : CompOut) (h : Formed s) :
    Formed (s.resetBy t comp) := by
  simp [Formed, State.resetBy, h]

@[simp] theorem completionEnds_formed (s : State) (h : Formed s) : Formed s.completionEnds := by
  simp only [State.completionEnds]
  repeat' split
  all_goals simp [Formed, h]

@[simp] theorem resetNLow_formed (s : State) (comp : CompOut) (h : Formed s) : Formed (s.resetNLow comp) := by
  simp only [State.resetNLow]
  repeat' split
  all_goals simp [Formed, h]

@[simp] theorem pwrgoodLow_formed (s : State) (comp : CompOut) (h : Formed s) : Formed (s.pwrgoodLow comp) := by
  simp only [State.pwrgoodLow]
  repeat' split
  all_goals simp [Formed, h]

@[simp] theorem vstbyGone_formed (s : State) (comp : CompOut) (h : Formed s) : Formed (s.vstbyGone comp) := by
  simp only [State.vstbyGone]
  repeat' split
  all_goals simp [Formed, h]

@[simp] theorem wakeNLow_formed (s : State) (h : Formed s) : Formed s.wakeNLow := by
  simp only [State.wakeNLow]
  repeat' split
  all_goals simp [Formed, h]

@[simp] theorem i3cResets_formed (s : State) (comp : CompOut) (h : Formed s) : Formed (s.i3cResets comp) := by
  simp only [State.i3cResets]
  repeat' split
  all_goals simp [Formed, h]

@[simp] theorem vstbyUp_formed (s : State) (sbAddr : BitVec 2) (h : Formed s) : Formed (s.vstbyUp sbAddr) := by
  simp [Formed, State.vstbyUp, h]

@[simp] theorem heldExit_formed (s : State) (beatsrc : Bool) (h : Formed s) : Formed (s.heldExit beatsrc) := by
  simp [Formed, State.heldExit, h]

theorem serve_formed {body : Job → State → State} (hbody : ∀ j s, Formed s → Formed (body j s)) (rq : Req) (s : State)
    (h : Formed s) : Formed (s.serve rq body) := by
  unfold State.serve
  split
  · simp [Formed, h]
  · next c hclaim =>
    have hst : Formed c.st := (claim_still hclaim).formed h
    split
    · simp [Formed, hst]
    · split
      · exact hst
      · split
        · simp [Formed, hst]
        · exact hbody _ _ hst

@[simp] theorem gong_formed (s : State) (rq : Req) (comp : CompOut) (h : Formed s) : Formed (s.gong rq comp) := by
  unfold State.gong
  split
  · split
    · exact resetBy_formed _ _ _ h
    · exact h
  · refine serve_formed (fun j t ht => ?_) rq s h
    exact (Job.reply_still ..).formed ht

@[simp] theorem gongFires_formed (s : State) (h : Formed s) : Formed s.gongFires := by
  simp only [State.gongFires]
  repeat' split
  all_goals simp [Formed, h]

theorem i3cBody_formed (j : Job) (s : State) (h : Formed s) : Formed (i3cBody j s) := by
  unfold i3cBody
  split <;> simp [Formed, h]

@[simp] theorem i3cWrite_formed (s : State) (dest : BitVec 7) (bytes : List Byte) (h : Formed s) :
    Formed (s.i3cWrite dest bytes) := by
  unfold State.i3cWrite
  extract_lets n gen fail rq len p body
  have hfail : Formed fail := h
  split
  · exact h
  · split
    · simp [Formed, hfail]
    · split
      · simp [Formed, h]
      · split
        · simp [Formed, hfail]
        · split
          · simp [Formed, hfail]
          · exact serve_formed i3cBody_formed _ _ h

end Sys2Proof.Machine

namespace Sys2Proof.Machine

/-! ### Every command keeps the form of the byte stores -/

/-- Whatever state an outcome goes on in has canonical byte stores. -/
def LeadsFormed (o : Host.Outcome State Fault Refusal) : Prop := ∀ t, o = .next t → Formed t

theorem leadsFormed_next {t : State} (h : Formed t) : LeadsFormed (.next t) := by
  rintro u ⟨⟩
  exact h

theorem leadsFormed_checked {t : State} (wf : Bool) (h : Formed t) :
    LeadsFormed (if wf then .next t else .fault .illFormed) := by
  cases wf
  · rintro u ⟨⟩
  · exact leadsFormed_next h

theorem leadsFormed_request {body : Job → State → State} {wf : Bool} {rq : Req} {s : State}
    (hbody : ∀ j t, Formed t → Formed (body j t)) (h : Formed s) : LeadsFormed (runReq wf rq s body) :=
  leadsFormed_checked wf (serve_formed hbody rq s h)

theorem rangeRequest_formed {f : KPage → State → Option State} (hf : ∀ kp s t, f kp s = some t → Still s t) (j : Job)
    (s : State) (h : Formed s) : Formed (s.rangeRequest j f) := (rangeRequest_still hf s j).formed h

/-- Requests through their service, checked commands through their check, the rest at once. -/
theorem exec_leadsFormed (c : Instr) {s : State} (h : Formed s) : LeadsFormed (exec c s) := by
  cases c
  case place => exact leadsFormed_request (fun j => rangeRequest_formed (fun kp s _ => placeOne_still _ _ kp s) j) h
  case pin => exact leadsFormed_request (fun j => rangeRequest_formed (fun kp s _ => pinOne_still _ _ kp s) j) h
  case read | write | writeMasked | fence | unpin | migrateNow | muffleDeclare | rudLoadStage | rudLoadLoad |
      rudStart | rudStop | rudQuery | belfryRead | belfryWrite | belfrySealPages | belfrySealTest |
      repairQuery | repairApplySpareRow | repairApplySpareColumn | repairApplySpareDie | repairApplySpareLane
      | repairApplyShadowRejoin | repairApplyLaneRejoin | tollRun | tallyCtlStop | tallyCtlRecord |
      tallyCtlStream | tallyCtlFilter | tallyCtlConsent | tallyRead | knellRead | close | restEnter | ping |
      statusQuery | csrRead | csrWrite | barBeatnoLoRead | genTempoStrictWrite | genRestExitWrite |
      barSrcRateWrite | tierSplitRequest | tierKprobeWrite | eventsW1cClear | kitCreate | kitCreateRebind |
      kitDestroy | windowSetSet | windowSetClear | strokeSet =>
    exact leadsFormed_request (fun j t ht => by simp [Formed, Still, ht]) h
  case loop | br | waitu | waitbar | flitReceive | belfryRefreshStep | sensorSample | trainingComplete | enum |
      roster | slotmap | gong | morningTollDone | eveningToll =>
    exact leadsFormed_checked _ (by simp [Formed, h])
  case criticalRecordUpdate =>
    exact leadsFormed_next (portGoes_formed _ (updateRec_formed _ _ _ _ (belSettle_formed s h)))
  all_goals exact leadsFormed_next (by simp [Formed, h])

/-- Settles O58 (the form is the model's own, log 7): the front command keeps each store's form (`exec_leadsFormed`): what
writes no store leaves it alone, and every write of bytes into a canonical store gives a canonical one. -/
theorem stepKeepsTheMemoryForm : Obligations.StepKeepsTheMemoryForm := by
  unfold Obligations.StepKeepsTheMemoryForm
  intro s t hwf hstep
  have hformed : Formed s := (memWf_iff s).1 hwf
  unfold step at hstep
  split at hstep
  · cases hstep
    exact hwf
  · next c rest _ => exact (memWf_iff t).2 (exec_leadsFormed c (s := { s with pending := rest }) hformed t hstep)

end Sys2Proof.Machine

namespace Sys2Proof.Machine

/-! ### Bytes written chunk by chunk (15 R376) -/

theorem cellsWrite_append (m : List Host.Cell) (a : Nat) (xs ys : List Byte) :
    cellsWrite m a (xs ++ ys) = cellsWrite (cellsWrite m a xs) (a + xs.length) ys := by
  induction xs generalizing m a with
  | nil => rfl
  | cons x xs ih =>
    rw [List.cons_append, cellsWrite, ih, cellsWrite, List.length_cons]
    congr 1
    omega

/-- Pieces of bytes, written in order. -/
def writePieces (m : List Host.Cell) (ps : List (Nat × List Byte)) : List Host.Cell :=
  ps.foldl (fun m p => cellsWrite m p.1 p.2) m

theorem writePieces_append (m : List Host.Cell) (ps qs : List (Nat × List Byte)) :
    writePieces m (ps ++ qs) = writePieces (writePieces m ps) qs := List.foldl_append

/-- The pieces at 32-byte boundaries, written in order, are the whole write. -/
theorem writePieces_chunkPieces (m : List Host.Cell) (a : Nat) (bs : List Byte) :
    writePieces m (chunkPieces a bs) = cellsWrite m a bs := by
  have hfirst : ∀ n ≤ chunksOf a bs.length,
      writePieces m ((List.range n).map fun i =>
        (max a (32 * (a / 32 + i)), (bs.drop (max a (32 * (a / 32 + i)) - a)).take
          (min (a + bs.length) (32 * (a / 32 + i + 1)) - max a (32 * (a / 32 + i))))) =
      cellsWrite m a (bs.take (min (a + bs.length) (32 * (a / 32 + n)) - a)) := by
    intro n
    induction n with
    | zero =>
      intro _
      rw [show min (a + bs.length) (32 * (a / 32 + 0)) - a = 0 by omega]
      rfl
    | succ n ih =>
      intro hn
      have hinside : 32 * (a / 32 + n) < a + bs.length := by
        unfold chunksOf at hn
        split at hn
        · omega
        · next hne =>
          have hpos : bs.length ≠ 0 := by simpa using hne
          omega
      rw [List.range_succ, List.map_append, writePieces_append, ih (by omega)]
      have hlen : (bs.take (min (a + bs.length) (32 * (a / 32 + n)) - a)).length =
          max a (32 * (a / 32 + n)) - a := by
        rw [List.length_take]
        omega
      have hjoin := cellsWrite_append m a (bs.take (min (a + bs.length) (32 * (a / 32 + n)) - a))
        ((bs.drop (max a (32 * (a / 32 + n)) - a)).take
          (min (a + bs.length) (32 * (a / 32 + n + 1)) - max a (32 * (a / 32 + n))))
      rw [hlen, show a + (max a (32 * (a / 32 + n)) - a) = max a (32 * (a / 32 + n)) by omega] at hjoin
      refine hjoin.symm.trans (congrArg (cellsWrite m a) ?_)
      rw [show min (a + bs.length) (32 * (a / 32 + n)) - a = max a (32 * (a / 32 + n)) - a by omega, ← List.take_add]
      congr 1
      omega
  refine (hfirst (chunksOf a bs.length) le_rfl).trans (congrArg (cellsWrite m a) (List.take_of_length_le ?_))
  unfold chunksOf
  split
  · next h => simp_all
  · next hne =>
    have hpos : bs.length ≠ 0 := by simpa using hne
    omega

theorem chunkPieces_length (a : Nat) (bs : List Byte) : (chunkPieces a bs).length = chunksOf a bs.length := by
  simp [chunkPieces]

theorem maintSteps_length (cal : Bool) (a : Nat) (bs : List Byte) (fin : Option BelEnd) :
    (maintSteps cal a bs fin).length = chunksOf a bs.length := by
  simp [maintSteps, chunkPieces]

/-- The last chunk write of some bytes ends their operation. -/
theorem maintSteps_last (cal : Bool) (a : Nat) {bs : List Byte} (fin : Option BelEnd) (h : bs ≠ []) :
    ∃ l x, maintSteps cal a bs fin = l ++ [x] ∧ x.fin = fin := by
  have hpieces : chunkPieces a bs ≠ [] := by
    rw [← List.length_pos_iff, chunkPieces_length, chunksOf]
    simp [h]
  obtain ⟨ps, p, hlast⟩ := List.eq_nil_or_concat (chunkPieces a bs) |>.resolve_left hpieces
  rw [List.concat_eq_append] at hlast
  unfold maintSteps
  dsimp only
  rw [hlast, List.length_append, List.length_singleton, List.range_succ, List.zip_append List.length_range, List.map_append]
  exact ⟨_, _, rfl, by simp⟩

/-! ### Frames of critical records (15 Table 15.2, R381) -/

theorem frameRec_length {n : Nat} (gen : Nat) (body : List Byte) (h : 4 ≤ n) : (frameRec n gen body).length = n := by
  simp only [frameRec, List.length_append, List.length_take, List.length_drop, length_leBytes, zeros, List.length_replicate]
  omega

theorem recGood_of_crc (f : List Byte) : recGood (f ++ leBytes 2 (crc16 f).toNat) = true := by
  have hlen : (f ++ leBytes 2 (crc16 f).toNat).length - 2 = f.length := by simp [length_leBytes]
  rw [recGood, hlen, List.take_left, List.drop_left, beq_self_eq_true]

theorem recGood_frameRec (n gen : Nat) (body : List Byte) : recGood (frameRec n gen body) = true := recGood_of_crc _

theorem byteAt_frameRec_type {n : Nat} (gen : Nat) (body : List Byte) (h : 4 ≤ n) :
    byteAt (frameRec n gen body) 0 = byteAt body 0 := by
  obtain ⟨k, rfl⟩ : ∃ k, n = k + 4 := ⟨n - 4, by omega⟩
  cases body with
  | nil => simp [frameRec, byteAt, zeros, List.replicate_succ]
  | cons b bs => simp [frameRec, byteAt, List.take_succ_cons]

theorem byteAt_frameRec_gen {n : Nat} (gen : Nat) (body : List Byte) (h : 4 ≤ n) :
    byteAt (frameRec n gen body) 1 = gen % 256 := by
  obtain ⟨k, rfl⟩ : ∃ k, n = k + 4 := ⟨n - 4, by omega⟩
  cases body with
  | nil => simp [frameRec, byteAt, zeros, List.replicate_succ, leBytes]
  | cons b bs => simp [frameRec, byteAt, List.take_succ_cons, leBytes]

theorem chunksOf_apart {a b n : Nat} (hn : 4 ≤ n) (h : (a + n - 1) / 32 * 32 + 32 ≤ b) :
    4 ≤ n ∧ a / 32 * 32 + 32 * chunksOf a n ≤ b := by
  refine ⟨hn, ?_⟩
  unfold chunksOf
  rw [if_neg (by simpa using (by omega : n ≠ 0))]
  omega

/-- Copy A of a record lies, with its aligned chunks, before copy B; a record has room for its frame. -/
theorem recPlace_apart (r : RecId) : 4 ≤ (recPlace r).2.2 ∧
    (recPlace r).1 / 32 * 32 + 32 * chunksOf (recPlace r).1 (recPlace r).2.2 ≤ (recPlace r).2.1 := by
  cases r
  case key k => exact chunksOf_apart (n := 80) (by decide) (by simp only [recPlace]; omega)
  case recant k => exact chunksOf_apart (n := 16) (by decide) (by simp only [recPlace]; omega)
  case repairPair n =>
    have hn := n.isLt
    exact chunksOf_apart (n := 16) (by decide) (by simp only [recPlace]; omega)
  all_goals decide

/-! ### The port at rest (15 R376) -/

theorem belFree_iff (s : State) : s.belFree = true ↔ s.belActive = true ∧ s.bel.port = [] ∧ s.bel.run = none := by
  simp [State.belFree, and_assoc]

theorem belSettle_paced {s : State} (h : s.belPaced = true) : s.belSettle = s := by simp [State.belSettle, h]

theorem portGoes_idle {s : State} (hport : s.bel.port = []) (h : s.belPaced = true ∨ s.bel.run = none) :
    s.portGoes = s := by
  have hsettle : s.belSettle = s := h.elim belSettle_paced belSettle_idle
  simp [State.portGoes, hsettle, hport, State.portOn]

end Sys2Proof.Machine

namespace Sys2Proof.Machine

/-! ### Chunk writes of a record's copies (15 R377, R381) -/

/-- A chunk write of a record's copy: its bytes or a try that fails, ending at most a copy. -/
def BelStep.copies (x : BelStep) : Prop :=
  (x.put = .again ∨ ∃ a bs, x.put = .data a bs) ∧
    (x.fin = none ∨ (∃ r, x.fin = some (.half r)) ∨ ∃ r, x.fin = some (.record r))

/-- What a chunk write leaves of the Belfry's bytes, where the model tells what it writes. -/
def BelPut.onto (m : List Host.Cell) : BelPut → List Host.Cell
  | .data a bs => cellsWrite m a bs
  | _ => m

/-- From `s` to `t` the Belfry's bytes have become `m`: its port and its queue of records, and the array, are as they were. -/
def CopyWork (m : List Host.Cell) (s t : State) : Prop :=
  t.bel.mem = m ∧ t.bel.recq = s.bel.recq ∧ t.bel.port = s.bel.port ∧ t.bel.run = s.bel.run ∧ t.mram = s.mram

@[simp] theorem keyCopy_bel (s : State) (r : RecId) (second : Bool) : (s.keyCopy r second).bel = s.bel := by
  cases r <;> rfl

@[simp] theorem keyCopy_mram (s : State) (r : RecId) (second : Bool) : (s.keyCopy r second).mram = s.mram := by
  cases r <;> rfl

theorem belNow_copyWork {x : BelStep} (h : x.copies) (s : State) : CopyWork (x.put.onto s.bel.mem) s (s.belNow x) := by
  obtain ⟨house, cal, put, fin⟩ := x
  obtain ⟨hput, hfin⟩ := h
  dsimp only at hput hfin
  have hpaid : ∃ stk kits, (if house then s.chargeKit 0 1 else s.chargeMaint 1) = { s with stk := stk, kits := kits } := by
    cases house <;> exact ⟨_, _, rfl⟩
  obtain ⟨stk, kits, hpaid⟩ := hpaid
  have hdone : ∀ t : State, t.bel.mem = s.bel.mem → t.bel.recq = s.bel.recq → t.bel.port = s.bel.port →
      t.bel.run = s.bel.run → t.mram = s.mram → CopyWork (put.onto s.bel.mem) s (t.belPuts put) := by
    intro t hmem hrecq hport hrun hmram
    rcases hput with rfl | ⟨a, bs, rfl⟩
    · exact ⟨hmem, hrecq, hport, hrun, hmram⟩
    · exact ⟨congrArg (cellsWrite · a bs) hmem, hrecq, hport, hrun, hmram⟩
  obtain ⟨hmem, hrecq, hport, hrun, hmram⟩ := hdone { s with stk := stk, kits := kits } rfl rfl rfl rfl rfl
  simp only [State.belNow, hpaid, State.belWritten]
  rcases hfin with rfl | ⟨r, rfl⟩ | ⟨r, rfl⟩
  · exact ⟨hmem, hrecq, hport, hrun, hmram⟩
  · simp [CopyWork, State.belEnds, hmem, hrecq, hport, hrun, hmram]
  · simp [CopyWork, State.belEnds, hmem, hrecq, hport, hrun, hmram]

theorem forEach_copyWork {l : List BelStep} (h : ∀ x ∈ l, x.copies) (s : State) :
    CopyWork (l.foldl (fun m x => x.put.onto m) s.bel.mem) s (forEach State.belNow l s) := by
  induction l generalizing s with
  | nil => exact ⟨rfl, rfl, rfl, rfl, rfl⟩
  | cons x xs ih =>
    obtain ⟨hmem, hrecq, hport, hrun, hmram⟩ := belNow_copyWork (h x List.mem_cons_self) s
    obtain ⟨hmem', hrecq', hport', hrun', hmram'⟩ := ih (fun y hy => h y (List.mem_cons_of_mem x hy)) (s.belNow x)
    refine ⟨hmem'.trans ?_, hrecq'.trans hrecq, hport'.trans hport, hrun'.trans hrun, hmram'.trans hmram⟩
    rw [hmem, List.foldl_cons]

theorem maintSteps_copies {cal : Bool} {a : Nat} {bs : List Byte} {fin : BelEnd} {x : BelStep}
    (hfin : (∃ r, fin = .half r) ∨ ∃ r, fin = .record r) (h : x ∈ maintSteps cal a bs (some fin)) (house : Bool) :
    BelStep.copies { x with house := house } := by
  obtain ⟨y, _, rfl⟩ := List.mem_map.1 h
  refine ⟨.inr ⟨_, _, rfl⟩, ?_⟩
  dsimp only
  split
  · rcases hfin with ⟨r, rfl⟩ | ⟨r, rfl⟩
    · exact .inr (.inl ⟨r, rfl⟩)
    · exact .inr (.inr ⟨r, rfl⟩)
  · exact .inl rfl

theorem maintSteps_onto (cal : Bool) (a : Nat) (bs : List Byte) (fin : Option BelEnd) (house : Bool) (m : List Host.Cell) :
    ((maintSteps cal a bs fin).map fun x => { x with house := house }).foldl (fun m x => x.put.onto m) m =
      cellsWrite m a bs := by
  rw [← writePieces_chunkPieces m a bs]
  unfold maintSteps writePieces
  rw [List.foldl_map, List.foldl_map]
  have hzip := List.map_snd_zip (l₁ := List.range (chunkPieces a bs).length) (l₂ := chunkPieces a bs) (by simp)
  conv_rhs => rw [← hzip, List.foldl_map]
  rfl

/-! ### CRITICAL_RECORD_UPDATE (15 R381) -/

/-- The house kit pays for a wrapped key (07 R186, R188). -/
def recHoused : RecId → Bool
  | .key _ => true
  | _ => false

/-- The frame that an update of a record writes: the next generation, TYPE and body, and a good CRC. -/
def State.nextFrame (s : State) (r : RecId) (body : List Byte) : List Byte :=
  frameRec (recPlace r).2.2 ((s.bel.genOf r + 1) % 256) body

/-- The first record off the queue. -/
def State.dequeued (s : State) : State := { s with bel := { s.bel with recq := s.bel.recq.drop 1 } }

/-- The chunk writes of an update: copy A, and then copy B. -/
def State.copySteps (s : State) (r : RecId) (body : List Byte) : List BelStep :=
  ((maintSteps false (recPlace r).1 (s.nextFrame r body) (some (.half r))).map fun x => { x with house := recHoused r }) ++
    ((maintSteps false (recPlace r).2.1 (s.nextFrame r body) (some (.record r))).map fun x => { x with house := recHoused r })

/-- The tries of an update whose copy A fails. -/
def failedCopySteps (r : RecId) : List BelStep :=
  let n := chunksOf (recPlace r).1 (recPlace r).2.2
  let a := (recPlace r).1 / 32 * 32
  List.replicate n ⟨recHoused r, false, .again, none⟩ ++
    [⟨false, false, .again, none⟩, ⟨false, false, .undefined a (32 * n), some (.recordFails r a)⟩]

section
variable {s : State} {r : RecId} (body : List Byte)

theorem updateRec_other (good : Bool) (h : s.bel.recq.head? ≠ some r) : s.updateRec r body good = s := by
  simp [State.updateRec, h]

variable (hfree : s.belFree = true) (hhead : s.bel.recq.head? = some r)
include hfree hhead

theorem updateRec_good : s.updateRec r body true = s.dequeued.belStart (s.copySteps r body) := by
  unfold State.updateRec
  rw [if_neg (by simp [hfree, hhead])]
  dsimp only
  rw [if_pos rfl]
  refine congrArg s.dequeued.belStart ?_
  unfold State.copySteps State.nextFrame
  cases r <;> rfl

theorem updateRec_fails : s.updateRec r body false = s.dequeued.belStart (failedCopySteps r) := by
  unfold State.updateRec
  rw [if_neg (by simp [hfree, hhead])]
  dsimp only
  rw [if_neg Bool.false_ne_true]
  refine congrArg s.dequeued.belStart ?_
  rw [failedCopySteps, List.map_replicate]
  cases r <;> rfl

end

theorem belStart_paced {s : State} {l : List BelStep} (hl : l ≠ []) (hpaced : s.belPaced = true) (hrun : s.bel.run = none) :
    s.belStart l = { s with bel := { s.bel with run := some ⟨l, s.nextEnt⟩ } } := by
  simp [State.belStart, hl, hpaced, hrun]

theorem belStart_unpaced {s : State} {l : List BelStep} (hpaced : s.belPaced = false) :
    s.belStart l = forEach State.belNow l s := by
  unfold State.belStart
  split
  · next h =>
    rw [List.isEmpty_iff.1 h]
    rfl
  · rw [if_neg (by simp [hpaced])]

theorem copySteps_copies {s : State} {r : RecId} {body : List Byte} {x : BelStep} (h : x ∈ s.copySteps r body) :
    x.copies := by
  rcases List.mem_append.1 h with h | h
  · obtain ⟨y, hy, rfl⟩ := List.mem_map.1 h
    exact maintSteps_copies (.inl ⟨r, rfl⟩) hy _
  · obtain ⟨y, hy, rfl⟩ := List.mem_map.1 h
    exact maintSteps_copies (.inr ⟨r, rfl⟩) hy _

/-- Both copies written, one after the other. -/
theorem copySteps_onto (s : State) (r : RecId) (body : List Byte) (m : List Host.Cell) :
    (s.copySteps r body).foldl (fun m x => x.put.onto m) m =
      cellsWrite (cellsWrite m (recPlace r).1 (s.nextFrame r body)) (recPlace r).2.1 (s.nextFrame r body) := by
  rw [State.copySteps, List.foldl_append, maintSteps_onto, maintSteps_onto]

theorem nextFrame_length (s : State) (r : RecId) (body : List Byte) : (s.nextFrame r body).length = (recPlace r).2.2 :=
  frameRec_length _ _ (recPlace_apart r).1

/-- After both copies are written each reads back as the frame. -/
theorem copyOf_written {b : Bel} {r : RecId} {f : List Byte} {m : List Host.Cell} (hwf : cellsWf m = true)
    (hlen : f.length = (recPlace r).2.2)
    (hmem : b.mem = cellsWrite (cellsWrite m (recPlace r).1 f) (recPlace r).2.1 f) :
    b.copyOf r false = f ∧ b.copyOf r true = f := by
  obtain ⟨hroom, hapart⟩ := recPlace_apart r
  have hbefore : (recPlace r).1 + (recPlace r).2.2 ≤ (recPlace r).2.1 := by
    rw [chunksOf, if_neg (by simpa using (by omega : (recPlace r).2.2 ≠ 0))] at hapart
    omega
  have hwfA := cellsWf_write (recPlace r).1 f hwf
  constructor
  · have hA := cellsRead_write (recPlace r).1 f hwf
    rw [hlen] at hA
    refine (cellsRead_congr (a := (recPlace r).1) fun x _ hx => ?_).trans hA
    rw [hmem]
    exact cellGet_write_outside _ _ _ hwfA (.inl (by omega))
  · have hB := cellsRead_write (recPlace r).2.1 f hwfA
    rw [hlen, ← hmem] at hB
    exact hB

end Sys2Proof.Machine

namespace Sys2Proof.Machine

/-! ### A record that is updated (15 R381) -/

theorem forEach_append {α σ : Type} (f : α → σ → σ) (l m : List α) (s : σ) :
    forEach f (l ++ m) s = forEach f m (forEach f l s) := by
  simp only [forEach_eq_foldl, List.foldl_append]

theorem log_keeps (b : Bel) (x : LogRec) : (b.log x).recq = b.recq ∧ (b.log x).port = b.port ∧ (b.log x).run = b.run ∧
    (b.log x).recAbsent = b.recAbsent := by
  unfold Bel.log
  split <;> exact ⟨rfl, rfl, rfl, rfl⟩

theorem chargeKit_wipe (s : State) (i : Kit) (n : Nat) (k : Kit) : ((s.chargeKit i n).kit k).wipe = (s.kit k).wipe := by
  by_cases h : i = k
  · subst h
    exact (congrArg KitSt.wipe (kit_setKit s i { s.kit i with spent := up32 (s.kit i).spent n }) :)
  · exact (congrArg KitSt.wipe (kit_setKit_of_ne s i k _ h) :)

/-- Tries that fail leave the Belfry's bytes and every Kit's key as they are. -/
theorem forEach_again {l : List BelStep} (h : ∀ x ∈ l, x.put = .again ∧ x.fin = none) (s : State) :
    CopyWork s.bel.mem s (forEach State.belNow l s) ∧
      ∀ k, ((forEach State.belNow l s).kit k).wipe = (s.kit k).wipe := by
  induction l generalizing s with
  | nil => exact ⟨⟨rfl, rfl, rfl, rfl, rfl⟩, fun _ => rfl⟩
  | cons x xs ih =>
    obtain ⟨hput, hfin⟩ := h x List.mem_cons_self
    obtain ⟨hmem, hrecq, hport, hrun, hmram⟩ := belNow_copyWork (x := x) ⟨.inl hput, .inl hfin⟩ s
    rw [hput] at hmem
    have hwipe : ∀ k, ((s.belNow x).kit k).wipe = (s.kit k).wipe := by
      intro k
      simp only [State.belNow, State.belWritten, hfin, hput, State.belPuts]
      split
      · exact chargeKit_wipe s 0 1 k
      · rfl
    obtain ⟨⟨hmem', hrecq', hport', hrun', hmram'⟩, hwipe'⟩ :=
      ih (fun y hy => h y (List.mem_cons_of_mem x hy)) (s.belNow x)
    exact ⟨⟨hmem'.trans hmem, hrecq'.trans hrecq, hport'.trans hport, hrun'.trans hrun, hmram'.trans hmram⟩,
      fun k => (hwipe' k).trans (hwipe k)⟩

theorem updateLost_kept {s : State} {r : RecId} (h : ∀ k, r = .key k → (s.kit k).wipe ≠ .under) : s.updateLost r = s := by
  unfold State.updateLost
  split
  · next k => rw [if_neg (by simpa using h k rfl)]
  · rfl

/-- Where copy A of a record is given up: its aligned chunks take free values. -/
theorem belNow_recordFails {s : State} {a n : Nat} {r : RecId} (h : ∀ k, r = .key k → (s.kit k).wipe ≠ .under) :
    ∃ t, s.belNow ⟨false, false, .undefined a n, some (.recordFails r a)⟩ = t ∧ t.bel.recq = s.bel.recq ∧
      t.bel.port = s.bel.port ∧ t.bel.run = s.bel.run ∧ t.mram = s.mram ∧
      t.bel.mem = cellsWrite s.bel.mem a (freeBytes s.free n) := by
  have hkept (u : State) (hu : u.kits = s.kits) : u.updateLost r = u :=
    updateLost_kept fun k hk hw => h k hk (by rwa [State.kit, hu] at hw)
  simp only [State.belNow, State.belWritten, State.belPuts, State.belEnds, Bool.false_eq_true, if_false]
  rw [hkept]
  case hu => rfl
  unfold State.logRec
  generalize LogRec.mk _ _ _ _ none = rec_
  obtain ⟨hrecq, hport, hrun, -⟩ := log_keeps (((s.chargeMaint 1).belPut a (freeBytes s.free n) 1).spend n).bel rec_
  exact ⟨_, rfl, hrecq, hport, hrun, rfl, log_mem _ rec_⟩

/-- The tries of a failed update, and the chunks of copy A that it then gives up, which lie before copy B. -/
theorem failedCopySteps_eq (r : RecId) : ∃ tries a n,
    failedCopySteps r = tries ++ [⟨false, false, .undefined a n, some (.recordFails r a)⟩] ∧
      (∀ x ∈ tries, x.put = .again ∧ x.fin = none) ∧ a ≤ (recPlace r).1 ∧ a + n ≤ (recPlace r).2.1 := by
  refine ⟨List.replicate (chunksOf (recPlace r).1 (recPlace r).2.2) ⟨recHoused r, false, .again, none⟩ ++
    [⟨false, false, .again, none⟩], (recPlace r).1 / 32 * 32, 32 * chunksOf (recPlace r).1 (recPlace r).2.2,
    by rw [List.append_assoc]; rfl, fun x hx => ?_, Nat.div_mul_le_self _ 32, (recPlace_apart r).2⟩
  rcases List.mem_append.1 hx with hx | hx
  · obtain rfl := List.eq_of_mem_replicate hx
    exact ⟨rfl, rfl⟩
  · obtain rfl := List.mem_singleton.1 hx
    exact ⟨rfl, rfl⟩

section
variable {s : State} {r : RecId} (body : List Byte) (hfree : s.belFree = true)
include hfree

theorem exec_criticalRecordUpdate (good : Bool) :
    exec (.criticalRecordUpdate r body good) s = .next (s.updateRec r body good).portGoes := by
  change Host.Outcome.next (s.belSettle.updateRec r body good).portGoes = _
  rw [belSettle_idle ((belFree_iff s).1 hfree).2.2]

variable (hhead : s.bel.recq.head? = some r)
include hhead

/-- Outside ring time both copies are written at once. -/
theorem update_unpaced (hpaced : s.belPaced = false) : ∃ t, exec (.criticalRecordUpdate r body true) s = .next t ∧
    t.bel.recq = s.bel.recq.drop 1 ∧ t.mram = s.mram ∧
    t.bel.mem = cellsWrite (cellsWrite s.bel.mem (recPlace r).1 (s.nextFrame r body)) (recPlace r).2.1 (s.nextFrame r body) := by
  obtain ⟨-, hport, hrun⟩ := (belFree_iff s).1 hfree
  obtain ⟨hmem, hrecq, hport', hrun', hmram⟩ :=
    forEach_copyWork (l := s.copySteps r body) (fun _ => copySteps_copies) s.dequeued
  have hexec := exec_criticalRecordUpdate body hfree (r := r) true
  rw [updateRec_good body hfree hhead, belStart_unpaced (s := s.dequeued) hpaced,
    portGoes_idle (hport'.trans hport) (.inr (hrun'.trans hrun))] at hexec
  exact ⟨_, hexec, hrecq, hmram, hmem.trans (copySteps_onto ..)⟩

/-- In ring time the chunk writes wait for the Beats that fund them. -/
theorem update_paced (hpaced : s.belPaced = true) : ∃ t, exec (.criticalRecordUpdate r body true) s = .next t ∧
    t.bel.recq = s.bel.recq.drop 1 ∧ t.bel.run = some ⟨s.copySteps r body, s.nextEnt⟩ ∧ SameStores s t := by
  obtain ⟨-, hport, hrun⟩ := (belFree_iff s).1 hfree
  have hlen := nextFrame_length s r body
  have hroom := (recPlace_apart r).1
  have hne : s.copySteps r body ≠ [] := by
    intro h
    have hsteps := congrArg List.length h
    simp only [State.copySteps, List.length_append, List.length_map, maintSteps_length, hlen, chunksOf, List.length_nil] at hsteps
    rw [if_neg (by simpa using (by omega : (recPlace r).2.2 ≠ 0))] at hsteps
    omega
  have hexec := exec_criticalRecordUpdate body hfree (r := r) true
  rw [updateRec_good body hfree hhead, belStart_paced (s := s.dequeued) hne hpaced hrun] at hexec
  exact ⟨_, hexec.trans (congrArg _ (portGoes_idle hport (.inl hpaced))), rfl, rfl, sameStores_of_eq rfl rfl rfl⟩

/-- Where copy A fails outside ring time its chunks are undefined, and copy B is left. -/
theorem update_fails (hpaced : s.belPaced = false) (hwf : cellsWf s.bel.mem = true)
    (hkey : ∀ k, r = .key k → (s.kit k).wipe ≠ .under) : ∃ t, exec (.criticalRecordUpdate r body false) s = .next t ∧
    t.bel.recq = s.bel.recq.drop 1 ∧ t.mram = s.mram ∧ t.bel.copyOf r true = s.bel.copyOf r true := by
  obtain ⟨-, hport, hrun⟩ := (belFree_iff s).1 hfree
  obtain ⟨tries, a, n, hsteps, htries, hplace, hlen⟩ := failedCopySteps_eq r
  obtain ⟨⟨hmem, hrecq, hport', hrun', hmram⟩, hwipe⟩ := forEach_again htries s.dequeued
  have hexec := exec_criticalRecordUpdate body hfree (r := r) false
  rw [updateRec_fails body hfree hhead, belStart_unpaced (s := s.dequeued) hpaced, hsteps,
    forEach_append] at hexec
  generalize forEach State.belNow tries s.dequeued = u at *
  obtain ⟨v, hv, hvrecq, hvport, hvrun, hvmram, hvmem⟩ := belNow_recordFails (s := u) (a := a) (n := n) (r := r)
    fun k hk h => hkey k hk ((hwipe k).symm.trans h)
  rw [forEach, forEach, hv,
    portGoes_idle (hvport.trans (hport'.trans hport)) (.inr (hvrun.trans (hrun'.trans hrun)))] at hexec
  refine ⟨v, hexec, hvrecq.trans hrecq, hvmram.trans hmram, ?_⟩
  refine cellsRead_congr (a := (recPlace r).2.1) fun x hx _ => ?_
  rw [hvmem, hmem]
  exact cellGet_write_outside _ _ _ hwf (.inr (by rw [freeBytes_length]; omega))

end

/-- The last chunk write of an update ends it. -/
theorem copySteps_last (s : State) (r : RecId) (body : List Byte) :
    ((s.copySteps r body).getLast?.bind BelStep.fin) = some (.record r) := by
  have hne : s.nextFrame r body ≠ [] := by
    rw [← List.length_pos_iff, nextFrame_length]
    have hroom := (recPlace_apart r).1
    omega
  obtain ⟨l, x, hsteps, hfin⟩ := maintSteps_last false (recPlace r).2.1 (some (.record r)) hne
  simp [State.copySteps, hsteps, hfin]

/-! ### A record that is read (15 R381) -/

section
variable {s : State} {r : RecId} (hfree : s.belFree = true)
include hfree

theorem exec_criticalRecordRead : exec (.criticalRecordRead r) s = .next (s.readRec false r).portGoes := by
  change Host.Outcome.next (if s.belSettle.belFree then (s.belSettle.readRec false r).portGoes else s.belSettle) = _
  rw [belSettle_idle ((belFree_iff s).1 hfree).2.2, if_pos hfree]

variable (hgood : recGood (s.bel.copyOf r false) = true)
include hgood

theorem read_equal (hsame : s.bel.copyOf r true = s.bel.copyOf r false) : exec (.criticalRecordRead r) s = .next s := by
  obtain ⟨-, hport, hrun⟩ := (belFree_iff s).1 hfree
  have hread : s.readRec false r = s := by
    simp [State.readRec, hsame, hgood]
  rw [exec_criticalRecordRead hfree, hread, portGoes_idle hport (.inr hrun)]

end

theorem readRec_fixes {s : State} {r : RecId} (hgood : recGood (s.bel.copyOf r false) = true)
    (hbad : recGood (s.bel.copyOf r true) = false) : s.readRec false r = s.fixCopy false r true := by
  simp [State.readRec, hgood, hbad]

theorem readRec_absent {s : State} {r : RecId} (hA : recGood (s.bel.copyOf r false) = false)
    (hB : recGood (s.bel.copyOf r true) = false) : s.readRec false r = s.recBad r := by
  simp [State.readRec, hA, hB]

theorem cellsRead_length (m : List Host.Cell) (a n : Nat) : (cellsRead m a n).length = n := by
  induction n generalizing a with
  | zero => rfl
  | succ n ih => rw [cellsRead, List.length_cons, ih]

/-- In ring time a bad copy B is rewritten at the port at once. -/
theorem fixCopy_paced {s : State} (r : RecId) (hpaced : s.belPaced = true) (hfree : s.belFree = true) :
    ∃ t, (s.fixCopy false r true).portGoes = t ∧ SameStores s t ∧
      t.bel.run = some ⟨maintSteps false (recPlace r).2.1 (s.bel.copyOf r false) (some .fix), s.nextEnt⟩ := by
  obtain ⟨hactive, hport, hrun⟩ := (belFree_iff s).1 hfree
  have hroom := (recPlace_apart r).1
  have hsteps : maintSteps false (recPlace r).2.1 (s.bel.copyOf r false) (some .fix) ≠ [] := by
    intro h
    have hlen := congrArg List.length h
    rw [maintSteps_length, Bel.copyOf, cellsRead_length, chunksOf, if_neg (by simpa using (by omega : (recPlace r).2.2 ≠ 0))] at hlen
    simp at hlen
  have hfix : s.fixCopy false r true = { s with bel := { s.bel with
      port := [.steps (maintSteps false (recPlace r).2.1 (s.bel.copyOf r false) (some .fix))] } } := by
    rw [State.fixCopy, if_pos hpaced, hport]
    rfl
  rw [hfix, State.portGoes, if_pos (by exact hactive), belSettle_paced (by exact hpaced)]
  have hnone : s.bel.run.isSome = false := by rw [hrun]; rfl
  simp only [List.length_singleton, State.portOn, hnone, Bool.false_eq_true, if_false, List.drop_one, List.tail_cons]
  rw [belStart_paced hsteps (by exact hpaced) (by exact hrun)]
  exact ⟨_, rfl, sameStores_of_eq rfl rfl rfl, rfl⟩

/-- Outside it the rewrite waits for Run. -/
theorem fixCopy_unpaced {s : State} {r : RecId} (hpaced : s.belPaced = false) (hnew : r ∉ s.bel.recLater) (second : Bool) :
    s.fixCopy false r second = { s with bel := { s.bel with recLater := s.bel.recLater ++ [r] } } := by
  simp [State.fixCopy, hpaced, hnew]

/-! ### A record both of whose copies are bad (15 R381, Table 15.3) -/

@[simp] theorem keyLost_bel (s : State) (k : Kit) : (s.keyLost k).bel = s.bel := by simp [State.keyLost]

@[simp] theorem absentRec_bel (s : State) (r : RecId) : (s.absentRec r).bel = s.bel := by
  cases r
  case rootWrap =>
    exact forEach_forall (R := fun s t : State => t.bel = s.bel) (fun _ => rfl) (fun _ _ _ hst htu => htu.trans hst)
      (fun k t => keyLost_bel t k) allKits s
  all_goals simp [State.absentRec]

theorem keyLost_keeps_bit {s : State} {i : EvId} {n : Nat} (k : Kit) (h : (s.ev i).bits.getLsbD n = true) :
    ((s.keyLost k).ev i).bits.getLsbD n = true := by
  unfold State.keyLost
  dsimp only
  split
  · exact h
  · rw [notifyKit_ev]
    exact ev_raise_keeps _ _ _ h

theorem absentRec_keeps_bit {s : State} {i : EvId} {n : Nat} (r : RecId) (h : (s.ev i).bits.getLsbD n = true) :
    ((s.absentRec r).ev i).bits.getLsbD n = true := by
  cases r
  case key k => exact keyLost_keeps_bit k h
  case rootWrap =>
    exact forEach_forall (R := fun s t : State => (s.ev i).bits.getLsbD n = true → (t.ev i).bits.getLsbD n = true)
      (fun _ => id) (fun _ _ _ hst htu h => htu (hst h)) (fun k _ => keyLost_keeps_bit k) allKits s h
  case repairPair => exact ev_raise_keeps _ _ _ h
  all_goals exact h

theorem recBad_absent {s : State} {r : RecId} (hnew : r ∉ s.bel.recAbsent) : ((s.recBad r).ev .bel).bits.getLsbD 1 = true ∧
    r ∈ (s.recBad r).bel.recAbsent ∧ (s.recBad r).bel.port = s.bel.port ∧ (s.recBad r).bel.run = s.bel.run := by
  unfold State.recBad
  rw [if_neg (by simpa using hnew)]
  extract_lets arg s1
  obtain ⟨-, hport, hrun, habsent⟩ := log_keeps ((s.spend 1).raise .bel 0x02).bel _
  refine ⟨absentRec_keeps_bit r ?_, ?_⟩
  · change ((((s.spend 1).raise .bel 0x02)).ev .bel).bits.getLsbD 1 = true
    rw [ev_raise_same]
    simp
  · rw [absentRec_bel]
    exact ⟨List.mem_append_right _ (List.mem_singleton_self r), hport, hrun⟩

end Sys2Proof.Machine

namespace Sys2Proof.Machine

/-! ### The event log (15 R382 to R385) -/

theorem LogRec.bytes_length (x : LogRec) (seq : Nat) : (x.bytes seq).length = 16 := by
  simp [LogRec.bytes, length_leBytes]

/-- Where the next log chunk lies. -/
def Bel.logPlace (b : Bel) : Nat := 0x4000 + 16 * (b.seq % 1024)

/-- The bytes of a log chunk with one record: it, and a PAD record. -/
def State.logChunk (s : State) (x : LogRec) : List Byte := x.bytes s.bel.seq ++ s.padRec.bytes (s.bel.seq + 1)

/-- The only record off the queue, and the chunk's slots taken. -/
def State.logTaken (s : State) : State :=
  { s with
    bel := { s.bel with logq := [], logBeat := some s.bar.beatno, seq := (s.bel.seq + 2) % 4096 }, free := s.free + b2n s.tb }

theorem logChunk_length (s : State) (x : LogRec) : (s.logChunk x).length = 32 := by
  simp [State.logChunk, LogRec.bytes_length]

/-- A log chunk is written. -/
theorem belNow_log (s : State) (a : Nat) (bs : List Byte) : ∃ t,
    s.belNow ⟨false, false, .data a bs, some (.log [] 0)⟩ = t ∧ t.bel.mem = cellsWrite s.bel.mem a bs ∧
      t.bel.port = s.bel.port ∧ t.bel.run = s.bel.run ∧ t.bel.logq = s.bel.logq ∧ t.bel.seq = s.bel.seq ∧
      t.mram = s.mram :=
  ⟨_, rfl, rfl, rfl, rfl, rfl, rfl, rfl⟩

/-- A log chunk is given up: LOGDEG and LOGFAIL. -/
theorem belNow_logFails {s : State} (a n : Nat) (hup : s.gen.logdeg = false) : ∃ t,
    s.belNow ⟨false, false, .undefined a n, some (.logFails [] a)⟩ = t ∧ t.gen.logdeg = true ∧
      (t.ev .bel).bits.getLsbD 0 = true ∧ t.bel.port = s.bel.port ∧ t.bel.run = s.bel.run ∧ t.mram = s.mram := by
  refine ⟨_, if_neg (c := s.gen.logdeg = true) (by rw [hup]; exact Bool.false_ne_true), rfl, ?_, rfl, rfl, rfl⟩
  rw [ev_raise_same]
  simp

section
variable {s : State} {x : LogRec} (hlogq : s.bel.logq = [x]) (hlost : s.bel.lostNow = 0) (hrid : x.rid = none)
  (hdone : s.logDone = false) (hfree : s.belFree = true) (hup : s.gen.logdeg = false)
include hlogq hlost hrid hdone hfree hup

theorem exec_eventLogWrite_good : exec (.eventLogWrite true) s = .next
    (s.logTaken.belStart [⟨false, false, .data s.bel.logPlace (s.logChunk x), some (.log [] s.bel.lostNow)⟩]).portGoes := by
  change Host.Outcome.next (s.belSettle.logWrite true) = _
  rw [belSettle_idle ((belFree_iff s).1 hfree).2.2]
  have hrecs : s.nextRecs 2 = ([x], 1) := by simp [State.nextRecs, hlogq, hlost]
  have hwaiters : waiters [x] = [] := by simp [waiters, hrid, List.range_succ]
  simp [State.logWrite, hfree, hup, hlogq, hdone, hrecs, hwaiters, List.range_succ, State.takeRecs]
  rfl

theorem exec_eventLogWrite_fails : exec (.eventLogWrite false) s = .next
    (s.logTaken.belStart [⟨false, false, .again, none⟩, ⟨false, false, .again, none⟩,
      ⟨false, false, .undefined s.bel.logPlace 32, some (.logFails [] s.bel.logPlace)⟩]).portGoes := by
  change Host.Outcome.next (s.belSettle.logWrite false) = _
  rw [belSettle_idle ((belFree_iff s).1 hfree).2.2]
  have hrecs : s.nextRecs 2 = ([x], 1) := by simp [State.nextRecs, hlogq, hlost]
  have hwaiters : waiters [x] = [] := by simp [waiters, hrid, List.range_succ]
  simp [State.logWrite, hfree, hup, hlogq, hdone, hrecs, hwaiters, State.takeRecs]
  rfl

/-- Outside ring time the chunk is written at once. -/
theorem eventLog_unpaced (hpaced : s.belPaced = false) : ∃ t, exec (.eventLogWrite true) s = .next t ∧ t.bel.logq = [] ∧
    t.bel.seq = (s.bel.seq + 2) % 4096 ∧ t.bel.mem = cellsWrite s.bel.mem s.bel.logPlace (s.logChunk x) ∧
    t.mram = s.mram := by
  obtain ⟨-, hport, hrun⟩ := (belFree_iff s).1 hfree
  have hexec := exec_eventLogWrite_good hlogq hlost hrid hdone hfree hup
  obtain ⟨t, ht, hmem, hport', hrun', hlogq', hseq, hmram⟩ := belNow_log s.logTaken s.bel.logPlace (s.logChunk x)
  rw [hlost, belStart_unpaced (s := s.logTaken) hpaced, forEach, forEach, ht,
    portGoes_idle (hport'.trans hport) (.inr (hrun'.trans hrun))] at hexec
  exact ⟨t, hexec, hlogq', hseq, hmem, hmram⟩

/-- In ring time it waits for the Beat that funds it. -/
theorem eventLog_paced (hpaced : s.belPaced = true) : ∃ t, exec (.eventLogWrite true) s = .next t ∧ t.bel.logq = [] ∧
    t.bel.seq = (s.bel.seq + 2) % 4096 ∧
    t.bel.run = some ⟨[⟨false, false, .data s.bel.logPlace (s.logChunk x), some (.log [] 0)⟩], s.nextEnt⟩ ∧ SameStores s t := by
  obtain ⟨-, hport, hrun⟩ := (belFree_iff s).1 hfree
  have hexec := exec_eventLogWrite_good hlogq hlost hrid hdone hfree hup
  rw [hlost, belStart_paced (s := s.logTaken) (List.cons_ne_nil _ _) hpaced hrun] at hexec
  exact ⟨_, hexec.trans (congrArg _ (portGoes_idle hport (.inl hpaced))), rfl, rfl, rfl, sameStores_of_eq rfl rfl rfl⟩

/-- A chunk that fails outside ring time leaves the log degraded. -/
theorem eventLog_fails (hpaced : s.belPaced = false) : ∃ t, exec (.eventLogWrite false) s = .next t ∧ t.gen.logdeg = true ∧
    (t.ev .bel).bits.getLsbD 0 = true ∧ t.mram = s.mram := by
  obtain ⟨-, hport, hrun⟩ := (belFree_iff s).1 hfree
  have hexec := exec_eventLogWrite_fails hlogq hlost hrid hdone hfree hup
  have hagain : ∀ y ∈ List.replicate 2 (⟨false, false, .again, none⟩ : BelStep), y.put = .again ∧ y.fin = none := by
    intro y hy
    obtain rfl := List.eq_of_mem_replicate hy
    exact ⟨rfl, rfl⟩
  obtain ⟨⟨-, -, hport', hrun', hmram⟩, -⟩ := forEach_again hagain s.logTaken
  have hup' : (forEach State.belNow (List.replicate 2 ⟨false, false, .again, none⟩) s.logTaken).gen.logdeg = false := hup
  rw [belStart_unpaced (s := s.logTaken) hpaced,
    show ∀ z : BelStep, [⟨false, false, .again, none⟩, ⟨false, false, .again, none⟩, z] =
      List.replicate 2 ⟨false, false, .again, none⟩ ++ [z] from fun _ => rfl, forEach_append] at hexec
  generalize forEach State.belNow (List.replicate 2 ⟨false, false, .again, none⟩) s.logTaken = u at *
  obtain ⟨t, ht, hdeg, hev, htport, htrun, hmram'⟩ := belNow_logFails (s := u) s.bel.logPlace 32 hup'
  rw [forEach, forEach, ht, portGoes_idle (htport.trans (hport'.trans hport)) (.inr (htrun.trans (hrun'.trans hrun)))] at hexec
  exact ⟨t, hexec, hdeg, hev, hmram'.trans hmram⟩

end

/-- Nothing is written while the port is in use or under LOGDEG. -/
theorem exec_eventLogWrite_idle {s : State} (good : Bool) (hrun : s.bel.run = none)
    (h : s.belFree = false ∨ s.gen.logdeg = true) : exec (.eventLogWrite good) s = .next s := by
  change Host.Outcome.next (s.belSettle.logWrite good) = _
  rw [belSettle_idle hrun, State.logWrite, if_pos (by rcases h with h | h <;> simp [h])]

/-- A record's bytes read back from a chunk that begins with it, and the chunk leaves every other byte. -/
theorem logChunk_read {m : List Host.Cell} (a : Nat) (s : State) (x : LogRec) (hwf : cellsWf m = true) :
    cellsRead (cellsWrite m a (s.logChunk x)) a 16 = x.bytes s.bel.seq ∧
      ∀ b, (b < a ∨ a + 32 ≤ b) → cellGet (cellsWrite m a (s.logChunk x)) b = cellGet m b := by
  refine ⟨?_, fun b hb => cellGet_write_outside a b _ hwf (by rwa [logChunk_length])⟩
  have hread := cellsRead_write a (x.bytes s.bel.seq) hwf
  rw [LogRec.bytes_length] at hread
  rw [State.logChunk, cellsWrite_append]
  refine (cellsRead_congr fun y _ hy => ?_).trans hread
  exact cellGet_write_outside _ _ _ (cellsWf_write a _ hwf) (.inl (by rw [LogRec.bytes_length]; exact hy))

/-! ### The shadow log (15 R385) -/

theorem lostTold_none {s : State} (h : s.bel.lostNow = 0) : s.lostTold = s := by simp [State.lostTold, h]

/-- The chord of the shadow log that takes the next record: its bytes in one of four places. -/
def State.shadowChord (s : State) (x : LogRec) (d : List Byte) : List Byte :=
  d.take (16 * (s.bel.shadowHead % 4)) ++ x.bytes s.bel.seq ++ d.drop (16 * (s.bel.shadowHead % 4) + 16)

/-- From `s` to `t` the record `x`, the only one queued, joined the shadow log: the chord of which the SRAM held the copy `d` is
the held write `e` of maintenance. -/
def ShadowHeld (s t : State) (x : LogRec) (d : List Byte) (e : WEntry) : Prop :=
  t.hold = s.hold ++ [e] ∧ e.maint = true ∧ e.chord = BitVec.ofNat 28 (Config.shadowBase + s.bel.shadowHead / 4) ∧
    e.data = s.shadowChord x d ∧ t.bel.logq = [] ∧ t.bel.shadowHead = (s.bel.shadowHead + 1) % 4096 ∧ SameStores s t

theorem shadowHeld_next {s u : State} {x : LogRec} {d : List Byte} (h : ∃ e, ShadowHeld s u x d e) (r : RecId) :
    ∃ t e, (.next (u.queueRec r) : Host.Outcome State Fault Refusal) = .next t ∧ ShadowHeld s t x d e := by
  obtain ⟨e, he⟩ := h
  obtain ⟨q, hq, -⟩ := queueRec_changes u r
  rw [hq]
  exact ⟨_, e, rfl, he⟩

/-- SHADOW_LOG_WRITE of the only record, into a chord of which the SRAM holds a copy. -/
theorem exec_shadowLogWrite_copy {s : State} {x : LogRec} {d : List Byte} (hlogq : s.bel.logq = [x]) (hlost : s.bel.lostNow = 0)
    (hrid : x.rid = none) (hdone : s.logDone = false) (hdeg : s.gen.logdeg = true) (htraffic : s.mode.traffic = true)
    (hcompleting : s.completing = false)
    (hfits : s.maintFits (s.chordCost (Config.shadowBase + s.bel.shadowHead / 4)) = true)
    (hcopy : s.bel.shadowCopy = some (s.bel.shadowHead / 4, d)) : ∃ t e, exec .shadowLogWrite s = .next t ∧ ShadowHeld s t x d e := by
  have hrecs : s.nextRecs (4 - s.bel.shadowHead % 4) = ([x], 1) := by
    have hroom : 1 ≤ 4 - s.bel.shadowHead % 4 := by omega
    simp [State.nextRecs, hlogq, hlost, List.take_of_length_le, hroom]
  have hwaiters : waiters [x] = [] := by simp [waiters, hrid, List.range_succ]
  have hbase : s.shadowBase (s.bel.shadowHead / 4) = some (some d, s) := by simp [State.shadowBase, hcopy]
  have hdata : d.take (16 * (s.bel.shadowHead % 4)) ++
      (((List.range 1).zip [x]).map fun y => y.2.bytes (s.bel.seq + y.1)).flatten ++
        d.drop (16 * (s.bel.shadowHead % 4) + 16 * 1) = s.shadowChord x d := by
    simp [State.shadowChord, List.range_succ]
  have hlogq' : (s.takeRecs 1).bel.logq = [] := by simp [State.takeRecs, hlogq]
  have htold : (s.takeRecs 1).lostTold = s.takeRecs 1 := lostTold_none hlost
  change ∃ t e, Host.Outcome.next s.shadowWrite = .next t ∧ ShadowHeld s t x d e
  unfold State.shadowWrite
  extract_lets h ch c
  rw [if_neg (by simp [hdeg, hlogq, hdone, htraffic, hcompleting, hfits, c, ch, h]), hbase]
  dsimp only
  rw [hrecs]
  simp only [List.length_singleton, hwaiters, forEach, htold]
  refine shadowHeld_next (s := s) ?_ .deviceState
  exact ⟨_, rfl, rfl, rfl, hdata, hlogq', rfl, sameStores_of_eq rfl rfl rfl⟩

end Sys2Proof.Machine

namespace Sys2Proof.Machine

/-! ### The margin refresh (15 R379) -/

/-- No copy of a critical record lies in the customer area (15 Table 15.1). -/
theorem recPlace_outside (r : RecId) :
    (((recPlace r).1 + (recPlace r).2.2 - 1) / 256 ≤ 127 ∨ 192 ≤ (recPlace r).1 / 256) ∧
      (((recPlace r).2.1 + (recPlace r).2.2 - 1) / 256 ≤ 127 ∨ 192 ≤ (recPlace r).2.1 / 256) := by
  cases r
  case repairPair n =>
    have hn := n.isLt
    simp only [recPlace]
    omega
  all_goals
    simp only [recPlace]
    omega

theorem recsIn_customer {page : Nat} (hlo : 128 ≤ page) (hhi : page ≤ 191) : recsIn page = [] := by
  refine List.filter_eq_nil_iff.2 fun r _ => ?_
  obtain ⟨hA, hB⟩ := recPlace_outside r
  simp only [Bool.or_eq_true, Bool.and_eq_true, decide_eq_true_eq, not_or, not_and]
  omega

/-- A step that found no weak chunk in the customer area ends with nothing more to do. -/
theorem refreshEnds_customer {page : Nat} (s : State) (hlo : 128 ≤ page) (hhi : page ≤ 191) : s.refreshEnds page 0 = s := by
  simp [State.refreshEnds, recsIn_customer hlo hhi, forEach]

theorem chunkList_zero : chunkList 0 = [] := by decide

theorem chunkList_ne_nil {weak : BitVec 8} (h : weak ≠ 0) : chunkList weak ≠ [] := by
  revert weak
  decide

theorem weak_of_still {weak still : BitVec 8} (h : still &&& ~~~ weak = 0) (hweak : weak = 0) : still = 0 := by
  have hall : ~~~ (0 : BitVec 8) = BitVec.allOnes 8 := by decide
  rwa [hweak, hall, BitVec.and_allOnes] at h

/-- The rewrites of a refresh step: each weak chunk with its own bytes. -/
def refreshSteps (page : Nat) (weak still : BitVec 8) : List BelStep :=
  ((List.range (chunkList weak).length).zip (chunkList weak)).map fun x =>
    ⟨false, true, .again, some (if x.1 + 1 == (chunkList weak).length then .refresh page still else .weak)⟩

theorem refreshSteps_length (page : Nat) (weak still : BitVec 8) :
    (refreshSteps page weak still).length = (chunkList weak).length := by simp [refreshSteps]

theorem refreshSteps_again {page : Nat} {weak still : BitVec 8} {x : BelStep} (h : x ∈ refreshSteps page weak still) :
    x.put = .again ∧ x.house = false := by
  obtain ⟨y, _, rfl⟩ := List.mem_map.1 h
  exact ⟨rfl, rfl⟩

theorem refreshSteps_last (page : Nat) {weak : BitVec 8} (still : BitVec 8) (h : weak ≠ 0) :
    ((refreshSteps page weak still).getLast?.bind BelStep.fin) = some (.refresh page still) := by
  obtain ⟨cs, c, hlast⟩ := List.eq_nil_or_concat (chunkList weak) |>.resolve_left (chunkList_ne_nil h)
  rw [List.concat_eq_append] at hlast
  rw [refreshSteps, hlast, List.length_append, List.length_singleton, List.range_succ, List.zip_append List.length_range,
    List.map_append]
  simp

section
variable {s : State} {weak still : BitVec 8} (hstill : still &&& ~~~ weak = 0)
include hstill

theorem exec_belfryRefreshStep : exec (.belfryRefreshStep weak still) s = .next (s.refreshStep weak still) := by
  have hwf : (Instr.belfryRefreshStep weak still).wf = true := by simpa [Instr.wf] using hstill
  exact if_pos hwf

theorem refreshStep_idle (h : s.bel.refreshDue = none ∨ s.belPaced = false ∨ s.belFree = false) :
    exec (.belfryRefreshStep weak still) s = .next s := by
  rw [exec_belfryRefreshStep hstill, State.refreshStep]
  split
  · rfl
  · next t hdue =>
    rw [if_pos (by rcases h with h | h | h <;> simp_all)]

variable {turn : Nat} (hdue : s.bel.refreshDue = some turn) (hpaced : s.belPaced = true) (hfree : s.belFree = true)
include hdue hpaced hfree

theorem refreshStep_strong (hlo : 128 ≤ turn % 256) (hhi : turn % 256 ≤ 191) (hweak : weak = 0) : ∃ t,
    exec (.belfryRefreshStep weak still) s = .next t ∧ t.bel.refreshDue = none ∧ t.bel.run = none ∧
      t.bel.weak = s.bel.weak ∧ t.evs = s.evs ∧ SameStores s t := by
  obtain ⟨-, hport, hrun⟩ := (belFree_iff s).1 hfree
  obtain rfl := weak_of_still hstill hweak
  subst hweak
  rw [exec_belfryRefreshStep hstill, State.refreshStep, hdue]
  dsimp only
  rw [if_neg (by simp [hpaced, hfree]), if_pos (by rw [chunkList_zero]; rfl), refreshEnds_customer _ hlo hhi]
  exact ⟨_, congrArg _ (portGoes_idle hport (.inl hpaced)), rfl, hrun, rfl, rfl, sameStores_of_eq rfl rfl rfl⟩

theorem refreshStep_weak (hweak : weak ≠ 0) : ∃ t, exec (.belfryRefreshStep weak still) s = .next t ∧
    t.bel.refreshDue = none ∧ t.bel.run = some ⟨refreshSteps (turn % 256) weak still, s.nextEnt⟩ ∧ SameStores s t := by
  obtain ⟨-, hport, hrun⟩ := (belFree_iff s).1 hfree
  have hsteps : refreshSteps (turn % 256) weak still ≠ [] := by
    rw [← List.length_pos_iff, refreshSteps_length, List.length_pos_iff]
    exact chunkList_ne_nil hweak
  rw [exec_belfryRefreshStep hstill, State.refreshStep, hdue]
  dsimp only
  rw [if_neg (by simp [hpaced, hfree]), if_neg (by simpa using chunkList_ne_nil hweak)]
  exact ⟨_, congrArg _ (belStart_paced hsteps (by exact hpaced) (by exact hrun)), rfl, rfl, sameStores_of_eq rfl rfl rfl⟩

end

theorem refreshFalls_due {s : State} (hbar : s.bar.beatno / 1024 % 16 = 0) (hbeat : s.bar.beatno % 1024 = 32)
    (hnone : s.bel.refreshDue = none) : s.refreshFalls.bel.refreshDue = some (s.bar.beatno / 1024 / 16) ∧
      s.refreshFalls.bel.refreshDrop = s.bel.refreshDrop := by
  simp [State.refreshFalls, State.beatIx, State.barNo, State.turn, hbar, hbeat, hnone]

/-! ### The statement on the Belfry's records and logs -/

/-- An update outside ring time: both copies are the frame that `nextFrame` says. -/
theorem update_writes_both {s : State} {r : RecId} {rest : List RecId} (body : List Byte) (hwf : cellsWf s.bel.mem = true)
    (hfree : s.belFree = true) (hrecq : s.bel.recq = r :: rest) (hpaced : s.belPaced = false) :
    ∃ t, exec (.criticalRecordUpdate r body true) s = .next t ∧ t.bel.recq = rest ∧
      t.bel.copyOf r true = t.bel.copyOf r false ∧ recGood (t.bel.copyOf r false) = true ∧
      byteAt (t.bel.copyOf r false) 0 = byteAt body 0 ∧
      byteAt (t.bel.copyOf r false) 1 = (s.bel.genOf r + 1) % 256 ∧ t.mram = s.mram := by
  obtain ⟨t, hexec, hleft, hmram, hmem⟩ := update_unpaced body hfree (by rw [hrecq]; rfl) hpaced
  obtain ⟨hA, hB⟩ := copyOf_written hwf (nextFrame_length s r body) hmem
  rw [hrecq] at hleft
  refine ⟨t, hexec, hleft, hB.trans hA.symm, ?_⟩
  rw [hA]
  have hroom := (recPlace_apart r).1
  exact ⟨recGood_frameRec .., byteAt_frameRec_type _ body hroom, (byteAt_frameRec_gen _ body hroom).trans (Nat.mod_mod ..),
    hmram⟩

/-- Settles O53. Records and log chunks outside ring time are written at once (the model's choice, log 64; log 51 for their
charge), and the body of a record is what the command gives, its lengths and places the model's (log 65): an update writes
`nextFrame` into both copies, a read of them is one case of `readRec`, and a log record goes into the next chunk, under LOGDEG
into the next chord of the shadow log. -/
theorem belfryRecordsAndLogs : Obligations.BelfryRecordsAndLogs := by
  unfold Obligations.BelfryRecordsAndLogs
  refine ⟨fun s r body hwf hfree => ?records, fun s x hlogq hlost hrid hdone => ?logs, fun s weak still hstill => ?refresh⟩
  case records =>
    refine ⟨fun rest => update_writes_both body hwf hfree, fun rest hrecq hpaced => ?paced, fun rest hrecq hpaced hkey => ?fails,
      fun good hhead => ?other, read_equal hfree, fun hgood hbad => ⟨fun hpaced => ?fixed, fun hpaced hnew => ?later⟩,
      fun hA hB hnew => ?absent⟩
    case paced =>
      obtain ⟨t, hexec, hleft, hrun, hsame⟩ := update_paced body hfree (by rw [hrecq]; rfl) hpaced
      rw [hrecq] at hleft
      refine ⟨t, _, hexec, hleft, hrun, ?_, copySteps_last s r body, hsame⟩
      simp [State.copySteps, maintSteps_length, nextFrame_length]
    case fails =>
      obtain ⟨t, hexec, hleft, hmram, hcopy⟩ := update_fails body hfree (by rw [hrecq]; rfl) hpaced hwf hkey
      rw [hrecq] at hleft
      exact ⟨t, hexec, hleft, hcopy, hmram⟩
    case other =>
      obtain ⟨-, hport, hrun⟩ := (belFree_iff s).1 hfree
      rw [exec_criticalRecordUpdate body hfree, updateRec_other body good hhead, portGoes_idle hport (.inr hrun)]
    case fixed =>
      obtain ⟨t, ht, hsame, hrun⟩ := fixCopy_paced r hpaced hfree
      rw [exec_criticalRecordRead hfree, readRec_fixes hgood hbad, ht]
      exact ⟨t, rfl, hsame, hrun⟩
    case later =>
      obtain ⟨-, hport, hrun⟩ := (belFree_iff s).1 hfree
      rw [exec_criticalRecordRead hfree, readRec_fixes hgood hbad, fixCopy_unpaced hpaced hnew]
      exact ⟨_, congrArg _ (portGoes_idle hport (.inr hrun)), sameStores_of_eq rfl rfl rfl, rfl⟩
    case absent =>
      obtain ⟨-, hport, hrun⟩ := (belFree_iff s).1 hfree
      obtain ⟨hev, hmem, hport', hrun'⟩ := recBad_absent hnew
      obtain ⟨hmram, hnand, hbel, -⟩ := recBad_still s r
      rw [exec_criticalRecordRead hfree, readRec_absent hA hB, portGoes_idle (hport'.trans hport) (.inr (hrun'.trans hrun))]
      exact ⟨_, rfl, hev, hmem, sameStores_of_eq hmram hnand hbel⟩
  case logs =>
    refine ⟨fun hfree hup hwf hpaced => ?written, fun hfree hup hpaced => ?waits,
      fun hfree hup hpaced => eventLog_fails hlogq hlost hrid hdone hfree hup hpaced,
      fun good hrun h => exec_eventLogWrite_idle good hrun h, fun d hdeg htraffic hcompleting hfits hcopy hlen => ?shadow,
      fun hup => ?up⟩
    case written =>
      obtain ⟨t, hexec, hleft, hseq, hmem, hmram⟩ := eventLog_unpaced hlogq hlost hrid hdone hfree hup hpaced
      obtain ⟨hread, hother⟩ := logChunk_read s.bel.logPlace s x hwf
      exact ⟨t, hexec, hleft, hseq, by rw [hmem]; exact hread, by rw [hmem]; exact hother, hmram⟩
    case waits =>
      obtain ⟨t, hexec, hleft, hseq, hrun, hsame⟩ := eventLog_paced hlogq hlost hrid hdone hfree hup hpaced
      refine ⟨t, _, hexec, hleft, hseq, hrun, logChunk_length s x, ?_, hsame⟩
      rw [State.logChunk, List.take_left' (LogRec.bytes_length x _)]
    case shadow =>
      obtain ⟨t, e, hexec, hhold, hmaint, hchord, hdata, hleft, hhead, hsame⟩ :=
        exec_shadowLogWrite_copy hlogq hlost hrid hdone hdeg htraffic hcompleting hfits hcopy
      have hfront : (d.take (16 * (s.bel.shadowHead % 4))).length = 16 * (s.bel.shadowHead % 4) := by
        rw [List.length_take]
        omega
      refine ⟨t, e, hexec, hhold, hmaint, hchord, ?_, ?_, hleft, hhead, hsame⟩
      · rw [hdata, State.shadowChord, List.append_assoc, List.drop_left' hfront, List.take_left' (LogRec.bytes_length x _)]
      · rw [hdata, State.shadowChord, List.append_assoc, List.take_left' hfront]
    case up =>
      change Host.Outcome.next s.shadowWrite = _
      rw [State.shadowWrite]
      exact congrArg _ (if_pos (by simp [hup]))
  case refresh =>
    refine ⟨refreshFalls_due, fun turn hdue hpaced hfree hlo hhi => ⟨refreshStep_strong hstill hdue hpaced hfree hlo hhi,
      fun hweak => ?_⟩, refreshStep_idle hstill⟩
    obtain ⟨t, hexec, hdone, hrun, hsame⟩ := refreshStep_weak hstill hdue hpaced hfree hweak
    exact ⟨t, _, hexec, hdone, hrun, refreshSteps_length .., fun _ => refreshSteps_again, refreshSteps_last _ still hweak, hsame⟩

end Sys2Proof.Machine

namespace Sys2Proof.Machine

/-! Operations that write bytes, and a few more, leave the mode. -/

/-! ### Provisional writes (11): the mode -/

@[simp] theorem outcome_mode (s : State) (e : WEntry) (failing : Slices) : (s.outcome e failing).mode = s.mode := by
  simp [State.outcome]

@[simp] theorem verifyEntry_mode (s : State) (e : WEntry) (failing : Slices) :
    (s.verifyEntry e failing).mode = s.mode := by
  simp [State.verifyEntry]

/-! ### The Deep tier (10): the mode -/

@[simp] theorem sectorOut_mode (s : State) (y : Kit × KPage × BitVec 4) (loc n : Nat) :
    (s.sectorOut y loc n).mode = s.mode := by
  simp only [State.sectorOut]
  repeat' split
  all_goals simp

@[simp] theorem relocated_mode (s : State) (y : Nat × BitVec 4) (loc : Nat) : (s.relocated y loc).mode = s.mode := by
  simp only [State.relocated]
  repeat' split
  all_goals simp

@[simp] theorem programDone_mode (s : State) (die : Fin 4) (good : Bool) :
    (s.programDone die good).mode = s.mode := by
  simp only [State.programDone]
  repeat' split
  all_goals simp

@[simp] theorem eraseDone_mode (s : State) (die : Fin 4) (good : Bool) : (s.eraseDone die good).mode = s.mode := by
  simp only [State.eraseDone]
  repeat' split
  all_goals simp

@[simp] theorem deepDieFails_mode (s : State) (die : Fin 4) : (s.deepDieFails die).mode = s.mode := by
  unfold State.deepDieFails
  extract_lets x lost map before d mine s1 gone s2 s3
  have hs2 : s2.mode = s.mode := by
    rw [belPut_mode, raise_mode, reserveFalls_mode]
  clear_value s2
  split
  · rfl
  · refine (forEach_mode (fun o t => ?_) mine s3).trans (by simp [s3, hs2])
    split <;> simp

@[simp] theorem dieStalls_mode (s : State) (die : Fin 4) : (s.dieStalls die).mode = s.mode := by
  simp [State.dieStalls]

/-! ### The memory commands (07 R171 to R176) and the steps of provisional writes (11): the mode -/

@[simp] theorem verifyAt_mode (s : State) (ent : Nat) (failing : Slices) :
    (s.verifyAt ent failing).mode = s.mode := by
  simp only [State.verifyAt]
  repeat' split
  all_goals simp

/-! ### The Belfry store (15: the mode -/

@[simp] theorem atPort_mode (s : State) (op : BelOp) : (s.atPort op).mode = s.mode := by simp [State.atPort]

@[simp] theorem belWrite_mode (s : State) (j : Job) : (s.belWrite j).mode = s.mode := by simp [State.belWrite]

@[simp] theorem chunkWrite_mode (s : State) (tries : Nat) (good : Bool) :
    (s.chunkWrite tries good).mode = s.mode := by
  simp only [State.chunkWrite]
  repeat' split
  all_goals simp

@[simp] theorem putRec_mode (s : State) (r : RecId) (body : List Byte) : (s.putRec r body).mode = s.mode := by
  simp [State.putRec]

@[simp] theorem putRecFree_mode (s : State) (r : RecId) : (s.putRecFree r).mode = s.mode := by simp [State.putRecFree]

@[simp] theorem updateRec_mode (s : State) (r : RecId) (body : List Byte) (copyAGood : Bool) :
    (s.updateRec r body copyAGood).mode = s.mode := by
  simp [State.updateRec]

@[simp] theorem logWrite_mode (s : State) (good : Bool) : (s.logWrite good).mode = s.mode := by simp [State.logWrite]

@[simp] theorem refreshStep_mode (s : State) (weak stillWeak : BitVec 8) :
    (s.refreshStep weak stillWeak).mode = s.mode := by
  simp only [State.refreshStep]
  repeat' split
  all_goals simp

@[simp] theorem recsLater_mode (s : State) : s.recsLater.mode = s.mode := by simp [State.recsLater]

/-! ### Repair: the mode -/

@[simp] theorem rewriteUnit_mode (s : State) (t : Transfer) : (s.rewriteUnit t).mode = s.mode := by
  simp [State.rewriteUnit]

/-! ### Tolls (16): the mode -/

@[simp] theorem tollPut_mode (s : State) (slot : Nat) (rs : List (List Byte)) :
    (s.tollPut slot rs).mode = s.mode := by
  simp [State.tollPut]

@[simp] theorem tollEnd_mode (s : State) (src : Nat) (fatal : Bool) (us : Nat) :
    (s.tollEnd src fatal us).mode = s.mode := by
  unfold State.tollEnd
  extract_lets fs n count slot result recs s1 faults before t
  exact (forEach_mode (fun i t => logRec_mode ..) _ _).trans (tollPut_mode ..)

@[simp] theorem tollRunDone_mode (s : State) (fs : List TollFail) (us : Nat) :
    (s.tollRunDone fs us).mode = s.mode := by
  simp only [State.tollRunDone]
  repeat' split
  all_goals simp

@[simp] theorem streamSend_mode (s : State) : s.streamSend.mode = s.mode := by simp [State.streamSend]

/-! ### Completion of provisional writes (11 R298: the mode -/

@[simp] theorem completeOne_mode (e : WEntry) (f : Slices) (x : State × Recants) :
    (State.completeOne e f x).1.mode = x.1.mode := by
  unfold State.completeOne
  extract_lets s p s1 bad weak s2 ecc s3
  have hs1 : s1.mode = x.1.mode := by simp [s1, s]
  clear_value s1
  split
  · split
    · simp [hs1]
    · simp [s3, s2, hs1]
  · simp [hs1]

@[simp] theorem logNow_mode (n : Nat) (rs : List LogRec) (s : State) : (s.logNow n rs).mode = s.mode := by
  have houter := logNow_outer (s := s) (n := n) rs
  simp only [State.outer, Prod.mk.injEq] at houter
  exact houter.1

@[simp] theorem recantRecords_mode (s : State) (rs : Recants) : (s.recantRecords rs).mode = s.mode := by
  have houter := recantRecords_outer s rs
  simp only [State.outer, Prod.mk.injEq] at houter
  exact houter.1

theorem completions_mode (comp : CompOut) (l : List (Nat × WEntry)) (x : State × Recants) :
    (forEach (fun (e : Nat × WEntry) (y : State × Recants) => State.completeOne e.2 (comp.getD e.1 0) y) l x).1.mode =
      x.1.mode := by
  induction l generalizing x with
  | nil => rfl
  | cons e l ih => exact (ih _).trans (completeOne_mode e.2 (comp.getD e.1 0) x)

@[simp] theorem provisional_mode (s : State) (comp : CompOut) : (s.provisional comp).mode = s.mode := by
  unfold State.provisional
  extract_lets s1 es r done s2
  have hs1 : s1.mode = s.mode := by simp [s1]
  clear_value s1
  have hr : r.1.mode = s.mode := (completions_mode comp _ (s1, [])).trans hs1
  clear_value r
  exact (recantRecords_mode s2 _).trans hr

@[simp] theorem finishHolds_mode (s : State) (comp : CompOut) : (s.finishHolds comp).mode = s.mode := by
  simp [State.finishHolds]

@[simp] theorem resetBlocks_mode (s0 : State) : s0.resetBlocks.mode = s0.mode := by simp [State.resetBlocks]

@[simp] theorem completing_mode (s : State) (t : Trigger) (comp : CompOut) :
    (s.completing_ t comp).mode = s.mode := by
  simp [State.completing_]

/-! ### Ring control: the mode -/

@[simp] theorem windowOver_mode (s : State) (r : Ring) (hop inHop : Option (BitVec 4)) (opening step : Bool) :
    (s.windowOver r hop inHop opening step).mode = s.mode := by
  simp [State.windowOver]

@[simp] theorem joinWindow_mode (s : State) (r : Ring) (w : BitVec 10) (mbar : BitVec 32) (hop inHop : Option
    (BitVec 4)) (step : Bool) :
    (s.joinWindow r w mbar hop inHop step).mode = s.mode := by
  simp [State.joinWindow]

@[simp] theorem leaves_mode (s : State) (r : Ring) (comp : CompOut) : (s.leaves r comp).mode = s.mode := by
  simp [State.leaves]

@[simp] theorem leaveWindow_mode (s : State) (r : Ring) (node : Node) (w : BitVec 10) (mbar : BitVec 32)
    (hop inHop : Option (BitVec 4)) (comp : CompOut) :
    (s.leaveWindow r node w mbar hop inHop comp).mode = s.mode := by
  simp [State.leaveWindow]

@[simp] theorem leaveLate_mode (s : State) (r : Ring) (comp : CompOut) : (s.leaveLate r comp).mode = s.mode := by
  simp only [State.leaveLate]
  repeat' split
  all_goals simp

@[simp] theorem freshRestart_mode (s : State) (r : Ring) (comp : CompOut) :
    (s.freshRestart r comp).mode = s.mode := by
  simp [State.freshRestart]

/-! ### The Knell (18 R427 to R436): the mode -/

@[simp] theorem putSummary_mode (s : State) (x : Summary) (body : List Byte) (n : Nat) :
    (s.putSummary x body n).mode = s.mode := by
  simp [State.putSummary]

@[simp] theorem editSummary_mode (s : State) (x : Summary) : (s.editSummary x).mode = s.mode := by
  simp [State.editSummary]

@[simp] theorem knellStops_mode (s : State) (comp : CompOut) : (s.knellStops comp).mode = s.mode := by
  simp [State.knellStops]

@[simp] theorem knellBegins_mode (s : State) (cause detail : Nat) (comp : CompOut) :
    (s.knellBegins cause detail comp).mode = s.mode := by
  simp [State.knellBegins]

@[simp] theorem secondCause_mode (s : State) (cause : Nat) : (s.secondCause cause).mode = s.mode := by
  simp only [State.secondCause]
  repeat' split
  all_goals simp

@[simp] theorem knellCause_mode (s : State) (c : KnellCause) (given : Nat) (comp : CompOut) :
    (s.knellCause c given comp).mode = s.mode := by
  simp only [State.knellCause]
  repeat' split
  all_goals simp

@[simp] theorem knellCut_mode (s : State) (comp : CompOut) : (s.knellCut comp).mode = s.mode := by
  simp [State.knellCut]

/-! ### Modes (17): the mode -/

@[simp] theorem putRecTwo_mode (s : State) (r : RecId) : (s.putRecTwo r).mode = s.mode := by simp [State.putRecTwo]

@[simp] theorem tollStart_mode (s : State) : s.tollStart.mode = s.mode := by simp [State.tollStart]

@[simp] theorem flushLog_mode (s : State) : s.flushLog.mode = s.mode := by
  unfold State.flushLog
  split
  · rfl
  · exact logNow_mode ..

@[simp] theorem morningParts_mode (s : State) (f : MorningFind) (failA failB : BitVec 19) :
    (s.morningParts f failA failB).mode = s.mode := by
  simp [State.morningParts]

@[simp] theorem snapRestore_mode (s : State) (crcGood : Bool) : (s.snapRestore crcGood).mode = s.mode := by
  simp only [State.snapRestore]
  repeat' split
  all_goals simp

@[simp] theorem firstBeat_mode (s : State) : s.firstBeat.mode = s.mode := by simp [State.firstBeat]

@[simp] theorem fwCloses_mode (s : State) (comp : CompOut) : (s.fwCloses comp).mode = s.mode := by
  simp [State.fwCloses]

@[simp] theorem saveScrub_mode (s : State) : s.saveScrub.mode = s.mode := by simp [State.saveScrub]

theorem serve_mode {body : Job → State → State} (hbody : ∀ j s, (body j s).mode = s.mode) (rq : Req) (s : State) :
    (s.serve rq body).mode = s.mode := by
  unfold State.serve
  split
  · simp
  · next c hclaim =>
    have hst : c.st.mode = s.mode := (claim_still hclaim).2.2.2
    split
    · simp [hst]
    · split
      · exact hst
      · split
        · simp [hst]
        · exact (hbody ..).trans hst

theorem i3cBody_mode (j : Job) (s : State) : (i3cBody j s).mode = s.mode := by
  unfold i3cBody
  split <;> simp

@[simp] theorem i3cWrite_mode (s : State) (dest : BitVec 7) (bytes : List Byte) :
    (s.i3cWrite dest bytes).mode = s.mode := by
  unfold State.i3cWrite
  extract_lets n gen fail rq len p body
  split
  · rfl
  · split
    · simp [fail]
    · split
      · simp
      · split
        · simp [fail]
        · split
          · simp [fail]
          · exact serve_mode i3cBody_mode _ _

end Sys2Proof.Machine

namespace Sys2Proof.Machine

/-! ### Commands in Off and in Hibernate (17 R409, R418, R419) -/

/-- The device is in Off or in Hibernate. -/
def State.Dark (s : State) : Prop := s.mode = .off ∨ s.mode = .hibernate

section
variable {s : State} (h : s.Dark)
include h

theorem beat_dark (hcompleting : s.completing = false) (base : BeatBase) (m : Option Marker) :
    (s.beat base m).mode = s.mode := by
  rcases h with h | h <;> simp [State.beat, hcompleting, h, Mode.timed]

theorem beatBoundary_dark (hcompleting : s.completing = false) (base : BeatBase) (m : Option Marker) :
    (s.beatBoundary base m).mode = s.mode := by
  unfold State.beatBoundary
  extract_lets down
  split
  · rfl
  · exact beat_dark h hcompleting base m

theorem downbeat_dark (hcompleting : s.completing = false) (m : Marker) (permille : Nat) :
    (s.downbeat m permille).mode = s.mode := by
  rcases h with h | h <;> simp [State.downbeat, hcompleting, h, Mode.timed]

theorem rateResumes_dark (m : Marker) (permille : Nat) (badA badB : BitVec 16) :
    (s.rateResumes m permille badA badB).mode = s.mode := by
  unfold State.rateResumes
  split
  · rfl
  · rcases h with h | h <;> simp [h, Mode.timed]

theorem freewheels_dark : s.freewheels.mode = s.mode := by
  rcases h with h | h <;> simp [State.freewheels, State.entersFreewheel, h]

theorem switchover_dark (k : UnitKind) : (s.switchover k).mode = s.mode := by
  rcases h with h | h <;>
  · unfold State.switchover
    dsimp only
    repeat' split
    all_goals simp [State.backToRun, h]

theorem resilverOver_dark : s.resilverOver.mode = s.mode := by
  rcases h with h | h <;>
  · unfold State.resilverOver
    dsimp only
    repeat' split
    all_goals simp [State.backToRun, h]

theorem fwExpires_dark (comp : CompOut) : (s.fwExpires comp).mode = s.mode := by
  rcases h with h | h <;> simp [State.fwExpires, h]

theorem morningDone_dark (f : MorningFind) : (s.morningDone f).mode = s.mode := by
  rcases h with h | h <;> simp [State.morningDone, h]

theorem fillDone_dark (f : FillFind) : (s.fillDone f).mode = s.mode := by
  rcases h with h | h <;> simp [State.fillDone, h]

theorem runEntry_dark (m : Marker) (permille : Nat) : (s.runEntry m permille).mode = s.mode := by
  rcases h with h | h <;> simp [State.runEntry, State.joinReady, h]

theorem restEntry_dark : s.restEntry.mode = s.mode := by
  rcases h with h | h <;> simp [State.restEntry, h, Mode.traffic]

theorem restExit_dark (m : Marker) (permille : Nat) : (s.restExit m permille).mode = s.mode := by
  rcases h with h | h <;> simp [State.restExit, h]

theorem restRejoin_dark (m : Marker) : (s.restRejoin m).mode = s.mode := by
  rcases h with h | h <;> simp [State.restRejoin, h]

theorem eveningToll_dark (f : EveningFind) : (s.eveningToll f).mode = s.mode := by
  unfold State.eveningToll
  split
  · rcases h with h | h <;> simp [h, Mode.timed]
  · rfl

theorem eveningDone_dark : s.eveningDone.mode = s.mode := by
  unfold State.eveningDone
  split
  · rcases h with h | h <;> simp [h]
  · rfl

theorem heldExit_dark (beatsrc : Bool) : (s.heldExit beatsrc).mode = s.mode := by
  rcases h with h | h <;> simp [State.heldExit, h]

theorem pwrgoodLow_dark (comp : CompOut) : (s.pwrgoodLow comp).mode = s.mode := by
  rcases h with h | h <;> simp [State.pwrgoodLow, h]

theorem i3cResets_dark (comp : CompOut) : (s.i3cResets comp).mode = s.mode := by
  rcases h with h | h <;> simp [State.i3cResets, h]

theorem heedsGong_dark (rq : Req) : s.heedsGong rq = false := by
  unfold State.heedsGong
  rcases h with h | h <;> split <;> simp [h, Mode.timed]

theorem gong_dark (rq : Req) (comp : CompOut) : (s.gong rq comp).mode = s.mode := by
  unfold State.gong
  rw [heedsGong_dark h]
  split
  · rfl
  · refine serve_mode (fun j t => ?_) rq s
    exact (Job.reply_still j { t with gongDue := some (j.rid, comp) } 0x00 0).2.2.2

end

theorem completionEnds_idle {s : State} (h : s.completing = false) : s.completionEnds = s := by
  simp [State.completionEnds, h]

/-- The commands by which a dark mode is left: standby power in Off; RESET_N, WAKE_N and the loss of standby power in
Hibernate. -/
def wakesFrom (c : Instr) (m : Mode) : Prop :=
  (m = .off ∧ ∃ a, c = .vstbyUp a) ∨
    (m = .hibernate ∧ ((∃ x, c = .resetNAssert x) ∨ c = .wakeNAssert ∨ ∃ held x, c = .vstbyLoss held x))

/-- Whatever state an outcome goes on in, the mode is that of `s`. -/
def LeadsOn (s : State) (o : Host.Outcome State Fault Refusal) : Prop := ∀ t, o = .next t → t.mode = s.mode

theorem leadsOn_next {s t : State} (h : t.mode = s.mode) : LeadsOn s (.next t) := by
  rintro u ⟨⟩
  exact h

theorem leadsOn_checked {s t : State} (wf : Bool) (h : t.mode = s.mode) :
    LeadsOn s (if wf then .next t else .fault .illFormed) := by
  cases wf
  · rintro u ⟨⟩
  · exact leadsOn_next h

theorem leadsOn_request {body : Job → State → State} {wf : Bool} {rq : Req} {s : State}
    (hbody : ∀ j t, (body j t).mode = t.mode) : LeadsOn s (runReq wf rq s body) :=
  leadsOn_checked wf (serve_mode hbody rq s)

theorem exec_leadsOn (c : Instr) {s : State} (h : s.Dark) (hcompleting : s.completing = false) (hgong : s.gongDue = none)
    (hasleep : ¬ wakesFrom c s.mode) : LeadsOn s (exec c s) := by
  have hfires := gongFires_of_none hgong
  cases c
  case place => exact leadsOn_request fun j t => (rangeRequest_still (fun kp s _ => placeOne_still _ _ kp s) t j).2.2.2
  case pin => exact leadsOn_request fun j t => (rangeRequest_still (fun kp s _ => pinOne_still _ _ kp s) t j).2.2.2
  case read | write | writeMasked | fence | unpin | migrateNow | muffleDeclare | rudLoadStage | rudLoadLoad |
      rudStart | rudStop | rudQuery | belfryRead | belfryWrite | belfrySealPages | belfrySealTest |
      repairQuery | repairApplySpareRow | repairApplySpareColumn | repairApplySpareDie | repairApplySpareLane
      | repairApplyShadowRejoin | repairApplyLaneRejoin | tollRun | tallyCtlStop | tallyCtlRecord |
      tallyCtlStream | tallyCtlFilter | tallyCtlConsent | tallyRead | knellRead | close | restEnter | ping |
      statusQuery | csrRead | csrWrite | barBeatnoLoRead | genTempoStrictWrite | genRestExitWrite |
      barSrcRateWrite | tierSplitRequest | tierKprobeWrite | eventsW1cClear | kitCreate | kitCreateRebind |
      kitDestroy | windowSetSet | windowSetClear | strokeSet =>
    exact leadsOn_request fun j t => by simp
  case loop | br | waitu | waitbar | flitReceive | belfryRefreshStep | sensorSample | trainingComplete | enum |
      roster | slotmap =>
    exact leadsOn_checked _ (by simp)
  case gong => exact leadsOn_checked _ (gong_dark h _ _)
  case morningTollDone => exact leadsOn_checked _ (morningDone_dark h _)
  case eveningToll => exact leadsOn_checked _ (eveningToll_dark h _)
  case shadowSwitchover => exact leadsOn_next (switchover_dark h _)
  case resilverSwitchover => exact leadsOn_next (resilverOver_dark h)
  case freewheelEntry => exact leadsOn_next (freewheels_dark h)
  case beatBoundary => exact leadsOn_next (by rw [hfires]; exact beatBoundary_dark h hcompleting _ _)
  case downbeat => exact leadsOn_next (by rw [hfires]; exact downbeat_dark h hcompleting _ _)
  case rateChangeResume => exact leadsOn_next (by rw [hfires]; exact rateResumes_dark h _ _ _ _)
  case restExit => exact leadsOn_next (by rw [hfires]; exact restExit_dark h _ _)
  case freewheelExpiry => exact leadsOn_next (fwExpires_dark h _)
  case fillDone => exact leadsOn_next (fillDone_dark h _)
  case runEntry => exact leadsOn_next (runEntry_dark h _ _)
  case restEntry => exact leadsOn_next (restEntry_dark h)
  case restRejoin => exact leadsOn_next (restRejoin_dark h _)
  case eveningTollDone => exact leadsOn_next (eveningDone_dark h)
  case heldExit => exact leadsOn_next (heldExit_dark h _)
  case pwrgoodFall => exact leadsOn_next (pwrgoodLow_dark h _)
  case i3cReset => exact leadsOn_next (i3cResets_dark h _)
  case completionEnd => exact leadsOn_next (congrArg State.mode (completionEnds_idle hcompleting))
  case vstbyUp a =>
    rcases h with h | h
    · exact absurd (.inl ⟨h, a, rfl⟩) hasleep
    · exact leadsOn_next (by simp [State.vstbyUp, h])
  case resetNAssert comp =>
    rcases h with h | h
    · exact leadsOn_next (by simp [State.resetNLow, h])
    · exact absurd (.inr ⟨h, .inl ⟨comp, rfl⟩⟩) hasleep
  case wakeNAssert =>
    rcases h with h | h
    · exact leadsOn_next (by simp [State.wakeNLow, h])
    · exact absurd (.inr ⟨h, .inr (.inl rfl)⟩) hasleep
  case vstbyLoss held comp =>
    rcases h with h | h
    · exact leadsOn_next (by simp [State.vstbyGone, h])
    · exact absurd (.inr ⟨h, .inr (.inr ⟨held, comp, rfl⟩)⟩) hasleep
  all_goals exact leadsOn_next (by simp)

/-- Settles O59: of every command, `exec_leadsOn` says that a dark mode stays unless the command is one of the four that leave
it. -/
theorem offAndHibernateHold : Obligations.OffAndHibernateHold := by
  unfold Obligations.OffAndHibernateHold
  intro c s t hcompleting _ hgong hexec
  refine ⟨fun hoff hvstby => ?_, fun hhib hreset hwake hloss => ?_⟩
  · refine (exec_leadsOn c (.inl hoff) hcompleting hgong ?_ t hexec).trans hoff
    rintro (⟨-, a, hc⟩ | ⟨hmode, -⟩)
    · exact hvstby a hc
    · rw [hoff] at hmode
      cases hmode
  · refine (exec_leadsOn c (.inr hhib) hcompleting hgong ?_ t hexec).trans hhib
    rintro (⟨hmode, -⟩ | ⟨-, ⟨x, hc⟩ | hc | ⟨held, x, hc⟩⟩)
    · rw [hhib] at hmode
      cases hmode
    · exact hreset x hc
    · exact hwake hc
    · exact hloss held x hc

end Sys2Proof.Machine

namespace Sys2Proof.Machine

/-! ### The array at the Belfry's port and in the Morning Toll -/

theorem forEach_mram {α : Type} {f : α → State → State} (h : ∀ x s, (f x s).mram = s.mram) (l : List α) (s : State) :
    (forEach f l s).mram = s.mram :=
  forEach_forall (R := fun s t => t.mram = s.mram) (fun _ => rfl) 
    (fun s t u (hst : t.mram = s.mram) (htu : u.mram = t.mram) => htu.trans hst) h l s

@[simp] theorem belPuts_mram (s : State) (p : BelPut) : (s.belPuts p).mram = s.mram := by
  cases p <;> simp [State.belPuts]

@[simp] theorem belWritten_mram (s : State) (x : BelStep) : (s.belWritten x).mram = s.mram := by
  simp only [State.belWritten]
  split <;> split <;> simp

@[simp] theorem belNow_mram (s : State) (x : BelStep) : (s.belNow x).mram = s.mram := by simp [State.belNow]

@[simp] theorem belStart_mram (s : State) (l : List BelStep) : (s.belStart l).mram = s.mram := by
  simp [State.belStart, forEach_mram (fun x t => belNow_mram t x)]

@[simp] theorem belSettle_mram (s : State) : s.belSettle.mram = s.mram := by
  simp only [State.belSettle]
  repeat' split
  all_goals simp [forEach_mram (fun x t => belNow_mram t x)]

@[simp] theorem portOn_mram (n : Nat) (s : State) : (s.portOn n).mram = s.mram := by
  induction n generalizing s with
  | zero => rfl
  | succ n ih =>
    simp only [State.portOn]
    repeat' split
    all_goals simp [ih]

@[simp] theorem portGoes_mram (s : State) : s.portGoes.mram = s.mram := by simp [State.portGoes]

@[simp] theorem tollPut_mram (s : State) (slot : Nat) (rs : List (List Byte)) : (s.tollPut slot rs).mram = s.mram := by
  simp [State.tollPut, State.atPort]

@[simp] theorem tollEnd_mram (s : State) (src : Nat) (fatal : Bool) (us : Nat) : (s.tollEnd src fatal us).mram = s.mram := by
  unfold State.tollEnd
  extract_lets fs n count slot result recs s1 faults before t
  exact (forEach_mram (fun i u => (logRec_still u _ _ _).1) _ _).trans (tollPut_mram ..)

@[simp] theorem logNow_mram (n : Nat) (rs : List LogRec) (s : State) : (s.logNow n rs).mram = s.mram := by
  induction n generalizing rs s with
  | zero => rfl
  | succ n ih =>
    cases rs with
    | nil => rfl
    | cons r rs => simp [State.logNow, ih]

@[simp] theorem flushLog_mram (s : State) : s.flushLog.mram = s.mram := by simp [State.flushLog]

@[simp] theorem deepDieFails_mram (s : State) (die : Fin 4) : (s.deepDieFails die).mram = s.mram := by
  unfold State.deepDieFails
  extract_lets x lost map before d mine s1 gone s2 s3
  have hs2 : s2.mram = s.mram := by
    have hfall := (reserveFalls_still s1 gone).1
    rw [belPut_mram, raise_mram, hfall]
  clear_value s2
  split
  · rfl
  · refine (forEach_mram (fun o t => ?_) mine s3).trans (by simp [s3, hs2])
    split <;> simp

@[simp] theorem morningParts_mram (s : State) (f : MorningFind) (failA failB : BitVec 19) :
    (s.morningParts f failA failB).mram = s.mram := by
  unfold State.morningParts
  extract_lets s1 s2 s3 s4 s5 s6 s7
  have hs2 : s2.mram = s1.mram := forEach_mram (fun d t => by split <;> simp) _ _
  have hs3 : s3.mram = s2.mram := forEach_mram (fun d t => by split <;> simp) _ _
  calc (s7.nearRows (s.nearFailed f)).mram
    _ = s3.mram := by simp [s7, s6, s5, s4]
    _ = s1.mram := hs3.trans hs2
    _ = s.mram := by simp [s1]

end Sys2Proof.Machine

namespace Sys2Proof.Machine

/-! ### The Morning Toll's end (13 R392, R394, R395) -/

section
variable {s : State} {f : MorningFind}

/-- Whether a part of this Morning Toll failed, lanes of both rings included. -/
def morningFailed (s : State) (f : MorningFind) : Bool :=
  morningFailing f (eyeFails s.toll.fast f.laneFailA f.eyeA ||| eyeFails s.toll.fast f.laneFailB f.eyeB)

theorem morningFailed_of_fatal (h : f.fatal = true) : morningFailed s f = true := by
  simp [morningFailed, morningFailing, morningFatal, h]

theorem morningFailed_of_fails (h : f.fails ≠ []) : morningFailed s f = true := by
  simp [morningFailed, morningFailing, h]

theorem morningFatal_of_noSensor (h : f.tempExcluded = 0xFFFF) : morningFatal f = true := by
  simp [morningFatal, h]

theorem morningFatal_of_clean (hfatal : f.fatal = false) (hfails : f.fails = []) (htemp : f.tempExcluded = 0) :
    morningFatal f = false := by
  simp [morningFatal, hfatal, hfails, htemp]

/-- Fill is entered with the Toll's result in place, and the array is left alone. -/
theorem morningDone_leads (hmode : s.mode = .morningToll) (hcomp : s.completing = false) :
    ∃ t, s.morningDone f = t ∧ t.mode = .fill ∧ t.toll.lastUs = f.durationUs.toNat ∧
      t.toll.mpass = !morningFailed s f ∧
      t.toll.fatal = (if morningFatal f then some (fatalRec f) else none) ∧
      (morningFailed s f = true → (t.ev .toll).bits.getLsbD 0 = true) ∧ t.mram = s.mram := by
  refine ⟨_, rfl, ?_⟩
  unfold State.morningDone
  rw [if_neg (by simp [hmode, hcomp])]
  extract_lets failA failB failing us s1 s2 before t s3
  have hmram : s3.mram = s.mram := by
    simp [s3, s2, s1]
  have htoll : s3.toll = t := rfl
  have hfailing : morningFailed s f = failing := rfl
  clear_value failing s3
  subst hfailing
  refine ⟨enter_mode .., ?_, ?_, ?_, fun hfail => ?_, ?_⟩
  · split <;> simp [htoll, t, us]
  · split <;> simp [htoll, t]
  · split <;> simp [htoll, t]
  · rw [enter_ev _ _ _ (by decide), if_pos hfail, ev_raise_same]
    simp
  · split <;> simp [hmram]

theorem morningDone_of_mode (hmode : s.mode ≠ .morningToll) : s.morningDone f = s := by
  simp [State.morningDone, hmode]

/-- FromTollToRun, the Morning Toll. -/
theorem morningTollDone_completes (hwf : (Instr.morningTollDone f).wf = true) (hmode : s.mode = .morningToll)
    (hcomp : s.completing = false) :
    ∃ t, exec (.morningTollDone f) s = .next t ∧ t.mode = .fill ∧ t.toll.lastUs = f.durationUs.toNat ∧
      (f.fatal = true → t.toll.fatal ≠ none ∧ t.toll.mpass = false ∧ (t.ev .toll).bits.getLsbD 0 = true) ∧
      (f.tempExcluded = 0xFFFF → t.toll.fatal ≠ none) ∧
      (f.fatal = false → f.fails = [] → f.tempExcluded = 0 → t.toll.fatal = none) ∧
      (f.fails ≠ [] → t.toll.mpass = false) ∧ (∀ a, cellGet t.mram a = cellGet s.mram a) := by
  obtain ⟨t, ht, hfill, hus, hpass, hfatal, hev, hmram⟩ := morningDone_leads (f := f) hmode hcomp
  have hexec : exec (.morningTollDone f) s = .next t := (if_pos hwf).trans (congrArg _ ht)
  refine ⟨t, hexec, hfill, hus, fun h => ⟨?_, ?_, hev (morningFailed_of_fatal h)⟩, fun h => ?_, fun h1 h2 h3 => ?_,
    fun h => ?_, fun a => by rw [hmram]⟩
  · simp [hfatal, morningFatal, h]
  · rw [hpass, morningFailed_of_fatal h, Bool.not_true]
  · simp [hfatal, morningFatal_of_noSensor h]
  · simp [hfatal, morningFatal_of_clean h1 h2 h3]
  · rw [hpass, morningFailed_of_fails h, Bool.not_true]

theorem morningTollDone_elsewhere (hwf : (Instr.morningTollDone f).wf = true) (hmode : s.mode ≠ .morningToll) :
    exec (.morningTollDone f) s = .next s :=
  (if_pos hwf).trans (congrArg _ (morningDone_of_mode hmode))

end

end Sys2Proof.Machine

namespace Sys2Proof.Machine

/-! ### Key records found bad in Fill (08 R219, 15 R381) -/

section
variable {s : State} {f : FillFind} {j k : Kit}

theorem keyLost_kit_same : (s.keyLost k).kit k =
    { s.kit k with keylost := (s.kit k).keylost || (s.kit k).key.present } := by
  unfold State.keyLost
  extract_lets x
  split
  · next hsame =>
    obtain hlost | habsent := Bool.or_eq_true_iff.mp hsame
    · rw [hlost, Bool.true_or, ← hlost]
    · have hpresent : (s.kit k).key.present = false := by simpa [x] using habsent
      rw [hpresent, Bool.or_false]
  · next hnew =>
    have hpresent : x.key.present = true := by simp at hnew; exact hnew.2
    have hkits : ((((s.setKit k { x with keylost := true }).raise (.kit k) 0x04).notifyKit k 0x0102 0).kit k) =
        (s.setKit k { x with keylost := true }).kit k := by simp [State.kit]
    rw [hkits, kit_setKit, show (s.kit k).key.present = true from hpresent, Bool.or_true]

theorem keyLost_kit_of_ne (h : j ≠ k) : (s.keyLost j).kit k = s.kit k := by
  unfold State.keyLost
  extract_lets x
  split
  · rfl
  · have hkits : ((((s.setKit j { x with keylost := true }).raise (.kit j) 0x04).notifyKit j 0x0102 0).kit k) =
        (s.setKit j { x with keylost := true }).kit k := by simp [State.kit]
    rw [hkits, kit_setKit_of_ne _ _ _ _ h]

/-- A record first found absent joins the list, with its event; then what its absence brings. -/
theorem recBad_of_new {r : RecId} (hnew : r ∉ s.bel.recAbsent) :
    ∃ u : State, s.recBad r = u.absentRec r ∧ u.kits = s.kits ∧ u.bel.recAbsent = s.bel.recAbsent ++ [r] := by
  unfold State.recBad
  rw [if_neg (by simpa using hnew)]
  extract_lets arg s1
  obtain ⟨-, -, -, habsent⟩ := log_keeps ((s.spend 1).raise .bel 0x02).bel
    ⟨0x0602, ((s.spend 1).raise .bel 0x02).tb, ((s.spend 1).raise .bel 0x02).logTime, arg % 2 ^ 32, none⟩
  exact ⟨_, rfl, rfl, congrArg (· ++ [r]) habsent⟩

theorem recBad_of_absent {r : RecId} (hold : r ∈ s.bel.recAbsent) : s.recBad r = s := by
  unfold State.recBad
  exact if_pos (by simpa using hold)

theorem kit_of_kits {t : State} (h : t.kits = s.kits) (k : Kit) : t.kit k = s.kit k := by
  simp [State.kit, h]

theorem recBad_key_kit_same (hnew : RecId.key k ∉ s.bel.recAbsent) : (s.recBad (.key k)).kit k =
    { s.kit k with keylost := (s.kit k).keylost || (s.kit k).key.present } := by
  obtain ⟨u, hu, hkits, -⟩ := recBad_of_new hnew
  rw [hu, ← kit_of_kits hkits k]
  exact keyLost_kit_same

theorem recBad_key_kit_of_ne (h : j ≠ k) : (s.recBad (.key j)).kit k = s.kit k := by
  by_cases hold : RecId.key j ∈ s.bel.recAbsent
  · rw [recBad_of_absent hold]
  · obtain ⟨u, hu, hkits, -⟩ := recBad_of_new hold
    rw [hu, ← kit_of_kits hkits k]
    exact keyLost_kit_of_ne h

theorem mem_recAbsent_recBad {x r : RecId} (h : x ∈ (s.recBad r).bel.recAbsent) : x ∈ s.bel.recAbsent ∨ x = r := by
  by_cases hold : r ∈ s.bel.recAbsent
  · rw [recBad_of_absent hold] at h
    exact .inl h
  · obtain ⟨u, hu, -, habsent⟩ := recBad_of_new hold
    rw [hu, absentRec_bel, habsent] at h
    simpa using h

/-! ### The key copies as Fill finds them -/

/-- Kit `k`'s key is present, and lost. -/
def KeyGone (k : Kit) (s : State) : Prop :=
  (s.kit k).live = true ∧ (s.kit k).key.present = true ∧ (s.kit k).keylost = true

/-- Kit `k`'s key is present, and either it is lost or no read has found both its copies bad. -/
def Losable (k : Kit) (s : State) : Prop :=
  (s.kit k).live = true ∧ (s.kit k).key.present = true ∧ ((s.kit k).keylost = true ∨ RecId.key k ∉ s.bel.recAbsent)

theorem KeyGone.losable (h : KeyGone k s) : Losable k s := ⟨h.1, h.2.1, .inl h.2.2⟩

/-- A copy of Kit `k`'s key is stored and was found good. -/
def CopyGood (f : FillFind) (k : Kit) (s : State) : Prop :=
  f.keyA.getLsbD k.val = true ∧ (s.kit k).key.storedA = true ∨ f.keyB.getLsbD k.val = true ∧ (s.kit k).key.storedB = true

theorem unwrap_of_ne (h : j ≠ k) :
    (s.unwrap f j).kit k = s.kit k ∧ (RecId.key k ∈ (s.unwrap f j).bel.recAbsent → RecId.key k ∈ s.bel.recAbsent) := by
  unfold State.unwrap
  extract_lets x a b key s1
  have hs1 : s1.kit k = s.kit k := kit_setKit_of_ne _ _ _ _ h
  split
  · exact ⟨rfl, id⟩
  · split
    · exact ⟨hs1, id⟩
    · refine ⟨(recBad_key_kit_of_ne h).trans hs1, fun hmem => (mem_recAbsent_recBad hmem).resolve_right fun e => ?_⟩
      exact h (RecId.key.inj e).symm

theorem unwrap_lost (hbadA : f.keyA.getLsbD k.val = false) (hbadB : f.keyB.getLsbD k.val = false) (h : Losable k s) :
    KeyGone k (s.unwrap f k) := by
  obtain ⟨hlive, hpresent, hlost⟩ := h
  unfold KeyGone State.unwrap
  extract_lets x a b key s1
  have hs1 : s1.kit k = { x with key := { x.key with goodA := a, goodB := b } } := kit_setKit ..
  have ha : a = false := by simp only [a, hbadA, Bool.false_and]
  have hb : b = false := by simp only [b, hbadB, Bool.false_and]
  rw [if_neg (by simp [x, hlive]), if_neg (by rw [ha, hb]; decide)]
  by_cases hnew : RecId.key k ∈ s1.bel.recAbsent
  · have hwas : x.keylost = true := hlost.resolve_right (not_not_intro hnew)
    rw [recBad_of_absent hnew, hs1]
    exact ⟨hlive, hpresent, hwas⟩
  · have hkey : x.key.present = true := hpresent
    rw [recBad_key_kit_same hnew, hs1]
    exact ⟨hlive, hpresent, by simp [hkey]⟩

theorem unwrap_kept (h : CopyGood f k s) : CopyGood f k (s.unwrap f k) ∧
    ((s.unwrap f k).kit k).keylost = (s.kit k).keylost := by
  unfold State.unwrap
  extract_lets x a b key s1
  have hs1 : s1.kit k = { x with key := { x.key with goodA := a, goodB := b } } := kit_setKit ..
  have hab : (a || b) = true := by
    obtain ⟨hA, hstored⟩ | ⟨hB, hstored⟩ := h
    · simp [a, x, hA, hstored]
    · simp [b, x, hB, hstored]
  split
  · exact ⟨h, rfl⟩
  · rw [CopyGood, hs1]
    exact ⟨h, rfl⟩

theorem unwrap_keeps_lost (hbadA : f.keyA.getLsbD k.val = false) (hbadB : f.keyB.getLsbD k.val = false) (j : Kit)
    (s : State) (h : KeyGone k s) : KeyGone k (s.unwrap f j) := by
  by_cases hjk : j = k
  · subst hjk
    exact unwrap_lost hbadA hbadB h.losable
  · obtain ⟨hkit, -⟩ := unwrap_of_ne (s := s) (f := f) hjk
    rwa [KeyGone, hkit]

theorem unwrap_keeps_losable (hbadA : f.keyA.getLsbD k.val = false) (hbadB : f.keyB.getLsbD k.val = false) (j : Kit)
    (s : State) (h : Losable k s) : Losable k (s.unwrap f j) := by
  by_cases hjk : j = k
  · subst hjk
    exact (unwrap_lost hbadA hbadB h).losable
  · obtain ⟨hkit, hmem⟩ := unwrap_of_ne (s := s) (f := f) hjk
    obtain ⟨hlive, hpresent, hlost⟩ := h
    rw [Losable, hkit]
    exact ⟨hlive, hpresent, hlost.imp_right (mt hmem)⟩

theorem forEach_keeps {α : Type} {P : State → Prop} {g : α → State → State} (h : ∀ x s, P s → P (g x s)) (l : List α)
    (s : State) (hs : P s) : P (forEach g l s) :=
  forEach_forall (R := fun s t => P s → P t) (fun _ => id) (fun _ _ _ hst htu hs => htu (hst hs)) h l s hs

/-- The Kits before Kit `k` leave its key losable, its own turn loses it, and the Kits after it leave it lost. -/
theorem unwrap_all_lost (hbadA : f.keyA.getLsbD k.val = false) (hbadB : f.keyB.getLsbD k.val = false) (h : Losable k s) :
    ((forEach (State.unwrap f) allKits s).kit k).keylost = true := by
  obtain ⟨before, after, hsplit⟩ := List.append_of_mem (show k ∈ allKits from List.mem_finRange k)
  have hbefore := forEach_keeps (unwrap_keeps_losable hbadA hbadB) before s h
  have hown := unwrap_lost hbadA hbadB hbefore
  rw [hsplit, forEach_append]
  exact (forEach_keeps (unwrap_keeps_lost hbadA hbadB) after _ hown).2.2

theorem unwrap_all_kept (h : CopyGood f k s) : ((forEach (State.unwrap f) allKits s).kit k).keylost = (s.kit k).keylost := by
  have hkeeps (j : Kit) (t : State) (ht : CopyGood f k t ∧ (t.kit k).keylost = (s.kit k).keylost) :
      CopyGood f k (t.unwrap f j) ∧ ((t.unwrap f j).kit k).keylost = (s.kit k).keylost := by
    obtain ⟨hgood, hlost⟩ := ht
    by_cases hjk : j = k
    · subst hjk
      obtain ⟨hgood', hlost'⟩ := unwrap_kept hgood
      exact ⟨hgood', hlost'.trans hlost⟩
    · obtain ⟨hkit, -⟩ := unwrap_of_ne (s := t) (f := f) hjk
      rw [CopyGood, hkit]
      exact ⟨hgood, hlost⟩
  exact (forEach_keeps (P := fun t => CopyGood f k t ∧ (t.kit k).keylost = (s.kit k).keylost) hkeeps allKits s ⟨h, rfl⟩).2

/-- Whatever the keys' root wrap, a Kit that was there stays, its key present. -/
theorem keyLost_keeps_key : ((s.keyLost j).kit k).live = (s.kit k).live ∧
    ((s.keyLost j).kit k).key = (s.kit k).key := by
  by_cases hjk : j = k
  · subst hjk
    rw [keyLost_kit_same]
    exact ⟨rfl, rfl⟩
  · rw [keyLost_kit_of_ne hjk]
    exact ⟨rfl, rfl⟩

theorem rootWrap_keeps_losable (habsent : s.bel.recAbsent = []) (hlive : (s.kit k).live = true)
    (hpresent : (s.kit k).key.present = true) : Losable k (s.recBad .rootWrap) := by
  obtain ⟨u, hu, hkits, hmem⟩ := recBad_of_new (s := s) (r := .rootWrap) (by simp [habsent])
  have hkit := kit_of_kits hkits k
  have hkeep (j : Kit) (t : State) (ht : (t.kit k).live = true ∧ (t.kit k).key.present = true) :
      ((t.keyLost j).kit k).live = true ∧ ((t.keyLost j).kit k).key.present = true := by
    obtain ⟨hl, hk⟩ := keyLost_keeps_key (s := t) (j := j) (k := k)
    rwa [hl, hk]
  have hstart : (u.kit k).live = true ∧ (u.kit k).key.present = true := by
    rw [hkit]
    exact ⟨hlive, hpresent⟩
  obtain ⟨hliveAfter, hpresentAfter⟩ := forEach_keeps hkeep allKits u hstart
  have hbel : (u.absentRec .rootWrap).bel.recAbsent = [.rootWrap] := by
    rw [absentRec_bel, hmem, habsent, List.nil_append]
  have hall : u.absentRec .rootWrap = forEach (fun (j : Kit) (t : State) => t.keyLost j) allKits u := rfl
  rw [hu, Losable, hbel, hall]
  exact ⟨hliveAfter, hpresentAfter, .inr (by simp)⟩

end

end Sys2Proof.Machine

namespace Sys2Proof.Machine

/-! ### What Fill leaves alone while it reads the keys (13 R347, 08 R219) -/

/-- The general registers, both rings, the count of Beats and the Toll's registers are the same. -/
abbrev SameFrame (s t : State) : Prop :=
  t.gen = s.gen ∧ t.bar = s.bar ∧ t.ringA = s.ringA ∧ t.ringB = s.ringB ∧ t.toll = s.toll

theorem SameFrame.refl (s : State) : SameFrame s s := ⟨rfl, rfl, rfl, rfl, rfl⟩

theorem SameFrame.trans {s t u : State} (hst : SameFrame s t) (htu : SameFrame t u) : SameFrame s u := by
  obtain ⟨h1, h2, h3, h4, h5⟩ := hst
  obtain ⟨g1, g2, g3, g4, g5⟩ := htu
  exact ⟨g1.trans h1, g2.trans h2, g3.trans h3, g4.trans h4, g5.trans h5⟩

theorem forEach_frame {α : Type} {g : α → State → State} (h : ∀ x s, SameFrame s (g x s)) (l : List α) (s : State) :
    SameFrame s (forEach g l s) :=
  forEach_forall (R := SameFrame) SameFrame.refl (fun _ _ _ => SameFrame.trans) h l s

section
variable {s : State} {f : FillFind} {k : Kit}

theorem keyLost_frame (k : Kit) (s : State) : SameFrame s (s.keyLost k) := by
  unfold State.keyLost
  extract_lets x
  split
  · exact SameFrame.refl s
  · simp [SameFrame]

theorem absentRec_key (s : State) (k : Kit) : s.absentRec (.key k) = s.keyLost k := rfl

theorem absentRec_rootWrap (s : State) :
    s.absentRec .rootWrap = forEach (fun (k : Kit) (t : State) => t.keyLost k) allKits s := rfl

theorem recBad_frame {r : RecId} (h : ∀ u : State, SameFrame u (u.absentRec r)) : SameFrame s (s.recBad r) := by
  unfold State.recBad
  split
  · exact SameFrame.refl s
  · refine SameFrame.trans ?_ (h _)
    exact ⟨rfl, rfl, rfl, rfl, rfl⟩

theorem unwrap_frame (f : FillFind) (k : Kit) (s : State) : SameFrame s (s.unwrap f k) := by
  unfold State.unwrap
  extract_lets x a b key s1
  have hs1 : SameFrame s s1 := ⟨rfl, rfl, rfl, rfl, rfl⟩
  split
  · exact SameFrame.refl s
  · split
    · exact hs1
    · refine hs1.trans (recBad_frame fun u => ?_)
      rw [absentRec_key]
      exact keyLost_frame k u

/-- The root wrap's record, then the key copies of every Kit. -/
def State.keysFound (s : State) (f : FillFind) : State :=
  forEach (State.unwrap f) allKits (if f.rootWrap then s else s.recBad .rootWrap)

theorem keysFound_frame (s : State) (f : FillFind) : SameFrame s (s.keysFound f) := by
  have hkeys (t : State) : SameFrame t (forEach (State.unwrap f) allKits t) := forEach_frame (unwrap_frame f) allKits t
  unfold State.keysFound
  split
  · exact hkeys s
  · refine (recBad_frame fun u => ?_).trans (hkeys _)
    rw [absentRec_rootWrap]
    exact forEach_frame keyLost_frame allKits u

@[simp] theorem keysFound_still (s : State) (f : FillFind) : Still s (s.keysFound f) := by
  have hkeys (t : State) : Still t (forEach (State.unwrap f) allKits t) := forEach_still (unwrap_still f) allKits t
  unfold State.keysFound
  split
  · exact hkeys s
  · exact (recBad_still s .rootWrap).trans (hkeys _)

theorem keysFound_lost (habsent : s.bel.recAbsent = []) (hlive : (s.kit k).live = true)
    (hpresent : (s.kit k).key.present = true) (hbadA : f.keyA.getLsbD k.val = false) (hbadB : f.keyB.getLsbD k.val = false) :
    ((s.keysFound f).kit k).keylost = true := by
  unfold State.keysFound
  split
  · exact unwrap_all_lost hbadA hbadB ⟨hlive, hpresent, .inr (by simp [habsent])⟩
  · exact unwrap_all_lost hbadA hbadB (rootWrap_keeps_losable habsent hlive hpresent)

theorem keysFound_kept (hroot : f.rootWrap = true) (h : CopyGood f k s) :
    ((s.keysFound f).kit k).keylost = (s.kit k).keylost := by
  unfold State.keysFound
  rw [if_pos hroot]
  exact unwrap_all_kept h

theorem markRecants_frame (s : State) : SameFrame s s.markRecants ∧ s.markRecants.kits = s.kits := by
  unfold State.markRecants
  extract_lets ecc s1 s2
  have hs1 : SameFrame s s1 ∧ s1.kits = s.kits := by
    unfold s1
    split <;> exact ⟨⟨rfl, rfl, rfl, rfl, rfl⟩, rfl⟩
  unfold s2
  split <;> exact hs1

theorem enter_frame (s : State) (m : Mode) (trig : Nat) : SameFrame s (s.enter m trig) := by simp [SameFrame]

/-! ### The patch (01 R23) -/

theorem patchLoad_bad (hpresent : f.patchPresent = true) (hbad : f.patchGood = false) :
    (s.patchLoad f).gen.romOnly = true := by
  simp [State.patchLoad, hpresent, hbad]

theorem patchLoad_good (hpresent : f.patchPresent = true) (hgood : f.patchGood = true) :
    (s.patchLoad f).gen.romOnly = false ∧ (s.patchLoad f).gen.fwPatch = f.patchRelease := by
  simp [State.patchLoad, hpresent, hgood]

/-- The patch touches the general registers and the event log alone. -/
theorem patchLoad_keeps (s : State) (f : FillFind) : (s.patchLoad f).bar = s.bar ∧ (s.patchLoad f).ringA = s.ringA ∧
    (s.patchLoad f).ringB = s.ringB ∧ (s.patchLoad f).toll = s.toll ∧ (s.patchLoad f).kits = s.kits ∧
    (s.patchLoad f).bel.recAbsent = s.bel.recAbsent := by
  unfold State.patchLoad
  split
  · obtain ⟨-, -, -, habsent⟩ := log_keeps s.bel ⟨0x0102, s.tb, s.logTime, 0 % 2 ^ 32, none⟩
    exact ⟨rfl, rfl, rfl, rfl, rfl, habsent⟩
  · exact ⟨rfl, rfl, rfl, rfl, rfl, rfl⟩

/-! ### The beat source opens its switches (17 R414) -/

theorem masterOpens_of_not_source (h : s.bar.beatsrc = false) : s.masterOpens = s := by
  simp [State.masterOpens, h]

theorem masterOpens_rate (h : s.bar.beatsrc = true) : s.masterOpens.bar.rate = s.bar.srcRate := by
  simp [State.masterOpens, h]

theorem masterOpens_swOpen (h : s.bar.beatsrc = true) (hclock : s.ringA.clockBad = false) :
    s.masterOpens.ringA.swOpen = true := by
  simp [State.masterOpens, h, hclock, RingSt.open_]

theorem masterOpens_keeps (s : State) : s.masterOpens.gen = s.gen ∧ s.masterOpens.toll = s.toll ∧
    s.masterOpens.kits = s.kits := by
  unfold State.masterOpens
  split <;> exact ⟨rfl, rfl, rfl⟩

/-! ### Fill leads to Join (13 R347, 17 R410) -/

/-- Fill as it leaves Fill: the Toll over, the patch loaded, the keys read. -/
def State.filled (s : State) (f : FillFind) : State :=
  (({ s with toll := { s.toll with part := 0 } }).patchLoad f).keysFound f

theorem filled_still (s : State) (f : FillFind) : Still s (s.filled f) := by
  have hpart : Still s { s with toll := { s.toll with part := 0 } } := ⟨rfl, rfl, rfl, rfl⟩
  unfold State.filled
  generalize { s with toll := { s.toll with part := 0 } } = t at hpart ⊢
  exact hpart.trans ((patchLoad_still t f).trans (keysFound_still (t.patchLoad f) f))

theorem filled_frame (s : State) (f : FillFind) : (s.filled f).bar = s.bar ∧ (s.filled f).ringA = s.ringA ∧
    (s.filled f).ringB = s.ringB ∧ (s.filled f).toll.part = 0 ∧
    (s.filled f).gen = (({ s with toll := { s.toll with part := 0 } }).patchLoad f).gen := by
  obtain ⟨hgen, hbar, hringA, hringB, htoll⟩ := keysFound_frame (({ s with toll := { s.toll with part := 0 } }).patchLoad f) f
  obtain ⟨hbar', hringA', hringB', htoll', -, -⟩ := patchLoad_keeps { s with toll := { s.toll with part := 0 } } f
  exact ⟨hbar.trans hbar', hringA.trans hringA', hringB.trans hringB', by rw [State.filled, htoll, htoll'], hgen⟩

theorem filled_lost (habsent : s.bel.recAbsent = []) (hlive : (s.kit k).live = true)
    (hpresent : (s.kit k).key.present = true) (hbadA : f.keyA.getLsbD k.val = false) (hbadB : f.keyB.getLsbD k.val = false) :
    ((s.filled f).kit k).keylost = true := by
  obtain ⟨-, -, -, -, hkits, hrec⟩ := patchLoad_keeps { s with toll := { s.toll with part := 0 } } f
  have hkit := kit_of_kits (s := s) hkits k
  exact keysFound_lost (hrec.trans habsent) (by rw [hkit, hlive]) (by rw [hkit, hpresent]) hbadA hbadB

theorem filled_kept (hroot : f.rootWrap = true) (h : CopyGood f k s) : ((s.filled f).kit k).keylost = (s.kit k).keylost := by
  obtain ⟨-, -, -, -, hkits, -⟩ := patchLoad_keeps { s with toll := { s.toll with part := 0 } } f
  have hkit := kit_of_kits (s := s) hkits k
  rw [← hkit]
  exact keysFound_kept hroot (by rwa [CopyGood, hkit])

theorem fillDone_joins (hmode : s.mode = .fill) (hcomp : s.completing = false) (hfatal : s.toll.fatal = none)
    (hdue : s.knl.due = []) : s.fillDone f = (((s.filled f).markRecants).enter .join 0x10).masterOpens := by
  unfold State.fillDone
  rw [if_neg (by simp [hmode, hcomp]), hfatal]
  dsimp only
  rw [if_neg (by simp [hdue]), State.filled, State.keysFound]

/-- FromTollToRun, Fill with no fatal outcome. -/
theorem fillDone_leads (hmode : s.mode = .fill) (hcomp : s.completing = false) (hfatal : s.toll.fatal = none)
    (hdue : s.knl.due = []) (habsent : s.bel.recAbsent = []) :
    ∃ t, exec (.fillDone f) s = .next t ∧ t.mode = .join ∧ t.toll.part = 0 ∧
      (f.patchPresent = true → f.patchGood = false → t.gen.romOnly = true) ∧
      (f.patchPresent = true → f.patchGood = true → t.gen.romOnly = false ∧ t.gen.fwPatch = f.patchRelease) ∧
      (∀ k : Kit, (s.kit k).live = true → (s.kit k).key.present = true → f.keyA.getLsbD k.val = false →
        f.keyB.getLsbD k.val = false → (t.kit k).keylost = true) ∧
      (∀ k : Kit, f.rootWrap = true → (f.keyA.getLsbD k.val = true ∧ (s.kit k).key.storedA = true ∨
          f.keyB.getLsbD k.val = true ∧ (s.kit k).key.storedB = true) →
        (t.kit k).keylost = (s.kit k).keylost) ∧
      (s.bar.beatsrc = false → t.ringA = s.ringA ∧ t.ringB = s.ringB) ∧
      (s.bar.beatsrc = true → t.bar.rate = s.bar.srcRate ∧ (s.ringA.clockBad = false → t.ringA.swOpen = true)) ∧
      (∀ a, cellGet t.mram a = cellGet s.mram a) := by
  have hexec : exec (.fillDone f) s = .next (s.fillDone f) := rfl
  refine ⟨_, hexec.trans (congrArg _ (fillDone_joins hmode hcomp hfatal hdue)), ?_⟩
  obtain ⟨hbar, hringA, hringB, hpart, hgen⟩ := filled_frame s f
  obtain ⟨hmram, -, -, -⟩ := filled_still s f
  have hlost (k : Kit) := filled_lost (f := f) (k := k) habsent
  have hkept (k : Kit) := filled_kept (s := s) (f := f) (k := k)
  generalize s.filled f = u at *
  obtain ⟨⟨mgen, mbar, mringA, mringB, mtoll⟩, mkits⟩ := markRecants_frame u
  obtain ⟨mmram, -, -, -⟩ := markRecants_still u
  generalize u.markRecants = v at *
  obtain ⟨egen, ebar, eringA, eringB, etoll⟩ := enter_frame v .join 0x10
  have ekits := enter_kits v .join 0x10
  have emram := enter_mram v .join 0x10
  have emode := enter_mode v .join 0x10
  generalize v.enter .join 0x10 = w at *
  obtain ⟨ogen, otoll, okits⟩ := masterOpens_keeps w
  obtain ⟨omram, -, -, omode⟩ := masterOpens_still w
  have wbar : w.bar = s.bar := ebar.trans (mbar.trans hbar)
  have wringA : w.ringA = s.ringA := eringA.trans (mringA.trans hringA)
  have wringB : w.ringB = s.ringB := eringB.trans (mringB.trans hringB)
  have tgen := ogen.trans (egen.trans (mgen.trans hgen))
  have tkit (k : Kit) : w.masterOpens.kit k = u.kit k := kit_of_kits (okits.trans (ekits.trans mkits)) k
  refine ⟨omode.trans emode, ?_, fun h1 h2 => ?_, fun h1 h2 => ?_, fun k h1 h2 h3 h4 => ?_, fun k h1 h2 => ?_,
    fun h => ?_, fun h => ⟨?_, fun hclock => ?_⟩, fun a => ?_⟩
  · rw [otoll, etoll, mtoll, hpart]
  · rw [tgen, patchLoad_bad h1 h2]
  · rw [tgen]
    exact patchLoad_good h1 h2
  · rw [tkit, hlost k h1 h2 h3 h4]
  · rw [tkit, hkept k h1 h2]
  · rw [masterOpens_of_not_source (by rw [wbar, h])]
    exact ⟨wringA, wringB⟩
  · rw [masterOpens_rate (by rw [wbar, h]), wbar]
  · exact masterOpens_swOpen (by rw [wbar, h]) (by rw [wringA, hclock])
  · rw [omram, emram, mmram, hmram]

end

end Sys2Proof.Machine

namespace Sys2Proof.Machine

/-! ### Fill with a fatal outcome held (13 R395) -/

section
variable {s : State} {f : FillFind} {x : TollFail}

theorem fillDone_knell (hmode : s.mode = .fill) (hcomp : s.completing = false) (hfatal : s.toll.fatal = some x)
    (hcore : s.toll.coreOk = true) :
    ∃ t, exec (.fillDone f) s = .next t ∧ t.mode = .fill ∧ t.toll.fatal = none ∧
      t.knl.due = s.knl.due ++ [if x.part = 0x06 then (0x02, x.value.toNat)
        else (0x01, x.part.toNat + 256 * x.unit.toNat)] := by
  refine ⟨s.fillDone f, rfl, ?_⟩
  unfold State.fillDone
  rw [if_neg (by simp [hmode, hcomp]), hfatal]
  dsimp only
  rw [if_neg (by simp [hcore])]
  by_cases hchk : x.part = 0x06
  · rw [if_pos (by simp [hchk]), if_pos hchk]
    exact ⟨hmode, rfl, rfl⟩
  · rw [if_neg (by simpa using hchk), if_neg hchk]
    exact ⟨hmode, rfl, rfl⟩

/-- The summary alone is written, and the switches close. -/
theorem summaryOnly_leads (s : State) (detail : Nat) : ∃ y, (s.summaryOnly detail).mode = .knelled ∧
    (s.summaryOnly detail).knl.summary = some y ∧ y.cause = (1, 0) ∧ y.recstate = 4 ∧
    (s.summaryOnly detail).mram = s.mram := by
  unfold State.summaryOnly
  extract_lets seq x
  obtain ⟨bel, stk, bytes, hput⟩ := putSummary_changes ((s.spend (b2n s.tb)).raise .knl 0x01) x
    (summaryBody s x (0, 0)) 32
  refine ⟨{ x with bytes := bytes }, enter_mode .., ?_, rfl, rfl, ?_⟩
  · rw [enter_knl, closeBoth_knl, hput]
  · rw [enter_mram, (closeBoth_still _).1, hput]
    rfl

theorem fillDone_summary (hmode : s.mode = .fill) (hcomp : s.completing = false) (hfatal : s.toll.fatal = some x)
    (hcore : s.toll.coreOk = false) : ∃ t y, exec (.fillDone f) s = .next t ∧ t.mode = .knelled ∧
      t.knl.summary = some y ∧ y.cause = (1, 0) ∧ y.recstate = 4 ∧ (∀ a, cellGet t.mram a = cellGet s.mram a) := by
  have hdone : s.fillDone f =
      ({ s with toll := { s.toll with part := 0, fatal := none } }).summaryOnly (tollDetail x) := by
    unfold State.fillDone
    rw [if_neg (by simp [hmode, hcomp]), hfatal]
    dsimp only
    rw [if_pos (by simp [hcore])]
  have hexec : exec (.fillDone f) s = .next (s.fillDone f) := rfl
  obtain ⟨y, hknelled, hsummary, hcause, hstate, hmram⟩ :=
    summaryOnly_leads { s with toll := { s.toll with part := 0, fatal := none } } (tollDetail x)
  exact ⟨_, y, hexec.trans (congrArg _ hdone), hknelled, hsummary, hcause, hstate, fun a => by rw [hmram]⟩

theorem fillDone_elsewhere (hmode : s.mode ≠ .fill) : exec (.fillDone f) s = .next s := by
  have hsame : s.fillDone f = s := by simp [State.fillDone, hmode]
  exact congrArg Host.Outcome.next hsame

end

/-! ### The heat snapshot (09 R255) -/

section
variable {s : State} {heats : List (Kit × KPage × Nat)} {n : Nat}

theorem heatSnapshotRestore_good (hmode : s.mode = .join) (hsnap : s.tier.snapshot = some (heats, n))
    (hdone : s.tier.snapDone = false) (htrained : s.ringA.trained = true) (hcomp : s.completing = false)
    (htoll : s.tier.snapToll = true) : ∃ t, exec (.heatSnapshotRestore true) s = .next t ∧ t.tier.snaprest = true ∧
      t.tier.snapDone = true ∧ t.tier.snapshot = none ∧ t.pages = s.pages.map (fun p =>
        { p with heat := ((heats.find? fun h => h.1 == p.kit && h.2.1 == p.kp).map fun h => h.2.2).getD 0 }) := by
  refine ⟨s.snapRestore true, rfl, ?_⟩
  unfold State.snapRestore
  rw [hsnap]
  dsimp -zeta only
  rw [if_neg (by simp [hmode, hdone, htrained, hcomp])]
  extract_lets before s1 heatOf hot kept tier
  rw [if_pos (by simp [htoll])]
  obtain ⟨bel, free, hput⟩ := putRecTwo_changes (s := { s with pages := s.pages.map hot, tier := tier }) (r := .deviceState)
  rw [hput]
  refine ⟨rfl, rfl, rfl, List.map_congr_left fun p _ => ?_⟩
  simp only [hot, heatOf]
  cases heats.find? fun h => h.1 == p.kit && h.2.1 == p.kp <;> rfl

theorem heatSnapshotRestore_bad (hmode : s.mode = .join) (hsnap : s.tier.snapshot = some (heats, n))
    (hdone : s.tier.snapDone = false) (htrained : s.ringA.trained = true) (hcomp : s.completing = false) (good : Bool)
    (hbad : (good && s.tier.snapToll) = false) : ∃ t, exec (.heatSnapshotRestore good) s = .next t ∧
      t.tier.snapDone = true ∧ t.tier.snaprest = s.tier.snaprest ∧ (t.ev .tier).bits.getLsbD 0 = true ∧
      t.pages = s.pages := by
  refine ⟨s.snapRestore good, rfl, ?_⟩
  unfold State.snapRestore
  rw [hsnap]
  dsimp only
  rw [if_neg (by simp [hmode, hdone, htrained, hcomp]), if_neg (by simp [hbad])]
  refine ⟨rfl, rfl, ?_, rfl⟩
  rw [ev_raise_same]
  simp

theorem heatSnapshotRestore_none (hsnap : s.tier.snapshot = none) (good : Bool) :
    exec (.heatSnapshotRestore good) s = .next s := by
  have hsame : s.snapRestore good = s := by simp [State.snapRestore, hsnap]
  exact congrArg Host.Outcome.next hsame

end

/-! ### Too long a Join (17 R413) -/

theorem joinTimeout_late {s : State} (hmode : s.mode = .join) : ∃ t, exec .joinTimeout s = .next t ∧ t.mode = .join ∧
    (t.ev .gen).bits.getLsbD 1 = true ∧ SameStores s t := by
  refine ⟨s.joinLate, rfl, ?_⟩
  unfold State.joinLate
  rw [if_neg (by simp [hmode])]
  obtain ⟨-, -, hmem, -⟩ := logRec_still ((s.raise .gen 0x02).spend 2) ((Config.freeWord s.free).toNat % 65536)
    (Config.freeWord (s.free + 1)).toNat none
  refine ⟨hmode, ?_, sameStores_of_eq rfl rfl hmem⟩
  change ((s.raise .gen 0x02).ev .gen).bits.getLsbD 1 = true
  rw [ev_raise_same]
  simp

theorem joinTimeout_elsewhere {s : State} (hmode : s.mode ≠ .join) : exec .joinTimeout s = .next s := by
  have hsame : s.joinLate = s := by simp [State.joinLate, hmode]
  exact congrArg Host.Outcome.next hsame

end Sys2Proof.Machine

namespace Sys2Proof.Machine

/-! ### The first Downbeat of Run (02 R38, 17 R412) -/

/-- The count of Beats stands where it stood: BEATNO, whether it is counted, and the Bars that it is tied to. -/
abbrev SameCount (b c : Bar) : Prop :=
  c.beatno = b.beatno ∧ c.counted = b.counted ∧ c.mbarJoin = b.mbarJoin ∧ c.lastMbar = b.lastMbar

section
variable {s : State} {m : Marker} {p : Nat}

@[simp] theorem mendKey_bar (s : State) (k : Kit) : (s.mendKey k).bar = s.bar := by simp [State.mendKey]

@[simp] theorem recsLater_bar (s : State) : s.recsLater.bar = s.bar := by simp [State.recsLater]

@[simp] theorem firstBeat_bar (s : State) : s.firstBeat.bar = s.bar := by simp [State.firstBeat]

theorem retrainAt_count (s : State) (mbar : BitVec 32) : SameCount s.bar (s.retrainAt mbar).bar := by
  unfold State.retrainAt
  split
  · split <;> exact ⟨rfl, rfl, rfl, rfl⟩
  · exact ⟨rfl, rfl, rfl, rfl⟩

theorem barStarts_bar (s : State) (marked : Bool) : SameCount s.bar (s.barStarts marked).bar ∧
    (s.barStarts marked).bar.beatsrc = s.bar.beatsrc := by
  simp [SameCount, State.barStarts]

theorem serving_serves (s : State) : s.serving = .run ∨ s.serving = .degraded := by
  unfold State.serving
  split
  · exact .inr rfl
  · exact .inl rfl

/-- A Downbeat in Run or Degraded, of a device that is not the beat source, leaves the count and the mode of service. -/
theorem firstDown_keeps (hsource : s.bar.beatsrc = false) (hserves : s.mode = .run ∨ s.mode = .degraded) (mbar : BitVec 32) :
    ∃ t, ((((((s.barMeasured p).barStarts true).downChanges.masterBeats).degrades).runBeat.retrainAt mbar).firstBeat) = t ∧
      SameCount s.bar t.bar ∧ (t.mode = .run ∨ t.mode = .degraded) := by
  refine ⟨_, rfl, ?_⟩
  obtain ⟨⟨hbeatno, hcounted, hjoin, hlast⟩, hsrc⟩ := barStarts_bar (s.barMeasured p) true
  obtain ⟨-, -, -, hmode⟩ := barStarts_still (s.barMeasured p) true
  rw [barMeasured_bar] at hbeatno hcounted hjoin hlast hsrc
  rw [barMeasured_mode] at hmode
  generalize (s.barMeasured p).barStarts true = u at *
  rw [masterBeats_of_not_source (s := u.downChanges) (by rw [downChanges_bar, hsrc, hsource])]
  have hserves' := degrades_serves (s := u.downChanges) (by rwa [downChanges_mode, hmode])
  obtain ⟨rbeatno, rcounted, rjoin, rlast⟩ := retrainAt_count u.downChanges.degrades.runBeat mbar
  obtain ⟨-, -, -, rmode⟩ := retrainAt_still u.downChanges.degrades.runBeat mbar
  rw [runBeat_bar, degrades_bar, downChanges_bar] at rbeatno rcounted rjoin rlast
  rw [firstBeat_bar, firstBeat_mode, rmode, runBeat_mode]
  exact ⟨⟨rbeatno.trans hbeatno, rcounted.trans hcounted, rjoin.trans hjoin, rlast.trans hlast⟩, hserves'⟩

theorem runEntry_completes (hmode : s.mode = .join) (hjoined : s.ringA.joined = true) (hready : s.deep.ready = true)
    (hcomp : s.completing = false) (hsnap : s.tier.snapDone = true ∨ s.tier.snapshot = none)
    (hdown : markerDown m s.bar.rate = true) (hcounted : s.bar.counted = false) (hsource : s.bar.beatsrc = false) :
    ∃ t, exec (.runEntry ⟨m, p⟩) s = .next t ∧ t.bar.beatno = 0 ∧ t.bar.counted = true ∧ t.bar.mbarJoin = m.mbar ∧
      t.bar.lastMbar = some m.mbar ∧ (t.mode = .run ∨ t.mode = .degraded) := by
  have hjoin : s.joinReady = true := by
    obtain hdone | hnone := hsnap
    · simp [State.joinReady, hmode, hjoined, hready, hcomp, hdone]
    · simp [State.joinReady, hmode, hjoined, hready, hcomp, hnone]
  refine ⟨s.runEntry m p, rfl, ?_⟩
  unfold State.runEntry
  extract_lets own ringA s1 s2
  have hown : m = own := by simp [own, State.ownDown, hsource]
  clear_value own
  subst hown
  rw [if_neg (by simp [hjoin, hdown, hsource]), if_neg (by simp [hcounted])]
  have hbar : s1.bar = s.bar.starts m.mbar := enter_bar ..
  have hserves : s1.mode = .run ∨ s1.mode = .degraded := by
    rw [show s1.mode = _ from enter_mode ..]
    exact serving_serves s
  clear_value s1
  obtain ⟨t, ht, ⟨hbeatno, hcount, hbarjoin, hlast⟩, hmodes⟩ :=
    firstDown_keeps (s := s1) (p := p) (by rw [hbar]; exact hsource) hserves m.mbar
  rw [hbar] at hbeatno hcount hbarjoin hlast
  rw [show (s2.masterBeats.degrades.runBeat.retrainAt m.mbar).firstBeat = t from ht]
  exact ⟨hbeatno, hcount, hbarjoin, hlast, hmodes⟩

theorem runEntry_elsewhere (h : s.mode ≠ .join ∨ s.ringA.joined = false ∨ s.deep.ready = false ∨
    (s.bar.beatsrc = false ∧ markerDown m s.bar.rate = false) ∨ (s.bar.beatsrc = true ∧ s.bar.srcBeat ≠ 1023)) :
    exec (.runEntry ⟨m, p⟩) s = .next s := by
  have hsame : s.runEntry m p = s := by
    unfold State.runEntry
    extract_lets own ringA s1 s2
    refine if_pos ?_
    rcases h with h | h | h | ⟨hsrc, hdown⟩ | ⟨hsrc, hbeat⟩
    · simp [State.joinReady, h]
    · simp [State.joinReady, h]
    · simp [State.joinReady, h]
    · simp [own, State.ownDown, hsrc, hdown]
    · simp [hsrc, hbeat]
  exact congrArg Host.Outcome.next hsame

end

/-! ### From the Toll to Run -/

/-- Settles O48: the Toll, Fill, the heat snapshot and Join, each by its own lemma above. Fill queues a fatal outcome for the
KNELL row (the model's choice, log 23), and a checker's failure gives the Knell its measured value as DETAIL (the model's
reading, log 79). -/
theorem fromTollToRun : Obligations.FromTollToRun := by
  unfold Obligations.FromTollToRun
  intro s
  refine ⟨fun f hwf hmode hcomp => morningTollDone_completes hwf hmode hcomp,
    fun f hwf hmode => morningTollDone_elsewhere hwf hmode,
    fun f hmode hcomp hfatal hdue habsent => fillDone_leads hmode hcomp hfatal hdue habsent,
    fun f x hmode hcomp hfatal hcore => fillDone_knell hmode hcomp hfatal hcore,
    fun f x hmode hcomp hfatal hcore => fillDone_summary hmode hcomp hfatal hcore,
    fun f hmode => fillDone_elsewhere hmode,
    fun heats n hmode hsnap hdone htrained hcomp =>
      ⟨fun htoll => heatSnapshotRestore_good hmode hsnap hdone htrained hcomp htoll,
        fun good hbad => heatSnapshotRestore_bad hmode hsnap hdone htrained hcomp good hbad⟩,
    fun good hsnap => heatSnapshotRestore_none hsnap good,
    fun m p hmode hjoined hready hcomp hsnap hdown hcounted hsource =>
      runEntry_completes hmode hjoined hready hcomp hsnap hdown hcounted hsource,
    fun m p h => runEntry_elsewhere h, fun hmode => joinTimeout_late hmode, fun hmode => joinTimeout_elsewhere hmode⟩

end Sys2Proof.Machine
